-- ==== Sys2Proof/Word.lean ====
section
/-! DEFINITION. The word types of the part and the index types of its levels (R2, R3, R8, R9). -/

namespace Sys2Proof

/-- One byte. -/
abbrev Byte := BitVec 8
/-- A 16-bit half word. -/
abbrev Half := BitVec 16
/-- A 32-bit register or message word. -/
abbrev Word := BitVec 32
/-- A 64-bit counter or sequence number. -/
abbrev DWord := BitVec 64
/-- A lane designator, L0 to L23 (R2). -/
abbrev LaneIx := Fin 24
/-- A cluster designator, C0 to C11 (R2). -/
abbrev ClusterIx := Fin 12
/-- A region designator, G0 to G3 (R2). -/
abbrev RegionIx := Fin 4
/-- A die designator, D0 or D1 (R2). -/
abbrev DieIx := Fin 2
/-- A LUN of one lane: CE × 4 + LUN, 0 to 31 (R3). -/
abbrev LunIx := Fin 32
/-- One of the eight contexts of a lane (R42). -/
abbrev CtxIx := Fin 8

/-- The cluster of a lane, ⌊L/2⌋ (R3). -/
def clusterOfLane (l : LaneIx) : ClusterIx := ⟨l.val / 2, by omega⟩
/-- The region of a lane, ⌊L/6⌋ (R3). -/
def regionOfLane (l : LaneIx) : RegionIx := ⟨l.val / 6, by omega⟩
/-- The die of a lane, ⌊L/12⌋ (R3). -/
def dieOfLane (l : LaneIx) : DieIx := ⟨l.val / 12, by omega⟩
/-- The region of a cluster: three clusters a region (R3). -/
def regionOfCluster (c : ClusterIx) : RegionIx := ⟨c.val / 3, by omega⟩
/-- The die of a cluster: six clusters a die (R3). -/
def dieOfCluster (c : ClusterIx) : DieIx := ⟨c.val / 6, by omega⟩
/-- The die of a region, ⌊G/2⌋ (R18). -/
def dieOfRegion (g : RegionIx) : DieIx := ⟨g.val / 2, by omega⟩
/-- The other region of the same die, G xor 1 (R17). -/
def siblingRegion (g : RegionIx) : RegionIx := ⟨if g.val % 2 = 0 then g.val + 1 else g.val - 1, by split <;> omega⟩
/-- The partner region on the other die, G xor 2 (R17, R132). -/
def partnerRegion (g : RegionIx) : RegionIx := ⟨(g.val + 2) % 4, by omega⟩
/-- The other die of the package. -/
def otherDie (d : DieIx) : DieIx := ⟨1 - d.val, by omega⟩
/-- The two lanes of a cluster. -/
def lanesOfCluster (c : ClusterIx) : List LaneIx := [⟨2 * c.val, by omega⟩, ⟨2 * c.val + 1, by omega⟩]
/-- The three clusters of a region. -/
def clustersOfRegion (g : RegionIx) : List ClusterIx :=
  [⟨3 * g.val, by omega⟩, ⟨3 * g.val + 1, by omega⟩, ⟨3 * g.val + 2, by omega⟩]
/-- The six lanes of a region. -/
def lanesOfRegion (g : RegionIx) : List LaneIx := (List.finRange 24).filter fun l => regionOfLane l == g
/-- The twelve lanes of a die. -/
def lanesOfDie (d : DieIx) : List LaneIx := (List.finRange 24).filter fun l => dieOfLane l == d
/-- The two regions of a die. -/
def regionsOfDie (d : DieIx) : List RegionIx := (List.finRange 4).filter fun g => dieOfRegion g == d
/-- The 10-bit LUN number L×32 + CE×4 + LUN (R3). -/
def lunNumber (l : LaneIx) (u : LunIx) : Nat := l.val * 32 + u.val
/-- The lane of a LUN number (R3). -/
def laneOfLun (n : Fin 768) : LaneIx := ⟨n.val / 32, by omega⟩
/-- The place of a LUN number on its lane (R3). -/
def lunOnLane (n : Fin 768) : LunIx := ⟨n.val % 32, by omega⟩

/-- A count that holds at a ceiling (the saturating counters of the register maps). -/
def satAdd (ceiling a n : Nat) : Nat := min ceiling (a + n)

end Sys2Proof
end

