-- ==== Sys2Proof/Types/Host.lean ====
section
/-! DEFINITION. References to host commands and the status of their completions (NVMe; R281, R301). -/

namespace Sys2Proof

/-- A command of a host queue or of the management port's tunnel: the controller, the queue, the command identifier, and the
path (R490). Queue 0 is the admin queue. -/
structure CmdRef where
  ctrl : Fin 2
  qid : Nat
  cid : Half
  viaMi : Bool
  deriving DecidableEq, Repr

/-- Status code type, status code and Do Not Retry. -/
structure Status where
  sct : Nat
  sc : Nat
  dnr : Bool
  deriving DecidableEq, Repr

end Sys2Proof
end

