-- ==== Sys2Proof/Types/Options.lean ====
section
/-! DEFINITION. The option area's image and records (R389 to R410), as the fields their tables give, and firmware images (R441 to R445). -/

namespace Sys2Proof

/-- Densities of R65; bits per cell 1, 3, 4, 5 and 6. -/
inductive Density where
  | slc | tlc | qlc | plc | hlc
  deriving DecidableEq, Repr

/-- A member certificate (R245) as the check needs it. -/
structure Certificate where
  member : Nat
  swarmId : DWord
  /-- The member public key, named by an identifier. -/
  keyId : Nat
  fromEpoch : Nat
  /-- 0xFFFF_FFFF for no limit. -/
  toEpoch : Nat
  /-- The issuing authority's signature verifies. -/
  signed : Bool
  deriving DecidableEq, Repr

/-- Record 0x0001 (R395). A number of 0 selects a default where the table says so. -/
structure IdentityRec where
  swarmId : DWord
  member : Nat
  udpPort : Nat
  dscp : Nat
  port0 : Bool
  port1 : Bool
  addr0 : BitVec 128
  addr1 : BitVec 128
  gw0 : BitVec 128
  gw1 : BitVec 128
  prefix0 : Nat
  prefix1 : Nat
  authHash : BitVec 384
  cert : Option Certificate
  deriving DecidableEq, Repr

/-- A density entry of a media profile (R409). -/
structure DensityEntry where
  parity : Nat
  passes : Nat
  lag : Nat
  sweepStep : Nat
  refresh : Nat
  passRoutine : Nat
  softDelta : Nat
  deriving DecidableEq, Repr

/-- A default of one opcode of R40 (R408, DEFAULTS). -/
structure OpDefault where
  routine : Nat
  timeout : Nat
  deriving DecidableEq, Repr

/-- Record 0x0002, a media profile (R408 to R410, R530). -/
structure MediaProfile where
  /-- 1 ONFI 5.1 NV-LPDDR4, 2 JESD230 Toggle. -/
  iface : Nat
  maxRate : Nat
  /-- The densities supported. -/
  densities : List Density
  planes : Nat
  wordlines : Nat
  blocks : Nat
  pageBytes : Nat
  patchId : Nat
  idMatch : List Byte
  ea : Nat
  /-- Entries for SLC, TLC, QLC, PLC and HLC in that order. -/
  density : List DensityEntry
  minRun : Nat
  maxSusp : Nat
  suspLimit : Nat
  programsBarred : Bool
  /-- One entry for each opcode of R40 in table order. -/
  defaults : List OpDefault
  /-- 64 entry microaddresses; 0x3FFF none. -/
  routines : List Nat
  /-- 256 command bytes. -/
  opcodes : List Byte
  /-- 256 interface timings in ns. -/
  timings : List Nat
  odt : List Byte
  /-- Read-level tables, laid out by R410. -/
  levels : List Byte
  xrows : List Byte
  /-- The interface features that R50 marks not used are not needed. -/
  featuresOk : Bool
  deriving DecidableEq, Repr

/-- One lane of record 0x0003 (R397). -/
structure LanePop where
  profile : Option (Fin 4)
  ceMask : Byte
  lunMask : Word
  idleUs : Nat
  deriving DecidableEq, Repr

/-- Record 0x0004 (R398). -/
structure DensityPolicy where
  /-- Target of NSID n at index n − 1: 0 default, else 1, 3, 4, 5 or 6. -/
  target : List Nat
  foldHigh : Nat
  foldLow : Nat
  foldBuffers : Nat
  patrol : Nat
  /-- Spread limits for SLC, TLC, QLC, PLC and HLC. -/
  spread : List Nat
  refreshCount : Nat
  deriving DecidableEq, Repr

/-- Record 0x0005, one region's band geometry (R399). -/
structure GeometryRec where
  w : Nat
  sets : Nat
  spares : Nat
  slcSlots : Nat
  rb : Nat
  retireLimit : Nat
  op : Nat
  resRescue : Nat
  resJournal : Nat
  resStaging : Nat
  resRetract : Nat
  resRelocation : Nat
  markStart : Nat
  markUrgent : Nat
  markLow : Nat
  bandsStaging : Nat
  bandsJournal : Nat
  bandsCheckpoint : Nat
  bandsAccum : Nat
  /-- For each set, its W LUN numbers in position order. -/
  setLuns : List (List Nat)
  spareLuns : List Nat
  deriving DecidableEq, Repr

/-- Record 0x0006 (R400). The NQN is given by its length and an identifier. -/
structure HostPortsRec where
  ssvid : Half
  ssid : Half
  subnqn : List Byte
  deriving DecidableEq, Repr

/-- One entry of record 0x0007 (R401). -/
structure NamespaceRec where
  nsid : Nat
  lbaf : Nat
  nsze : Nat
  nguid : BitVec 128
  base : Nat
  phandles : List Nat
  deriving DecidableEq, Repr

/-- Record 0x0009 (R403), in its encodings. -/
structure PowerRec where
  vinNom : Nat
  loss : Nat
  warn : Nat
  cap : Nat
  target : Nat
  testLoad : Nat
  rescueP : Nat
  window : Nat
  interval : Nat
  chgTimeout : Nat
  vauxPresent : Bool
  deriving DecidableEq, Repr

/-- Record 0x000A (R404). -/
structure ThermalRec where
  present : BitVec 4
  media : BitVec 4
  darkTemp : Int
  deriving DecidableEq, Repr

/-- Record 0x000E (R407). -/
structure MgmtPortRec where
  addr : Nat
  speed : Nat
  eid : Nat
  writePermitted : Bool
  deriving DecidableEq, Repr

/-- The records of an option image (R394); an absent optional record takes its defaults. -/
structure OptRecords where
  identity : Option IdentityRec
  profiles : List (Option MediaProfile)
  lanes : Option (List LanePop)
  density : Option DensityPolicy
  geometry : List (Option GeometryRec)
  hostPorts : Option HostPortsRec
  namespaces : Option (List NamespaceRec)
  /-- 32 entries: 16 of controller 0x0001, then 16 of 0x0002; 0 unused (R402). -/
  ordered : Option (List Nat)
  power : Option PowerRec
  thermal : Option ThermalRec
  darkWait : Option Nat
  filters : Option (BitVec 512)
  /-- Cipher policy: REQUIRE_KEK and AUTO_LOCK (R406). -/
  cipher : Option (Bool × Bool)
  mgmt : Option MgmtPortRec
  deriving DecidableEq, Repr

/-- An option image (R390) as decoded from its bytes. What the bytes alone decide is kept as flags:
`headerOk` for code 0x01, `reservedBad` and `shapeBad` for the record types that fail codes 0x04 and 0x05. -/
structure OptImage where
  headerOk : Bool
  schema : Nat
  seq : Nat
  baseSeq : Nat
  length : Nat
  reservedBad : List Nat
  shapeBad : List Nat
  records : OptRecords
  deriving DecidableEq, Repr

/-- A microcode patch blob of a firmware image (R443), with the verdicts of its signature and GCM tag. -/
structure PatchBlob where
  patchId : Nat
  iface : Nat
  words : List (BitVec 24)
  arb : Nat
  /-- WORD_CRC, the expected CRC-32C of the words. -/
  crc : Word
  redirect : List Word
  verified : Bool
  deriving DecidableEq, Repr

/-- A firmware image (R441, R442), with the verdicts that its bytes and keys decide. -/
structure FwImage where
  /-- FORMAT 1, the deferred-check flag of Wailys 128 tooling. -/
  deferred : Bool
  actLive : Bool
  raiseArb : Bool
  raisePatchArb : Bool
  /-- MAGIC, FORMAT, HFLAGS and reserved fields match R441, and the sections match R442. -/
  formOk : Bool
  /-- PART and MIN_STEPPING match R374. -/
  targetOk : Bool
  fr : List Byte
  arbLevel : Nat
  patchArbLevel : Nat
  schemaMin : Nat
  schemaMax : Nat
  bodyLen : Nat
  /-- ECDSA P-384 over the header verifies. -/
  signed : Bool
  /-- SHA-384 of the body equals BODY_HASH. -/
  bodyHashOk : Bool
  /-- CONTENT_KEY unwraps. -/
  keyOk : Bool
  patches : List PatchBlob
  deriving DecidableEq, Repr

/-- STATE of a firmware slot (R445). -/
inductive SlotState where
  | empty | downloading | committed | served | rejected | committedDeferred
  deriving DecidableEq, Repr

end Sys2Proof
end

