-- ==== Sys2Proof/Types/Swarm.lean ====
section
/-! DEFINITION. Names of the swarm: membership tables, segments, stripes and Lenos messages (R197 to R274). -/

namespace Sys2Proof

/-- States of R198. -/
inductive MemberState where
  | active | spare | leaving | lost
  /-- A code that R198 reserves. -/
  | reserved
  deriving DecidableEq, Repr

/-- A member entry (R201). -/
structure MemberEntry where
  member : Nat
  group : Nat
  rack : Nat
  shelf : Nat
  slot : Nat
  state : MemberState
  addr0 : Option (BitVec 128)
  addr1 : Option (BitVec 128)
  adopter : Option Nat
  /-- A reserved bit or byte is nonzero. -/
  reservedSet : Bool
  deriving DecidableEq, Repr

/-- A group descriptor (R200). -/
structure GroupDesc where
  group : Nat
  k : Nat
  m : Nat
  shelfLocal : Bool
  shortTimeout : Nat
  deriving DecidableEq, Repr

/-- A membership table (R199), with the verdicts of its form, hash and signature. -/
structure MemTable where
  formOk : Bool
  epoch : Nat
  swarmId : DWord
  authKey : Nat
  /-- SHA-384 of AUTH_KEY. -/
  authHash : BitVec 384
  issued : Nat
  bodyHash : BitVec 384
  signature : Nat
  /-- BODY_HASH matches and SIGNATURE verifies under AUTH_KEY. -/
  verified : Bool
  /-- SHA-384 of the header. -/
  headerHash : BitVec 384
  groups : List GroupDesc
  members : List MemberEntry
  deriving DecidableEq, Repr

/-- Segment states of R213. -/
inductive SegState where
  | sealed | noticed | assigned | retracting | retracted | unstriped | withdrawn
  deriving DecidableEq, Repr

/-- A segment entry (R213). While NOTICED, `stripe` names the leader. -/
structure SegEntry where
  band : Nat
  seg : Nat
  state : SegState
  position : Nat
  stripe : Nat
  done : BitVec 4
  retracted : BitVec 4
  deriving DecidableEq, Repr

/-- Stripe states of R220. -/
inductive StripeState where
  | opened | closed | complete | released
  deriving DecidableEq, Repr

/-- A filled data position of a stripe record. -/
structure DataPos where
  member : Nat
  applied : Bool
  retracted : Bool
  deriving DecidableEq, Repr

/-- A holder of a stripe record. -/
structure HolderPos where
  member : Nat
  acked : Bool
  deriving DecidableEq, Repr

/-- A stripe record (R220). -/
structure StripeRec where
  stripe : Nat
  k : Nat
  m : Nat
  state : StripeState
  filled : Nat
  group : Nat
  epoch : Nat
  opened : Nat
  mypos : Nat
  /-- Position, and whether it is a retract. -/
  applying : Option (Nat × Bool)
  newthru : Nat
  holders : List HolderPos
  data : List DataPos
  /-- Band and first frame index. -/
  cur : Option (Nat × Nat)
  new : Option (Nat × Nat)
  version : Nat
  deriving DecidableEq, Repr

/-- A row of a segment that a solve meets with something missing (R260). -/
structure RowFacts where
  slot : Nat
  /-- Data positions whose frame is unknown: dark, lost or fenced members, and erasures. -/
  unknown : List Nat
  /-- Holders with a valid parity frame at the row: parity index, and the positions applied and not retracted there. -/
  parity : List (Nat × List Nat)
  /-- A reconstructed frame fails its CRC. -/
  crcFails : Bool
  deriving DecidableEq, Repr

/-- Lenos messages (R257, R258). A contribution or retract with payload is kept as its run; `coef` is c(i, j). -/
inductive LMsg where
  | heartbeat (status : Half) (applied staged pendingEntries opsec : Nat)
  | sealNotice (region : RegionIx) (seg : Fin 16) (band : Nat)
  | slotAssign (stripe position m version : Nat) (holders : List Nat)
  | stripeRecord (restore : Bool) (r : StripeRec)
  | stripeRecordAck (stripe version : Nat)
  | contribRun (stripe position index : Nat) (coef : Byte)
  | contribData (stripe position index first count : Nat)
  | contribDone (stripe position index : Nat) (reply : Bool)
  | retract (stripe position index first count : Nat) (neverSent release last behalf reply : Bool) (coef : Byte)
  | rebuildRead (stripe what index first count : Nat)
  | rebuildData (stripe what index first count : Nat) (last push reply : Bool) (status : List Nat) (record : Option StripeRec)
  | epochAnnounce (epoch : Nat) (hash : BitVec 384)
  | lightRequest (origin rack shelf reason : Nat) (cancel : Bool) (request waiting : Nat)
  | nak (reason refused detail : Nat)
  deriving DecidableEq, Repr

/-- The message header fields that operations use (R243). -/
structure MsgHdr where
  peer : Nat
  epoch : Nat
  opid : Nat
  deriving DecidableEq, Repr

/-- A message on its way to a peer. -/
structure OutMsg where
  msn : Nat
  hdr : MsgHdr
  msg : LMsg
  deriving DecidableEq, Repr

/-- A message in a received body, as the transport sees it. -/
structure RxMsg where
  msn : Nat
  malformed : Bool
  isReply : Bool
  opid : Nat
  type : Nat
  deriving DecidableEq, Repr

/-- Key and salt of one direction of a session (R249). -/
structure LinkKey where
  key : List Byte
  salt : List Byte
  deriving DecidableEq, Repr

/-- A received Lenos packet (R240 to R242). -/
structure LenosPkt where
  version : Nat
  kind : Nat
  src : Nat
  dst : Nat
  session : Nat
  half : Fin 2
  ctr : Nat
  /-- Nothing of the packet was changed under way. -/
  tagOk : Bool
  /-- Key and salt that it was sealed under. -/
  sealKey : LinkKey
  /-- Acknowledgement of our half `ackHalf`: base, and counters above it received. -/
  ackHalf : Fin 2
  ackBase : Nat
  ackMap : List Nat
  credit : Nat
  /-- A reserved byte of the body header is nonzero, or the messages do not fill the body (R242, R244). -/
  bodyBad : Bool
  msgs : List RxMsg
  deriving DecidableEq, Repr

/-- A HELLO received (R247, R258). -/
structure HelloMsg where
  src : Nat
  dst : Nat
  /-- REPLY, EPOCH and OPID of the message header. -/
  reply : Bool
  epoch : Nat
  opid : Nat
  phase : Nat
  status : Nat
  sessionId : Nat
  applied : Nat
  /-- NONCE, its 32 bytes as a number. -/
  nonce : Nat
  /-- EPH_KEY, by its coordinates. Phases 1 and 2. -/
  ephKey : Option (Nat × Nat)
  /-- Phases 1 and 2. -/
  cert : Option Certificate
  /-- SIGNATURE, its 96 bytes as a number. -/
  sig : Nat
  /-- A reserved bit or byte is nonzero, or LENGTH is not that of a HELLO (R244). -/
  reservedBad : Bool
  /-- SIGNATURE verifies under the member key. -/
  sigOk : Bool
  deriving DecidableEq, Repr

/-- A granule of a pushed segment whose FIG 0 frame and 15 followers have arrived (R267, R269). -/
structure PushGran where
  gran : Nat
  nsid : Nat
  stream : Byte
  seq : Nat
  wtime : Word
  wtemp : Int
  /-- Identity of the key under which its ciphertext was made. -/
  key : Nat
  /-- Plaintext of each unit; none for a frame of a lost row, which is written poisoned with zero user data. -/
  units : Vector (Option Nat) 16
  deriving DecidableEq, Repr

/-- A light request: an entry of log 0xC2 (R272). -/
structure LightReq where
  origin : Nat
  rack : Nat
  shelf : Nat
  reason : Nat
  request : Nat
  waiting : Nat
  posted : Nat
  deriving DecidableEq, Repr

/-- A received message that belongs to a swarm operation, with what its checks and reads find (R205, R257). -/
inductive RxBody where
  | sealNotice (region : RegionIx) (seg : Fin 16) (band : Nat)
  | slotAssign (stripe position m version : Nat) (holders : List Nat)
  | stripeRecord (restore : Bool) (r : StripeRec)
  | stripeRecordAck (stripe version : Nat)
  | contribData (stripe position index first count : Nat)
  /-- `crcOk`: the CRC over the 262,144 payloads agrees. -/
  | contribDone (stripe position index : Nat) (crcOk : Bool)
  | contribDoneReply (stripe position index : Nat)
  | retract (stripe position index first count : Nat) (neverSent release last behalf crcOk : Bool)
  | retractReply (stripe position index : Nat)
  /-- `rows`: rows with something missing; `stepFive`: frame slots that were delivered at ladder step 5. -/
  | rebuildRead (stripe what index first count : Nat) (rows : List RowFacts) (stepFive : List Nat)
  /-- `bad`: frame slots of FSTATUS other than 0; `record`: the stripe record of WHAT 2, and with a push of parity the record whose
  applied set it was computed over; `grans`: granules that are complete with this message. -/
  | rebuildData (stripe what index first count : Nat) (last push reply crcOk : Bool) (bad : List Nat) (record : Option StripeRec) (grans : List PushGran)
  deriving DecidableEq, Repr

/-- What link training of a swarm port finds (R237). -/
inductive KrPartner where
  | kr2 (failures : Nat)
  | kr1
  | none
  deriving DecidableEq, Repr

end Sys2Proof
end

