-- ==== Sys2Proof/Types/Media.lean ====
section
/-! DEFINITION. Names of the region and cluster levels: map entries, bands, journal records, frames and the ladder (R75, R108, R113, R126, R138, R163, R196). -/

namespace Sys2Proof

/-- STATE of a map entry (R127). -/
inductive EntryState where
  | mapped | deallocated | never | poisoned | foldInFlight | lost | reserved (code : Fin 2)
  deriving DecidableEq, Repr

/-- A map entry (R126). -/
structure MapEntry where
  state : EntryState
  band : BitVec 15
  frame : BitVec 22
  deriving DecidableEq, Repr

/-- The state code of R127. -/
def EntryState.code : EntryState → BitVec 3
  | .mapped => 0 | .deallocated => 1 | .never => 2 | .poisoned => 3 | .foldInFlight => 4 | .lost => 5
  | .reserved c => if c = 0 then 6 else 7

/-- The 40 bits of an entry (R126). -/
def MapEntry.bits (e : MapEntry) : BitVec 40 := e.state.code ++ e.band ++ e.frame

/-- Every entry of a new extent (R126). -/
def MapEntry.fresh : MapEntry := { state := .never, band := 0, frame := 0 }
/-- The entry that Deallocate leaves (R133). -/
def MapEntry.freed : MapEntry := { state := .deallocated, band := 0, frame := 0 }

/-- KIND of a band (R75, R536). -/
inductive BandKind where
  | data | journal | checkpoint | rescue | swarmParity
  deriving DecidableEq, Repr

/-- What an open data band receives (R135, R157, R267). -/
inductive BandUse where
  | staging | fold | relocation | restore | accumulation
  /-- An accumulation band for a retract, which may take the retract reserve (R169). -/
  | retractAccum
  | foldedParity | other
  deriving DecidableEq, Repr

/-- Reason of RECLAIM_START (R163). -/
inductive ReclaimReason where
  | empty | score | refresh | wear | stagingRelease
  deriving DecidableEq, Repr

/-- Cause of READ_ONLY (R163). -/
inductive ReadOnlyCause where
  | spare | journal | sequence
  deriving DecidableEq, Repr

/-- A 4 KiB unit of ciphertext as its readers can tell it apart: the plaintext it holds, the key and tweak identity under which
it was made, and its poison mark (R115, R326). -/
structure Unit4K where
  plain : Nat
  key : Nat
  poisoned : Bool
  deriving DecidableEq, Repr

/-- A journal record (R138, R163, R196). JHDR and JSEQ are part of the frame; EMPTY is the absence of a record. -/
inductive JRec where
  | seqReserve (seq : Nat)
  | map (gran : Nat) (entry : MapEntry) (cas : Bool) (oldMapped : Bool) (oldBand : Nat)
  | nsExtent (nsid base len : Nat)
  | format (nsid : Nat)
  | bandOpen (band : Nat) (density : Density) (profile : Nat) (stream : Byte) (opsec : Nat) (kind : BandKind)
  | bandWall (band wall : Nat)
  | bandEighth (band k : Nat) (tage : Word) (temp : Int)
  | bandState (band : Nat) (flags : Byte) (patrolTage : Word)
  | bandSeal (band slots : Nat)
  | eraseIntent (band : Nat)
  | eraseDone (band : Nat)
  | dirty (band bit : Nat) (on : Bool)
  | blockRetire (lun : Nat) (block : Nat) (cause : Nat)
  | blockReplace (lun slot repl : Nat)
  | lunQuarantine (lun cause : Nat)
  | spareAdopt (spare set position lun : Nat)
  | rebuildRow (band position rows : Nat)
  | slotLost (band frame : Nat)
  | bandPad (band position wordline firstPad : Nat)
  | setEvacuate (set : Nat)
  | reclaimStart (band : Nat) (reason : ReclaimReason) (score : Nat) (reloc : Option Nat)
  | reclaimMapped (band relocated : Nat)
  | reclaimHold (band cause : Nat)
  | readOnly (cause : ReadOnlyCause)
  /-- SEG_STATE. -/
  | segState (e : SegEntry)
  /-- STRIPE_HDR, STRIPE_TIME, STRIPE_MEMBER and STRIPE_LOC of one stripe record. -/
  | stripeRec (r : StripeRec)
  | stripeRelease (stripe : Nat)
  | stripeSeqReserve (seq : Nat)
  /-- A record of a reserved type: replay skips and counts it. -/
  | unknown (type : Byte)
  deriving DecidableEq, Repr

/-- A journal record of 16 bytes (R137). -/
structure JSlot where
  type : Byte
  rflags : Byte
  key : BitVec 40
  value : BitVec 40
  aux : Word
  deriving DecidableEq, Repr

/-- Who asked for a frame (R111, R531). -/
inductive Requester2 where
  | host | verify | copySource | fold | relocation | patrol | swarmSend | rebuildService | parityWork | regionMeta
  deriving DecidableEq, Repr

/-- One frame that climbs the ladder. -/
structure FrameReq where
  id : Nat
  who : Requester2
  region : RegionIx
  band : Nat
  frame : Nat
  gran : Nat
  fig : Fin 16
  lun : Nat
  /-- Frame index that the entry names: that of FIG 0. -/
  base : Nat
  /-- The entry stood in state 101: ladder steps 1 to 5 are not taken (R127). -/
  lost : Bool
  /-- The host command that it serves, where one does. -/
  ref : Option CmdRef
  deriving DecidableEq, Repr

/-- Where an engine's next frame comes from (R105), by its identity: the queue, or a read that the lane has delivered. -/
inductive FrameSource where
  | queued (id : Nat)
  | read (id : Nat)
  deriving DecidableEq, Repr

/-- What an engine's result shows (R106, R107). -/
inductive DecodeResult where
  /-- Converged and confirmed: corrected bits and CRC verdict. What the frame holds is State's. -/
  | converged (corrected : Nat) (crcOk : Bool)
  /-- It did not converge; the corrected bits that the cluster reports with it. -/
  | notConverged (corrected : Nat)
  /-- The checker rejected a success. -/
  | rejected
  /-- The working memory reported an uncorrectable error. -/
  | memoryError
  deriving DecidableEq, Repr

/-- Where one sweep of a run stands (R90, R93). -/
inductive SweepGot where
  | todo
  /-- Its descriptor is with the lane. -/
  | sent
  | counts (cs : List Nat)
  /-- It failed: its sample gives no values. -/
  | failed
  deriving DecidableEq, Repr

/-- One sweep that the Antenna issues (R90, R91). -/
structure SweepPlan where
  sample : Nat
  /-- The sweep of the shifted window (R91). -/
  second : Bool
  got : SweepGot
  lun : Nat
  row : Nat
  level : Nat
  centre : Int
  start : Int
  step : Nat
  count : Nat
  deriving DecidableEq, Repr

/-- Outcome of a ladder step that works outside the cluster's engines. -/
inductive LadderFacts where
  /-- Nothing of the outside is needed: steps 2 to 4, whose decode follows, and step 6, whose answer comes as a message (R262). -/
  | decode
  /-- Step 5: the positions of the row whose frames failed steps 1 to 4, and the CRC of the reconstructed frame (R109, R184). -/
  | row (unread : List Nat) (crcOk : Bool)
  /-- Step 5 did not deliver the frame. -/
  | failed
  /-- The location that the newest MAP record of the granule names passes the header check (R130). -/
  | repaired
  deriving DecidableEq, Repr

/-- What a region finds in its media at a start (R146, R148, R149, R356). -/
structure RestoreFacts where
  /-- Images (0 the band segment, else the segment number plus one) of which neither copy reads. -/
  imagesLost : List Nat
  /-- The first journal frame of which neither copy decodes, before the end of what was written. -/
  journalEnds : Option Nat
  /-- Manifest records, by granule and sequence, that do not decode. -/
  rescueMissing : List (Nat × Nat)
  /-- Rescued units, by granule, sequence and FIG, whose frame does not decode. -/
  poisonedUnits : List (Nat × Nat × Nat)
  /-- Granules of open bands that the scan of R148 does not find whole. -/
  scanBad : List Nat
  deriving DecidableEq, Repr

end Sys2Proof
end

