-- ==== Sys2Proof/Types/Die.lean ====
section
/-! DEFINITION. Names of the die services: buffer classes, memories, host command shapes (R277 to R342). -/

namespace Sys2Proof

/-- Buffer classes of R304. -/
inductive PoolClass where
  | c0 | c1 | c2 | c3 | dram
  deriving DecidableEq, Repr

/-- Requesters of the pool (BPM_FAULT_INFO.REQUESTER, R324). -/
inductive PoolUser where
  | hostPort | lane | cluster | region | cipher | swarmPort | core
  deriving DecidableEq, Repr

/-- The order in which waiting requests are served (R31). -/
inductive WorkKind where
  | read | write | fold | reclaim
  deriving DecidableEq, Repr

/-- The two memories of a die (R316). -/
inductive MemKind where
  | dram | sram
  deriving DecidableEq, Repr

/-- STATE of a correctable-error entry (R317, R322). -/
inductive CeState where
  | corrected | rewritten | hard | retired
  deriving DecidableEq, Repr

/-- What an uncorrectable word holds (R319). -/
inductive UeTarget where
  /-- A 4 KiB unit of a pool buffer. -/
  | buffer (cls : PoolClass) (index unit : Nat)
  /-- A map entry, band table or replay list. -/
  | map (g : RegionIx) (gran : Nat)
  | control
  deriving DecidableEq, Repr

/-- The I/O and admin command kinds that the ordering rules tell apart (R285, R286). -/
inductive CmdKind where
  | read | write | verify | copy | deallocate | writeZeroes | flush | admin | vendor
  deriving DecidableEq, Repr

/-- One LBA range of a namespace. -/
structure LbaRange where
  slba : Nat
  nlb : Nat
  deriving DecidableEq, Repr

/-- A command in a slot of a die (R29, R285). -/
structure SlotCmd where
  ref : CmdRef
  kind : CmdKind
  nsid : Nat
  ranges : List LbaRange
  /-- Passed the point of no return of R286. -/
  committed : Bool
  /-- Buffers taken and data received: it waits at step 4 of R20. -/
  buffered : Bool
  /-- Map lookups that its granule requests hold, by region (R29), and the region whose lookups are all in use that holds it (R31). -/
  looks : Vector Nat 4
  lookWait : Option RegionIx
  deriving DecidableEq, Repr

/-- A field of returned data: byte offset, bytes, value. -/
structure DataField where
  off : Nat
  size : Nat
  val : Nat
  deriving DecidableEq, Repr

/-- What a command returns. -/
inductive Returned where
  | none
  /-- 4 KiB units of user data, by their identity; none where the unit was poisoned and not transferred. -/
  | units (l : List (Option Nat))
  | fields (l : List DataField)
  | words (l : List Word)
  deriving DecidableEq, Repr

/-- A completion posted to a host queue or returned to the management port (R301). -/
structure CplRec where
  ref : CmdRef
  status : Status
  dw0 : Word
  data : Returned
  deriving DecidableEq, Repr

/-- A key blob of R335 as it is received: what its unwrapping finds. -/
structure KeyBlob where
  /-- Magic, kind and reserved bytes are right, WRAPPED is a whole RFC 5649 output, and Key1 differs from Key2, as D0 and as D1 have it. -/
  unwraps : Vector Bool 2
  /-- EPH_KEY of KIND 1, by its coordinates (R335). -/
  ephKey : Nat × Nat
  /-- The 32-byte key that WRAPPED was made under. -/
  wrappedBy : List Byte
  /-- WLEN is what R335 requires. -/
  wlenOk : Bool
  kekId : Word
  /-- Identity of the key carried. -/
  key : Nat
  deriving DecidableEq, Repr

/-- Asynchronous events that the controllers post. -/
inductive AsyncEvent where
  | invalidDoorbell | smartHealth (info : Nat) | namespaceChanged | anaChange | firmwareActivation | vendorLog (lid : Byte) | sanitizeDone
  | firmwareLog
  deriving DecidableEq, Repr

/-- Admin commands, as the rules that admit or refuse them tell them apart (R281, R294, R377, R385, R489). -/
inductive AdminKind where
  | optionStage | optionCheck | optionApply | mgmtRead | mgmtWrite | membershipStage | diapausePrepare | diapauseStatus
  | fwDownload | fwCommit | identify (cns : Byte) | getLog (lid : Byte) | getFeatures | setFeatures | abort | asyncEvent
  | queueWork | namespaceWork | formatNvm | securitySend | securityReceive | sanitize | other
  deriving DecidableEq, Repr

end Sys2Proof
end

