-- ==== Sys2Proof/Types/Events.lean ====
section
/-! DEFINITION. Names of the event path: classes (R453), blocks and shadows (R465), tokens (R458), records (R469). -/

namespace Sys2Proof

/-- The four classes of R453. -/
inductive EventClass where
  | notice | degraded | severe | fatal
  deriving DecidableEq, Repr

/-- A block of the package that raises events, as the shadows of R465 tell them apart. -/
inductive Block where
  | lane (l : LaneIx)
  | cluster (c : ClusterIx)
  | region (g : RegionIx)
  /-- The host port, memory controller, buffer pool, cipher, swarm port, cores and common block of a die. -/
  | die (d : DieIx)
  /-- The die bridge receiver of a die. -/
  | bridge (d : DieIx)
  | keeper
  | store
  deriving DecidableEq, Repr

/-- The dependents column of R465. -/
inductive ShadowScope where
  /-- The region's three clusters and six lanes. -/
  | regionDependents (g : RegionIx)
  /-- Every block of D0 and D1 except the keeper. -/
  | bothDies
  /-- Every block of that die, and the die bridge receiver of the other die. -/
  | dieAndBridge (d : DieIx)
  /-- Every block except the keeper. -/
  | allButKeeper
  deriving DecidableEq, Repr

/-- An open reaction shadow (R465). `own` is the block whose own event opened it: it is not inside (R467). -/
structure Shadow where
  source : Nat
  scope : ShadowScope
  own : Block
  /-- Position in the order in which shadows opened. -/
  order : Nat
  deriving DecidableEq, Repr

/-- An event token on its way to the fault collector (R458). -/
structure EventToken where
  source : Nat
  data0 : Word
  data1 : Word
  /-- The opening source of the shadow in which the block lay (R467). -/
  cause : Option Nat
  injected : Bool
  /-- The token comes from D1, and so across the die bridge (R458, R459). -/
  fromD1 : Bool
  deriving DecidableEq, Repr

/-- The 32-byte event record of R469, less its CRC, which is a function of the rest. -/
structure EventRecord where
  opsec : BitVec 40
  pcycles : BitVec 24
  usec : BitVec 20
  source : Nat
  cls : EventClass
  conseq : Bool
  first : Bool
  injected : Bool
  cause : Nat
  repeats : Half
  data0 : Word
  data1 : Word
  deriving DecidableEq, Repr

end Sys2Proof
end

