-- ==== Sys2Proof/Types/Lane.lean ====
section
/-! DEFINITION. Media operation descriptors, completion records, NAND status and microcode operands (R38 to R41, R59). -/

namespace Sys2Proof

/-- The operations of R40. -/
inductive LaneOp where
  | readPage | readSoft | marginRead | offsetSweep | programPage | programPass | eraseBlock
  | suspend | resume | setFeature | getFeature | readStatus | train
  deriving DecidableEq, Repr

/-- Operation codes of R40. -/
def LaneOp.code : LaneOp → Byte
  | .readPage => 0x01 | .readSoft => 0x02 | .marginRead => 0x03 | .offsetSweep => 0x04
  | .programPage => 0x10 | .programPass => 0x11 | .eraseBlock => 0x20 | .suspend => 0x21 | .resume => 0x22
  | .setFeature => 0x30 | .getFeature => 0x31 | .readStatus => 0x32 | .train => 0x3F

/-- The operations in table order. -/
def allLaneOps : List LaneOp :=
  [.readPage, .readSoft, .marginRead, .offsetSweep, .programPage, .programPass, .eraseBlock,
   .suspend, .resume, .setFeature, .getFeature, .readStatus, .train]

/-- The operation of a code, none for a code that R40 does not list. -/
def laneOpOf (c : Byte) : Option LaneOp := allLaneOps.find? fun o => o.code == c

/-- The 64-byte media operation descriptor, field by field (R38). -/
structure Descriptor where
  opcode : Byte
  flags : Byte
  tag : Half
  lun : Half
  planes : Byte
  density : Byte
  block : Word
  wordline : Half
  page : Byte
  pass : Byte
  column : Half
  rsv18 : Half
  length : Word
  buf0 : Word
  buf1 : Word
  routine : Byte
  soft : Byte
  softDelta : Byte
  level : Byte
  offsets : Word
  sweepStart : Byte
  sweepStep : Byte
  sweepCount : Half
  feature : Byte
  rsv45 : BitVec 24
  featureData : Word
  timeout : Word
  waitTag : Half
  rsv58 : Half
  crc : Word
  deriving DecidableEq, Repr

/-- FLAGS[7]. -/
def Descriptor.critical (d : Descriptor) : Bool := d.flags.getLsbD 7
/-- FLAGS[6:5]: 0 read, 1 write, 2 fold, 3 reclamation or patrol. -/
def Descriptor.cls (d : Descriptor) : Nat := (d.flags.toNat / 32) % 4
/-- FLAGS[4]. -/
def Descriptor.waits (d : Descriptor) : Bool := d.flags.getLsbD 4
/-- The LUN number of LUN[9:0]. -/
def Descriptor.lunNo (d : Descriptor) : Nat := d.lun.toNat % 1024
/-- The LUN's place on its lane, LUN[4:0]. -/
def Descriptor.unit (d : Descriptor) : LunIx := ⟨d.lun.toNat % 32, Nat.mod_lt _ (by decide)⟩
/-- The operation, none where the code is not listed. -/
def Descriptor.op (d : Descriptor) : Option LaneOp := laneOpOf d.opcode

/-- The descriptor as sixteen 32-bit words, the lowest byte offset in the lowest bits (R38, LDD of R59). -/
def Descriptor.words (d : Descriptor) : Vector Word 16 :=
  #v[d.tag ++ d.flags ++ d.opcode,
     d.density ++ d.planes ++ d.lun,
     d.block,
     d.pass ++ d.page ++ d.wordline,
     d.rsv18 ++ d.column,
     d.length, d.buf0, d.buf1,
     d.level ++ d.softDelta ++ d.soft ++ d.routine,
     d.offsets,
     d.sweepCount ++ d.sweepStep ++ d.sweepStart,
     d.rsv45 ++ d.feature,
     d.featureData, d.timeout,
     d.rsv58 ++ d.waitTag,
     d.crc]

/-- What a status read of a LUN reports: the byte, and the four conditions that BRC tests (R59). Which bits of the byte hold
them is the part's. -/
structure NandStatus where
  raw : Byte
  fail : Bool
  ready : Bool
  arrayReady : Bool
  suspended : Bool
  deriving DecidableEq, Repr

/-- Completion status of R41. -/
inductive LaneStatus where
  | ok | programFail | eraseFail | timeout | erasePending | refused | abandoned | ucodeFault | phyFault
  deriving DecidableEq, Repr

/-- The completion record of R41. -/
structure Completion where
  tag : Half
  status : LaneStatus
  nandStatus : Byte
  elapsed : Word
  suspends : Byte
  ucodeAddr : Half
  value : Word
  deriving DecidableEq, Repr

/-- What a cluster wants of a descriptor: the model's own name of the work whose result the region acts on. -/
inductive Purpose where
  /-- A read, a sweep, a feature access or training: the lane's completion is all. -/
  | plain
  /-- A read of frames that climb, by their identities (R100, R108). -/
  | frameRead (ids : List Nat)
  /-- A read of frames that the region reads for a swarm send, a peer's rebuild, band parity or its own metadata (R111, R531). -/
  | ownRead (reqs : List FrameReq)
  /-- A sweep of an Antenna run: the run and its place in the plan (R90). -/
  | sweep (run i : Nat)
  /-- A data page row of an open band (R70, R104, R161). -/
  | dataRow (g : RegionIx) (band : Nat)
  /-- A parity page row (R183). -/
  | parityRow (g : RegionIx) (band : Nat)
  /-- One copy of a journal frame: 0 on the region's own side, 1 on the partner's (R136). -/
  | journal (g : RegionIx) (frame : Nat) (copy : Fin 2)
  /-- One copy of a checkpoint image (R142). -/
  | image (g : RegionIx) (ckptSeq : Nat) (copy : Fin 2)
  /-- The erase of one block of a band (R161 step 5). -/
  | bandErase (g : RegionIx) (band : Nat)
  /-- A page row rebuilt on a spare (R192). -/
  | rebuildRow (g : RegionIx) (band : Nat)
  /-- A rescue row (R354). -/
  | rescue
  deriving DecidableEq, Repr

/-- A cycle that the channel carries (R59). -/
inductive BusCycle where
  | ce (n : Option (Fin 8))
  | cmd (b : Byte)
  | addr (b : Byte)
  | dataOut (len ptr : Word)
  | dataIn (len ptr : Word) (toDecoder : Bool)
  | status (enhanced : Bool)
  | lunReset (u : LunIx)
  | suspend (u : LunIx)
  | resume (u : LunIx)
  deriving DecidableEq, Repr

/-- LNE_TRAIN.LAST_CAUSE (R64). -/
inductive TrainCause where
  | startOrTrain | temperature | errorRate | request
  deriving DecidableEq, Repr

/-- Bytes of a page as a lane reads them from a LUN. -/
structure PageSpan where
  lun : Nat
  block : Nat
  wordline : Nat
  page : Byte
  column : Nat
  length : Nat
  deriving DecidableEq, Repr

/-- What a lane writes into a buffer (R40). -/
inductive BufData where
  | page (p : PageSpan)
  /-- Soft bits of a page, from that many reads per level. -/
  | soft (p : PageSpan) (reads : Nat)
  /-- For each point of a sweep, the 32-bit count of bits read as 1. -/
  | counts (cs : List Nat)
  | feature (v : Word)
  /-- An offset vector that a cluster composed, one signed byte a level (R38, R83). -/
  | vector (v : List Int)
  deriving DecidableEq, Repr

/-- What a LUN answers beside its status: the value of a feature, and the counts of a sweep (R40). -/
structure LunReply where
  value : Word
  counts : List Nat
  deriving DecidableEq, Repr

/-- The training steps of R51, in their order. -/
inductive TrainStep where
  | sdrInit | dataInterface | zqLong | dutyCycle | readDq | writeDq
  deriving DecidableEq, Repr

/-- Training results of one CE (R51): what each step found, none before it ran. -/
structure CeTraining where
  zq : Option Word
  duty : Option Word
  readDq : Option Word
  writeDq : Option Word
  deriving DecidableEq, Repr

end Sys2Proof
end

