-- ==== Sys2Proof/Types/Mi.lean ====
section
/-! DEFINITION. Requests of the management port (R489). -/

namespace Sys2Proof

/-- Set Endpoint ID: set or force an identifier, go back to the static one, or set the discovered flag. -/
inductive EidOp where
  | set | force | reset | discovered
  deriving DecidableEq, Repr

/-- Commit actions of Firmware Commit (R447 to R450). -/
inductive CommitAction where
  | replace | replaceActivate | activateAtReset | activateNow | bootPartition
  deriving DecidableEq, Repr

/-- The admin commands that the tunnel carries, with their operands; any other by its kind. -/
inductive TunnelCmd where
  | identify (cns : Byte) (nsid cntid : Nat)
  | getLogPage (lid : Byte) (nsid lsi lpo len : Nat) (rae : Bool)
  | getFeatures (fid : Byte) (dw11 : Word)
  | download (offset len : Nat) (last : Bool) (image : FwImage)
  | commit (slot : Nat) (action : CommitAction)
  | other
  deriving DecidableEq, Repr

end Sys2Proof
end

