-- ==== Sys2Proof/Types/Package.lean ====
section
/-! DEFINITION. Operands of the package level's events: rails (R533), crossings (R34), resources (R29), start outcomes (R369 to R380). -/

namespace Sys2Proof

/-- Rails by their code in R533. -/
inductive Rail where
  | vcore0 | vcore1 | vkeep | vphy | vpll | vio18 | vccq | vddq | vdd2h | vin
  deriving DecidableEq, Repr

/-- The board rails that the keeper monitors (R344). -/
inductive BoardRail where
  | vccq | vddq | vdd2h
  deriving DecidableEq, Repr

/-- The on-package regulators (R343, R345). -/
inductive PkgRail where
  | vkeep | vio18 | vpll | vphy | vcore0 | vcore1
  deriving DecidableEq, Repr

/-- A boundary between clockless logic and a clocked PHY (R34). -/
inductive CrossingId where
  | pcie (d : DieIx)
  | lpddr (d : DieIx)
  | nand (l : LaneIx)
  | swarm (d : DieIx)
  deriving DecidableEq, Repr

/-- A bounded resource of R29. -/
inductive Resource where
  | hostSlots (d : DieIx)
  | laneQueue (l : LaneIx)
  | lookups (g : RegionIx)
  /-- The die bridge toward a die. -/
  | bridge (toward : DieIx)
  deriving DecidableEq, Repr

/-- What the start finds when the keeper itself starts (R345, R381 step 2, R85). -/
structure ColdStartFindings where
  /-- The collector's test patterns read back (R476). -/
  selfCheckOk : Bool
  /-- VAUX held VKEEP and XTAL32K ran through the whole dark interval. -/
  keptTime : Bool
  /-- Length of the dark interval in ms, where the keeper kept time. -/
  darkMs : Nat
  /-- VAUX is present now. -/
  vaux : Bool
  /-- Media temperature read at the start. -/
  mediaTemp : Int
  deriving DecidableEq, Repr

/-- What the boot ROM and main firmware meet after D0 is released (R370 to R380). -/
structure StartFindings where
  /-- BOOT_MODE[1:0] and SLOT_ID[7:0] at the release. An open BOOT_MODE reads 0 (R512). -/
  bootMode : BitVec 2
  slotId : Byte
  /-- CRCs of the two protection set copies. -/
  prot0Ok : Bool
  prot1Ok : Bool
  /-- The boot ROM sets LOCK within its window (R371), and after how many ms. -/
  locks : Bool
  lockMs : Nat
  /-- CRCs of option slots A and B. -/
  optAOk : Bool
  optBOk : Bool
  /-- The D1 firmware core's section loads (R378). -/
  d1CoreOk : Bool
  /-- The region cores' sections load, one flag per region. -/
  regionCoreOk : Vector Bool 4
  /-- LPDDR5X installed, in GiB, and the rate at which it trains: 0 for 8,533, 1 for 7,500, 2 for 6,400 MT/s (R312, R313). -/
  dramGiB : Vector Nat 2
  dramRate : Vector (Fin 3) 2
  /-- LPDDR5X trains (R313) and the checker self-test passes (R320), per die. -/
  dramOk : Vector Bool 2
  checkerOk : Vector Bool 2
  /-- LUN numbers whose ID matches their media profile (R380, R411). -/
  lunsAnswering : List Nat
  deriving DecidableEq, Repr

/-- What a start's option check and key set load need of the outside (R338, R375). -/
inductive RestartCause where
  /-- Firmware activation or recovery exit, after host work (R369). -/
  | afterHostWork
  /-- Schema fallback or boot window retry, before host work (R369). -/
  | beforeHostWork
  deriving DecidableEq, Repr

/-- A detector of a shadow's dependent whose condition still holds when the shadow closes (R468). -/
structure Persisting where
  source : Nat
  data0 : Word
  data1 : Word
  deriving DecidableEq, Repr

/-- One ADC sample (R368). -/
structure AdcSampleOp where
  channel : Fin 13
  value : Half
  below : Bool
  above : Bool
  deriving DecidableEq, Repr

/-- Requesters of store die command sequences (R428). -/
inductive Requester where
  | bootRom | mainFirmware | keeper | management
  deriving DecidableEq, Repr

/-- Kinds of array access (R435). -/
inductive StoreReadKind where
  | fetch | hashing | data
  deriving DecidableEq, Repr

end Sys2Proof
end

