-- ==== Sys2Proof/Syntax.lean ====
section
/-! DEFINITION. The commands of the part: one constructor for each row of the table of operations and events,
in the table's order, with the operands that the row's rule names. Outcomes of the media, the links, the sensors, the
cryptographic checks and the arbiters, which the part meets and does not choose, are operands (DESIGN CHOICE, log entry 1). -/

namespace Sys2Proof

/-- The commands and events of the Wailys 512. -/
inductive Instr where
  /-- R26. VCORE falls below 0.53 V or rises above 0.88 V; the die raises the event and stops accepting new tokens at its host port, swarm port and die bridge. -/
  | vcoreOutOfWindow (d : DieIx) (mv : Nat)
  /-- R26. VCORE has been back inside 0.55–0.85 V for 100 µs, and the die accepts tokens again. -/
  | vcoreWindowRestored (d : DieIx) (mv : Nat)
  /-- R28. XTAL25 stops while VIN is present; clocked PHYs stop, the tick moves to XTAL32K and the link-down events are raised. -/
  | xtal25Stop
  /-- R28. XTAL32K stops; the keeper raises 32 kHz timebase fail (source 382) and keeps the tick on XTAL25. -/
  | xtal32kStop
  /-- R32. A die bridge transfer arrives and its CRC-32C is checked; a failed transfer is resent. -/
  | dieBridgeTransfer (toward : DieIx) (tag : Nat) (crcOk : Bool)
  /-- R32. No bridge handshake completes for 100 µs while transfers wait, or a transfer fails 8 consecutive times, and the bridge is declared lost. -/
  | dieBridgeHandshakeTimeout
  /-- R36. One side of a clockless-to-clocked crossing is reset; it clears its FIFO pointers and drops ready, and both sides discard the FIFO entries. -/
  | crossingReset (x : CrossingId) (phySide : Bool)
  /-- R36. Both sides have set their pointers to zero and returned each other's ready as toggles; traffic and held toggles resume. -/
  | crossingReadyHandshake (x : CrossingId)
  /-- R37. The clockless side asks a stopped PHY clock to restart; a mutual-exclusion element resolves a race with the PHY's stop decision. -/
  | phyWakeRequest (x : CrossingId) (stopGrantedFirst : Bool)
  /-- R34. A lane PHY's idle timer expires and its clock stops, unless a wake request is granted first. -/
  | phyIdleTimerExpiry (l : LaneIx) (wakeGrantedFirst : Bool)
  /-- R31. A slot of a full resource frees and goes to the waiting requester of highest priority, oldest first. -/
  | resourceSlotFree (r : Resource)
  /-- R38. A cluster writes a 64-byte media operation descriptor into a lane queue. -/
  | descriptorSubmit (l : LaneIx) (d : Descriptor) (p : Purpose)
  /-- R40. A lane context starts READ_PAGE: it applies the offset vector, reads the pages and transfers LENGTH bytes to BUF0 and the decoders. -/
  | readPage (l : LaneIx)
  /-- R40. A lane context starts READ_SOFT and reads each level SOFT times at offsets around the vector, returning hard and soft bits. -/
  | readSoft (l : LaneIx)
  /-- R40. A lane context starts MARGIN_READ, reading with the vector shifted for verification and returning the raw page. -/
  | marginRead (l : LaneIx)
  /-- R40. A lane context starts OFFSET_SWEEP and writes a 32-bit count of ones for each sweep point to BUF1. -/
  | offsetSweep (l : LaneIx)
  /-- R40. A lane context starts PROGRAM_PAGE and programs the selected pages from BUF0 in a single pass. -/
  | programPage (l : LaneIx)
  /-- R40. A lane context starts PROGRAM_PASS and executes one pass of the multi-pass algorithm that ROUTINE names. -/
  | programPass (l : LaneIx)
  /-- R40. A lane context starts ERASE_BLOCK on the selected planes, subject to erase suspend. -/
  | eraseBlock (l : LaneIx)
  /-- R47. A SUSPEND descriptor suspends the erase running on its LUN and holds it until RESUME; CRITICAL bypasses the run time and the limit. -/
  | suspend (l : LaneIx)
  /-- R48. A RESUME descriptor resumes an erase that this lane suspended, or completes OK with no command. -/
  | resume (l : LaneIx)
  /-- R40. A lane context writes FEATURE_DATA to NAND feature FEATURE. -/
  | setFeature (l : LaneIx)
  /-- R40. A lane context reads NAND feature FEATURE into the completion VALUE and BUF1. -/
  | getFeature (l : LaneIx)
  /-- R40. A lane context reads the LUN's status into the completion VALUE. -/
  | readStatus (l : LaneIx)
  /-- R51. A lane trains its channel in six steps from SDR initialisation to write DQ training. -/
  | train (l : LaneIx) (tries : List Bool)
  /-- R55. A status read shows an array operation finished, and the lane completes the descriptor with its result. -/
  | lunReady (l : LaneIx) (tag : Half) (st : NandStatus) (reply : LunReply)
  /-- R55. An array operation is not ready within TIMEOUT; the lane resets the LUN, completes TIMEOUT and raises Status timeout. -/
  | statusTimeout (l : LaneIx) (tag : Half)
  /-- R46. A running erase reaches the minimum erase run time since it started or was last resumed. -/
  | minEraseRunTimeExpiry (l : LaneIx) (u : LunIx)
  /-- R46. An erase has stayed suspended for the maximum suspended time and the lane resumes it. -/
  | maxSuspendedTimeExpiry (l : LaneIx) (u : LunIx)
  /-- R57. The lane engine is reset: contexts clear, running programs complete with their actual result, erases are abandoned and reads reissued. -/
  | laneReset (l : LaneIx) (results : List (Half × NandStatus))
  /-- R52. Every 10 ms the PHY compares DQS delay with its reference and corrects the delay lines. -/
  | dqsDriftTrack (l : LaneIx) (drift : Int)
  /-- R52. Every 128 ms the lane runs a short ZQ calibration on each populated CE at an idle slot. -/
  | zqShortCalibration (l : LaneIx)
  /-- R53. A retrain trigger is pending and the channel reaches an idle slot; the lane runs short ZQ and DQ centring. -/
  | laneRetrain (l : LaneIx) (tries : List Bool)
  /-- R53. No idle slot has come within 5 ms of a retrain trigger, and the lane takes the channel at the next transfer boundary. -/
  | retrainIdleTimeout (l : LaneIx) (tries : List Bool)
  /-- R64. A write of 1 to LNE_CTRL.RETRAIN requests a retrain. -/
  | lneCtrlRetrain (l : LaneIx)
  /-- R64. A write of 1 to LNE_CTRL.CNT_CLR clears LNE_ERRCNT. -/
  | lneCtrlCntClr (l : LaneIx)
  /-- R61. Main firmware writes a lane's patch RAM, redirect slots and expected CRC; the lane sets PATCH_ACTIVE or rejects the patch. -/
  | patchLoad (l : LaneIx) (words : List (BitVec 24))
  /-- R59. Microword NOP takes no action. -/
  | nop (l : LaneIx) (c : CtxIx)
  /-- R59. Microword JMP jumps to its target. -/
  | jmp (l : LaneIx) (c : CtxIx) (t : BitVec 14)
  /-- R59. Microword BRC jumps when its condition holds. -/
  | brc (l : LaneIx) (c : CtxIx) (cond : BitVec 5) (t : BitVec 14)
  /-- R59. Microword CALL pushes the next address and jumps. -/
  | call (l : LaneIx) (c : CtxIx) (t : BitVec 14)
  /-- R59. Microword RET pops the return stack and jumps. -/
  | ret (l : LaneIx) (c : CtxIx)
  /-- R59. Microword LDI loads a zero-extended immediate into Wd. -/
  | ldi (l : LaneIx) (c : CtxIx) (d : Fin 16) (v : BitVec 15)
  /-- R59. Microword LDU loads an immediate into Wd[31:17]. -/
  | ldu (l : LaneIx) (c : CtxIx) (d : Fin 16) (v : BitVec 15)
  /-- R59. Microword LDD loads a 32-bit descriptor word into Wd. -/
  | ldd (l : LaneIx) (c : CtxIx) (d word : Fin 16)
  /-- R59. Microword ADDI adds a signed immediate and sets flags. -/
  | addi (l : LaneIx) (c : CtxIx) (d a : Fin 16) (v : BitVec 11)
  /-- R59. Microword ALU applies the selected function to Ws and Wt and sets flags. -/
  | alu (l : LaneIx) (c : CtxIx) (d a b : Fin 16) (f : BitVec 3)
  /-- R59. Microword CMP sets flags from Ws − Wt. -/
  | cmp (l : LaneIx) (c : CtxIx) (a b : Fin 16)
  /-- R59. Microword TBL loads a media profile table entry into Wd. -/
  | tbl (l : LaneIx) (c : CtxIx) (d : Fin 16) (t : BitVec 3) (i : BitVec 12)
  /-- R59. Microword SYNC waits for channel ownership. -/
  | sync (l : LaneIx) (c : CtxIx)
  /-- R59. Microword YLD releases the channel. -/
  | yld (l : LaneIx) (c : CtxIx)
  /-- R59. Microword CEN drives a chip enable or deselects. -/
  | cen (l : LaneIx) (c : CtxIx) (n : Fin 16)
  /-- R59. Microword CMD issues a command cycle. -/
  | cmd (l : LaneIx) (c : CtxIx) (fromProfile : Bool) (v : Byte)
  /-- R59. Microword ADR issues 1 to 4 address cycles. -/
  | adr (l : LaneIx) (c : CtxIx) (a : Fin 16) (n : BitVec 3)
  /-- R59. Microword ADX issues 1 to 2 further address cycles. -/
  | adx (l : LaneIx) (c : CtxIx) (a : Fin 16) (n : BitVec 2)
  /-- R59. Microword DOUT bursts data from a buffer to the NAND. -/
  | dout (l : LaneIx) (c : CtxIx) (a b : Fin 16)
  /-- R59. Microword DIN bursts data from the NAND to a buffer and optionally to the decoders. -/
  | din (l : LaneIx) (c : CtxIx) (a b : Fin 16) (toDecoder : Bool)
  /-- R59. Microword STAT reads status into Wd and NAND_STATUS. -/
  | stat (l : LaneIx) (c : CtxIx) (d : Fin 16) (enhanced : Bool) (st : NandStatus)
  /-- R59. Microword WRDY polls status until ready or timeout, setting or clearing flag T. -/
  | wrdy (l : LaneIx) (c : CtxIx) (a : Fin 16) (st : NandStatus)
  /-- R59. Microword TIM waits for a profile timing parameter in real time. -/
  | tim (l : LaneIx) (c : CtxIx) (i : Byte)
  /-- R59. Microword WAIT waits Ws µs of real time. -/
  | wait (l : LaneIx) (c : CtxIx) (a : Fin 16)
  /-- R59. Microword LVL loads a sign-extended offset vector byte. -/
  | lvl (l : LaneIx) (c : CtxIx) (d a : Fin 16) (b : Byte)
  /-- R59. Microword PHY performs one training step or a rate select. -/
  | phy (l : LaneIx) (c : CtxIx) (step : Fin 16)
  /-- R59. Microword LOOP decrements Wd and jumps if it is nonzero. -/
  | loop (l : LaneIx) (c : CtxIx) (d : Fin 16) (t : BitVec 14)
  /-- R59. Microword SUSP sets flag S if R46 allows suspension now. -/
  | susp (l : LaneIx) (c : CtxIx)
  /-- R59. Microword STO writes a completion word from Ws. -/
  | sto (l : LaneIx) (c : CtxIx) (a : Fin 16) (word : Fin 4)
  /-- R59. Microword EVT raises lane event 8×L + local. -/
  | evt (l : LaneIx) (c : CtxIx) (n : Fin 8)
  /-- R59. Microword DONE completes the descriptor with a status and frees the context. -/
  | done (l : LaneIx) (c : CtxIx) (status : Byte)
  /-- R59. Microword TRAP causes a microcode fault. -/
  | trap (l : LaneIx) (c : CtxIx) (code : Byte)
  /-- R69. A region has received no host work for 1 s, and folding starts. -/
  | foldIdleTimer (g : RegionIx)
  /-- R79. Every second while VIN is present, the keeper adds AF(T) × 1 s to each thermal-age accumulator. -/
  | thermalAgeAccumulate
  /-- R79. Every 10 minutes in the Carapace-only state, the keeper reads the media temperature and adds AF(T) × 600 s. -/
  | carapaceTemperatureSample
  /-- R79. Each hour of operation, the keeper writes its timekeeping record to the store die. -/
  | timekeepingRecordWrite
  /-- R86. Set Features Timestamp sets the wall clock; the first one after a start resolves a pending gap and may add dark thermal age. -/
  | setFeaturesTimestamp (ref : CmdRef) (ms : BitVec 48)
  /-- R86. 10 minutes of operating time pass with GAP_PENDING set, and source 377 is raised. -/
  | gapTimeout
  /-- R89. An Antenna becomes free and starts the pending run of highest rank, oldest first. -/
  | antennaRunStart (c : ClusterIx)
  /-- R92. An Antenna run finishes its sweeps and writes K1 to K63 with class and temperature to the band. -/
  | antennaRunComplete (c : ClusterIx)
  /-- R94. A band becomes due for patrol and the region starts reading one row per eighth. -/
  | patrolStart (g : RegionIx)
  /-- R95. A patrol finishes, sets PATROL_TAGE and marks the band refresh due when its findings call for it. -/
  | patrolComplete (g : RegionIx) (b : Nat)
  /-- R104. A staging row has waited 2 ms for frames, and the cluster completes it with pad and programs it. -/
  | stagingRowTimeout (g : RegionIx) (b : Nat)
  /-- R105. A free decoder engine takes a frame for decoding. -/
  | frameDecode (c : ClusterIx) (e : Fin 5) (src : FrameSource)
  /-- R106. An engine signals completion and the cluster judges the decode under R106. -/
  | decodeComplete (c : ClusterIx) (e : Fin 5) (res : DecodeResult)
  /-- R107. No completion arrives within 200 µs after an engine took a frame, an engine internal fault. -/
  | decoderCompletionTimeout (c : ClusterIx) (e : Fin 5)
  /-- R108. A frame that failed a step starts the next step of the retry ladder. -/
  | retryLadderStep (c : ClusterIx) (id : Nat) (facts : LadderFacts)
  /-- R120. An uncorrectable error in the accumulator memory discards the accumulation, which is rebuilt from programmed payloads. -/
  | parityAccumulatorMemoryError (c : ClusterIx) (corrected : Bool) (band row : Nat)
  /-- R121. A write of 1 to CLU_CTRL.CNT_CLR clears the cluster counters. -/
  | cluCtrlCntClr (c : ClusterIx)
  /-- R125. The earlier update of a granule has its MAP record in the tail, and the next pending update starts its merge, placement and map change. -/
  | pendingUpdateApply (g : RegionIx) (gran : Nat)
  /-- R139. 1 ms has passed since the first record of the tail frame, and the region closes it. -/
  | journalFrameTimer (g : RegionIx)
  /-- R139. Both copies of a journal frame have programmed OK and its records become durable. -/
  | journalFrameDurable (g : RegionIx)
  /-- R143. 128 journal frames have been appended since the last capture, and the region captures the next segment image. -/
  | checkpointCapture (g : RegionIx)
  /-- R144. Both image copies are durable, and the region writes an index record to the store die. -/
  | checkpointIndexWrite (g : RegionIx) (ckptSeq : Nat)
  /-- R147. A map segment has loaded, its replay list is applied and it becomes resident. -/
  | mapSegmentLoad (g : RegionIx) (seg : Nat)
  /-- R147. The band segments of all four regions are loaded and host fetch starts, with CSTS.RDY set. -/
  | hostFetchStart (facts : Vector RestoreFacts 4) (ms : Nat)
  /-- R152. A write of GO to RGN_QUERY_HI starts a map lookup of the granule without loading its segment. -/
  | rgnQuery (g : RegionIx) (hi : Byte)
  /-- R152. A write of 1 to RGN_CTRL.CNT_CLR clears RGN_MAPERR. -/
  | rgnCtrlCntClr (g : RegionIx)
  /-- R161. A reclamation slot frees, Scarab takes the first candidate, appends RECLAIM_START and starts copying. -/
  | reclaimStart (g : RegionIx) (k : Fin 2)
  /-- R168. A granule's watch count reaches the refresh count, or a frame came from step 5 or 6, and it is relocated alone. -/
  | granuleRelocate (g : RegionIx) (gran : Nat)
  /-- R186. After a power loss, the region resynchronises the band rows covered by set dirty bits. -/
  | bandResync (g : RegionIx) (b : Nat) (unreadable : List Nat)
  /-- R192. The region rebuilds the adopted position of one band, row by row, on the spare. -/
  | bandRebuild (g : RegionIx) (spare : Nat) (lost : List (Nat × Bool)) (failed : Bool)
  /-- R203. Membership Stage action 0 stages a table piece; the last piece is checked and the table staged or refused. -/
  | membershipStageStage (ref : CmdRef) (offset len : Nat) (last : Bool) (table : MemTable)
  /-- R204. Membership Stage action 1 applies the staged table at the apply instant. -/
  | membershipStageApply (ref : CmdRef)
  /-- R295. Membership Stage action 2 returns the member public key. -/
  | membershipStageReadMemberKey (ref : CmdRef)
  /-- R294. Membership Stage action 3 returns the applied table header. -/
  | membershipStageReadTableHeader (ref : CmdRef)
  /-- R294. Membership Stage action 4 discards the staged table. -/
  | membershipStageDiscard (ref : CmdRef)
  /-- R204. An authenticated EPOCH_ANNOUNCE naming the staged epoch and header hash applies the staged table. -/
  | epochAnnounce (hdr : MsgHdr) (epoch : Nat) (hash : BitVec 384)
  /-- R204. An operation of the trailing epoch is unfinished 30 s after the apply instant and is restarted under the current epoch. -/
  | trailingEpochTimeout
  /-- R205. A message of a newer epoch has been held 60 s and is answered NAK EPOCH_AHEAD. -/
  | heldMessageTimeout (i : Nat)
  /-- R211. A leader receives SEAL_NOTICE and places the segment in an open stripe or opens a new one, or refuses. -/
  | sealNotice (hdr : MsgHdr) (region : RegionIx) (seg : Fin 16) (band : Nat)
  /-- R209. A seal notice has no answer after 5 s and the data member moves to the next leader candidate. -/
  | sealNoticeTimeout (g : RegionIx) (b : Nat) (u : Fin 16)
  /-- R209. 60 s after every candidate refused, the data member tries the leader list again. -/
  | sealNoticeRetry (g : RegionIx) (b : Nat) (u : Fin 16)
  /-- R216. The data member receives SLOT_ASSIGN, makes the segment ASSIGNED and begins contributions. -/
  | slotAssign (hdr : MsgHdr) (stripe position m version : Nat) (holders : List Nat)
  /-- R217. A holder receives a stripe record, makes it durable and answers STRIPE_RECORD_ACK. -/
  | stripeRecord (hdr : MsgHdr) (restore : Bool) (r : StripeRec)
  /-- R217. The leader receives a holder's acknowledgement of a record version. -/
  | stripeRecordAck (hdr : MsgHdr) (stripe version : Nat)
  /-- R218. SHORT_TIMEOUT passes on an open stripe; it closes short and source 411 is raised. -/
  | stripeShortTimeout (stripe : Nat)
  /-- R219. A holder receives contribution payloads and programs XORed chunks at NEW. -/
  | contribData (hdr : MsgHdr) (stripe position index first count : Nat)
  /-- R219. A holder receives CONTRIB_DONE, switches CUR to NEW with the applied bit durable, and acknowledges. -/
  | contribDone (hdr : MsgHdr) (stripe position index : Nat) (crcOk : Bool)
  /-- R261. A holder receives a RETRACT and applies it, or acknowledges without effect. -/
  | retract (hdr : MsgHdr) (stripe position index first count : Nat) (neverSent release last behalf crcOk : Bool)
  /-- R217. A contribution refused NO_RECORD is tried again 60 s later while the holder is lit. -/
  | contribRetry (stripe position index : Nat)
  /-- R219. A contribution refused BUSY is offered again after 1 s. -/
  | contribBusyRetry (stripe position index : Nat)
  /-- R226. A peer becomes lit; pending work goes to it in order and light requests naming its shelf are cancelled. -/
  | peerLit (c : Nat)
  /-- R237. A swarm port auto-negotiates and trains, falling back to 50GBASE-KR after three failed trainings. -/
  | swarmLinkTraining (d : DieIx) (partner : KrPartner)
  /-- R237. A swarm port's link goes down; the event is raised and traffic moves to the other die's port. -/
  | swarmPortLinkDown (d : DieIx)
  /-- R238. The port answers an IPv6 Neighbor Discovery solicitation. -/
  | neighborSolicitation (d : DieIx) (target : BitVec 128)
  /-- R238. The port answers an ARP request. -/
  | arpRequest (d : DieIx) (target : BitVec 128)
  /-- R238. The port answers an ICMP or ICMPv6 echo. -/
  | echoRequest (d : DieIx) (target : BitVec 128)
  /-- R241. A Lenos packet arrives and is checked in order; a failing packet is discarded with its event. -/
  | lenosPacket (d : DieIx) (p : LenosPkt)
  /-- R247. A HELLO of phase 1, 2 or 3 is received, checked and answered, establishing a session at its end. -/
  | hello (d : DieIx) (m : HelloMsg)
  /-- R247. A session attempt has no answer within 1 s and is abandoned. -/
  | helloAttemptTimeout (peer : Nat)
  /-- R247. 5 s after an abandoned attempt, a new attempt is made. -/
  | helloRetryTimer (peer : Nat)
  /-- R251. 24 h pass or a half reaches 2^32 records, and the lower member ID starts a new HELLO exchange. -/
  | sessionRekey (peer : Nat)
  /-- R251. 1 s after a rekey, the old session is erased and Session rekeyed is raised. -/
  | oldSessionErase (peer : Nat)
  /-- R253. A received record reaches its 100 µs acknowledgement deadline and is acknowledged. -/
  | ackTimer (peer : Nat) (half : Fin 2)
  /-- R253. A record's retransmission timeout expires; its messages go out again in new records. -/
  | retransmissionTimeout (peer : Nat) (half : DieIx) (ctr : Nat)
  /-- R254. A half makes no acknowledgement progress for 2 s; it moves to the next path, or the session is lost. -/
  | pathProgressTimeout (peer : Nat) (half : DieIx)
  /-- R255. No record from a peer has authenticated within 5 s and the peer becomes unlit. -/
  | livenessTimeout (peer : Nat)
  /-- R255. A peer has been unlit for 60 s without DIAPAUSE and source 400 is raised once. -/
  | peerUnreachable (peer : Nat)
  /-- R255. A session has sent nothing for a second and the member sends a HEARTBEAT. -/
  | heartbeatSendTimer (peer : Nat)
  /-- R208. A HEARTBEAT is received and its status flags are kept for placement and rebuild. -/
  | heartbeat (peer : Nat) (status : Half) (applied : Nat)
  /-- R256. A request has no answer after 5 s and is sent again with the same OPID. -/
  | requestAnswerTimeout (peer opid : Nat)
  /-- R259. A member serves a REBUILD_READ for a segment, parity, record or reconstruction. -/
  | rebuildRead (hdr : MsgHdr) (stripe what index first count : Nat) (rows : List RowFacts) (stepFive : List Nat)
  /-- R267. REBUILD_DATA arrives as a reply or a push; an adopter writes pushed data and parity into restore bands. -/
  | rebuildData (hdr : MsgHdr) (stripe what index first count : Nat) (last push reply crcOk : Bool) (bad : List Nat) (record : Option StripeRec) (grans : List PushGran)
  /-- R272. A LIGHT_REQUEST or its cancel is received and entered in or removed from the 0xC2 log. -/
  | lightRequest (peer : Nat) (r : LightReq) (cancel : Bool)
  /-- R258. A NAK is received and the originator acts on its reason. -/
  | nak (hdr : MsgHdr) (reason refused detail : Nat)
  /-- R265. A leader starts its next rebuild task in priority order, up to four at a time. -/
  | rebuildTaskStart (rows : List RowFacts) (dark : Option Nat) (applied : List Nat)
  /-- R265. A push refused BUSY is offered again after 1 s. -/
  | pushBusyRetry (stripe : Nat) (data : Bool) (index : Nat)
  /-- R271. A push refused NO_NAMESPACE is offered again after 60 s. -/
  | pushNoNamespaceRetry (stripe : Nat) (data : Bool) (index : Nat)
  /-- R273. The dark-wait ends without the needed member lighting; the read completes with 0x80 and source 483. -/
  | darkWaitExpiry (ref : CmdRef)
  /-- R276. A write of 1 to SWM_CTRL.CNT_CLR clears the retransmission and reject counters. -/
  | swmCtrlCntClr (d : DieIx)
  /-- R278. A host port trains; below Gen5 or x4 it raises Host link degraded. -/
  | pcieLinkTraining (d : DieIx) (gen lanes : Nat)
  /-- R278. A host link leaves L0 for Detect or is lost; commands in flight end as for FLR. -/
  | hostLinkDown (d : DieIx)
  /-- R510. HSTp_PERST_N is asserted and the port is handled as link down. -/
  | perstNAssert (d : DieIx)
  /-- R287. A PCIe function level reset on a port ends its host work as a controller reset. -/
  | functionLevelReset (d : DieIx)
  /-- R382. A PCIe configuration request is answered with CRS until configuration space is initialised. -/
  | configRequest (d : DieIx)
  /-- R382. CC.EN goes 0 to 1; CSTS.RDY is set once host fetch may start and source 464 is raised. -/
  | controllerEnable (d : DieIx) (asqs acqs : Nat)
  /-- R287. CC.EN goes 1 to 0; unstarted commands are discarded and writes and reads in flight end under R287. -/
  | controllerReset (d : DieIx)
  /-- R287. CC.SHN 01 completes outstanding commands and seals bands when the last controller shuts down. -/
  | normalShutdown (d : DieIx)
  /-- R287. CC.SHN 10 discards unstarted commands and ends others as a controller reset. -/
  | abruptShutdown (d : DieIx)
  /-- R287. A write of 0x4E56_4D65 to NSSR resets both controllers, or restarts the package with a pending activation. -/
  | nvmSubsystemReset (d : DieIx) (value : Word)
  /-- R288. A submission queue tail doorbell write is recorded, or discarded as invalid. -/
  | submissionQueueDoorbell (d : DieIx) (qid tail : Nat)
  /-- R288. A completion queue head doorbell write is recorded, or discarded as invalid. -/
  | completionQueueDoorbell (d : DieIx) (qid head : Nat)
  /-- R281. Create I/O Submission Queue command. -/
  | createIoSubmissionQueue (ref : CmdRef) (qid entries cqid : Nat) (contiguous : Bool)
  /-- R281. Delete I/O Submission Queue command. -/
  | deleteIoSubmissionQueue (ref : CmdRef) (qid : Nat)
  /-- R281. Create I/O Completion Queue command. -/
  | createIoCompletionQueue (ref : CmdRef) (qid entries : Nat) (contiguous irqEn : Bool) (vector : Nat)
  /-- R281. Delete I/O Completion Queue command. -/
  | deleteIoCompletionQueue (ref : CmdRef) (qid : Nat)
  /-- R297. Get Log Page returns a standard or vendor log page. -/
  | getLogPage (ref : CmdRef) (lid : Byte) (nsid lsi lpo len : Nat) (rae : Bool)
  /-- R281. Identify returns controller or namespace data. -/
  | identify (ref : CmdRef) (cns : Byte) (nsid cntid : Nat)
  /-- R286. Abort catches the named command before its point of no return, or misses it. -/
  | abort (ref : CmdRef) (sqid : Nat) (cid : Half)
  /-- R281. Get Features returns a supported feature. -/
  | getFeatures (ref : CmdRef) (fid : Byte) (dw11 : Word)
  /-- R281. Set Features Arbitration (round robin only). -/
  | setFeaturesArbitration (ref : CmdRef) (dw11 : Word)
  /-- R292. Set Features Power Management moves the whole package to a power state and raises source 485. -/
  | setFeaturesPowerManagement (ref : CmdRef) (ps : Nat)
  /-- R484. Set Features Temperature Threshold sets the over- and under-temperature thresholds. -/
  | setFeaturesTemperatureThreshold (ref : CmdRef) (kelvin : Half) (sel : Nat) (under : Bool)
  /-- R281. Set Features Error Recovery, DULBE not supported. -/
  | setFeaturesErrorRecovery (ref : CmdRef) (dw11 : Word)
  /-- R281. Set Features Number of Queues. -/
  | setFeaturesNumberOfQueues (ref : CmdRef) (nsq ncq : Half)
  /-- R281. Set Features Interrupt Coalescing. -/
  | setFeaturesInterruptCoalescing (ref : CmdRef) (dw11 : Word)
  /-- R281. Set Features Interrupt Vector Configuration. -/
  | setFeaturesInterruptVectorConfig (ref : CmdRef) (vector : Half) (disable : Bool)
  /-- R281. Set Features Asynchronous Event Configuration. -/
  | setFeaturesAsyncEventConfiguration (ref : CmdRef) (dw11 : Word)
  /-- R293. Set Features Autonomous Power State Transition installs the 32-entry APST table. -/
  | setFeaturesApst (ref : CmdRef) (enable : Bool) (table : Vector DWord 32)
  /-- R289. Set Features Flexible Data Placement; other indexes or disabling are refused. -/
  | setFeaturesFdp (ref : CmdRef) (endgid : Half) (index : Byte) (enable : Bool)
  /-- R281. Set Features FDP Events. -/
  | setFeaturesFdpEvents (ref : CmdRef) (handle : Half) (types : List Byte) (enable : Bool)
  /-- R29. An Asynchronous Event Request is held outside the command slots up to AERL. -/
  | asynchronousEventRequest (ref : CmdRef)
  /-- R290. Namespace Management create assigns an extent, fills the key slot and writes a new applied image. -/
  | namespaceManagementCreate (ref : CmdRef) (nsze ncap lbaf : Nat) (phandles : List Nat) (drbgOk : Bool)
  /-- R290. Namespace Management delete finishes pending updates, frees the extent and writes a new applied image. -/
  | namespaceManagementDelete (ref : CmdRef) (nsid : Nat)
  /-- R279. Namespace Attachment; every namespace is shared and attached to both controllers. -/
  | namespaceAttachment (ref : CmdRef) (nsid : Nat) (attach : Bool) (ctrls : List Half)
  /-- R290. Format NVM with SES 000 sets the namespace's entries to 010, optionally changing the LBA format. -/
  | formatNvm (ref : CmdRef) (nsid lbaf : Nat)
  /-- R339. Format NVM with SES 001 or 010 replaces the namespace key and sets its entries to 010. -/
  | formatNvmCryptoErase (ref : CmdRef) (nsid lbaf : Nat) (drbgOk : Bool)
  /-- R337. Security Send SPSP 0x0001 installs the key-encryption key in a new key set. -/
  | securitySendKek (ref : CmdRef) (b : KeyBlob)
  /-- R337. Security Send SPSP 0x0002 installs a namespace's XTS key pair in both dies. -/
  | securitySendNamespaceKey (ref : CmdRef) (nsid : Nat) (b : KeyBlob)
  /-- R296. Security Send SPSP 0x0004 locks key installation until the next start. -/
  | securitySendLock (ref : CmdRef)
  /-- R296. Security Receive SPSP 0x0003 returns the filled key slots and KEK identifier. -/
  | securityReceiveKeyStatus (ref : CmdRef)
  /-- R296. Security Receive protocol 0x00 lists protocols 0x00 and 0xF2. -/
  | securityReceiveProtocolList (ref : CmdRef)
  /-- R291. Sanitize crypto erase replaces every namespace key and sets every entry to 010. -/
  | sanitizeCryptoErase (ref : CmdRef) (drbgOk : Bool)
  /-- R291. Sanitize block erase replaces keys, sets entries to 010 and reclaims every band with its retracts. -/
  | sanitizeBlockErase (ref : CmdRef) (drbgOk : Bool)
  /-- R291. Sanitize overwrite is not supported and completes with Invalid Field in Command. -/
  | sanitizeOverwrite (ref : CmdRef)
  /-- R291. Sanitize Exit Failure Mode. -/
  | sanitizeExitFailureMode (ref : CmdRef)
  /-- R295. Option Stage writes an image piece into the staging slot in contiguous order. -/
  | optionStage (ref : CmdRef) (offset len : Nat) (last : Bool) (image : OptImage)
  /-- R412. Option Check checks the staged image and reports the first failure. -/
  | optionCheck (ref : CmdRef)
  /-- R414. Option Apply with CDW10[0] = 0 rechecks the image and marks it for apply at next start. -/
  | optionApplyAtStart (ref : CmdRef)
  /-- R415. Option Apply with CDW10[0] = 1 rechecks the image and applies it at a live apply barrier. -/
  | optionApplyLive (ref : CmdRef)
  /-- R493. Management Read checks every dword under the access rules and returns the dwords. -/
  | managementRead (ref : CmdRef) (addr : Word) (numd : Nat)
  /-- R493. Management Write checks every dword under the access rules and writes them in ascending order. -/
  | managementWrite (ref : CmdRef) (addr : Word) (values : List Word)
  /-- R363. Diapause Prepare stops fetch, drains windows, seals bands and captures every image. -/
  | diapausePrepare (ref : CmdRef)
  /-- R363. The diapause record is programmed; Diapause Status reports ready and Prepare completes. -/
  | diapauseReady
  /-- R294. Diapause Status returns the diapause state and percent of images captured. -/
  | diapauseStatus (ref : CmdRef)
  /-- R281. A command the controller does not support completes with Invalid Command Opcode. -/
  | unsupportedCommand (ref : CmdRef)
  /-- R21. A Read command is looked up, read, decoded, decrypted and moved to host memory. -/
  | read (ref : CmdRef) (nsid slba nlb : Nat)
  /-- R20. A Write command is moved into buffers, entered in the acknowledge window and pending table, and completed. -/
  | write (ref : CmdRef) (nsid slba nlb dtype dspec : Nat) (data : List Nat)
  /-- R282. Window entries release and a waiting write buffer enters the acknowledge window. -/
  | windowAdmit (d : DieIx)
  /-- R326. The XTS pipeline encrypts acknowledged write data into a fresh buffer. -/
  | xtsEncrypt (g : RegionIx) (gran seq : Nat) (refused : List Nat)
  /-- R284. Flush completes as soon as earlier completed writes are durable or protected. -/
  | flush (ref : CmdRef) (nsid : Nat)
  /-- R133. Write Zeroes deallocates whole granules or merges encrypted zeros. -/
  | writeZeroes (ref : CmdRef) (nsid slba nlb : Nat)
  /-- R133. Dataset Management Deallocate sets whole granules to 001 or merges encrypted zeros. -/
  | datasetManagement (ref : CmdRef) (nsid : Nat) (deallocate : Bool) (ranges : List LbaRange)
  /-- R116. Verify reads through the ladder and consumes poison like Read. -/
  | verify (ref : CmdRef) (nsid slba nlb : Nat)
  /-- R327. Copy decrypts each source unit and encrypts it under its destination tweak. -/
  | copy (ref : CmdRef) (nsid sdlba : Nat) (src : List LbaRange)
  /-- R293. The APST idle time expires and the package moves to PS3 or PS4. -/
  | apstIdleTimer (d : DieIx)
  /-- R305. A requester asks the pool for a size and receives the smallest fitting class, or waits. -/
  | bufferAllocate (d : DieIx) (bytes : Nat) (dram : Bool) (kind : WorkKind)
  /-- R308. A holder takes a reference; at 255 the buffer is pinned and a fault raised. -/
  | bufferReferenceTake (d : DieIx) (ptr : Word) (user : PoolUser)
  /-- R308. A user drops a reference; at 0 the buffer goes to its zeroing queue. -/
  | bufferReferenceDrop (d : DieIx) (ptr : Word) (user : PoolUser)
  /-- R309. The zeroing engine finishes a buffer, clears its poison marks and puts it on the free list. -/
  | bufferZeroed (d : DieIx) (c : PoolClass) (i : Nat)
  /-- R312. Every 1 ms the WCK-DQ interval oscillator is read for drift. -/
  | dramOscillatorRead (d : DieIx) (value driftPs : Nat)
  /-- R312. Every 64 ms the ZQ background calibration is latched. -/
  | dramZqLatch (d : DieIx) (value : Nat)
  /-- R313. A retrain trigger is met; DRAM access pauses at the next refresh boundary and the interface retrains. -/
  | dramRetrain (d : DieIx) (byRate : Bool) (tries : List Bool)
  /-- R316. The checker corrects a word and the correctable-error table entry advances. -/
  | memoryCorrected (d : DieIx) (k : MemKind) (addr : BitVec 40) (bit : Byte)
  /-- R319. An uncorrectable word delivers no data, is entered HARD and is poisoned or reloaded. -/
  | memoryUncorrectable (d : DieIx) (k : MemKind) (addr : BitVec 40) (target : UeTarget)
  /-- R318. The firmware core retires a HARD location to a spare DRAM row or SRAM line. -/
  | locationRetire (d : DieIx) (k : MemKind) (addr : BitVec 40) (channel : Fin 4) (inBuffer : Option (PoolClass × Nat))
  /-- R320. A MEM_TEST write in checker test mode writes a data word and its check bits separately. -/
  | memTest (d : DieIx) (w : Word) (checkOk : Bool)
  /-- R325. A write of 1 to MEM_CTRL.CNT_CLR clears the memory error counters. -/
  | memCtrlCntClr (d : DieIx)
  /-- R341. A write of 1 to CPH_CTRL.CNT_CLR clears CPH_REFUSE[23:0]. -/
  | cphCtrlCntClr (d : DieIx)
  /-- R345. VIN rises through 2.7 V; the keeper brings up the rails and begins a cold start. -/
  | vinRise (o : ColdStartFindings)
  /-- R345. VIN falls below 2.7 V; the keeper resets both dies and runs from VAUX if present. -/
  | vinFall
  /-- R345. Board rails are not within their windows 1 s after start and source 383 is raised. -/
  | railWindowTimeout (r : BoardRail)
  /-- R345. An on-package regulator does not reach its window within 5 ms; source 383 is raised and the dies stay in reset. -/
  | regulatorStartTimeout (r : PkgRail)
  /-- R344. A monitored board rail leaves its window while the package is lit. -/
  | boardRailOutOfWindow (r : BoardRail) (above : Bool)
  /-- R528. VIN stays above 5.75 V for 100 µs and source 383 names VIN. -/
  | vinOvervoltage (mv : Half)
  /-- R348. Each 1 ms input-power average is compared with the cap, and the keeper steps VCORE and issue down or back up. -/
  | powerCapAverage (mw : Nat)
  /-- R352. PWR_LOSS_N has been low for 1 µs and power loss is detected. -/
  | pwrLossNAssert
  /-- R352. VIN has been below the loss threshold for 2 µs with HU_ISO low, and power loss is detected. -/
  | vinBelowLossThreshold
  /-- R353. Programs finish and windows, manifests, journal tail and events are written; the rescue record is programmed complete. -/
  | rescueComplete (tenUs : Nat)
  /-- R353. 50 ms after the rescue completes, the keeper lowers HU_ISO. -/
  | huIsoRelease (inputPresent : Bool)
  /-- R352. VIN stays below the warning threshold for 100 µs and source 360 is raised. -/
  | vinBelowWarning (mv : Half)
  /-- R359. A write of 1 to KPR_CTRL.HU_MEASURE requests a bank measurement. -/
  | kprCtrlHuMeasure
  /-- R359. The measurement interval elapses and a bank measurement starts. -/
  | measurementIntervalExpiry
  /-- R359. Both windows drain during a measurement and HU_CHG_EN falls. -/
  | holdupWindowsEmpty
  /-- R359. 5 ms of settling pass; the keeper reads V1 and raises HU_TEST. -/
  | holdupSettleExpiry (v1 : Nat)
  /-- R359. HUB_SENSE falls below V2; HU_TEST drops and the capacitance is computed and judged. -/
  | holdupDischargeCrossing (us : Nat)
  /-- R359. HUB_SENSE has not fallen below V2 after 30 s and the measurement fails. -/
  | holdupDischargeTimeout
  /-- R359. The bank is back within 1% of target and the window limits return unless R360 holds them. -/
  | holdupRecharged (mv : Nat)
  /-- R360. A declared bank has not reached its target within the charge timeout and source 365 is raised. -/
  | holdupChargeTimeout
  /-- R362. VAUX is lost while VIN is present and source 367 is raised. -/
  | vauxLost
  /-- R366. A thermistor input reads open or shorted for 10 s and its fault is raised. -/
  | thermistorFault (n : Fin 4) (shorted : Bool)
  /-- R366. The keeper die exceeds 125 °C; source 372 is raised and the safe state follows. -/
  | keeperTemperatureCritical (t : Int)
  /-- R368. The keeper samples each ADC channel every 100 µs, or every 10 minutes Carapace-only. -/
  | adcSample (x : AdcSampleOp)
  /-- R369. The keeper restarts the package from step 3, running the rescue on the input first after host work. -/
  | packageRestart (cause : RestartCause)
  /-- R370. The keeper releases D0 from reset, samples the straps and opens the boot window. -/
  | d0Release (f : StartFindings)
  /-- R371. LOCK is not set within 1,000 ms; the keeper sets it, raises source 375 and resets D0. -/
  | bootWindowTimeout
  /-- R427. Store die command 0x10 programs one 64-bit word. -/
  | program64BitWord (req : Requester) (writes : List (Nat × Word))
  /-- R427. Store die command 0x20 programs a 256-byte line at the 64th write. -/
  | program256ByteLine (req : Requester) (writes : List (Nat × Word))
  /-- R427. Store die command 0x30 collects 1 to 8 sectors of one bank for erase. -/
  | eraseSector (req : Requester) (offsets : List Nat)
  /-- R431. Store die command 0x31 suspends a running erase explicitly, or is denied. -/
  | eraseSuspend (req : Requester) (runTime : Nat)
  /-- R427. Store die command 0x32 resumes a suspended erase. -/
  | eraseResume (req : Requester)
  /-- R430. Store die command 0x40 sets the read reference to normal, program-verify or erase-verify. -/
  | marginMode (req : Requester) (mode : Word)
  /-- R427. Store die command 0x50 places a sector's erase counter in STO_RESULT. -/
  | readEraseCounter (req : Requester) (offset : Nat)
  /-- R427. Store die command 0xF0 abandons any open sequence and clears STO_CMD.RESULT. -/
  | returnToRead (req : Requester)
  /-- R427. 50 µs after the last erase operand write, the erase sets intent marks and starts. -/
  | storeEraseStart
  /-- R428. 10 ms pass between two writes of an open sequence and it is abandoned. -/
  | storeSequenceTimeout
  /-- R429. A store die program finishes verify, or fails after four pulses and raises Program fail. -/
  | storeProgramComplete (ok : Bool)
  /-- R437. An erase verifies; the intent mark clears and the erase counter rises. -/
  | storeEraseComplete (marginFailures : Nat)
  /-- R429. An erase has not verified after 1 s of run time; it completes ERASE_FAIL and the sector is marked BAD. -/
  | storeEraseTimeout
  /-- R433. A data read or instruction fetch of the store die proceeds or waits according to its bank. -/
  | storeArrayRead (kind : StoreReadKind) (offset : Nat) (byCore : Option DieIx) (differs : Bool)
  /-- R433. An erase with a waiting read reaches 500 µs of run time and is suspended to serve the read. -/
  | storeEraseAutoSuspend
  /-- R433. No read has waited on the bank for 50 µs and the erase resumes. -/
  | storeEraseAutoResume
  /-- R446. Firmware Image Download writes a piece to the target slot; offset 0 erases it and starts a download. -/
  | firmwareImageDownload (ref : CmdRef) (offset len : Nat) (last : Bool) (image : FwImage)
  /-- R447. Firmware Commit action 000 checks the header, copies patches and marks the slot committed. -/
  | firmwareCommitReplace (ref : CmdRef) (slot : Nat)
  /-- R447. Firmware Commit action 001 replaces and sets PENDING for activation at reset. -/
  | firmwareCommitReplaceActivate (ref : CmdRef) (slot : Nat)
  /-- R447. Firmware Commit action 010 sets or clears PENDING for a committed slot. -/
  | firmwareCommitActivateAtReset (ref : CmdRef) (slot : Nat)
  /-- R449. Firmware Commit action 011 activates at once when its conditions hold, else sets PENDING. -/
  | firmwareCommitActivateNow (ref : CmdRef) (slot : Nat)
  /-- R447. Firmware Commit actions 100–111 complete with Invalid Field in Command. -/
  | firmwareCommitBootPartition (ref : CmdRef)
  /-- R449. Fetch has stopped and fetched commands completed; the new slot's firmware takes over without reset. -/
  | firmwareActivation (d1CoreOk : Bool) (regionCoreOk : Vector Bool 4)
  /-- R458. An event token reaches the fault collector, which timestamps, classifies, latches and buffers it. -/
  | eventToken (i : Nat)
  /-- R470. A flush finishes writing its records to the event log. -/
  | eventFlushComplete
  /-- R482. A write of 1 to KPR_EV_CTRL.FLUSH requests a flush. -/
  | kprEvCtrlFlush
  /-- R463. A write of 1 to KPR_FC_FIRST.VALID clears the latch, OVERFLOW and SECOND. -/
  | kprFcFirstClear
  /-- R462. A W1C write to KPR_FC_PENDk clears pending bits, releasing FAULT_N when none remain. -/
  | kprFcPendClear (k : Fin 16) (mask : Word)
  /-- R479. In factory test mode, GO delivers an injected event to its block; otherwise source 376 is raised. -/
  | kprFcInjectGo (source : BitVec 9)
  /-- R461. A region core misses its watchdog for 100 ms and is reloaded, or its region goes out of service. -/
  | regionCoreWatchdog (g : RegionIx)
  /-- R461. A die firmware core misses its watchdog for 250 ms and is restarted or reloaded, or the die is lost. -/
  | dieCoreWatchdog (d : DieIx)
  /-- R468. A reaction shadow's period ends and the dependents' detectors evaluate afresh. -/
  | shadowClose (holder : Option DieIx) (i : Nat) (persisting : List Persisting)
  /-- R476. Every 1 ms the collector's parity is scanned; a failure raises source 373. -/
  | collectorParityScan (ok : Bool)
  /-- R461. A die leaves its grade range and source 314 or 346 is raised. -/
  | dieTemperatureWarning (d : DieIx) (t : Int)
  /-- R461. A die exceeds the grade maximum + 10 °C and the keeper holds the PS2 cap. -/
  | dieTemperatureCritical (d : DieIx) (t : Int)
  /-- R488. An MCTP packet arrives on SMBus; one failing PEC is discarded and counted. -/
  | mctpPacket (pecOk : Bool)
  /-- R489. MCTP control Set Endpoint ID. -/
  | setEndpointId (tag : Half) (op : EidOp) (eid : Byte)
  /-- R489. MCTP control Get Endpoint ID. -/
  | getEndpointId (tag : Half)
  /-- R489. MCTP control Get Endpoint UUID. -/
  | getEndpointUuid (tag : Half)
  /-- R489. MCTP control Get MCTP Version Support. -/
  | getMctpVersionSupport (tag : Half) (msgType : Byte)
  /-- R489. MCTP control Get Message Type Support. -/
  | getMessageTypeSupport (tag : Half)
  /-- R489. NVMe-MI Read NVMe-MI Data Structure. -/
  | readNvmeMiDataStructure (tag : Half) (dtyp port ctrl : Nat)
  /-- R491. NVMe-MI NVM Subsystem Health Status Poll. -/
  | nvmSubsystemHealthStatusPoll (tag : Half)
  /-- R491. NVMe-MI Controller Health Status Poll. -/
  | controllerHealthStatusPoll (tag : Half) (start maxEntries : Nat) (all : Bool)
  /-- R489. NVMe-MI Configuration Get. -/
  | configurationGet (tag : Half) (id port : Nat)
  /-- R489. NVMe-MI Configuration Set of SMBus frequency or MCTP transmission unit. -/
  | configurationSet (tag : Half) (id port value : Nat)
  /-- R489. NVMe-MI Basic Management Command. -/
  | basicManagementCommand (tag : Half) (code : Nat)
  /-- R490. A tunnelled admin command is delivered to the die firmware core for the named controller. -/
  | adminCommandTunnel (ctrl : Nat) (cid : Half) (cmd : TunnelCmd)
  /-- R489. VPD Read, VPD Write, Reset and SES commands complete with Invalid Command Opcode. -/
  | miUnsupportedCommand (tag : Half)
  /-- R11. A write to a register without its own row acts per access code; RWL after lock raises source 374. -/
  | registerWrite (addr value : Word)
  /-- R205. One second after a message is answered NAK EPOCH_AHEAD, the sender repeats it. -/
  | epochAheadRetry (peer opid : Nat)
  /-- R213. The data member receives CONTRIB_DONE with REPLY from holder i, sets DONE bit i and journals the segment entry. -/
  | contribDoneReply (hdr : MsgHdr) (stripe position index : Nat)
  /-- R224. The data member receives RETRACT with REPLY from holder i, sets RETRACTED bit i and, when all M bits are set, makes the segment RETRACTED and completes step 4 of R161. -/
  | retractReply (hdr : MsgHdr) (stripe position index : Nat)
  /-- R238. An inbound packet that is not Lenos, ND, ARP or echo (including tagged frames and fragments) is discarded and counted in SWM_REJECT_CNT. -/
  | otherInboundPacket (d : DieIx)
  /-- R510. HSTp_PERST_N is released, and the port leaves fundamental reset and may leave Detect. -/
  | perstNRelease (d : DieIx)
  /-- R362. VAUX becomes present, and with VIN absent the keeper powers up into the Carapace-only state. -/
  | vauxRise
  /-- R461. The die returns to or below the grade maximum, which lifts the PS2 cap; 5 °C inside the range, the warning condition clears. -/
  | dieTemperatureBackInRange (d : DieIx) (t : Int)
  /-- R315. The zero fill of a die's LPDDR5X and SRAM finishes, and the die goes on to build its tables and restore. -/
  | zeroFillComplete (d : DieIx)
  /-- R34. A host link enters L1.2 and the PCIe crossing's clock stops. -/
  | pcieL12Entry (d : DieIx)
  /-- R34. The host link leaves L1.2 at the host's request and the PCIe clock restarts. -/
  | pcieL12Exit (d : DieIx)
  deriving DecidableEq, Repr

end Sys2Proof
end

