-- ==== Sys2Proof/Decode.lean ====
section
/-! DEFINITION. The commands that words of the table's bits spell: the table of this part gives no row any bits. -/

namespace Sys2Proof

/-- The command that a word spells by the table's bits: none, since no row gives bits. -/
def decodeTableWord (_nbits _w : Nat) : Option Instr := none

end Sys2Proof
end

