-- ==== Sys2Proof/Config.lean ====
section
/-! DEFINITION. What one part fixes and the free values: constants with no body, so that no proof can see what they are. -/

namespace Sys2Proof.Config

/-- The orderable code: TVW512-AX (true) or TVW512-AC (R6). Which of the two a part is, the spec leaves to the order. -/
opaque extendedGrade : Bool

/-- Bits that a failed program left uncleared, and bits that read otherwise at a margin reference (R429, R430): free values. -/
opaque freeByte : Nat → Byte

/-- A free 32-bit value. -/
opaque freeWord : Nat → Word

/-- A free flag. -/
opaque freeFlag : Nat → Bool

/-- Which field an index of TBL's geometry and suspend-rule tables names: the spec names the fields and not their indexes (R59, R408). By
table and index. -/
opaque tableIndex : Nat → Nat → Nat

/-- Whether the keeper's table of acceleration factors holds the upper of the two 16-bit fractions next to AF(T): the spec states
no rounding (R77). By activation energy in meV and temperature. -/
opaque afRoundsUp : Nat → Int → Bool

/-- The member key that the cipher derives for a swarm (R333, R245): which key a device key gives, the spec does not say. -/
opaque memberKeyId : DWord → Nat

/-- The GUID of a namespace that Namespace Management creates, which the spec leaves open (R401). -/
opaque nguid : Nat → BitVec 128

/-- What a unit reads as when its ciphertext was made under another key pair than the namespace's (R326): the cipher fixes it, the spec
does not lay it out. By the unit's plaintext and its key. -/
opaque garbled : Nat → Nat → Nat

/-- The UUID of the management endpoint, which the spec does not give (R489). -/
opaque endpointUuid : BitVec 128

/-- The version that Get MCTP Version Support returns for a message type, which the spec does not give (R489). -/
opaque mctpVersion : Nat → Word

/-- The factory area's serial, keys and certificate, which Tuivahan programs and the spec does not give (R424). By offset. -/
opaque factoryByte : Nat → Byte

/-- What fixes CERT_LEN of the factory area (R424). -/
opaque factoryCertLen : Nat

/-- The extent table of a band segment as bytes, whose layout the spec does not give (R123, R142). By NSID, base and length. -/
opaque extentTable : List (Nat × Nat × Nat) → List Byte

/-- What a band segment holds behind the stripe table, whose layout the spec does not give (R171, R196, R322, R487). By quarantined LUNs, evacuated
sets and lost slots. -/
opaque bandSegmentRest : List (Nat × Nat) → List Nat → List (Nat × Nat) → List Byte

/-- The bytes of a 4 KiB unit as its frame holds them, encrypted under its key: the model holds units by identity (R97, R326). By plaintext, key and
offset. -/
opaque unitByte : Nat → Nat → Nat → Byte

/-- A byte of a frame payload that holds no placed granule: swarm parity and what a band of the package's own holds. By region, band, frame
index and offset. -/
opaque otherByte : Nat → Nat → Nat → Nat → Byte

/-- The nonce and the ephemeral private scalar of a HELLO exchange, drawn at random (R247). By draw. -/
opaque helloNonce : Nat → Nat
opaque helloScalar : Nat → Nat

/-- A signature by the member key over bytes, as a number of 96 bytes (R247, R258). -/
opaque memberSignature : List Byte → Nat

/-- The transport key's private scalar: how a scalar is taken from the derived bytes, the spec does not say (R333). -/
opaque transportScalar : Nat

/-- The 32 bytes of a key that the model names by a number (R334). -/
opaque keyBytes : Nat → List Byte

/-- The serial number of the certificate over a member key, and its signature, which the authority gives (R245). -/
opaque certSerial : Nat → DWord
opaque certSignature : Nat → Nat → Nat

/-- The informational suspend latency of a media profile (R408). -/
opaque suspendLatency : Nat → Half

end Sys2Proof.Config
end

