-- ==== Sys2Proof/Machine/StateKeeper.lean ====
section
/-! DEFINITION. State of the package level: interrupt pairs, the keeper's supply, hold-up, rescue, timekeeping, boot, fault collector,
event buffer and management port (R96, R343 to R388, R453 to R495), and the die common blocks and fabric (R22 to R37, R460). -/

namespace Sys2Proof.Machine

/-- A block's IRQ and IRQ_EN registers. -/
structure Irq where
  pend : Word
  en : Word
  deriving DecidableEq, Repr

/-- IRQ clear and IRQ_EN at its reset mask. -/
def Irq.reset (mask : Word) : Irq := { pend := 0, en := mask }

/-- A toggle channel (R35): the levels of its request and acknowledge lines, the pulses made in the receiver's domain, and the events that
wait at the sender. -/
structure Toggle where
  req : Bool
  ack : Bool
  pulses : Nat
  waiting : Nat
  deriving DecidableEq, Repr

/-- KPR_STATUS.STATE (R367). -/
inductive PkgState where
  | carapace | starting | lit | rescue | diapauseReady | safe
  deriving DecidableEq, Repr

/-- One ADC channel, KPR_ADCn (R368). -/
structure AdcCh where
  valid : Bool
  below : Bool
  above : Bool
  value : Half
  deriving DecidableEq, Repr

/-- A step that the keeper takes to hold the cap (R348). -/
inductive CapStep where
  | vcore (d : DieIx) | halve11 | halve10 | fourContexts
  deriving DecidableEq, Repr

/-- Supply monitor, rails, power cap (R343 to R348). -/
structure Supply where
  vinOk : Bool
  vauxOk : Bool
  /-- Monitored board rails within their windows: VCCQ, VDDQ, VDD2H. -/
  vccqOk : Bool
  vddqOk : Bool
  vdd2hOk : Bool
  /-- On-package rails up: VKEEP, VIO18, VPLL, VPHY. -/
  vkeep : Bool
  vio18 : Bool
  vpll : Bool
  vphy : Bool
  /-- A regulator missed its 5 ms; the dies stay in reset (R345). -/
  regulatorFault : Bool
  state : PkgState
  /-- Package power state 0 to 4. -/
  ps : Nat
  /-- VCORE setpoints of D0 and D1 in 10 mV units (R23). -/
  vcore : Vector Nat 2
  /-- Measured VCORE regulators up. -/
  vcoreUp : Vector Bool 2
  inputMw : Nat
  /-- The PS2 cap is held for a critical die temperature (R461). -/
  capHeld : Bool
  /-- Steps of R348 taken and not undone, the latest first. -/
  capSteps : List CapStep
  /-- 1 ms averages in a row below 90% of the cap. -/
  lowMs : Nat
  /-- VIN below warning may be raised again, and VIN samples in a row above the warning threshold (R352). -/
  warnArmed : Bool
  warnGood : Nat
  /-- VIN overvoltage may be raised again, and VIN samples in a row at or below 5.5 V (R528). -/
  overArmed : Bool
  overGood : Nat
  xtal25 : Bool
  xtal32k : Bool
  huIso : Bool
  huChgEn : Bool
  huTest : Bool
  adc : Vector AdcCh 13
  irq : Irq
  deriving DecidableEq, Repr

/-- KPR_HU_STATUS.MODE (R367). -/
inductive HuMode where
  | window | closedAtStart | closedForMeasure | writeThrough
  deriving DecidableEq, Repr

/-- KPR_HU_STATUS.CHARGE (R367). -/
inductive HuCharge where
  | off | charging | atTarget | timeout
  deriving DecidableEq, Repr

/-- Where a bank measurement stands (R359). -/
inductive Measure where
  | idle | draining | settling | discharging (v1 : Nat) | recharging
  deriving DecidableEq, Repr

/-- The hold-up bank (R349 to R361). -/
structure HoldUp where
  mode : HuMode
  charge : HuCharge
  lastPass : Bool
  bankMv : Nat
  /-- Last measured capacitance, 0.1 mF. -/
  measured : Nat
  /-- Usable energy at the measured capacitance, mJ. -/
  usable : Nat
  phase : Measure
  /-- Bank measurements, and those that raised 365 or 366. -/
  measurements : Nat
  failed : Nat
  /-- The bank was found degraded: write-through under R360 until a measurement passes. -/
  degraded : Bool
  /-- CAP, TARGET and TEST_LOAD in force for a running measurement (R416). -/
  cap : Nat
  target : Nat
  testLoad : Nat
  deriving DecidableEq, Repr

/-- The rescue record kept in the store die (R353, R356, R363). -/
inductive RescueRecord where
  | none | started | complete | diapause
  deriving DecidableEq, Repr

/-- A running rescue (R353, R477). -/
structure RescueRun where
  /-- HU_ISO was raised: the bank feeds VIN. -/
  onBank : Bool
  /-- The rescue belongs to the safe state: it runs on the input and 362 is not raised. -/
  safeState : Bool
  /-- The keeper restarts the package after it (R369). -/
  thenRestart : Bool
  /-- A board rail that a step still needs left its window (R344). -/
  railLost : Bool
  windowKib : Nat
  deriving DecidableEq, Repr

/-- KPR_RESCUE and the progress of the rescue. -/
structure Rescue where
  run : Option RescueRun
  record : RescueRecord
  last : BitVec 2
  duration : Nat
  windowKib : Nat
  completed : Nat
  incomplete : Nat
  /-- Starts that found a rescue record, complete or incomplete (R483). -/
  unsafeStarts : Nat
  /-- HU_ISO waits its 50 ms (R353). -/
  isoRelease : Bool
  deriving DecidableEq, Repr

/-- Timekeeping (R77 to R87, R96). -/
structure TimeKeeping where
  opsec : BitVec 40
  usec : Nat
  pcycles : Nat
  /-- Thermal-age accumulators of media profiles 0 to 3, in units of AF × 2^-16 s (R79). -/
  acc : Vector Nat 4
  /-- Acceleration factors are computed at this media temperature, °C (R78). -/
  mediaTemp : Int
  /-- Thermistor or die that gave the media temperature (KPR_TK_MEDIA.SRC). -/
  mediaSrc : Nat
  /-- Wall clock in ms, whether one has been set at some time, and whether since the start. -/
  wallMs : Nat
  wallValid : Bool
  wallSet : Bool
  /-- KPR_TK_GAP. -/
  gapPending : Bool
  gapApplied : Bool
  gapNegative : Bool
  gapNoRef : Bool
  gapHours : Nat
  /-- Source 377 was raised for the pending gap. -/
  gapReported : Bool
  /-- The bands of this start are still to be marked uncertain (R86). -/
  gapMarks : Bool
  /-- Seconds of operation since the last timekeeping record. -/
  sinceRecord : Nat
  /-- The last timekeeping record: operating seconds, wall clock and its validity, accumulators. -/
  recOpsec : Nat
  recWallMs : Nat
  recWallValid : Bool
  recAcc : Vector Nat 4
  /-- KPR_EV_LOST in that record (R473). -/
  recLost : Nat
  /-- Carapace kept time through the last dark interval. -/
  kept : Bool
  tempMax : Int
  tempMin : Int
  tempHist : Vector Nat 16
  /-- Seconds of the running minute, and minutes above WCTEMP and CCTEMP (R483). -/
  minuteSec : Nat
  warnMin : Nat
  critMin : Nat
  /-- A controller held a command in the running minute; minutes in which one did, and minutes spent in write-through (R483, R485). -/
  busy : Bool
  busyMin : Nat
  wtMin : Nat
  /-- Toggles of XTAL32K to the keeper: the Carapace timebase crossing (R34). -/
  timebase : Toggle
  /-- Time counted by single ticks in the running second, in 1/512 µs: a tick of XTAL25 is 512, one of XTAL32K 15,625 (R27). -/
  part : Nat
  irq : Irq
  deriving DecidableEq, Repr

/-- KPR_BOOT.STAGE (R388). -/
inductive BootStage where
  | inReset | bootWindow | slotCheck | optionArea | cores | patchesKeys | memoryLanes | restore | serving
  | unconfigured | recovery | heldInReset
  deriving DecidableEq, Repr

/-- Start, boot window and the protection lock (R369 to R388). -/
structure Boot where
  lock : Bool
  byKeeper : Bool
  mode : BitVec 2
  slotId : Byte
  factoryFuse : Bool
  stage : BootStage
  active : BitVec 2
  fallback : Bool
  unconfigured : Bool
  protCopy : Bool
  protRepaired : Bool
  starts : Nat
  fetchMs : Nat
  lockMs : Nat
  failCause : BitVec 4
  failSlot : BitVec 2
  windowTimeouts : Nat
  /-- Recovery mode in its sealed form (R385). -/
  sealed : Bool
  /-- An asynchronous event for log 0x03 waits for the first request (R376). -/
  fallbackEvent : Bool
  /-- Recovery mode accepted a commit (R386). -/
  recoveryCommitted : Bool
  deriving DecidableEq, Repr

/-- One execute-only descriptor (R421). -/
structure XoDesc where
  en : Bool
  hashPort : Bool
  first : BitVec 11
  count : BitVec 12
  deriving DecidableEq, Repr

/-- A protection set (R420). -/
structure ProtSet where
  magic : Word
  format : Half
  generation : DWord
  keyFuse : Half
  storeWriteLock : Bool
  fwArb : Word
  patchArb : Word
  authHash : BitVec 384
  signHash : BitVec 384
  xo : Vector XoDesc 8
  deriving DecidableEq, Repr

/-- An entry of the event buffer (R470, R471). -/
structure BufEntry where
  record : EventRecord
  /-- A flush that includes it has started: it absorbs nothing more. -/
  flushing : Bool
  deriving DecidableEq, Repr

/-- The fault collector (R458 to R481). -/
structure Collector where
  /-- Tokens on their way, oldest first. -/
  tokens : List EventToken
  pend : BitVec 512
  latch : Option EventRecord
  overflow : Bool
  second : Option Nat
  /-- Source 379 was raised for this latch. -/
  overflowRaised : Bool
  selfOk : Bool
  injectSource : BitVec 9
  injectData : Word
  shadow : Option Shadow
  shadowSeq : Nat
  safe : Bool
  irq : Irq
  deriving DecidableEq, Repr

/-- The event buffer and the event log of the store die (R469 to R474, R482). -/
structure Recorder where
  buf : List BufEntry
  /-- Slots written, with their slot number, oldest first. -/
  log : List (Nat × EventRecord)
  /-- Next free slot. -/
  next : Nat
  located : Bool
  full : Bool
  flushing : Bool
  /-- A Severe or Fatal record arrived during the flush: the next one starts at once (R480). -/
  again : Bool
  lost : Nat
  skipped : Nat
  irq : Irq
  deriving DecidableEq, Repr

/-- An answer of the management port to an MCTP control or NVMe-MI request: the request's tag, the completion code or response status, and the
response data. -/
structure MiAnswer where
  tag : Half
  code : Nat
  data : List DataField
  deriving DecidableEq, Repr

/-- The management port (R488 to R495). -/
structure MgmtPort where
  inService : Bool
  speed : BitVec 2
  eidValid : Bool
  eid : Byte
  addr : BitVec 7
  writePermitted : Bool
  refused : Nat
  /-- Received packets discarded because their PEC failed. -/
  pecDiscards : Nat
  /-- Critical Warning as last reported (R491). -/
  lastCw : Byte
  /-- Answers to control and management requests, the newest last. Vendor and tunnelled commands answer among the completions of the controller
  that they name. -/
  out : List MiAnswer
  irq : Irq
  deriving DecidableEq, Repr

/-- The keeper die. -/
structure Keeper where
  sup : Supply
  hu : HoldUp
  rescue : Rescue
  tk : TimeKeeping
  boot : Boot
  prot : ProtSet
  fc : Collector
  ev : Recorder
  mp : MgmtPort
  deriving DecidableEq, Repr

/-- One direction of a crossing's FIFO (R34): its write and read pointers in Gray code. -/
structure Fifo where
  wr : Byte
  rd : Byte
  deriving DecidableEq, Repr

/-- One boundary between clockless logic and a clocked PHY (R34 to R37). -/
structure Crossing where
  clockOn : Bool
  /-- Ready of the clockless side and of the PHY side. -/
  readyIn : Bool
  readyOut : Bool
  /-- Both pointers are zero and the FIFO handshake has completed. -/
  running : Bool
  /-- A wake request is held until it can be acted on. -/
  wakeHeld : Bool
  /-- The idle timer has been restarted and not yet expired. -/
  idleTimer : Bool
  /-- The FIFOs toward the PHY and from it. -/
  toPhy : Fifo
  fromPhy : Fifo
  /-- Control events toward the PHY and from it. -/
  ctlOut : Toggle
  ctlIn : Toggle
  /-- Entries that a reset discarded and their owner sends again after the handshake: the accesses of the LPDDR5X controller (R36). -/
  again : Nat
  deriving DecidableEq, Repr

/-- What crosses the die bridge (R18, R32). -/
inductive BridgeItem where
  /-- A granule request of a host command, on its way to the die of its region. -/
  | request (ref : CmdRef)
  /-- Its result, on its way back. -/
  | answer (ref : CmdRef)
  /-- Anything else: messages of the swarm, D1's event path, and the reload of a firmware core. -/
  | other
  deriving DecidableEq, Repr

/-- A transfer on the die bridge, with its rank among those that wait (R31, R32). -/
structure BridgeXfer where
  tag : Nat
  fails : Nat
  item : BridgeItem
  kind : WorkKind
  deriving DecidableEq, Repr

/-- One direction of the die bridge, toward a die: transfers outstanding, those held at the sender, oldest first, and the next tag. -/
structure BridgeDir where
  out : List BridgeXfer
  waiting : List BridgeXfer
  next : Nat
  deriving DecidableEq, Repr

/-- The common block, supervision and fabric of one die (R26, R29 to R37, R460, R461). -/
structure DieCommon where
  inService : Bool
  /-- Held in reset by the keeper. -/
  inReset : Bool
  /-- Taken out of service under R33 in this start. -/
  outOfService : Bool
  tokensPaused : Bool
  /-- The source 313/345 condition stands. -/
  vcoreBad : Bool
  temp : Int
  tempMax : Int
  warned : Bool
  critical : Bool
  vcoreMeas : Nat
  shadows : List Shadow
  irq : Irq
  usec : BitVec 48
  /-- Toggles of the real-time tick to the die (R27). -/
  tick : Toggle
  bridge : BridgeDir
  pcie : Crossing
  lpddr : Crossing
  swarmX : Crossing
  /-- Operating seconds of the last watchdog event of the die core, and of the region cores of the die (R461). -/
  coreDog : Option Nat
  regionDog : Vector (Option Nat) 2
  /-- The die firmware core runs. -/
  coreUp : Bool
  deriving DecidableEq, Repr

end Sys2Proof.Machine
end

