-- ==== Sys2Proof/Machine/StateLane.lean ====
section
/-! DEFINITION. State of the lane engines (R38 to R64) and of the clusters (R88 to R93, R104 to R121). -/

namespace Sys2Proof.Machine

/-- A bound microcode context (R42, R58). -/
structure Ctx where
  tag : Half
  pc : BitVec 14
  /-- Return stack, the top first; at most four entries. -/
  stack : List (BitVec 14)
  w : Vector Word 16
  z : Bool
  c : Bool
  n : Bool
  t : Bool
  s : Bool
  /-- It waits for the channel at a SYNC (R43). -/
  waits : Bool
  /-- The LUN's status as last read; all clear bytes before the first read. -/
  nand : NandStatus
  /-- Completion words 1 to 3 as STO left them. -/
  out : Vector (Option Word) 3
  /-- Real-time count of the die when execution started. -/
  started : BitVec 48
  deriving DecidableEq, Repr

/-- The kinds of queue slot of R30. -/
inductive SlotKind where
  | general | read | critical
  deriving DecidableEq, Repr

/-- A descriptor in the queue. -/
structure QEntry where
  desc : Descriptor
  purpose : Purpose
  slot : SlotKind
  /-- The context it is bound to once started. -/
  ctx : Option CtxIx
  deriving DecidableEq, Repr

/-- Where an accepted and started erase stands (R46, R48). -/
inductive ErasePhase where
  | running
  /-- The suspend command is issued; the status read that follows decides. -/
  | suspending
  | suspended
  deriving DecidableEq, Repr

/-- An erase that runs on a LUN (R46, R47). -/
structure EraseRun where
  tag : Half
  unit : LunIx
  phase : ErasePhase
  /-- Held until RESUME by a SUSPEND descriptor (R47). -/
  held : Bool
  count : Nat
  guarded : Bool
  /-- It has run the minimum time since it started or was last resumed. -/
  minMet : Bool
  /-- The maximum suspended time is over: it resumes once no other context works on the LUN (R42, R46). -/
  due : Bool
  deriving DecidableEq, Repr

/-- The first microcode fault (LNE_UCODE_FAULT, R64). -/
structure UcodeFault where
  cause : BitVec 4
  ctx : CtxIx
  addr : BitVec 14
  deriving DecidableEq, Repr

/-- Training state of a lane (R51 to R54, LNE_TRAIN). -/
structure LaneTrain where
  /-- 0 for 3,600, 1 for 2,400, 2 for 1,600 MT/s; none in SDR initialisation. -/
  rate : Option (Fin 3)
  running : Bool
  lastTemp : Int
  count : Nat
  lastCause : TrainCause
  lastFail : Bool
  pending : Option TrainCause
  /-- When the last retrain that the error rate triggered completed. -/
  errorRetrainAt : Option (BitVec 48)
  /-- Frames read since the last training, and the places among them of the last header CRC mismatches and step-1 failures. -/
  framesRead : Nat
  mismatchAt : List Nat
  step1At : List Nat
  /-- Results of the last training and retrain, by CE. -/
  results : Vector CeTraining 8
  /-- Delay-line correction of the DQS tracking (R52). -/
  dqsCorrection : Int
  /-- CEs whose short ZQ calibration has run since the last interval began (R52). -/
  zqShort : Nat
  deriving DecidableEq, Repr

/-- Patch RAM and redirect slots (R58, R61, R62). -/
structure LanePatch where
  words : List (BitVec 24)
  /-- The expected CRC-32C of the words. -/
  crc : Word
  redirect : Vector Word 32
  active : Bool
  rejected : Bool
  patchId : Byte
  rejections : Nat
  deriving DecidableEq, Repr

/-- LNE_ERRCNT. -/
structure LaneErr where
  prog : Nat
  erase : Nat
  timeout : Nat
  pending : Nat
  deriving DecidableEq, Repr

/-- A lane engine. -/
structure LaneSt where
  irq : Irq
  crossing : Crossing
  /-- Oldest first. -/
  queue : List QEntry
  /-- Descriptors that the cluster holds until a slot frees (R31), oldest first. -/
  waiting : List (Descriptor × Purpose)
  ctxs : Vector (Option Ctx) 8
  owner : Option CtxIx
  ce : Option (Fin 8)
  erases : List EraseRun
  /-- Completion records returned to the cluster, the newest last. -/
  completions : List Completion
  /-- Cycles carried by the channel, the newest last. -/
  bus : List BusCycle
  inService : Bool
  quarantined : Bool
  quarLuns : BitVec 32
  /-- 0 unpopulated, 1 ONFI, 2 Toggle (LNE_STATUS.IFACE). -/
  iface : BitVec 2
  /-- Features that SET_FEATURE has written into its LUNs: LUN, feature, value. -/
  features : List (LunIx × Byte × Word)
  train : LaneTrain
  err : LaneErr
  suspLimit : Nat
  minRun : Nat
  maxSusp : Nat
  barPrograms : Bool
  patch : LanePatch
  ucodeFault : Option UcodeFault
  deriving DecidableEq, Repr

/-- A run of the Antenna (R88 to R93). -/
structure AntRun where
  id : Nat
  region : RegionIx
  band : Nat
  rank : Nat
  /-- The row that failed, for a run of ladder step 2. -/
  failedRow : Option Nat
  /-- The sweeps of a run in progress (R90). -/
  plan : List SweepPlan
  /-- A sweep met ERASE_PENDING, or the band was released (R93). -/
  abandoned : Bool
  deriving DecidableEq, Repr

/-- A frame at an engine, or waiting for one. -/
structure EngineJob where
  req : FrameReq
  step : Nat
  /-- The engine whose internal fault sent it back (R107). -/
  avoid : Option (Fin 5)
  deriving DecidableEq, Repr

/-- Where a frame stands at its present step (R87, R105, R108). -/
inductive ClimbPhase where
  /-- It waits for the Antenna's run on its band. -/
  | run
  /-- The cluster is to build the descriptor of the step's read. -/
  | wanted
  /-- The descriptor is with the lane. -/
  | reading
  /-- The frame lies in its buffer and may go to an engine. -/
  | arrived
  /-- It is at an engine, or waits for one. -/
  | decoding
  /-- A member has been asked for it, at step 6 (R262). -/
  | asked
  /-- The step has failed and the next one has not started. -/
  | failed
  deriving DecidableEq, Repr

/-- A frame on the ladder (R108 to R112). -/
structure Climb where
  req : FrameReq
  step : Nat
  /-- Further requesters that joined (R112). -/
  joined : List FrameReq
  crcFailed : Bool
  /-- Corrected bits that its last decode reported (R106). -/
  corrected : Nat
  /-- Vector of the last read (R83, R108). -/
  vector : List Int
  /-- A map integrity fault is being resolved: through the journal, then through steps 5 and 6 (R130). -/
  integrity : Bool
  phase : ClimbPhase
  /-- The buffer pointer that its last read was given. -/
  ptr : Word
  /-- Host work for it was withdrawn: it stops at the end of the step (R112). -/
  stopping : Bool
  /-- The dark member that step 6 waits for (R273). -/
  darkWait : Option Nat
  deriving DecidableEq, Repr

/-- The result record of R113. -/
structure FrameResult where
  req : FrameReq
  step : Nat
  corrected : Nat
  poisoned : Bool
  crcFailed : Bool
  byOther : Bool
  /-- The frame's buffer. -/
  ptr : Word
  /-- Its user data as delivered. -/
  content : Unit4K
  deriving DecidableEq, Repr

/-- A band row open in a cluster's accumulator (R182): the partial P0 and P1 over the data positions whose payloads it has taken in. -/
structure AccRow where
  band : Nat
  row : Nat
  positions : List Nat
  deriving DecidableEq, Repr

/-- A cluster. -/
structure ClusterSt where
  irq : Irq
  inService : Bool
  /-- Engines 0 to 3 hard, 4 soft. -/
  engines : Vector (Option EngineJob) 5
  faults : Vector Nat 5
  queue : List EngineJob
  climbs : List Climb
  /-- Results handed to the region, the newest last. -/
  results : List FrameResult
  antenna : Option AntRun
  antPending : List AntRun
  stepCnt : Vector Nat 7
  crcCnt : Nat
  accCorrected : Nat
  accUncorr : Nat
  /-- Band rows open in the accumulator (R182). -/
  accRows : List AccRow
  /-- Rows whose accumulation was discarded and is being rebuilt (R120). -/
  accRebuild : List (Nat × Nat)
  decFault : Option (Fin 5 × Nat)
  decFaultCount : Nat
  deriving DecidableEq, Repr

end Sys2Proof.Machine
end

