-- ==== Sys2Proof/Machine/StateRegion.lean ====
section
/-! DEFINITION. State of the regions: map, bands, journal, checkpoints, Scarab and band parity (R69 to R96, R122 to R196). -/

namespace Sys2Proof.Machine

/-- An Antenna correction (R92). -/
structure Correction where
  k : List Int
  cls : Nat
  temp : Int
  deriving DecidableEq, Repr

/-- Where a fold or a relocation took a granule from, and the state its entry had then (R72, R161). -/
structure CopySrc where
  band : Nat
  frame : Nat
  state : EntryState
  /-- It is the work of a reclamation slot. -/
  reclaim : Bool
  deriving DecidableEq, Repr

/-- A granule placed in a band: its 16 frames lie on consecutive data slots from `slot` (R128). -/
structure Placed where
  gran : Nat
  nsid : Nat
  stream : Byte
  seq : Nat
  slot : Nat
  /-- Frame index of FIG 0. -/
  frame : Nat
  wtime : Word
  wtemp : Int
  units : Vector Unit4K 16
  moved : Bool
  /-- Source of a fold or relocation, for the compare-and-set (R72, R161). -/
  src : Option CopySrc
  deriving DecidableEq, Repr

/-- Life of a band. -/
inductive BandPhase where
  | erased | opened | closed | erasing
  deriving DecidableEq, Repr

/-- A band with its write record (R75), its content and its state. Bands not listed are erased, with erase count 0. -/
structure Band where
  num : Nat
  phase : BandPhase
  density : Density
  kind : BandKind
  use : BandUse
  stream : Byte
  profile : Nat
  uncertain : Bool
  /-- Its first read after diapause has not come yet (R89). -/
  afterDark : Bool
  refreshDue : Bool
  sealedShort : Bool
  openOpsec : Nat
  openWall : Option Nat
  patrolTage : Word
  tage : Vector Word 8
  temp : Vector (Option Int) 8
  corr : Option Correction
  placed : List Placed
  /-- Next data slot to hand out. -/
  nextSlot : Nat
  /-- Data slots used, from BAND_SEAL. -/
  slots : Nat
  /-- Place in the order of sealing. -/
  sealOrder : Nat
  /-- Page rows that completed their last pass: wordline and position. -/
  rowsOk : List (Nat × Nat)
  /-- Passes of the multi-pass algorithm that completed OK: wordline, position, pass (R71). -/
  passes : List (Nat × Nat × Nat)
  /-- Rows whose data lies in the DRAM fold class until their last pass: wordline, position, die and buffer (R71). -/
  foldHeld : List (Nat × Nat × DieIx × Nat)
  /-- Parity page rows readable: wordline and parity index. -/
  parityOk : List (Nat × Nat)
  /-- BAND_PAD: position, wordline, first pad slot. -/
  pads : List (Nat × Nat × Nat)
  /-- Dirty bits set (R185), and the bits whose record is durable. -/
  dirty : List Nat
  dirtyDurable : List Nat
  /-- LUN and block of the erases that have not completed: one that ends without a result is issued again (R49, R161). -/
  eraseTodo : List (Nat × Nat)
  /-- LUN and block of the erases that have completed. -/
  eraseList : List (Nat × Nat)
  /-- A RECLAIM_MAPPED record stands, and whether it is durable. -/
  mappedRec : Bool
  mappedDurable : Bool
  /-- Step 4 of R161 is complete. -/
  retracted : Bool
  /-- ERASE_INTENT appended, and durable. -/
  intent : Bool
  intentDurable : Bool
  /-- ERASE_DONE appended: the band is free once it is durable (R161). -/
  erasedRec : Bool
  /-- Held back (R166): the cause. -/
  hold : Option Nat
  /-- LUN of the last patrol read. -/
  patrolLun : Nat
  deriving DecidableEq, Repr

/-- A block that differs from a good block with no erases (R160). -/
structure BlockRec where
  lun : Nat
  block : Nat
  /-- 0 good, 1 retired, 2 factory bad. -/
  state : Nat
  erases : Nat
  deriving DecidableEq, Repr

/-- A position taken by a spare and its rebuild (R191, R192). -/
structure Adoption where
  spare : Nat
  set : Nat
  position : Nat
  lost : Nat
  /-- Bands whose rebuild is not finished, in order, with band rows done. -/
  left : List (Nat × Nat)
  done : Bool
  deriving DecidableEq, Repr

/-- Everything of a region that its band segment captures (R142, R160, R196). -/
structure RegionTables where
  bands : List Band
  /-- NSID, base in extent units, length in extent units (R123). -/
  extents : List (Nat × Nat × Nat)
  blocks : List BlockRec
  /-- LUN, slot, replacement block. -/
  replaced : List (Nat × Nat × Nat)
  /-- LUN and cause. -/
  quarantined : List (Nat × Nat)
  adoptions : List Adoption
  evacuated : List Nat
  slotsLost : List (Nat × Nat)
  readOnly : Option ReadOnlyCause
  nextSeq : Nat
  /-- Newest durable SEQ_RESERVE value. -/
  reserved : Nat
  /-- SPARE_0 of the main and the SLC pool (R171). -/
  spare0 : Option (Nat × Nat)
  /-- Segment entries that are not UNSTRIPED (R213). -/
  segs : List SegEntry
  /-- The stripe table (R220). -/
  stripes : List StripeRec
  /-- Highest STRIPE_SEQ_RESERVE value (R215). -/
  stripeReserve : Option Nat
  deriving DecidableEq, Repr

/-- A journal frame (R136, R139). -/
structure JFrame where
  num : Nat
  recs : List JRec
  lowSeq : Nat
  closed : Bool
  /-- Copies programmed OK, and copies that failed and wait to be programmed again. -/
  ok : Vector Bool 2
  failed : Vector Bool 2
  /-- Journal bands that hold its copies. -/
  band : Vector (Option Nat) 2
  deriving DecidableEq, Repr

/-- The journal of a region (R136 to R141). -/
structure Journal where
  /-- Frames not yet durable, oldest first; the last may be open. -/
  tail : List JFrame
  /-- Durable frames above the retention point, oldest first. -/
  retained : List JFrame
  next : Nat
  /-- Frames appended since the last capture (R143). -/
  sinceCapture : Nat
  singleCopy : Bool
  /-- Open journal bands of the region's own side and of the partner's, the one in use first (R140, R536). -/
  bands : Vector (List Nat) 2
  deriving DecidableEq, Repr

/-- A checkpoint image (R142): image 0 is the band segment, image n + 1 map segment n. -/
structure Image where
  image : Nat
  ckptSeq : Nat
  jframe : Nat
  entries : List (Nat × MapEntry)
  tables : Option RegionTables
  /-- IMAGE_CRC of its header. -/
  crc : Word
  /-- Entries that it does not list read 011: the segment was lost before (R149). -/
  lost : Bool
  ok : Vector Bool 2
  indexed : Bool
  /-- Checkpoint band and first slot of each copy. -/
  loc : Vector (Option (Nat × Nat)) 2
  deriving DecidableEq, Repr

/-- What a pending update does (R125, R133). -/
inductive UpdKind where
  /-- Covered units, by FIG. -/
  | write (units : Vector (Option Unit4K) 16)
  | deallocate
  /-- Part of a granule takes encrypted zeros: Write Zeroes or Deallocate (R133). -/
  | zero (figs : List Nat)
  deriving DecidableEq, Repr

/-- An entry of the pending table (R125). -/
structure PendUpd where
  gran : Nat
  nsid : Nat
  stream : Byte
  kind : UpdKind
  /-- Write sequence, assigned on entry (R354). -/
  seq : Nat
  /-- Step 6 of R20 has produced its ciphertext. -/
  encrypted : Bool
  /-- The buffer that holds the ciphertext, until the update has taken effect. -/
  cipher : Option (DieIx × PoolClass × Nat)
  /-- The acknowledge-window entry that holds it. -/
  win : Option (DieIx × Nat)
  /-- Its merge is placed: band and frame index (R20 steps 7 to 9). The map changes when the staging program reports OK. -/
  at_ : Option (Nat × Nat)
  deriving DecidableEq, Repr

/-- Kinds of copy work of a region (R70, R161, R168). -/
inductive CopyKind where
  | fold | reclaim (slot : Fin 2) | single | overlay
  deriving DecidableEq, Repr

/-- A granule being read for a fold or a relocation. -/
structure Copy where
  kind : CopyKind
  gran : Nat
  band : Nat
  frame : Nat
  /-- State of the entry when the copy began. -/
  state : EntryState
  /-- Density at which it is written: the namespace's target when the copy began (R67). -/
  target : Density
  got : List (Nat × Unit4K)
  deriving DecidableEq, Repr

/-- A band under patrol (R94). -/
structure PatrolRun where
  band : Nat
  /-- The Antenna's run of step 1 is outstanding. -/
  run : Bool
  /-- That run found no valley for some level. -/
  noValley : Bool
  /-- Frames read and not yet decoded or failed. -/
  left : Nat
  frames : Nat
  correctedSum : Nat
  maxStep : Nat
  deriving DecidableEq, Repr

/-- A band under reclamation (R161). -/
structure Reclaim where
  band : Nat
  reason : ReclaimReason
  score : Nat
  relocated : Nat
  deriving DecidableEq, Repr

/-- A region. -/
structure RegionSt where
  irq : Irq
  inService : Bool
  coreUp : Bool
  restoring : Bool
  tab : RegionTables
  /-- Map entries that differ from a fresh one, by granule index; only of resident segments. -/
  map : List (Nat × MapEntry)
  /-- The overlay map of adoption, and the partner that is adopted (R132). -/
  overlay : List (Nat × MapEntry)
  adopting : Bool
  resident : List Nat
  /-- Segments of the adopted quarter that are loaded (R132). -/
  adoptedSegs : List Nat
  pend : List PendUpd
  /-- Rescue manifest and rescued frames of the last power loss, not yet applied (R354 to R356). -/
  rescued : List PendUpd
  journal : Journal
  images : List Image
  ckptSeq : Nat
  /-- Next image in the round-robin order. -/
  nextImage : Nat
  lookups : Nat
  lookupWaiting : Nat
  foldBand : Option Nat
  /-- The region folds: the high mark was crossed, or no host work came for 1 s, and the low mark is not reached (R69). -/
  folding : Bool
  stagingStopped : Bool
  slots : Vector (Option Reclaim) 2
  copies : List Copy
  wearOver : Vector Bool 2
  freeLow : Bool
  foldStopped : Bool
  /-- Watch table: granule and count, oldest first (R167). -/
  watch : List (Nat × Nat)
  /-- Granules to be relocated alone at once (R168, R186). -/
  relocNow : List Nat
  /-- Granules whose copy was given up, and the dark member: they are not copied again until the member's shelf lights (R112, R166, R272). -/
  darkGrans : List (Nat × Nat)
  /-- Antenna requests that found no entry (R89). -/
  antWaiting : List AntRun
  /-- Bands under patrol. -/
  patrols : List PatrolRun
  sealSeq : Nat
  /-- Status timeouts: LUN and operating second (R189 cause 1). -/
  lunTimeouts : List (Nat × Nat)
  /-- LUN, frames that failed step 4, and frames read, in the present window (R189 cause 4). -/
  lunStep4 : List (Nat × Nat × Nat)
  resync : List Nat
  /-- Map segments whose image both copies have lost: an entry that the journal does not name reads 011 (R149). -/
  lostSegs : List Nat
  integrity : Nat
  repaired : Nat
  poisonedCnt : Nat
  queryLo : Word
  queryHi : Byte
  result : Word × Word
  deriving DecidableEq, Repr

end Sys2Proof.Machine
end

