-- ==== Sys2Proof/Machine/StateDie.lean ====
section
/-! DEFINITION. State of the dies: buffer pool, memory controller, cipher and host port (R277 to R342), and the subsystem they share. -/

namespace Sys2Proof.Machine

/-- An allocated buffer (R304 to R311). -/
structure Buf where
  cls : PoolClass
  index : Nat
  refs : Nat
  pinned : Bool
  window : Bool
  /-- Poison marks, by 4 KiB unit (R311). -/
  poison : List Nat
  /-- A remap of one of its SRAM lines waits for its release (R318). -/
  remap : Option (BitVec 40)
  /-- What lanes have written into it, by byte offset (R40). -/
  held : List (Nat × BufData)
  deriving DecidableEq, Repr

/-- A request that waits for a buffer (R305). -/
structure PoolReq where
  cls : PoolClass
  kind : WorkKind
  /-- The host write that waits in its slot for the buffer. -/
  ref : Option CmdRef
  /-- The pending update, by granule and write sequence, that waits for the buffer of its ciphertext (R20 step 6). -/
  update : Option (Nat × Nat)
  deriving DecidableEq, Repr

/-- The buffer pool of a die (R304 to R311, R324). -/
structure Pool where
  inService : Bool
  bufs : List Buf
  zeroing : List (PoolClass × Nat)
  waiting : List PoolReq
  /-- Pool class exhausted may be raised again, per class. -/
  armed : Vector Bool 5
  fault : Option (Word × Nat × PoolUser)
  faultCount : Nat
  refFaults : Nat
  /-- Acknowledge window: identifier, buffer, granule (R310). -/
  win : List (Nat × PoolClass × Nat)
  nextWin : Nat
  deriving DecidableEq, Repr

/-- An entry of a correctable-error table (R316, R322). -/
structure CeEntry where
  addr : BitVec 40
  state : CeState
  hits : Nat
  post : Nat
  bit : Byte
  last : Word
  deriving DecidableEq, Repr

/-- One of the two tables of a die with its counts. -/
structure CeTable where
  /-- Oldest first. -/
  entries : List CeEntry
  corrected : Nat
  uncorr : Nat
  retired : Nat
  evicted : Nat
  deriving DecidableEq, Repr

/-- MEM_TEST and the test words (R320, R325). -/
structure MemTest where
  en : Bool
  target : Bool
  resultCe : Bool
  resultUe : Bool
  check : Byte
  flip : Byte
  deriving DecidableEq, Repr

/-- The memory controller of a die (R312 to R325). -/
structure MemCtl where
  inService : Bool
  /-- 0 for 8,533, 1 for 7,500, 2 for 6,400 MT/s; none untrained. -/
  rate : Option (Fin 3)
  capacity : Nat
  filling : Bool
  checkerFail : Bool
  retrains : Nat
  lastTemp : Int
  oscillator : Nat
  zqLatched : Nat
  retrainDue : Bool
  ceDram : Nat
  ceSram : Nat
  ueDram : Nat
  ueSram : Nat
  /-- Spare rows left of each channel, and spare lines. -/
  rowsLeft : Vector Nat 4
  linesLeft : Nat
  dram : CeTable
  sram : CeTable
  test : MemTest
  deriving DecidableEq, Repr

/-- The cipher of a die (R326 to R342). Keys are named by identity: no operation reads one out. -/
structure Cipher where
  inService : Bool
  locked : Bool
  drbgFail : Bool
  /-- 64 slots; a filled slot names its key. -/
  slots : Vector (Option Nat) 64
  kekId : Word
  gen : DWord
  refuse : Option (Nat × PoolUser)
  refuseCount : Nat
  unwrapFails : Nat
  deriving DecidableEq, Repr

/-- An I/O submission or completion queue (R281, R288). -/
structure SubQueue where
  id : Nat
  cq : Nat
  size : Nat
  tail : Nat
  deriving DecidableEq, Repr
structure CplQueue where
  id : Nat
  size : Nat
  head : Nat
  vector : Nat
  irqEn : Bool
  deriving DecidableEq, Repr

/-- Feature values of a controller (R281, R292, R293, R484). -/
structure Features where
  arbitration : Word
  tempOver : Vector Word 9
  tempUnder : Vector Word 9
  errorRecovery : Word
  numQueues : Word
  intCoalescing : Word
  intVectors : List (Half × Bool)
  asyncConfig : Word
  /-- APST table entries, and whether the transitions are enabled. -/
  apst : Vector DWord 32
  apste : Bool
  fdpEvents : List (Half × Byte × Bool)
  deriving DecidableEq, Repr

/-- Where a piece of a write stands (R20, R282, R283). -/
inductive PieceAt where
  /-- Received in its buffer, step 4 of R20 not done. -/
  | received
  /-- In the window; or, with no buffer, in the pending table that the rescue persists (R125, R354). -/
  | inWindow
  /-- Written through under its write sequence: durable under R139 before the write completes. -/
  | through (seq : Nat)
  deriving DecidableEq, Repr

/-- A piece of a write: one buffer, split at a granule boundary (R282, R305). -/
structure WritePiece where
  gran : Nat
  upd : UpdKind
  /-- Its buffer; none for encrypted zeros and deallocations, which take none (R133). -/
  buf : Option (PoolClass × Nat)
  at_ : PieceAt
  deriving DecidableEq, Repr

/-- A write that has its buffers and data. -/
structure WriteJob where
  ref : CmdRef
  nsid : Nat
  stream : Byte
  pieces : List WritePiece
  /-- Data of the host or of a Copy; false for Write Zeroes and Deallocate. -/
  data : Bool
  /-- Its controller was reset: its data goes to media and no completion is posted (R287). -/
  orphan : Bool
  deriving DecidableEq, Repr

/-- The controller and host port of a die (R277 to R303). -/
structure HostPort where
  /-- HST_STATUS.SPEED 0 to 3 and WIDTH. -/
  speed : Nat
  width : Nat
  perst : Bool
  /-- Answers to configuration requests, the newest last: false for Configuration Request Retry Status (R382). -/
  cfgAnswers : List Bool
  enabled : Bool
  ready : Bool
  /-- CSTS.SHST: 0, 1 or 2. -/
  shst : Nat
  cfs : Bool
  stopped : Bool
  paused : Bool
  slots : List SlotCmd
  /-- Doorbell work that waits for slots (R31): queue and commands not fetched. -/
  backlog : List SlotCmd
  subs : List SubQueue
  cpls : List CplQueue
  /-- Completions posted, the newest last. -/
  out : List CplRec
  aers : List Half
  /-- Events that wait for a request, oldest first, and events reported whose log has not been read. -/
  events : List AsyncEvent
  masked : List AsyncEvent
  feat : Features
  /-- Error Information: the newest 64, and the count of all. -/
  errorLog : List CplRec
  errCount : Nat
  /-- Writes whose pieces are not all in the window or durable. -/
  writes : List WriteJob
  changedNs : List Nat
  deriving DecidableEq, Repr

/-- A committed or uncommitted key set of the store die's key area (R338). -/
structure KeySet where
  gen : DWord
  cryptoErase : List Nat
  kek : Nat
  kekId : Word
  /-- NSID and key. -/
  ns : List (Nat × Nat)
  committed : Bool
  deriving DecidableEq, Repr

/-- Sanitize status (R291). -/
inductive SanitizeState where
  | never | running (block : Bool) | done (block : Bool) | failed
  deriving DecidableEq, Repr

/-- Diapause Status (R294). -/
inductive Diapause where
  | lit | preparing (ref : CmdRef) | ready | cancelled
  deriving DecidableEq, Repr

/-- Lifetime counts (R483, R487). -/
structure Life where
  steps : Vector Nat 7
  crcOnly : Nat
  poisonHost : Nat
  darkWait : Nat
  mapFaults : Nat
  /-- Bytes programmed to NAND. -/
  mediaBytes : Nat
  /-- Bytes of NAND erased, which the FDP Statistics log reports. -/
  erasedBytes : Nat
  deriving DecidableEq, Repr

/-- What the two controllers and both dies share (R277 to R301, R338). -/
structure Subsys where
  keySets : List KeySet
  /-- Identities of keys drawn so far. -/
  nextKey : Nat
  /-- Namespaces whose crypto erase a start found uncommitted: their FORMAT records are appended at the restore (R338). -/
  formatDue : List Nat
  /-- Namespaces that have held host-written data (R337). -/
  written : List Nat
  inaccessible : List Nat
  /-- Changes of the ANA log since reset. -/
  anaChanges : Nat
  sanitize : SanitizeState
  /-- The Format or Sanitize command whose crypto erase waits or runs (R339). -/
  eraseRef : Option CmdRef
  /-- Bands that a block erase is still to reclaim, by region and band (R291). -/
  sanitizeBands : List (RegionIx × Nat)
  /-- Seconds that the Sanitize Status log estimates for a block erase (R291). -/
  sanitizeEstimate : Nat
  diapause : Diapause
  /-- The last operational power state (R293). -/
  lastOp : Nat
  /-- Next identity of a frame on the ladder or of an Antenna run: the model's own. -/
  nextReq : Nat
  /-- Commands executing: admin commands wait for the one before (R285). -/
  fetchStarted : Bool
  hostReads : Nat
  hostWrites : Nat
  unitsRead : Nat
  unitsWritten : Nat
  mediaErrors : Nat
  life : Life
  /-- Critical Warning as last reported by an asynchronous event (R484). -/
  lastCw : Byte
  deriving DecidableEq, Repr

/-- A controller die. -/
structure DieSt where
  common : DieCommon
  host : HostPort
  pool : Pool
  mem : MemCtl
  cipher : Cipher
  hstIrq : Irq
  swmIrq : Irq
  memIrq : Irq
  bpmIrq : Irq
  cphIrq : Irq
  deriving DecidableEq, Repr
end Sys2Proof.Machine
end

