-- ==== Sys2Proof/Machine/StateSwarm.lean ====
section
/-! DEFINITION. State of the swarm: membership, sessions, operations, light requests, rebuild and adoption (R197 to R276). -/

namespace Sys2Proof.Machine

/-- A record sent on a half and not yet acknowledged (R253). -/
structure SentRec where
  ctr : Nat
  msgs : List OutMsg
  /-- Records sent after it on the half that have been acknowledged. -/
  later : Nat
  deriving DecidableEq, Repr

/-- One sending half of a session (R250 to R254). -/
structure HalfTx where
  /-- Next record counter. -/
  ctr : Nat
  /-- Next MSN. -/
  msn : Nat
  /-- Messages that wait for credit. -/
  queue : List OutMsg
  unacked : List SentRec
  credit : Nat
  rtoUs : Nat
  path : Fin 4
  /-- The engine has refused to seal under the half's key, its counter at its end (R331). -/
  refused : Bool
  deriving DecidableEq, Repr

/-- One receiving half (R250, R252). -/
structure HalfRx where
  /-- Highest counter received. -/
  top : Nat
  /-- Counters received within the window of 1,024. -/
  seen : List Nat
  nextMsn : Nat
  /-- MSNs received ahead of a gap. -/
  held : List Nat
  ackDue : Bool
  deriving DecidableEq, Repr

/-- An established session (R247 to R255). -/
structure Session where
  peer : Nat
  ownId : Nat
  peerId : Nat
  tx : Vector HalfTx 2
  rx : Vector HalfRx 2
  lit : Bool
  /-- Keys and salts of the two directions (R249). -/
  txKey : LinkKey
  rxKey : LinkKey
  /-- Session index and receiving halves of the session that this one replaced, which still receives for 1 s (R251). -/
  old : Option (Nat × Vector HalfRx 2)
  /-- What the replaced session receives under. -/
  oldKey : Option LinkKey
  deriving DecidableEq, Repr

/-- A HELLO exchange in progress (R247). -/
structure HelloTry where
  peer : Nat
  initiator : Bool
  phase : Nat
  ownId : Nat
  peerId : Nat
  rekey : Bool
  /-- Own ephemeral private scalar (R249). -/
  scalar : Nat
  /-- The PHASE 1 and the PHASE 2 packet of the exchange. -/
  first : HelloMsg
  second : Option HelloMsg
  deriving DecidableEq, Repr

/-- What a member knows of a peer beyond its session (R208, R255). -/
structure PeerView where
  member : Nat
  /-- STATUS of its last HEARTBEAT. -/
  status : Half
  applied : Nat
  /-- Source 400 was raised in this dark interval. -/
  reported : Bool
  /-- Contribution deferred was raised for this holder. -/
  deferred : Bool
  /-- It has sent a HEARTBEAT with REBUILD_PENDING clear since the apply. -/
  rebuildClear : Bool
  deriving DecidableEq, Repr

/-- A request that waits for its answer (R256). -/
structure PendReq where
  hdr : MsgHdr
  msg : LMsg
  deriving DecidableEq, Repr

/-- A message that goes out once a journal frame is durable (R234). -/
structure Gated where
  region : RegionIx
  frame : Nat
  hdr : MsgHdr
  msg : LMsg
  /-- The message is an answer, which R256 repeats for a repeated OPID. -/
  answer : Bool
  deriving DecidableEq, Repr

/-- A segment whose notice is out (R209). -/
structure Notice where
  region : RegionIx
  band : Nat
  seg : Fin 16
  /-- Operation identifiers of its notices, the newest last. -/
  opids : List Nat
  /-- Leaders tried so far; the last is the one asked. -/
  tried : List Nat
  /-- Every candidate refused: the list is tried again after 60 s. -/
  exhausted : Bool
  deriving DecidableEq, Repr

/-- An assignment that waits for the holders' acknowledgements of its record version (R217). -/
structure Assign where
  hdr : MsgHdr
  stripe : Nat
  position : Nat
  version : Nat
  left : List Nat
  deriving DecidableEq, Repr

/-- Kinds of work toward a holder (R226). -/
inductive WorkItem where
  | record | neverSent | contrib | retract | release
  deriving DecidableEq, Repr

/-- A contribution or retract toward one holder (R219, R224). -/
structure SegWork where
  region : RegionIx
  band : Nat
  seg : Nat
  stripe : Nat
  position : Nat
  index : Nat
  holder : Nat
  item : WorkItem
  /-- It has gone out and its answer is awaited. -/
  running : Bool
  /-- Refused: 1 s later for BUSY, 60 s later for NO_RECORD. 0: blocked by an unreadable frame until a peer of the stripe lights (R225). -/
  refused : Option Nat
  /-- A durable pending entry for a dark holder. -/
  deferred : Bool
  deriving DecidableEq, Repr

/-- What a receiving holder keeps of the run in progress (R219, R258). -/
structure RxRun where
  stripe : Nat
  hdr : MsgHdr
  next : Nat
  deriving DecidableEq, Repr

/-- A rebuild task of a leader (R263, R265). -/
structure RebuildTask where
  stripe : Nat
  /-- Data position, or parity index. -/
  data : Bool
  index : Nat
  target : Option Nat
  running : Bool
  /-- Refused with BUSY or NO_NAMESPACE: NAK reason. -/
  refused : Option Nat
  /-- Set aside for dark members. -/
  aside : Bool
  done : Bool
  /-- Frame slots that could not be solved. -/
  lostRows : List Nat
  deriving DecidableEq, Repr

/-- A host read that waits in ladder step 6 for a dark shelf (R273). -/
structure DarkRead where
  ref : CmdRef
  group : Nat
  shelf : Nat × Nat
  deriving DecidableEq, Repr

/-- A swarm port (R236 to R238, R276). -/
structure SwarmPort where
  inService : Bool
  /-- SPEED: 0 link down, 1 50GBASE-KR, 2 100GBASE-KR2. -/
  speed : Nat
  /-- Failed trainings of 100GBASE-KR2 in a row. -/
  fails : Nat
  retx : Nat
  rejAuth : Nat
  rejReplay : Nat
  rejOther : Nat
  /-- Answers that the port has sent, the newest last: 1 neighbour advertisement, 2 ARP reply, 3 echo reply; and the address (R238). -/
  answers : List (Nat × BitVec 128)
  deriving DecidableEq, Repr

/-- The swarm state of the package, shared by both dies. -/
structure SwarmSt where
  applied : Option MemTable
  previous : Option MemTable
  staged : Option MemTable
  stageNext : Nat
  /-- The slot of the membership area that a staged table is written to; the other two hold the applied and the previous one (R202). -/
  stageSlot : Fin 3
  /-- The epoch whose operations still run (R204). -/
  trailing : Option Nat
  /-- An apply that waits for the trailing epoch to end. -/
  applyWaits : Bool
  fenced : Bool
  /-- The member-fault notice has gone out: the ports send nothing more (R477). -/
  silent : Bool
  leadClosed : Bool
  parityLow : Bool
  leaveDone : Bool
  /-- Next stripe sequence (R215). -/
  stripeSeq : Nat
  sessions : List Session
  hellos : List HelloTry
  /-- HELLO messages sent, in order. -/
  helloOut : List HelloMsg
  /-- Peers whose abandoned attempt is made again after 5 s. -/
  retryHello : List Nat
  peers : List PeerView
  nextOpid : Nat
  waits : List PendReq
  /-- Answers given, for repeated OPIDs (R256). -/
  answered : List (MsgHdr × LMsg)
  gated : List Gated
  /-- Messages of a newer epoch (R205). -/
  heldMsgs : List (MsgHdr × RxBody)
  /-- Notices that wait for the durable reserve of the stripe sequence (R215). -/
  seqWaits : List (MsgHdr × RxBody)
  /-- Rebuild reads that wait for a map segment (R149). -/
  loadWaits : List (MsgHdr × RxBody)
  assigns : List Assign
  /-- Messages refused EPOCH_AHEAD, sent again after 1 s. -/
  aheadRetry : List PendReq
  notices : List Notice
  work : List SegWork
  backlogHigh : Bool
  rxRuns : List RxRun
  /-- Stripe and its holders, as SLOT_ASSIGN gave them. -/
  holderMap : List (Nat × List Nat)
  /-- Stripe records that members returned to this one, kept in DRAM (R262). -/
  seen : List StripeRec
  tasks : List RebuildTask
  /-- Lost member whose identity this package has adopted, and whether restore is complete. -/
  adopted : Option (Nat × Bool)
  pushes : Nat
  openPushes : List (MsgHdr × Nat)
  light : List LightReq
  nextRequest : Nat
  darkReads : List DarkRead
  /-- Neighbour table of the ports: what the ports have been asked is answered from their own addresses. -/
  ports : Vector SwarmPort 2
  deriving DecidableEq, Repr

end Sys2Proof.Machine
end

