-- ==== Sys2Proof/Machine/FreshBlocks.lean ====
section
/-! DEFINITION. Blocks as they stand before they enter service: the register reset values and cleared volatile memory of R383, with the feature
defaults and limits that they name (R6, R281, R318, R461, R484). -/

namespace Sys2Proof.Machine

/-- Usable pair of grade limits in °C (R6, R461). -/
def gradeMax : Int := if Config.extendedGrade then 105 else 95
def gradeMin : Int := if Config.extendedGrade then -40 else 0

/-- °C to kelvin, as the thresholds of R484 convert: 0 °C is 273 K. -/
def kelvin (c : Int) : Nat := (c + 273).toNat

/-- WCTEMP and CCTEMP in kelvin (R484). -/
def wcTemp : Nat := kelvin gradeMax
def ccTemp : Nat := kelvin (gradeMax + 10)

/-- Features at their defaults (R281, R484; the base specification's defaults, PRESUMED, log entry 35). -/
def defaultFeatures : Features where
  arbitration := 0
  tempOver := Vector.replicate 9 (BitVec.ofNat 32 wcTemp)
  tempUnder := Vector.replicate 9 (BitVec.ofNat 32 (kelvin gradeMin))
  errorRecovery := 0
  numQueues := 0x007F007F
  intCoalescing := 0
  intVectors := []
  asyncConfig := 0
  apst := Vector.replicate 32 0
  apste := false
  fdpEvents := []

/-- Spare rows of a channel and spare lines of a die (R318). -/
def spareRows : Nat := 64
def spareLines : Nat := 128

/-- A toggle channel at rest, and an empty FIFO. -/
def idleToggle : Toggle := { req := false, ack := false, pulses := 0, waiting := 0 }
def emptyFifo : Fifo := { wr := 0, rd := 0 }

def freshCrossing : Crossing :=
  { clockOn := false, readyIn := false, readyOut := false, running := false, wakeHeld := false, idleTimer := false, toPhy := emptyFifo,
    fromPhy := emptyFifo, ctlOut := idleToggle, ctlIn := idleToggle, again := 0 }

/-- A CE before its first training. -/
def untrainedCe : CeTraining := { zq := none, duty := none, readDq := none, writeDq := none }

def freshTrain : LaneTrain :=
  { rate := none, running := false, lastTemp := 0, count := 0, lastCause := .startOrTrain, lastFail := false, pending := none,
    errorRetrainAt := none, framesRead := 0, mismatchAt := [], step1At := [], results := Vector.replicate 8 untrainedCe,
    dqsCorrection := 0, zqShort := 0 }

def freshPatch : LanePatch :=
  { words := [], crc := 0, redirect := Vector.replicate 32 0, active := false, rejected := false, patchId := 0, rejections := 0 }

/-- A lane before its start (R64, R383). -/
def freshLane : LaneSt :=
  { irq := .reset 0xFF, crossing := freshCrossing, queue := [], waiting := [], ctxs := Vector.replicate 8 none, owner := none, ce := none,
    erases := [], completions := [], bus := [], inService := false, quarantined := false, quarLuns := 0, iface := 0, features := [], train := freshTrain,
    err := { prog := 0, erase := 0, timeout := 0, pending := 0 }, suspLimit := 12, minRun := 200, maxSusp := 500, barPrograms := false,
    patch := freshPatch, ucodeFault := none }

/-- A cluster before its start (R121). -/
def freshCluster : ClusterSt :=
  { irq := .reset 0x3F, inService := false, engines := Vector.replicate 5 none, faults := Vector.replicate 5 0, queue := [], climbs := [],
    results := [], antenna := none, antPending := [], stepCnt := Vector.replicate 7 0, crcCnt := 0, accCorrected := 0, accUncorr := 0,
    accRows := [], accRebuild := [], decFault := none, decFaultCount := 0 }

def freshTables : RegionTables :=
  { bands := [], extents := [], blocks := [], replaced := [], quarantined := [], adoptions := [], evacuated := [], slotsLost := [],
    readOnly := none, nextSeq := 0, reserved := 0, spare0 := none, segs := [], stripes := [], stripeReserve := none }

def freshJournal : Journal :=
  { tail := [], retained := [], next := 0, sinceCapture := 0, singleCopy := false, bands := #v[[], []] }

/-- A region before its start (R152). -/
def freshRegion : RegionSt :=
  { irq := .reset 0xFF, inService := false, coreUp := false, restoring := true, tab := freshTables, map := [], overlay := [], adopting := false,
    resident := [], adoptedSegs := [], pend := [], rescued := [], journal := freshJournal, images := [], ckptSeq := 0, nextImage := 0, lookups := 0,
    lookupWaiting := 0, foldBand := none, folding := false, stagingStopped := false, slots := #v[none, none], copies := [], wearOver := #v[false, false],
    freeLow := false, foldStopped := false, watch := [], relocNow := [], darkGrans := [], antWaiting := [], patrols := [], sealSeq := 0, lunTimeouts := [],
    lunStep4 := [], resync := [], integrity := 0, repaired := 0, poisonedCnt := 0, queryLo := 0, queryHi := 0, result := (0, 0), lostSegs := [] }

/-- A pool, all buffers zeroed and free (R309, R383). -/
def freshPool : Pool :=
  { inService := false, bufs := [], zeroing := [], waiting := [], armed := Vector.replicate 5 true, fault := none, faultCount := 0,
    refFaults := 0, win := [], nextWin := 0 }

def freshTable : CeTable := { entries := [], corrected := 0, uncorr := 0, retired := 0, evicted := 0 }

/-- A memory controller (R325). -/
def freshMem : MemCtl :=
  { inService := false, rate := none, capacity := 0, filling := true, checkerFail := false, retrains := 0, lastTemp := 0,
    oscillator := 0, zqLatched := 0, retrainDue := false, ceDram := 0, ceSram := 0, ueDram := 0, ueSram := 0,
    rowsLeft := Vector.replicate 4 spareRows, linesLeft := spareLines, dram := freshTable, sram := freshTable,
    test := { en := false, target := false, resultCe := false, resultUe := false, check := 0, flip := 0 } }

/-- A cipher with every slot empty (R341, R383). -/
def freshCipher : Cipher :=
  { inService := false, locked := false, drbgFail := false, slots := Vector.replicate 64 none, kekId := 0, gen := 0,
    refuse := none, refuseCount := 0, unwrapFails := 0 }

/-- A host port with its link down and its controller disabled (R303, R382). -/
def freshHost : HostPort :=
  { speed := 0, width := 0, perst := false, cfgAnswers := [], enabled := false, ready := false, shst := 0, cfs := false, stopped := false,
    paused := false, slots := [], backlog := [], subs := [], cpls := [], out := [], aers := [], events := [], masked := [], feat := defaultFeatures,
    errorLog := [], errCount := 0, writes := [], changedNs := [] }

/-- A die common block (R460), the die held in reset. -/
def freshCommon : DieCommon :=
  { inService := false, inReset := true, outOfService := false, tokensPaused := false, vcoreBad := false, temp := 0, tempMax := 0,
    warned := false, critical := false, vcoreMeas := 0, shadows := [], irq := .reset 0xFFFFFFF, usec := 0,
    tick := idleToggle, bridge := { out := [], waiting := [], next := 0 }, pcie := freshCrossing, lpddr := freshCrossing, swarmX := freshCrossing, coreDog := none,
    regionDog := #v[none, none], coreUp := false }

def freshDie : DieSt :=
  { common := freshCommon, host := freshHost, pool := freshPool, mem := freshMem, cipher := freshCipher, hstIrq := .reset 0x3FFFFF,
    swmIrq := .reset 0x3FFFFF, memIrq := .reset 0x3F, bpmIrq := .reset 0x7, cphIrq := .reset 0x7 }

end Sys2Proof.Machine
end

