-- ==== Sys2Proof/Machine/StateStore.lean ====
section
/-! DEFINITION. State of the store die, the option area and the firmware slots (R389 to R452). -/

namespace Sys2Proof

namespace Machine

/-- STO_CMD.RESULT (R440). -/
inductive StoResult where
  | completed | running | busy | bitRise | readOnly | targetErasing | suspendDenied | abandoned | programFail | eraseFail | badOperand
  deriving DecidableEq, Repr

/-- A sector's information row where it differs from a fresh one (R437). -/
structure SectorRow where
  sector : Nat
  counter : Nat
  intent : Bool
  bad : Bool
  deriving DecidableEq, Repr

/-- How far an open command sequence has come (R426, R428). -/
inductive SeqStep where
  | unlocked1 | unlocked2
  /-- The code was written; the operand writes collected so far, oldest first. -/
  | operands (code : Byte) (writes : List (Nat × Word))
  deriving DecidableEq, Repr

/-- An open command sequence and its owner. -/
structure OpenSeq where
  owner : Requester
  step : SeqStep
  deriving DecidableEq, Repr

/-- A running program (R427, R429): bytes to clear in from `offset`. -/
structure StoreProgram where
  requester : Requester
  offset : Nat
  bytes : List Byte
  deriving DecidableEq, Repr

/-- Whether an erase runs or is suspended, and by whom (R431, R433). -/
inductive EraseSusp where
  | running | autoSuspended | explicit
  /-- For the programs of a rescue, until the next start (R434). -/
  | rescue
  deriving DecidableEq, Repr

/-- A running or suspended erase of 1 to 8 sectors of one bank. -/
structure StoreErase where
  requester : Requester
  sectors : List Nat
  susp : EraseSusp
  /-- Run time since it started or was last resumed, 10 µs units. -/
  runTime : Nat
  /-- It is a fresh erase of sectors found with intent at start (R437). -/
  fromIntent : Bool
  deriving DecidableEq, Repr

/-- A record of the checkpoint index (R144, R436). -/
structure IndexRec where
  region : RegionIx
  /-- 0 for the band segment, else the map segment number plus one. -/
  image : Nat
  copy : Nat
  ckptSeq : Nat
  jframe : Nat
  /-- IMAGE_CRC. -/
  crc : Word
  /-- Checkpoint band and frame index of the header frame. -/
  band : Nat
  frame : Nat
  /-- Place within the 256 sectors of the area. -/
  sector : Nat
  deriving DecidableEq, Repr

/-- A sector pair of the keeper record area (R425). -/
structure KeeperPair where
  /-- The sector that takes the next record: the lower or the higher of the pair. -/
  sector : Fin 2
  /-- Lines of it that hold records. -/
  lines : Nat
  /-- The other sector stands erased. -/
  ahead : Bool
  /-- SEQ of the last record. -/
  seq : Nat
  deriving DecidableEq, Repr

/-- The store die (R422 to R440). -/
structure Store where
  ready : Bool
  /-- Array bytes that differ from the erased value 0xFF. -/
  array : List Host.Cell
  rows : List SectorRow
  seq : Option OpenSeq
  /-- Write cycles of other requesters that wait for the open sequence to end. -/
  waiting : List (Requester × Nat × Word)
  prog : Option StoreProgram
  erase : Option StoreErase
  /-- Sectors with intent found at this start whose fresh erase has not completed. -/
  intentPending : List Nat
  intentFound : Nat
  margin : Nat
  /-- The word that the last array read delivered (R433, R435). -/
  lastRead : Word
  hashPort : Bool
  /-- Reads that wait on a bank under erase or program. -/
  readWaits : Vector Nat 2
  cmdCode : Byte
  cmdResult : StoResult
  cmdSector : Nat
  cmdRequester : Requester
  cmdCount : Nat
  result : Word
  faultCause : Nat
  faultSector : Nat
  faultCount : Nat
  ckptHead : Nat
  ckptTail : Nat
  ckptErased : Nat
  wseq : Nat
  index : List IndexRec
  /-- The two protection set copies (R372, R420). -/
  protCopies : Vector ProtSet 2
  /-- The pairs of the timekeeping, the rescue and diapause, and the slot state records (R425). -/
  pairs : Vector KeeperPair 3
  irq : Irq
  deriving DecidableEq, Repr

/-- A staged option image (R391, R413). -/
structure Staging where
  /-- Bytes staged so far in contiguous order. -/
  next : Nat
  image : Option OptImage
  /-- APPLY programmed: marked for apply at next start. -/
  marked : Bool
  cancelled : Bool
  deriving DecidableEq, Repr

/-- The option area: its slots, the staged image, and the image in force (R389 to R392). -/
structure OptionArea where
  slotA : Option OptImage
  slotB : Option OptImage
  /-- A slot whose header fails its CRC (source 504). -/
  corruptA : Bool
  corruptB : Bool
  staging : Staging
  /-- A live apply stands at its barrier, and the command that asked for it (R415, R417). -/
  barrier : Option CmdRef
  /-- The set in force, taken at the start or at the apply instant. -/
  inForce : Option OptImage
  /-- LUN numbers that returned ID_MATCH; none while the chip enables were never driven (R411). -/
  inventory : Option (List Nat)
  deriving DecidableEq, Repr

/-- A firmware slot (R445, R446). -/
structure FwSlot where
  state : SlotState
  cause : BitVec 4
  image : Option FwImage
  /-- Patch blobs copied into the slot's half of the patch area (R444). -/
  patches : List PatchBlob
  /-- The body hash as downloaded is known and is the image's (SEEN). -/
  seen : Bool
  keyWrapped : Bool
  deriving DecidableEq, Repr

/-- The slot state record and a running download (R445, R446). -/
structure Firmware where
  slots : Vector FwSlot 2
  /-- Slot the boot ROM takes, as an index. -/
  active : Fin 2
  pendingSlot : Option (Fin 2)
  /-- Slot that runs main firmware. -/
  running : Option (Fin 2)
  arbReq : Option Word
  patchArbReq : Option Word
  /-- Controller and bytes so far of a download in progress. -/
  download : Option (Nat × Nat)
  /-- An activation without reset waits for fetched commands, or runs (R449). -/
  activating : Option (Fin 2)
  /-- A restart activates: 472 and 473 are raised around it (R450). -/
  restartActivates : Bool
  deriving DecidableEq, Repr

end Machine
end Sys2Proof
end

