-- ==== Sys2Proof/Machine/State.lean ====
section
/-! DEFINITION. The state of the package, its faults and refusals, and the state after reset: every register at the Reset value of its table,
the store die and the NAND as blank as a part that nothing has been programmed into (R383, log entries 45 to 47). -/

namespace Sys2Proof.Machine

/-- The Wailys 512: the keeper and store die, both controller dies with their regions, clusters and lanes, what the two controllers share,
the swarm's view, and the commands that wait. -/
structure State where
  keeper : Keeper
  store : Store
  opt : OptionArea
  fw : Firmware
  dies : Vector DieSt 2
  regions : Vector RegionSt 4
  clusters : Vector ClusterSt 12
  lanes : Vector LaneSt 24
  sub : Subsys
  swarm : SwarmSt
  /-- The die bridge carries transfers (R32). -/
  bridgeUp : Bool
  /-- Commands that wait, first in, first out. -/
  pending : List Instr
  /-- The model's own counter of free values drawn: no part of the hardware. -/
  free : Nat
  deriving DecidableEq, Repr

/-- A command that ends the run with a fault. No command of this block does: what the spec refuses is answered with a status, a completion
code or an event, and the block goes on. -/
inductive Fault where
  deriving DecidableEq, Repr

/-- A command without a meaning. -/
inductive Refusal where
  /-- Raised by an arm of `exec` whose command has no meaning yet; none is left. Safe: the run ends and nothing is claimed. -/
  | notModelled (mnemonic : String)
  deriving DecidableEq, Repr

/-! The state after reset. -/

def resetAdc : AdcCh := { valid := false, below := false, above := false, value := 0 }

/-- Supply and power registers (R367, R368): VIN and VAUX absent. -/
def resetSupply : Supply :=
  { vinOk := false, vauxOk := false, vccqOk := false, vddqOk := false, vdd2hOk := false, vkeep := false, vio18 := false, vpll := false,
    vphy := false, regulatorFault := false, state := .starting, ps := 0, vcore := #v[75, 75], vcoreUp := #v[false, false], inputMw := 0,
    capHeld := false, capSteps := [], lowMs := 0, warnArmed := true, warnGood := 0, overArmed := true, overGood := 0, xtal25 := false,
    xtal32k := false, huIso := false, huChgEn := false, huTest := false, adc := Vector.replicate 13 resetAdc, irq := .reset 0xFFFFFF }

/-- Hold-up (R367): closed at start, nothing measured. -/
def resetHoldUp : HoldUp :=
  { mode := .closedAtStart, charge := .off, lastPass := false, bankMv := 0, measured := 0, usable := 0, phase := .idle, measurements := 0,
    failed := 0, degraded := false, cap := 0, target := 0, testLoad := 0 }

/-- No rescue has run (R367 LAST 0b00). -/
def resetRescue : Rescue :=
  { run := none, record := .none, last := 0, duration := 0, windowKib := 0, completed := 0, incomplete := 0, unsafeStarts := 0,
    isoRelease := false }

/-- Timekeeping with no record (R96). -/
def resetTime : TimeKeeping :=
  { opsec := 0, usec := 0, pcycles := 0, acc := Vector.replicate 4 0, mediaTemp := 0, mediaSrc := 0, wallMs := 0, wallValid := false,
    wallSet := false, gapPending := false, gapApplied := false, gapNegative := false, gapNoRef := false, gapHours := 0, gapReported := false,
    gapMarks := false, sinceRecord := 0, recOpsec := 0, recWallMs := 0, recWallValid := false, recAcc := Vector.replicate 4 0, recLost := 0, kept := false,
    tempMax := 0, tempMin := 0, tempHist := Vector.replicate 16 0, minuteSec := 0, warnMin := 0, critMin := 0, busy := false, busyMin := 0,
    wtMin := 0, timebase := idleToggle, part := 0, irq := .reset 0 }

/-- Boot registers (R388): D0 in reset. -/
def resetBoot : Boot :=
  { lock := false, byKeeper := false, mode := 0, slotId := 0, factoryFuse := false, stage := .inReset, active := 0, fallback := false,
    unconfigured := false, protCopy := false, protRepaired := false, starts := 0, fetchMs := 0, lockMs := 0, failCause := 0, failSlot := 0,
    windowTimeouts := 0, sealed := false, fallbackEvent := false, recoveryCommitted := false }

/-- An execute-only descriptor that is not in force. -/
def noXo : XoDesc := { en := false, hashPort := false, first := 0, count := 0 }

/-- The protection set that Tuivahan ships: MAGIC and FORMAT of R420 and the two descriptors of R435. Its keys and counters are DESIGN CHOICE, log entry 46. -/
def shippedProt : ProtSet :=
  { magic := 0x53505654, format := 1, generation := 0, keyFuse := 0, storeWriteLock := false, fwArb := 0, patchArb := 0, authHash := 0,
    signHash := 0, xo := #v[XoDesc.mk true true 0 384, XoDesc.mk true true 1024 384, noXo, noXo, noXo, noXo, noXo, noXo] }

/-- The protection mirror before the boot ROM has loaded it (R421). -/
def emptyProt : ProtSet :=
  { magic := 0, format := 0, generation := 0, keyFuse := 0, storeWriteLock := false, fwArb := 0, patchArb := 0, authHash := 0, signHash := 0,
    xo := Vector.replicate 8 noXo }

/-- The fault collector (R481). -/
def resetCollector : Collector :=
  { tokens := [], pend := 0, latch := none, overflow := false, second := none, overflowRaised := false, selfOk := false, injectSource := 0,
    injectData := 0, shadow := none, shadowSeq := 0, safe := false, irq := .reset 0x7 }

/-- The event buffer and an empty event log (R482). -/
def resetRecorder : Recorder :=
  { buf := [], log := [], next := 0, located := false, full := false, flushing := false, again := false, lost := 0, skipped := 0,
    irq := .reset 0x3 }

/-- The management port with the defaults of R407 (R488, R495). -/
def resetMgmt : MgmtPort :=
  { inService := false, speed := 0, eidValid := false, eid := 0, addr := 0x1D, writePermitted := false, refused := 0, pecDiscards := 0,
    lastCw := 0, out := [], irq := .reset 0x3 }

def resetKeeper : Keeper :=
  { sup := resetSupply, hu := resetHoldUp, rescue := resetRescue, tk := resetTime, boot := resetBoot, prot := emptyProt, fc := resetCollector,
    ev := resetRecorder, mp := resetMgmt }

/-- The store die with every sector erased but for the protection set (R440, R435). -/
def resetStore : Store :=
  { ready := false, array := [], rows := [], seq := none, waiting := [], prog := none, erase := none, intentPending := [], intentFound := 0,
    margin := 0, lastRead := 0, hashPort := false, readWaits := #v[0, 0], cmdCode := 0, cmdResult := .completed, cmdSector := 0,
    cmdRequester := .bootRom, cmdCount := 0, result := 0, faultCause := 0, faultSector := 0, faultCount := 0, ckptHead := 0, ckptTail := 0,
    ckptErased := 0, wseq := 0, index := [], protCopies := #v[shippedProt, shippedProt],
    pairs := Vector.replicate 3 { sector := 0, lines := 0, ahead := true, seq := 0 }, irq := .reset 0x7FF }

/-- No option image (R377: as on a part shipped from the factory). -/
def resetOption : OptionArea :=
  { slotA := none, slotB := none, corruptA := false, corruptB := false,
    staging := { next := 0, image := none, marked := false, cancelled := false }, barrier := none, inForce := none, inventory := none }

def emptyFwSlot : FwSlot := { state := .empty, cause := 0, image := none, patches := [], seen := false, keyWrapped := false }

/-- Both firmware slots empty. -/
def resetFirmware : Firmware :=
  { slots := #v[emptyFwSlot, emptyFwSlot], active := 0, pendingSlot := none, running := none, arbReq := none, patchArbReq := none,
    download := none, activating := none, restartActivates := false }

/-- The subsystem with no key set, no namespace and all counts zero. Key identities 1 to 3 are those that the device key gives (R333). -/
def resetSubsys : Subsys :=
  { keySets := [], nextKey := 4, formatDue := [], written := [], inaccessible := [], anaChanges := 0, sanitize := .never, eraseRef := none,
    sanitizeBands := [], sanitizeEstimate := 0, diapause := .lit, lastOp := 0, nextReq := 0, fetchStarted := false, hostReads := 0, hostWrites := 0,
    unitsRead := 0, unitsWritten := 0, mediaErrors := 0,
    life := { steps := Vector.replicate 7 0, crcOnly := 0, poisonHost := 0, darkWait := 0, mapFaults := 0, mediaBytes := 0, erasedBytes := 0 },
    lastCw := 0 }

/-- A swarm port with its link down (R276). -/
def freshPort : SwarmPort := { inService := false, speed := 0, fails := 0, retx := 0, rejAuth := 0, rejReplay := 0, rejOther := 0, answers := [] }

/-- No membership table: the package is in no swarm (R202, R276). -/
def resetSwarm : SwarmSt :=
  { applied := none, previous := none, staged := none, stageNext := 0, stageSlot := 0, trailing := none, applyWaits := false, fenced := false, silent := false,
    leadClosed := false, parityLow := false, leaveDone := false, stripeSeq := 1, sessions := [], hellos := [], helloOut := [], retryHello := [], peers := [],
    nextOpid := 1, waits := [], answered := [], gated := [], heldMsgs := [], seqWaits := [], loadWaits := [], assigns := [], aheadRetry := [], notices := [],
    work := [], backlogHigh := false, rxRuns := [], holderMap := [], tasks := [], adopted := none, pushes := 0, openPushes := [], light := [],
    seen := [], nextRequest := 1, darkReads := [], ports := #v[freshPort, freshPort] }

/-- The machine right after reset. -/
def State.reset : State :=
  { keeper := resetKeeper, store := resetStore, opt := resetOption, fw := resetFirmware, dies := #v[freshDie, freshDie],
    regions := Vector.replicate 4 freshRegion, clusters := Vector.replicate 12 freshCluster, lanes := Vector.replicate 24 freshLane,
    sub := resetSubsys, swarm := resetSwarm, bridgeUp := false, pending := [], free := 0 }

end Sys2Proof.Machine
end

