-- ==== Sys2Proof/Machine/Ops.lean ====
section
/-! DEFINITION. Named operations shared by the meanings: one update per part of the state, and raising an event (R453 to R468). -/

namespace Sys2Proof.Machine

/-- The outcome of a meaning. -/
abbrev Out := Host.Outcome State Fault Refusal

/-- A list put in order by insertion: elements that neither precede the other keep their order. -/
def insertBy {α : Type} (le : α → α → Bool) (x : α) : List α → List α
  | [] => [x]
  | y :: ys => if le x y then x :: y :: ys else y :: insertBy le x ys
def sortBy {α : Type} (le : α → α → Bool) (l : List α) : List α := l.foldr (insertBy le) []

/-- The element of lowest rank, the first of equals. -/
def firstRanked {α : Type} (rank : α → Nat) : List α → Option α
  | [] => none
  | x :: xs => match firstRanked rank xs with
    | some y => if rank y < rank x then some y else some x
    | none => some x

/-! Updates of one part of the state. -/

def State.updSup (s : State) (f : Supply → Supply) : State := { s with keeper := { s.keeper with sup := f s.keeper.sup } }
def State.updHu (s : State) (f : HoldUp → HoldUp) : State := { s with keeper := { s.keeper with hu := f s.keeper.hu } }
def State.updRescue (s : State) (f : Rescue → Rescue) : State := { s with keeper := { s.keeper with rescue := f s.keeper.rescue } }
def State.updTk (s : State) (f : TimeKeeping → TimeKeeping) : State := { s with keeper := { s.keeper with tk := f s.keeper.tk } }
def State.updBoot (s : State) (f : Boot → Boot) : State := { s with keeper := { s.keeper with boot := f s.keeper.boot } }
def State.updFc (s : State) (f : Collector → Collector) : State := { s with keeper := { s.keeper with fc := f s.keeper.fc } }
def State.updEv (s : State) (f : Recorder → Recorder) : State := { s with keeper := { s.keeper with ev := f s.keeper.ev } }
def State.updMp (s : State) (f : MgmtPort → MgmtPort) : State := { s with keeper := { s.keeper with mp := f s.keeper.mp } }
def State.updStore (s : State) (f : Store → Store) : State := { s with store := f s.store }
def State.updOpt (s : State) (f : OptionArea → OptionArea) : State := { s with opt := f s.opt }
def State.updFw (s : State) (f : Firmware → Firmware) : State := { s with fw := f s.fw }
def State.updDie (s : State) (d : DieIx) (f : DieSt → DieSt) : State := { s with dies := s.dies.set d (f s.dies[d]) }
def State.updCommon (s : State) (d : DieIx) (f : DieCommon → DieCommon) : State :=
  s.updDie d fun x => { x with common := f x.common }
def State.updRegion (s : State) (g : RegionIx) (f : RegionSt → RegionSt) : State := { s with regions := s.regions.set g (f s.regions[g]) }
def State.updCluster (s : State) (c : ClusterIx) (f : ClusterSt → ClusterSt) : State := { s with clusters := s.clusters.set c (f s.clusters[c]) }
def State.updLane (s : State) (l : LaneIx) (f : LaneSt → LaneSt) : State := { s with lanes := s.lanes.set l (f s.lanes[l]) }

/-- The common block of a die. -/
abbrev State.com (s : State) (d : DieIx) : DieCommon := s.dies[d].common

/-- An index computed by arithmetic, where it names a lane. -/
def laneIx? (n : Nat) : Option LaneIx := if h : n < 24 then some ⟨n, h⟩ else none
def clusterIx? (n : Nat) : Option ClusterIx := if h : n < 12 then some ⟨n, h⟩ else none
def regionIx? (n : Nat) : Option RegionIx := if h : n < 4 then some ⟨n, h⟩ else none

/-! Sources and classes. -/

/-- Source 8×L + local (R455). -/
def laneSrc (l : LaneIx) (k : Nat) : Nat := 8 * l.val + k
/-- Source 192 + 6×C + local (R455). -/
def clusterSrc (c : ClusterIx) (k : Nat) : Nat := 192 + 6 * c.val + k
/-- Source 264 + 8×G + local (R455). -/
def regionSrc (g : RegionIx) (k : Nat) : Nat := 264 + 8 * g.val + k
/-- Source 296 + 32×D + local (R456). -/
def dieSrc (d : DieIx) (k : Nat) : Nat := 296 + 32 * d.val + k

/-- The class of a source, none for a reserved one (R454 to R457). -/
def classOf (src : Nat) : Option EventClass :=
  if src < 192 then
    some (if src % 8 = 6 then .notice else .degraded)
  else if src < 264 then
    some (if (src - 192) % 6 = 0 ∨ (src - 192) % 6 = 2 ∨ (src - 192) % 6 = 4 then .notice else .degraded)
  else if src < 296 then
    let k := (src - 264) % 8
    some (if k = 3 then .severe else if k < 5 then .degraded else .notice)
  else if src < 360 then
    let k := (src - 296) % 32
    if k ≥ 28 then none
    else if [1, 2, 3, 5, 6, 7, 11, 13, 15, 23].contains k then some .notice
    else if [9, 10, 14, 16, 17, 19, 24, 25, 26].contains k then some .severe
    else some .degraded
  else if [360, 361, 362, 363, 377, 379].contains src then some .notice
  else if [365, 366, 367, 368, 369, 370, 371, 380, 381, 382].contains src then some .degraded
  else if [364, 374, 375, 376, 383].contains src then some .severe
  else if [372, 373, 378].contains src then some .fatal
  else if [400, 401, 402, 405, 406, 408, 410, 411, 413, 414, 415, 417, 418].contains src then some .notice
  else if [403, 404, 407, 409, 412, 416, 419, 420, 421].contains src then some .degraded
  else if src = 474 then some .degraded
  else if src = 482 then some .severe
  else if 464 ≤ src ∧ src ≤ 485 then some .notice
  else if [498, 499, 500, 502].contains src then some .notice
  else if [496, 497, 503, 504, 505].contains src then some .degraded
  else if src = 501 ∨ src = 506 then some .severe
  else none

/-- Severe and Fatal: pending bit, latch and immediate flush (R453). -/
def isSerious : EventClass → Bool
  | .severe | .fatal => true
  | .notice | .degraded => false

/-- The block that raises a lane, cluster, region, die, keeper or store die source. Sources of the swarm and
of the host side name no die by themselves: they count as D0's unless the raising rule names the die. -/
def blockOf (src : Nat) : Block :=
  if h : src < 192 then .lane ⟨src / 8, by omega⟩
  else if h : src < 264 then .cluster ⟨(src - 192) / 6, by omega⟩
  else if h : src < 296 then .region ⟨(src - 264) / 8, by omega⟩
  else if src < 328 then (if src = 311 ∨ src = 312 then .bridge 0 else .die 0)
  else if src < 360 then (if src = 343 ∨ src = 344 then .bridge 1 else .die 1)
  else if src < 400 then .keeper
  else if src < 496 then .die 0
  else .store

/-- The die a block lies on, none for the keeper and the store die. -/
def blockDie : Block → Option DieIx
  | .lane l => some (dieOfLane l)
  | .cluster c => some (dieOfCluster c)
  | .region g => some (dieOfRegion g)
  | .die d => some d
  | .bridge d => some d
  | .keeper => none
  | .store => none

/-- Whether a block is among the dependents of a scope (R465). -/
def scopeCovers : ShadowScope → Block → Bool
  | .regionDependents g, .lane l => regionOfLane l == g
  | .regionDependents g, .cluster c => regionOfCluster c == g
  | .regionDependents _, _ => false
  | .bothDies, b => (blockDie b).isSome
  | .dieAndBridge d, .bridge d' => d' == d || d' == otherDie d
  | .dieAndBridge d, b => blockDie b == some d
  | .allButKeeper, b => b != .keeper

/-- Every open shadow of the package. -/
def State.shadows (s : State) : List Shadow :=
  (s.com 0).shadows ++ (s.com 1).shadows ++ s.keeper.fc.shadow.toList

/-- The first-opened shadow of a list, by its place in the order of opening. -/
def firstOpened : List Shadow → Option Shadow
  | [] => none
  | x :: xs => match firstOpened xs with
    | none => some x
    | some y => if x.order ≤ y.order then some x else some y

/-- The opening source of the shadow in which a block lies, the first opened where there are two (R467). -/
def State.causeOf (s : State) (b : Block) : Option Nat :=
  (firstOpened (s.shadows.filter fun x => scopeCovers x.scope b && x.own != b)).map (·.source)

/-- A block in an open shadow takes no reaction of its own beyond the operation at hand (R467). -/
def State.shaded (s : State) (b : Block) : Bool := (s.causeOf b).isSome

/-- The interrupt line of a block toward the firmware core of its die: an event is pending and enabled (R63, R121, R152). The enable
gates nothing else. -/
def Irq.line (x : Irq) : Bool := x.pend &&& x.en != 0

/-- Set bit n of an IRQ register. -/
def Irq.set (x : Irq) (n : Nat) : Irq := { x with pend := x.pend ||| (BitVec.ofNat 32 (2 ^ n)) }

/-- Step 1 of R458: the event's bit in the IRQ register of its own block, and in DIE_IRQ for die events (R460).
Both dies latch every swarm and every host event (R276, R303). -/
def State.setIrq (s : State) (src : Nat) : State :=
  if h : src < 192 then s.updLane ⟨src / 8, by omega⟩ fun x => { x with irq := x.irq.set (src % 8) }
  else if h : src < 264 then s.updCluster ⟨(src - 192) / 6, by omega⟩ fun x => { x with irq := x.irq.set ((src - 192) % 6) }
  else if h : src < 296 then s.updRegion ⟨(src - 264) / 8, by omega⟩ fun x => { x with irq := x.irq.set ((src - 264) % 8) }
  else if h : src < 360 then
    let k := (src - 296) % 32
    s.updDie ⟨(src - 296) / 32, by omega⟩ fun x =>
      let x := { x with common := { x.common with irq := x.common.irq.set k } }
      if 3 ≤ k ∧ k ≤ 8 then { x with memIrq := x.memIrq.set (k - 3) }
      else if 9 ≤ k ∧ k ≤ 11 then { x with bpmIrq := x.bpmIrq.set (k - 9) }
      else if 12 ≤ k ∧ k ≤ 14 then { x with cphIrq := x.cphIrq.set (k - 12) }
      else x
  else if src < 400 then s.updSup fun x => { x with irq := x.irq.set (src - 360) }
  else if src < 464 then
    let f (x : DieSt) : DieSt := { x with swmIrq := x.swmIrq.set (src - 400) }
    (s.updDie 0 f).updDie 1 f
  else if src < 496 then
    let f (x : DieSt) : DieSt := { x with hstIrq := x.hstIrq.set (src - 464) }
    (s.updDie 0 f).updDie 1 f
  else s.updStore fun x => { x with irq := x.irq.set (src - 496) }

/-- Step 3 of R458: the token to the collector, with the block's shadow state. While the bridge is lost, a token of
D1 does not set out (R459). -/
def State.sendToken (s : State) (b : Block) (src : Nat) (d0 d1 : Word) (injected : Bool) : State :=
  let fromD1 := blockDie b == some 1
  if fromD1 && !s.bridgeUp then s
  else s.updFc fun x => { x with tokens := x.tokens ++
    [{ source := src, data0 := d0, data1 := d1, cause := s.causeOf b, injected := injected, fromD1 := fromD1 }] }

/-- A block reports an event (R458). A reserved source is never raised (R454). -/
def State.raiseFrom (s : State) (b : Block) (src : Nat) (d0 d1 : Word) : State :=
  if (classOf src).isNone then s else (s.setIrq src).sendToken b src d0 d1 false

/-- The block that the source names reports an event with its two data words. -/
def State.raise2 (s : State) (src : Nat) (d0 d1 : Word) : State := s.raiseFrom (blockOf src) src d0 d1

/-- As `raise2`, where the raising rule names no data word: both are zero (R458). -/
def State.raise (s : State) (src : Nat) : State := s.raise2 src 0 0

/-- Raise a swarm or host event at a die. -/
def State.raiseAt (s : State) (d : DieIx) (src : Nat) (d0 d1 : Word) : State := s.raiseFrom (.die d) src d0 d1

/-- Whether the source's pending bit stands (R462). -/
def State.isPending (s : State) (src : Nat) : Bool := s.keeper.fc.pend.getLsbD src

/-- Number of pending bits set. -/
def State.pendingCount (s : State) : Nat := ((List.range 512).filter fun i => s.keeper.fc.pend.getLsbD i).length

/-- FAULT_N is driven low while a pending bit stands, and is high-Z while VIO18 is absent (R462). -/
def State.faultNLow (s : State) : Bool := s.keeper.fc.pend != 0 && s.keeper.sup.vio18

/-- Open a shadow (R465). A block inside another shadow opens none (R467). With four open on its die the reaction runs
without a shadow and the die raises Reaction shadow overflow (R466). -/
def State.openShadow (s : State) (d : DieIx) (source : Nat) (scope : ShadowScope) (own : Block) : State :=
  if s.shaded own then s
  else if (s.com d).shadows.length ≥ 4 then s.raise (dieSrc d 27)
  else
    let sh : Shadow := { source := source, scope := scope, own := own, order := s.keeper.fc.shadowSeq }
    (s.updFc fun x => { x with shadowSeq := x.shadowSeq + 1, irq := x.irq.set 2 }).updCommon d
      fun c => { c with shadows := c.shadows ++ [sh] }

/-- Nothing happens: the event cannot occur in the present state, or the command changes nothing. -/
def unchanged (s : State) : Out := .next s

end Sys2Proof.Machine
end

