-- ==== Sys2Proof/Machine/OptionOps.lean ====
section
/-! DEFINITION. The applied option image and the values its records give, with their defaults (R351, R389, R394 to R407). -/

namespace Sys2Proof.Machine

/-- The applied image: of A and B, the valid slot of higher SEQ (R389). -/
def appliedOf (o : OptionArea) : Option OptImage :=
  match (if o.corruptA then none else o.slotA), (if o.corruptB then none else o.slotB) with
  | none, b => b
  | some a, none => some a
  | some a, some b => if a.seq < b.seq then some b else some a

/-- Records in force; with no image in force, none of them. -/
def State.recs? (s : State) : Option OptRecords := s.opt.inForce.map (·.records)

/-- A field whose 0 selects a default. -/
def dflt (x d : Nat) : Nat := if x = 0 then d else x

/-- The power and hold-up record with every default of R351 and R403 resolved. For a nominal below 2.9 V the thresholds
are none, written 0. -/
def resolvePower (p : PowerRec) : PowerRec :=
  let nom := dflt p.vinNom 3300
  let loss := if nom < 2900 then 0 else dflt p.loss (max (nom * 9 / 10) 2800)
  let warn := if nom < 2900 then 0 else dflt p.warn (min (loss + 150) nom)
  { p with vinNom := nom, loss := loss, warn := warn, target := dflt p.target 5500, testLoad := dflt p.testLoad 100,
           rescueP := dflt p.rescueP 160, interval := dflt p.interval 24, chgTimeout := dflt p.chgTimeout 10 }

/-- An absent power record: every field at its default. -/
def defaultPower : PowerRec :=
  resolvePower { vinNom := 0, loss := 0, warn := 0, cap := 0, target := 0, testLoad := 0, rescueP := 0, window := 0,
                 interval := 0, chgTimeout := 0, vauxPresent := false }

/-- Power parameters of an image. -/
def powerOf (img : Option OptImage) : PowerRec :=
  match img with
  | some i => (i.records.power.map resolvePower).getD defaultPower
  | none => defaultPower

/-- Power parameters in force. -/
def State.power (s : State) : PowerRec := powerOf s.opt.inForce

/-- Usable energy ½ × C × (V² − 2.9²) in mJ, C in 0.1 mF and V in mV (R358). -/
def usableMj (cap target : Nat) : Nat := cap * (target * target - 8410000) / 20000000

/-- Right side of R358 in mJ, P in 0.1 W and W in bytes. -/
def requiredMj (rescueP wBytes : Nat) : Nat := rescueP * (99600000 + wBytes) / 30000000

/-- The inequality of R358, exactly: ½ × C × (V² − 2.9²) ≥ 2 × P × (16.6 ms + W ÷ 6.0 GB/s). -/
def energyHolds (cap target rescueP wBytes : Nat) : Bool :=
  decide (rescueP * (99600000 + wBytes) * 2 ≤ cap * (target * target - 8410000) * 3)

/-- Both dies' window limits in bytes (R351). -/
def windowBytes (p : PowerRec) : Nat := 2 * p.window * 4096

/-- Event data of source 383 (R533): the rail code and where the rail lies. -/
def railCode : Rail → Nat
  | .vcore0 => 0 | .vcore1 => 1 | .vkeep => 2 | .vphy => 3 | .vpll => 4 | .vio18 => 5
  | .vccq => 6 | .vddq => 7 | .vdd2h => 8 | .vin => 9

/-- The ADC channel that samples a rail (R368). -/
def railChannel : Rail → Option (Fin 13)
  | .vin => some 0 | .vccq => some 3 | .vddq => some 4 | .vdd2h => some 5 | .vcore0 => some 6 | .vcore1 => some 7
  | .vkeep | .vphy | .vpll | .vio18 => none

def boardRail : BoardRail → Rail
  | .vccq => .vccq | .vddq => .vddq | .vdd2h => .vdd2h
def pkgRail : PkgRail → Rail
  | .vkeep => .vkeep | .vio18 => .vio18 | .vpll => .vpll | .vphy => .vphy | .vcore0 => .vcore0 | .vcore1 => .vcore1

/-- Package regulator fault with its data words (R533). -/
def State.raiseRail (s : State) (r : Rail) (above : Bool) : State :=
  let d1 : Word := match railChannel r with
    | some c => (s.keeper.sup.adc[c].value).setWidth 32
    | none => 0
  s.raise2 383 (BitVec.ofNat 32 (railCode r + (if above then 512 else 256))) d1


end Sys2Proof.Machine
end

