-- ==== Sys2Proof/Machine/Geometry.lean ====
section
/-! DEFINITION. Geometry of lanes, LUN sets and bands as the records give it (R65, R102, R103, R122, R123, R128, R174 to R178). -/

namespace Sys2Proof.Machine

/-- Bits per cell of a density (R65). -/
def densityBits : Density → Nat
  | .slc => 1 | .tlc => 3 | .qlc => 4 | .plc => 5 | .hlc => 6
/-- Index of a density in the order of R394's tables. -/
def densityIdx : Density → Fin 5
  | .slc => 0 | .tlc => 1 | .qlc => 2 | .plc => 3 | .hlc => 4
/-- The density a target number names; 0 selects HLC (R398). -/
def targetDensity (n : Nat) : Option Density :=
  match n with
  | 0 | 6 => some .hlc | 1 => some .slc | 3 => some .tlc | 4 => some .qlc | 5 => some .plc | _ => none

/-- The populated LUN numbers of a region. -/
def regionLuns (ls : List LanePop) (g : Nat) : List Nat :=
  (ls.zipIdx).flatMap fun (p, l) =>
    if l / 6 = g ∧ p.profile.isSome = true then ((List.range 32).filter fun i => p.lunMask.getLsbD i).map (l * 32 + ·) else []

/-- The media profile number of a LUN. -/
def lunProfile (ls : List LanePop) (n : Nat) : Option Nat :=
  match ls[n / 32]? with
  | some p => p.profile.map (·.val)
  | none => none

/-- Set width with its default (R399). -/
def geoW (g : GeometryRec) : Nat := dflt g.w 64

/-- The profile of a region: that of its LUNs (R65). -/
def regionProfile (r : OptRecords) (g : Nat) : Option MediaProfile :=
  match r.lanes, r.geometry[g]? with
  | some ls, some (some geo) =>
    match (geo.setLuns.headD []).head? with
    | some n => match lunProfile ls n with
      | some k => (r.profiles[k]?).getD none
      | none => none
    | none => none
  | _, _ => none

/-- Replacement blocks R_b of a LUN: the share of the record, rounded up (R175). -/
def replBlocks (g : GeometryRec) (p : MediaProfile) : Nat := (p.blocks * dflt g.rb 20 + 999) / 1000

/-- Frames in a page row at a density: ⌊planes × bits × page bytes ÷ (4,128 + P)⌋ (R102). -/
def framesPerRow (p : MediaProfile) (d : Density) : Nat :=
  match p.density[(densityIdx d).val]? with
  | some e => p.planes * densityBits d * p.pageBytes / (4128 + e.parity)
  | none => 0

/-- Granules of a namespace, 64 KiB each. -/
def blocksPerGranule (lbaf : Nat) : Nat := if lbaf = 0 then 16 else if lbaf = 1 then 4 else 1
def nsGranules (n : NamespaceRec) : Nat := (n.nsze + blocksPerGranule n.lbaf - 1) / blocksPerGranule n.lbaf
/-- Extent units of a namespace (R123). -/
def extentUnit : Nat := 12582912
def nsUnits (n : NamespaceRec) : Nat := (nsGranules n + extentUnit - 1) / extentUnit


/-- The media profile of a lane (R397). -/
def State.laneProfile (s : State) (l : LaneIx) : Option MediaProfile :=
  match s.recs? with
  | none => none
  | some r =>
    match (r.lanes.getD [])[l.val]? with
    | some p => match p.profile with
      | some k => (r.profiles[k.val]?).getD none
      | none => none
    | none => none

/-- Patch blobs of the running slot's half (R444). -/
def State.runningPatches (s : State) : List PatchBlob :=
  match s.fw.running with
  | some k => s.fw.slots[k].patches
  | none => []

/-- A LUN of the lane is populated by its record. -/
def State.populated (s : State) (l : LaneIx) (u : LunIx) : Bool :=
  match s.recs? with
  | none => false
  | some r =>
    match (r.lanes.getD [])[l.val]? with
    | some p => p.profile.isSome && p.lunMask.getLsbD u.val
    | none => false

/-- Geometry record of a region in force. -/
def State.geo? (s : State) (g : RegionIx) : Option GeometryRec :=
  match s.recs? with
  | none => none
  | some r => (r.geometry[g.val]?).getD none

/-- The media profile of a region in force (R65). -/
def State.regionProf? (s : State) (g : RegionIx) : Option MediaProfile := s.recs?.bind fun r => regionProfile r g.val

/-- Number of bands of a region: S sets of the slots that are not replacement blocks (R175). -/
def bandCount (geo : GeometryRec) (p : MediaProfile) : Nat := geo.sets * (p.blocks - replBlocks geo p)

/-- The slot of a band, and whether it lies in the SLC pool (R175). -/
def bandSlot (geo : GeometryRec) (b : Nat) : Nat := b / geo.sets
def bandInSlc (geo : GeometryRec) (b : Nat) : Bool := decide (bandSlot geo b < geo.slcSlots)
/-- The set of a band (R175). -/
def bandSet (geo : GeometryRec) (b : Nat) : Nat := b % geo.sets

/-- The two parity positions of a band (R178). -/
def parityPos (geo : GeometryRec) (b : Nat) : Nat × Nat :=
  let w := geoW geo
  ((bandSlot geo b + w - 2) % w, (bandSlot geo b + w - 1) % w)

/-- Data positions of a band in ascending order (R178). -/
def dataPos (geo : GeometryRec) (b : Nat) : List Nat :=
  let p := parityPos geo b
  (List.range (geoW geo)).filter fun u => u != p.1 && u != p.2

/-- LUN number at a position of a set, spares in place of lost positions (R191). -/
def lunAt (geo : GeometryRec) (adoptions : List Adoption) (set u : Nat) : Nat :=
  match adoptions.find? fun a => a.set == set && a.position == u with
  | some a => a.spare
  | none => (geo.setLuns.getD set []).getD u 0

/-- Page row and frame slot of data slot k of a band, data slots counted in ascending frame index over its data positions
(R103, R128, R178). -/
def slotPlace (geo : GeometryRec) (b f k : Nat) : Nat × Nat × Nat :=
  let n := geoW geo - 2
  let w := k / (n * f)
  let r := k % (n * f)
  (w, (dataPos geo b).getD (r / f) 0, r % f)

/-- Frame index (w × W + u) × F + s (R103). -/
def frameIndex (geo : GeometryRec) (f w u s : Nat) : Nat := (w * geoW geo + u) * f + s

/-- Frame index of data slot k. -/
def slotFrame (geo : GeometryRec) (b f k : Nat) : Nat :=
  let p := slotPlace geo b f k
  frameIndex geo f p.1 p.2.1 p.2.2

/-- Data slots of a whole band (R103). -/
def bandDataSlots (geo : GeometryRec) (p : MediaProfile) (f : Nat) : Nat := p.wordlines * (geoW geo - 2) * f

/-- Page rows (wordline and position) that the 16 frames of a granule lie on. -/
def granuleRows (geo : GeometryRec) (b f k : Nat) : List (Nat × Nat) :=
  ((List.range 16).map fun i => let p := slotPlace geo b f (k + i); (p.1, p.2.1)).eraseDups

/-- The density entry of a profile (R409). -/
def densEntry (p : MediaProfile) (d : Density) : Option DensityEntry := p.density[(densityIdx d).val]?

/-- Hard-decode limit of a parity size (R101). -/
def hardLimit (parity : Nat) : Nat := parity * 7 / 32

/-- Granule of an LBA in a namespace: BASE + ⌊n × S ÷ 65,536⌋, and its first FIG (R122). -/
def granOfLba (n : NamespaceRec) (lba : Nat) : Nat := n.base * extentUnit + lba / blocksPerGranule n.lbaf
def figOfLba (n : NamespaceRec) (lba : Nat) : Nat := (lba % blocksPerGranule n.lbaf) * (16 / blocksPerGranule n.lbaf)

/-- The region that owns a granule, and the local index and segment there (R122). -/
def granRegion (g : Nat) : RegionIx := ⟨g % 4, by omega⟩
def granLocal (g : Nat) : Nat := g / 4
def granSegment (g : Nat) : Nat := granLocal g / 3145728

/-- Bands of the SLC pool that the record's uses need and reserve (R169, R171). -/
def slcNeeded (geo : GeometryRec) : Nat :=
  geo.bandsStaging + geo.bandsJournal + geo.bandsCheckpoint + geo.bandsAccum +
  dflt geo.resRescue 2 + dflt geo.resJournal 4 + dflt geo.resStaging 1 + dflt geo.resRetract 2

/-- Granules a band holds at a density. -/
def bandGranules (geo : GeometryRec) (p : MediaProfile) (d : Density) : Nat := bandDataSlots geo p (framesPerRow p d) / 16

/-- Bands of the main pool that the namespaces need: ⌈Gr ÷ (g × OP)⌉ for each target density, OP in 1/1000 (R171, R399). -/
def mainNeeded (geo : GeometryRec) (p : MediaProfile) (ns : List NamespaceRec) (target : Nat → Density) : Nat :=
  let op := dflt geo.op 930
  ([Density.tlc, .qlc, .plc, .hlc].map fun d =>
    let gr := ((ns.filter fun n => target n.nsid == d).map nsGranules).sum / 4
    let per := bandGranules geo p d * op
    if per = 0 then 0 else (gr * 1000 + per - 1) / per).sum

/-- The target density that a density policy gives a namespace, HLC by default (R67, R398). -/
def targetIn (d : Option DensityPolicy) (nsid : Nat) : Density := ((d.map fun x => x.target.getD (nsid - 1) 0).bind targetDensity).getD .hlc

/-! Read-level tables (R65, R410). -/

/-- Read levels of a density, 2^d − 1 (R65). -/
def levelCount (d : Density) : Nat := 2 ^ densityBits d - 1
/-- Start of a density's table in LEVELS, and of its row in XROWS (R410). -/
def levelStart : Density → Nat
  | .slc => 0 | .tlc => 32 | .qlc => 256 | .plc => 736 | .hlc => 1728
def xrowStart : Density → Nat
  | .slc => 0 | .tlc => 1 | .qlc => 8 | .plc => 23 | .hlc => 54

end Sys2Proof.Machine
end

