-- ==== Sys2Proof/Machine/Hash.lean ====
section
/-! DEFINITION. SHA-384, HMAC and HKDF over byte strings: the functions that R207, R245, R249, R333 and R336 name. The spec names the
standards and does not write them out (FIPS 180-4, FIPS 198-1, RFC 5869; PRESUMED, log entry 32). -/

namespace Sys2Proof.Machine

/-- Bytes of a value, lowest first. -/
def leBytes (n v : Nat) : List Byte := (List.range n).map fun i => BitVec.ofNat 8 (v / 256 ^ i)
/-- Bytes of a value, highest first. -/
def beBytes (n v : Nat) : List Byte := (leBytes n v).reverse
/-- The value of bytes, highest first, and lowest first. -/
def beValue (bs : List Byte) : Nat := bs.foldl (fun acc b => acc * 256 + b.toNat) 0
def leValue (bs : List Byte) : Nat := beValue bs.reverse

/-- Consecutive pieces of n elements. -/
def pieces {α : Type} (n : Nat) (l : List α) : List (List α) := (List.range ((l.length + n - 1) / n)).map fun i => (l.drop (n * i)).take n

/-! Constants of the hash: fractions of the roots of the first primes. -/

/-- The greatest number of `bits` bits that passes, for a test that holds up to some number. -/
def greatest (bits : Nat) (ok : Nat → Bool) : Nat :=
  (List.range bits).foldl (fun r i => if ok (r + 2 ^ (bits - 1 - i)) then r + 2 ^ (bits - 1 - i) else r) 0

/-- The first eighty primes. -/
def hashPrimes : List Nat := (List.range 410).filter fun n => decide (2 ≤ n) && (List.range n).all fun d => decide (d < 2) || n % d != 0

/-- The first 64 bits of the fraction of the k-th root of p. -/
def rootFraction (k p : Nat) : DWord := BitVec.ofNat 64 (greatest 72 fun r => decide (r ^ k ≤ p * 2 ^ (64 * k)))

/-- Round constants: cube roots of all eighty. Initial values: square roots of the ninth to sixteenth. -/
def roundConstants : List DWord := hashPrimes.map (rootFraction 3)
def hashStart : List DWord := ((hashPrimes.drop 8).take 8).map (rootFraction 2)

/-! The compression of a block. -/

/-- The sum, bit by bit modulo 2, of rotations of a word. -/
def rotations (rs : List Nat) (x : DWord) : DWord := rs.foldl (fun acc r => acc ^^^ x.rotateRight r) 0

/-- A block under way: the sixteen schedule words from the present round on, and the eight working words. -/
structure HashRun where
  ahead : List DWord
  vars : List DWord
  deriving DecidableEq, Repr

/-- One round. -/
def HashRun.round (h : HashRun) (k : DWord) : HashRun :=
  let w (i : Nat) := h.ahead.getD i 0
  let v (i : Nat) := h.vars.getD i 0
  let entering := w 0 + (rotations [1, 8] (w 1) ^^^ (w 1 >>> 7)) + w 9 + (rotations [19, 61] (w 14) ^^^ (w 14 >>> 6))
  let rising := v 7 + rotations [14, 18, 41] (v 4) + (v 6 ^^^ (v 4 &&& (v 5 ^^^ v 6))) + k + w 0
  let falling := rotations [28, 34, 39] (v 0) + ((v 0 &&& v 1) ||| (v 2 &&& (v 0 ||| v 1)))
  { ahead := h.ahead.drop 1 ++ [entering], vars := (rising + falling) :: (h.vars.take 7).set 3 (v 3 + rising) }

/-- The eight words after a block of 128 bytes. -/
def hashBlock (st : List DWord) (block : List Byte) : List DWord :=
  let start : HashRun := { ahead := (pieces 8 block).map fun b => BitVec.ofNat 64 (beValue b), vars := st }
  List.zipWith (· + ·) st (roundConstants.foldl HashRun.round start).vars

/-- SHA-384 of a message of whole bytes. -/
def sha384 (msg : List Byte) : List Byte :=
  let zeros := (239 - msg.length % 128) % 128
  let padded := msg ++ [0x80#8] ++ List.replicate zeros 0#8 ++ beBytes 16 (8 * msg.length)
  (((pieces 128 padded).foldl hashBlock hashStart).take 6).flatMap fun x => beBytes 8 x.toNat

/-! HMAC and HKDF. -/

/-- HMAC-SHA-384. -/
def hmac384 (key msg : List Byte) : List Byte :=
  let short := if key.length ≤ 128 then key else sha384 key
  let pad (b : Byte) := (short ++ List.replicate (128 - short.length) 0#8).map (· ^^^ b)
  sha384 (pad 0x5C ++ sha384 (pad 0x36 ++ msg))

/-- HKDF-SHA-384: extraction, expansion to n bytes, and both. -/
def hkdfExtract (salt ikm : List Byte) : List Byte := hmac384 salt ikm
def hkdfExpand (prk info : List Byte) (n : Nat) : List Byte :=
  let grow (p : List Byte × List Byte) (i : Nat) : List Byte × List Byte :=
    let t := hmac384 prk (p.2 ++ info ++ [BitVec.ofNat 8 (i + 1)])
    (p.1 ++ t, t)
  ((List.range ((n + 47) / 48)).foldl grow ([], [])).1.take n
def hkdf384 (salt ikm info : List Byte) (n : Nat) : List Byte := hkdfExpand (hkdfExtract salt ikm) info n

/-- The bytes of an ASCII text. -/
def asciiBytes (t : String) : List Byte := t.toList.map fun c => BitVec.ofNat 8 c.toNat

end Sys2Proof.Machine
end

