-- ==== Sys2Proof/Machine/Placement.lean ====
section
/-! DEFINITION. The hash that the placement function names (R207). -/

namespace Sys2Proof.Machine

/-- The placement hash H(tag, x, y, c) (R207): the first eight bytes of the SHA-384, read with the lowest first. -/
def placementHash (tag : List Byte) (swarmId : DWord) (x y c : Nat) : Nat :=
  leValue ((sha384 (tag ++ leBytes 8 swarmId.toNat ++ leBytes 8 x ++ leBytes 8 y ++ leBytes 2 c)).take 8)

/-- The ASCII tags. -/
def tagLead : List Byte := asciiBytes "LEAD"
def tagHold : List Byte := asciiBytes "HOLD"

end Sys2Proof.Machine
end

