-- ==== Sys2Proof/Machine/JournalBytes.lean ====
section
/-! DEFINITION. Journal records and journal frames as bytes, and what replay reads from them (R136 to R138, R163, R196, R234). -/

namespace Sys2Proof.Machine

/-- Bits [lo + n − 1 : lo] of a number. -/
def bitsAt (v lo n : Nat) : Nat := v / 2 ^ lo % 2 ^ n

/-! Codes. -/

/-- KIND (R75). -/
def bandKindCode : BandKind → Nat
  | .data => 0 | .journal => 1 | .checkpoint => 2 | .rescue => 3 | .swarmParity => 4

/-- Reason of RECLAIM_START (R163). -/
def reclaimCode : ReclaimReason → Nat
  | .empty => 0 | .score => 1 | .refresh => 2 | .wear => 3 | .stagingRelease => 4

/-- Cause of READ_ONLY (R163). -/
def readOnlyCode : ReadOnlyCause → Nat
  | .spare => 1 | .journal => 2 | .sequence => 3

/-- STATE of a segment entry (R213). -/
def segStateCode : SegState → Nat
  | .sealed => 0 | .noticed => 1 | .assigned => 2 | .retracting => 3 | .retracted => 4 | .unstriped => 5 | .withdrawn => 6

/-- STATE of a stripe record (R220). -/
def stripeStateCode : StripeState → Nat
  | .opened => 0 | .closed => 1 | .complete => 2 | .released => 3

/-- The value of a list that has a code. -/
def ofCode {α : Type} (l : List α) (code : α → Nat) (n : Nat) : Option α := l.find? fun x => code x == n

def allDensities : List Density := [.slc, .tlc, .qlc, .plc, .hlc]
def allBandKinds : List BandKind := [.data, .journal, .checkpoint, .rescue, .swarmParity]
def allReclaimReasons : List ReclaimReason := [.empty, .score, .refresh, .wear, .stagingRelease]
def allReadOnlyCauses : List ReadOnlyCause := [.spare, .journal, .sequence]
def allSegStates : List SegState := [.sealed, .noticed, .assigned, .retracting, .retracted, .unstriped, .withdrawn]
def allStripeStates : List StripeState := [.opened, .closed, .complete, .released]

/-- The entry of 40 bits (R126, R127). -/
def entryOfBits (v : Nat) : MapEntry :=
  { state := match bitsAt v 37 3 with
      | 0 => .mapped | 1 => .deallocated | 2 => .never | 3 => .poisoned | 4 => .foldInFlight | 5 => .lost | 6 => .reserved 0 | _ => .reserved 1
    band := BitVec.ofNat 15 (bitsAt v 22 15), frame := BitVec.ofNat 22 (bitsAt v 0 22) }

/-! Parts of stripe records (R220, R234). -/

/-- A location in the form of CUR. -/
def locCode : Option (Nat × Nat) → Nat
  | some (b, f) => b + f * 2 ^ 15
  | none => 0xFFFFFFFFFF
def locOf (v : Nat) : Option (Nat × Nat) := if v = 0xFFFFFFFFFF then none else some (bitsAt v 0 15, bitsAt v 15 22)

/-- APPLYING. -/
def applyingCode : Option (Nat × Bool) → Nat
  | some (p, r) => p + (if r then 64 else 0) + 128
  | none => 0
def applyingOf (v : Nat) : Option (Nat × Bool) := if bitsAt v 7 1 = 1 then some (bitsAt v 0 6, bitsAt v 6 1 == 1) else none

/-- The 2-byte entries of DATA and HOLDERS. -/
def dataCode (d : DataPos) : Nat := d.member + (if d.applied then 2 ^ 14 else 0) + (if d.retracted then 2 ^ 15 else 0)
def holderCode (h : HolderPos) : Nat := h.member + (if h.acked then 2 ^ 14 else 0)
def dataOf (v : Nat) : DataPos := { member := bitsAt v 0 14, applied := bitsAt v 14 1 == 1, retracted := bitsAt v 15 1 == 1 }
def holderOf (v : Nat) : HolderPos := { member := bitsAt v 0 14, acked := bitsAt v 14 1 == 1 }

/-! Records. -/

/-- A record with RFLAGS 0. -/
def jslot (type key value aux : Nat) : JSlot :=
  { type := BitVec.ofNat 8 type, rflags := 0, key := BitVec.ofNat 40 key, value := BitVec.ofNat 40 value, aux := BitVec.ofNat 32 aux }

/-- STRIPE_HDR, STRIPE_TIME, a STRIPE_MEMBER for each entry, and STRIPE_LOC for CUR and NEW (R234). -/
def stripeSlots (r : StripeRec) : List JSlot :=
  let lo := r.stripe % 2 ^ 40
  let hi := r.stripe / 2 ^ 40
  let part (type value aux : Nat) : JSlot := jslot type lo (hi + value) aux
  let loc (x : Option (Nat × Nat)) (isNew : Nat) : JSlot :=
    jslot 0x74 lo (locCode x) (hi + isNew * 2 ^ 8 + r.newthru * 2 ^ 9 + applyingCode r.applying * 2 ^ 16)
  [part 0x71 (r.k * 2 ^ 8 + r.m * 2 ^ 16 + stripeStateCode r.state * 2 ^ 24 + r.filled * 2 ^ 32) (r.group + r.mypos * 2 ^ 8 + r.version * 2 ^ 16),
   part 0x72 (r.opened * 2 ^ 8) r.epoch] ++
  (r.data.zipIdx.map fun x => part 0x73 (x.2 * 2 ^ 8 + dataCode x.1 * 2 ^ 16) 0) ++
  (r.holders.zipIdx.map fun x => part 0x73 ((32 + x.2) * 2 ^ 8 + holderCode x.1 * 2 ^ 16) 0) ++
  [loc r.cur 0, loc r.new 1]

/-- The records that a change is journaled in (R138, R163, R196, R234). -/
def recSlots : JRec → List JSlot
  | .seqReserve n => [jslot 0x03 (n % 2 ^ 40) (n / 2 ^ 40) 0]
  | .map gran e cas om ob =>
    [{ jslot 0x10 gran e.bits.toNat (ob + if om then 2 ^ 15 else 0) with rflags := if cas then 1 else 0 }]
  | .nsExtent nsid base len => [jslot 0x11 nsid base len]
  | .format nsid => [jslot 0x12 nsid 0 0]
  | .bandOpen b d p st op k => [jslot 0x20 (b + densityBits d * 2 ^ 16 + p * 2 ^ 24 + st.toNat * 2 ^ 32) op (bandKindCode k)]
  | .bandWall b w => [jslot 0x21 b (w % 2 ^ 40) (w / 2 ^ 40)]
  | .bandEighth b k tage temp => [jslot 0x22 (b + k * 2 ^ 16) (tage.toNat + (temp % 256).toNat * 2 ^ 32) 0]
  | .bandState b fl age => [jslot 0x23 b fl.toNat age.toNat]
  | .bandSeal b n => [jslot 0x24 b n 0]
  | .eraseIntent b => [jslot 0x30 b 0 0]
  | .eraseDone b => [jslot 0x31 b 0 0]
  | .dirty b k on => [jslot 0x40 (b + k * 2 ^ 16) (if on then 1 else 0) 0]
  | .blockRetire lun blk c => [jslot 0x50 (lun + blk * 2 ^ 16) c 0]
  | .blockReplace lun slot n => [jslot 0x51 (lun + slot * 2 ^ 16) n 0]
  | .lunQuarantine lun c => [jslot 0x52 lun c 0]
  | .spareAdopt sp st u lun => [jslot 0x53 (sp + st * 2 ^ 16 + u * 2 ^ 24) lun 0]
  | .rebuildRow b u rows => [jslot 0x54 (b + u * 2 ^ 16) rows 0]
  | .slotLost b f => [jslot 0x55 b f 0]
  | .bandPad b u w n => [jslot 0x56 (b + u * 2 ^ 16 + w * 2 ^ 24) n 0]
  | .setEvacuate st => [jslot 0x57 st 0 0]
  | .reclaimStart b r n rel => [jslot 0x60 (b + reclaimCode r * 2 ^ 16) n (rel.getD 0x7FFF)]
  | .reclaimMapped b n => [jslot 0x61 b n 0]
  | .reclaimHold b c => [jslot 0x62 b c 0]
  | .readOnly c => [jslot 0x63 (readOnlyCode c) 0 0]
  | .segState e => [jslot 0x70 (e.band + e.seg * 2 ^ 15) (e.stripe % 2 ^ 40)
      (e.stripe / 2 ^ 40 + e.position * 2 ^ 8 + segStateCode e.state * 2 ^ 13 + e.done.toNat * 2 ^ 16 + e.retracted.toNat * 2 ^ 20)]
  | .stripeRec r => stripeSlots r
  | .stripeRelease n => [jslot 0x75 (n % 2 ^ 40) (n / 2 ^ 40) 0]
  | .stripeSeqReserve n => [jslot 0x76 n 0 0]
  | .unknown t => [jslot t.toNat 0 0 0]

/-- How many records of a frame a change takes. -/
def recSize (x : JRec) : Nat := (recSlots x).length

/-- Records of a tail frame in use beside JHDR and JSEQ. -/
def JFrame.used (f : JFrame) : Nat := (f.recs.map recSize).sum

/-! Reading. -/

/-- A stripe record as its STRIPE_HDR begins it. -/
def stripeHead (x : JSlot) : StripeRec :=
  let v := x.value.toNat
  let a := x.aux.toNat
  { stripe := x.key.toNat + bitsAt v 0 8 * 2 ^ 40, k := bitsAt v 8 8, m := bitsAt v 16 8,
    state := (ofCode allStripeStates stripeStateCode (bitsAt v 24 8)).getD .opened, filled := bitsAt v 32 8, group := bitsAt a 0 8, epoch := 0, opened := 0,
    mypos := bitsAt a 8 8, applying := none, newthru := 0, holders := [], data := [], cur := none, new := none, version := bitsAt a 16 16 }

/-- What a later record adds to it. -/
def stripePart (r : StripeRec) (x : JSlot) : StripeRec :=
  let v := x.value.toNat
  let a := x.aux.toNat
  match x.type.toNat with
  | 0x72 => { r with opened := bitsAt v 8 32, epoch := a }
  | 0x73 =>
    if bitsAt v 8 6 < 32 then { r with data := r.data ++ [dataOf (bitsAt v 16 16)] } else { r with holders := r.holders ++ [holderOf (bitsAt v 16 16)] }
  | 0x74 =>
    let r := { r with newthru := bitsAt a 9 7, applying := applyingOf (bitsAt a 16 8) }
    if bitsAt a 8 1 = 1 then { r with new := locOf v } else { r with cur := locOf v }
  | _ => r

/-- A record of one slot; one with a reserved type or code is skipped and counted (R138). -/
def slotRec (x : JSlot) : JRec :=
  let k := x.key.toNat
  let v := x.value.toNat
  let a := x.aux.toNat
  let b := bitsAt k 0 15
  match x.type.toNat with
  | 0x03 => .seqReserve (k + bitsAt v 0 24 * 2 ^ 40)
  | 0x10 => .map k (entryOfBits v) (x.rflags.getLsbD 0) (bitsAt a 15 1 == 1) (bitsAt a 0 15)
  | 0x11 => .nsExtent (bitsAt k 0 8) v a
  | 0x12 => .format (bitsAt k 0 8)
  | 0x20 =>
    match ofCode allDensities densityBits (bitsAt k 16 8), ofCode allBandKinds bandKindCode (bitsAt a 0 4) with
    | some d, some kd => .bandOpen b d (bitsAt k 24 8) (BitVec.ofNat 8 (bitsAt k 32 8)) v kd
    | _, _ => .unknown x.type
  | 0x21 => .bandWall b (v + bitsAt a 0 8 * 2 ^ 40)
  | 0x22 => .bandEighth b (bitsAt k 16 3) (BitVec.ofNat 32 (bitsAt v 0 32)) (BitVec.ofNat 8 (bitsAt v 32 8)).toInt
  | 0x23 => .bandState b (BitVec.ofNat 8 (bitsAt v 0 8)) x.aux
  | 0x24 => .bandSeal b v
  | 0x30 => .eraseIntent b
  | 0x31 => .eraseDone b
  | 0x40 => .dirty b (bitsAt k 16 14) (v == 1)
  | 0x50 => .blockRetire (bitsAt k 0 10) (bitsAt k 16 24) (bitsAt v 0 8)
  | 0x51 => .blockReplace (bitsAt k 0 10) (bitsAt k 16 24) (bitsAt v 0 24)
  | 0x52 => .lunQuarantine (bitsAt k 0 10) (bitsAt v 0 8)
  | 0x53 => .spareAdopt (bitsAt k 0 10) (bitsAt k 16 8) (bitsAt k 24 8) (bitsAt v 0 10)
  | 0x54 => .rebuildRow b (bitsAt k 16 8) (bitsAt v 0 16)
  | 0x55 => .slotLost b (bitsAt v 0 22)
  | 0x56 => .bandPad b (bitsAt k 16 8) (bitsAt k 24 16) (bitsAt v 0 8)
  | 0x57 => .setEvacuate (bitsAt k 0 8)
  | 0x60 =>
    match ofCode allReclaimReasons reclaimCode (bitsAt k 16 3) with
    | some r => .reclaimStart b r (bitsAt v 0 32) (if bitsAt a 0 15 = 0x7FFF then none else some (bitsAt a 0 15))
    | none => .unknown x.type
  | 0x61 => .reclaimMapped b v
  | 0x62 => .reclaimHold b v
  | 0x63 => match ofCode allReadOnlyCauses readOnlyCode (bitsAt k 0 3) with
    | some c => .readOnly c
    | none => .unknown x.type
  | 0x70 => match ofCode allSegStates segStateCode (bitsAt a 13 3) with
    | some st => .segState { band := b, seg := bitsAt k 15 4, state := st, position := bitsAt a 8 5, stripe := v + bitsAt a 0 8 * 2 ^ 40,
                             done := BitVec.ofNat 4 (bitsAt a 16 4), retracted := BitVec.ofNat 4 (bitsAt a 20 4) }
    | none => .unknown x.type
  | 0x75 => .stripeRelease (k + bitsAt v 0 8 * 2 ^ 40)
  | 0x76 => .stripeSeqReserve (bitsAt k 0 34)
  | _ => .unknown x.type

/-- One more record of a frame: EMPTY, JHDR and JSEQ name no change, STRIPE_HDR begins a stripe record and the records behind it complete it. -/
def readSlot (acc : List JRec) (x : JSlot) : List JRec :=
  match x.type.toNat with
  | 0x00 | 0x01 | 0x02 => acc
  | 0x71 => acc ++ [.stripeRec (stripeHead x)]
  | 0x72 | 0x73 | 0x74 => match acc.getLast? with
    | some (.stripeRec r) => acc.dropLast ++ [.stripeRec (stripePart r x)]
    | _ => acc
  | _ => acc ++ [slotRec x]

/-- The changes that a frame's records name (R138). -/
def readSlots (l : List JSlot) : List JRec := l.foldl readSlot []

/-! Frames (R136, R138). -/

/-- The 256 records of a frame of region g: JHDR, JSEQ, its changes, and EMPTY behind them. -/
def JFrame.slots (f : JFrame) (g : RegionIx) : List JSlot :=
  let rs := f.recs.flatMap recSlots
  [jslot 0x01 (2 + rs.length + g.val * 2 ^ 16) f.num 0, jslot 0x02 (f.lowSeq % 2 ^ 40) (f.lowSeq / 2 ^ 40) 0] ++ rs ++
    List.replicate (254 - rs.length) (jslot 0 0 0 0)

/-- The 16 bytes of a record (R8, R137). -/
def slotBytes (x : JSlot) : List Byte :=
  [x.type, x.rflags] ++ leBytes 5 x.key.toNat ++ leBytes 5 x.value.toNat ++ leBytes 4 x.aux.toNat

/-- A little-endian number. -/
def leNum (l : List Byte) : Nat := l.foldr (fun b n => b.toNat + 256 * n) 0

/-- The record that 16 bytes spell. -/
def slotOfBytes (l : List Byte) : JSlot :=
  { type := l.headD 0, rflags := (l.drop 1).headD 0, key := BitVec.ofNat 40 (leNum ((l.drop 2).take 5)),
    value := BitVec.ofNat 40 (leNum ((l.drop 7).take 5)), aux := BitVec.ofNat 32 (leNum ((l.drop 12).take 4)) }

/-- The 4,096 bytes of user data of a journal frame. -/
def JFrame.bytes (f : JFrame) (g : RegionIx) : List Byte := (f.slots g).flatMap slotBytes

/-- Fields that fit the widths of the record layouts. -/
def stripeFits (r : StripeRec) : Prop :=
  r.stripe < 2 ^ 48 ∧ r.k < 256 ∧ r.m < 256 ∧ r.filled < 256 ∧ r.group < 256 ∧ r.epoch < 2 ^ 32 ∧ r.opened < 2 ^ 32 ∧ r.mypos < 256 ∧ r.version < 2 ^ 16 ∧
  r.newthru < 128 ∧ (∀ p, r.applying = some p → p.1 < 64) ∧ r.data.length ≤ 32 ∧ r.holders.length ≤ 4 ∧ (∀ d ∈ r.data, d.member < 2 ^ 14) ∧
  (∀ h ∈ r.holders, h.member < 2 ^ 14) ∧ (∀ p, r.cur = some p → p.1 < 2 ^ 15 ∧ p.2 < 2 ^ 22) ∧ (∀ p, r.new = some p → p.1 < 2 ^ 15 ∧ p.2 < 2 ^ 22)

/-- A journal record whose values fit the widths of its layout (R138, R163, R196, R234). -/
def recFits : JRec → Prop
  | .seqReserve n => n < 2 ^ 64
  | .map gran _ _ _ ob => gran < 2 ^ 40 ∧ ob < 2 ^ 15
  | .nsExtent nsid base len => nsid < 256 ∧ base < 2 ^ 40 ∧ len < 2 ^ 32
  | .format nsid => nsid < 256
  | .bandOpen b _ p _ op _ => b < 2 ^ 15 ∧ p < 256 ∧ op < 2 ^ 40
  | .bandWall b w => b < 2 ^ 15 ∧ w < 2 ^ 48
  | .bandEighth b k _ temp => b < 2 ^ 15 ∧ k < 8 ∧ -128 ≤ temp ∧ temp ≤ 127
  | .bandState b _ _ | .eraseIntent b | .eraseDone b => b < 2 ^ 15
  | .bandSeal b n | .reclaimMapped b n | .reclaimHold b n => b < 2 ^ 15 ∧ n < 2 ^ 40
  | .dirty b k _ => b < 2 ^ 15 ∧ k < 2 ^ 14
  | .blockRetire lun blk c => lun < 1024 ∧ blk < 2 ^ 24 ∧ c < 256
  | .blockReplace lun slot n => lun < 1024 ∧ slot < 2 ^ 24 ∧ n < 2 ^ 24
  | .lunQuarantine lun c => lun < 1024 ∧ c < 256
  | .spareAdopt sp st u lun => sp < 1024 ∧ st < 256 ∧ u < 256 ∧ lun < 1024
  | .rebuildRow b u rows => b < 2 ^ 15 ∧ u < 256 ∧ rows < 2 ^ 16
  | .slotLost b f => b < 2 ^ 15 ∧ f < 2 ^ 22
  | .bandPad b u w n => b < 2 ^ 15 ∧ u < 256 ∧ w < 2 ^ 16 ∧ n < 256
  | .setEvacuate st => st < 256
  | .reclaimStart b _ n rel => b < 2 ^ 15 ∧ n < 2 ^ 32 ∧ ∀ m, rel = some m → m < 0x7FFF
  | .readOnly _ => True
  | .segState e => e.band < 2 ^ 15 ∧ e.seg < 16 ∧ e.position < 32 ∧ e.stripe < 2 ^ 48
  | .stripeRec r => stripeFits r
  | .stripeRelease n => n < 2 ^ 48
  | .stripeSeqReserve n => n < 2 ^ 34
  | .unknown t => 0x77 ≤ t.toNat

end Sys2Proof.Machine
end

