-- ==== Sys2Proof/Machine/Fields.lean ====
section
/-! DEFINITION. Byte layouts as lists of fields, little-endian (R8), CRC-32C, and the event record (R469). -/

namespace Sys2Proof.Machine

/-- CRC-32C, reflected, one bit at a time (Castagnoli polynomial; PRESUMED, log entry 10). -/
def crcBit (c : Word) : Word := if c.getLsbD 0 then (c >>> 1) ^^^ 0x82F63B78#32 else c >>> 1
def crcByte (c : Word) (b : Byte) : Word := Nat.repeat crcBit 8 (c ^^^ b.setWidth 32)
def crc32c (bs : List Byte) : Word := (bs.foldl crcByte 0xFFFFFFFF#32) ^^^ 0xFFFFFFFF#32

/-! Fields. -/

/-- A field; its value saturates at its size. -/
def fld (off size val : Nat) : DataField := { off := off, size := size, val := min val (256 ^ size - 1) }
/-- A signed byte. -/
def fldC (off : Nat) (t : Int) : DataField := { off := off, size := 1, val := (t % 256).toNat }
/-- Fields of a structure placed at an offset. -/
def fieldsAt (base : Nat) (l : List DataField) : List DataField := l.map fun f => { f with off := f.off + base }
/-- Bit n of a flag word. -/
def bitIf (b : Bool) (n : Nat) : Nat := if b then 2 ^ n else 0

/-- The part of a log that a read from `lpo` of `len` bytes returns; bytes that no field names read zero (R297). -/
def cutFields (lpo len : Nat) (l : List DataField) : List DataField :=
  (l.filter fun f => decide (lpo < f.off + f.size) && decide (f.off < lpo + len)).map fun f =>
    let lo := max f.off lpo
    let size := min (f.off + f.size) (lpo + len) - lo
    { off := lo - lpo, size := size, val := f.val / 256 ^ (lo - f.off) % 256 ^ size }

/-! Event records. -/

/-- Class codes (R453). -/
def classCode : EventClass → Nat
  | .notice => 0 | .degraded => 1 | .severe => 2 | .fatal => 3

/-- Bytes 0 to 27 of an event record (R469). -/
def recordHead (r : EventRecord) : List DataField :=
  [fld 0 5 r.opsec.toNat, fld 5 3 r.pcycles.toNat, fld 8 4 r.usec.toNat, fld 12 2 r.source,
   fld 14 1 (classCode r.cls + bitIf r.conseq 2 + bitIf r.first 3 + bitIf r.injected 4), fld 16 2 (if r.conseq then r.cause else 0),
   fld 18 2 r.repeats.toNat, fld 20 4 r.data0.toNat, fld 24 4 r.data1.toNat]

/-- Bytes of a field list that covers `n` bytes. -/
def fieldBytes (n : Nat) (l : List DataField) : List Byte :=
  leBytes n ((l.map fun f => f.val * 256 ^ f.off).sum)

/-- An event record with its CRC (R469). -/
def recordFields (r : EventRecord) : List DataField :=
  let h := recordHead r
  h ++ [fld 28 4 (crc32c (fieldBytes 28 h)).toNat]

/-- The byte at an offset of a field list; a byte that no field names is 0. -/
def fieldByte (l : List DataField) (o : Nat) : Byte :=
  BitVec.ofNat 8 ((l.map fun f => if f.off ≤ o ∧ o < f.off + f.size then f.val / 256 ^ (o - f.off) % 256 else 0).sum)

/-- A layout whose last four bytes, from `n` on, are the CRC-32C of the bytes before it. -/
def withCrc (n : Nat) (l : List DataField) : List DataField := l ++ [fld n 4 (crc32c (fieldBytes n l)).toNat]

end Sys2Proof.Machine
end

