-- ==== Sys2Proof/Machine/LaneOps.lean ====
section
/-! DEFINITION. Operations of a lane engine: checks, slots, order of execution, completion, suspension, quarantine (R30, R39 to R49, R56). -/

namespace Sys2Proof.Machine

/-- What a completed descriptor hands to the level above. -/
structure LaneDone where
  lane : LaneIx
  desc : Descriptor
  purpose : Purpose
  status : LaneStatus

/-- Bytes of a descriptor word, lowest first. -/
def descBytes (w : Word) : List Byte :=
  [w.extractLsb' 0 8, w.extractLsb' 8 8, w.extractLsb' 16 8, w.extractLsb' 24 8]

/-- Bytes 0 to 59 match CRC (R38). -/
def descCrcOk (d : Descriptor) : Bool := crc32c ((d.words.toList.take 15).flatMap descBytes) == d.crc

/-- READ_PAGE, READ_SOFT, MARGIN_READ and OFFSET_SWEEP (R44). -/
def readClass : LaneOp → Bool
  | .readPage | .readSoft | .marginRead | .offsetSweep => true
  | _ => false
/-- Operations that program. -/
def programOp : LaneOp → Bool
  | .programPage | .programPass => true
  | _ => false
/-- Operations that address a block (R39). -/
def blockOp : LaneOp → Bool
  | .eraseBlock => true
  | o => readClass o || programOp o

/-- LUN number as the event data of R63 gives it. -/
def eventLun (d : Descriptor) : Word := BitVec.ofNat 32 d.lunNo
/-- TAG and OPCODE as the event data of R63 gives them. -/
def eventTag (d : Descriptor) : Word := (0#8) ++ d.opcode ++ d.tag

/-- Raise a lane event about a descriptor (R63). -/
def State.raiseLane (s : State) (l : LaneIx) (k : Nat) (d : Descriptor) : State := s.raise2 (laneSrc l k) (eventLun d) (eventTag d)
/-- Raise a lane event that concerns no single LUN and no descriptor (R63). -/
def State.raiseLaneAll (s : State) (l : LaneIx) (k : Nat) : State := s.raise2 (laneSrc l k) 0xFFFFFFFF#32 0

/-- The geometry of the profile holds the block fields of a descriptor that addresses a block (R39). A PLANES of 0 selects no plane, on
which R39 is silent: it is refused (DESIGN CHOICE, log entry 124). -/
def blockFieldsOk (p : MediaProfile) (d : Descriptor) : Bool :=
  [1, 3, 4, 5, 6].contains d.density.toNat && decide (d.block.toNat < p.blocks) && decide (d.planes.toNat < 2 ^ p.planes) && d.planes != 0 &&
  decide (d.wordline.toNat < p.wordlines) && (d.page == 0xFF || decide (d.page.toNat < d.density.toNat)) && decide (d.column.toNat < p.pageBytes)

/-- The fields that an operation names lie in their stated ranges (R38). -/
def namedFieldsOk (op : LaneOp) (d : Descriptor) : Bool :=
  (d.routine == 0xFF || decide (d.routine.toNat < 64)) &&
  match op with
  | .readSoft => (d.soft == 3 || d.soft == 5) && decide (1 ≤ d.softDelta.toNat) && decide (d.softDelta.toNat ≤ 31)
  | .marginRead => decide (d.level.toNat ≤ 63)
  | .offsetSweep => decide (d.level.toNat ≤ 63) && decide (1 ≤ d.sweepStep.toNat) && decide (d.sweepStep.toNat ≤ 16) &&
      decide (1 ≤ d.sweepCount.toNat) && decide (d.sweepCount.toNat ≤ 512)
  | _ => true

/-- CRITICAL is set on PROGRAM_PAGE, PROGRAM_PASS, SUSPEND and READ_STATUS only (R39). -/
def criticalOk (op : LaneOp) (d : Descriptor) : Bool :=
  !d.critical || programOp op || op == .suspend || op == .readStatus

/-- A lane accepts the descriptor: none of the cases of R39 holds. -/
def State.descAccepted (s : State) (l : LaneIx) (d : Descriptor) : Bool :=
  match d.op, s.laneProfile l with
  | some op, some p =>
    descCrcOk d && decide (d.lunNo / 32 = l.val) && s.populated l d.unit && !(s.lanes[l].quarLuns.getLsbD d.unit.val) &&
    (!blockOp op || blockFieldsOk p d) && namedFieldsOk op d &&
    d.flags.toNat % 8 == 0 && decide (d.lun.toNat < 1024) && d.rsv18 == 0 && d.rsv45 == 0 && d.rsv58 == 0 &&
    !(s.lanes[l].queue.any fun e => e.desc.tag == d.tag) && criticalOk op d
  | _, _ => false

/-- Slots of a kind taken. -/
def slotsUsed (q : List QEntry) (k : SlotKind) : Nat := (q.filter fun e => e.slot == k).length

/-- The slot that a descriptor takes (R30): a general one while one is free, else a reserved one of its kind. -/
def slotFor (q : List QEntry) (d : Descriptor) : Option SlotKind :=
  if slotsUsed q .general < 208 then some .general
  else if (d.op == some .readPage || d.op == some .readSoft || d.op == some .marginRead) && decide (d.cls < 2) && decide (slotsUsed q .read < 32) then some .read
  else if d.critical && decide (d.cls < 2) && decide (slotsUsed q .critical < 16) then some .critical
  else none

/-- The completion record of a descriptor (R41). -/
def completionOf (d : Descriptor) (st : LaneStatus) (nand : Byte) (elapsed : Word) (suspends : Nat) (addr : BitVec 14) (value : Word) : Completion :=
  { tag := d.tag, status := st, nandStatus := nand, elapsed := elapsed, suspends := BitVec.ofNat 8 suspends,
    ucodeAddr := addr.setWidth 16, value := value }

/-- Return a completion record to the cluster. -/
def LaneSt.post (x : LaneSt) (c : Completion) : LaneSt := { x with completions := x.completions ++ [c] }
/-- A cycle on the channel. -/
def LaneSt.cycle (x : LaneSt) (b : BusCycle) : LaneSt := { x with bus := x.bus ++ [b] }

/-- A TRAIN descriptor is bound to a context. -/
def trainBound (q : List QEntry) : Bool := q.any fun e => e.ctx.isSome && e.desc.op == some .train

/-- The last status byte that a descriptor's context has read from its LUN; 0 where it has read none (R41). -/
def State.lastNand (s : State) (l : LaneIx) (e : QEntry) : Byte :=
  match e.ctx.bind fun c => s.lanes[l].ctxs[c] with
  | some k => k.nand.raw
  | none => 0

/-- Complete a descriptor of the queue: its record, its context and its slot (R41, R42). `nand` and `value` as read. -/
def State.finishDesc (s : State) (l : LaneIx) (e : QEntry) (st : LaneStatus) (nand : Byte) (addr : BitVec 14) (value : Word) : State × LaneDone :=
  let x := s.lanes[l]
  let now := (s.com (dieOfLane l)).usec
  let cx := e.ctx.bind fun c => x.ctxs[c]
  let elapsed : Word := match cx with
    | some c => (now - c.started).setWidth 32
    | none => 0
  let count := match x.erases.find? fun r => r.tag == e.desc.tag with | some r => r.count | none => 0
  let x := { x with
    queue := x.queue.filter fun q => q.desc.tag != e.desc.tag,
    ctxs := match e.ctx with | some c => x.ctxs.set c none | none => x.ctxs,
    owner := if x.owner.isSome && x.owner == e.ctx then none else x.owner,
    erases := x.erases.filter fun r => r.tag != e.desc.tag,
    train := { x.train with running := x.train.running && trainBound (x.queue.filter fun q => q.desc.tag != e.desc.tag) } }
  let c := completionOf e.desc st nand elapsed count addr value
  -- Completion words that microcode stored (STO of R59): word 1 ELAPSED, word 2 SUSPENDS and UCODE_ADDR, word 3 VALUE.
  let c := match cx with
    | some k => { c with
        elapsed := k.out[0].getD c.elapsed, value := k.out[2].getD c.value,
        suspends := (k.out[1].map fun w => w.extractLsb' 0 8).getD c.suspends,
        ucodeAddr := if st = .ucodeFault then c.ucodeAddr else (k.out[1].map fun w => w.extractLsb' 16 16).getD c.ucodeAddr }
    | none => c
  ({ s with lanes := s.lanes.set l (x.post c) },
   { lane := l, desc := e.desc, purpose := e.purpose, status := st })

/-- Another descriptor works on the LUN: bound, and not a suspended erase (R42). -/
def lunBusy (x : LaneSt) (u : LunIx) : Bool :=
  x.queue.any fun e => e.ctx.isSome && e.desc.unit == u &&
    !(x.erases.any fun r => r.tag == e.desc.tag && r.phase == .suspended)

/-- The erase on a LUN that this lane has suspended. -/
def suspendedOn (x : LaneSt) (u : LunIx) : Option EraseRun := x.erases.find? fun r => r.unit == u && r.phase == .suspended
/-- The erase that runs on a LUN. -/
def runningOn (x : LaneSt) (u : LunIx) : Option EraseRun := x.erases.find? fun r => r.unit == u && r.phase == .running

/-- What may run on a LUN whose erase is suspended (R46). -/
def runsWhileSuspended (x : LaneSt) (op : LaneOp) (d : Descriptor) : Bool :=
  readClass op || op == .readStatus || op == .getFeature || (programOp op && d.critical && !x.barPrograms)

/-- No earlier descriptor orders this one on its block (R43): behind a program or erase of the block nothing passes, and a program
or erase passes no operation on its block. -/
def orderedOk (before : List QEntry) (op : LaneOp) (d : Descriptor) : Bool :=
  !blockOp op || !(before.any fun e => match e.desc.op with
    | some o => blockOp o && e.desc.unit == d.unit && e.desc.block == d.block && (!readClass op || !readClass o)
    | none => false)

/-- The WAIT_TAG condition is met (R38, R39). A WAIT_TAG equal to the descriptor's own TAG, on which the spec is silent, counts as met
(DESIGN CHOICE, log entry 124). -/
def waitOk (q : List QEntry) (d : Descriptor) : Bool := !d.waits || d.waitTag == d.tag || !(q.any fun e => e.desc.tag == d.waitTag)

/-- The LUN of the descriptor is free for it (R43, R46, R47). -/
def lunOk (x : LaneSt) (op : LaneOp) (d : Descriptor) : Bool :=
  match op with
  | .suspend => !(x.erases.any fun r => r.unit == d.unit && (r.phase == .suspending || (r.phase == .running && !d.critical && !r.minMet)))
  | .resume => !lunBusy x d.unit
  | .train => true
  | _ => !lunBusy x d.unit && match suspendedOn x d.unit with
    | some r => !r.due && runsWhileSuspended x op d
    | none => true

/-- Eligible under R43, given the entries before it. -/
def eligible (x : LaneSt) (before : List QEntry) (e : QEntry) : Bool :=
  match e.desc.op with
  | some op => e.ctx.isNone && waitOk x.queue e.desc && orderedOk before op e.desc && lunOk x op e.desc
  | none => false

/-- A read that meets an accepted erase of its block (R44). -/
def onErasing (before : List QEntry) (e : QEntry) : Bool :=
  match e.desc.op with
  | some op => e.ctx.isNone && readClass op &&
      before.any fun q => q.desc.op == some .eraseBlock && q.desc.unit == e.desc.unit && q.desc.block == e.desc.block
  | none => false

/-- Rank by kind: CRITICAL, then the classes (R43). -/
def kindRank (d : Descriptor) : Nat := if d.critical then 0 else 1 + d.cls

/-- Of the entries that may start, the first of lowest rank: within a kind the one that has waited longest. -/
def bestStart (x : LaneSt) : List QEntry → List QEntry → Option QEntry
  | _, [] => none
  | before, e :: rest =>
    let later := bestStart x (before ++ [e]) rest
    if eligible x before e || onErasing before e then
      match later with
      | some f => if kindRank f.desc < kindRank e.desc then some f else some e
      | none => some e
    else later

/-- The descriptor that the lane starts next. -/
def LaneSt.nextStart (x : LaneSt) : Option QEntry := bestStart x [] x.queue

/-- The first free context. -/
def freeCtx (x : LaneSt) : Option CtxIx := (List.finRange 8).find? fun c => (x.ctxs[c]).isNone

/-- Contexts whose operation runs in a LUN's array. -/
def arrayContexts (x : LaneSt) : Nat :=
  (x.queue.filter fun e => e.ctx.isSome && ((e.desc.op.map blockOp).getD false) &&
    !(x.erases.any fun r => r.tag == e.desc.tag && r.phase == .suspended)).length

/-- The context that the next operation of a kind takes: four with array operations at most where the power cap limits the lane (R42, R348). -/
def State.ctxFor (s : State) (l : LaneIx) (op : LaneOp) : Option CtxIx :=
  if s.keeper.sup.capSteps.contains .fourContexts && blockOp op && decide (4 ≤ arrayContexts s.lanes[l]) then none else freeCtx s.lanes[l]

/-- Routine index of a descriptor: its own, or the profile's default for the opcode (R38). -/
def routineEntry (p : MediaProfile) (op : LaneOp) (d : Descriptor) : Nat :=
  let k := if d.routine = 0xFF then ((p.defaults[allLaneOps.idxOf op]?).map (·.routine)).getD 0 else d.routine.toNat
  (p.routines[k]?).getD 0x3FFF

/-- A context as a descriptor is bound to it: registers and flags start clear (R58). -/
def freshCtx (d : Descriptor) (pc : Nat) (now : BitVec 48) : Ctx :=
  { tag := d.tag, pc := BitVec.ofNat 14 pc, stack := [], w := Vector.replicate 16 0, z := false, c := false, n := false, t := false, s := false,
    waits := false, nand := { raw := 0, fail := false, ready := true, arrayReady := true, suspended := false }, out := #v[none, none, none], started := now }

/-- Change one entry of the queue. -/
def LaneSt.updEntry (x : LaneSt) (tag : Half) (f : QEntry → QEntry) : LaneSt :=
  { x with queue := x.queue.map fun e => if e.desc.tag == tag then f e else e }
/-- Change one erase. -/
def LaneSt.updErase (x : LaneSt) (u : LunIx) (f : EraseRun → EraseRun) : LaneSt :=
  { x with erases := x.erases.map fun r => if r.unit == u then f r else r }

/-- Bind a descriptor to a free context (R42). -/
def State.bind (s : State) (l : LaneIx) (c : CtxIx) (e : QEntry) (op : LaneOp) : State :=
  let pc := match s.laneProfile l with
    | some p => routineEntry p op e.desc
    | none => 0x3FFF
  let now := (s.com (dieOfLane l)).usec
  s.updLane l fun x => { (x.updEntry e.desc.tag fun q => { q with ctx := some c }) with ctxs := x.ctxs.set c (some (freshCtx e.desc pc now)) }

/-- A read of CLASS 0b00 or a CRITICAL descriptor waits for another block of the LUN (R46). -/
def wantsLun (x : LaneSt) (r : EraseRun) : Bool :=
  let block := (x.queue.find? fun e => e.desc.tag == r.tag).map (·.desc.block)
  x.queue.any fun e => e.ctx.isNone && e.desc.unit == r.unit && match e.desc.op with
    | some op => (readClass op && e.desc.cls == 0 && some e.desc.block != block) ||
        (e.desc.critical && programOp op && some e.desc.block != block) || (e.desc.critical && op == .readStatus)
    | none => false

/-- R46 and R47 on one running erase that has met its minimum run time: suspend it, or let the limit refuse. -/
def State.suspendIfDue (s : State) (l : LaneIx) (u : LunIx) : State :=
  let x := s.lanes[l]
  match runningOn x u with
  | none => s
  | some r =>
    if !r.minMet || !wantsLun x r then s
    else if r.count < x.suspLimit then
      s.updLane l fun x => (x.updErase u fun r => { r with phase := .suspending }).cycle (.suspend u)
    else if r.guarded then s
    else
      let s := s.updLane l fun x => x.updErase u fun r => { r with guarded := true }
      match x.queue.find? fun e => e.desc.tag == r.tag with
      | some e => s.raiseLane l 6 e.desc
      | none => s

/-- Resume a suspended erase (R46): its minimum run time counts afresh. -/
def LaneSt.resumeErase (x : LaneSt) (u : LunIx) : LaneSt :=
  (x.updErase u fun r => { r with phase := .running, held := false, minMet := false, due := false }).cycle (.resume u)

/-- Work for a LUN under a suspended erase remains: an eligible descriptor, or one that runs (R46). -/
def workRemains (x : LaneSt) (u : LunIx) : List QEntry → List QEntry → Bool
  | _, [] => false
  | before, e :: rest =>
    (e.desc.unit == u && e.desc.op != some .resume && e.desc.op != some .eraseBlock &&
      ((e.ctx.isSome) || eligible x before e)) || workRemains x u (before ++ [e]) rest

/-- Resume the erases whose LUN has no eligible descriptor left, and suspend those that reads wait for (R46). -/
def State.balanceErases (s : State) (l : LaneIx) : State :=
  let s := (s.lanes[l].erases.filter fun r => r.phase == .suspended && !r.held).foldl
    (fun s r => if workRemains s.lanes[l] r.unit [] s.lanes[l].queue then s else s.updLane l fun x => x.resumeErase r.unit) s
  (s.lanes[l].erases.filter fun r => r.phase == .running).foldl (fun s r => s.suspendIfDue l r.unit) s

/-! The channel (R42, R43). -/

/-- The entry's context waits for the channel. -/
def LaneSt.awaitsChannel (x : LaneSt) (e : QEntry) : Bool :=
  match e.ctx.bind fun c => x.ctxs[c] with
  | some k => k.waits
  | none => false

/-- A channel that is free goes to the context whose descriptor ranks first of those that wait for it: its SYNC is over. -/
def LaneSt.grantChannel (x : LaneSt) : LaneSt :=
  if x.owner.isSome then x else
  match (firstRanked (fun e => kindRank e.desc) (x.queue.filter x.awaitsChannel)).bind (·.ctx) with
  | none => x
  | some c => { x with owner := some c, ctxs := match x.ctxs[c] with
      | some k => x.ctxs.set c (some { k with waits := false, pc := k.pc + 1 })
      | none => x.ctxs }

/-- Erases and the waiting contexts take their turns: after every event that frees a LUN or the channel. -/
def State.turns (s : State) (l : LaneIx) : State := (s.balanceErases l).updLane l LaneSt.grantChannel

/-- Complete a list of entries, oldest first. -/
def State.finishAll (s : State) (l : LaneIx) (st : LaneStatus) : List QEntry → State × List LaneDone
  | [] => (s, [])
  | e :: es =>
    let (s, d) := s.finishDesc l e st (s.lastNand l e) 0 0
    let (s, ds) := s.finishAll l st es
    (s, d :: ds)

/-- The LUN reset of the profile on every LUN of a list (R49). -/
def LaneSt.resetLuns (x : LaneSt) (us : List LunIx) : LaneSt := us.foldl (fun x u => x.cycle (.lunReset u)) x

/-- Abandon erases (R49): LUN reset, and ERASE_BLOCK completes ABANDONED. -/
def State.abandonErases (s : State) (l : LaneIx) (which : EraseRun → Bool) : State × List LaneDone :=
  let rs := s.lanes[l].erases.filter which
  let s := s.updLane l fun x => x.resetLuns (rs.map (·.unit))
  s.finishAll l .abandoned (s.lanes[l].queue.filter fun e => rs.any fun r => r.tag == e.desc.tag)

/-- The lane's side of a quarantine (R56): waiting descriptors of the LUNs complete ABANDONED, erases are abandoned, and later
descriptors for them are refused. -/
def State.laneQuarantine (s : State) (l : LaneIx) (mask : BitVec 32) : State × List LaneDone :=
  let s := s.updLane l fun x => { x with quarLuns := x.quarLuns ||| mask, quarantined := x.quarantined || mask == BitVec.allOnes 32 }
  let hit (u : LunIx) : Bool := mask.getLsbD u.val
  let (s, d1) := s.abandonErases l fun r => hit r.unit
  let (s, d2) := s.finishAll l .abandoned (s.lanes[l].queue.filter fun e => e.ctx.isNone && hit e.desc.unit)
  (s.updLane l LaneSt.grantChannel, d1 ++ d2)

/-- The order to stop (R33, R353 step 5, R477): queued descriptors without CRITICAL complete ABANDONED, every running erase is
suspended and held, programs in progress continue. -/
def State.laneStop (s : State) (l : LaneIx) : State × List LaneDone :=
  let (s, d) := s.finishAll l .abandoned (s.lanes[l].queue.filter fun e => e.ctx.isNone && !e.desc.critical)
  let us := (s.lanes[l].erases.filter fun r => r.phase == .running).map (·.unit)
  (us.foldl (fun s u => s.updLane l fun x => (x.updErase u fun r => { r with phase := .suspended, held := true, count := r.count + 1 }).cycle (.suspend u)) s, d)

/-- A descriptor written into the queue, its checks passed and a slot found. -/
def State.enqueue (s : State) (l : LaneIx) (d : Descriptor) (p : Purpose) (k : SlotKind) : State :=
  let s := s.updLane l fun x => { x with queue := x.queue ++ [{ desc := d, purpose := p, slot := k, ctx := none }] }
  s.turns l

/-- Refuse a descriptor (R39): REFUSED at once, nothing on the channel, source 8×L + 5. -/
def State.refuseDesc (s : State) (l : LaneIx) (d : Descriptor) : State :=
  (s.updLane l fun x => x.post (completionOf d .refused 0 0 0 0 0)).raiseLane l 5 d

/-- The waiting requester that takes the next slot that frees: reads, then writes, folding, reclamation; the oldest of a kind (R31). -/
def bestWaiting (q : List QEntry) (ws : List (Descriptor × Purpose)) : Option (Descriptor × Purpose) :=
  firstRanked (fun w => w.1.cls) (ws.filter fun w => (slotFor q w.1).isSome)

/-- The lane has nothing queued or held (R34, R37). -/
def State.laneIdle (s : State) (l : LaneIx) : Bool := s.lanes[l].queue.isEmpty && s.lanes[l].waiting.isEmpty

/-- Reads, and the program that was on the channel, go again from their descriptors (R36). -/
def State.laneReissue (s : State) (l : LaneIx) : State :=
  s.updLane l fun x =>
    let again := x.queue.filter fun e => e.ctx.isSome && match e.desc.op with
      | some o => readClass o || (programOp o && x.owner == e.ctx)
      | none => false
    LaneSt.grantChannel <| again.foldl (fun x e => { (x.updEntry e.desc.tag fun q => { q with ctx := none }) with
      ctxs := match e.ctx with | some c => x.ctxs.set c none | none => x.ctxs,
      owner := if x.owner == e.ctx then none else x.owner }) x

end Sys2Proof.Machine
end

