-- ==== Sys2Proof/Machine/Crossings.lean ====
section
/-! DEFINITION. Crossings between clockless logic and the clocked PHYs: toggle channels, FIFOs, clocks (R34 to R37); and what sets out across
the die bridge (R18, R31, R32). -/

namespace Sys2Proof.Machine

/-! Toggle channels (R35). -/

/-- The receiver sees the changed request level: one pulse in its own domain, and the acknowledge follows. -/
def Toggle.receive (t : Toggle) : Toggle := if t.req = t.ack then t else { t with ack := t.req, pulses := t.pulses + 1 }
/-- The sender changes the level for an event that waits, once its last one is acknowledged. -/
def Toggle.launch (t : Toggle) : Toggle :=
  if t.req = t.ack ∧ t.waiting ≠ 0 then { t with req := !t.req, waiting := t.waiting - 1 } else t
/-- An event: it sets out at once, or waits for the acknowledge of the one before. `up`: the receiver is out of reset and answers. -/
def Toggle.send (t : Toggle) (up : Bool) : Toggle :=
  let t := ({ t with waiting := t.waiting + 1 }).launch
  if up then t.receive else t
/-- Every event that waits is delivered, one round trip each: each changes both levels once. -/
def Toggle.deliver (t : Toggle) : Toggle :=
  let t := t.receive
  if t.waiting % 2 = 0 then { t with pulses := t.pulses + t.waiting, waiting := 0 }
  else { req := !t.req, ack := !t.ack, pulses := t.pulses + t.waiting, waiting := 0 }
/-- n events one after the other, each acknowledged. -/
def Toggle.sendMany (t : Toggle) (n : Nat) : Toggle := ({ t with waiting := t.waiting + n }).deliver

/-! FIFOs with Gray-coded pointers (R34). -/

/-- Gray code of a position, and the position of a code. -/
def grayOf (n : Nat) : Byte := BitVec.ofNat 8 (n ^^^ (n / 2))
def ofGray (b : Byte) : Nat := (b ^^^ (b >>> 1) ^^^ (b >>> 2) ^^^ (b >>> 3) ^^^ (b >>> 4) ^^^ (b >>> 5) ^^^ (b >>> 6) ^^^ (b >>> 7)).toNat

/-- Entries of a crossing's FIFO, per direction, and bytes of an entry. -/
def fifoDepth : CrossingId → Nat
  | .pcie _ | .swarm _ => 64
  | .lpddr _ => 128
  | .nand _ => 32
def entryWidth : CrossingId → Nat
  | .pcie _ | .swarm _ => 32
  | .lpddr _ => 36
  | .nand _ => 8

/-- Entries that stand in a FIFO of this depth: pointers count to twice the depth. -/
def Fifo.fill (f : Fifo) (depth : Nat) : Nat := (ofGray f.wr + 2 * depth - ofGray f.rd) % (2 * depth)
/-- n entries pass: written and read. -/
def Fifo.pass (f : Fifo) (depth n : Nat) : Fifo :=
  let at_ := grayOf ((ofGray f.wr + n) % (2 * depth))
  { wr := at_, rd := at_ }
/-- Entries written while nothing reads: as many as there is room for. -/
def Fifo.fillUp (f : Fifo) (depth n : Nat) : Fifo :=
  { f with wr := grayOf ((ofGray f.wr + min n (depth - f.fill depth)) % (2 * depth)) }

/-! The crossings of the package. -/

/-- A crossing's state. -/
def State.crossing (s : State) : CrossingId → Crossing
  | .pcie d => (s.com d).pcie
  | .lpddr d => (s.com d).lpddr
  | .swarm d => (s.com d).swarmX
  | .nand l => s.lanes[l].crossing

def State.updCrossing (s : State) (x : CrossingId) (f : Crossing → Crossing) : State :=
  match x with
  | .pcie d => s.updCommon d fun c => { c with pcie := f c.pcie }
  | .lpddr d => s.updCommon d fun c => { c with lpddr := f c.lpddr }
  | .swarm d => s.updCommon d fun c => { c with swarmX := f c.swarmX }
  | .nand l => s.updLane l fun y => { y with crossing := f y.crossing }

/-- Every crossing to a clocked PHY. -/
def allCrossings : List CrossingId :=
  [.pcie 0, .pcie 1, .lpddr 0, .lpddr 1, .swarm 0, .swarm 1] ++ (List.finRange 24).map .nand

/-- A PHY clock can run: VIN is present and XTAL25 runs (R28). -/
def State.clocksRun (s : State) : Bool := s.keeper.sup.vinOk && s.keeper.sup.xtal25

/-- Data of so many bytes toward the PHY (`out`) or from it: through the FIFO where the crossing runs, else as far as the FIFO has room
(R34). A stopped clock that the clockless side needs is asked to run (R37). -/
def State.carry (s : State) (x : CrossingId) (out : Bool) (bytes : Nat) : State :=
  let n := (bytes + entryWidth x - 1) / entryWidth x
  let go := s.clocksRun
  s.updCrossing x fun c =>
    let move (f : Fifo) : Fifo := if c.running && go then f.pass (fifoDepth x) n else f.fillUp (fifoDepth x) n
    let c := if out then { c with toPhy := move c.toPhy } else { c with fromPhy := move c.fromPhy }
    if c.running then { c with clockOn := c.clockOn || go } else { c with wakeHeld := c.wakeHeld || out }

/-- The clocks of PHYs stop, or run again, at their owner's order; the order crosses as a toggle (R34, R35). -/
def State.clockOrder (s : State) (on : Bool) (xs : List CrossingId) : State :=
  let run := on && s.clocksRun
  xs.foldl (fun s x => s.updCrossing x fun c =>
    if c.clockOn == run then c else { c with clockOn := run && c.running, ctlOut := c.ctlOut.send c.running }) s

/-! The die bridge. -/

/-- Outstanding transfers of a direction of the die bridge (R29). -/
def bridgeLimit : Nat := 256

/-- The order in which waiting requests are served (R31). -/
def workRank : WorkKind → Nat
  | .read => 0 | .write => 1 | .fold => 2 | .reclaim => 3

/-- A freed place of a direction goes to the waiting transfer of highest priority, the oldest of equals (R31). -/
def BridgeDir.grant (b : BridgeDir) : BridgeDir :=
  if bridgeLimit ≤ b.out.length then b
  else match firstRanked (fun x => workRank x.kind) b.waiting with
    | some x => { b with out := b.out ++ [x], waiting := b.waiting.erase x }
    | none => b

/-- A transfer sets out, or waits at the sender while the direction is full (R29, R31). -/
def BridgeDir.post (b : BridgeDir) (item : BridgeItem) (kind : WorkKind) : BridgeDir :=
  ({ b with next := b.next + 1, waiting := b.waiting ++ [{ tag := b.next, fails := 0, item := item, kind := kind }] } : BridgeDir).grant

/-- Send an item toward a die. -/
def State.bridgeSend (s : State) (toward : DieIx) (item : BridgeItem) (kind : WorkKind) : State :=
  if !s.bridgeUp then s else s.updCommon toward fun c => { c with bridge := c.bridge.post item kind }

/-- Nothing outstanding and nothing waiting, in either direction: at a start, and when the bridge is lost. -/
def State.clearBridge (s : State) : State :=
  let clear (c : DieCommon) : DieCommon := { c with bridge := { c.bridge with out := [], waiting := [] } }
  (s.updCommon 0 clear).updCommon 1 clear

end Sys2Proof.Machine
end

