-- ==== Sys2Proof/Machine/PoolOps.lean ====
section
/-! DEFINITION. Operations of a die's buffer pool, acknowledge window and memory tables (R304 to R319). -/

namespace Sys2Proof.Machine

def State.updPool (s : State) (d : DieIx) (f : Pool → Pool) : State := s.updDie d fun x => { x with pool := f x.pool }
def State.updMem (s : State) (d : DieIx) (f : MemCtl → MemCtl) : State := s.updDie d fun x => { x with mem := f x.mem }
def State.updCipher (s : State) (d : DieIx) (f : Cipher → Cipher) : State := s.updDie d fun x => { x with cipher := f x.cipher }
def State.updHost (s : State) (d : DieIx) (f : HostPort → HostPort) : State := s.updDie d fun x => { x with host := f x.host }
def State.updSub (s : State) (f : Subsys → Subsys) : State := { s with sub := f s.sub }

/-- Bytes of a buffer (R304). -/
def classBytes : PoolClass → Nat
  | .c0 => 4096 | .c1 => 16384 | .c2 => 65536 | .c3 => 262144 | .dram => 1048576
/-- Index of a class in register and list order. -/
def classIdx : PoolClass → Fin 5
  | .c0 => 0 | .c1 => 1 | .c2 => 2 | .c3 => 3 | .dram => 4
def allClasses : List PoolClass := [.c0, .c1, .c2, .c3, .dram]

/-- Fold buffers of the density policy in force (R304, R398). -/
def State.foldBuffers (s : State) : Nat :=
  match s.recs? with
  | some r => dflt ((r.density.map (·.foldBuffers)).getD 0) 1024
  | none => 1024


/-- Buffers of a class (R304). -/
def State.classCount (s : State) : PoolClass → Nat
  | .c0 => 4096 | .c1 => 512 | .c2 => 96 | .c3 => 8 | .dram => s.foldBuffers

/-- Buffers kept for work that is not a write (R305). -/
def classReserve : PoolClass → Nat
  | .c0 => 512 | .c1 => 64 | .c2 => 12 | .c3 => 1 | .dram => 0

/-- Free zeroed buffers of a class: not allocated, not zeroing, and not the zero buffer (R304, R309). -/
def State.freeCount (s : State) (d : DieIx) (c : PoolClass) : Nat :=
  let p := s.dies[d].pool
  s.classCount c - (if c = .c0 then 1 else 0) - (p.bufs.filter fun b => b.cls == c).length - (p.zeroing.filter fun z => z.1 == c).length

/-- Index names a free zeroed buffer. -/
def State.isFree (s : State) (d : DieIx) (c : PoolClass) (i : Nat) : Bool :=
  let p := s.dies[d].pool
  decide (i < s.classCount c) && !(c == .c0 && i == 0) && !(p.bufs.any fun b => b.cls == c && b.index == i) && !p.zeroing.contains (c, i)

/-- The smallest SRAM class that holds the size (R305). -/
def classFor (bytes : Nat) : Option PoolClass := [PoolClass.c0, .c1, .c2, .c3].find? fun c => decide (bytes ≤ classBytes c)

/-- A requester of that kind may take a buffer now (R305). -/
def State.mayTake (s : State) (d : DieIx) (c : PoolClass) (k : WorkKind) : Bool :=
  decide ((if k = .write then classReserve c else 0) < s.freeCount d c)

/-- A fresh allocation: count 1, no marks (R308, R309). -/
def freshBuf (c : PoolClass) (i : Nat) : Buf := { cls := c, index := i, refs := 1, pinned := false, window := false, poison := [], remap := none, held := [] }

def State.allocBuf (s : State) (d : DieIx) (c : PoolClass) (i : Nat) : State := s.updPool d fun p => { p with bufs := p.bufs ++ [freshBuf c i] }

/-- The buffer with that class and index. -/
def Pool.find (p : Pool) (c : PoolClass) (i : Nat) : Option Buf := p.bufs.find? fun b => b.cls == c && b.index == i
def Pool.updBuf (p : Pool) (c : PoolClass) (i : Nat) (f : Buf → Buf) : Pool :=
  { p with bufs := p.bufs.map fun b => if b.cls == c && b.index == i then f b else b }

/-- The request is of work that takes its buffer itself when it goes on. -/
def PoolReq.named (r : PoolReq) : Bool := r.ref.isSome || r.update.isSome

/-- A request starts to wait (R305): the event is raised on a free count of zero, once until the class has recovered. -/
def State.waitFor (s : State) (d : DieIx) (r : PoolReq) : State :=
  let p := s.dies[d].pool
  if r.named && p.waiting.contains r then s else
  let s := s.updPool d fun p => { p with waiting := p.waiting ++ [r] }
  if s.freeCount d r.cls = 0 && p.armed[classIdx r.cls] then
    (s.updPool d fun p => { p with armed := p.armed.set (classIdx r.cls) false }).raise (dieSrc d 11)
  else s
def State.waitBuf (s : State) (d : DieIx) (c : PoolClass) (k : WorkKind) (ref : Option CmdRef) : State :=
  s.waitFor d { cls := c, kind := k, ref := ref, update := none }

/-- The waiting request that the next free buffer of a class serves: highest priority, oldest first (R31). -/
def bestReq (c : PoolClass) (rs : List PoolReq) : Option PoolReq := firstRanked (fun r => workRank r.kind) (rs.filter fun r => r.cls == c)

/-- A decoded pointer (R306): class, zero bits clear, index, byte offset. -/
def decodePtr (w : Word) : Option PoolClass × Bool × Nat × Nat :=
  let n := w.toNat
  let code := n / 2 ^ 29
  let low := n % 2 ^ 29
  match code with
  | 0 => (some .c0, decide (low < 2 ^ 24), low / 4096 % 4096, low % 4096)
  | 1 => (some .c1, decide (low < 2 ^ 23), low / 16384 % 512, low % 16384)
  | 2 => (some .c2, decide (low < 2 ^ 23), low / 65536 % 128, low % 65536)
  | 3 => (some .c3, decide (low < 2 ^ 21), low / 262144 % 8, low % 262144)
  | 4 => (some .dram, true, low / 262144, low % 262144 * 4)
  | _ => (none, true, 0, 0)

/-- The pointer of a byte of a buffer (R306). -/
def encodePtr (c : PoolClass) (i off : Nat) : Word :=
  BitVec.ofNat 32 ((classIdx c).val * 2 ^ 29 + (if c = .dram then i * 262144 + off / 4 else i * classBytes c + off))

/-- The check of R307: the cause of failure as BPM_FAULT_INFO gives it. -/
def State.ptrCheck (s : State) (d : DieIx) (ptr : Word) (len : Nat) (isWrite : Bool) : Option Nat :=
  match decodePtr ptr with
  | (none, _, _, _) => some 1
  | (some c, zeros, i, off) =>
    if !zeros then some 2
    else if s.classCount c ≤ i then some 3
    else if c = .c0 ∧ i = 0 then (if isWrite then some 6 else if 4096 < off + len then some 5 else none)
    else if ((s.dies[d].pool).find c i).isNone then some 4
    else if classBytes c < off + len then some 5
    else if c = .dram ∧ len % 4 ≠ 0 then some 7
    else none

/-- Buffer pointer check fail (R307): the first one is recorded. -/
def State.pointerFault (s : State) (d : DieIx) (ptr : Word) (cause : Nat) (user : PoolUser) : State :=
  (s.updPool d fun p => { p with fault := match p.fault with | some f => some f | none => some (ptr, cause, user),
                                 faultCount := satAdd 255 p.faultCount 1 }).raise (dieSrc d 9)

/-- Reference count fault (R308). -/
def State.refFault (s : State) (d : DieIx) : State :=
  (s.updPool d fun p => { p with refFaults := satAdd 0xFFFF p.refFaults 1 }).raise (dieSrc d 10)

/-- Update one table of a die. -/
def State.updTable (s : State) (d : DieIx) (k : MemKind) (f : CeTable → CeTable) : State :=
  s.updMem d fun m => match k with
    | .dram => { m with dram := f m.dram }
    | .sram => { m with sram := f m.sram }
def State.tableOf (s : State) (d : DieIx) (k : MemKind) : CeTable := match k with
  | .dram => s.dies[d].mem.dram
  | .sram => s.dies[d].mem.sram

def CeTable.setState (t : CeTable) (addr : BitVec 40) (st : CeState) : CeTable :=
  { t with entries := t.entries.map fun e => if e.addr == addr then { e with state := st } else e }

/-- Remap of an SRAM line to a spare (R318): with none left the entry stays HARD. -/
def State.retireLine (s : State) (d : DieIx) (addr : BitVec 40) : State :=
  if s.dies[d].mem.linesLeft = 0 then s else
  (s.updMem d fun m => { m with linesLeft := m.linesLeft - 1 }).updTable d .sram fun t =>
    { t.setState addr .retired with retired := t.retired + 1 }

/-- A user drops its reference (R308): at 0 the buffer goes to its zeroing queue, where a waiting remap takes place (R309, R318). -/
def State.dropBuf (s : State) (d : DieIx) (c : PoolClass) (i : Nat) : State :=
  match (s.dies[d].pool).find c i with
  | none => s.refFault d
  | some b =>
    if b.pinned then s
    else if b.refs = 0 then s.refFault d
    else if b.refs = 1 then
      let s := s.updPool d fun p => { p with
        bufs := p.bufs.filter fun x => !(x.cls == c && x.index == i), zeroing := p.zeroing ++ [(c, i)] }
      match b.remap with
      | some a => s.retireLine d a
      | none => s
    else s.updPool d fun p => p.updBuf c i fun x => { x with refs := x.refs - 1 }

/-- Window occupancy of a die in 4 KiB units: whole buffers (R310). -/
def State.winUsed (s : State) (d : DieIx) : Nat := (s.dies[d].pool.win.map fun w => classBytes w.2.1 / 4096).sum

/-- The window is open: hold-up in window mode (R283, R358, R359, R361). -/
def State.ackOpen (s : State) : Bool := s.keeper.hu.mode == .window
/-- HST_WINDOW.LIMIT: the record's limit, 0 in write-through (R282, R303). -/
def State.winLimit (s : State) (_d : DieIx) : Nat := if s.ackOpen then min s.power.window 6144 else 0

/-- A buffer may enter the window now (R282, R310). -/
def State.winFits (s : State) (d : DieIx) (c : PoolClass) : Bool := decide (s.winUsed d + classBytes c / 4096 ≤ s.winLimit d)

/-- Enter a buffer in the window: flagged WINDOW, one reference held (R310). Answers its identifier. -/
def State.enterWindow (s : State) (d : DieIx) (c : PoolClass) (i : Nat) : State × Nat :=
  let id := s.dies[d].pool.nextWin
  (s.updPool d fun p => { (p.updBuf c i fun b => { b with window := true }) with win := p.win ++ [(id, c, i)], nextWin := id + 1 }, id)

/-- The window releases its reference (R310). -/
def State.releaseWindow (s : State) (d : DieIx) (id : Nat) : State :=
  match s.dies[d].pool.win.find? fun w => w.1 == id with
  | none => s
  | some w =>
    let s := s.updPool d fun p => { (p.updBuf w.2.1 w.2.2 fun b => { b with window := false }) with win := p.win.filter fun x => x.1 != id }
    s.dropBuf d w.2.1 w.2.2

/-- Diapause Prepare runs, or has reported ready (R294, R363). -/
def State.preparing (s : State) : Bool := match s.sub.diapause with
  | .preparing _ => true
  | .lit | .ready | .cancelled => false
/-- Background work may start: an operational power state, no diapause prepared, and no activation (R292, R363, R364, R449 step 1). -/
def State.backgroundOk (s : State) : Bool := decide (s.keeper.sup.ps < 3) && s.fw.activating.isNone && (match s.sub.diapause with | .preparing _ | .ready => false | .lit | .cancelled => true)
def State.diapauseReady (s : State) : Bool := s.sub.diapause == .ready
/-- LPDDR5X is in self-refresh in PS4 and in diapause (R34, R312). -/
def State.selfRefresh (s : State) : Bool := s.keeper.sup.ps == 4 || s.diapauseReady

/-- Factory test mode: the strap reads 2 and the fuse is intact (R370). -/
def State.factoryMode (s : State) : Bool := s.keeper.boot.mode == 2 && s.keeper.boot.factoryFuse

end Sys2Proof.Machine
end

