-- ==== Sys2Proof/Machine/RegionOps.lean ====
section
/-! DEFINITION. Operations of a region: map, bands, journal, write sequences, read-only state (R122 to R173). -/

namespace Sys2Proof.Machine

/-! Map. -/

def State.updTab (s : State) (g : RegionIx) (f : RegionTables → RegionTables) : State := s.updRegion g fun r => { r with tab := f r.tab }
def State.updJrn (s : State) (g : RegionIx) (f : Journal → Journal) : State := s.updRegion g fun r => { r with journal := f r.journal }

/-- The value a list of pairs gives a key, else the default. -/
def entryIn (m : List (Nat × MapEntry)) (gran : Nat) : MapEntry :=
  match m.find? fun p => p.1 == gran with
  | some p => p.2
  | none => .fresh

/-- Put an entry; a fresh one is not listed. -/
def putEntry (m : List (Nat × MapEntry)) (gran : Nat) (e : MapEntry) : List (Nat × MapEntry) :=
  let rest := m.filter fun p => p.1 != gran
  if e = .fresh then rest else (gran, e) :: rest

/-- The region that serves a granule: its owner, or the owner's partner where the owner is adopted (R18, R132). An overlay entry takes precedence
also after the owner serves again, for which the spec states no return (DESIGN CHOICE, log entry 128). -/
def State.server (s : State) (gran : Nat) : RegionIx :=
  let g := granRegion gran
  let p := s.regions[partnerRegion g]
  if p.adopting || p.overlay.any fun x => x.1 == gran then partnerRegion g else g

/-- Entry of a granule in its owner's map: an unlisted one is never written, or poisoned in a segment whose image is lost (R126, R149). -/
def RegionSt.own (r : RegionSt) (gran : Nat) : MapEntry :=
  if (r.lostSegs.contains (granSegment gran)) && !(r.map.any fun p => p.1 == gran) then { state := .poisoned, band := 0, frame := 0 }
  else entryIn r.map gran

/-- Entry of a granule as region g serves it: the overlay takes precedence over the adopted map, where mapped reads as lost (R132). -/
def RegionSt.entry (r : RegionSt) (g : RegionIx) (gran : Nat) (partner : RegionSt) : MapEntry :=
  if granRegion gran = g then r.own gran
  else match r.overlay.find? fun p => p.1 == gran with
    | some p => p.2
    | none => let e := partner.own gran
      if e.state = .mapped ∨ e.state = .foldInFlight then { e with state := .lost } else e

/-- The map entry of a granule (R126, R132). -/
def State.entryOf (s : State) (gran : Nat) : MapEntry :=
  let g := s.server gran
  (s.regions[g]).entry g gran (s.regions[partnerRegion g])

/-- Write an entry of a granule: in the owner's map, or in the adopter's overlay. -/
def State.setEntry (s : State) (gran : Nat) (e : MapEntry) : State :=
  let g := s.server gran
  s.updRegion g fun r =>
    if granRegion gran = g then { r with map := putEntry r.map gran e }
    else { r with overlay := (gran, e) :: r.overlay.filter fun p => p.1 != gran }

/-- The extent that holds a granule, by its NSID (R123). -/
def extentOf (xs : List (Nat × Nat × Nat)) (gran : Nat) : Option Nat :=
  (xs.find? fun x => decide (x.2.1 * extentUnit ≤ gran) && decide (gran < (x.2.1 + x.2.2) * extentUnit)).map (·.1)

/-- The granule's segment is resident in region g (R147): an overlay entry is, the adopted map's segments where they are loaded (R132). -/
def RegionSt.isResident (r : RegionSt) (g : RegionIx) (gran : Nat) : Bool :=
  if granRegion gran = g then r.resident.contains (granSegment gran)
  else r.adoptedSegs.contains (granSegment gran) || r.overlay.any fun x => x.1 == gran

/-- The copy of a granule was given up for a dark member (R112, R166). -/
def RegionSt.isDark (r : RegionSt) (gran : Nat) : Bool := r.darkGrans.any fun x => x.1 == gran

/-- Map segments of all extents of the region: each extent unit is one segment (R123). -/
def RegionSt.segments (r : RegionSt) : List Nat := r.tab.extents.flatMap fun x => (List.range x.2.2).map (x.2.1 + ·)

/-! Bands. -/

/-- A band that nothing has used: erased, with no record. -/
def freshBand (b : Nat) : Band :=
  { num := b, phase := .erased, density := .slc, kind := .data, use := .other, stream := 0xFF, profile := 0, uncertain := false, afterDark := false,
    refreshDue := false, sealedShort := false, openOpsec := 0, openWall := none, patrolTage := 0,
    tage := Vector.replicate 8 0xFFFFFFFF#32, temp := Vector.replicate 8 none, corr := none, placed := [], nextSlot := 0, slots := 0,
    sealOrder := 0, rowsOk := [], passes := [], foldHeld := [], parityOk := [], pads := [], dirty := [], dirtyDurable := [], eraseTodo := [], eraseList := [],
    mappedRec := false, mappedDurable := false, retracted := false, intent := false, intentDurable := false, erasedRec := false, hold := none, patrolLun := 0 }

/-- Bands that carry band parity: data bands, and main-pool bands of folded swarm parity (R177). -/
def Band.carriesParity (x : Band) : Bool := x.kind == .data || (x.kind == .swarmParity && x.density != .slc)

def RegionTables.band (t : RegionTables) (b : Nat) : Band := (t.bands.find? fun x => x.num == b).getD (freshBand b)
def RegionTables.setBand (t : RegionTables) (x : Band) : RegionTables :=
  { t with bands := if t.bands.any fun y => y.num == x.num then t.bands.map fun y => if y.num == x.num then x else y else t.bands ++ [x] }
def State.band (s : State) (g : RegionIx) (b : Nat) : Band := (s.regions[g]).tab.band b
def State.updBand (s : State) (g : RegionIx) (b : Nat) (f : Band → Band) : State := s.updTab g fun t => t.setBand (f (t.band b))

/-- Parity runs that stripe records name in a band (R153). -/
def RegionSt.runs (r : RegionSt) (b : Nat) : Nat := (r.tab.stripes.filter fun x => (x.cur.map (·.1)) == some b).length
/-- Valid count of a band in granules: entries mapped, or in fold, at it, and 16,384 for each parity run (R134, R153, R155). -/
def RegionSt.valid (r : RegionSt) (b : Nat) : Nat :=
  ((r.map ++ r.overlay).filter fun p => (p.2.state == .mapped || p.2.state == .foldInFlight) && p.2.band.toNat == b).length + 16384 * r.runs b

/-- Erase count and state of a block (R160). -/
def RegionTables.block (t : RegionTables) (lun blk : Nat) : BlockRec :=
  (t.blocks.find? fun x => x.lun == lun && x.block == blk).getD { lun := lun, block := blk, state := 0, erases := 0 }
def RegionTables.setBlock (t : RegionTables) (x : BlockRec) : RegionTables :=
  { t with blocks := x :: t.blocks.filter fun y => !(y.lun == x.lun && y.block == x.block) }

/-- The block address of slot j on a LUN, by the replacement table (R175). -/
def RegionTables.blockAt (t : RegionTables) (lun j : Nat) : Nat :=
  ((t.replaced.find? fun x => x.1 == lun && x.2.1 == j).map (·.2.2)).getD j

/-- LUN and block at each position of a band. -/
def bandBlocks (geo : GeometryRec) (t : RegionTables) (b : Nat) : List (Nat × Nat) :=
  (List.range (geoW geo)).map fun u =>
    let lun := lunAt geo t.adoptions (bandSet geo b) u
    (lun, t.blockAt lun (bandSlot geo b))

/-- Mean erase count of a band's good blocks, rounded down (R155). -/
def bandE (geo : GeometryRec) (t : RegionTables) (b : Nat) : Nat :=
  let good := ((bandBlocks geo t b).map fun x => t.block x.1 x.2).filter fun x => x.state == 0
  if good.isEmpty then 0 else (good.map (·.erases)).sum / good.length

/-- Unused replacement block of a LUN, the lowest (R176). -/
def freeReplacement (geo : GeometryRec) (p : MediaProfile) (t : RegionTables) (lun : Nat) : Option Nat :=
  let first := p.blocks - replBlocks geo p
  ((List.range (replBlocks geo p)).map (first + ·)).find? fun blk =>
    (t.block lun blk).state == 0 && !(t.replaced.any fun x => x.1 == lun && x.2.2 == blk)

/-- Every position has a good block, after replacement, on a LUN in service, and its set is not evacuated (R171, R176, R194). -/
def formable (geo : GeometryRec) (p : MediaProfile) (t : RegionTables) (b : Nat) : Bool :=
  !t.evacuated.contains (bandSet geo b) && (bandBlocks geo t b).all fun x =>
    !(t.quarantined.any fun q => q.1 == x.1) && ((t.block x.1 x.2).state == 0 || (freeReplacement geo p t x.1).isSome)

/-- Band numbers of a pool (R175). -/
def poolBands (geo : GeometryRec) (p : MediaProfile) (slc : Bool) : List Nat :=
  (List.range (bandCount geo p)).filter fun b => bandInSlc geo b == slc

/-- Erased bands of a pool that can be formed. -/
def freeBands (geo : GeometryRec) (p : MediaProfile) (t : RegionTables) (slc : Bool) : List Nat :=
  (poolBands geo p slc).filter fun b => (t.band b).phase == .erased && formable geo p t b

/-- The first of a list that has the least key. -/
def argMin (key : Nat → Nat) : List Nat → Option Nat
  | [] => none
  | x :: xs => match argMin key xs with
    | none => some x
    | some y => if key y < key x then some y else some x

/-- The erased free band of lowest mean erase count of a pool, or of highest for a relocation band; lowest number first (R156). -/
def pickBand (geo : GeometryRec) (p : MediaProfile) (t : RegionTables) (slc worn : Bool) : Option Nat :=
  let fs := freeBands geo p t slc
  let top := (fs.map (bandE geo t)).foldl max 0
  argMin (fun b => if worn then top - bandE geo t b else bandE geo t b) fs

/-! Journal. -/

/-- A frame of the tail, open. -/
def openFrame (n : Nat) : JFrame := { num := n, recs := [], lowSeq := 0, closed := false, ok := #v[false, false], failed := #v[false, false], band := #v[none, none] }

/-- LOW_SEQ: the lowest write sequence whose MAP record is not in the journal (R138). -/
def RegionSt.lowSeq (r : RegionSt) : Nat :=
  (r.pend.map (·.seq) ++ r.tab.bands.flatMap fun x => (x.placed.filter fun pl => pl.src.isSome).map (·.seq)).foldl min r.tab.nextSeq

/-- Close the open frame of the tail (R139). -/
def RegionSt.closeTail (r : RegionSt) : RegionSt :=
  { r with journal := { r.journal with tail := r.journal.tail.map fun f => if f.closed then f else { f with closed := true, lowSeq := r.lowSeq } } }

/-- The tail takes no further record: 512 frames not durable, the last one closed or full (R139). -/
def Journal.full (j : Journal) : Bool :=
  decide (512 ≤ j.tail.length) && (match j.tail.getLast? with | some f => f.closed || decide (254 ≤ f.used) | none => false)

/-- Append one change to the tail. A frame has 254 records beside JHDR and JSEQ (R138); a frame that is full, or has no room for the change,
closes (R139). -/
def RegionSt.append (r : RegionSt) (x : JRec) : RegionSt :=
  let fresh (r : RegionSt) : RegionSt := { r with journal := { r.journal with
    tail := r.journal.tail ++ [{ openFrame r.journal.next with recs := [x] }], next := r.journal.next + 1, sinceCapture := r.journal.sinceCapture + 1 } }
  let r := match r.journal.tail.getLast? with
    | some f =>
      if f.closed then fresh r
      else if 254 < f.used + recSize x then fresh r.closeTail
      else { r with journal := { r.journal with tail := r.journal.tail.map fun (y : JFrame) => if y.num == f.num then { y with recs := y.recs ++ [x] } else y } }
    | none => fresh r
  match r.journal.tail.getLast? with
  | some f => if 254 ≤ f.used then r.closeTail else r
  | none => r

def State.jot (s : State) (g : RegionIx) (x : JRec) : State := s.updRegion g fun r => r.append x
/-- Append a record whose durability the region waits for: the frame closes (R139). -/
def State.jotNow (s : State) (g : RegionIx) (x : JRec) : State := s.updRegion g fun r => (r.append x).closeTail

/-! Read-only state. -/

/-- A region enters the read-only state, and with it every region of the package (R172). -/
def State.enterReadOnly (s : State) (g : RegionIx) (c : ReadOnlyCause) : State :=
  if (s.regions[g]).tab.readOnly.isSome then s else
  let s := (List.finRange 4).foldl (fun s h =>
    if (s.regions[h]).tab.readOnly.isSome then s
    else ((s.updTab h fun t => { t with readOnly := some c }).jotNow h (.readOnly c)).raise (regionSrc h 3)) s
  s.raise 482

/-- The package is read-only (R172, R173). -/
def State.readOnlyNow (s : State) : Bool := (List.finRange 4).any fun g => (s.regions[g]).tab.readOnly.isSome

/-! Write sequences. -/

/-- 2^20: the block by which sequences are reserved (R141). -/
def seqBlock : Nat := 1048576

/-- Take the next n write sequences and answer the first (R98, R141): none where the durable reserve does not hold them; crossing a multiple of
2^20 appends SEQ_RESERVE; 2^64 − 2^40 enters the read-only state. -/
def State.takeSeqs (s : State) (g : RegionIx) (n : Nat) : State × Option Nat :=
  let t := (s.regions[g]).tab
  let q := t.nextSeq
  if t.readOnly = some .sequence then (s, none)
  else if t.reserved < q + n then (s.updRegion g RegionSt.closeTail, none)
  else
    let s := s.updTab g fun t => { t with nextSeq := q + n }
    let s := if q / seqBlock < (q + n) / seqBlock then s.jot g (.seqReserve (((q + n) / seqBlock + 2) * seqBlock)) else s
    let s := if q < 2 ^ 64 - 2 ^ 40 ∧ 2 ^ 64 - 2 ^ 40 ≤ q + n then s.enterReadOnly g .sequence else s
    (s, some q)

/-- Take the next write sequence. -/
def State.takeSeq (s : State) (g : RegionIx) : State × Option Nat := s.takeSeqs g 1

/-! Thermal age. -/

/-- The retention class of an elapsed thermal age in 1/16 equivalent hours (R81). -/
def retentionClass (a : Nat) : Nat :=
  if a < 64 then 0
  else
    let j := Nat.log2 a
    let h := a / 2 ^ (j - 1) % 2
    min 31 (2 * (j - 6) + h + 1)

/-- A thermal-age snapshot of a profile: the accumulator over 225 × 65,536, held below 2^32 − 1 (R80). -/
def State.snapshot (s : State) (k : Nat) : Nat := min 0xFFFFFFFE ((s.keeper.tk.acc.toList.getD k 0) / (225 * 65536))

/-- Elapsed age of a band's eighth (R80). -/
def State.elapsed (s : State) (b : Band) (k : Fin 8) : Nat := s.snapshot b.profile - (b.tage[k]).toNat

/-- The eighth of a row: eighth k covers rows ⌊k×R/8⌋ to ⌊(k+1)×R/8⌋ − 1 (R76). -/
def eighthOf (rows row : Nat) : Fin 8 := ⟨((List.range 8).filter fun k => decide (k * rows / 8 ≤ row)).length - 1, by
  have h := List.length_filter_le (fun k => decide (k * rows / 8 ≤ row)) (List.range 8)
  simp only [List.length_range] at h
  omega⟩

/-- Page rows of a band: the wordlines of a block at each data position and parity position (R76, R102). -/
def bandRows (geo : GeometryRec) (p : MediaProfile) : Nat := p.wordlines * geoW geo

/-! Opening, sealing and placing. -/

/-- The profile index of a region's LUNs (R65). -/
def State.profileIdx (s : State) (g : RegionIx) : Nat :=
  match s.recs?, s.geo? g with
  | some r, some geo => (lunProfile (r.lanes.getD []) ((geo.setLuns.headD []).headD 0)).getD 0
  | _, _ => 0

/-- Replace the bad block of a band at a position (R176). -/
def State.replaceAt (s : State) (g : RegionIx) (geo : GeometryRec) (p : MediaProfile) (b u : Nat) : State :=
  let t := (s.regions[g]).tab
  let lun := lunAt geo t.adoptions (bandSet geo b) u
  let blk := t.blockAt lun (bandSlot geo b)
  if (t.block lun blk).state = 0 then s
  else match freeReplacement geo p t lun with
    | some n => (s.updTab g fun t => { t with replaced := (lun, bandSlot geo b, n) :: t.replaced.filter fun x => !(x.1 == lun && x.2.1 == bandSlot geo b) }).jot g
        (.blockReplace lun (bandSlot geo b) n)
    | none => s

/-- Replace the bad blocks of a band that is opened (R176). -/
def State.replaceBad (s : State) (g : RegionIx) (geo : GeometryRec) (p : MediaProfile) (b : Nat) : State :=
  (List.range (geoW geo)).foldl (fun s u => s.replaceAt g geo p b u) s

/-- Erased free bands that an opening leaves untouched: the reserves given to other uses (R169). -/
def keptBack (geo : GeometryRec) (readOnly : Bool) (kind : BandKind) (use : BandUse) (slc : Bool) : Nat :=
  let j := dflt geo.resJournal 4
  let st := dflt geo.resStaging 1
  let rt := dflt geo.resRetract 2
  if slc then
    match kind with
    | .journal => st + rt
    | .rescue | .checkpoint => j + st + rt
    | .data | .swarmParity => match use with
      | .staging => j + rt + (if readOnly then 0 else st)
      | .relocation => j + rt
      | .retractAccum => j + st
      | _ => j + st + rt
  else if use = .relocation then 0 else dflt geo.resRelocation 2

/-- A number of the geometry record with its default (R169, R170, R399). -/
def State.geoNum (s : State) (g : RegionIx) (f : GeometryRec → Nat) (d : Nat) : Nat := match s.geo? g with
  | some geo => dflt (f geo) d
  | none => d

/-- Free main-pool bands outside the relocation reserve (R169, R170). -/
def State.freeMain (s : State) (g : RegionIx) : Nat := match s.geo? g, s.regionProf? g with
  | some geo, some p => (freeBands geo p (s.regions[g]).tab false).length - dflt geo.resRelocation 2
  | _, _ => 0

/-- Free bands low (R170): once for each crossing to 4 or fewer, again only after 8. -/
def State.checkFree (s : State) (g : RegionIx) : State :=
  if (s.geo? g).isNone then s else
  let n := s.freeMain g
  let r := s.regions[g]
  let s := s.updRegion g fun r => { r with
    foldStopped := if n ≤ dflt ((s.geo? g).map (·.markUrgent) |>.getD 0) 8 then true else if 12 < n then false else r.foldStopped }
  if n ≤ dflt ((s.geo? g).map (·.markLow) |>.getD 0) 4 then
    if r.freeLow then s else (s.updRegion g fun r => { r with freeLow := true }).raise (regionSrc g 2)
  else if 8 ≤ n then s.updRegion g fun r => { r with freeLow := false } else s

/-- Open a band of a pool in a role (R156, R536): BAND_OPEN and BAND_WALL. None where no erased band is free. -/
def State.openBand (s : State) (g : RegionIx) (kind : BandKind) (use : BandUse) (d : Density) (stream : Byte) : State × Option Nat :=
  match s.geo? g, s.regionProf? g with
  | some geo, some p =>
    let slc := d == .slc
    let t := (s.regions[g]).tab
    let free := if (freeBands geo p t slc).length ≤ keptBack geo t.readOnly.isSome kind use slc then none else pickBand geo p t slc (use == .relocation)
    match free with
    | none => (s, none)
    | some b =>
      let s := s.replaceBad g geo p b
      let tk := s.keeper.tk
      let wall := if tk.wallValid then some tk.wallMs else none
      let s := s.updTab g fun t => t.setBand { freshBand b with
        phase := .opened, density := d, kind := kind, use := use, stream := stream, profile := s.profileIdx g,
        openOpsec := tk.opsec.toNat, openWall := wall }
      let s := s.jot g (.bandOpen b d (s.profileIdx g) stream tk.opsec.toNat kind)
      let s := match wall with | some w => s.jot g (.bandWall b w) | none => s
      (s.checkFree g, some b)
  | _, _ => (s, none)

/-- FLAGS of a band's write record (R75). -/
def Band.flags (b : Band) : Byte :=
  BitVec.ofNat 8 ((if b.phase = .closed then 128 else 0) + (if b.uncertain then 64 else 0) + (if b.openWall.isSome then 32 else 0) +
    (if b.corr.isSome then 16 else 0) + (if b.refreshDue then 8 else 0) + (if b.sealedShort then 4 else 0))

def State.jotFlags (s : State) (g : RegionIx) (b : Nat) : State :=
  let x := s.band g b
  s.jot g (.bandState b x.flags x.patrolTage)

/-- Values of the eighths that a band never reached: those of the last it reached (R76). -/
def fillEighths (x : Band) : Band :=
  (List.finRange 8).foldl (fun x k => if h : k.val = 0 then x else
    if x.temp[k].isNone then
      let j : Fin 8 := ⟨k.val - 1, by omega⟩
      { x with temp := x.temp.set k x.temp[j], tage := x.tage.set k x.tage[j] }
    else x) x

/-- Copies in a band that are abandoned stay at their sources: an entry in state 100 is 000 again, and a granule relocated alone is asked
for again (R73, R166, R168). -/
def State.dropCopies (s : State) (g : RegionIx) (b : Nat) (which : Placed → Bool) : State :=
  let out := (s.band g b).placed.filter fun pl => pl.src.isSome && which pl
  let s := s.updBand g b fun x => { x with placed := x.placed.filter fun pl => !(pl.src.isSome && which pl) }
  out.foldl (fun s pl => match pl.src with
    | some src =>
      let e := s.entryOf pl.gran
      if e.state = src.state ∧ e.band.toNat = src.band ∧ e.frame.toNat = src.frame then
        if e.state = .foldInFlight then s.setEntry pl.gran { e with state := .mapped }
        else if src.reclaim then s
        else s.updRegion g fun r => { r with relocNow := if r.relocNow.contains pl.gran then r.relocNow else r.relocNow ++ [pl.gran] }
      else s
    | none => s) s

/-- The page row after one of a band's rows, on the same block, will be programmed, or there is none: some frame of it is placed (R72). -/
def State.nextRowComes (s : State) (g : RegionIx) (x : Band) (row : Nat × Nat) : Bool :=
  match s.geo? g, s.regionProf? g with
  | some geo, some p =>
    let f := framesPerRow p x.density
    decide (p.wordlines ≤ row.1 + 1) || decide (((row.1 + 1) * (geoW geo - 2) + (dataPos geo x.num).idxOf row.2) * f < x.nextSlot)
  | _, _ => false

/-- Copies that a sealed band can never map are abandoned: a row of theirs has no successor (R72, R73). -/
def State.dropUnmappable (s : State) (g : RegionIx) (b : Nat) : State :=
  match s.geo? g with
  | none => s
  | some geo =>
    let x := s.band g b
    s.dropCopies g b fun pl => !((granuleRows geo b (match s.regionProf? g with | some p => framesPerRow p x.density | none => 0) pl.slot).all (s.nextRowComes g x))

/-- Seal a band: BAND_SEAL and its flags; its unpatrolled age starts here (R75, R76). -/
def State.sealBand (s : State) (g : RegionIx) (b : Nat) (short : Bool) : State :=
  if (s.band g b).phase ≠ .opened then s else
  let s := s.dropUnmappable g b
  let order := (s.regions[g]).sealSeq
  let s := s.updRegion g fun r => { r with sealSeq := order + 1 }
  let s := s.updBand g b fun x => { fillEighths x with
    phase := .closed, sealedShort := x.sealedShort || short, slots := x.nextSlot, sealOrder := order,
    patrolTage := BitVec.ofNat 32 (s.snapshot x.profile) }
  (s.jot g (.bandSeal b (s.band g b).slots)).jotFlags g b

/-- Open bands of a use, density and stream; one that awaits its resynchronisation takes nothing more (R186). -/
def RegionSt.openOf (r : RegionSt) (use : BandUse) (d : Density) (stream : Byte) : List Band :=
  r.tab.bands.filter fun x => x.phase == .opened && !r.resync.contains x.num && x.use == use && x.density == d && (use == .staging || use == .relocation || x.stream == stream)

/-- Frames of a page row of a region at a density. -/
def State.rowFrames (s : State) (g : RegionIx) (d : Density) : Nat := match s.regionProf? g with
  | some p => framesPerRow p d
  | none => 0

/-- Data slots left in a band. -/
def State.slotsLeft (s : State) (g : RegionIx) (x : Band) : Nat :=
  match s.geo? g, s.regionProf? g with
  | some geo, some p => bandDataSlots geo p (framesPerRow p x.density) - x.nextSlot
  | _, _ => 0

/-- A band with fewer than 16 data slots left is sealed (R128). -/
def State.sealIfFull (s : State) (g : RegionIx) (b : Nat) : State :=
  if s.slotsLeft g (s.band g b) < 16 then s.sealBand g b false else s

/-- Open bands of a kind of use at once: two staging bands, one relocation band for each density, one fold band for each density and
stream (R135, R157). -/
def openLimit : BandUse → Nat
  | .staging => 2
  | _ => 1

/-- The band that takes the next granule: bands with fewer than 16 slots left are sealed (R128), missing ones opened (R135), but no fold band
while folding stands (R170); of several the one with the lower next slot (DESIGN CHOICE, log entry 20). -/
def State.bandFor (s : State) (g : RegionIx) (use : BandUse) (d : Density) (stream : Byte) : State × Option Nat :=
  let short := ((s.regions[g]).openOf use d stream).filter fun x => decide (s.slotsLeft g x < 16)
  let s := short.foldl (fun s x => s.sealBand g x.num false) s
  let have' := ((s.regions[g]).openOf use d stream).length
  let may := !(use == .fold && (s.regions[g]).foldStopped)
  let s := (List.range (openLimit use - have')).foldl (fun s _ => if may then (s.openBand g .data use d stream).1 else s) s
  let xs := (s.regions[g]).openOf use d stream
  (s, argMin (fun b => (s.band g b).nextSlot) (xs.map (·.num)))

/-- Place a granule on the next 16 data slots of an open band (R70, R124, R128). -/
def State.placeIn (s : State) (g : RegionIx) (b : Nat) (mk : Nat → Nat → Placed) : State × Option Placed :=
  match s.geo? g, s.regionProf? g with
  | some geo, some p =>
    let x := s.band g b
    let f := framesPerRow p x.density
    let pl := mk x.nextSlot (slotFrame geo b f x.nextSlot)
    ((s.updBand g b fun x => { x with placed := x.placed ++ [pl], nextSlot := x.nextSlot + 16 }).sealIfFull g b, some pl)
  | _, _ => (s, none)

/-- The row that a staging band fills is completed with pad; the slots of its missing frames are never mapped (R104, R180). -/
def State.padOut (s : State) (g : RegionIx) (b : Nat) : State :=
  let x := s.band g b
  match s.geo? g with
  | none => s
  | some geo =>
    let f := s.rowFrames g x.density
    if x.phase != .opened || x.use != .staging || f = 0 || x.nextSlot % f = 0 then s else
    let p := slotPlace geo b f x.nextSlot
    let s := s.updBand g b fun x => { x with nextSlot := (x.nextSlot / f + 1) * f, pads := x.pads ++ [(p.2.1, p.1, p.2.2)] }
    (s.jot g (.bandPad b p.2.1 p.1 p.2.2)).sealIfFull g b

/-- In write-through the row is programmed as soon as no further frame for it waits (R283). -/
def State.throughRow (s : State) (g : RegionIx) (b : Nat) (stream : Byte) : State :=
  if s.ackOpen || (s.regions[g]).pend.any fun v => v.at_.isNone && v.stream == stream && v.kind != .deallocate then s else s.padOut g b

/-- Target density of a namespace (R67, R398). -/
def State.targetOf (s : State) (nsid : Nat) : Density := targetIn (s.recs?.bind (·.density)) nsid

/-! Free bands, spares, wear. -/

/-- SPARE of the main and of the SLC pool (R171), with what is not formable left out. -/
def State.spares (s : State) (g : RegionIx) : Nat × Nat :=
  match s.geo? g, s.regionProf? g, s.recs? with
  | some geo, some p, some r =>
    let t := (s.regions[g]).tab
    let n (slc : Bool) := ((poolBands geo p slc).filter fun b => formable geo p t b).length
    (n false - mainNeeded geo p (r.namespaces.getD []) s.targetOf - dflt geo.resRelocation 2, n true - slcNeeded geo)
  | _, _, _ => (0, 0)

/-- A pool without spare places the package in the read-only state (R172). -/
def State.checkSpare (s : State) (g : RegionIx) : State :=
  if (s.geo? g).isNone then s else
  let sp := s.spares g
  if sp.1 = 0 ∨ sp.2 = 0 then s.enterReadOnly g .spare else s

/-- Every region judges its spare anew: namespaces or target densities have changed (R172). -/
def State.checkSpares (s : State) : State := (List.finRange 4).foldl State.checkSpare s

/-- Spread limit L of a pool: that of the highest density it holds (R158), taken as the highest that the LUNs' profile supports, whatever
bands the pool now has (DESIGN CHOICE, log entry 127). -/
def State.spreadLimit (s : State) (g : RegionIx) (slc : Bool) : Nat :=
  let ds := match s.regionProf? g with | some p => p.densities | none => []
  let d : Density := if slc then .slc else if ds.contains .hlc then .hlc else if ds.contains .plc then .plc else if ds.contains .qlc then .qlc else .tlc
  let rec' := match s.recs? with | some r => (r.density.map fun x => x.spread.getD (densityIdx d).val 0).getD 0 | none => 0
  dflt rec' (match d with | .slc => 2000 | .tlc => 500 | .qlc => 150 | .plc => 80 | .hlc => 40)

/-- Wear spread of a pool: highest minus lowest mean erase count of its bands (R158). -/
def State.spread (s : State) (g : RegionIx) (slc : Bool) : Nat :=
  match s.geo? g, s.regionProf? g with
  | some geo, some p =>
    let t := (s.regions[g]).tab
    let es := ((poolBands geo p slc).filter fun b => (bandBlocks geo t b).any fun x => (t.block x.1 x.2).state == 0).map (bandE geo t)
    es.foldl max 0 - es.foldl min (es.headD 0)
  | _, _ => 0

/-- Wear spread exceeded (R159): once for each crossing of L, and again only after L × 3/4. -/
def State.checkWear (s : State) (g : RegionIx) : State :=
  [(0, false), (1, true)].foldl (fun (s : State) (x : Fin 2 × Bool) =>
    let sp := s.spread g x.2
    let l := s.spreadLimit g x.2
    let wide := (s.regions[g]).wearOver[x.1]
    if l < sp then
      if wide then s else (s.updRegion g fun r => { r with wearOver := r.wearOver.set x.1 true }).raise (regionSrc g 7)
    else if sp * 4 ≤ l * 3 then s.updRegion g fun r => { r with wearOver := r.wearOver.set x.1 false }
    else s) s

end Sys2Proof.Machine
end

