-- ==== Sys2Proof/Machine/Frames.lean ====
section
/-! DEFINITION. Frames that are read: where they lie, the Antenna's requests, and how a read begins (R2, R84, R87 to R89, R93, R100, R102, R103,
R112, R127, R193, R194). -/

namespace Sys2Proof.Machine

/-- Region and its local index of a LUN number: LUNs of a region lie on its six lanes (R2). -/
def lunRegion (lun : Nat) : RegionIx := ⟨lun / 192 % 4, Nat.mod_lt _ (by decide)⟩
/-- The lane of a LUN number, where it names one. -/
def lunLane (lun : Nat) : Option LaneIx := laneIx? (lun / 32)
/-- The lane of a LUN lies in an open shadow: what it reports counts toward nothing (R467). -/
def State.lunShaded (s : State) (lun : Nat) : Bool := (lunLane lun).any fun l => s.shaded (.lane l)
/-- The cluster of a LUN number: 64 LUNs lie on its two lanes (R2). -/
def lunCluster (lun : Nat) : Option ClusterIx := clusterIx? (lun / 64)

/-- A LUN is quarantined (R189). -/
def State.lunQuarantined (s : State) (lun : Nat) : Bool := (s.regions[lunRegion lun]).tab.quarantined.any fun q => q.1 == lun

/-- LUNs of a band on a cluster's lanes, in ascending position order (R90). -/
def State.bandLunsOn (s : State) (g : RegionIx) (c : ClusterIx) (b : Nat) : List (Nat × Nat) := match s.geo? g with
  | none => []
  | some geo => ((List.range (geoW geo)).map fun u => (u, lunAt geo (s.regions[g]).tab.adoptions (bandSet geo b) u)).filter fun x => decide (x.2 / 64 = c.val)

/-! Antenna requests (R88, R89, R93). -/

/-- The cluster of a run (R88). -/
def State.runCluster (s : State) (run : AntRun) : Option ClusterIx :=
  let g := run.region
  match run.rank, run.failedRow, s.geo? g with
  | 1, some row, some geo => lunCluster (lunAt geo (s.regions[g]).tab.adoptions (bandSet geo run.band) (row % geoW geo))
  | _, _, _ =>
    let cs := clustersOfRegion g
    let k := run.band % 3
    (cs.drop k ++ cs.take k).find? fun c => !(s.bandLunsOn g c run.band).isEmpty

/-- A pending entry that the rank may take is free (R89): 64 in all, 48 for ranks 2 to 4. -/
def antRoom (pending : List AntRun) (rank : Nat) : Bool :=
  let r1 := (pending.filter fun x => x.rank == 1).length
  if rank = 1 then decide (pending.length < 64) else decide (pending.length < 64) && decide (pending.length - r1 + (r1 - 16) < 48)

/-- Of a list of runs the one of highest rank, the oldest of equals. -/
def bestRun : List AntRun → Option AntRun := firstRanked (·.rank)

/-- A run of the band is queued or running (R93). -/
def sameBand (g : RegionIx) (b : Nat) (x : AntRun) : Bool := x.region == g && x.band == b

/-- Put a run where it belongs: the Antenna's entry, or the region's waiting list. -/
def State.placeRun (s : State) (run : AntRun) : State :=
  match s.runCluster run with
  | none => s
  | some c =>
    if antRoom s.clusters[c].antPending run.rank then s.updCluster c fun x => { x with antPending := x.antPending ++ [run] }
    else s.updRegion run.region fun r => { r with antWaiting := r.antWaiting ++ [run] }

/-- Waiting requests enter the Antenna as entries free, in rank order, oldest first (R89). -/
def State.admitRuns (s : State) (g : RegionIx) : Nat → State
  | 0 => s
  | n + 1 =>
    let ok (x : AntRun) : Bool := match s.runCluster x with
      | some c => antRoom s.clusters[c].antPending x.rank
      | none => true
    match bestRun ((s.regions[g]).antWaiting.filter ok) with
    | none => s
    | some x => ((s.updRegion g fun r => { r with antWaiting := r.antWaiting.erase x }).placeRun x).admitRuns g n

/-- A run of the band runs, is pending or waits in the region (R93). -/
def State.hasRun (s : State) (g : RegionIx) (b : Nat) : Bool :=
  ((clustersOfRegion g).any fun c => (s.clusters[c].antenna.map (sameBand g b)).getD false || s.clusters[c].antPending.any (sameBand g b)) ||
    (s.regions[g]).antWaiting.any (sameBand g b)

/-- A run, wherever it stands, takes the higher rank of the two and keeps its place (R89, R93). -/
def State.raiseRun (s : State) (g : RegionIx) (b rank : Nat) : State :=
  let up (x : AntRun) : AntRun := if sameBand g b x then { x with rank := min x.rank rank } else x
  let s := (clustersOfRegion g).foldl (fun s c => s.updCluster c fun x => { x with antenna := x.antenna.map up, antPending := x.antPending.map up }) s
  s.updRegion g fun r => { r with antWaiting := r.antWaiting.map up }

/-- A fresh identity of the model's own. -/
def State.freshId (s : State) : State := s.updSub fun x => { x with nextReq := x.nextReq + 1 }

/-- ANTENNA_RUN_REQUEST (R89, R93): a second trigger joins the run that the band has; else it takes a place. -/
def State.requestRun (s : State) (g : RegionIx) (b rank : Nat) (failedRow : Option Nat) : State :=
  if s.hasRun g b then (s.raiseRun g b rank).admitRuns g 64
  else s.freshId.placeRun { id := s.sub.nextReq, region := g, band := b, rank := rank, failedRow := failedRow, plan := [], abandoned := false }

/-- Descriptor class of a run's sweeps (R89). -/
def AntRun.cls (x : AntRun) : Nat := if x.rank ≤ 2 then 0 else 3

/-- The oldest band that is marked uncertain and has no run yet gets a background run (R87). -/
def State.backgroundRun (s : State) (g : RegionIx) : State :=
  let bs := ((s.regions[g]).tab.bands.filter fun x => x.uncertain && x.phase != .erased && x.phase != .erasing && !s.hasRun g x.num).map (·.num)
  match argMin (fun b => (s.band g b).openOpsec) bs with
  | some b => s.requestRun g b 4 none
  | none => s

/-! Places of bytes in a page row (R97, R102). -/

/-- Bytes of a frame on media. -/
def frameBytes (p : MediaProfile) (d : Density) : Nat := match densEntry p d with
  | some e => 4128 + e.parity
  | none => 0

/-- Page, plane and column of the byte at an offset of a page row (R102). -/
def bytePlace (p : MediaProfile) (o : Nat) : Nat × Nat × Nat := (o / (p.planes * p.pageBytes), o / p.pageBytes % p.planes, o % p.pageBytes)

/-- The pages and planes that frame k of a row lies on, each with the first column and the length there. -/
def framePieces (p : MediaProfile) (d : Density) (k : Nat) : List (Nat × Nat × Nat × Nat) :=
  let n := frameBytes p d
  let o := k * n
  if p.pageBytes = 0 ∨ n = 0 then [] else
  (List.range ((o + n - 1) / p.pageBytes - o / p.pageBytes + 1)).map fun i =>
    let a := max o ((o / p.pageBytes + i) * p.pageBytes)
    let z := min (o + n) ((o / p.pageBytes + i + 1) * p.pageBytes)
    ((bytePlace p a).1, (bytePlace p a).2.1, (bytePlace p a).2.2, z - a)

/-- PRBS31, x^31 + x^28 + 1, one bit at a time: the register and the bit that leaves it. -/
def prbs31 (x : BitVec 31) : BitVec 31 × Bool :=
  let b := x.getLsbD 30 != x.getLsbD 27
  ((x <<< 1) ||| (if b then 1 else 0), b)
def prbsBits : Nat → BitVec 31 → List Bool
  | 0, _ => []
  | n + 1, x => (prbs31 x).2 :: prbsBits n (prbs31 x).1

/-- The pad that ends a page row (R102): its offset, and n bits of the sequence seeded with the band number; the register's bit order is the
model's (DESIGN CHOICE, log entry 126). -/
def rowPadStart (p : MediaProfile) (d : Density) : Nat := framesPerRow p d * frameBytes p d
def rowPadBits (b n : Nat) : List Bool := prbsBits n (BitVec.ofNat 31 b)

/-! Climbs. -/

def State.updClimb (s : State) (c : ClusterIx) (id : Nat) (f : Climb → Climb) : State :=
  s.updCluster c fun x => { x with climbs := x.climbs.map fun k => if k.req.id == id then f k else k }
def State.climb? (s : State) (c : ClusterIx) (id : Nat) : Option Climb := s.clusters[c].climbs.find? fun k => k.req.id == id

/-- Page row of a frame, w × W + u (R103). -/
def State.reqRow (s : State) (r : FrameReq) : Nat :=
  let f := s.rowFrames r.region (s.band r.region r.band).density
  if f = 0 then 0 else r.frame / f

/-! Erased positions (R184, R193, R194). -/

/-- Position u of a band is at a spare whose rebuild has not reached band row w (R193). -/
def notRebuilt (geo : GeometryRec) (t : RegionTables) (b w u : Nat) : Bool :=
  t.adoptions.any fun a => a.set == bandSet geo b && a.position == u && a.left.any fun x => x.1 == b && decide (x.2 ≤ w)

/-- A position that no read serves at a frame slot: its LUN quarantined, its block not yet rebuilt, or its slot lost
(DEDUCED, log entry 115). -/
def State.slotErased (s : State) (geo : GeometryRec) (g : RegionIx) (b f w u k : Nat) : Bool :=
  let t := (s.regions[g]).tab
  s.lunQuarantined (lunAt geo t.adoptions (bandSet geo b) u) || notRebuilt geo t b w u || t.slotsLost.contains (b, frameIndex geo f w u k)

/-- A read of the frame goes to ladder step 5 at once (R193, R194). -/
def State.frameErased (s : State) (r : FrameReq) : Bool := match s.geo? r.region with
  | some geo =>
    let f := s.rowFrames r.region (s.band r.region r.band).density
    f != 0 && s.slotErased geo r.region r.band f (s.reqRow r / geoW geo) (s.reqRow r % geoW geo) (r.frame % f)
  | none => false

/-- The page row of a frame is readable (R72): its last pass completed OK. Bands without a write record have no such marks (R531). -/
def State.rowReadable (s : State) (r : FrameReq) : Bool := match s.geo? r.region with
  | some geo =>
    let x := s.band r.region r.band
    let w := s.reqRow r / geoW geo
    let u := s.reqRow r % geoW geo
    let p := parityPos geo r.band
    r.who == .regionMeta || x.rowsOk.contains (w, u) || (u == p.1 && x.parityOk.contains (w, 0)) || (u == p.2 && x.parityOk.contains (w, 1))
  | none => false

/-- The cluster that a frame's climb belongs to: the one whose lanes hold it, else, for a frame of lanes that its region does not have, the
region's first (R132). -/
def reqCluster (r : FrameReq) : ClusterIx :=
  let first : ClusterIx := ⟨3 * r.region.val, by omega⟩
  match lunCluster r.lun with
  | some c => if regionOfCluster c = r.region then c else first
  | none => first

/-- A new climb: its step-1 read is wanted. -/
def newClimb (r : FrameReq) : Climb :=
  { req := r, step := 1, joined := [], crcFailed := false, corrected := 0, vector := [], integrity := false, phase := .wanted, ptr := 0, stopping := false, darkWait := none }

def Climb.failed (k : Climb) : Bool := k.phase == .failed

def State.addClimb (s : State) (c : ClusterIx) (k : Climb) : State := s.updCluster c fun x => { x with climbs := x.climbs ++ [k] }

/-- A climb of the same frame is in progress (R112). -/
def sameFrame (r : FrameReq) (k : Climb) : Bool :=
  k.req.region == r.region && k.req.band == r.band && k.req.frame == r.frame && k.req.lost == r.lost

/-- A further requester joins a climb; one that was stopping goes on for the newcomer alone (R112). -/
def Climb.join (k : Climb) (r : FrameReq) : Climb :=
  if k.stopping then { k with req := { r with id := k.req.id }, joined := [], stopping := false } else { k with joined := k.joined ++ [r] }

/-- A frame is wanted (R72, R84, R87, R89, R108, R112, R127, R193, R194): it joins the climb of the same frame; a frame of a lost granule goes to
step 6; that of an erased position or of a row that is not readable goes to step 5 at once; on an uncertain band it waits for the Antenna. -/
def State.wantFrame (s : State) (r : FrameReq) : State :=
  let r := { r with id := s.sub.nextReq }
  let s := s.freshId
  let c := reqCluster r
  if s.clusters[c].climbs.any (sameFrame r) then
    s.updCluster c fun x => { x with climbs := x.climbs.map fun k => if sameFrame r k then k.join r else k }
  else
    let b := s.band r.region r.band
    if r.lost then s.addClimb c { newClimb r with step := 5, phase := .failed }
    else if s.frameErased r || !s.rowReadable r then s.addClimb c { newClimb r with phase := .failed }
    else if r.who == .regionMeta then s.addClimb c (newClimb r)
    else if b.uncertain then (s.addClimb c { newClimb r with phase := .run }).requestRun r.region r.band 2 none
    else
      let s := s.addClimb c (newClimb r)
      if b.afterDark then (s.updBand r.region r.band fun x => { x with afterDark := false }).requestRun r.region r.band 3 none else s

/-- The frame failed its present step. One whose requesters are all withdrawn ends with the step (R112). -/
def State.failStep (s : State) (c : ClusterIx) (k : Climb) : State :=
  if k.stopping then s.updCluster c fun x => { x with climbs := x.climbs.filter fun y => y.req.id != k.req.id }
  else s.updClimb c k.req.id fun y => { y with phase := .failed }

/-- Reads that the lane of a cluster did not deliver: their steps have failed (R112, R190). -/
def State.readsFailed (s : State) (c : ClusterIx) (ids : List Nat) : State :=
  ids.foldl (fun s id => match s.climb? c id with
    | some k => if k.phase == .reading then s.failStep c k else s
    | none => s) s

/-- One sweep of the run that a cluster has in progress changes. -/
def State.updSweep (s : State) (c : ClusterIx) (run : Nat) (f : AntRun → AntRun) : State :=
  s.updCluster c fun x => { x with antenna := x.antenna.map fun a => if a.id = run then f a else a }

/-- A sweep failed: its sample gives no values (R93). -/
def AntRun.sweepFailed (a : AntRun) (i : Nat) : AntRun :=
  match a.plan[i]? with
  | some p => { a with plan := a.plan.map fun q => if q.sample = p.sample then { q with got := .failed } else q }
  | none => a

/-- A quarantined LUN (R112): the reads from it that are not delivered yet, and what stands at steps 2 to 4, have failed. -/
def State.climbsFail (s : State) (lun : Nat) : State :=
  match lunCluster lun with
  | none => s
  | some c =>
    (s.clusters[c].climbs.filter fun k => k.req.lun == lun && !k.failed && decide (k.step ≤ 4) &&
      (k.phase == .run || k.phase == .wanted || k.phase == .reading || decide (2 ≤ k.step))).foldl (fun s k => s.failStep c k) s

/-! Readers (R112). -/

/-- The requesters of a climb that are not withdrawn (R112). With none left it ends at once where no step is under way, else at the end of its
step; withdrawn ones receive nothing. -/
def Climb.stop (k : Climb) (out : FrameReq → Bool) : Option Climb :=
  match (k.req :: k.joined).filter fun r => !out r with
  | [] => if k.phase == .reading || k.phase == .arrived || k.phase == .decoding || k.phase == .asked then some { k with stopping := true } else none
  | r :: rest => some { k with req := { r with id := k.req.id }, joined := rest }

/-- Requests are withdrawn: what was delivered for them is dropped, and their climbs stop at the end of their step (R112). -/
def State.endAsks (s : State) (out : FrameReq → Bool) : State :=
  (List.finRange 12).foldl (fun s c =>
    if s.clusters[c].climbs.isEmpty && s.clusters[c].results.isEmpty then s else s.updCluster c fun x => { x with
      climbs := x.climbs.filterMap fun k => k.stop out,
      results := x.results.filter fun r => !out r.req }) s

/-- Host abort, controller reset or function-level reset (R112). -/
def State.stopClimbs (s : State) (which : CmdRef → Bool) : State := s.endAsks fun r => (r.ref.map which).getD false

/-! Frames of a granule (R103, R128). -/

/-- Data slot of a frame index of a band: the inverse of slotFrame on data positions. -/
def frameSlot (geo : GeometryRec) (b f frame : Nat) : Nat :=
  let row := frame / max 1 f
  (row / geoW geo * (geoW geo - 2) + (dataPos geo b).idxOf (row % geoW geo)) * f + frame % max 1 f

/-- The region whose bands an entry names: the granule's server, or its owner where the adopter reads the partner's map (R127, R132). -/
def State.entryHome (s : State) (gran : Nat) : RegionIx :=
  let g := s.server gran
  if granRegion gran = g || (s.regions[g]).overlay.any fun p => p.1 == gran then g else granRegion gran

/-- The request for frame FIG of a granule at the place that an entry names. -/
def State.reqFor (s : State) (gran : Nat) (fig : Fin 16) (who : Requester2) (ref : Option CmdRef) (e : MapEntry) : FrameReq :=
  let h := s.entryHome gran
  let b := e.band.toNat
  let at_ : Nat × Nat := match s.geo? h with
    | some geo =>
      let f := s.rowFrames h (s.band h b).density
      let k := slotFrame geo b f (frameSlot geo b f e.frame.toNat + fig.val)
      (k, lunAt geo (s.regions[h]).tab.adoptions (bandSet geo b) (k / max 1 f % geoW geo))
    | none => (e.frame.toNat, 0)
  { id := 0, who := who, region := s.server gran, band := b, frame := at_.1, gran := gran, fig := fig, lun := at_.2, base := e.frame.toNat,
    lost := e.state == .lost, ref := ref }
/-- The request for frame FIG of a granule as its entry stands. -/
def State.frameReq (s : State) (gran : Nat) (fig : Fin 16) (who : Requester2) (ref : Option CmdRef) : FrameReq :=
  s.reqFor gran fig who ref (s.entryOf gran)

/-- The granule whose frames lie at a frame index of a band, and which of its 16 frames is there (R103, R128). -/
def State.frameAt (s : State) (g : RegionIx) (b frame : Nat) : Option (Placed × Fin 16) :=
  match s.geo? g with
  | none => none
  | some geo =>
    let f := s.rowFrames g (s.band g b).density
    if f = 0 ∨ !(dataPos geo b).contains (frame / f % geoW geo) then none else
    let k := frameSlot geo b f frame
    (s.band g b).placed.findSome? fun pl => if h : pl.slot ≤ k ∧ k < pl.slot + 16 then some (pl, ⟨k - pl.slot, by omega⟩) else none

/-- The region in whose bands a request's frame lies (R132). -/
def State.reqHome (s : State) (r : FrameReq) : RegionIx := if r.lost then s.entryHome r.gran else r.region

/-- What the frame of a request holds. A frame that no granule has, a parity frame or pad, is of no reader's account. -/
def State.reqUnit (s : State) (r : FrameReq) : Unit4K := match s.frameAt (s.reqHome r) r.band r.frame with
  | some (pl, i) => pl.units[i]
  | none => { plain := 0, key := 0, poisoned := false }

/-- GRANULE, FIG and NSID of the frame are those that the map entry implies (R100). -/
def State.frameMatches (s : State) (r : FrameReq) : Bool := match s.frameAt (s.reqHome r) r.band r.frame with
  | some (pl, i) => pl.gran == r.gran && i == r.fig && pl.nsid == (extentOf (s.regions[granRegion r.gran]).tab.extents r.gran).getD pl.nsid
  | none => false

/-- The entry still names the place that a request was looked up at. -/
def State.entryNames (s : State) (r : FrameReq) : Bool :=
  let e := s.entryOf r.gran
  decide (e.band.toNat = r.band) && decide (e.frame.toNat = r.base) && (match e.state with
    | .mapped | .foldInFlight | .reserved _ => !r.lost
    | .lost => r.lost
    | .deallocated | .never | .poisoned => false)

/-- Frames of a granule are wanted. One whose entry holds a reserved state begins as a map integrity fault (R130). -/
def State.wantFigs (s : State) (gran : Nat) (figs : List (Fin 16)) (who : Requester2) (ref : Option CmdRef) : State :=
  match (s.entryOf gran).state with
  | .reserved _ => figs.foldl (fun s f =>
      let r := { s.frameReq gran f who ref with id := s.sub.nextReq }
      s.freshId.addClimb (reqCluster r) { newClimb r with phase := .failed, integrity := true }) s
  | _ => figs.foldl (fun s f => s.wantFrame (s.frameReq gran f who ref)) s

/-- A granule whose data lies on media: its frames are read (R127). -/
def onMedia (e : MapEntry) : Bool := match e.state with
  | .mapped | .foldInFlight | .lost | .reserved _ => true
  | .deallocated | .never | .poisoned => false

/-- The request is that of a reader for FIG of a granule. -/
def isAsk (gran : Nat) (fig : Fin 16) (who : Requester2) (ref : Option CmdRef) (r : FrameReq) : Bool :=
  r.gran == gran && r.fig == fig && r.who == who && r.ref == ref

/-- What was delivered to a reader for FIG of a granule. -/
def State.delivered? (s : State) (gran : Nat) (fig : Fin 16) (who : Requester2) (ref : Option CmdRef) : Option FrameResult :=
  (clustersOfRegion (s.server gran)).findSome? fun c => s.clusters[c].results.find? fun x => isAsk gran fig who ref x.req

/-- A reader has asked for FIG of a granule: it is delivered, or climbs. -/
def State.askedFor (s : State) (gran : Nat) (fig : Fin 16) (who : Requester2) (ref : Option CmdRef) : Bool :=
  (s.delivered? gran fig who ref).isSome || (clustersOfRegion (s.server gran)).any fun c =>
    s.clusters[c].climbs.any fun k => !k.stopping && (k.req :: k.joined).any (isAsk gran fig who ref)

/-- All 16 frames of a granule are wanted for a copy. -/
def State.wantCopy (s : State) (gran : Nat) (who : Requester2) : State := s.wantFigs gran (List.finRange 16) who none

end Sys2Proof.Machine
end

