-- ==== Sys2Proof/Machine/RegionWork.lean ====
section
/-! DEFINITION. What a region does with the results of its lanes: rows, copies, failures, quarantine, spares, erases (R70 to R76, R139, R140,
R158 to R162, R183 to R195, R532). -/

namespace Sys2Proof.Machine

/-- Whether a record is durable: no frame of the tail holds it (R139). -/
def RegionSt.durable (r : RegionSt) (x : JRec) : Bool := !(r.journal.tail.any fun f => f.recs.contains x)

/-- The set and position that a LUN holds, spares included (R174, R191). -/
def positionOf (geo : GeometryRec) (t : RegionTables) (lun : Nat) : Option (Nat × Nat) :=
  ((List.range geo.sets).flatMap fun st => (List.range (geoW geo)).map fun u => (st, u)).find? fun x => lunAt geo t.adoptions x.1 x.2 == lun

/-! Mapping. -/

/-- The MAP record of a change of a granule's entry (R138). -/
def mapRec (gran : Nat) (new old : MapEntry) (cas : Bool) : JRec := .map gran new cas (old.state == .mapped) (if old.state == .mapped then old.band.toNat else 0)

/-- Set a granule's entry and append its MAP record. -/
def State.remap (s : State) (g : RegionIx) (gran : Nat) (new : MapEntry) (cas : Bool) : State :=
  let old := s.entryOf gran
  (s.setEntry gran new).jot g (mapRec gran new old cas)

def mappedAt (b f : Nat) : MapEntry := { state := .mapped, band := BitVec.ofNat 15 b, frame := BitVec.ofNat 22 f }

/-- The compare-and-set of R72 and R161: the entry still holds the state and the place that the copy began with, 100 for a fold and 000 for a
relocation. One that succeeds for a reclamation slot counts as relocated (R163). -/
def State.compareAndSet (s : State) (g : RegionIx) (pl : Placed) (b : Nat) (src : CopySrc) : State :=
  let e := s.entryOf pl.gran
  if e.state = src.state ∧ e.band.toNat = src.band ∧ e.frame.toNat = src.frame then
    let s := s.remap g pl.gran (mappedAt b pl.frame) true
    if src.reclaim then s.updRegion g fun r => { r with slots := r.slots.map fun q => q.map fun q => if q.band = src.band then { q with relocated := q.relocated + 1 } else q }
    else s
  else s

/-- The band reaches valid count zero under reclamation: RECLAIM_MAPPED (R161 step 3, R163). -/
def State.checkReclaimed (s : State) (g : RegionIx) (b : Nat) : State :=
  let r := s.regions[g]
  let x := s.band g b
  match (List.finRange 2).findSome? fun k => (r.slots[k]).bind fun q => if q.band = b then some q else none with
  | some q =>
    if r.valid b = 0 && !x.mappedRec && x.kind != .swarmParity then
      (s.updBand g b fun x => { x with mappedRec := true }).jotNow g (.reclaimMapped b q.relocated)
    else s
  | none => s

/-- Page rows of the band that are readable now and mappable: the next wordline of the block is done too, or there is none (R72). -/
def rowMappable (p : MediaProfile) (x : Band) (row : Nat × Nat) : Bool :=
  x.rowsOk.contains row && (x.rowsOk.contains (row.1 + 1, row.2) || decide (p.wordlines ≤ row.1 + 1))

/-- The first row of an eighth that completes its last pass, a parity row too, gives the eighth its snapshot and temperature (R76). -/
def State.stampEighth (s : State) (g : RegionIx) (b row : Nat) : State :=
  match s.geo? g, s.regionProf? g with
  | some geo, some p =>
    let x := s.band g b
    let k := eighthOf (bandRows geo p) row
    if x.temp[k].isSome then s else
      let tage := BitVec.ofNat 32 (s.snapshot x.profile)
      let temp := s.keeper.tk.mediaTemp
      (s.updBand g b fun x => { x with tage := x.tage.set k tage, temp := x.temp.set k (some temp) }).jot g (.bandEighth b k.val tage temp)
  | _, _ => s

/-- The pending update that a placed granule carries takes effect: its MAP record, then its window entry and the buffer of its
ciphertext are released (R20, R125, R139). -/
def State.mapUpdate (s : State) (g : RegionIx) (pl : Placed) (b : Nat) : State :=
  match (s.regions[g]).pend.find? fun u => u.gran == pl.gran && u.seq == pl.seq && u.at_ == some (b, pl.frame) with
  | none => s
  | some u =>
    let old := s.entryOf pl.gran
    let s := s.remap g pl.gran (mappedAt b pl.frame) false
    let s := if u.win.isNone then s.updRegion g RegionSt.closeTail else s
    let s := s.updRegion g fun r => { r with pend := r.pend.filter fun v => v.seq != u.seq, watch := r.watch.filter fun w => w.1 != pl.gran }
    let s := match u.win with | some (d, id) => s.releaseWindow d id | none => s
    let s := match u.cipher with | some (d, c, i) => s.dropBuf d c i | none => s
    if old.state == .mapped || old.state == .foldInFlight then s.checkReclaimed g old.band.toNat else s

/-- Effects of a page row's last pass (R72, R76, R310): the eighth's snapshot, release of window entries, mapping. -/
def State.rowDone (s : State) (g : RegionIx) (b w u : Nat) : State :=
  match s.geo? g, s.regionProf? g with
  | some geo, some p =>
    let x := s.band g b
    let f := framesPerRow p x.density
    let s := (s.updBand g b fun x => { x with rowsOk := (w, u) :: x.rowsOk }).stampEighth g b (w * geoW geo + u)
    let x := s.band g b
    let rows (pl : Placed) := granuleRows geo b f pl.slot
    -- The staging program reports OK: map entry and MAP record, then the window entry releases (R20 steps 9 and 10, R139, R310).
    let s := (x.placed.filter fun pl => pl.src.isNone && (rows pl).all x.rowsOk.contains).foldl (fun s pl => s.mapUpdate g pl b) s
    -- Copies become mappable (R72, R161 steps 2 and 3).
    x.placed.foldl (fun s pl => match pl.src with
      | some src => if (rows pl).all (rowMappable p x) then
          let s := s.compareAndSet g pl b src
          let s := s.updBand g b fun y => { y with placed := y.placed.map fun q => if q.slot == pl.slot then { q with src := none } else q }
          s.checkReclaimed g src.band
        else s
      | none => s) s
  | _, _ => s

/-- Accumulator memory of a cluster (R182): 12 MiB. -/
def accMemory : Nat := 12 * 2 ^ 20

/-- Memory that a band row takes in the accumulator of each cluster of its region (R182). -/
def State.accRowBytes (s : State) (g : RegionIx) (b : Nat) : Nat := 2 * s.rowFrames g (s.band g b).density * 4128

/-- Accumulator memory that the open rows of a cluster take. -/
def State.accUsed (s : State) (c : ClusterIx) : Nat :=
  (s.clusters[c].accRows.map fun r => s.accRowBytes (regionOfCluster c) r.band).sum

/-- Accumulations of a region's clusters end: those that `p` names, a band and a row. -/
def State.accFree (s : State) (g : RegionIx) (p : Nat × Nat → Bool) : State :=
  (clustersOfRegion g).foldl (fun s c => s.updCluster c fun x => { x with
    accRows := x.accRows.filter fun r => !p (r.band, r.row), accRebuild := x.accRebuild.filter fun r => !p r }) s

/-- Effects of a parity page row (R182, R183, R185): once both rows of every band row that a dirty bit covers are readable, the bit clears. -/
def State.parityDone (s : State) (g : RegionIx) (b w k : Nat) : State :=
  match s.geo? g, s.regionProf? g with
  | some geo, some p =>
    let u := if k = 0 then (parityPos geo b).1 else (parityPos geo b).2
    let s := (s.updBand g b fun x => { x with parityOk := (w, k) :: x.parityOk }).stampEighth g b (w * geoW geo + u)
    let x := s.band g b
    let s := if x.parityOk.contains (w, 0) && x.parityOk.contains (w, 1) then s.accFree g (· == (b, w)) else s
    let f := framesPerRow p x.density
    let rowsOf (bit : Nat) := (List.range p.wordlines).filter fun r => decide (r * f / 256 ≤ bit) && decide (bit ≤ ((r + 1) * f - 1) / 256)
    let clear := x.dirty.filter fun bit => (rowsOf bit).all fun r => x.parityOk.contains (r, 0) && x.parityOk.contains (r, 1)
    clear.foldl (fun s bit => (s.updBand g b fun x => { x with dirty := x.dirty.filter (· != bit), dirtyDurable := x.dirtyDurable.filter (· != bit) }).jot g (.dirty b bit false)) s
  | _, _ => s

/-- The DRAM fold buffers that rows of a band hold are released (R71). -/
def State.releaseFold (s : State) (g : RegionIx) (b : Nat) (which : Nat → Nat → Bool) : State :=
  let out := (s.band g b).foldHeld.filter fun x => which x.1 x.2.1
  let s := s.updBand g b fun x => { x with foldHeld := x.foldHeld.filter fun y => !which y.1 y.2.1 }
  out.foldl (fun s x => s.dropBuf x.2.2.1 .dram x.2.2.2) s

/-! Folding and copying. -/

/-- Staging bands in use (R69). -/
def RegionSt.stagingUse (r : RegionSt) : Nat := (r.tab.bands.filter fun x => x.use == .staging && x.phase != .erased).length

/-- Percent marks of the density policy (R69, R398). -/
def State.foldMarks (s : State) : Nat × Nat :=
  match s.recs?.bind (·.density) with
  | some d => (dflt d.foldHigh 50, dflt d.foldLow 25)
  | none => (50, 25)

/-- Host work is present: a command lies in a slot (R69). -/
def State.hostWork (s : State) : Bool := !(s.dies[0].host.slots.isEmpty && s.dies[1].host.slots.isEmpty)

/-- The low mark is reached with host work present: the region stops folding (R69). -/
def State.foldEnds (s : State) (g : RegionIx) : Bool := match s.geo? g with
  | some geo => s.hostWork && decide ((s.regions[g]).stagingUse * 100 ≤ geo.bandsStaging * s.foldMarks.2)
  | none => true

/-- Copies go on: no read-only state, no PS3 or PS4, no diapause being prepared (R166, R173, R292). -/
def State.copiesRun (s : State) : Bool := !s.readOnlyNow && s.backgroundOk

/-- A staged granule that is to be folded: mapped at its frame in a resident segment, its namespace's target not SLC (R67, R70, R147). -/
def State.foldable (s : State) (g : RegionIx) (b : Nat) (pl : Placed) : Bool :=
  let e := s.entryOf pl.gran
  e.state == .mapped && decide (e.band.toNat = b) && decide (e.frame.toNat = pl.frame) && s.targetOf pl.nsid != .slc && (s.regions[g]).isResident g pl.gran &&
    !(s.regions[g]).isDark pl.gran

/-- The next granule of the fold in frame order: state 100, and its frames are wanted (R70 steps 1 to 3). At the low mark the fold stops
inside its band (R69). -/
def State.foldNext (s : State) (g : RegionIx) : State :=
  match (s.regions[g]).foldBand with
  | none => s
  | some b =>
    if !s.copiesRun || (s.regions[g]).copies.any fun c => c.kind == .fold then s
    else if s.foldEnds g then s.updRegion g fun r => { r with foldBand := none, folding := false }
    else match (s.band g b).placed.find? fun pl => s.foldable g b pl with
    | some pl =>
      let e := s.entryOf pl.gran
      ((s.setEntry pl.gran { e with state := .foldInFlight }).updRegion g fun r => { r with
        copies := r.copies ++ [{ kind := .fold, gran := pl.gran, band := b, frame := pl.frame, state := .foldInFlight, target := s.targetOf pl.nsid, got := [] }] }).wantCopy pl.gran .fold
    | none => s.updRegion g fun r => { r with foldBand := none }

/-- Sealed staging bands with something to fold, the lowest write sequence first (R70). -/
def State.foldPick (s : State) (g : RegionIx) : Option Nat :=
  let bs := (s.regions[g]).tab.bands.filter fun x => x.use == .staging && x.phase == .closed && x.placed.any fun pl => s.foldable g x.num pl
  argMin (fun b => ((s.band g b).placed.map (·.seq)).foldl min (2 ^ 64)) (bs.map (·.num))

/-- The region folds on: in its band, or in the next one; with nothing left to fold it is done. Not before a resynchronisation (R186). -/
def State.foldGo (s : State) (g : RegionIx) : State :=
  let r := s.regions[g]
  if !r.folding || !r.inService || !s.copiesRun || !r.resync.isEmpty then s
  else if r.foldBand.isSome then s.foldNext g
  else match s.foldPick g with
    | some b => (s.updRegion g fun r => { r with foldBand := some b }).foldNext g
    | none => s.updRegion g fun r => { r with folding := false }

/-- FOLD_START (R69, R70): not in the read-only state, nor in PS3 and PS4 (R173, R292). -/
def State.foldStart (s : State) (g : RegionIx) : State :=
  if !s.copiesRun then s else (s.updRegion g fun r => { r with folding := true }).foldGo g

/-- The next granule of a reclamation: an entry in state 000 at the band, not being copied and with no copy that waits for its rows; its
frames are wanted (R161 step 1). -/
def State.reclaimNext (s : State) (g : RegionIx) (k : Fin 2) : State :=
  let r := s.regions[g]
  match r.slots[k] with
  | none => s
  | some q =>
    if !s.copiesRun || !r.inService || (s.band g q.band).kind == .swarmParity || r.copies.any fun c => c.kind == .reclaim k then s else
    let taken (pl : Placed) : Bool := (r.copies.any fun c => c.gran == pl.gran) || r.isDark pl.gran ||
      r.tab.bands.any fun x => x.placed.any fun y => y.gran == pl.gran && (y.src.map fun c => (c.band, c.frame)) == some (q.band, pl.frame)
    let valid (pl : Placed) : Bool := let e := s.entryOf pl.gran
      e.state == .mapped && decide (e.band.toNat = q.band) && decide (e.frame.toNat = pl.frame)
    match (s.band g q.band).placed.find? fun pl => valid pl && !taken pl with
    | some pl => (s.updRegion g fun r => { r with copies := r.copies ++
        [{ kind := .reclaim k, gran := pl.gran, band := q.band, frame := pl.frame, state := .mapped, target := s.targetOf pl.nsid, got := [] }] }).wantCopy pl.gran .relocation
    | none => s

/-- Staging use against the marks of R69: start above the high mark, stop assigning at 90%, assign again at 85%. -/
def State.checkStaging (s : State) (g : RegionIx) : State :=
  match s.geo? g with
  | none => s
  | some geo =>
    let use := (s.regions[g]).stagingUse * 100
    let total := geo.bandsStaging
    let s := s.updRegion g fun r => { r with stagingStopped := if total * 90 ≤ use then true else if use ≤ total * 85 then false else r.stagingStopped }
    if total * s.foldMarks.1 < use then s.foldStart g else s

/-- The band that takes a copy: an open fold band of its target, or the relocation band; a relocation at SLC goes into a staging band, and,
where none can be opened, into a band of its own from the staging reserve (R70, R157, R169). -/
def State.bandForCopy (s : State) (g : RegionIx) (c : Copy) (stream : Byte) : State × Option Nat :=
  match c.kind with
  | .fold => s.bandFor g .fold c.target stream
  | .reclaim _ | .single | .overlay =>
    if c.target ≠ .slc then s.bandFor g .relocation c.target stream
    else match s.bandFor g .staging .slc stream with
      | (s, some b) => (s, some b)
      | (s, none) => s.bandFor g .relocation .slc stream

/-- All 16 frames of a copied granule have been delivered: it is packed into an open band of its target density with a new sequence, and
carries MOVED (R70 steps 4 and 5, R157, R168). With no band or sequence to take, or while copies stand, it waits; in the read-only state
it is given up (R173). -/
def State.finishCopy (s : State) (g : RegionIx) (c : Copy) : State :=
  let gone (s : State) : State := (s.updRegion g fun r => { r with copies := r.copies.filter fun x => !(x.gran == c.gran && x.kind == c.kind) }).endAsks
    fun r => r.region == g && r.gran == c.gran && (r.who == .fold || r.who == .relocation)
  if s.readOnlyNow then
    let e := s.entryOf c.gran
    gone (if e.state = .foldInFlight then s.setEntry c.gran { e with state := .mapped } else s)
  else if !s.backgroundOk then s
  else
  let home := if c.state = .lost then s.entryHome c.gran else g
  let nsid := match (s.band home c.band).placed.find? fun pl => pl.gran == c.gran && pl.frame == c.frame with
    | some pl => (pl.nsid, pl.stream)
    | none => ((extentOf (s.regions[granRegion c.gran]).tab.extents c.gran).getD 0, 0xFF)
  match s.bandForCopy g c nsid.2 with
  | (s, none) => s
  | (s, some nb) =>
    match s.takeSeq g with
    | (s, none) => s
    | (s, some q) =>
      let unit (i : Fin 16) : Unit4K := ((c.got.find? fun x => x.1 == i.val).map (·.2)).getD { plain := 0, key := 0, poisoned := true }
      let wt : Word := BitVec.ofNat 32 s.keeper.tk.opsec.toNat
      let (s, _) := s.placeIn g nb fun k f => {
        gran := c.gran, nsid := nsid.1, stream := nsid.2, seq := q, slot := k, frame := f, wtime := wt, wtemp := s.keeper.tk.mediaTemp,
        units := Vector.ofFn unit, moved := true,
        src := some { band := c.band, frame := c.frame, state := c.state, reclaim := (match c.kind with | .reclaim _ => true | .fold | .single | .overlay => false) } }
      let s := gone s
      match c.kind with
      | .fold => s.foldNext g
      | .reclaim k => s.reclaimNext g k
      | .single | .overlay => s

/-- A frame delivered for a fold or a relocation (R70, R117, R161): poisoned frames carry on, zeroed where the poison arose at step 7. -/
def State.copyFrame (s : State) (q : FrameReq) (u : Unit4K) : State :=
  let g := q.region
  match (s.regions[g]).copies.find? fun c => c.gran == q.gran && c.band == q.band && c.frame == q.base with
  | none => s
  | some c =>
    let c' := { c with got := (c.got.filter fun x => x.1 != q.fig.val) ++ [(q.fig.val, u)] }
    let s := s.updRegion g fun r => { r with copies := r.copies.map fun x => if x.gran == q.gran then c' else x }
    if c'.got.length = 16 then s.finishCopy g c' else s

/-- Copies of a granule are given up: an entry in state 100 reads 000 again. -/
def State.endCopy (s : State) (g : RegionIx) (gran : Nat) : State :=
  let e := s.entryOf gran
  let s := if e.state = .foldInFlight then s.setEntry gran { e with state := .mapped } else s
  (s.updRegion g fun r => { r with copies := r.copies.filter fun c => c.gran != gran }).endAsks
    fun q => q.region == g && q.gran == gran && (q.who == .fold || q.who == .relocation)

/-- Copies that waited go on: those whose frames are all there, the reclamation slots, the fold (R69, R161, R164, R166). -/
def State.copyTurns (s : State) (g : RegionIx) : State :=
  let s := ((s.regions[g]).copies.filter fun c => c.got.length == 16).foldl (fun s c => s.finishCopy g c) s
  let s := [(0 : Fin 2), 1].foldl (fun s k => s.reclaimNext g k) s
  s.foldGo g

/-! Journal copies (R136, R140). -/

/-- The region whose bands hold a copy of a region's journal and images (R136, R142). -/
def copySide (g : RegionIx) (c : Fin 2) : RegionIx := if c = 0 then g else partnerRegion g

/-- One copy only is written while the partner side is out of service or has no journal band (R140). -/
def State.settleCopies (s : State) (g : RegionIx) : State :=
  let alone := (s.com (dieOfRegion (partnerRegion g))).outOfService || !(s.regions[partnerRegion g]).coreUp || ((s.regions[g]).journal.bands[(1 : Fin 2)]).isEmpty
  s.updJrn g fun j => { j with singleCopy := alone }

/-- A side of the journal has a further open band (R140, R536). -/
def State.addJournalBand (s : State) (g : RegionIx) (c : Fin 2) : State :=
  let s := match s.openBand (copySide g c) .journal .other .slc 0xFF with
    | (s, some b) => s.updJrn g fun j => { j with bands := j.bands.set c (j.bands[c] ++ [b]) }
    | (s, none) => s
  s.settleCopies g

/-- Sides that have no journal band take one that has become free (R140). -/
def State.refillJournal (s : State) (side : RegionIx) : State :=
  [(side, (0 : Fin 2)), (partnerRegion side, 1)].foldl (fun s x => if ((s.regions[x.1]).journal.bands[x.2]).isEmpty then s.addJournalBand x.1 x.2 else s) s

/-- The journal band of a side is sealed at its failed row, and the next one takes every later copy (R140). -/
def State.nextJournalBand (s : State) (g : RegionIx) (c : Fin 2) : State :=
  match (s.regions[g]).journal.bands[c] with
  | [] => s.addJournalBand g c
  | b :: rest =>
    let s := (s.sealBand (copySide g c) b true).updJrn g fun j => { j with bands := j.bands.set c rest }
    if rest.isEmpty then s.addJournalBand g c else s

/-- A journal copy is to be programmed again, in the next band of its side (R140, R190, R532): the event; with both copies of the frame failed the
region enters the read-only state. -/
def State.journalLost (s : State) (g : RegionIx) (n : Nat) (c : Fin 2) : State :=
  let s := s.updJrn g fun j => { j with tail := j.tail.map fun f => if f.num == n then { f with failed := f.failed.set c true } else f }
  let s := (s.raise (regionSrc g 1)).nextJournalBand g c
  if (s.regions[g]).journal.tail.any fun f => f.num == n && f.failed[0] && f.failed[1] then s.enterReadOnly g .journal else s

/-! Erases. -/

/-- Bands of a set that are not erased. -/
def setBands (geo : GeometryRec) (t : RegionTables) (st : Nat) : List Band := t.bands.filter fun x => bandSet geo x.num == st && x.phase != .erased

/-- The band is under reclamation (R161, R195). -/
def RegionSt.reclaiming (r : RegionSt) (b : Nat) : Bool := r.slots.toList.any fun q => (q.map (·.band)) == some b

/-- A rebuild skips the band: its valid count is zero or its RECLAIM_MAPPED is durable (R192). -/
def RegionSt.skipsRebuild (r : RegionSt) (b : Nat) : Bool := r.valid b == 0 || (r.tab.band b).mappedDurable

/-- The band that the rebuild of a position is at, with its rows done: one that Scarab has taken stands (R192, R195). -/
def RegionSt.nextRebuild (r : RegionSt) (a : Adoption) : Option (Nat × Nat) := a.left.find? fun x => !r.skipsRebuild x.1 && !r.reclaiming x.1

/-- Spares of the region: those of the record, and the LUNs of evacuated sets whose last band has been released (R194). -/
def spareLuns (geo : GeometryRec) (t : RegionTables) : List Nat :=
  geo.spareLuns ++ (t.evacuated.filter fun st => (setBands geo t st).isEmpty).flatMap fun st => (List.range (geoW geo)).map fun u => lunAt geo t.adoptions st u

/-- The spare that a lost position takes: on the lane with the fewest positions of the set, the lowest number on a tie (R191). -/
def pickSpare (geo : GeometryRec) (t : RegionTables) (st : Nat) : Option Nat :=
  let free := (spareLuns geo t).filter fun x => !(t.adoptions.any fun a => a.spare == x) && !(t.quarantined.any fun q => q.1 == x)
  let onLane (x : Nat) := ((List.range (geoW geo)).filter fun u => lunAt geo t.adoptions st u / 32 == x / 32).length
  argMin (fun x => onLane x * 1024 + x) free

/-- The bands of an adopted position in the order of R192: a second erased position, sealed short, then by falling valid count; those that the
rebuild skips come last. A rescue band in reserve holds nothing to rebuild. -/
def rebuildOrder (geo : GeometryRec) (r : RegionSt) (st : Nat) : List Nat :=
  let bs := (setBands geo r.tab st).filter fun x => !(x.kind == .rescue && x.phase == .opened)
  let second (_x : Band) : Bool := decide (2 ≤ (r.tab.adoptions.filter fun a => a.set == st && !a.done).length)
  let key (x : Band) : Nat :=
    (if r.skipsRebuild x.num then 3 else if second x then 0 else if x.sealedShort then 1 else 2) * 2 ^ 32 + (2 ^ 31 - r.valid x.num)
  (sortBy (fun a b => decide (key a ≤ key b)) bs).map (·.num)

/-- A set loses a position (R191, R194, R195): a spare is adopted; with none left the set evacuates, once a rebuild of another of its positions
has finished. -/
def State.losePosition (s : State) (g : RegionIx) (lun : Nat) : State :=
  match s.geo? g with
  | none => s
  | some geo =>
    let r := s.regions[g]
    match positionOf geo r.tab lun with
    | none => s
    | some (st, u) =>
      let s := s.updTab g fun t => { t with adoptions := t.adoptions.filter fun a => !(a.set == st && a.position == u) }
      match pickSpare geo (s.regions[g]).tab st with
      | some sp =>
        let s := s.updTab g fun t => { t with adoptions := t.adoptions ++ [{ spare := sp, set := st, position := u, lost := lun, left := [], done := false }] }
        let left := (rebuildOrder geo (s.regions[g]) st).map fun b => (b, 0)
        let finished := left.all fun x => (s.regions[g]).skipsRebuild x.1
        let s := s.updTab g fun t => { t with adoptions := t.adoptions.map fun a => if a.spare == sp then { a with left := left, done := finished } else a }
        let s := (s.jot g (.spareAdopt sp st u lun)).raise (regionSrc g 5)
        if finished then s.raise (regionSrc g 6) else s
      | none =>
        if r.tab.evacuated.contains st || (s.regions[g]).tab.adoptions.any fun a => a.set == st && !a.done then s else
        let s := (s.updTab g fun t => { t with evacuated := t.evacuated ++ [st] }).jot g (.setEvacuate st)
        let s := (setBands geo (s.regions[g]).tab st).foldl (fun s x => (s.updBand g x.num fun x => { x with refreshDue := true }).jotFlags g x.num) s
        s.checkSpare g

/-- The rebuild of a position ends when its last band is finished: the event, and a position of its set that found no spare is lost for good
(R192, R195). -/
def State.closeRebuild (s : State) (g : RegionIx) (spare : Nat) : State :=
  match (s.regions[g]).tab.adoptions.find? fun a => a.spare == spare, s.geo? g with
  | some a, some geo =>
    if a.done || !a.left.all fun x => (s.regions[g]).skipsRebuild x.1 then s else
    let s := (s.updTab g fun t => { t with adoptions := t.adoptions.map fun q => if q.spare == spare then { q with done := true } else q }).raise (regionSrc g 6)
    let t := (s.regions[g]).tab
    match ((List.range (geoW geo)).map (lunAt geo t.adoptions a.set)).find? fun l => t.quarantined.any fun q => q.1 == l with
    | some l => s.losePosition g l
    | none => s
  | _, _ => s

/-- A band that is free again is no longer one to rebuild. -/
def State.dropRebuild (s : State) (g : RegionIx) (b : Nat) : State :=
  let hit := (s.regions[g]).tab.adoptions.filter fun a => a.left.any fun x => x.1 == b
  let s := s.updTab g fun t => { t with adoptions := t.adoptions.map fun a => { a with left := a.left.filter fun x => x.1 != b } }
  hit.foldl (fun s a => s.closeRebuild g a.spare) s

/-- The Antenna's work for a band that is released ends (R93): a run in progress is abandoned, the others are not started. -/
def State.runsReleased (s : State) (g : RegionIx) (b : Nat) : State :=
  let s := (clustersOfRegion g).foldl (fun s c => s.updCluster c fun x => { x with
    antenna := x.antenna.map fun a => if sameBand g b a then { a with abandoned := true } else a,
    antPending := x.antPending.filter fun a => !sameBand g b a }) s
  s.updRegion g fun r => { r with antWaiting := r.antWaiting.filter fun a => !sameBand g b a, patrols := r.patrols.filter fun p => p.band != b }

/-- ERASE_DONE is durable (R158, R161): the count of each block erased up by one, the band free, spread and marks judged anew; an erased
rescue band is made up for in the reserve, a missing journal band too (R140, R169, R536). -/
def State.bandErased (s : State) (g : RegionIx) (b : Nat) : State :=
  match s.geo? g with
  | none => s
  | some geo =>
    let blocks := (s.band g b).eraseList
    let rescue := (s.band g b).kind == .rescue
    let s := s.releaseFold g b fun _ _ => true
    let s := s.updTab g fun t => blocks.foldl (fun t x => let y := t.block x.1 x.2; t.setBlock { y with erases := satAdd 0xFFFFFF y.erases 1 }) t
    let bytes := blocks.length * ((s.regionProf? g).map fun p => p.wordlines * framesPerRow p (s.band g b).density * 4096).getD 0
    let s := s.updTab g fun t => { t.setBand (freshBand b) with slotsLost := t.slotsLost.filter fun x => x.1 != b }
    let s := ((s.accFree g (·.1 == b)).runsReleased g b).dropRebuild g b
    let s := s.updSub fun x => { x with
      sanitizeBands := x.sanitizeBands.filter (· != (g, b)), life := { x.life with erasedBytes := x.life.erasedBytes + bytes } }
    let s := s.updRegion g fun r => { r with slots := r.slots.map fun q => match q with | some q => if q.band = b then none else some q | none => none }
    let st := bandSet geo b
    let s := if (s.regions[g]).tab.evacuated.contains st && (setBands geo (s.regions[g]).tab st).isEmpty then s.checkSpare g else s
    let s := if rescue then (s.openBand g .rescue .other .slc 0xFF).1 else s
    ((((s.refillJournal g).checkFree g).checkWear g).checkStaging g).copyTurns g

/-- The erases of a band are all done, or no longer asked for: ERASE_DONE (R161 step 5). -/
def State.eraseTurn (s : State) (g : RegionIx) (b : Nat) : State :=
  let x := s.band g b
  if x.phase == .erasing && x.eraseTodo.isEmpty && !x.erasedRec then (s.updBand g b fun x => { x with erasedRec := true }).jotNow g (.eraseDone b) else s

/-- Blocks of a band that its erase is for: the good ones, on LUNs in service (R161 step 5, R190). -/
def eraseBlocks (geo : GeometryRec) (t : RegionTables) (b : Nat) : List (Nat × Nat) :=
  (bandBlocks geo t b).filter fun x => (t.block x.1 x.2).state == 0 && !(t.quarantined.any fun q => q.1 == x.1)

/-- ERASE_INTENT is appended for a band, with the blocks that are to be erased (R161). -/
def State.intend (s : State) (g : RegionIx) (b : Nat) : State :=
  let todo := match s.geo? g with
    | some geo => eraseBlocks geo (s.regions[g]).tab b
    | none => []
  (s.updBand g b fun x => { x with intent := true, phase := if x.phase = .opened then .closed else x.phase, eraseTodo := todo, eraseList := [] }).jotNow g (.eraseIntent b)

/-- ERASE_INTENT of a band (R161 step 5, R162): only with RECLAIM_MAPPED durable, valid count zero and step 4 complete. -/
def State.eraseIntent (s : State) (g : RegionIx) (b : Nat) : State :=
  let x := s.band g b
  if x.mappedDurable && x.retracted && !x.intent && (s.regions[g]).valid b == 0 && x.hold.isNone then s.intend g b else s

/-- ERASE_INTENT is durable: the good blocks of the band are to be erased (R161 step 5). -/
def State.eraseBand (s : State) (g : RegionIx) (b : Nat) : State :=
  match s.geo? g with
  | none => s
  | some geo =>
    let todo := eraseBlocks geo (s.regions[g]).tab b
    let s := s.updBand g b fun x => { x with intentDurable := true, phase := .erasing, erasedRec := false, eraseTodo := todo, eraseList := [] }
    s.eraseTurn g b

/-! Rows that are not programmed. -/

/-- A host granule whose program failed is placed again, from the window into staging (R187). -/
def State.placeAgain (s : State) (g : RegionIx) (b : Nat) (pl : Placed) : State :=
  let s := s.updBand g b fun x => { x with placed := x.placed.filter fun q => q.slot != pl.slot }
  match s.bandFor g .staging .slc pl.stream with
  | (s, none) => s.updRegion g fun r => { r with pend := r.pend.map fun u => if u.seq == pl.seq && u.gran == pl.gran then { u with at_ := none } else u }
  | (s, some nb) =>
    match s.placeIn g nb fun k f => { pl with slot := k, frame := f } with
    | (s, none) => s
    | (s, some np) => s.updRegion g fun r => { r with pend := r.pend.map fun u => if u.seq == pl.seq && u.gran == pl.gran then { u with at_ := some (nb, np.frame) } else u }

/-- A page row of a band becomes pad: its record, and the copies that waited for it stay at their sources (R166, R180). -/
def State.padRow (s : State) (g : RegionIx) (b u w : Nat) : State :=
  match s.geo? g with
  | none => s
  | some geo =>
    if (s.band g b).pads.contains (u, w, 0) then s else
    let f := s.rowFrames g (s.band g b).density
    let s := ((s.updBand g b fun x => { x with pads := x.pads ++ [(u, w, 0)] }).jot g (.bandPad b u w 0)).releaseFold g b fun r q => r == w && q == u
    s.dropCopies g b fun pl => (granuleRows geo b f pl.slot).contains (w, u)

/-- Host granules of a band that have a frame in a pad row are placed again (R187, R190). -/
def State.placeLost (s : State) (g : RegionIx) (b : Nat) : State :=
  match s.geo? g with
  | none => s
  | some geo =>
    let x := s.band g b
    let f := s.rowFrames g x.density
    let waits (pl : Placed) : Bool := (s.regions[g]).pend.any fun u => u.gran == pl.gran && u.seq == pl.seq && u.at_ == some (b, pl.frame)
    (x.placed.filter fun pl => waits pl && (granuleRows geo b f pl.slot).any fun r => x.pads.contains (r.2, r.1, 0)).foldl
      (fun s pl => s.placeAgain g b pl) s

/-- A descriptor for a page row of a band is with its lane. -/
def State.rowOutstanding (s : State) (g : RegionIx) (b w lun : Nat) : Bool :=
  match lunLane lun with
  | none => false
  | some l =>
    let mine (d : Descriptor) (p : Purpose) : Bool := (p == .dataRow g b || p == .parityRow g b) && d.wordline.toNat == w && d.lunNo == lun
    s.lanes[l].queue.any (fun e => mine e.desc e.purpose) || s.lanes[l].waiting.any fun x => mine x.1 x.2

/-- A page row holds no payload: a BAND_PAD record names it from its first slot, or the band is sealed with none of its slots used (R104, R180). -/
def rowPadded (geo : GeometryRec) (f : Nat) (x : Band) (w u : Nat) : Bool :=
  x.pads.contains (u, w, 0) || (x.phase != .opened && decide (x.slots ≤ (w * (geoW geo - 2) + (dataPos geo x.num).idxOf u) * f))

/-- A band row is completed: data positions whose page row is neither readable nor at a lane become pad (R186, R187 step 3). -/
def State.completeRow (s : State) (g : RegionIx) (b w : Nat) : State :=
  match s.geo? g with
  | none => s
  | some geo =>
    let x := s.band g b
    let f := s.rowFrames g x.density
    ((dataPos geo b).filter fun u => !x.rowsOk.contains (w, u) && !rowPadded geo f x w u &&
      !s.rowOutstanding g b w (lunAt geo (s.regions[g]).tab.adoptions (bandSet geo b) u)).foldl (fun s u => s.padRow g b u w) s

/-- Band rows from one on that hold readable data are completed. -/
def State.completeRows (s : State) (g : RegionIx) (b from_ : Nat) : State :=
  ((((s.band g b).rowsOk.map (·.1)).eraseDups).filter fun w => decide (from_ ≤ w)).foldl (fun s w => s.completeRow g b w) s

/-- No further page row of a band is programmed at position u, from wordline w on (R187, R190): its unprogrammed rows are pad, copies with a row on
the block that is not mapped stay at their sources, the rows from there on that hold data are completed, and the band is sealed short; what
has lost its frames is placed again. -/
def State.positionEnds (s : State) (g : RegionIx) (b w u : Nat) : State :=
  match s.geo? g with
  | none => s
  | some geo =>
    let f := s.rowFrames g (s.band g b).density
    let s := s.dropCopies g b fun pl => (granuleRows geo b f pl.slot).any fun r => r.2 == u
    let x := s.band g b
    let used (v : Nat) : Bool := (dataPos geo b).contains u && decide ((v * (geoW geo - 2) + (dataPos geo b).idxOf u) * f < x.nextSlot)
    let rows := (List.range ((s.regionProf? g).map (·.wordlines) |>.getD 0)).filter fun v => decide (w ≤ v) && used v && !x.rowsOk.contains (v, u)
    let s := rows.foldl (fun s v => s.padRow g b u v) s
    ((s.completeRows g b w).sealBand g b true).placeLost g b

/-! Quarantine and spares. -/

/-- The open bands that hold a position on a LUN (R190): data and parity bands are completed and sealed short, their unprogrammed rows at the position
pad; a journal band gives way to the next one of its side, a checkpoint band is sealed, a rescue band in reserve is made up for. -/
def State.sealOnLun (s : State) (g : RegionIx) (lun : Nat) : State :=
  match s.geo? g with
  | none => s
  | some geo =>
    let t := (s.regions[g]).tab
    let at_ (x : Band) : Option Nat := (List.range (geoW geo)).find? fun u => lunAt geo t.adoptions (bandSet geo x.num) u == lun
    (t.bands.filter fun x => x.phase == .opened).foldl (fun s x => match at_ x with
      | none => s
      | some u => match x.kind with
        | .data | .swarmParity => s.positionEnds g x.num 0 u
        | .checkpoint => s.sealBand g x.num true
        | .rescue => if x.nextSlot = 0 then s.intend g x.num else s
        | .journal => [(g, (0 : Fin 2)), (partnerRegion g, 1)].foldl (fun s y =>
            if ((s.regions[y.1]).journal.bands[y.2]).head? = some x.num then s.nextJournalBand y.1 y.2 else s) s) s

/-- Erases of the blocks of a quarantined LUN are no longer asked for (R190). -/
def State.erasesOff (s : State) (g : RegionIx) (lun : Nat) : State :=
  ((s.regions[g]).tab.bands.filter fun x => x.phase == .erasing).foldl (fun s x =>
    (s.updBand g x.num fun y => { y with eraseTodo := y.eraseTodo.filter fun e => e.1 != lun }).eraseTurn g x.num) s

/-- Work that ends ABANDONED with its LUN (R93, R112, R190): journal copies go again, frames go on at step 5, a sweep's sample gives no
values. -/
def State.abandonedWork (s : State) (d : LaneDone) : State :=
  let c := clusterOfLane d.lane
  match d.purpose with
  | .journal g n k => s.journalLost g n k
  | .frameRead ids => s.readsFailed c ids
  | .sweep run i => s.updSweep c run fun a => a.sweepFailed i
  | .plain | .ownRead _ | .dataRow _ _ | .parityRow _ _ | .image _ _ _ | .bandErase _ _ | .rebuildRow _ _ | .rescue => s

/-- LUN_QUARANTINE (R189, R190): recorded once with its cause and event; the lane withdraws its work (R56); the set takes a spare. -/
def State.quarantineLun (s : State) (lun cause : Nat) : State :=
  let g := lunRegion lun
  if (s.regions[g]).tab.quarantined.any fun q => q.1 == lun then s else
  let s := (s.updTab g fun t => { t with quarantined := t.quarantined ++ [(lun, cause)] }).jot g (.lunQuarantine lun cause)
  let s := s.raise (regionSrc g 4)
  let s := match lunLane lun with
    | some l =>
      let p := s.laneQuarantine l (BitVec.ofNat 32 (2 ^ (lun % 32)))
      p.2.foldl State.abandonedWork p.1
    | none => s
  ((((s.climbsFail lun).erasesOff g lun).sealOnLun g lun).losePosition g lun).checkSpare g

/-- Every populated LUN of a lane that goes out of service is quarantined (R54, R61, R189 cause 3). -/
def State.quarantineLane (s : State) (l : LaneIx) : State :=
  let s := s.updLane l fun x => { x with inService := false, quarantined := true }
  ((List.finRange 32).filter fun u => s.populated l u).foldl (fun s u => s.quarantineLun (lunNumber l u) 3) s

/-- Retired and factory-bad blocks of a LUN. -/
def RegionTables.retired (t : RegionTables) (lun : Nat) : Nat := (t.blocks.filter fun x => x.lun == lun && x.state != 0).length

/-- BLOCK_RETIRE (R187, R188): the block's state is retired at once; more than the limit of its LUN's blocks quarantines it (R189 cause 2). -/
def State.retireBlock (s : State) (g : RegionIx) (lun blk cause : Nat) : State :=
  let s := (s.updTab g fun t => t.setBlock { t.block lun blk with state := if cause = 3 then 2 else 1 }).jot g (.blockRetire lun blk cause)
  let limit := match s.geo? g, s.regionProf? g with
    | some geo, some p => dflt geo.retireLimit 40 * p.blocks
    | _, _ => 0
  let s := if limit < (s.regions[g]).tab.retired lun * 1000 then s.quarantineLun lun 2 else s
  (s.checkSpare g).checkWear g

/-! Failed programs. -/

/-- A data program of an open band that did not end OK (R73, R187, R532): a program failure retires the block; its row is pad, and the band is
completed and sealed short. -/
def State.programLost (s : State) (g : RegionIx) (b w u : Nat) (lun blk : Nat) (retire : Bool) : State :=
  let s := if retire then s.retireBlock g lun blk 1 else s
  ((s.padRow g b u w).positionEnds g b w u).copyTurns g

/-- Granules mapped in a band row are to be relocated alone, ahead of others (R186). -/
def State.relocateRow (s : State) (g : RegionIx) (b w : Nat) : State :=
  match s.geo? g with
  | none => s
  | some geo =>
    let x := s.band g b
    let f := s.rowFrames g x.density
    let hit := x.placed.filter fun pl => (granuleRows geo b f pl.slot).any (fun r => r.1 == w) &&
      (let e := s.entryOf pl.gran; e.state == .mapped && decide (e.band.toNat = b) && decide (e.frame.toNat = pl.frame))
    s.updRegion g fun r => { r with relocNow := (hit.map (·.gran)) ++ r.relocNow.filter fun n => !(hit.any fun pl => pl.gran == n) }

/-- A parity program that did not end OK (R187, R532): the band is completed from there on and sealed short. After a program failure the block
is retired and programmed no further; after another end the parity page row is read, and programmed again or its granules relocated, as a
resynchronisation of the band does (R186). -/
def State.parityLost (s : State) (g : RegionIx) (b w : Nat) (lun blk : Nat) (retire : Bool) : State :=
  let s := if retire then s.retireBlock g lun blk 1 else s
  let s := ((s.completeRows g b w).sealBand g b true).placeLost g b
  let s := if retire then s else s.updRegion g fun r => { r with resync := if r.resync.contains b then r.resync else r.resync ++ [b] }
  s.copyTurns g

/-- A journal copy that did not program (R140, R532): the block is retired on a program failure. -/
def State.journalFail (s : State) (g : RegionIx) (n : Nat) (c : Fin 2) (lun blk : Nat) (retire : Bool) : State :=
  let s := s.journalLost g n c
  if retire then s.retireBlock (lunRegion lun) lun blk 1 else s

/-! Rebuild. -/

/-- A rebuilt page row on the spare (R192): REBUILD_ROW every 16 rows and at the end of the band; Band rebuild done after the last. -/
def State.rebuildRowDone (s : State) (g : RegionIx) (b spare rows : Nat) : State :=
  match (s.regions[g]).tab.adoptions.find? fun a => a.spare == spare with
  | none => s
  | some a =>
    let total := match s.regionProf? g with | some p => p.wordlines | none => 0
    let fin := decide (total ≤ rows)
    let left := if fin then a.left.filter fun x => x.1 != b else a.left.map fun x => if x.1 == b then (b, rows) else x
    let s := s.updTab g fun t => { t with adoptions := t.adoptions.map fun q => if q.spare == spare then { q with left := left } else q }
    let s := if fin || rows % 16 == 0 then s.jot g (.rebuildRow b a.position rows) else s
    s.closeRebuild g spare

/-- A program or erase on the spare's block of a band failed (R195): the block is retired, a replacement is taken, and the band begins anew on
it. -/
def State.rebuildAgain (s : State) (g : RegionIx) (b spare cause : Nat) : State :=
  match (s.regions[g]).tab.adoptions.find? fun a => a.spare == spare, s.geo? g, s.regionProf? g with
  | some a, some geo, some p =>
    let s := (s.retireBlock g spare ((s.regions[g]).tab.blockAt spare (bandSlot geo b)) cause).replaceAt g geo p b a.position
    s.updTab g fun t => { t with adoptions := t.adoptions.map fun q => if q.spare == spare then
      { q with left := q.left.map fun x => if x.1 == b then (b, 0) else x } else q }
  | _, _, _ => s

end Sys2Proof.Machine
end

