-- ==== Sys2Proof/Machine/Levels.lean ====
section
/-! DEFINITION. Read levels and the Antenna's arithmetic: composed offset vectors, sweep windows, valleys and medians (R81 to R83, R88 to
R92, R410). -/

namespace Sys2Proof.Machine

def levelByte (p : MediaProfile) (d : Density) (cls n : Nat) : Int := (p.levels.getD (levelStart d + cls * levelCount d + n - 1) 0).toInt
def xByte (p : MediaProfile) (d : Density) (n : Nat) : Int := (p.xrows.getD (xrowStart d + n - 1) 0).toInt

/-- a ÷ b to the nearest integer, halves away from zero (R83). -/
def roundAway (a : Int) (b : Nat) : Int := if 0 ≤ a then (2 * a + b) / (2 * b) else -((2 * (-a) + b) / (2 * b))
/-- Held within a signed byte. -/
def clamp8 (x : Int) : Int := max (-128) (min 127 x)

/-- The eighth of a page row of a band (R76): rows are numbered w × W + u. -/
def State.rowEighth (s : State) (g : RegionIx) (row : Nat) : Fin 8 := match s.geo? g, s.regionProf? g with
  | some geo, some p => eighthOf (bandRows geo p) row
  | _, _ => 0

/-- Present retention class of a row (R80, R81). -/
def State.rowClass (s : State) (g : RegionIx) (b row : Nat) : Nat := retentionClass (s.elapsed (s.band g b) (s.rowEighth g row))

/-- Offset of level n of a row, with or without the band's Antenna correction (R83). For an eighth whose temperature is not set the spec names
none: the difference is taken as 0 (DESIGN CHOICE, log entry 126). -/
def State.levelOffset (s : State) (g : RegionIx) (p : MediaProfile) (b row n : Nat) (corrected : Bool) : Int :=
  let x := s.band g b
  let k := s.rowEighth g row
  let dt := s.keeper.tk.mediaTemp - x.temp[k].getD s.keeper.tk.mediaTemp
  let base := levelByte p x.density (s.rowClass g b row) n + roundAway (dt * xByte p x.density n) 64
  let kn : Int := match x.corr with
    | some c => if corrected then c.k.getD (n - 1) 0 else 0
    | none => 0
  clamp8 (base + kn)

/-- The composed vector of a row (R83): one byte a level. Journal, checkpoint and rescue bands are read at class 0 of the SLC table
(R531). -/
def State.composeVector (s : State) (g : RegionIx) (b row : Nat) : List Int :=
  match s.regionProf? g with
  | none => []
  | some p =>
    let x := s.band g b
    if x.kind == .journal || x.kind == .checkpoint || x.kind == .rescue then [clamp8 (levelByte p .slc 0 1)]
    else (List.range (levelCount x.density)).map fun i => s.levelOffset g p b row (i + 1) true

/-! Sweeps (R90). -/

/-- Bins per level. -/
def sweepBins : Density → Nat
  | .slc => 255 | .tlc => 73 | .qlc => 34 | .plc => 16 | .hlc => 8
/-- Step, from the profile or by default. -/
def sweepStepOf (p : MediaProfile) (d : Density) : Nat := match densEntry p d with
  | some e => dflt e.sweepStep (if d = .slc then 1 else 2)
  | none => 2

/-- SWEEP_START: the centre minus (B/2) × step, rounded toward the centre, held within a signed byte. -/
def sweepStart (centre : Int) (bins step : Nat) : Int := clamp8 (centre - ((bins * step / 2 : Nat) : Int))

/-- The four rows that a run samples (R90): ⌊R(2i+1)/8⌋ on LUN i of the count; the failed row in place of sample 0. That row of the band lies on
one position, which need not be LUN i: the row of the same wordline on LUN i is taken (DESIGN CHOICE, log entry 126). -/
def State.sampleRows (s : State) (g : RegionIx) (c : ClusterIx) (run : AntRun) : List (Nat × Nat) :=
  match s.geo? g, s.regionProf? g with
  | some geo, some p =>
    let luns := s.bandLunsOn g c run.band
    (List.range 4).map fun i =>
      match i, run.failedRow with
      | 0, some r => (lunAt geo (s.regions[g]).tab.adoptions (bandSet geo run.band) (r % geoW geo), r)
      | _, _ =>
        let x := luns.getD (i % max 1 luns.length) (0, 0)
        let row := bandRows geo p * (2 * i + 1) / 8
        (x.2, row / geoW geo * geoW geo + x.1)
  | _, _ => []

/-- Every first sweep of a run (R90). -/
def State.sweepPlan (s : State) (g : RegionIx) (c : ClusterIx) (run : AntRun) : List SweepPlan :=
  match s.regionProf? g with
  | none => []
  | some p =>
    let d := (s.band g run.band).density
    (s.sampleRows g c run).zipIdx.flatMap fun (x, k) => (List.range (levelCount d)).map fun i =>
      let centre := s.levelOffset g p run.band x.2 (i + 1) false
      { sample := k, second := false, got := .todo, lun := x.1, row := x.2, level := i + 1, centre := centre, start := sweepStart centre (sweepBins d) (sweepStepOf p d),
        step := sweepStepOf p d, count := sweepBins d + 1 }

/-! Valleys (R91). -/

/-- Bins h_b = |c_{b+1} − c_b|. -/
def histogram (counts : List Nat) : List Nat := (List.zipWith (fun (a b : Nat) => (b - a) + (a - b)) counts (counts.drop 1))
/-- s[b] = h[b−1] + h[b] + h[b+1]. -/
def smooth (h : List Nat) (b : Nat) : Nat := h.getD (b - 1) 0 + h.getD b 0 + h.getD (b + 1) 0

/-- Twice the place of the middle of bin b. -/
def binPlace2 (start : Int) (step b : Nat) : Int := 2 * start + (2 * b + 1) * step

/-- The bin with the least s; on a tie the nearest the centre, then the lower. -/
def valleyBin (h : List Nat) (start centre : Int) (step : Nat) : List Nat → Option Nat
  | [] => none
  | b :: bs => match valleyBin h start centre step bs with
    | none => some b
    | some m =>
      let db := (binPlace2 start step b - 2 * centre).natAbs
      let dm := (binPlace2 start step m - 2 * centre).natAbs
      if smooth h b < smooth h m ∨ (smooth h b = smooth h m ∧ db ≤ dm) then some b else some m

/-- The valley of one sweep of B bins, rounded toward the centre; none where it is not found. -/
def valley (counts : List Nat) (bins : Nat) (start centre : Int) (step : Nat) : Option Int :=
  let h := histogram counts
  if bins < 3 ∨ counts.length ≠ bins + 1 then none else
  match valleyBin h start centre step ((List.range (bins - 2)).map (· + 1)) with
  | none => none
  | some m =>
    if m = 1 ∨ m = bins - 2 ∨ 2 * smooth h m > min (smooth h 1) (smooth h (bins - 2)) then none
    else
      let v2 := binPlace2 start step m
      some (if 2 * centre ≤ v2 then v2 / 2 else -((-v2) / 2))

/-- Start of the shifted window: (B/2) × step toward the edge of smaller s, the lower on a tie. R91 does not say from which start the shift
counts where R90 clamped it: it counts from the window before clamping (DESIGN CHOICE, log entry 126). -/
def shiftedStart (counts : List Nat) (bins : Nat) (centre : Int) (step : Nat) : Int :=
  let h := histogram counts
  clamp8 (if smooth h (bins - 2) < smooth h 1 then centre else centre - bins * step)

/-- Valley minus centre that a sweep gives. -/
def sweepValue (x : SweepPlan) : Option Int := match x.got with
  | .counts cs => (valley cs (x.count - 1) x.start x.centre x.step).map (· - x.centre)
  | .todo | .sent | .failed => none

/-- Counts of sweep i of a run arrive (R91): a first sweep that finds no valley is followed by one of the shifted window. -/
def AntRun.swept (a : AntRun) (i : Nat) (cs : List Nat) : AntRun :=
  match a.plan[i]? with
  | none => a
  | some x =>
    let y := { x with got := if cs.length = x.count then .counts cs else .failed }
    let again : List SweepPlan := if y.second || (sweepValue y).isSome || y.got == .failed then []
      else [{ x with second := true, got := .todo, start := shiftedStart cs (x.count - 1) x.centre x.step }]
    { a with plan := a.plan.set i y ++ again }

/-- Value of a level of a sample: its first or its second sweep found the valley (R91). -/
def AntRun.levelValue (a : AntRun) (sample level : Nat) : Option Int :=
  (a.plan.filter fun x => x.sample == sample && x.level == level).findSome? sweepValue

/-- Every sweep of the run has come to its end. -/
def AntRun.allSwept (a : AntRun) : Bool := a.plan.all fun x => match x.got with
  | .counts _ | .failed => true
  | .todo | .sent => false

/-- Median; the mean of the middle two when even, rounded toward zero (R92). -/
def median (xs : List Int) : Int :=
  let ys := sortBy (fun a b => decide (a ≤ b)) xs
  let n := ys.length
  if n % 2 = 1 then ys.getD (n / 2) 0 else (ys.getD (n / 2 - 1) 0 + ys.getD (n / 2) 0).tdiv 2

end Sys2Proof.Machine
end

