-- ==== Sys2Proof/Machine/Memory.lean ====
section
/-! DEFINITION. The store die's array as an addressed memory of 128 MiB (R422): one canonical list of the bytes that differ from
the erased value, and its named operations. -/

namespace Sys2Proof.Machine

/-- What an unlisted offset reads as: an erased byte, all ones. -/
def erasedByte : Byte := 0xFF

/-- Bytes of the array (R422). -/
def arrayBytes : Nat := 0x8000000

/-- Read one byte. -/
def memRead (m : List Host.Cell) (a : Nat) : Byte :=
  match m with
  | [] => erasedByte
  | (b, v) :: r => if a = b then v else memRead r a

/-- Write one byte, keeping the addresses rising and no entry equal to the erased value. -/
def memWrite (m : List Host.Cell) (a : Nat) (v : Byte) : List Host.Cell :=
  match m with
  | [] => if v = erasedByte then [] else [(a, v)]
  | (b, w) :: r =>
    if a < b then (if v = erasedByte then (b, w) :: r else (a, v) :: (b, w) :: r)
    else if a = b then (if v = erasedByte then r else (a, v) :: r)
    else (b, w) :: memWrite r a v

/-- Erase every byte of a sector of 64 KiB. -/
def memEraseSector (m : List Host.Cell) (sector : Nat) : List Host.Cell :=
  m.filter fun c => c.1 / 0x10000 != sector

/-- The canonical form: addresses strictly rising, inside the array, and none erased. -/
def memWf (m : List Host.Cell) : Bool :=
  match m with
  | [] => true
  | [(a, v)] => decide (a < arrayBytes) && v != erasedByte
  | (a, v) :: (b, w) :: r => decide (a < b) && v != erasedByte && memWf ((b, w) :: r)

/-- Read a little-endian 32-bit word (R8). -/
def memRead32 (m : List Host.Cell) (a : Nat) : Word :=
  (memRead m a).setWidth 32 ||| ((memRead m (a + 1)).setWidth 32 <<< 8) |||
  ((memRead m (a + 2)).setWidth 32 <<< 16) ||| ((memRead m (a + 3)).setWidth 32 <<< 24)

/-- The bytes of a word, least significant first (R8). -/
def wordBytes (w : Word) : List Byte :=
  [w.extractLsb' 0 8, w.extractLsb' 8 8, w.extractLsb' 16 8, w.extractLsb' 24 8]

end Sys2Proof.Machine
end

