-- ==== Sys2Proof/Machine/OptionBytes.lean ====
section
/-! DEFINITION. The bytes of an option image and of its records (R245, R390 to R410). Text and keys that the model names by a number stand as that
number; what no record keeps is a free value. -/

namespace Sys2Proof.Machine

/-- A list of bytes from an offset on. -/
def bytesAt (off : Nat) (l : List Byte) : List DataField := l.zipIdx.map fun p => fld (off + p.2) 1 p.1.toNat
/-- A list of numbers of one size from an offset on. -/
def numsAt (off size : Nat) (l : List Nat) : List DataField := l.zipIdx.map fun p => fld (off + size * p.2) size p.1
/-- An address in network byte order. -/
def addrAt (off : Nat) (a : BitVec 128) : List DataField := (List.range 16).map fun i => fld (off + i) 1 (bitsAt a.toNat (8 * (15 - i)) 8)

/-- A member certificate (R245). -/
def certFields (c : Certificate) : List DataField :=
  [fld 0 4 0x54434D4C, fld 4 2 1, fld 6 2 c.member, fld 8 8 c.swarmId.toNat, fld 16 8 (Config.certSerial c.keyId).toNat, fld 24 4 c.fromEpoch,
   fld 28 4 c.toEpoch, fld 32 97 c.keyId, fld 160 96 (Config.certSignature c.member c.keyId)]

/-- Identity and membership (R395). -/
def identityFields (r : IdentityRec) : List DataField :=
  [fld 0 8 r.swarmId.toNat, fld 8 2 r.member, fld 10 2 r.udpPort, fld 12 1 r.dscp, fld 13 1 (bitIf r.port0 0 + bitIf r.port1 1)] ++
  addrAt 16 r.addr0 ++ addrAt 32 r.addr1 ++ addrAt 48 r.gw0 ++ addrAt 64 r.gw1 ++
  [fld 80 1 r.prefix0, fld 81 1 r.prefix1, fld 88 48 r.authHash.toNat] ++ ((r.cert.map fun c => fieldsAt 136 (certFields c)).getD [])

/-- A density entry; of a density that the profile does not name, zero (R409). -/
def densityFields (p : MediaProfile) (i : Nat) (d : Density) : List DataField :=
  match p.density[i]? with
  | some e => if p.densities.contains d then fieldsAt (32 + 16 * i)
      [fld 0 1 (densityBits d), fld 2 2 e.parity, fld 4 1 e.passes, fld 5 1 e.lag, fld 6 1 e.sweepStep, fld 7 1 e.refresh, fld 8 1 e.passRoutine,
       fld 9 1 e.softDelta] else []
  | none => []

/-- A media profile (R408 to R410). Its informational suspend latency is kept nowhere. -/
def profileFields (k : Nat) (p : MediaProfile) : List DataField :=
  [fld 0 1 k, fld 1 1 p.iface, fld 2 2 p.maxRate, fld 4 1 ((p.densities.map fun d => 2 ^ (densityBits d - 1)).sum), fld 5 1 p.planes, fld 6 2 p.wordlines,
   fld 8 4 p.blocks, fld 12 2 p.pageBytes, fld 14 2 p.patchId] ++ bytesAt 16 p.idMatch ++ [fld 24 2 p.ea] ++
  (allDensities.zipIdx.flatMap fun d => densityFields p d.2 d.1) ++
  [fld 112 2 p.minRun, fld 114 2 p.maxSusp, fld 116 1 p.suspLimit, fld 117 1 (bitIf p.programsBarred 0), fld 118 2 (Config.suspendLatency k).toNat] ++
  (p.defaults.zipIdx.flatMap fun d => [fld (128 + 8 * d.2) 1 d.1.routine, fld (132 + 8 * d.2) 4 d.1.timeout]) ++
  numsAt 256 2 p.routines ++ bytesAt 384 p.opcodes ++ numsAt 640 4 p.timings ++ bytesAt 1664 p.odt ++ bytesAt 1696 p.levels ++ bytesAt 5440 p.xrows

/-- Lane population (R397). -/
def laneFields (l : List LanePop) : List DataField :=
  l.zipIdx.flatMap fun x => fieldsAt (8 * x.2) [fld 0 1 ((x.1.profile.map (·.val)).getD 0xFF), fld 1 1 x.1.ceMask.toNat, fld 2 4 x.1.lunMask.toNat, fld 6 2 x.1.idleUs]

/-- Density policy (R398). -/
def policyFields (d : DensityPolicy) : List DataField :=
  numsAt 0 1 d.target ++ [fld 32 1 d.foldHigh, fld 33 1 d.foldLow, fld 34 2 d.foldBuffers, fld 36 4 d.patrol] ++ numsAt 40 2 d.spread ++ [fld 50 1 d.refreshCount]

/-- Band geometry (R399). -/
def geometryFields (g : Nat) (r : GeometryRec) : List DataField :=
  [fld 0 1 g, fld 1 1 r.w, fld 2 1 r.sets, fld 3 1 r.spares, fld 4 2 r.slcSlots, fld 6 1 r.rb, fld 7 1 r.retireLimit, fld 8 2 r.op] ++
  numsAt 10 1 [r.resRescue, r.resJournal, r.resStaging, r.resRetract, r.resRelocation] ++ numsAt 15 1 [r.markStart, r.markUrgent, r.markLow] ++
  numsAt 18 2 [r.bandsStaging, r.bandsJournal, r.bandsCheckpoint, r.bandsAccum] ++
  ((List.range 12).flatMap fun k => (List.range 64).map fun u => fld (32 + 128 * k + 2 * u) 2 ((r.setLuns.getD k []).getD u 0xFFFF)) ++
  ((List.range 32).map fun k => fld (1568 + 2 * k) 2 (r.spareLuns.getD k 0xFFFF))

/-- Host ports (R400). -/
def hostPortFields (r : HostPortsRec) : List DataField := [fld 0 2 r.ssvid.toNat, fld 2 2 r.ssid.toNat] ++ bytesAt 8 r.subnqn

/-- Namespaces (R401); a list of placement handles ends with 0xFF. -/
def nsFields (l : List NamespaceRec) : List DataField :=
  l.zipIdx.flatMap fun x => fieldsAt (64 * x.2)
    ([fld 0 4 x.1.nsid, fld 4 1 x.1.lbaf, fld 8 8 x.1.nsze] ++ addrAt 16 x.1.nguid ++ [fld 32 4 x.1.base] ++
     (List.range 8).map fun k => fld (40 + k) 1 (x.1.phandles.getD k 0xFF))

/-- Power and hold-up (R403). -/
def powerRecFields (p : PowerRec) : List DataField :=
  numsAt 0 2 [p.vinNom, p.loss, p.warn, p.cap, p.target, p.testLoad, p.rescueP, p.window, p.interval] ++ [fld 18 1 p.chgTimeout, fld 19 1 (bitIf p.vauxPresent 0)]

/-- The records of an image in order: type, instance, body bytes and body (R392, R394). -/
def optRecordList (r : OptRecords) : List (Nat × Nat × Nat × List DataField) :=
  let one {α : Type} (x : Option α) (type size : Nat) (f : α → List DataField) : List (Nat × Nat × Nat × List DataField) :=
    (x.map fun a => (type, 0, size, f a)).toList
  let each {α : Type} (l : List (Option α)) (type size : Nat) (f : Nat → α → List DataField) : List (Nat × Nat × Nat × List DataField) :=
    l.zipIdx.filterMap fun x => x.1.map fun a => (type, x.2, size, f x.2 a)
  one r.identity 0x1 392 identityFields ++ each r.profiles 0x2 5568 profileFields ++ one r.lanes 0x3 192 laneFields ++ one r.density 0x4 56 policyFields ++
  each r.geometry 0x5 1632 geometryFields ++ one r.hostPorts 0x6 264 hostPortFields ++ one r.namespaces 0x7 2048 nsFields ++
  one r.ordered 0x8 64 (numsAt 0 2) ++ one r.power 0x9 24 powerRecFields ++
  one r.thermal 0xA 8 (fun t => [fld 0 1 t.present.toNat, fld 1 1 t.media.toNat, fldC 2 t.darkTemp]) ++ one r.darkWait 0xB 8 (fun n => [fld 0 4 n]) ++
  one r.filters 0xC 64 (fun m => [fld 0 64 m.toNat]) ++ one r.cipher 0xD 8 (fun c => [fld 0 4 (bitIf c.1 0 + bitIf c.2 1)]) ++
  one r.mgmt 0xE 8 (fun m => [fld 0 1 m.addr, fld 1 1 m.speed, fld 2 1 m.eid, fld 3 1 (bitIf m.writePermitted 0)])

/-- Records one after another, each with its header of 8 bytes (R392). -/
def placeRecords : Nat → List (Nat × Nat × Nat × List DataField) → List DataField
  | _, [] => []
  | at_, (type, inst, size, body) :: rest =>
    fieldsAt at_ ([fld 0 2 type, fld 2 1 inst, fld 4 4 size] ++ fieldsAt 8 body) ++ placeRecords (at_ + 8 + size) rest

/-- The image's fields (R390). -/
def optImageFields (x : OptImage) : List DataField :=
  let rs := optRecordList x.records
  let body := placeRecords 64 rs
  let crc := crc32c ((fieldBytes x.length body).drop 64)
  let head := [fld 0 4 0x4F505654, fld 4 2 1, fld 6 2 x.schema, fld 8 8 x.seq, fld 16 8 x.baseSeq, fld 24 4 x.length, fld 28 2 rs.length, fld 56 4 crc.toNat]
  withCrc 60 head ++ body

/-- The bytes of the image are those of its records: nothing in it that the check refuses as reserved content or shape. -/
def plainImage (x : OptImage) : Bool := x.headerOk && x.reservedBad.isEmpty && x.shapeBad.isEmpty

/-- A byte of an option slot (R390, R391): the image, erased bytes behind it, and the words APPLY and CANCEL. None where the image does not
follow its records. -/
def optSlotByte (img : Option OptImage) (applied cancelled : Bool) (o : Nat) : Option Byte :=
  if 0xFFFF0 ≤ o then some (if o < 0xFFFF8 then (if applied then 0 else 0xFF) else (if cancelled then 0 else 0xFF))
  else match img with
    | some x => if !plainImage x then none else some (if o < x.length then fieldByte (optImageFields x) o else 0xFF)
    | none => some 0xFF

end Sys2Proof.Machine
end

