-- ==== Sys2Proof/Machine/StoreImage.lean ====
section
/-! DEFINITION. The store die's sectors and areas (R422, R423, R437), and what the array holds byte by byte: the bytes that commands program, and
the layouts of the areas that the model keeps decoded (R144, R420, R424, R436, R469, R470). -/

namespace Sys2Proof.Machine

/-- Bank of a sector (R422). -/
def sectorBank (sector : Nat) : Fin 2 := if sector < 1024 then 0 else 1
def sectorOf (offset : Nat) : Nat := offset / 0x10000

/-- Areas with a rule of their own (R423). -/
def isFactory (n : Nat) : Bool := decide (2032 ≤ n)
def isEventLog (n : Nat) : Bool := decide (1409 ≤ n) && decide (n ≤ 1920)
def isProtection (n : Nat) : Bool := n == 464 || n == 1408

/-- The information row of a sector; a fresh one where none is listed (R437). -/
def rowOf (rows : List SectorRow) (n : Nat) : SectorRow :=
  (rows.find? (·.sector == n)).getD { sector := n, counter := 0, intent := false, bad := false }

/-- Change a sector's row, rows kept in rising sector order. -/
def setRow (rows : List SectorRow) (r : SectorRow) : List SectorRow :=
  match rows with
  | [] => [r]
  | x :: xs => if r.sector < x.sector then r :: x :: xs else if r.sector = x.sector then r :: xs else x :: setRow xs r

/-- Add one to a sector's erase counter and report its limit (R437, R438). -/
def State.countErase (s : State) (n : Nat) : State :=
  let r := rowOf s.store.rows n
  let c := satAdd 0xFFFFFFFF r.counter 1
  let s := s.updStore fun x => { x with rows := setRow x.rows { r with counter := c, intent := false } }
  if c ≥ 100000 ∧ (c - 100000) % 10000 = 0 then s.raise2 503 (BitVec.ofNat 32 n) 0 else s

/-- Sectors that the package erases for an area of its own count too (R437). -/
def State.countErases (s : State) (first n : Nat) : State := (List.range n).foldl (fun s i => s.countErase (first + i)) s

/-- A record is appended to its pair (R425): line by line into one sector, then into the other. With fewer than 16 erased lines ahead the keeper
erases the other sector, but not while a rescue runs (R434). -/
def State.keeperLine (s : State) (k : Fin 3) : State :=
  let p := s.store.pairs[k]
  let full := decide (256 ≤ p.lines)
  let p := { p with sector := if full then 1 - p.sector else p.sector, lines := if full then 1 else p.lines + 1, ahead := p.ahead && !full, seq := p.seq + 1 }
  let due := !p.ahead && decide (240 < p.lines) && s.keeper.rescue.run.isNone
  let s := s.updStore fun x => { x with pairs := x.pairs.set k { p with ahead := p.ahead || due } }
  if due then s.countErase (517 + 2 * k.val + (1 - p.sector).val) else s

/-! The factory area (R424). Its content is Tuivahan's: free values, but for the fields that R424 fixes. -/

/-- CERT_LEN, 1 to 2,048. -/
def factoryCertLen : Nat := 1 + Config.factoryCertLen % 2048

def factoryByte (o : Nat) : Byte :=
  if o < 8 then fieldByte [fld 0 4 0x41465654, fld 4 2 1] o
  else if o < 28 then Config.factoryByte o
  else if o < 32 then 0
  else if o < 129 then Config.factoryByte o
  else if o < 132 then 0
  else if o < 136 then fieldByte [fld 132 4 factoryCertLen] o
  else if o < 2184 then (if o < 136 + factoryCertLen then Config.factoryByte o else 0)
  else Config.factoryByte o

/-- A byte of the area, its CRC included. -/
def factoryArea (o : Nat) : Byte :=
  if 2184 ≤ o ∧ o < 2188 then fieldByte [fld 2184 4 (crc32c ((List.range 2184).map factoryByte)).toNat] o else factoryByte o

/-- A little-endian number of the area. -/
def factoryNum (o size : Nat) : Nat := ((List.range size).map fun i => (factoryArea (o + i)).toNat * 256 ^ i).sum

/-! A protection set copy (R420, R421). -/

def protFields (p : ProtSet) : List DataField :=
  [fld 0 4 p.magic.toNat, fld 4 2 p.format.toNat, fld 8 8 p.generation.toNat, fld 16 2 p.keyFuse.toNat, fld 20 4 (bitIf p.storeWriteLock 0),
   fld 24 4 p.fwArb.toNat, fld 28 4 p.patchArb.toNat, fld 32 48 p.authHash.toNat, fld 80 48 p.signHash.toNat] ++
  (List.finRange 8).flatMap fun k =>
    [fld (128 + 8 * k.val) 4 (bitIf p.xo[k].en 31 + bitIf p.xo[k].hashPort 30 + p.xo[k].first.toNat), fld (132 + 8 * k.val) 4 p.xo[k].count.toNat]

def protByte (p : ProtSet) (o : Nat) : Byte :=
  if o < 192 then fieldByte (protFields p) o
  else if o < 65532 then 0
  else fieldByte [fld 65532 4 (crc32c (fieldBytes 192 (protFields p) ++ List.replicate 65340 0)).toNat] o

/-! The checkpoint index (R144, R436). -/

/-- The sectors that the window takes next after index sector k: one marked BAD is skipped. -/
def Store.nextIndexSector (x : Store) (k : Nat) : Nat :=
  (((List.range 256).map fun i => (k + 1 + i) % 256).find? fun j => !(rowOf x.rows (525 + j)).bad).getD ((k + 1) % 256)

/-- Sectors from the tail to the head. -/
def Store.indexSpan (x : Store) : Nat := (x.ckptHead + 256 - x.ckptTail) % 256 + 1

/-- Erased sectors ahead of the head: those outside the window that are not BAD, 0 to 128. -/
def Store.erasedAhead (x : Store) : Nat :=
  min 128 (256 - x.indexSpan - (x.rows.filter fun r => r.bad && decide (525 ≤ r.sector) && decide (r.sector ≤ 780)).length)

/-- WSEQ of a sector of the window: one less for each sector taken after it. -/
def Store.sectorWseq (x : Store) (k : Nat) : Nat :=
  x.wseq - (((List.range ((x.ckptHead + 256 - k) % 256)).map fun i => (k + 1 + i) % 256).filter fun j => !(rowOf x.rows (525 + j)).bad).length

def indexHeader (x : Store) (k : Nat) : List DataField := withCrc 28 [fld 0 4 0x58494B43, fld 4 8 (x.sectorWseq k)]

/-- An index record (R144). -/
def indexRecord (r : IndexRec) : List DataField :=
  withCrc 28 [fld 0 1 (r.region.val + bitIf (r.image == 0) 7), fld 1 1 r.copy, fld 2 2 (r.image - 1), fld 4 2 (r.band % 32768), fld 6 3 r.frame,
    fld 9 5 r.jframe, fld 16 8 r.ckptSeq, fld 24 4 r.crc.toNat]

/-- A byte of an index sector: header, records in the order of appending, and what lies erased behind them. -/
def Store.indexByte (x : Store) (k o : Nat) : Option Byte :=
  match x.index.filter (·.sector == k) with
  | [] => none
  | r :: rs =>
    if o < 32 then some (fieldByte (indexHeader x k) o)
    else match (r :: rs)[o / 32 - 1]? with
      | some y => some (fieldByte (indexRecord y) (o % 32))
      | none => none

/-! The event log (R423, R470): slot i at 0x581_0000 + 32 × i. -/

/-- A byte of a slot: its record; of a slot in a skipped line what the failed program left, which is not known. -/
def Recorder.slotByte (e : Recorder) (m : List Host.Cell) (o : Nat) : Option Byte :=
  match e.log.find? fun p => p.1 == o / 32 with
  | some p => some (fieldByte (recordFields p.2) (o % 32))
  | none => if o / 32 < e.next then none else some (memRead m (0x5810000 + o))

/-! The whole array. -/

/-- A sector whose content the model keeps decoded with values of which it does not know the bytes: firmware slots, patches, the key, membership
and keeper record areas (R423, R425, R444; log entry 6). -/
def State.opaqueSector (s : State) (n : Nat) : Bool :=
  let slot (k : Fin 2) : Bool := s.fw.slots[k].image.isSome || s.fw.slots[k].state != .empty
  if n ≤ 383 then slot 0
  else if n ≤ 399 then s.fw.slots[0].patches != []
  else if n ≤ 415 then s.fw.slots[1].patches != []
  else if 465 ≤ n ∧ n ≤ 524 then true
  else decide (1024 ≤ n) && decide (n ≤ 1407) && slot 1

/-- A byte of the option area (R389 to R391): slots A and B, and the staging slot, of which an image not yet complete is not known. What a
command programs into an empty slot stands in the array. -/
def State.optionByte (s : State) (a : Nat) : Option Byte :=
  let o := a % 0x100000
  let slot (img : Option OptImage) (corrupt : Bool) : Option Byte :=
    if img.isNone then some (memRead s.store.array a) else if corrupt then none else optSlotByte img true false o
  if a < 0x1B00000 then slot s.opt.slotA s.opt.corruptA
  else if a < 0x1C00000 then slot s.opt.slotB s.opt.corruptB
  else
    let x := s.opt.staging
    if x.image.isNone then (if o < x.next then none else some (memRead s.store.array a)) else optSlotByte x.image (x.marked || x.cancelled) x.cancelled o

/-- The byte at an array offset, none where the model does not know it. -/
def State.arrayByte (s : State) (a : Nat) : Option Byte :=
  let n := sectorOf a
  if isFactory n then some (factoryArea (a - 0x7F00000))
  else if n = 464 then some (protByte s.store.protCopies[0] (a % 0x10000))
  else if n = 1408 then some (protByte s.store.protCopies[1] (a % 0x10000))
  else if 416 ≤ n ∧ n ≤ 463 then s.optionByte a
  else if isEventLog n then s.keeper.ev.slotByte s.store.array (a - 0x5810000)
  else if 525 ≤ n ∧ n ≤ 780 then some ((s.store.indexByte (n - 525) (a % 0x10000)).getD (memRead s.store.array a))
  else if s.opaqueSector n then none
  else some (memRead s.store.array a)

/-- A word of the array, none where one of its bytes is not known. -/
def State.arrayWord (s : State) (a : Nat) : Option Word :=
  match s.arrayByte a, s.arrayByte (a + 1), s.arrayByte (a + 2), s.arrayByte (a + 3) with
  | some b0, some b1, some b2, some b3 => some (b3 ++ b2 ++ b1 ++ b0)
  | _, _, _, _ => none

/-- What a read of a word gives: a word that the model does not know is a free value. -/
def State.readWord (s : State) (a : Nat) : Word := (s.arrayWord a).getD (Config.freeWord s.free)

end Sys2Proof.Machine
end

