-- ==== Sys2Proof/Machine/Clocks.lean ====
section
/-! DEFINITION. Timekeeping: media temperature, thermal age, the timekeeping record, gaps and the wall clock (R77 to R80, R85, R86). -/

namespace Sys2Proof.Machine

/-! Media temperature (R78). -/

/-- A signed 1/16 °C reading. -/
def sensor16 (v : Half) : Int := v.toInt
/-- To the nearest °C, halves away from zero (DEDUCED, log entry 30). -/
def nearestC (x : Int) : Int := if 0 ≤ x then (x + 8) / 16 else -((8 - x) / 16)

/-- THn is designated as a media thermistor and its last sample is valid. -/
def State.thValid (s : State) (n : Fin 4) : Bool :=
  let c := s.keeper.sup.adc[8 + n.val]
  (match s.recs? with | some r => (r.thermal.map fun t => t.media.getLsbD n.val).getD false | none => false) && c.valid && !c.below && !c.above

/-- The hottest of a list of sources. -/
def hottest : List (Nat × Int) → Option (Nat × Int)
  | [] => none
  | x :: xs => match hottest xs with
    | none => some x
    | some y => if x.2 < y.2 then some y else some x

/-- Source and value of the media temperature: the hottest valid media thermistor; without one the hotter die while VIN is present, and
the keeper's own sensor without VIN. -/
def State.mediaReading (s : State) : Nat × Int :=
  let th := ((List.finRange 4).filter s.thValid).map fun n => (n.val, nearestC (sensor16 s.keeper.sup.adc[8 + n.val].value))
  match hottest th with
  | some x => x
  | none =>
    if s.keeper.sup.vinOk then (if (s.com 0).temp < (s.com 1).temp then (5, (s.com 1).temp) else (4, (s.com 0).temp))
    else (6, nearestC (sensor16 s.keeper.sup.adc[12].value))

/-- KPR_TK_MEDIA takes the present reading; the extremes follow (R485). -/
def State.refreshMedia (s : State) : State :=
  let m := s.mediaReading
  s.updTk fun t => { t with mediaSrc := m.1, mediaTemp := m.2, tempMax := max t.tempMax m.2, tempMin := min t.tempMin m.2 }

/-! Acceleration factors (R77). -/

/-- Fixed point one, 2^96. -/
def fixOne : Nat := 2 ^ 96

/-- exp of a fixed-point number below 2^-5, by its power series. -/
def expSeries (x : Nat) : Nat → Nat → Nat → Nat
  | 0, _, acc => acc
  | n + 1, term, acc => expSeries x n (term * x / fixOne / (20 - n)) (acc + term)

/-- exp(num ÷ den) in fixed point: the argument over 2^10, squared ten times. -/
def expFix (num den : Nat) : Nat :=
  Nat.repeat (fun y => y * y / fixOne) 10 (expSeries (num * fixOne / den / 1024) 20 fixOne 0)

/-- |Ea/k × (1/313.15 − 1/(T + 273.15))| as numerator and denominator, for Ea in meV and whole °C. -/
def arrhenius (ea : Nat) (t : Int) : Nat × Nat :=
  (ea * 10 ^ 10 * (100 * t - 4000).natAbs, 8617333 * 31315 * (100 * t + 27315).toNat)

/-- AF at a whole °C from −40 to 125, 16 fractional bits, held below 65,536. Of the two fractions next to the exact value the table
holds one that the spec does not name. -/
def afEntry (ea : Nat) (temp : Int) : Nat :=
  let t := max (-40) (min 125 temp)
  let x := arrhenius ea t
  let e := expFix x.1 x.2
  let v := if 40 ≤ t then e * 65536 / fixOne else 65536 * fixOne / e
  if t = 40 then 65536 else min 0xFFFFFFFF (v + if Config.afRoundsUp ea t then 1 else 0)

/-- Ea of media profile k in meV, none where no such profile is in force (R96, R408). -/
def State.eaOf (s : State) (k : Nat) : Option Nat :=
  match s.recs? with
  | some r => ((r.profiles[k]?).getD none).map fun p => dflt p.ea 1100
  | none => none

/-- Add AF(T) × seconds to each accumulator (R79); they saturate. -/
def State.addAge (s : State) (temp : Int) (secs : Nat) : State :=
  let add (k : Fin 4) : Nat := match s.eaOf k.val with
    | some ea => min (2 ^ 64 - 1) (s.keeper.tk.acc[k] + afEntry ea temp * secs)
    | none => s.keeper.tk.acc[k]
  s.updTk fun t => { t with acc := Vector.ofFn add }

/-! Record, gap and wall clock. -/

/-- The timekeeping record (R79, R425, R473). -/
def State.writeTkRecord (s : State) : State :=
  (s.keeperLine 0).updTk fun t => { t with
    sinceRecord := 0, recOpsec := t.opsec.toNat, recWallMs := t.wallMs, recWallValid := t.wallValid, recAcc := t.acc, recLost := s.keeper.ev.lost }

/-- The clocks at a start of the keeper (R85, R86, R381 step 2): the power-cycle count rises. Kept time goes on over the dark interval, and a gap still
pending stays so, with the bands it has yet to mark. Otherwise the last record's values stand, a new gap is pending and the bands are to be marked. -/
def State.startClocks (s : State) (kept : Bool) (darkMs : Nat) : State :=
  let s := s.updTk fun t => { t with pcycles := satAdd 0xFFFFFF t.pcycles 1, wallSet := false, sinceRecord := 0, kept := kept }
  if kept then s.updTk fun t => { t with wallMs := t.wallMs + darkMs }
  else
    let s := if s.power.vauxPresent then s.raise 367 else s
    (s.updEv fun e => { e with lost := s.keeper.tk.recLost }).updTk fun t => { t with
      gapApplied := false, gapNegative := false, gapNoRef := false, gapHours := 0, gapReported := false
      opsec := BitVec.ofNat 40 t.recOpsec, wallMs := t.recWallMs, wallValid := t.recWallValid, acc := t.recAcc, gapPending := true,
      gapMarks := true }

/-- Dark-storage temperature (R86, R404). -/
def State.darkTemp (s : State) : Int := match s.recs? with
  | some r => (r.thermal.map (·.darkTemp)).getD 25
  | none => 25

/-- A Timestamp in ms (R86): it sets the wall clock, and resolves a pending gap. -/
def State.setTimestamp (s : State) (ms : Nat) : State :=
  let t := s.keeper.tk
  let setClock (s : State) : State := s.updTk fun t => { t with wallMs := ms, wallValid := true, wallSet := true, gapPending := false }
  if !t.gapPending then setClock s
  else if !t.wallValid then setClock ((s.raise 377).updTk fun t => { t with gapNoRef := true })
  else if ms ≤ t.wallMs then setClock ((s.raise 377).updTk fun t => { t with gapNegative := true })
  else
    let gap := ms - t.wallMs
    let add (k : Fin 4) : Nat := match s.eaOf k.val with
      | some ea => min (2 ^ 64 - 1) (t.acc[k] + afEntry ea s.darkTemp * gap / 1000)
      | none => t.acc[k]
    setClock (s.updTk fun t => { t with acc := Vector.ofFn add, gapApplied := true, gapHours := min 0xFFFFFFF (gap / 3600000) })

/-- Minutes of a media temperature fall into sixteen bins (R485). -/
def histBin (t : Int) : Fin 16 := ⟨min 15 ((t + 40) / 10).toNat, by omega⟩
def State.addMinutes (s : State) (n : Nat) : State :=
  let b := histBin s.keeper.tk.mediaTemp
  s.updTk fun t => { t with tempHist := t.tempHist.set b (satAdd 0xFFFFFFFF t.tempHist[b] n) }

/-- Composite Temperature: the hottest of both dies and the media (R483). -/
def State.composite (s : State) : Int := max s.keeper.tk.mediaTemp (max (s.com 0).temp (s.com 1).temp)

/-- One minute of operation (R483, R485). -/
def State.minutePassed (s : State) : State :=
  let c := s.composite
  (s.addMinutes 1).updTk fun t => { t with
    minuteSec := 0, busyMin := t.busyMin + (if t.busy then 1 else 0), busy := !(s.dies[0].host.slots.isEmpty && s.dies[1].host.slots.isEmpty),
    wtMin := t.wtMin + (if s.keeper.hu.degraded then 1 else 0), warnMin := t.warnMin + (if gradeMax < c then 1 else 0), critMin := t.critMin + (if gradeMax + 10 < c then 1 else 0) }

/-! The real-time tick (R27, R28). -/

/-- Units of `part` in a second, and in a microsecond. -/
def partSecond : Nat := 512000000
def partUsec : Nat := 512

/-- Time passes by ticks: the keeper counts it, and each die out of reset receives `n` toggles and counts the microseconds in its 48-bit count. -/
def State.ticks (s : State) (n usecs : Nat) : State :=
  let die (c : DieCommon) : DieCommon := if c.inReset then c else { c with usec := c.usec + BitVec.ofNat 48 usecs, tick := c.tick.sendMany n }
  ((s.updTk fun t => { t with usec := t.usec + usecs }).updCommon 0 die).updCommon 1 die

/-- One tick: 1 µs from XTAL25 while VIN is present, else one period of XTAL32K, which crosses to the keeper as a toggle. The last tick of a second
is left to the second's own event (log entry 49). -/
def State.tick (s : State) : State :=
  let p := s.keeper.tk.part
  let step (s : State) (w : Nat) : State :=
    if partSecond ≤ p + w then s else (s.ticks 1 ((p + w) / partUsec - p / partUsec)).updTk fun t => { t with part := p + w }
  if s.keeper.sup.vinOk && s.keeper.sup.xtal25 then step s 512
  else if s.keeper.sup.xtal32k && s.keeper.sup.vkeep then step (s.updTk fun t => { t with timebase := t.timebase.sendMany 1 }) 15625
  else s

/-- Ticks that the rest of the running second has. -/
def State.ticksLeft (s : State) : Nat :=
  let w := if s.keeper.sup.xtal25 then 512 else 15625
  (partSecond - s.keeper.tk.part) / w

/-- THERMAL_AGE_ACCUMULATE (R27, R79): a second of real time with VIN present. The tick needs one of the two crystals (R28). -/
def execThermalAgeAccumulate (s : State) : Out :=
  if !s.keeper.sup.vinOk || !(s.keeper.sup.xtal25 || s.keeper.sup.xtal32k) then unchanged s else
  let s := s.refreshMedia
  let s := s.addAge s.keeper.tk.mediaTemp 1
  let s := (s.ticks s.ticksLeft (1000000 - s.keeper.tk.part / partUsec)).updTk fun t => { t with
    opsec := t.opsec + 1, wallMs := t.wallMs + 1000, sinceRecord := t.sinceRecord + 1, minuteSec := t.minuteSec + 1, part := 0,
    timebase := if s.keeper.sup.xtal25 then t.timebase else t.timebase.sendMany s.ticksLeft }
  .next (if 60 ≤ s.keeper.tk.minuteSec then s.minutePassed else s)

/-- CARAPACE_TEMPERATURE_SAMPLE (R79): every 10 minutes in the Carapace-only state, on XTAL32K. -/
def execCarapaceTemperatureSample (s : State) : Out :=
  if s.keeper.sup.vinOk || !s.keeper.sup.vkeep || !s.keeper.sup.xtal32k then unchanged s else
  let s := s.refreshMedia
  .next ((s.addAge s.keeper.tk.mediaTemp 600).addMinutes 10)

/-- TIMEKEEPING_RECORD_WRITE (R79): once every hour of operation. -/
def execTimekeepingRecordWrite (s : State) : Out := if s.keeper.sup.vinOk then .next s.writeTkRecord else unchanged s

/-- GAP_TIMEOUT (R86): 377, and the gap stays zero. -/
def execGapTimeout (s : State) : Out :=
  if s.keeper.tk.gapPending && !s.keeper.tk.gapReported then .next ((s.raise 377).updTk fun t => { t with gapReported := true }) else unchanged s

end Sys2Proof.Machine
end

