-- ==== Sys2Proof/Machine/StatusCodes.lean ====
section
/-! DEFINITION. Status values that completions carry (NVMe generic and command specific codes as the rules name them; R301). -/

namespace Sys2Proof.Machine

/-- Successful completion. -/
def stOk : Status := { sct := 0, sc := 0, dnr := false }
/-- A generic command status. -/
def stGeneric (sc : Nat) : Status := { sct := 0, sc := sc, dnr := true }
/-- A command specific status. -/
def stSpecific (sc : Nat) : Status := { sct := 1, sc := sc, dnr := true }
/-- A vendor status of R301: DNR on every code but 0x80 and 0x88. -/
def stVendor (sc : Nat) : Status := { sct := 7, sc := sc, dnr := sc != 0x80 && sc != 0x88 }

/-- A status of the NVMe-MI response header: status code type 16 marks it as none of NVMe's. -/
def stMi (code : Nat) : Status := { sct := 16, sc := code, dnr := true }

def stInvalidOpcode : Status := stGeneric 0x01
def stInvalidField : Status := stGeneric 0x02
def stSequenceError : Status := stGeneric 0x0C
def stFwPending : Status := stSpecific 0x10
def stInvalidSlot : Status := stSpecific 0x06
def stInvalidImage : Status := stSpecific 0x07
def stActivationProhibited : Status := stSpecific 0x13
def stOptionCheckFailed : Status := stVendor 0x81
def stNothingStaged : Status := stVendor 0x82
def stStageOutOfOrder : Status := stVendor 0x83
def stStartOnlyChange : Status := stVendor 0x84
def stTableRefused : Status := stVendor 0x85
def stAccessRefused : Status := stVendor 0x86
def stKeyUnwrapFailed : Status := stVendor 0x87
def stInProgress : Status := stVendor 0x88

end Sys2Proof.Machine
end

