-- ==== Sys2Proof/Machine/HostOps.lean ====
section
/-! DEFINITION. Operations of the host side shared by its commands: completions, asynchronous events, and which admin commands a state
admits (R281, R287, R377, R385, R484, R489 to R491). -/

namespace Sys2Proof.Machine

/-- The die that a host command reaches. -/
def refDie (ref : CmdRef) : DieIx := ⟨ref.ctrl.val, ref.ctrl.isLt⟩

/-- The namespaces of the record in force, and their NSIDs. -/
def State.namespaces (s : State) : List NamespaceRec := (s.recs?.bind (·.namespaces)).getD []
def State.nsids (s : State) : List Nat := s.namespaces.map (·.nsid)

/-! Asynchronous events. -/

/-- Completion Dword 0 of an asynchronous event: type [2:0], information [15:8], log page [23:16] (NVMe Base; PRESUMED, log entry 31). -/
def asyncDw0 : AsyncEvent → Word
  | .invalidDoorbell => 0x00010100
  | .smartHealth info => BitVec.ofNat 32 (0x00020001 + info * 256)
  | .namespaceChanged => 0x00040002
  | .firmwareActivation => 0x00030102
  | .anaChange => 0x000C0302
  | .vendorLog lid => BitVec.ofNat 32 (7 + lid.toNat * 65536)
  | .sanitizeDone => 0x00810106
  | .firmwareLog => 0x00030500

/-- Asynchronous Event Configuration enables the event: bits 0 to 7 the Critical Warnings, 8 namespaces, 9 activation, 11 ANA. -/
def asyncEnabled (cfg : Word) : AsyncEvent → Bool
  | .smartHealth info => cfg.getLsbD info
  | .namespaceChanged => cfg.getLsbD 8
  | .firmwareActivation => cfg.getLsbD 9
  | .anaChange => cfg.getLsbD 11
  | .invalidDoorbell | .vendorLog _ | .sanitizeDone | .firmwareLog => true

/-- The log page that clears an event. -/
def asyncLog : AsyncEvent → Byte
  | .invalidDoorbell => 0x01
  | .smartHealth _ => 0x02
  | .namespaceChanged => 0x04
  | .firmwareActivation => 0x03
  | .anaChange => 0x0C
  | .vendorLog lid => lid
  | .sanitizeDone => 0x81
  | .firmwareLog => 0x03

/-- Completions are posted to this controller's queues: it is enabled and ready, and has not stopped (R287, R353 step 3). -/
def HostPort.posts (h : HostPort) : Bool := h.enabled && h.ready && !h.stopped

/-- An asynchronous event at one controller: it completes an outstanding request, or waits for one; a reported one is not repeated until
its log has been read. -/
def HostPort.async (h : HostPort) (c : Fin 2) (e : AsyncEvent) : HostPort :=
  if !h.posts || !asyncEnabled h.feat.asyncConfig e || h.masked.contains e || h.events.contains e then h
  else match h.aers with
    | cid :: rest => { h with
        aers := rest, masked := h.masked ++ [e],
        out := h.out ++ [{ ref := { ctrl := c, qid := 0, cid := cid, viaMi := false }, status := stOk, dw0 := asyncDw0 e, data := .none }] }
    | [] => { h with events := h.events ++ [e] }

/-- At both controllers. -/
def State.postAsync (s : State) (e : AsyncEvent) : State :=
  (s.updHost 0 fun h => h.async 0 e).updHost 1 fun h => h.async 1 e

/-- A log page read with RAE clear ends the masking of its events. -/
def HostPort.logRead (h : HostPort) (lid : Byte) : HostPort := { h with masked := h.masked.filter fun e => asyncLog e != lid }

/-! Completions. -/

/-- Crossings whose clocks stand in a power state (R34): the swarm ports' in PS3, and the host ports' and the DRAM's beside them in PS4. -/
def stoppedIn (ps : Nat) : List CrossingId :=
  if ps < 3 then [] else if ps = 3 then [.swarm 0, .swarm 1] else [.swarm 0, .swarm 1, .pcie 0, .pcie 1, .lpddr 0, .lpddr 1]

/-- The package moves to a power state (R292): 485, and the last operational state is kept. The clocks follow (R34). -/
def State.setPower (s : State) (ps : Nat) : State :=
  if s.keeper.sup.ps = ps then s else
  let s := (s.clockOrder true ((stoppedIn s.keeper.sup.ps).filter fun x => !(stoppedIn ps).contains x)).clockOrder false (stoppedIn ps)
  let s := if ps ≤ 2 then s.updSub fun x => { x with lastOp := ps } else s
  (s.updSup fun x => { x with ps := ps }).raise 485

/-- A command fetched in PS3 or PS4 returns the package to its last operational state (R293). -/
def State.wake (s : State) : State := if 3 ≤ s.keeper.sup.ps then s.setPower s.sub.lastOp else s

/-- The slot of a command that goes on after its first step. -/
def heldSlot (ref : CmdRef) (k : CmdKind) (nsid : Nat) : SlotCmd :=
  { ref := ref, kind := k, nsid := nsid, ranges := [], committed := true, buffered := false, looks := Vector.replicate 4 0, lookWait := none }

/-! Map lookups (R29, R31). -/

/-- Map lookups of a region. -/
def lookupLimit : Nat := 512

/-- Change the slots of both dies. -/
def State.updSlots (s : State) (f : SlotCmd → SlotCmd) : State :=
  (s.updHost 0 fun h => { h with slots := h.slots.map f }).updHost 1 fun h => { h with slots := h.slots.map f }

/-- Rank of a command among those that wait (R31). -/
def cmdRank (x : SlotCmd) : Nat := match x.kind with
  | .read | .verify => 0
  | .write | .copy | .deallocate | .writeZeroes | .flush | .admin | .vendor => 1

/-- Of the commands that a region holds, the one that its next free lookup goes to: reads before writes, the oldest of equals. -/
def bestHeld (g : RegionIx) : List SlotCmd → Option SlotCmd
  | [] => none
  | x :: xs => if x.lookWait != some g then bestHeld g xs else
    match bestHeld g xs with
    | some y => if cmdRank y < cmdRank x then some y else some x
    | none => some x

/-- A free lookup of a region goes to a command that it holds. -/
def State.grantLookup (s : State) (g : RegionIx) : State :=
  if lookupLimit ≤ (s.regions[g]).lookups then s
  else match bestHeld g (s.dies[0].host.slots ++ s.dies[1].host.slots) with
    | none => s
    | some x => (s.updSlots fun y => if y.ref == x.ref then { y with looks := y.looks.set g (y.looks[g] + 1), lookWait := none } else y).updRegion g
        fun r => { r with lookups := r.lookups + 1, lookupWaiting := r.lookupWaiting - 1 }

/-- A lookup of a region has come to its end: the oldest command that holds some gives one up, and a held command takes its place. -/
def State.lookupDone (s : State) (g : RegionIx) : State :=
  let s := match (s.dies[0].host.slots ++ s.dies[1].host.slots).find? fun x => x.looks[g] != 0 with
    | some x => s.updSlots fun y => if y.ref == x.ref then { y with looks := y.looks.set g (y.looks[g] - 1) } else y
    | none => s
  (s.updRegion g fun r => { r with lookups := r.lookups - 1 }).grantLookup g

/-- A command leaves its slot: its lookups free, and go to those that wait. -/
def State.endLooks (s : State) (x : SlotCmd) : State :=
  (List.finRange 4).foldl (fun s g =>
    if x.looks[g] = 0 ∧ x.lookWait ≠ some g then s
    else (s.updRegion g fun r => { r with lookups := r.lookups - x.looks[g], lookupWaiting := r.lookupWaiting - (if x.lookWait = some g then 1 else 0) }).grantLookup g) s

/-- Bytes that a completion moves to its host: the queue entry and what the command returns. -/
def cplBytes : Returned → Nat
  | .none => 16
  | .units l => 16 + 4096 * (l.filter Option.isSome).length
  | .fields l => 16 + (l.map (·.size)).sum
  | .words l => 16 + 4 * l.length

/-- Complete a command with its status, Dword 0 and data; its slot frees. Status other than success enters the Error Information log, but for
status of the NVMe-MI response. -/
def State.completeWith (s : State) (ref : CmdRef) (st : Status) (dw0 : Word) (data : Returned) : State :=
  let c : CplRec := { ref := ref, status := st, dw0 := dw0, data := data }
  let bad := (st.sc != 0 || st.sct != 0) && st.sct != 16
  let s := match s.dies[ref.ctrl].host.slots.find? fun x => x.ref == ref with
    | some x => (s.updHost ref.ctrl fun h => { h with slots := h.slots.filter fun x => x.ref != ref }).endLooks x
    | none => if ref.viaMi then s else s.wake
  let s := if ref.viaMi || !s.dies[ref.ctrl].host.posts then s else s.carry (.pcie ⟨ref.ctrl.val, ref.ctrl.isLt⟩) true (cplBytes data)
  (s.updHost ref.ctrl fun h =>
    let h := { h with slots := h.slots.filter fun x => x.ref != ref, writes := h.writes.filter fun x => x.orphan || x.ref != ref }
    if !ref.viaMi && !h.posts then h
    else { h with
      out := h.out ++ [c],
      errorLog := if bad then (h.errorLog ++ [c]).drop (h.errorLog.length + 1 - 64) else h.errorLog,
      errCount := if bad then h.errCount + 1 else h.errCount }).updTk fun t => { t with busy := true }

def State.complete (s : State) (ref : CmdRef) (st : Status) (dw0 : Word) : State := s.completeWith ref st dw0 .none

/-! Package conditions. -/

/-- A block or crypto erase of Sanitize runs (R291). -/
def State.sanitizing (s : State) : Bool := match s.sub.sanitize with
  | .running _ => true
  | .never | .done _ | .failed => false

/-- Host link up: trained, and not held by PERST# or a stopped clock (R278). -/
def State.hostLinkUp (s : State) (d : DieIx) : Bool := decide (s.dies[d].host.speed ≠ 0) && !s.dies[d].host.perst

/-- Usable LPDDR5X of a die: inline ECC takes one ninth (R150). -/
def State.dramBytes (s : State) (d : DieIx) : Nat := s.dies[d].mem.capacity * 8 / 9

/-- Identifier of the installed key-encryption key, 0 for none (R334). -/
def State.kekId (s : State) : Nat := (if (s.com 0).outOfService then s.dies[1].cipher.kekId else s.dies[0].cipher.kekId).toNat

/-- A command that modifies media, or a fetched I/O command, cancels the prepared state of diapause (R295, R364). -/
def State.cancelReady (s : State) : State :=
  if s.diapauseReady then (s.updSub fun x => { x with diapause := .cancelled }).clockOrder true [.lpddr 0, .lpddr 1] else s

/-! Which admin commands are admitted. -/

def stSanitizeInProgress : Status := stGeneric 0x1D
def stSanitizeFailed : Status := stGeneric 0x1C

/-- Vendor commands of R294. -/
def vendorKind : AdminKind → Bool
  | .optionStage | .optionCheck | .optionApply | .mgmtRead | .mgmtWrite | .membershipStage | .diapausePrepare | .diapauseStatus => true
  | _ => false

/-- Recovery mode (R385): the status that refuses the command, none for one that it supports. -/
def recoveryGate (sealed : Bool) : AdminKind → Option Status
  | .identify cns => if cns = 1 then none else some stInvalidField
  | .getLog lid => if [0x01, 0x03, 0xC3, 0xC4].contains lid then none else some stInvalidField
  | .fwDownload | .fwCommit => if sealed then some stSequenceError else none
  | .abort | .asyncEvent | .mgmtRead => none
  | _ => some stInvalidOpcode

/-- An unconfigured package (R377). -/
def unconfiguredGate : AdminKind → Option Status
  | .optionStage | .optionCheck | .optionApply | .fwDownload | .fwCommit | .mgmtRead => none
  | _ => some stInvalidOpcode

/-- The admin commands that the tunnel and the vendor commands of the management port carry (R489). -/
def miCarries : AdminKind → Bool
  | .identify _ | .getLog _ | .getFeatures | .fwDownload | .fwCommit | .optionStage | .optionCheck | .optionApply | .mgmtRead | .mgmtWrite
  | .membershipStage => true
  | _ => false

/-- While a sanitize runs (R291, R301): what the base specification lets through; vendor commands answer Operation In Progress, except the
reads of state; after a failed sanitize the refusal is Sanitize Failed. -/
def sanitizeGate (refuse : Status) : AdminKind → Option Status
  | .identify _ | .getLog _ | .getFeatures | .setFeatures | .abort | .asyncEvent | .queueWork | .sanitize | .fwDownload | .fwCommit
  | .mgmtRead | .diapauseStatus => none
  | k => some (if vendorKind k then stInProgress else refuse)

/-- The keeper alone answers: Carapace-only, the safe state, or D0 held in reset (R491). -/
def State.keeperOnly (s : State) : Bool :=
  s.keeper.sup.state == .carapace || s.keeper.fc.safe || s.keeper.boot.stage == .heldInReset

/-- The status that refuses an admin command in the present state, none where it may run. -/
def State.adminGate (s : State) (k : AdminKind) (ref : CmdRef) : Option Status :=
  let h := s.dies[ref.ctrl].host
  if ref.viaMi && !miCarries k then some stInvalidOpcode
  else if s.keeperOnly then (if !ref.viaMi then some stInvalidOpcode else if k == .mgmtRead || k == .mgmtWrite then none else some (stMi 0x03))
  else if s.keeper.boot.stage = .recovery then recoveryGate s.keeper.boot.sealed k
  else if !(h.enabled && h.ready) && !(ref.viaMi && vendorKind k) then some stSequenceError
  else if s.keeper.boot.unconfigured then unconfiguredGate k
  else match s.sub.sanitize with
    | .running _ => sanitizeGate stSanitizeInProgress k
    | .failed => sanitizeGate stSanitizeFailed k
    | .never | .done _ => none

/-- An earlier admin command still runs: it waits in a slot of either die. Abort and Asynchronous Event Request are handled when fetched
(R285, R490). -/
def State.adminBusy (s : State) (k : AdminKind) (ref : CmdRef) : Bool :=
  (match k with | .abort | .asyncEvent => false | _ => true) &&
  (s.dies[0].host.slots ++ s.dies[1].host.slots).any fun x => x.kind == .admin && x.ref != ref

/-- The die of the command's host port takes no new tokens (R26), and the command has no slot yet. -/
def State.tokensHeld (s : State) (ref : CmdRef) : Bool :=
  !ref.viaMi && (s.com (refDie ref)).tokensPaused && !(s.dies[refDie ref].host.slots.any fun x => x.ref == ref)

/-- An admin command is executed: after the earlier ones, and where the present state admits it. -/
def State.adminThen (s : State) (k : AdminKind) (ref : CmdRef) (f : State → Out) : Out :=
  if s.adminBusy k ref || s.tokensHeld ref then unchanged s
  else match s.adminGate k ref with
    | some st => .next (s.complete ref st 0)
    | none => f s

end Sys2Proof.Machine
end

