-- ==== Sys2Proof/Machine/Parity.lean ====
section
/-! DEFINITION. The arithmetic of band parity and of stripe parity over GF(2^8), byte by byte (R179 to R184, R214). Payload bytes are no part of
State (DESIGN CHOICE, log entry 68); Machine/RowBytes.lean applies these functions to the bytes that the identities in State stand for. -/

namespace Sys2Proof.Machine

/-- Twice a byte, polynomial 0x11D (R179). -/
def gfDouble (a : Byte) : Byte := (a <<< 1) ^^^ (if a.getLsbD 7 then 0x1D else 0)
/-- Product, b taken bit by bit. -/
def gfMul (a b : Byte) : Byte :=
  ((List.range 8).foldl (fun (acc : Byte × Byte) i => (if b.getLsbD i then acc.1 ^^^ acc.2 else acc.1, gfDouble acc.2)) (0, a)).1
/-- a^254 is the inverse of a. -/
def gfInv (a : Byte) : Byte := Nat.repeat (gfMul a) 253 a
/-- g^n, with g = 0x02. -/
def gfPow (n : Nat) : Byte := Nat.repeat gfDouble n 1

/-! Band parity (R179, R180, R184): the bytes at one offset of a frame row, by data index; a pad slot counts as zero. -/

def bandP0 (d : List Byte) : Byte := d.foldr (· ^^^ ·) 0
/-- The sum of g^i · d_i from index i on. -/
def bandP1From (i : Nat) : List Byte → Byte
  | [] => 0
  | x :: xs => gfMul (gfPow i) x ^^^ bandP1From (i + 1) xs
def bandP1 (d : List Byte) : Byte := bandP1From 0 d

/-- Indices of the erased data positions. -/
def erasedAt (d : List (Option Byte)) : List Nat := (d.zipIdx.filter fun x => x.1.isNone).map (·.2)

/-- The solution of a row with at most two erased positions, data and parity together; none past two (R184). -/
def bandSolve (d : List (Option Byte)) (p0 p1 : Option Byte) : Option (List Byte) :=
  let known := d.map fun x => x.getD 0
  let s0 := p0.map fun p => p ^^^ bandP0 known
  let s1 := p1.map fun p => p ^^^ bandP1 known
  match erasedAt d, s0, s1 with
  | [], _, _ => some known
  | [a], some s, _ => some (known.set a s)
  | [a], none, some s => some (known.set a (gfMul s (gfInv (gfPow a))))
  | [a, b], some s0, some s1 =>
    let da := gfMul (s1 ^^^ gfMul (gfPow b) s0) (gfInv (gfPow a ^^^ gfPow b))
    some ((known.set a da).set b (s0 ^^^ da))
  | _, _, _ => none

/-! Stripe parity (R214). -/

/-- c(i, j) = 1 / (x_i ⊕ y_j) with x_i = i and y_j = 0x80 + j. -/
def stripeCoef (i j : Nat) : Byte := gfInv (BitVec.ofNat 8 i ^^^ BitVec.ofNat 8 (0x80 + j))
/-- Holder i takes the byte of data position j into its parity byte; a retract takes it out by the same sum (R214, R219, R224). -/
def stripeSum (i : Nat) (p : Byte) (j : Nat) (d : Byte) : Byte := p ^^^ gfMul (stripeCoef i j) d
/-- The parity byte of holder i over the positions that it has applied. -/
def stripeParity (i : Nat) (ds : List (Nat × Byte)) : Byte := ds.foldl (fun p x => stripeSum i p x.1 x.2) 0

end Sys2Proof.Machine
end

