-- ==== Sys2Proof/Machine/SwarmOps.lean ====
section
/-! DEFINITION. Operations of the swarm shared by its messages: the table, placement, sending, segment and stripe tables, light requests
(R197 to R235, R252 to R256, R272). -/

namespace Sys2Proof.Machine

def State.updSwarm (s : State) (f : SwarmSt → SwarmSt) : State := { s with swarm := f s.swarm }

/-! Membership. -/

/-- The package's identity record in force. -/
def State.identity (s : State) : Option IdentityRec := s.recs?.bind (·.identity)
/-- The package's own member ID (R197). -/
def State.ownMember (s : State) : Option Nat := s.identity.map (·.member)
/-- The member ID under which the package acts: the adopted one where it has adopted (R266). -/
def State.actingMember (s : State) : Nat := match s.swarm.adopted with
  | some a => a.1
  | none => s.ownMember.getD 0xFFFF
/-- Entry of a member. -/
def entryFor (t : MemTable) (c : Nat) : Option MemberEntry := t.members.find? fun e => e.member == c
def State.memberEntry (s : State) (c : Nat) : Option MemberEntry := s.swarm.applied.bind fun t => entryFor t c
/-- The package's own entry. -/
def State.ownEntry (s : State) : Option MemberEntry := s.ownMember.bind s.memberEntry
/-- The package's group and its descriptor. -/
def State.ownGroup (s : State) : Option GroupDesc := match s.swarm.applied, s.ownEntry with
  | some t, some e => t.groups.find? fun g => g.group == e.group
  | _, _ => none
def State.epoch (s : State) : Nat := (s.swarm.applied.map (·.epoch)).getD 0

/-- Two members share a shelf when rack and shelf agree (R197). -/
def sameShelf (a b : MemberEntry) : Bool := a.rack == b.rack && a.shelf == b.shelf
/-! Peers. -/

def State.session? (s : State) (c : Nat) : Option Session := s.swarm.sessions.find? fun x => x.peer == c
def State.updSession (s : State) (c : Nat) (f : Session → Session) : State :=
  s.updSwarm fun w => { w with sessions := w.sessions.map fun x => if x.peer == c then f x else x }
/-- A peer is lit (R208, R255). -/
def State.isLit (s : State) (c : Nat) : Bool := match s.session? c with
  | some x => x.lit
  | none => false
def freshPeer (c : Nat) : PeerView := { member := c, status := 0, applied := 0, reported := false, deferred := false, rebuildClear := false }
def State.peer (s : State) (c : Nat) : PeerView := (s.swarm.peers.find? fun p => p.member == c).getD (freshPeer c)
def State.updPeer (s : State) (c : Nat) (f : PeerView → PeerView) : State :=
  let p := f (s.peer c)
  s.updSwarm fun w => { w with peers := p :: w.peers.filter fun q => q.member != c }

/-- STATUS bits of a HEARTBEAT (R258). -/
def hbReadOnly : Nat := 0
def hbParityLow : Nat := 1
def hbLeadClosed : Nat := 2
def hbLeaveDone : Nat := 3
def hbDiapause : Nat := 4
def hbOneDie : Nat := 5
def hbRebuild : Nat := 6
def State.peerFlag (s : State) (c bit : Nat) : Bool := (s.peer c).status.getLsbD bit

/-! Placement (R207 to R211). -/

/-- A rank key: by H descending, then member ID ascending. -/
def rankBy (h : Nat → Nat) (cs : List Nat) : List Nat :=
  sortBy (fun a b => decide (h b < h a) || (h a == h b && decide (a ≤ b))) cs

def State.hash (s : State) (tag : List Byte) (x y c : Nat) : Nat :=
  placementHash tag ((s.swarm.applied.map (·.swarmId)).getD 0) x y c

/-- ACTIVE members of the package's group. -/
def State.groupActive (s : State) : List MemberEntry := match s.swarm.applied, s.ownGroup with
  | some t, some g => t.members.filter fun e => e.group == g.group && e.state == .active
  | _, _ => []

/-- Leader candidates for a segment, ranked (R209). -/
def State.leadersFor (s : State) (g : RegionIx) (band seg : Nat) : List Nat :=
  match s.ownEntry, s.ownGroup with
  | some me, some gd =>
    let x := me.member * 4 + g.val
    let y := ((s.band g band).openOpsec * 2 ^ 19 + band * 16 + seg) % 2 ^ 64
    let ok (e : MemberEntry) : Bool := e.member != me.member && s.isLit e.member && !s.peerFlag e.member hbReadOnly && !s.peerFlag e.member hbParityLow &&
      !s.peerFlag e.member hbLeadClosed && (gd.shelfLocal || !sameShelf e me)
    rankBy (s.hash tagLead x y) ((s.groupActive.filter ok).map (·.member))
  | _, _ => []

/-- Holders of a new stripe, the leader first (R210); none when fewer than m qualify. -/
def State.chooseHolders (s : State) (x : Nat) (sender : Nat) (m : Nat) : Option (List Nat) :=
  match s.ownEntry, s.ownGroup with
  | some me, some gd =>
    let ok (e : MemberEntry) : Bool := e.member != me.member && !s.peerFlag e.member hbReadOnly && !s.peerFlag e.member hbParityLow
    let ranked := rankBy (s.hash tagHold x 0) ((s.groupActive.filter ok).map (·.member))
    let shares (a b : Nat) : Bool := match s.memberEntry a, s.memberEntry b with
      | some p, some q => sameShelf p q
      | _, _ => false
    let chosen := ranked.foldl (fun (acc : List Nat) c =>
      if m ≤ acc.length then acc
      else if !gd.shelfLocal && (shares c sender || acc.any (shares c)) then acc else acc ++ [c]) [me.member]
    if chosen.length < m then none else some chosen
  | _, _ => none

/-- Member a ranks before member b among the holders of a stripe (R207, R210). -/
def State.holdBefore (s : State) (stripe a b : Nat) : Bool :=
  let h := s.hash tagHold stripe 0
  decide (h b < h a) || (h a == h b && decide (a < b))

/-- Members of a group in the order of the holders of a stripe (R210). -/
def State.holdOrder (s : State) (stripe : Nat) (es : List MemberEntry) : List Nat := rankBy (s.hash tagHold stripe 0) (es.map (·.member))

/-- A candidate may become a holder of a stripe beside its other holders and its data members. -/
def State.holdFits (s : State) (r : StripeRec) (c : Nat) : Bool :=
  let shares (b : Nat) : Bool := match s.memberEntry c, s.memberEntry b with
    | some p, some q => sameShelf p q
    | _, _ => false
  ((s.ownGroup.map (·.shelfLocal)).getD false) || !((r.holders.any fun h => shares h.member) || (r.data.any fun d => shares d.member))

/-- Candidates that are no holders of the stripe yet. -/
def State.newHolders (s : State) (r : StripeRec) : List MemberEntry := s.groupActive.filter fun e =>
  !(r.holders.any fun h => h.member == e.member) && !s.peerFlag e.member hbReadOnly && !s.peerFlag e.member hbParityLow

/-- The next holder candidate past the present ones (R230, R263). -/
def State.nextHolder (s : State) (r : StripeRec) : Option Nat := (s.holdOrder r.stripe (s.newHolders r)).find? (s.holdFits r)

/-- The candidate that follows a declining holder in the ranking (R210). The declining member's own shelf no longer counts. -/
def State.holderAfter (s : State) (r : StripeRec) (member : Nat) : Option Nat :=
  let r := { r with holders := r.holders.filter fun h => h.member != member }
  ((s.holdOrder r.stripe (s.newHolders r)).dropWhile fun c => s.holdBefore r.stripe c member || c == member).find? (s.holdFits r)

/-! Sending (R252 to R254). -/

/-- The die whose swarm port carries a region's traffic: its own, or the other one when that port is down (R237). -/
def State.sendDie (s : State) (g : RegionIx) : DieIx :=
  let d := dieOfRegion g
  if s.swarm.ports[d].speed = 0 then otherDie d else d

/-- A counter at 2^33 sends nothing more (R250). -/
def counterEnd : Nat := 2 ^ 33

/-- New messages not yet acknowledged. -/
def HalfTx.outstanding (h : HalfTx) : Nat := (h.unacked.map fun r => r.msgs.length).sum

/-- Send queued messages while credit, the record limit and the counter allow, one message to a record. -/
def HalfTx.pump (h : HalfTx) : Nat → HalfTx
  | 0 => h
  | n + 1 => match h.queue with
    | [] => h
    | m :: rest =>
      if h.credit ≤ h.outstanding ∨ 4096 ≤ h.unacked.length then h
      else if counterEnd ≤ h.ctr then { h with refused := true }
      else HalfTx.pump { h with queue := rest, ctr := h.ctr + 1, unacked := h.unacked ++ [SentRec.mk h.ctr [m] 0] } n

/-- A half of a session seals records: the first refusal under its key raises Cipher counter exhausted at its die (R331). -/
def State.sealWith (s : State) (c : Nat) (k : DieIx) (f : HalfTx → HalfTx) : State :=
  let was := ((s.session? c).map fun x => x.tx[k].refused).getD true
  let s := s.updSession c fun x => { x with tx := x.tx.set k (f x.tx[k]) }
  if !was && ((s.session? c).map fun x => x.tx[k].refused).getD false then s.raise (dieSrc k 12) else s

/-- Records sent on a half acknowledge in their body headers: one a half, D0's first where both are due (R242, R253). -/
def Session.acked (x : Session) (sent : Nat) : Session :=
  let clear (y : Session) (k : Fin 2) : Session := { y with rx := y.rx.set k { y.rx[k] with ackDue := false } }
  if sent = 0 then x
  else if sent = 1 then clear x (if x.rx[0].ackDue then 0 else 1)
  else clear (clear x 0) 1

/-- Send a message to a peer from a die's half. Without a session, or fenced, nothing goes out (R206, R477). -/
def State.sendFrom (s : State) (d : DieIx) (hdr : MsgHdr) (m : LMsg) : State :=
  if s.swarm.fenced || s.swarm.silent then s else
  let was := ((s.session? hdr.peer).map fun x => x.tx[d].ctr).getD 0
  let s := s.sealWith hdr.peer d fun h =>
    let h : HalfTx := { h with queue := h.queue ++ [OutMsg.mk h.msn hdr m], msn := h.msn + 1 }
    h.pump h.queue.length
  s.updSession hdr.peer fun x => x.acked (x.tx[d].ctr - was)

/-- From the die of D0, or of D1 where D0 has no port up. -/
def State.send (s : State) (hdr : MsgHdr) (m : LMsg) : State := s.sendFrom (if s.swarm.ports[0].speed = 0 then 1 else 0) hdr m

/-- A header of a new operation toward a peer, under the applied epoch. -/
def State.newHdr (s : State) (peer : Nat) : State × MsgHdr :=
  (s.updSwarm fun w => { w with nextOpid := w.nextOpid + 1 }, { peer := peer, epoch := s.epoch, opid := s.swarm.nextOpid })

/-- A request: sent, and its answer awaited (R256). -/
def State.request (s : State) (d : DieIx) (hdr : MsgHdr) (m : LMsg) : State :=
  (s.updSwarm fun w => { w with waits := w.waits ++ [{ hdr := hdr, msg := m }] }).sendFrom d hdr m

/-- The answer to a request, kept for a repeat of its OPID (R256). -/
def State.answer (s : State) (hdr : MsgHdr) (m : LMsg) : State :=
  (s.updSwarm fun w => { w with answered := w.answered ++ [(hdr, m)] }).send hdr m

def nakStale : Nat := 0x01
def nakAhead : Nat := 0x02
def nakNoPlacement : Nat := 0x03
def nakDeclined : Nat := 0x04
def nakBusy : Nat := 0x05
def nakWrongGroup : Nat := 0x06
def nakNoRecord : Nat := 0x07
def nakDuplicate : Nat := 0x08
def nakWithdrawn : Nat := 0x09
def nakCheckFail : Nat := 0x0A
def nakMalformed : Nat := 0x0B
def nakNotHeld : Nat := 0x0C
def nakNoNamespace : Nat := 0x0D

/-- Answer NAK (R258). -/
def State.nak (s : State) (hdr : MsgHdr) (reason refused : Nat) : State :=
  s.answer hdr (.nak reason refused (if reason = nakStale ∨ reason = nakAhead then s.epoch else 0))

/-- The answer to an operation has come. -/
def State.answeredBy (s : State) (hdr : MsgHdr) : State :=
  s.updSwarm fun w => { w with waits := w.waits.filter fun r => !(r.hdr.peer == hdr.peer && r.hdr.opid == hdr.opid) }
/-- The request that a reply answers. -/
def State.waitOf (s : State) (hdr : MsgHdr) : Option PendReq := s.swarm.waits.find? fun r => r.hdr.peer == hdr.peer && r.hdr.opid == hdr.opid

/-- Send once every record now in the region's journal tail is durable; the region closes its tail frame for it (R139, R234). -/
def State.sendDurable (s : State) (g : RegionIx) (hdr : MsgHdr) (m : LMsg) (isAnswer : Bool) : State :=
  match (s.regions[g]).journal.tail.getLast? with
  | none => if isAnswer then s.answer hdr m else s.sendFrom (s.sendDie g) hdr m
  | some f =>
    (s.updRegion g RegionSt.closeTail).updSwarm fun w => { w with gated := w.gated ++ [{ region := g, frame := f.num, hdr := hdr, msg := m, answer := isAnswer }] }

/-! Segment entries (R213). -/

def freshSeg (band seg : Nat) : SegEntry :=
  { band := band, seg := seg, state := .unstriped, position := 0, stripe := 0, done := 0, retracted := 0 }
def State.seg (s : State) (g : RegionIx) (band seg : Nat) : SegEntry :=
  ((s.regions[g]).tab.segs.find? fun e => e.band == band && e.seg == seg).getD (freshSeg band seg)
/-- Change a segment entry and journal it. -/
def State.updSeg (s : State) (g : RegionIx) (band seg : Nat) (f : SegEntry → SegEntry) : State :=
  let e := f (s.seg g band seg)
  (s.updTab g fun t => { t with segs := e :: t.segs.filter fun x => !(x.band == band && x.seg == seg) }).jot g (.segState e)

/-- Segments of a band: its frame slots over 262,144, rounded up (R212). -/
def State.segCount (s : State) (g : RegionIx) (band : Nat) : Nat := match s.geo? g, s.regionProf? g with
  | some geo, some p => (p.wordlines * geoW geo * framesPerRow p (s.band g band).density + 262143) / 262144
  | _, _ => 0

/-! Stripe records (R220). -/

/-- The region that keeps a stripe's record: stripe sequence mod 4 (R220), or the region adopting it. -/
def State.stripeRegion (s : State) (stripe : Nat) : RegionIx :=
  let g : RegionIx := ⟨stripe / 16384 % 4, Nat.mod_lt _ (by decide)⟩
  if (s.regions[partnerRegion g]).adopting then partnerRegion g else g
def State.stripe? (s : State) (stripe : Nat) : Option StripeRec :=
  (s.regions[s.stripeRegion stripe]).tab.stripes.find? fun r => r.stripe == stripe
/-- Write a stripe record and journal it. -/
def State.putStripe (s : State) (r : StripeRec) : State :=
  let g := s.stripeRegion r.stripe
  (s.updTab g fun t => { t with stripes := if t.stripes.any fun x => x.stripe == r.stripe then t.stripes.map fun x => if x.stripe == r.stripe then r else x
                                          else t.stripes ++ [r] }).jot g (.stripeRec r)
/-- Free a stripe record (R221). -/
def State.freeStripe (s : State) (stripe : Nat) : State :=
  let g := s.stripeRegion stripe
  (s.updTab g fun t => { t with stripes := t.stripes.filter fun x => x.stripe != stripe }).jot g (.stripeRelease stripe)

def State.allStripes (s : State) : List StripeRec := s.regions.toList.flatMap fun r => r.tab.stripes
/-- The leader's member ID of a stripe ID (R215). -/
def leaderOf (stripe : Nat) : Nat := stripe % 16384
/-- A member that keeps its roles: listed, and not LOST without an adopter (R228, R231). -/
def State.survives (s : State) (c : Nat) : Bool := match s.memberEntry c with
  | some e => e.state != .lost || e.adopter.isSome
  | none => false
/-- The member that leads a stripe now: the holder of lowest parity index that survives (R215, R228). -/
def State.leaderNow (s : State) (r : StripeRec) : Option Nat := (r.holders.find? fun h => s.survives h.member).map (·.member)
def State.leads (s : State) (r : StripeRec) : Bool := s.leaderNow r == some s.actingMember

/-- Every filled position is applied or retracted at this member, with the stripe closed (R221). -/
def stripeSettled (r : StripeRec) : Bool := (r.data.take r.filled).all fun d => d.applied || d.retracted
def allRetracted (r : StripeRec) : Bool := (r.data.take r.filled).all fun d => d.retracted

/-- Free accumulation bands outside the retract reserve: erased bands of the SLC pool less every reserve (R169, R232). -/
def State.accumFree (s : State) (g : RegionIx) : Nat := match s.geo? g, s.regionProf? g with
  | some geo, some p =>
    let ready := ((s.regions[g]).tab.bands.filter fun x => x.kind == .rescue && x.phase == .opened).length
    (freeBands geo p (s.regions[g]).tab true).length -
      ((dflt geo.resRescue 2 - ready) + dflt geo.resJournal 4 + dflt geo.resStaging 1 + dflt geo.resRetract 2)
  | _, _ => 0

/-- PARITY_LOW and Parity capacity low (R232). -/
def State.checkParity (s : State) : State :=
  let near := (List.finRange 4).any fun g => (s.geo? g).isSome && (decide (29491 ≤ (s.regions[g]).tab.stripes.length) || decide (s.accumFree g < 2))
  let clear := (List.finRange 4).all fun g => decide ((s.regions[g]).tab.stripes.length < 26214)
  if near && !s.swarm.parityLow then (s.updSwarm fun w => { w with parityLow := true }).raise 419
  else if !near && clear then s.updSwarm fun w => { w with parityLow := false } else s

/-! HEARTBEAT status of this package (R208, R258). -/

/-- Rebuild work outstanding toward a peer (R263). -/
def State.rebuildToward (s : State) (c : Nat) : Bool := s.swarm.tasks.any fun t => !t.done && t.target == some c

def State.ownStatus (s : State) (toward : Nat) : Half :=
  let dia := match s.sub.diapause with | .preparing _ | .ready => true | .lit | .cancelled => false
  BitVec.ofNat 16 ((if s.readOnlyNow then 1 else 0) + (if s.swarm.parityLow then 2 else 0) + (if s.swarm.leadClosed then 4 else 0) +
    (if s.swarm.leaveDone then 8 else 0) + (if dia then 16 else 0) +
    (if (s.com 0).outOfService || (s.com 1).outOfService then 32 else 0) + (if s.rebuildToward toward then 64 else 0))

/-- Durable pending entries toward a holder, or toward all (R226, R234). -/
def State.pendingToward (s : State) (c : Option Nat) : Nat :=
  (s.swarm.work.filter fun w => w.deferred && (c.isNone || c == some w.holder)).length +
  (s.allStripes.flatMap fun (r : StripeRec) => if s.leads r then r.holders.filter fun (h : HolderPos) => !h.acked && h.member != s.actingMember && (c.isNone || c == some h.member) else []).length

def State.heartbeatTo (s : State) (c : Nat) : LMsg :=
  .heartbeat (s.ownStatus c) s.epoch ((s.swarm.staged.map (·.epoch)).getD 0) (s.pendingToward (some c)) s.keeper.tk.opsec.toNat

/-! Light requests (R272). -/

/-- Lit members of the package's group. -/
def State.litGroup (s : State) : List Nat := match s.swarm.applied, s.ownGroup with
  | some t, some g => ((t.members.filter fun e => e.group == g.group && s.isLit e.member).map (·.member))
  | _, _ => []

def lightMsg (r : LightReq) (cancel : Bool) : LMsg := .lightRequest r.origin r.rack r.shelf r.reason cancel r.request r.waiting

/-- A light request for a dark member's shelf, one for each rack and shelf pair: a further need raises its count of waiting operations. -/
def State.postLight (s : State) (member reason : Nat) : State :=
  match s.memberEntry member with
  | none => s
  | some e =>
    if e.state = .lost then s else
    let me := s.actingMember
    if s.swarm.light.any fun r => r.origin == me && r.rack == e.rack && r.shelf == e.shelf then
      s.updSwarm fun w => { w with light := w.light.map fun r => if r.origin == me && r.rack == e.rack && r.shelf == e.shelf then { r with waiting := r.waiting + 1 } else r }
    else
      let r : LightReq := { origin := me, rack := e.rack, shelf := e.shelf, reason := reason, request := s.swarm.nextRequest, waiting := 1, posted := s.keeper.tk.opsec.toNat }
      let s := s.updSwarm fun w => { w with light := w.light ++ [r], nextRequest := w.nextRequest + 1 }
      let s := (s.raise 418).postAsync (.vendorLog 0xC2)
      s.litGroup.foldl (fun s c => let p := s.newHdr c; p.1.send p.2 (lightMsg r false)) s

/-! Work toward holders (R224 to R226). -/

/-- Defer work for a dark holder (R226): a durable pending entry; the first for each holder raises 408, beyond 4,096 entries 409. -/
def State.deferred (s : State) (holder : Nat) : State :=
  let s := if (s.peer holder).deferred then s else (s.updPeer holder fun p => { p with deferred := true }).raise 408
  let n := s.pendingToward none
  let s := if 4096 < n ∧ s.swarm.backlogHigh = false then (s.updSwarm fun w => { w with backlogHigh := true }).raise 409 else s
  s.postLight holder 4

/-- The backlog has fallen (R226). -/
def State.backlogFell (s : State) : State := if s.pendingToward none ≤ 2048 then s.updSwarm fun w => { w with backlogHigh := false } else s

def sameWork (a b : SegWork) : Bool := a.region == b.region && a.band == b.band && a.seg == b.seg && a.index == b.index

/-- The messages of a work item, and the message that its answer names. -/
def workMsgs (w : SegWork) : List LMsg × LMsg :=
  let k := stripeCoef w.index w.position
  match w.item with
  | .contrib => ([.contribRun w.stripe w.position w.index k], .contribDone w.stripe w.position w.index false)
  | .retract => ([.contribRun w.stripe w.position w.index k], .retract w.stripe w.position w.index 262144 0 false false true false false k)
  | .neverSent => ([], .retract w.stripe w.position w.index 0 0 true false true false false 0)
  | .release => ([], .retract w.stripe w.position w.index 0 0 false true true false false 0)
  | .record => ([], .stripeRecordAck w.stripe 0)

/-- The map segments of the granules that lie in frames of a segment of a band are resident (R149). -/
def State.framesLoaded (s : State) (g : RegionIx) (b seg first count : Nat) : Bool := match s.geo? g with
  | none => true
  | some geo =>
    let x := s.band g b
    let f := s.rowFrames g x.density
    x.placed.all fun pl => (s.regions[g]).isResident g pl.gran || !(List.range 16).any fun i =>
      let n := slotFrame geo b f (pl.slot + i)
      n / 262144 == seg && decide (first ≤ n % 262144) && decide (n % 262144 < first + count)

/-- Start a work item: deferred for a dark holder, else sent. A contribution from a map segment that is not resident waits for the load (R149). -/
def State.startWork (s : State) (w : SegWork) : State :=
  let put (s : State) (x : SegWork) : State := s.updSwarm fun q => { q with work := x :: q.work.filter fun y => !sameWork y w }
  let dest := w.holder
  if !s.isLit dest then (put s { w with running := false, refused := none, deferred := true }).deferred w.holder
  else
    if w.item == .contrib && !s.framesLoaded w.region w.band w.seg 0 262144 then put s { w with running := false, refused := none, deferred := false } else
    let s := put s { w with running := true, refused := none, deferred := false }
    let p := s.newHdr w.holder
    let ms := workMsgs w
    let s := ms.1.foldl (fun s m => s.sendDurable w.region p.2 m false) p.1
    let s := s.updSwarm fun q => { q with waits := q.waits ++ [{ hdr := p.2, msg := ms.2 }] }
    s.sendDurable w.region p.2 ms.2 false

/-- The work item of an answer. -/
def State.workOf (s : State) (stripe position index : Nat) : Option SegWork :=
  s.swarm.work.find? fun w => w.stripe == stripe && w.position == position && w.index == index
def State.endWork (s : State) (w : SegWork) : State := s.updSwarm fun q => { q with work := q.work.filter fun y => !sameWork y w }

/-- Step 4 of R161 for a band: every segment RETRACTED or UNSTRIPED, or its remaining retracts deferred durably (R224). -/
def State.checkRetracted (s : State) (g : RegionIx) (b : Nat) : State :=
  let x := s.band g b
  if !x.mappedDurable || x.retracted then s else
  let ok := (List.range (s.segCount g b)).all fun u =>
    let e := s.seg g b u
    match e.state with
    | .retracted | .unstriped => true
    | .retracting => ((s.swarm.work.filter fun w => w.region == g && w.band == b && w.seg == u)).all (·.deferred)
    | .sealed | .noticed | .assigned | .withdrawn => false
  if ok then (s.updBand g b fun x => { x with retracted := true }).eraseIntent g b else s

/-- Holders of a stripe as a data member learned them from SLOT_ASSIGN. -/
def State.holdersOf (s : State) (stripe : Nat) : List Nat := match s.stripe? stripe with
  | some r => r.holders.map (·.member)
  | none => ((s.swarm.holderMap.find? fun x => x.1 == stripe).map (·.2)).getD []

end Sys2Proof.Machine
end

