-- ==== Sys2Proof/Machine/ClusterOps.lean ====
section
/-! DEFINITION. Operations of the clusters: routes to decoder engines, climbs of the retry ladder and what their ends hand upward (R17, R84,
R100, R105 to R119, R130, R131, R168, R180 to R186, R189, R225, R531). -/

namespace Sys2Proof.Machine

/-! Engines and routes (R17, R105, R107). -/

/-- Steps 3 and 4 take the soft engine. -/
def softStep (step : Nat) : Bool := step == 3 || step == 4
/-- An engine is retired at its second fault. -/
def engineOk (x : ClusterSt) (e : Fin 5) : Bool := decide (x.faults[e] < 2)
/-- A kind of engine is healthy in a cluster. -/
def kindOk (x : ClusterSt) (soft : Bool) : Bool :=
  x.inService && if soft then engineOk x 4 else engineOk x 0 || engineOk x 1 || engineOk x 2 || engineOk x 3

/-- Clusters in the order in which they may take a frame of a home cluster: its own, those of its region, of G xor 1, of G xor 2. -/
def routeOrder (home : ClusterIx) : List ClusterIx :=
  let g := regionOfCluster home
  home :: (clustersOfRegion g ++ clustersOfRegion (siblingRegion g) ++ clustersOfRegion (partnerRegion g))

/-- The cluster that decodes a frame of a home cluster with a kind of engine. -/
def State.routeFor (s : State) (home : ClusterIx) (soft : Bool) : Option ClusterIx :=
  (routeOrder home).find? fun c => kindOk s.clusters[c] soft && (dieOfCluster c == dieOfCluster home || s.bridgeUp)

/-! Climbs. -/

/-- A read trigger of the error rate (R53): more than 16 of either count within any 65,536 frames. -/
def State.countErrors (s : State) (l : LaneIx) (mismatch step1 : Bool) : State :=
  s.updLane l fun x =>
    let n := x.train.framesRead + 1
    let keep (at_ : List Nat) (hit : Bool) : List Nat := (at_.filter fun m => decide (n < m + 65536)) ++ if hit then [n] else []
    let t := { x.train with framesRead := n, mismatchAt := keep x.train.mismatchAt mismatch, step1At := keep x.train.step1At step1 }
    { x with train := if 16 < t.mismatchAt.length ∨ 16 < t.step1At.length then { t with pending := some (t.pending.getD .errorRate) } else t }

/-- The frame waits for an engine of its route; with none in the package its step fails (R107). -/
def State.queueJob (s : State) (home : ClusterIx) (j : EngineJob) : State :=
  match s.routeFor home (softStep j.step) with
  | some c => s.updCluster c fun x => { x with queue := x.queue ++ [j] }
  | none => match s.climb? home j.req.id with
    | some k => s.failStep home k
    | none => s

/-- Frames of a cluster whose kind of engine has gone take their routes (R107). -/
def State.reroute (s : State) (c : ClusterIx) (soft : Bool) : State :=
  if kindOk s.clusters[c] soft then s else
  let js := s.clusters[c].queue.filter fun j => softStep j.step == soft
  let s := s.updCluster c fun x => { x with queue := x.queue.filter fun j => softStep j.step != soft }
  js.foldl (fun s j => s.queueJob (reqCluster j.req) j) s

/-- Last step tried for a requester (R111, R531). -/
def lastStep : Requester2 → Nat
  | .host | .verify | .copySource | .fold | .relocation => 6
  | .swarmSend | .rebuildService => 5
  | .patrol | .parityWork | .regionMeta => 4

/-- The requesters of a climb. -/
def Climb.whos (k : Climb) : List Requester2 := (k.req :: k.joined).map (·.who)
/-- The last step of a climb: the furthest that any of its requesters asks for (R111, R112). -/
def Climb.last (k : Climb) : Nat := (k.whos.map lastStep).foldl max 0
/-- All requesters are Host, Verify or Copy. -/
def Climb.hostOnly (k : Climb) : Bool := k.whos.all fun w => w == .host || w == .verify || w == .copySource

/-- The map led to the read, so that the header must match (R100, R130). -/
def mapLed : Requester2 → Bool
  | .host | .verify | .copySource | .fold | .relocation => true
  | .swarmSend | .rebuildService | .patrol | .parityWork | .regionMeta => false

/-- The hard-decode limit of a frame: P is smaller by 32 in a band parity frame (R101, R181). -/
def State.frameLimit (s : State) (r : FrameReq) : Nat :=
  match s.geo? r.region, (s.regionProf? r.region).bind fun p => densEntry p (s.band r.region r.band).density with
  | some geo, some e =>
    let u := s.reqRow r % geoW geo
    let p := parityPos geo r.band
    if (s.band r.region r.band).carriesParity && (u == p.1 || u == p.2) then (e.parity - 32) * 7 / 32 else hardLimit e.parity
  | _, _ => 0

/-- The band's correction serves the row: valid, and measured at no lower class than the row's present one (R109). -/
def State.correctionServes (s : State) (r : FrameReq) : Bool :=
  match (s.band r.region r.band).corr with
  | some c => decide (s.rowClass r.region r.band (s.reqRow r) ≤ c.cls)
  | none => false

/-- A row read more than four classes above the measured class clears the band's correction (R84). -/
def State.ageCorrection (s : State) (r : FrameReq) : State :=
  match (s.band r.region r.band).corr with
  | some c => if c.cls + 4 < s.rowClass r.region r.band (s.reqRow r) then
      (s.updBand r.region r.band fun x => { x with corr := none }).jotFlags r.region r.band
    else s
  | none => s

/-- Set a band refresh due and journal it (R75). -/
def State.markRefresh (s : State) (g : RegionIx) (b : Nat) : State :=
  if (s.band g b).refreshDue then s else (s.updBand g b fun x => { x with refreshDue := true }).jotFlags g b

/-- A granule is to be relocated alone at once (R168). -/
def State.relocateSoon (s : State) (g : RegionIx) (gran : Nat) : State :=
  s.updRegion g fun r => { r with
    relocNow := if r.relocNow.contains gran then r.relocNow else r.relocNow ++ [gran], watch := r.watch.filter fun x => x.1 != gran }

/-- The segment of a frame index (R212). -/
def segOf (frame : Nat) : Nat := frame / 262144

/-- A contribution meets poison (R225): the holders not yet done get the never-sent form, the segment is withdrawn, the band refresh due. -/
def State.contribBlocked (s : State) (g : RegionIx) (b seg : Nat) : State :=
  let ws := s.swarm.work.filter fun w => w.region == g && w.band == b && w.seg == seg && w.item == .contrib
  let s := ws.foldl (fun s w => (s.endWork w).startWork { w with item := .neverSent }) s
  (s.updSeg g b seg fun e => { e with state := .withdrawn }).markRefresh g b

/-- RECLAIM_HOLD (R163, R166): once for each cause; the slot takes other candidates. -/
def State.holdBand (s : State) (g : RegionIx) (b cause : Nat) : State :=
  if (s.band g b).hold = some cause then s
  else
    let s := (s.updBand g b fun x => { x with hold := some cause }).jot g (.reclaimHold b cause)
    s.updRegion g fun r => { r with slots := r.slots.map fun q => match q with | some q => if q.band = b then none else some q | none => none }

/-- A frame read for a contribution or a retract is poisoned, or cannot be read (R111, R118, R225). A retract goes on to step 6, and
holds the band when that fails too. -/
def State.sendBlocked (s : State) (g : RegionIx) (b frame : Nat) : State :=
  let d := dieOfRegion g
  let s := s.raise (dieSrc d 21)
  let here (w : SegWork) : Bool := w.region == g && w.band == b && w.seg == segOf frame
  if s.swarm.work.any fun w => here w && w.item == .contrib then s.contribBlocked g b (segOf frame)
  else if s.swarm.work.any fun w => here w && w.item == .retract then
    let s := s.updSwarm fun q => { q with work := q.work.map fun w => if here w && w.item == .retract then { w with running := false, refused := some 0 } else w }
    s.holdBand g b 2
  else s

/-- A patrol frame has come to its end (R94, R95, R106, R111): counted with its corrected bits and the step it reached. -/
def State.patrolFrame (s : State) (q : FrameReq) (step corrected : Nat) (ok : Bool) : State :=
  let s := s.updRegion q.region fun r => { r with patrols := r.patrols.map fun p => if p.band = q.band then
    { p with left := p.left - 1, frames := p.frames + 1, correctedSum := p.correctedSum + corrected, maxStep := max p.maxStep step } else p }
  if ok then s else s.markRefresh q.region q.band

/-- A frame read back for an accumulation that is being rebuilt (R120): once all frames of its page row have come, the cluster's partials take the
row in; the rebuild ends with the last readable row of its lanes. -/
def State.accRead (s : State) (q : FrameReq) : State :=
  match s.geo? q.region with
  | none => s
  | some geo =>
    let c := reqCluster q
    let row := s.reqRow q
    let w := row / geoW geo
    let u := row % geoW geo
    let x := s.band q.region q.band
    let mine (r : FrameResult) : Bool := r.req.who == .parityWork && r.req.region == q.region && r.req.band == q.band && s.reqRow r.req == row
    if ((s.clusters[c].results.filter mine).map (·.req.frame)).eraseDups.length ≠ s.rowFrames q.region x.density then s else
    let s := s.updCluster c fun y => { y with
      results := y.results.filter fun r => !mine r,
      accRows := y.accRows.map fun a => if a.band = q.band ∧ a.row = w ∧ !a.positions.contains u then { a with positions := a.positions ++ [u] } else a }
    let held := (s.clusters[c].accRows.filter fun a => a.band == q.band && a.row == w).flatMap (·.positions)
    let wanted := (dataPos geo q.band).filter fun v => x.rowsOk.contains (w, v) &&
      lunCluster (lunAt geo (s.regions[q.region]).tab.adoptions (bandSet geo q.band) v) == some c
    if wanted.all held.contains then s.updCluster c fun y => { y with accRebuild := y.accRebuild.filter (· != (q.band, w)) } else s

/-- What one requester receives (R111 to R117). `ok` is false where nothing was delivered. -/
def State.deliverTo (s : State) (k : Climb) (q : FrameReq) (step corrected : Nat) (byOther ok : Bool) (u : Unit4K) : State :=
  let s := if ok then s.updCluster (reqCluster q) fun x => { x with results := x.results ++
      [{ req := q, step := step, corrected := if step < 5 then corrected else 0, poisoned := u.poisoned, crcFailed := k.crcFailed, byOther := byOther,
         ptr := k.ptr, content := u }] } else s
  match q.who with
  | .fold | .relocation => if ok then s.copyFrame q u else s
  | .swarmSend => if !ok || u.poisoned then s.sendBlocked q.region q.band q.frame else s
  | .patrol => s.patrolFrame q step corrected ok
  | .parityWork => if ok then s.accRead q else s
  | .host | .verify | .copySource | .rebuildService | .regionMeta => s

/-- The climb ends (R109): counted once, its requesters served, its granule relocated where step 5 or 6 delivered it (R168). A climb that a
host abort stops, or whose copy is given up for a dark member, ends at no step of its own and is not counted (DESIGN CHOICE, log entry
126). -/
def State.endClimb (s : State) (c : ClusterIx) (k : Climb) (step corrected : Nat) (byOther ok : Bool) (u : Unit4K) : State :=
  let s := s.updCluster c fun x => { x with climbs := x.climbs.filter fun y => y.req.id != k.req.id }
  if k.stopping then s else
  let n : Fin 7 := ⟨(step - 1) % 7, Nat.mod_lt _ (by decide)⟩
  let s := s.updCluster c fun x => { x with stepCnt := x.stepCnt.set n (satAdd 0xFFFFFFFF x.stepCnt[n] 1) }
  let s := s.updSub fun q => { q with life := { q.life with steps := q.life.steps.set n (q.life.steps[n] + 1) } }
  let copying := k.whos.all fun w => w == .fold || w == .relocation
  let s := if (step = 5 ∨ step = 6) ∧ ok ∧ !copying then match (k.req :: k.joined).find? fun q => mapLed q.who with
      | some q => s.relocateSoon (s.server q.gran) q.gran
      | none => s
    else s
  (k.req :: k.joined).foldl (fun s q => s.deliverTo k q step corrected byOther ok u) s

/-- Frames read and frames that failed step 4 on a LUN (R189 cause 4): 32 within 1,048,576 frames read quarantine it. -/
def State.countLun (s : State) (lun : Nat) (step4Failed : Bool) : State :=
  let g := lunRegion lun
  let old := ((s.regions[g]).lunStep4.find? fun x => x.1 == lun).getD (lun, 0, 0)
  let old := if 1048576 ≤ old.2.2 then (lun, 0, 0) else old
  let new := (lun, old.2.1 + (if step4Failed then 1 else 0), old.2.2 + 1)
  let s := s.updRegion g fun r => { r with lunStep4 := new :: r.lunStep4.filter fun x => x.1 != lun }
  if 32 ≤ new.2.1 then s.quarantineLun lun 4 else s

/-! Map integrity faults (R130). -/

/-- The newest MAP record of a granule in the retained journal and its tail. -/
def RegionSt.newestMap (r : RegionSt) (gran : Nat) : Option MapEntry :=
  ((r.journal.retained ++ r.journal.tail).flatMap fun f => f.recs).reverse.findSome? fun x => match x with
    | .map n e _ _ _ => if n = gran then some e else none
    | _ => none

/-- A map integrity fault is met: it is counted, and its resolution begins. -/
def State.integrityMet (s : State) (g : RegionIx) : State :=
  (s.updRegion g fun r => { r with integrity := satAdd 0xFFFF r.integrity 1 }).updSub fun q => { q with life := { q.life with mapFaults := q.life.mapFaults + 1 } }

/-- Step 2 of R130: the entry is restored to the recorded location. -/
def State.integrityRepaired (s : State) (g : RegionIx) (gran : Nat) (e : MapEntry) : State :=
  (s.remap g gran e false).updRegion g fun r => { r with repaired := satAdd 0xFF r.repaired 1 }

/-- Step 4 of R130: the entry becomes state 011, its last location kept. -/
def State.integrityLost (s : State) (g : RegionIx) (gran : Nat) : State :=
  (s.remap g gran { s.entryOf gran with state := .poisoned } false).updRegion g fun r => { r with poisonedCnt := satAdd 0xFF r.poisonedCnt 1 }

/-! Step 5 (R109, R180, R183, R184). -/

/-- A data slot holds no payload of its own: pad under R104 or BAND_PAD. It counts as zero. -/
def slotPadded (geo : GeometryRec) (f : Nat) (x : Band) (w u k : Nat) : Bool :=
  rowPadded geo f x w u || x.pads.any fun q => q.1 == u && q.2.1 == w && decide (q.2.2 ≤ k)

/-- Data positions of the frame's row whose payload must be solved for: its own, those erased, retired, not readable, or found unread. -/
def State.rowUnknown (s : State) (geo : GeometryRec) (r : FrameReq) (unread : List Nat) : List Nat :=
  let t := (s.regions[r.region]).tab
  let x := s.band r.region r.band
  let f := s.rowFrames r.region x.density
  let w := s.reqRow r / geoW geo
  let k := if f = 0 then 0 else r.frame % f
  let retired (u : Nat) : Bool :=
    let lun := lunAt geo t.adoptions (bandSet geo r.band) u
    (t.block lun (t.blockAt lun (bandSlot geo r.band))).state != 0
  (dataPos geo r.band).filter fun u => u == s.reqRow r % geoW geo ||
    (!slotPadded geo f x w u k && (retired u || unread.contains u || !x.rowsOk.contains (w, u) || s.slotErased geo r.region r.band f w u k))

/-- The accumulations of a band row are whole: every cluster's is sound, and together they hold every data position that has a payload (R120,
R182, R183). -/
def State.accWhole (s : State) (geo : GeometryRec) (g : RegionIx) (b w : Nat) : Bool :=
  let x := s.band g b
  let f := s.rowFrames g x.density
  let rows := (clustersOfRegion g).flatMap fun c => s.clusters[c].accRows.filter fun a => a.band == b && a.row == w
  !((clustersOfRegion g).any fun c => s.clusters[c].accRebuild.contains (b, w)) &&
  (dataPos geo b).all fun u => rowPadded geo f x w u || !x.rowsOk.contains (w, u) || rows.any fun a => a.positions.contains u

/-- The live partials of a band row stand for its parity (R109, R183). -/
def State.partialsLive (s : State) (geo : GeometryRec) (g : RegionIx) (b w : Nat) : Bool :=
  ((clustersOfRegion g).any fun c => s.clusters[c].accRows.any fun a => a.band == b && a.row == w) && s.accWhole geo g b w

/-- Parities of the frame's row that can be used: its readable parity frames, else the two live partials. -/
def State.rowParities (s : State) (geo : GeometryRec) (r : FrameReq) (unread : List Nat) : Nat :=
  let x := s.band r.region r.band
  let f := s.rowFrames r.region x.density
  let w := s.reqRow r / geoW geo
  let k := if f = 0 then 0 else r.frame % f
  let p := parityPos geo r.band
  let read (u i : Nat) : Bool := x.parityOk.contains (w, i) && !unread.contains u && !s.slotErased geo r.region r.band f w u k
  let onMedia := (if read p.1 0 then 1 else 0) + if read p.2 1 then 1 else 0
  if !(x.parityOk.contains (w, 0) && x.parityOk.contains (w, 1)) && s.partialsLive geo r.region r.band w then 2 else onMedia

/-- Step 5 solves the row (R184): at most two erased positions, and a parity for each unknown payload. -/
def State.rowSolvable (s : State) (r : FrameReq) (unread : List Nat) : Bool := match s.geo? r.region with
  | some geo => decide ((s.rowUnknown geo r unread).length ≤ s.rowParities geo r unread)
  | none => false

/-! Step 6 (R109, R131). -/

/-- The segment of a request's frame, in the region whose band it lies in. -/
def State.reqSeg (s : State) (r : FrameReq) : SegEntry := s.seg (if r.lost then s.entryHome r.gran else r.region) r.band (segOf r.frame)

/-- The segment belongs to a stripe whose contributions are complete. -/
def State.stripeComplete (s : State) (e : SegEntry) : Bool :=
  let hs := s.holdersOf e.stripe
  e.state == .assigned && !hs.isEmpty && (List.range hs.length).all e.done.getLsbD
/-- No stripe can ever reconstruct it: no complete stripe, and no contribution pending. -/
def stripeNever (e : SegEntry) : Bool := e.state != .assigned

/-- Step 5 waits for the resynchronisation of the frame's row (R186). -/
def State.awaitsResync (s : State) (r : FrameReq) : Bool := match s.geo? r.region with
  | some geo =>
    let f := s.rowFrames r.region (s.band r.region r.band).density
    f != 0 && (s.regions[r.region]).resync.contains r.band &&
      (s.band r.region r.band).dirty.contains ((s.reqRow r / geoW geo * f + r.frame % f) / 256)
  | none => false

/-- A map integrity fault on the way of a granule's frames: counted once while its resolution runs (R130). -/
def State.meetIntegrity (s : State) (gran : Nat) : State :=
  if (List.finRange 12).any fun c => s.clusters[c].climbs.any fun k => k.integrity && k.req.gran == gran then s else s.integrityMet (s.server gran)

/-- The frame's step ends as a map integrity fault (R44, R112, R130). -/
def State.failIntegrity (s : State) (c : ClusterIx) (k : Climb) : State :=
  if k.stopping then s.failStep c k
  else (s.meetIntegrity k.req.gran).updClimb c k.req.id fun y => { y with phase := .failed, integrity := true }

/-- The lane's completion of a read of frames: they have arrived; ERASE_PENDING is a map integrity fault where the map led to the read (R44,
R130); any other failure is a failed step (R112, R190). -/
def State.frameReadDone (s : State) (c : ClusterIx) (ids : List Nat) (st : LaneStatus) : State :=
  ids.foldl (fun s id => match s.climb? c id with
    | none => s
    | some k =>
      if k.phase != .reading then s
      else if st = .ok then s.updClimb c id fun y => { y with phase := .arrived }
      else if st = .erasePending ∧ mapLed k.req.who then s.failIntegrity c k
      else s.failStep c k) s

end Sys2Proof.Machine
end

