-- ==== Sys2Proof/Machine/KeyStore.lean ====
section
/-! DEFINITION. Key sets and key slots, and how a crypto erase and a sanitize come to their ends (R291, R333, R334, R338, R339). -/

namespace Sys2Proof.Machine

/-! Key sets (R338). -/

/-- The die's cipher holds keys and takes new ones (R340). -/
def State.cipherUp (s : State) (d : DieIx) : Bool := (s.com d).inService && !(s.com d).outOfService

/-- The sector of the key area that holds a set: the four in turn (R338; DESIGN CHOICE, log entry 137). -/
def keySector (gen : DWord) : Nat := 465 + gen.toNat % 4

/-- The set of highest generation. -/
def newestSet : List KeySet → Option KeySet
  | [] => none
  | k :: rest => match newestSet rest with
    | none => some k
    | some x => if x.gen.toNat < k.gen.toNat then some k else some x

/-- The set in force: the committed one of highest generation. -/
def State.keySet? (s : State) : Option KeySet := newestSet (s.sub.keySets.filter (·.committed))

/-- Identities of the keys that the device key gives (R333). -/
def storageKey : Nat := 1
def transportKey : Nat := 2
def imageKey : Nat := 3

/-- Slot contents under a key set (R334). -/
def State.slotKeys (s : State) (k : KeySet) : Vector (Option Nat) 64 :=
  Vector.ofFn fun i =>
    if i.val < 32 then (k.ns.find? fun x => x.1 == i.val + 1).map (·.2)
    else match i.val with
      | 32 => some k.kek
      | 33 => some storageKey
      | 34 => some transportKey
      | 35 => ((s.recs?.bind (·.identity)).map fun r => Config.memberKeyId r.swarmId)
      | 36 => some imageKey
      | _ => none

/-- A die takes the slots of a key set. -/
def State.loadSlots (s : State) (d : DieIx) (k : KeySet) : State :=
  s.updCipher d fun c => { c with inService := true, slots := s.slotKeys k, kekId := k.kekId, gen := k.gen }

/-- The dies in service take the set in force. -/
def State.loadBoth (s : State) (k : KeySet) : State :=
  let s := if s.cipherUp 0 then s.loadSlots 0 k else s
  if s.cipherUp 1 then s.loadSlots 1 k else s

/-! The end of a crypto erase. -/

/-- The set that a crypto erase has written and not committed yet (R338, R339 step 3). -/
def State.openErase? (s : State) : Option KeySet := s.sub.keySets.find? fun k => !k.committed && !k.cryptoErase.isEmpty

/-- FORMAT of each NSID is durable in all four regions (R339 step 4). -/
def State.formatDurable (s : State) (ids : List Nat) : Bool :=
  (List.finRange 4).all fun g => ids.all fun n => (s.regions[g]).durable (.format n)

/-- A crypto erase waits or runs: steps 1 to 7 of R339. -/
def State.cipherErasing (s : State) : Bool :=
  s.openErase?.isSome || (match s.sub.eraseRef with
    | some ref => s.dies[refDie ref].host.slots.any fun x => x.ref == ref
    | none => false)

/-- A sanitize whose keys are replaced, and whose bands are all erased, ends (R291): 481 and the event of the Sanitize Status log. -/
def State.settleSanitize (s : State) : State := match s.sub.sanitize with
  | .running block =>
    if s.openErase?.isSome || !s.sub.sanitizeBands.isEmpty || s.keeper.boot.stage != .serving then s
    else ((s.updSub fun x => { x with sanitize := .done block }).raise 481).postAsync .sanitizeDone
  | .never | .done _ | .failed => s

/-- Steps 5 to 7 of R339, once the FORMAT records are durable: the set is committed, both dies take its slots, the old set is erased and the
command completes. -/
def State.settleErase (s : State) : State := match s.openErase? with
  | none => s
  | some k =>
    if s.keeper.boot.stage ≠ .serving ∨ s.formatDurable k.cryptoErase = false then s else
    let n := { k with committed := true, cryptoErase := [] }
    let r := s.sub.eraseRef
    let s := ((s.countErase (keySector (k.gen - 1))).updSub fun x => { x with keySets := [n], eraseRef := none }).loadBoth n
    let s := match r with
      | some ref => if s.dies[refDie ref].host.slots.any fun x => x.ref == ref then s.complete ref stOk 0 else s
      | none => s
    s.settleSanitize

end Sys2Proof.Machine
end

