-- ==== Sys2Proof/Machine/Results.lean ====
section
/-! DEFINITION. What a lane's completion does above the lane (R71, R130, R140, R161, R187 to R192, R532). -/

namespace Sys2Proof.Machine

/-- A Status timeout on a LUN (R189 cause 1): the third within 24 h of operating time quarantines it. -/
def State.countTimeout (s : State) (lun : Nat) : State :=
  if s.lunShaded lun then s else
  let g := lunRegion lun
  let now := s.keeper.tk.opsec.toNat
  let s := s.updRegion g fun r => { r with lunTimeouts := (r.lunTimeouts.filter fun x => decide (now ≤ x.2 + 86400)) ++ [(lun, now)] }
  if 3 ≤ ((s.regions[g]).lunTimeouts.filter fun x => x.1 == lun).length then s.quarantineLun lun 1 else s

/-- The descriptor's program was the last pass of its row (R40, R71). -/
def State.lastPass (s : State) (g : RegionIx) (d : Descriptor) (x : Band) : Bool :=
  d.op == some .programPage || (match (s.regionProf? g).bind fun p => densEntry p x.density with
    | some e => decide (d.pass.toNat + 1 = e.passes)
    | none => true)

/-- Bytes that a program put on NAND, counted with its last pass (R483). -/
def State.countProgram (s : State) (d : LaneDone) : State :=
  let g := lunRegion d.desc.lunNo
  let last := d.desc.op == some .programPage || (d.desc.op == some .programPass && (match ([Density.slc, .tlc, .qlc, .plc, .hlc].find? fun x => densityBits x == d.desc.density.toNat).bind fun x => (s.regionProf? g).bind fun p => densEntry p x with
    | some e => decide (d.desc.pass.toNat + 1 = e.passes)
    | none => true))
  if d.status = .ok && last then s.updSub fun x => { x with life := { x.life with mediaBytes := x.life.mediaBytes + d.desc.length.toNat } } else s

/-- A pass of a page row completed OK; after the last one the row's fold buffer is released (R71). -/
def State.passDone (s : State) (g : RegionIx) (b w u : Nat) (d : Descriptor) : State :=
  let s := s.updBand g b fun x => { x with passes := x.passes ++ [(w, u, d.pass.toNat)] }
  if s.lastPass g d (s.band g b) then s.releaseFold g b fun r q => r == w && q == u else s

/-- What a completion of a lane does above the lane, by the work it served. -/
def State.onDone (s : State) (d : LaneDone) : State :=
  let s := s.countProgram d
  let lun := d.desc.lunNo
  let blk := d.desc.block.toNat
  let w := d.desc.wordline.toNat
  let pos (g : RegionIx) : Nat := match s.geo? g with
    | some geo => ((positionOf geo (s.regions[g]).tab lun).map (·.2)).getD 0
    | none => 0
  let retire := d.status == .programFail && !s.lunShaded lun
  match d.purpose with
  | .plain | .rescue | .ownRead _ => s
  | .frameRead ids => s.frameReadDone (clusterOfLane d.lane) ids d.status
  | .sweep run i =>
    if d.status = .ok then s
    else s.updSweep (clusterOfLane d.lane) run fun a => if d.status = .erasePending then { a with abandoned := true } else a.sweepFailed i
  | .dataRow g b =>
    if d.status = .ok then
      let s := s.passDone g b w (pos g) d.desc
      if s.lastPass g d.desc (s.band g b) then s.rowDone g b w (pos g) else s
    else if d.status = .refused then s
    else s.programLost g b w (pos g) lun blk retire
  | .parityRow g b =>
    if d.status = .ok then
      let s := s.passDone g b w (pos g) d.desc
      (if s.lastPass g d.desc (s.band g b) then
        s.parityDone g b w (match s.geo? g with | some geo => if (parityPos geo b).1 = pos g then 0 else 1 | none => 0) else s)
    else if d.status = .refused then s
    else if s.lunQuarantined lun then s
    else s.parityLost g b w lun blk retire
  | .journal g n c =>
    if d.status = .ok then s.updJrn g fun j => { j with tail := j.tail.map fun f => if f.num == n then { f with ok := f.ok.set c true, failed := f.failed.set c false } else f }
    else if d.status = .refused then s
    else s.journalFail g n c lun blk retire
  | .image g q c =>
    if d.status = .ok then s.updRegion g fun r => { r with images := r.images.map fun i => if i.ckptSeq == q then { i with ok := i.ok.set c true } else i }
    else if retire then s.retireBlock (lunRegion lun) lun blk 1 else s
  | .bandErase g b =>
    -- An erase that ends with another status is issued again (R49), and so is one that failed in a shadow (R467, log entry 138).
    if d.status = .ok ∨ d.status = .eraseFail ∧ s.lunShaded lun = false then
      let s := s.updBand g b fun x => { x with eraseTodo := x.eraseTodo.erase (lun, blk), eraseList := x.eraseList ++ [(lun, blk)] }
      let s := if d.status = .eraseFail then s.retireBlock g lun blk 2 else s
      s.eraseTurn g b
    else s
  | .rebuildRow g b =>
    if d.status = .ok then (if s.lastPass g d.desc (s.band g b) then s.rebuildRowDone g b lun (w + 1) else s)
    -- A row whose program ends otherwise is not rebuilt yet: it is programmed again (R192).
    else if retire then s.rebuildAgain g b lun 1 else s

/-- Completions in turn. -/
def State.onDoneAll (s : State) (ds : List LaneDone) : State := (ds.foldl State.onDone s).settleSanitize

end Sys2Proof.Machine
end

