-- ==== Sys2Proof/Machine/Submit.lean ====
section
/-! DEFINITION. What a cluster makes of its work: the descriptors that fit a piece of work, and what their submission does (R65, R71, R74, R83, R84,
R90, R94, R98, R102, R104, R108, R120, R139, R143, R161, R181 to R186, R192). -/

namespace Sys2Proof.Machine

/-! Buffers. -/

/-- The first write that fails the pool's check, and its cause (R307). -/
def State.depositFault (s : State) (d : DieIx) (xs : List (Word × Nat × BufData)) : Option (Word × Nat) :=
  xs.findSome? fun x => (s.ptrCheck d x.1 x.2.1 true).map fun c => (x.1, c)

/-- Write into a buffer at a pointer that passes the check. -/
def State.deposit (s : State) (d : DieIx) (ptr : Word) (v : BufData) : State :=
  match decodePtr ptr with
  | (some c, _, i, off) => s.updPool d fun p => p.updBuf c i fun b => { b with held := (b.held.filter fun h => h.1 != off) ++ [(off, v)] }
  | _ => s

/-! Blocks and rows of a band. -/

/-- The position of the band whose block a descriptor addresses, on all planes, at the band's density (R65, R175). -/
def State.descPosition (s : State) (g : RegionIx) (b : Nat) (d : Descriptor) : Option Nat :=
  match s.geo? g, s.regionProf? g with
  | some geo, some p =>
    let x := s.band g b
    if d.density.toNat ≠ densityBits x.density ∨ d.planes.toNat ≠ 2 ^ p.planes - 1 then none
    else (List.range (geoW geo)).find? fun u => (bandBlocks geo (s.regions[g]).tab b)[u]? == some (d.lunNo, d.block.toNat)
  | _, _ => none

/-- Passes and lag of the algorithm that programs a density: one pass where the profile states none (R71, R409). -/
def passPlan (p : MediaProfile) (d : Density) : Nat × Nat := match densEntry p d with
  | some e => (max 1 e.passes, e.lag)
  | none => (1, 0)

/-- A descriptor programs a whole page row, in one pass or in a pass of the algorithm (R40, R71). -/
def programFits (p : MediaProfile) (x : Band) (d : Descriptor) : Bool :=
  let n := (passPlan p x.density).1
  (d.page == 0xFF || densityBits x.density == 1) && decide (d.wordline.toNat < p.wordlines) &&
  if n = 1 then d.op == some .programPage else d.op == some .programPass && decide (d.pass.toNat < n)

/-- The pass of highest index below `q` whose wordline has w + D × p = v. -/
def passAt (wordlines lag v q : Nat) : Option (Nat × Nat) :=
  ((List.range q).reverse.find? fun p => decide (lag * p ≤ v) && decide (v - lag * p < wordlines)).map fun p => (v - lag * p, p)

/-- The wordline and pass before one in the chain of a block: sorted by w + D × p, then by p (R71). -/
def passBefore (wordlines n lag w p : Nat) : Option (Nat × Nat) :=
  let v := w + lag * p
  (passAt wordlines lag v p).or (if v = 0 then none else passAt wordlines lag (v - 1) n)

/-- The descriptor takes its place in the chain of its block: it waits for its predecessor by tag (R43, R71). -/
def State.chainOk (s : State) (l : LaneIx) (g : RegionIx) (b u : Nat) (d : Descriptor) : Bool :=
  match s.geo? g, s.regionProf? g with
  | some geo, some p =>
    let x := s.band g b
    let plan := passPlan p x.density
    if plan.1 = 1 then true else
    match passBefore p.wordlines plan.1 plan.2 d.wordline.toNat d.pass.toNat with
    | none => true
    | some (w, q) =>
      let mine (e : Descriptor) : Bool := e.lun == d.lun && e.block == d.block && e.wordline.toNat == w && e.pass.toNat == q && e.tag == d.waitTag
      d.waits && (x.passes.contains (w, u, q) || rowPadded geo (framesPerRow p x.density) x w u ||
        s.lanes[l].queue.any (fun e => mine e.desc) || s.lanes[l].waiting.any fun e => mine e.1)
  | _, _ => false

/-- The pass is neither done nor with the lane. -/
def State.passNew (s : State) (l : LaneIx) (g : RegionIx) (b u : Nat) (d : Descriptor) : Bool :=
  let same (e : Descriptor) : Bool := e.lun == d.lun && e.block == d.block && e.wordline == d.wordline && e.pass == d.pass &&
    (match e.op with | some o => programOp o | none => false)
  !(s.band g b).passes.contains (d.wordline.toNat, u, d.pass.toNat) && !(s.lanes[l].queue.any fun e => same e.desc) && !(s.lanes[l].waiting.any fun e => same e.1)

/-- Classes of a band's data and parity descriptors (R74, R161, R183, R186): staging takes host writes and relocations at SLC; the spec names none
for the other uses. -/
def bandClasses (resync : Bool) (x : Band) : List Nat :=
  if resync then [2] else
  match x.kind, x.use with
  | .data, .fold => [2]
  | .data, .relocation => [3]
  | .data, .staging => [1, 3]
  | _, _ => [0, 1, 2, 3]

/-- All frames of a data page row are present: each slot is handed out, or the sealed band's last row ends in pad (R104). -/
def rowPacked (geo : GeometryRec) (f : Nat) (x : Band) (w u : Nat) : Bool :=
  let first := (w * (geoW geo - 2) + (dataPos geo x.num).idxOf u) * f
  !rowPadded geo f x w u && (decide (first + f ≤ x.nextSlot) || (x.phase != .opened && decide (first < x.slots)))

/-- Every data position of a band row is readable or pad (R183). -/
def rowComplete (geo : GeometryRec) (f : Nat) (x : Band) (w : Nat) : Bool :=
  (dataPos geo x.num).all fun u => x.rowsOk.contains (w, u) || rowPadded geo f x w u

/-- The data of a multi-pass row lies in a buffer of the DRAM fold class, the same one for each of its passes (R71). -/
def State.foldDataOk (s : State) (l : LaneIx) (g : RegionIx) (b w u : Nat) (d : Descriptor) : Bool :=
  match (s.regionProf? g).map fun p => (passPlan p (s.band g b).density).1 with
  | some 1 | none => true
  | some _ => match decodePtr d.buf0 with
    | (some .dram, true, i, _) => ((s.dies[dieOfLane l].pool).find .dram i).isSome &&
        (match (s.band g b).foldHeld.find? fun x => x.1 == w && x.2.1 == u with
         | some x => x.2.2 == (dieOfLane l, i)
         | none => d.pass == 0)
    | _ => false

/-! Reads. -/

/-- CLASS of the reads of a climb, none where the spec names none (R74, R94, R161, R168, R170, R186, R192). At the urgent mark the copy reads of
Scarab go at 0b10. -/
def State.climbClass (s : State) (k : Climb) : Option Nat := match k.req.who with
  | .host | .verify | .copySource => some 0
  | .fold => some 2
  | .relocation => some (if decide (s.freeMain k.req.region ≤ s.geoNum k.req.region (·.markUrgent) 8) then 2 else 3)
  | .patrol => some 3
  | .parityWork => some 2
  | .swarmSend | .rebuildService | .regionMeta => none

/-- The descriptor's pages and planes take in the frame; on a single page of a single plane its columns do too. For several pages R40 does not
give the order of the transfer, and only LENGTH is held to the frame (DESIGN CHOICE, log entry 126). -/
def spanOk (p : MediaProfile) (dens : Density) (slot : Nat) (d : Descriptor) : Bool :=
  let ps := framePieces p dens slot
  let one := d.page != 0xFF && ps.length == 1
  !ps.isEmpty && decide (frameBytes p dens ≤ d.length.toNat) &&
  ps.all fun (pg, pl, col, len) => (d.page == 0xFF || d.page.toNat == pg) && d.planes.getLsbD pl &&
    (!one || (decide (d.column.toNat ≤ col) && decide (col + len ≤ d.column.toNat + d.length.toNat)))

/-- Operation of a step's read (R108): a page, then soft reads with 3 and with 5 sensings at the profile's delta. -/
def stepReads (p : MediaProfile) (dens : Density) (step : Nat) (d : Descriptor) : Bool :=
  let delta := (densEntry p dens).map (·.softDelta)
  match step with
  | 3 => d.op == some .readSoft && d.soft == 3 && some d.softDelta.toNat == delta
  | 4 => d.op == some .readSoft && d.soft == 5 && some d.softDelta.toNat == delta
  | _ => d.op == some .readPage

/-- The descriptor reads the frame of a climb at its present step. -/
def State.readsFrame (s : State) (d : Descriptor) (k : Climb) : Bool :=
  match s.geo? k.req.region, s.regionProf? k.req.region with
  | some geo, some p =>
    let x := s.band k.req.region k.req.band
    let f := framesPerRow p x.density
    let row := s.reqRow k.req
    k.phase == .wanted && d.lunNo == k.req.lun && decide (f ≠ 0) &&
    d.block.toNat == (s.regions[k.req.region]).tab.blockAt k.req.lun (bandSlot geo k.req.band) &&
    d.density.toNat == densityBits x.density && d.wordline.toNat == row / geoW geo && spanOk p x.density (k.req.frame % f) d &&
    stepReads p x.density k.step d && (match s.climbClass k with | some c => d.cls == c | none => true)
  | _, _ => false

/-- The vector of a climb's next read: composed now for steps 1 and 2, the last one for the soft steps (R83, R108). -/
def State.nextVector (s : State) (k : Climb) : List Int :=
  if k.step ≤ 2 then s.composeVector k.req.region k.req.band (s.reqRow k.req) else k.vector

/-- Patrol descriptors that a lane has outstanding (R94). -/
def State.patrolsOn (s : State) (l : LaneIx) : Nat :=
  let c := clusterOfLane l
  let patrol (p : Purpose) : Bool := match p with
    | .frameRead ids => ids.any fun id => (s.climb? c id).any fun k => k.whos.contains .patrol
    | _ => false
  (s.lanes[l].queue.filter fun e => patrol e.purpose).length + (s.lanes[l].waiting.filter fun e => patrol e.2).length

/-- The OFFSETS pointer names 64 bytes of the pool (R38, R306). -/
def State.vectorRoom (s : State) (l : LaneIx) (d : Descriptor) : Bool := d.offsets != 0 && (s.ptrCheck (dieOfLane l) d.offsets 64 true).isNone

/-- A read of the climbs named: each is wanted, all take one vector, and a lane keeps at most four patrol descriptors. -/
def State.readFits (s : State) (l : LaneIx) (d : Descriptor) (ids : List Nat) : Bool :=
  let ks := ids.filterMap (s.climb? (clusterOfLane l))
  !ids.isEmpty && decide ids.Nodup && ks.length == ids.length && ks.all (s.readsFrame d) && s.vectorRoom l d &&
  ((ks.map s.nextVector).eraseDups.length == 1) && (!(ks.any fun k => k.whos.contains .patrol) || decide (s.patrolsOn l < 4))

/-- The buffer pointer of the i-th frame that a descriptor reads: its frames lie one after the other (R113; DESIGN CHOICE, log entry 126). -/
def framePtr (w : Word) (i : Nat) : Word := match decodePtr w with
  | (some c, _, k, off) => encodePtr c k (off + 4096 * i)
  | (none, _) => w

/-- A read goes to the lane (R83, R84): the rows' ages judge the corrections, the vector is composed and written where OFFSETS points, zeros from
its last level on. -/
def State.sendReads (s : State) (l : LaneIx) (d : Descriptor) (ids : List Nat) : State :=
  let c := clusterOfLane l
  let s := (ids.filterMap (s.climb? c)).foldl (fun s k => if k.step ≤ 2 ∧ k.req.who ≠ .regionMeta then s.ageCorrection k.req else s) s
  let v := ((ids.filterMap (s.climb? c)).head?.map s.nextVector).getD []
  let s := s.deposit (dieOfLane l) d.offsets (.vector (v ++ List.replicate (64 - v.length) 0))
  ids.zipIdx.foldl (fun s x => s.updClimb c x.1 fun k => { k with phase := .reading, vector := v, ptr := framePtr d.buf0 x.2 }) s

/-- The sweep that a run's plan has at a place, still to be issued. -/
def State.sweepAt? (s : State) (l : LaneIx) (run i : Nat) : Option (AntRun × SweepPlan) :=
  match s.clusters[clusterOfLane l].antenna with
  | some a => if a.id ≠ run then none else (a.plan[i]?).bind fun x => if x.got = .todo then some (a, x) else none
  | none => none

/-- The descriptor is the sweep of the plan (R88 to R90). -/
def State.sweepFits (s : State) (l : LaneIx) (d : Descriptor) (run i : Nat) : Bool :=
  match s.sweepAt? l run i with
  | none => false
  | some (a, x) => match s.geo? a.region with
    | none => false
    | some geo =>
      d.op == some .offsetSweep && d.lunNo == x.lun && d.block.toNat == (s.regions[a.region]).tab.blockAt x.lun (bandSlot geo a.band) &&
      d.wordline.toNat == x.row / geoW geo && d.density.toNat == densityBits (s.band a.region a.band).density && d.level.toNat == x.level &&
      d.sweepStart.toInt == x.start && d.sweepStep.toNat == x.step && d.sweepCount.toNat == x.count && d.cls == a.cls

/-! Journal, images, rescue. -/

/-- Programs of one copy of a journal that are with the lanes, by frame number. -/
def State.journalOut (s : State) (g : RegionIx) (c : Fin 2) : List Nat :=
  let frame (p : Purpose) : Option Nat := match p with
    | .journal h n k => if h = g ∧ k = c then some n else none
    | _ => none
  (List.finRange 24).flatMap fun l => (s.lanes[l].queue.filterMap fun e => frame e.purpose) ++ s.lanes[l].waiting.filterMap fun e => frame e.2

/-- A copy of a journal frame may be programmed (R136, R139, R140): closed, in frame-number order, CRITICAL, at most four in flight, on the open
journal band of its side. -/
def State.journalFits (s : State) (g : RegionIx) (n : Nat) (c : Fin 2) (d : Descriptor) : Bool :=
  let j := (s.regions[g]).journal
  let out := s.journalOut g c
  d.op == some .programPage && d.critical && !out.contains n && decide (out.length < 4) &&
  (match j.tail.find? fun f => f.num == n with | some f => f.closed && !f.ok[c] | none => false) &&
  (j.tail.all fun f => decide (n ≤ f.num) || f.ok[c] || out.contains f.num) &&
  (match (j.bands[c]).head? with | some b => (s.descPosition (copySide g c) b d).isSome | none => false)

/-- A copy of an image is programmed at CLASS 0b11 in the checkpoint band that holds its slot (R142, R143). -/
def State.imageFits (s : State) (g : RegionIx) (q : Nat) (c : Fin 2) (d : Descriptor) : Bool :=
  d.op == some .programPage && d.cls == 3 &&
  match (s.regions[g]).images.find? fun i => i.ckptSeq == q with
  | some i => match i.loc[c] with
    | some x => (s.descPosition (copySide g c) x.1 d).isSome
    | none => false
  | none => false

/-! Work as a whole. -/

/-- The accumulator of a lane's cluster takes in a page row at its first pass (R104, R182): none where the memory does not hold its band row. -/
def State.accTake (s : State) (l : LaneIx) (g : RegionIx) (b u : Nat) (d : Descriptor) : Option State :=
  let c := clusterOfLane l
  let w := d.wordline.toNat
  if !(s.band g b).carriesParity || d.pass != 0 then some s
  else if s.clusters[c].accRows.any fun r => r.band == b && r.row == w then
    some (s.updCluster c fun x => { x with accRows := x.accRows.map fun r => if r.band = b ∧ r.row = w then { r with positions := r.positions ++ [u] } else r })
  else if accMemory < s.accUsed c + s.accRowBytes g b then none
  else some (s.updCluster c fun x => { x with accRows := x.accRows ++ [{ band := b, row := w, positions := [u] }] })

/-- A multi-pass row's data is held from its first pass on (R71). -/
def State.holdFold (s : State) (l : LaneIx) (g : RegionIx) (b w u : Nat) (d : Descriptor) : State :=
  let die := dieOfLane l
  match decodePtr d.buf0, (s.band g b).foldHeld.any fun x => x.1 == w && x.2.1 == u with
  | (some .dram, _, i, _), false =>
    if ((s.regionProf? g).map fun p => (passPlan p (s.band g b).density).1).getD 1 = 1 then s
    else (s.updPool die fun p => p.updBuf .dram i fun x => { x with refs := x.refs + 1 }).updBand g b fun x => { x with foldHeld := x.foldHeld ++ [(w, u, die, i)] }
  | _, _ => s

/-- What a submission comes to. -/
inductive Submission where
  /-- The cluster does not submit it: it is not the work's descriptor. -/
  | notIt
  /-- It waits in the region: memory, sequences or parity rows are not there yet (R31, R120, R141, R182). -/
  | held
  | go (s : State) (p : Purpose)

/-- A data page row of a band. -/
def State.submitData (s : State) (l : LaneIx) (d : Descriptor) (g : RegionIx) (b : Nat) : Submission :=
  match s.geo? g, s.regionProf? g, s.descPosition g b d with
  | some geo, some p, some u =>
    let x := s.band g b
    let f := framesPerRow p x.density
    let w := d.wordline.toNat
    if !programFits p x d || !(dataPos geo b).contains u || !(x.kind == .data || x.kind == .swarmParity) || !rowPacked geo f x w u ||
       !(bandClasses ((s.regions[g]).resync.contains b) x).contains d.cls || !s.passNew l g b u d || !s.chainOk l g b u d || !s.foldDataOk l g b w u d then .notIt
    else match s.accTake l g b u d with
      | some s => .go (s.holdFold l g b w u d) (.dataRow g b)
      | none => .held
  | _, _, _ => .notIt

/-- A parity page row: once every data row is readable or pad, from accumulations that are sound, with a write sequence for each frame (R98,
R120, R181, R183). -/
def State.submitParity (s : State) (l : LaneIx) (d : Descriptor) (g : RegionIx) (b : Nat) : Submission :=
  match s.geo? g, s.regionProf? g, s.descPosition g b d with
  | some geo, some p, some u =>
    let x := s.band g b
    let f := framesPerRow p x.density
    let w := d.wordline.toNat
    let pi := parityPos geo b
    if !programFits p x d || !(u == pi.1 || u == pi.2) || !x.carriesParity ||
       !(bandClasses ((s.regions[g]).resync.contains b) x).contains d.cls || !s.passNew l g b u d || !s.chainOk l g b u d || !s.foldDataOk l g b w u d then .notIt
    else if !rowComplete geo f x w || !s.accWhole geo g b w then .held
    else if d.pass ≠ 0 then .go (s.holdFold l g b w u d) (.parityRow g b)
    else match s.takeSeqs g f with
      | (s, some _) => .go (s.holdFold l g b w u d) (.parityRow g b)
      | (_, none) => .held
  | _, _, _ => .notIt

/-- The erase of a block that its band's intent names and that no lane has yet, at CLASS 0b11 (R161 step 5). -/
def State.eraseFits (s : State) (l : LaneIx) (g : RegionIx) (b : Nat) (d : Descriptor) : Bool :=
  let x := s.band g b
  d.op == some .eraseBlock && d.cls == 3 && x.phase == .erasing && x.intentDurable && x.eraseTodo.contains (d.lunNo, d.block.toNat) &&
  (s.descPosition g b d).isSome && !(s.lanes[l].queue.any fun e => e.purpose == .bandErase g b && e.desc.lun == d.lun && e.desc.block == d.block) &&
  !(s.lanes[l].waiting.any fun e => e.2 == .bandErase g b && e.1.lun == d.lun && e.1.block == d.block)

/-- A page row of an adopted position, at CLASS 0b10 and from band row 0 upward, once SPARE_ADOPT is durable (R191, R192). -/
def State.rebuildFits (s : State) (g : RegionIx) (b : Nat) (d : Descriptor) : Bool :=
  match s.regionProf? g, s.descPosition g b d with
  | some p, some _ =>
    let r := s.regions[g]
    let w := d.wordline.toNat
    programFits p (s.band g b) d && d.cls == 2 && r.tab.adoptions.any fun a => a.spare == d.lunNo && r.durable (.spareAdopt a.spare a.set a.position a.lost) &&
      (match r.nextRebuild a with
       | some (nb, done) => nb == b && (if (passPlan p (s.band g b).density).1 = 1 then w == done else decide (done ≤ w))
       | none => false)
  | _, _ => false

/-- Frames that the region itself reads: each becomes a climb where it is none yet (R111, R531). -/
def State.placeOwn (s : State) (reqs : List FrameReq) : State :=
  reqs.foldl (fun s r => if s.clusters[reqCluster r].climbs.any fun k => sameFrame r k && k.whos.contains r.who then s else s.wantFrame r) s

/-- Requests that the region may place itself. -/
def ownRequest (r : FrameReq) : Bool := r.who == .swarmSend || r.who == .rebuildService || r.who == .parityWork || r.who == .regionMeta

/-- What a cluster makes of a piece of work and a descriptor for it. Work that has no purpose of its own neither programs nor erases. -/
def State.submission (s : State) (l : LaneIx) (d : Descriptor) : Purpose → Submission
  | .plain => match d.op with
    | some o => if programOp o || o == .eraseBlock then .notIt else .go s .plain
    | none => .notIt
  | .frameRead ids => if s.readFits l d ids then .go (s.sendReads l d ids) (.frameRead ids) else .notIt
  | .ownRead reqs =>
    if reqs.isEmpty || !reqs.all (fun r => ownRequest r && reqCluster r == clusterOfLane l && r.lun == d.lunNo && !r.lost) then .notIt else
    let t := s.placeOwn reqs
    let ids := (t.clusters[clusterOfLane l].climbs.filter fun k => reqs.any fun r => sameFrame r k).map (·.req.id)
    if t.readFits l d ids then .go (t.sendReads l d ids) (.frameRead ids) else .notIt
  | .sweep run i =>
    if s.sweepFits l d run i then
      .go (s.updSweep (clusterOfLane l) run fun a => { a with plan := a.plan.modify i fun x => { x with got := .sent } }) (.sweep run i)
    else .notIt
  | .dataRow g b => s.submitData l d g b
  | .parityRow g b => s.submitParity l d g b
  | .journal g n c => if s.journalFits g n c d then .go s (.journal g n c) else .notIt
  | .image g q c => if s.imageFits g q c d then .go s (.image g q c) else .notIt
  | .bandErase g b => if s.eraseFits l g b d then .go s (.bandErase g b) else .notIt
  | .rebuildRow g b => if s.rebuildFits g b d then .go s (.rebuildRow g b) else .notIt
  | .rescue => if d.critical && (match d.op with | some o => programOp o | none => false) then .go s .rescue else .notIt

end Sys2Proof.Machine
end

