-- ==== Sys2Proof/Machine/Lane.lean ====
section
/-! DEFINITION. The commands of the lane engines outside microcode (R38 to R64), and slots that free (R31). -/

namespace Sys2Proof.Machine

/-- A free slot of a lane's queue goes to the waiting descriptor that ranks first among those it serves (R31). -/
def State.grantSlot (s : State) (l : LaneIx) : State :=
  let x := s.lanes[l]
  match bestWaiting x.queue x.waiting with
  | none => s
  | some w =>
    let s := s.updLane l fun x => { x with waiting := x.waiting.erase w }
    if !s.descAccepted l w.1 then (s.refuseDesc l w.1).onDone { lane := l, desc := w.1, purpose := w.2, status := .refused }
    else match slotFor x.queue w.1 with
      | some k => s.enqueue l w.1 w.2 k
      | none => s

/-- RESOURCE_SLOT_FREE (R31): the slot goes to the waiting requester of highest priority, the oldest of equals. -/
def execResourceSlotFree (r : Resource) (s : State) : Out :=
  match r with
  | .hostSlots d =>
    let h := s.dies[d].host
    match h.backlog with
    | [] => unchanged s
    | c :: rest => if 1024 ≤ h.slots.length then unchanged s else .next (s.updHost d fun h => { h with slots := h.slots ++ [c], backlog := rest })
  | .laneQueue l => .next (s.grantSlot l)
  | .lookups g => .next (s.lookupDone g)
  | .bridge toward => .next (s.updCommon toward fun c => { c with bridge := c.bridge.grant })

/-- DESCRIPTOR_SUBMIT (R30, R31, R38, R39): refused at once, queued in a slot of its kind, or held until one frees, behind those that already
wait. A cluster submits only the descriptor that its work calls for; work whose memory, sequences or parity rows are not there yet is
held back (DEDUCED, log entry 111). -/
def execDescriptorSubmit (l : LaneIx) (d : Descriptor) (p : Purpose) (s : State) : Out :=
  if !s.descAccepted l d then .next (s.refuseDesc l d)
  else match s.submission l d p with
  | .notIt | .held => unchanged s
  | .go s p =>
    if s.lanes[l].waiting.isEmpty then match slotFor s.lanes[l].queue d with
      | some k => .next (s.enqueue l d p k)
      | none => .next (s.updLane l fun x => { x with waiting := x.waiting ++ [(d, p)] })
    else .next ((s.updLane l fun x => { x with waiting := x.waiting ++ [(d, p)] }).grantSlot l)

/-- Dirty bits that the frame rows of a page row fall under (R185). -/
def dirtyBits (f w : Nat) : List Nat := ((List.range f).map fun i => (w * f + i) / 256).eraseDups

/-- The band of the work carries band parity and a dirty bit of the row is not durable (R177, R185): the bits to set. -/
def State.dirtyMissing (s : State) (e : QEntry) : List (RegionIx × Nat × Nat) :=
  match e.purpose with
  | .dataRow g b =>
    let x := s.band g b
    if !x.carriesParity then [] else
    match s.regionProf? g with
    | some p => ((dirtyBits (framesPerRow p x.density) e.desc.wordline.toNat).filter fun k => !x.dirtyDurable.contains k).map fun k => (g, b, k)
    | none => []
  | _ => []

/-- Append the DIRTY records that are not yet in the journal (R185). -/
def State.markDirty (s : State) (xs : List (RegionIx × Nat × Nat)) : State :=
  xs.foldl (fun s x => if (s.band x.1 x.2.1).dirty.contains x.2.2 then s
    else (s.updBand x.1 x.2.1 fun b => { b with dirty := b.dirty ++ [x.2.2] }).jot x.1 (.dirty x.2.1 x.2.2 true)) s

/-- The dirty bits after those of the row that a data program starts, with no row of their own programmed yet: their records go ahead (R185). -/
def State.dirtyAhead (s : State) (e : QEntry) : List (RegionIx × Nat × Nat) := match e.purpose with
  | .dataRow g b =>
    let x := s.band g b
    match s.regionProf? g with
    | none => []
    | some p =>
      let f := framesPerRow p x.density
      if !x.carriesParity then [] else
      (((dirtyBits f e.desc.wordline.toNat).map (· + 1)).filter fun k => decide (k * 256 < p.wordlines * f) && !x.dirty.contains k &&
        !x.rowsOk.any fun r => (dirtyBits f r.1).contains k).map fun k => (g, b, k)
  | .plain | .frameRead _ | .ownRead _ | .sweep _ _ | .parityRow _ _ | .journal _ _ _ | .image _ _ _ | .bandErase _ _ | .rebuildRow _ _ | .rescue => []

/-- Complete a descriptor, hand its result upward, and let erases and reads take their turns. -/
def State.settle (s : State) (l : LaneIx) (e : QEntry) (st : LaneStatus) (nand : Byte) (addr : BitVec 14) (value : Word) : State :=
  let p := s.finishDesc l e st nand addr value
  (p.1.onDone p.2).turns l

/-- A lane starts the descriptor that ranks first, where that is an operation of this kind (R40, R42 to R44, R185). -/
def State.startOp (s : State) (l : LaneIx) (op : LaneOp) (go : State → CtxIx → QEntry → State) : Out :=
  let x := s.lanes[l]
  match x.nextStart with
  | none => unchanged s
  | some e =>
    if e.desc.op != some op then unchanged s
    else if onErasing (x.queue.takeWhile fun q => q.desc.tag != e.desc.tag) e then
      let s := (s.updLane l fun x => { x with err := { x.err with pending := satAdd 255 x.err.pending 1 } }).raiseLane l 7 e.desc
      .next (s.settle l e .erasePending 0 0 0)
    else
      let missing := s.dirtyMissing e
      -- The lane waits until the records are durable: their frame closes (R139).
      if !missing.isEmpty then .next (missing.foldl (fun s m => s.updRegion m.1 RegionSt.closeTail) (s.markDirty missing))
      else match s.ctxFor l op with
        | none => unchanged s
        | some c => .next (go ((s.markDirty (s.dirtyAhead e)).bind l c e op) c { e with ctx := some c })

/-- READ_PAGE (R40, R44). -/
def execReadPage (l : LaneIx) (s : State) : Out := s.startOp l .readPage fun s _ _ => s
/-- READ_SOFT (R40, R44). -/
def execReadSoft (l : LaneIx) (s : State) : Out := s.startOp l .readSoft fun s _ _ => s
/-- MARGIN_READ (R40, R44). -/
def execMarginRead (l : LaneIx) (s : State) : Out := s.startOp l .marginRead fun s _ _ => s
/-- OFFSET_SWEEP (R40, R44, R90). -/
def execOffsetSweep (l : LaneIx) (s : State) : Out := s.startOp l .offsetSweep fun s _ _ => s
/-- PROGRAM_PAGE (R40, R45, R185). -/
def execProgramPage (l : LaneIx) (s : State) : Out := s.startOp l .programPage fun s _ _ => s
/-- PROGRAM_PASS (R40, R45, R71). -/
def execProgramPass (l : LaneIx) (s : State) : Out := s.startOp l .programPass fun s _ _ => s
/-- SET_FEATURE (R40). -/
def execSetFeature (l : LaneIx) (s : State) : Out := s.startOp l .setFeature fun s _ _ => s
/-- GET_FEATURE (R40). -/
def execGetFeature (l : LaneIx) (s : State) : Out := s.startOp l .getFeature fun s _ _ => s
/-- READ_STATUS (R40). -/
def execReadStatus (l : LaneIx) (s : State) : Out := s.startOp l .readStatus fun s _ _ => s

/-- ERASE_BLOCK (R40, R45, R46): the erase runs, its minimum run time counted from here. -/
def execEraseBlock (l : LaneIx) (s : State) : Out :=
  s.startOp l .eraseBlock fun s _ e => s.updLane l fun x => { x with erases := x.erases ++
    [{ tag := e.desc.tag, unit := e.desc.unit, phase := .running, held := false, count := 0, guarded := false, minMet := false,
       due := false }] }

/-- SUSPEND (R47, R48): nothing to suspend, or the limit reached without CRITICAL, completes OK with no command and holds nothing; else
the erase is suspended, or kept suspended, until RESUME. -/
def execSuspend (l : LaneIx) (s : State) : Out :=
  s.startOp l .suspend fun s _ e =>
    let x := s.lanes[l]
    let u := e.desc.unit
    match x.erases.find? fun r => r.unit == u with
    | none => s.settle l e .ok 0 0 0
    | some r =>
      if !e.desc.critical && !r.held && decide (x.suspLimit ≤ r.count) then s.settle l e .ok 0 0 0
      else match r.phase with
      | .suspended | .suspending =>
        let s := s.updLane l fun x => x.updErase u fun r => { r with held := true, due := false }
        if r.phase == .suspended then s.settle l e .ok 0 0 0 else s
      | .running =>
        s.updLane l fun x => (x.updErase u fun r => { r with phase := .suspending, held := true }).cycle (.suspend u)

/-- RESUME (R48): no erase suspended by this lane since its last reset completes OK with no command. -/
def execResume (l : LaneIx) (s : State) : Out :=
  s.startOp l .resume fun s _ e =>
    match suspendedOn s.lanes[l] e.desc.unit with
    | none => s.settle l e .ok 0 0 0
    | some _ => (s.updLane l fun x => x.resumeErase e.desc.unit).settle l e .ok 0 0 0

/-- Microcode fault (R60): the first cause since start is recorded, the channel's LUN is reset, the descriptor completes UCODE_FAULT with
the address, the context is freed. -/
def State.microFault (s : State) (l : LaneIx) (c : CtxIx) (e : QEntry) (addr : BitVec 14) (cause : BitVec 4) : State :=
  let s := s.updLane l fun x => { (if x.owner = some c then x.cycle (.lunReset e.desc.unit) else x) with
    ucodeFault := match x.ucodeFault with | some f => some f | none => some { cause := cause, ctx := c, addr := addr } }
  (s.raiseLane l 4 e.desc).settle l e .ucodeFault (s.lastNand l e) addr 0

/-! Training. -/

/-- Rate index of a profile's maximum rate (R50). -/
def rateOf (p : MediaProfile) : Fin 3 := if p.maxRate = 3600 then 0 else if p.maxRate = 2400 then 1 else 2

/-- A training or retrain that completed (R51, R53): counts and window restart. -/
def State.trained (s : State) (l : LaneIx) (cause : TrainCause) (stepped : Bool) : State :=
  let temp := (s.com (dieOfLane l)).temp
  let now := (s.com (dieOfLane l)).usec
  s.updLane l fun x => { x with
    inService := !x.quarantined, train := { x.train with
      running := false, lastTemp := temp, count := satAdd 255 x.train.count 1, lastCause := cause, lastFail := stepped, pending := none,
      mismatchAt := [], step1At := [], framesRead := 0,
      errorRetrainAt := if cause = .errorRate then some now else x.train.errorRetrainAt } }

/-- A lane that cannot train at 1,600 MT/s (R54): its waiting descriptors complete PHY_FAULT, it goes out of service and is quarantined. -/
def State.laneUntrainable (s : State) (l : LaneIx) : State :=
  let p := s.finishAll l .phyFault (s.lanes[l].queue.filter fun e => e.ctx.isNone)
  let s := p.1.onDoneAll p.2
  (s.updLane l fun x => { x with train := { x.train with running := false, lastFail := true, pending := none } }).quarantineLane l

/-- A training that fails in a shadow (R467): reported, with no step of the rate; what asked for it stands (DESIGN CHOICE, log entry 138). -/
def State.trainingLeft (s : State) (l : LaneIx) : State := s.updLane l fun x => { x with train := { x.train with running := false, lastFail := true } }

/-- One of the two tries at a rate succeeds (R54). Without XTAL25 none does (R28). -/
def State.triesPass (s : State) (tries : List Bool) : Bool := s.clocksRun && (tries.headD true || (tries.drop 1).headD true)

/-- Populated chip enables of a lane (R397). -/
def State.ces (s : State) (l : LaneIx) : List (Fin 8) := (List.finRange 8).filter fun c => (List.finRange 32).any fun u => u.val / 4 == c.val && s.populated l u

/-- A calibration or training step on some CEs: each holds what the PHY finds, which the spec does not state (a free value). -/
def State.calibrate (s : State) (l : LaneIx) (ces : List (Fin 8)) (put : CeTraining → Word → CeTraining) : State :=
  ces.foldl (fun (s : State) (c : Fin 8) => { (s.updLane l fun x => { x with train := { x.train with
    results := x.train.results.set c (put x.train.results[c] (Config.freeWord s.free)) } }) with free := s.free + 1 }) s

/-- One step of R51 at a rate, on the CEs named. -/
def State.trainStep (s : State) (l : LaneIx) (ces : List (Fin 8)) (rate : Fin 3) : TrainStep → State
  | .sdrInit => s.updLane l fun x => { x with train := { x.train with rate := none, results := Vector.replicate 8 untrainedCe } }
  | .dataInterface => s.updLane l fun x => { x with train := { x.train with rate := some rate } }
  | .zqLong => s.calibrate l ces fun r v => { r with zq := some v }
  | .dutyCycle => s.calibrate l ces fun r v => { r with duty := some v }
  | .readDq => s.calibrate l ces fun r v => { r with readDq := some v }
  | .writeDq => s.calibrate l ces fun r v => { r with writeDq := some v }

/-- The steps in order (R51): the lane is brought to its interface, then each populated CE is calibrated and trained. -/
def bringUpSteps : List TrainStep := [.sdrInit, .dataInterface]
def trainingSteps : List TrainStep := [.zqLong, .dutyCycle, .readDq, .writeDq]
def State.runSteps (s : State) (l : LaneIx) (rate : Fin 3) (steps : List TrainStep) : State :=
  steps.foldl (fun s k => s.trainStep l (s.ces l) rate k) s

/-- The full training of R51, each failure repeated once, each double failure one rate step down (R54). `tries` are the outcomes in turn;
one that is not given succeeds. -/
def State.fullTraining (s : State) (l : LaneIx) (cause : TrainCause) (stepped : Bool) (rate : Fin 3) : Nat → List Bool → State
  | 0, _ => s.laneUntrainable l
  | fuel + 1, tries =>
    let s := s.runSteps l rate bringUpSteps
    if s.triesPass tries then (s.runSteps l rate trainingSteps).trained l cause stepped
    else
      let s := s.raiseLaneAll l 3
      if s.shaded (.lane l) then s.trainingLeft l
      else if h : rate.val < 2 then s.fullTraining l cause true ⟨rate.val + 1, by omega⟩ fuel (tries.drop 2)
      else s.laneUntrainable l

/-- The rate at which a lane trains: the one it has stepped down to, else its profile's (R50, R54). -/
def State.laneRate (s : State) (l : LaneIx) : Fin 3 :=
  match s.lanes[l].train.rate with
  | some r => r
  | none => match s.laneProfile l with
    | some p => rateOf p
    | none => 2

/-- The lane's profile names a patch that is neither active nor rejected (R61, R379): training waits for it. -/
def State.patchAwaited (s : State) (l : LaneIx) : Bool :=
  let x := s.lanes[l].patch
  (match s.laneProfile l with | some p => p.patchId != 0 | none => false) && !x.active && !x.rejected

/-- TRAIN (R40, R51, R54, R379): once the channel is free, it is trained in the six steps and the descriptor completes. -/
def execTrain (l : LaneIx) (tries : List Bool) (s : State) : Out :=
  if s.patchAwaited l || s.lanes[l].owner.isSome then unchanged s else
  s.startOp l .train fun s _ e =>
    let left := s.shaded (.lane l) && !s.triesPass tries
    let s := s.fullTraining l .startOrTrain false (s.laneRate l) 3 tries
    match s.lanes[l].queue.find? fun q => q.desc.tag == e.desc.tag with
    | some q => if s.lanes[l].inService && !left then s.settle l q .ok 0 0 0 else s.settle l q .phyFault 0 0 0
    | none => s

/-- The retrain trigger that stands (R53): one that is pending, or a die temperature 10 °C or more from that of the last training. -/
def State.retrainCause (s : State) (l : LaneIx) : Option TrainCause :=
  let x := s.lanes[l].train
  let diff := (s.com (dieOfLane l)).temp - x.lastTemp
  match x.pending with
  | some c => some c
  | none => if 10 ≤ diff.natAbs then some .temperature else none

/-- A retrain (R53, R54): short ZQ and DQ centring; a double failure steps the rate down. The error-rate cause within 60 s of its own
retrain steps the rate down without the event; at 1,600 MT/s, below which the spec names no rate, the lane then counts as one that cannot
be trained (DEDUCED, log entry 124). -/
def State.retrain (s : State) (l : LaneIx) (tries : List Bool) (cause : TrainCause) : State :=
  let x := s.lanes[l].train
  let now := (s.com (dieOfLane l)).usec
  let again : Bool := cause == .errorRate && (match x.errorRetrainAt with | some t => decide ((now - t).toNat < 60000000) | none => false)
  let rate := s.laneRate l
  if again then
    if h : rate.val < 2 then s.fullTraining l cause true ⟨rate.val + 1, by omega⟩ 3 tries else s.laneUntrainable l
  else if s.triesPass tries then
    let s := s.updLane l fun x => { x with train := { x.train with zqShort := x.train.zqShort + (s.ces l).length } }
    (s.runSteps l rate [.readDq, .writeDq]).trained l cause false
  else
    let s := s.raiseLaneAll l 3
    if s.shaded (.lane l) then s.trainingLeft l
    else if h : rate.val < 2 then s.fullTraining l cause true ⟨rate.val + 1, by omega⟩ 3 (tries.drop 2) else s.laneUntrainable l

/-- A read-class or CRITICAL descriptor waits for the channel: at a SYNC of its context, or not started though nothing but the channel and
a context is missing (R43, R53). -/
def channelWanted (x : LaneSt) : List QEntry → List QEntry → Bool
  | _, [] => false
  | before, e :: rest =>
    ((e.desc.critical || (match e.desc.op with | some o => readClass o | none => false)) && (x.awaitsChannel e || eligible x before e)) ||
      channelWanted x (before ++ [e]) rest

/-- An idle slot (R53): no transfer, and no read-class or CRITICAL descriptor waits for the channel. -/
def idleSlot (x : LaneSt) : Bool := x.owner.isNone && !channelWanted x [] x.queue

/-- LANE_RETRAIN (R53): at the first idle slot after a trigger. -/
def execLaneRetrain (l : LaneIx) (tries : List Bool) (s : State) : Out :=
  let x := s.lanes[l]
  match s.retrainCause l with
  | some c => if x.inService && idleSlot x then .next (s.retrain l tries c) else unchanged s
  | none => unchanged s

/-- RETRAIN_IDLE_TIMEOUT (R53): after 5 ms the lane takes the channel at the next transfer boundary; the context that owned it goes on
with it after the retrain. -/
def execRetrainIdleTimeout (l : LaneIx) (tries : List Bool) (s : State) : Out :=
  let x := s.lanes[l]
  match s.retrainCause l with
  | some c => if x.inService then .next (s.retrain l tries c) else unchanged s
  | none => unchanged s

/-- LNE_CTRL.RETRAIN (R53, R64). -/
def execLneCtrlRetrain (l : LaneIx) (s : State) : Out :=
  if s.lanes[l].inService then .next (s.updLane l fun x => { x with train := { x.train with pending := some (x.train.pending.getD .request) } })
  else unchanged s

/-- LNE_CTRL.CNT_CLR (R64). -/
def execLneCtrlCntClr (l : LaneIx) (s : State) : Out :=
  .next (s.updLane l fun x => { x with err := { prog := 0, erase := 0, timeout := 0, pending := 0 } })

/-- DQS_DRIFT_TRACK (R52): the delay lines take the correction between transfers. -/
def execDqsDriftTrack (l : LaneIx) (drift : Int) (s : State) : Out :=
  if s.lanes[l].train.rate.isNone then unchanged s
  else .next (s.updLane l fun x => { x with train := { x.train with dqsCorrection := x.train.dqsCorrection + drift } })

/-- ZQ_SHORT_CALIBRATION (R52): on each populated CE, at an idle slot. -/
def execZqShortCalibration (l : LaneIx) (s : State) : Out :=
  if s.lanes[l].train.rate.isNone || !idleSlot s.lanes[l] then unchanged s
  else .next (s.updLane l fun x => { x with train := { x.train with zqShort := x.train.zqShort + (s.ces l).length } })

/-! Results. -/

/-- An erase whose suspension a status read confirms (R46 to R48): it counts, and SUSPEND descriptors that wait for it complete OK. -/
def State.suspendConfirmed (s : State) (l : LaneIx) (r : EraseRun) (nand : Byte) : State :=
  let s := s.updLane l fun x => x.updErase r.unit fun r => { r with phase := .suspended, count := r.count + 1 }
  let waits := s.lanes[l].queue.filter fun e => e.ctx.isSome && e.desc.op == some .suspend && e.desc.unit == r.unit
  (waits.foldl (fun s e => s.settle l e .ok nand 0 0) s).turns l

/-- Add a program failure to LNE_ERRCNT and raise its event (R55), or an erase failure. -/
def State.programFailed (s : State) (l : LaneIx) (d : Descriptor) : State :=
  (s.updLane l fun x => { x with err := { x.err with prog := satAdd 255 x.err.prog 1 } }).raiseLane l 0 d
def State.eraseFailed (s : State) (l : LaneIx) (d : Descriptor) : State :=
  (s.updLane l fun x => { x with err := { x.err with erase := satAdd 255 x.err.erase 1 } }).raiseLane l 1 d

/-- A status read that shows the LUN still busy: its context keeps the byte (R41, R59). -/
def State.statusSeen (s : State) (l : LaneIx) (e : QEntry) (st : NandStatus) : State :=
  s.updLane l fun x => match e.ctx with
    | some c => match x.ctxs[c] with
      | some k => { x with ctxs := x.ctxs.set c (some { k with nand := st }) }
      | none => x
    | none => x

/-- What a finished operation leaves in its buffers (R40): pointer, bytes, contents. -/
def depositsOf (d : Descriptor) (op : LaneOp) (r : LunReply) : List (Word × Nat × BufData) :=
  let span : PageSpan := { lun := d.lunNo, block := d.block.toNat, wordline := d.wordline.toNat, page := d.page, column := d.column.toNat, length := d.length.toNat }
  match op with
  | .readPage | .marginRead => [(d.buf0, span.length, .page span)]
  | .readSoft => [(d.buf0, span.length, .page span), (d.buf1, span.length * (d.soft.toNat + 1) / 2, .soft span d.soft.toNat)]
  | .offsetSweep => [(d.buf1, 4 * d.sweepCount.toNat, .counts r.counts)]
  | .getFeature => if d.buf1 = 0 then [] else [(d.buf1, 4, .feature r.value)]
  | .programPage | .programPass | .eraseBlock | .suspend | .resume | .setFeature | .readStatus | .train => []

/-- A descriptor whose array operation a status read shows finished (R40, R41, R48, R55); a buffer that fails its check ends it UCODE_FAULT
(R307). -/
def State.arrayDone (s : State) (l : LaneIx) (e : QEntry) (op : LaneOp) (st : NandStatus) (r : LunReply) : State :=
  let d := dieOfLane l
  let xs := depositsOf e.desc op r
  match s.depositFault d xs with
  | some (ptr, cause) =>
    let s := (s.statusSeen l e st).pointerFault d ptr cause .lane
    match e.ctx with
    | some c => s.microFault l c e ((s.lanes[l].ctxs[c].map (·.pc)).getD 0) 6
    | none => s
  | none =>
  let s := xs.foldl (fun s x => s.deposit d x.1 x.2.2) s
  match op with
  | .eraseBlock =>
    let s := if st.fail then s.eraseFailed l e.desc else s
    let s := s.settle l e (if st.fail then .eraseFail else .ok) st.raw 0 0
    let waits := s.lanes[l].queue.filter fun q => q.ctx.isSome && q.desc.op == some .suspend && q.desc.unit == e.desc.unit
    waits.foldl (fun s q => s.settle l q .ok st.raw 0 0) s
  | .programPage | .programPass =>
    let s := if st.fail then s.programFailed l e.desc else s
    s.settle l e (if st.fail then .programFail else .ok) st.raw 0 0
  | .getFeature => s.settle l e .ok st.raw 0 r.value
  | .readStatus => s.settle l e .ok st.raw 0 (st.raw.setWidth 32)
  | .setFeature =>
    let u := e.desc.unit
    let s := s.updLane l fun x => { x with features :=
      (x.features.filter fun f => !(f.1 == u && f.2.1 == e.desc.feature)) ++ [(u, e.desc.feature, e.desc.featureData)] }
    s.settle l e .ok st.raw 0 0
  | .offsetSweep =>
    let s := match e.purpose with
      | .sweep run i => s.updSweep (clusterOfLane l) run fun a => a.swept i r.counts
      | _ => s
    s.settle l e .ok st.raw 0 0
  | .readPage | .readSoft | .marginRead | .suspend | .resume | .train => s.settle l e .ok st.raw 0 0

/-- LUN_READY (R41, R46, R48, R55): a status read of the LUN on which a descriptor runs. A suspension in flight is confirmed, or found
too late; everything else completes with its result. -/
def execLunReady (l : LaneIx) (tag : Half) (st : NandStatus) (r : LunReply) (s : State) : Out :=
  match s.lanes[l].queue.find? fun e => e.desc.tag == tag with
  | none => unchanged s
  | some e =>
    match e.ctx, e.desc.op with
    | some _, some op =>
      match s.lanes[l].erases.find? fun r => r.tag == tag with
      | some x =>
        if x.phase == .suspended then unchanged s
        else if x.phase == .suspending && st.suspended then .next (s.suspendConfirmed l x st.raw)
        else if !st.ready then .next (s.statusSeen l e st)
        else .next (s.arrayDone l e op st r)
      | none =>
        if op == .train || op == .suspend || op == .resume then unchanged s
        else if st.ready then .next (s.arrayDone l e op st r) else .next (s.statusSeen l e st)
    | _, _ => unchanged s

/-- STATUS_TIMEOUT (R49, R55, R189): LUN reset, TIMEOUT, Status timeout; an erase suspended on the LUN is abandoned with the reset. Nothing
is retried. A suspended erase is not timed. -/
def execStatusTimeout (l : LaneIx) (tag : Half) (s : State) : Out :=
  match s.lanes[l].queue.find? fun e => e.desc.tag == tag with
  | none => unchanged s
  | some e =>
    if e.ctx.isNone || (s.lanes[l].erases.any fun r => r.tag == tag && r.phase == .suspended) || e.desc.op == some .train then unchanged s
    else
      let u := e.desc.unit
      let s := s.updLane l fun x => { (x.cycle (.lunReset u)) with err := { x.err with timeout := satAdd 255 x.err.timeout 1 } }
      let s := (s.raiseLane l 2 e.desc).settle l e .timeout (s.lastNand l e) 0 0
      let others := s.lanes[l].queue.filter fun q => s.lanes[l].erases.any fun r => r.tag == q.desc.tag && r.unit == u
      let p := s.finishAll l .abandoned others
      .next (((p.1.onDoneAll p.2).countTimeout e.desc.lunNo).turns l)

/-- MIN_ERASE_RUN_TIME_EXPIRY (R46, R47): reads that wait now suspend the erase, or meet the limit. -/
def execMinEraseRunTimeExpiry (l : LaneIx) (u : LunIx) (s : State) : Out :=
  match runningOn s.lanes[l] u with
  | none => unchanged s
  | some _ => .next ((s.updLane l fun x => x.updErase u fun r => { r with minMet := true }).suspendIfDue l u)

/-- MAX_SUSPENDED_TIME_EXPIRY (R46, R47): the erase resumes, unless it is held; while another context still works on the LUN, it resumes
when that one is done (R42), and nothing more starts there before it. -/
def execMaxSuspendedTimeExpiry (l : LaneIx) (u : LunIx) (s : State) : Out :=
  match suspendedOn s.lanes[l] u with
  | none => unchanged s
  | some r =>
    if r.held then unchanged s
    else if lunBusy s.lanes[l] u then .next (s.updLane l fun x => x.updErase u fun r => { r with due := true })
    else .next (s.updLane l fun x => x.resumeErase u)

/-- LANE_RESET (R49, R57): contexts clear; programs complete with the status then read, erases are abandoned, everything else that had
started goes again from its descriptor. For a program whose status the command does not give, the read shows ready and no failure (DESIGN
CHOICE, log entry 124). -/
def execLaneReset (l : LaneIx) (results : List (Half × NandStatus)) (s : State) : Out :=
  let started := s.lanes[l].queue.filter fun e => e.ctx.isSome
  let programs := started.filter fun e => match e.desc.op with | some o => programOp o | none => false
  let s := programs.foldl (fun s e =>
    let st := ((results.find? fun r => r.1 == e.desc.tag).map (·.2)).getD { raw := 0, fail := false, ready := true, arrayReady := true, suspended := false }
    s.arrayDone l e .programPage st { value := 0, counts := [] }) s
  let p := s.abandonErases l fun _ => true
  let s := p.1.onDoneAll p.2
  .next (s.updLane l fun x => { x with ctxs := Vector.replicate 8 none, owner := none, ce := none, erases := [],
                                       queue := x.queue.map fun e => { e with ctx := none } })

/-! Patches. -/

/-- Enabled redirect slots: ROM address and target (R62, R64). -/
def slotsEnabled (v : Vector Word 32) : List (Nat × Nat) :=
  (v.toList.filter fun w => w.getLsbD 31).map fun w => (w.toNat / 1024 % 8192, w.toNat % 1024)

/-- The words as the patch area stores them, 4 bytes each with the top byte zero (R443): what the CRC covers. -/
def patchBytes (ws : List (BitVec 24)) : List Byte := ws.flatMap fun w => descBytes (w.setWidth 32)

/-- A patch that the lane takes (R61): the CRC it computes over the words equals the expected one, no two enabled slots name one ROM address,
and every target lies within the loaded length. -/
def patchOk (words : List (BitVec 24)) (crc : Word) (redirect : Vector Word 32) : Bool :=
  let xs := slotsEnabled redirect
  (crc32c (patchBytes words) == crc) && decide (words.length ≤ 1024) && decide (xs.map (·.1)).Nodup && xs.all fun x => decide (x.2 < words.length)

/-- The blob in the running slot's half that the lane's profile names (R379, R444). -/
def State.patchBlob (s : State) (l : LaneIx) : Option PatchBlob :=
  match s.laneProfile l with
  | some p => s.runningPatches.find? (·.patchId == p.patchId)
  | none => none

/-- Main firmware hands a blob on (R444): its signature verifies, ARB is at least the patch counter, it opens under the content key. -/
def State.blobOk (s : State) (b : PatchBlob) : Bool := b.verified && decide (s.keeper.prot.patchArb.toNat ≤ b.arb)

/-- A patch rejected (R61): every slot disabled, ROM alone, Microcode fault; a second rejection takes the lane out of service. -/
def State.rejectPatch (s : State) (l : LaneIx) : State :=
  let s := (s.updLane l fun x => { x with patch := { x.patch with
    words := [], redirect := Vector.replicate 32 0, active := false, rejected := true,
    rejections := x.patch.rejections + if s.shaded (.lane l) then 0 else 1 } }).raiseLaneAll l 4
  if 2 ≤ s.lanes[l].patch.rejections then s.quarantineLane l else s

/-- The loader writes the words, the slots and the expected CRC; the lane computes the CRC and takes or rejects the patch (R61). `words` are
the words as they arrive in patch RAM. A blob that is missing or fails R444 is rejected. -/
def State.loadPatch (s : State) (l : LaneIx) (words : List (BitVec 24)) : State :=
  match s.patchBlob l with
  | none => s.rejectPatch l
  | some b =>
    if !s.blobOk b then s.rejectPatch l else
    let slots : Vector Word 32 := Vector.ofFn fun i => b.redirect.getD i.val 0
    let s := s.updLane l fun x => { x with patch := { x.patch with patchId := BitVec.ofNat 8 b.patchId, crc := b.crc } }
    if !patchOk words b.crc slots then s.rejectPatch l
    else s.updLane l fun x => { x with patch := { x.patch with words := words, redirect := slots, active := true, rejected := false } }

/-- PATCH_LOAD (R61, R379, R444): after the protection lock, for a populated lane that holds no context and whose profile names a patch that
is not active; a rejected one is loaded again once. -/
def execPatchLoad (l : LaneIx) (words : List (BitVec 24)) (s : State) : Out :=
  let x := s.lanes[l]
  let named : Bool := match s.laneProfile l with | some p => p.patchId != 0 | none => false
  if !s.keeper.boot.lock || x.iface == 0 || !named || x.patch.active || decide (2 ≤ x.patch.rejections) || x.ctxs.any (·.isSome) then unchanged s
  else .next (s.loadPatch l words)

end Sys2Proof.Machine
end

