-- ==== Sys2Proof/Machine/Curve.lean ====
section
/-! DEFINITION. The curve P-384 that R245, R247, R249 and R336 name. The spec names the standard and does not write it out (FIPS 186-5, SEC 1; PRESUMED, log
entry 32). -/

namespace Sys2Proof.Machine

/-- The field, and the generator in affine coordinates. -/
def curveField : Nat := 2 ^ 384 - 2 ^ 128 - 2 ^ 96 + 2 ^ 32 - 1
def curveBase : Nat × Nat :=
  (0xAA87CA22BE8B05378EB1C71EF320AD746E1D3B628BA79B9859F741E082542A385502F25DBF55296C3A545E3872760AB7,
   0x3617DE4A96262C6F5D9E98BF9292DC29F8F41DBD289A147CE9DA3113B5F0B8C00A60B1CE1D7E819D7A431D7C90EA0E5F)

/-- a - b and a / b in the field; the inverse is the power p - 2. -/
def fieldSub (a b : Nat) : Nat := (a + (curveField - b % curveField)) % curveField
def fieldInv (a : Nat) : Nat :=
  ((List.range 384).foldl (fun (r : Nat × Nat) i =>
    (if (curveField - 2).testBit i then r.1 * r.2 % curveField else r.1, r.2 * r.2 % curveField)) (1, a % curveField)).1
def fieldDiv (a b : Nat) : Nat := a * fieldInv b % curveField

/-- The third point on the line of slope m through two points, mirrored. -/
def lineSum (m : Nat) (p q : Nat × Nat) : Nat × Nat :=
  let x := fieldSub (fieldSub (m * m) p.1) q.1
  (x, fieldSub (m * fieldSub p.1 x) p.2)

/-- The sum of two points; none is the point at infinity. -/
def curveAdd (p q : Option (Nat × Nat)) : Option (Nat × Nat) :=
  match p, q with
  | none, q => q
  | p, none => p
  | some a, some b =>
    if a.1 ≠ b.1 then some (lineSum (fieldDiv (fieldSub b.2 a.2) (fieldSub b.1 a.1)) a b)
    else if a.2 = b.2 ∧ a.2 ≠ 0 then some (lineSum (fieldDiv (fieldSub (3 * a.1 * a.1) 3) (2 * a.2)) a a)
    else none

/-- The multiple of a point by a scalar of 384 bits. -/
def curveMul (k : Nat) (p : Nat × Nat) : Option (Nat × Nat) :=
  ((List.range 384).foldl (fun (r : Option (Nat × Nat) × Option (Nat × Nat)) i =>
    (if k.testBit i then curveAdd r.1 r.2 else r.1, curveAdd r.2 r.2)) (none, some p)).1

/-- The public key of a private scalar. -/
def publicKey (k : Nat) : Nat × Nat := (curveMul k curveBase).getD (0, 0)

/-- SEC1 uncompressed form, 97 bytes. -/
def sec1 (p : Nat × Nat) : List Byte := 0x04#8 :: (beBytes 48 p.1 ++ beBytes 48 p.2)

/-- ECDH: the x-coordinate of the shared point, 48 bytes (R249, R336). -/
def sharedX (k : Nat) (p : Nat × Nat) : List Byte := beBytes 48 ((curveMul k p).getD (0, 0)).1

end Sys2Proof.Machine
end

