-- ==== Sys2Proof/Machine/Durable.lean ====
section
/-! DEFINITION. Writes that complete once durable, and journal placement (R136, R139 to R145, R282, R283, R536). -/

namespace Sys2Proof.Machine

/-- No frame that is not durable holds a MAP record of the granule. -/
def RegionSt.mapDurable (r : RegionSt) (gran : Nat) : Bool :=
  !(r.journal.tail.any fun f => f.recs.any fun x => match x with | .map n _ _ _ _ => n == gran | _ => false)

/-- A piece of a write is acknowledged: in the window, or written through and durable (R139, R282). -/
def State.pieceDone (s : State) (p : WritePiece) : Bool :=
  match p.at_ with
  | .received => false
  | .inWindow => true
  | .through q =>
    let r := s.regions[s.server p.gran]
    !(r.pend.any fun u => u.gran == p.gran && u.seq == q) && r.mapDurable p.gran

/-- The host port's reference to the buffer of a piece goes. -/
def State.dropPiece (s : State) (d : DieIx) (p : WritePiece) : State := match p.buf with
  | some b => s.dropBuf d b.1 b.2
  | none => s

/-- 4 KiB units that an update covers. -/
def coveredUnits : UpdKind → Nat
  | .write us => (us.toList.filter Option.isSome).length
  | .deallocate => 16
  | .zero figs => figs.length

/-- A write is acknowledged: its namespace holds host-written data, and the counts of R483, data in units of 512 bytes (R337). -/
def State.countWrite (s : State) (w : WriteJob) : State := s.updSub fun x => { x with
  written := if x.written.contains w.nsid then x.written else x.written ++ [w.nsid]
  hostWrites := if w.data then x.hostWrites + 1 else x.hostWrites
  unitsWritten := if w.data then x.unitsWritten + (w.pieces.map fun p => 8 * coveredUnits p.upd).sum else x.unitsWritten }

/-- Writes whose pieces are all in the window or durable complete (R282). -/
def State.settleWrites (s : State) : State :=
  [(0 : DieIx), 1].foldl (fun s d =>
    (s.dies[d].host.writes.filter fun w => w.pieces.all s.pieceDone).foldl (fun s w =>
      let s := (w.pieces.filter fun p => match p.at_ with | .through _ => true | .received | .inWindow => false).foldl (fun s p => s.dropPiece d p) s
      if w.orphan then s.updHost d fun h => { h with writes := h.writes.filter fun x => !(x.orphan && x.ref == w.ref && x.pieces == w.pieces) }
      else (s.countWrite w).complete w.ref stOk 0) s) s

/-! Journal bands. -/

/-- Frames that a band without parity holds (R177). -/
def State.plainSlots (s : State) (g : RegionIx) : Nat := match s.geo? g, s.regionProf? g with
  | some geo, some p => p.wordlines * geoW geo * framesPerRow p .slc
  | _, _ => 0

/-- A copy of a frame lies in the next slot of its side's band; the next band is opened while the tail still fits in this one. -/
def State.placeJournal (s : State) (g : RegionIx) (n : Nat) (c : Fin 2) : State :=
  let side := copySide g c
  match (s.regions[g]).journal.bands[c] with
  | [] => s
  | b :: rest =>
    let s := s.updBand side b fun x => { x with nextSlot := x.nextSlot + 1 }
    let s := s.updJrn g fun j => { j with tail := j.tail.map fun f => if f.num == n then { f with band := f.band.set c (some b) } else f }
    let left := s.plainSlots side - (s.band side b).nextSlot
    let s := if left ≤ 1024 && rest.isEmpty then s.addJournalBand g c else s
    if left = 0 then (s.sealBand side b false).updJrn g fun j => { j with bands := j.bands.set c rest } else s

/-- Erase a band of plain frames once nothing in it is needed, under intent and completion records (R145, R356). -/
def State.releaseBand (s : State) (g : RegionIx) (b : Nat) : State :=
  let x := s.band g b
  if x.intent || x.phase == .erased then s else s.intend g b

/-- JOURNAL_RELEASE (R145): sealed journal bands with no retained frame are erased. -/
def State.releaseJournalBands (s : State) (g : RegionIx) : State :=
  [(0 : Fin 2), 1].foldl (fun s c =>
    let side := copySide g c
    let j := (s.regions[g]).journal
    let used (b : Nat) : Bool := (j.retained ++ j.tail).any fun f => f.band[c] == some b
    let other (b : Nat) : Bool := let k := (s.regions[copySide g 1]).journal; (k.retained ++ k.tail).any fun f => f.band[1 - c] == some b
    ((s.regions[side]).tab.bands.filter fun x => x.kind == .journal && x.phase == .closed && !x.intent && !used x.num && !other x.num).foldl
      (fun s x => s.releaseBand side x.num) s) s

/-- Checkpoint bands that hold no current or coming image are erased (R145). -/
def State.releaseImageBands (s : State) (g : RegionIx) : State :=
  let used (side : RegionIx) (b : Nat) : Bool := (List.finRange 4).any fun h => (s.regions[h]).images.any fun i =>
    [(0 : Fin 2), 1].any fun c => copySide h c == side && (i.loc[c]).map (·.1) == some b
  [g, partnerRegion g].foldl (fun s side =>
    ((s.regions[side]).tab.bands.filter fun x => x.kind == .checkpoint && x.phase == .closed && !x.intent && !used side x.num).foldl
      (fun s x => s.releaseBand side x.num) s) s

/-- A 4,096-frame slot of a checkpoint band of a side (R142). -/
def State.takeImageSlot (s : State) (g : RegionIx) (c : Fin 2) : State × Option (Nat × Nat) :=
  let side := copySide g c
  let total := s.plainSlots side
  let open' (s : State) : List Band := (s.regions[side]).tab.bands.filter fun x => x.kind == .checkpoint && x.phase == .opened
  let s := (open' s).foldl (fun s x => if total < x.nextSlot + 4096 then s.sealBand side x.num false else s) s
  let s := if (open' s).isEmpty then (s.openBand side .checkpoint .other .slc 0xFF).1 else s
  match open' s with
  | [] => (s, none)
  | x :: _ => (s.updBand side x.num fun y => { y with nextSlot := y.nextSlot + 4096 }, some (x.num, x.nextSlot))

end Sys2Proof.Machine
end

