-- ==== Sys2Proof/Machine/ImageBytes.lean ====
section
/-! DEFINITION. Checkpoint images as bytes: band write records, corrections, segment entries, stripe records, block records and map entries (R75, R142,
R160, R213, R220, R235). -/

namespace Sys2Proof.Machine

/-- A band write record (R75). -/
def bandRecord (x : Band) : List DataField :=
  [fld 0 2 (x.num % 32768), fld 2 1 (densityBits x.density), fld 3 1 x.flags.toNat, fld 4 1 x.profile, fld 5 1 (bandKindCode x.kind), fld 8 5 x.openOpsec,
   fld 14 6 (x.openWall.getD 0), fld 20 4 x.patrolTage.toNat] ++
  (List.finRange 8).flatMap fun k => [fld (24 + 4 * k.val) 4 (x.tage[k]).toNat, (match x.temp[k] with | some t => fldC (56 + k.val) t | none => fld (56 + k.val) 1 0x80)]

/-- An Antenna correction as a band segment holds it: K1 to K63, class and temperature (R142). -/
def correctionFields (c : Correction) : List DataField := (c.k.zipIdx.map fun x => fldC x.2 x.1) ++ [fld 63 1 c.cls, fldC 64 c.temp]

/-- A map entry as a map segment holds it, 5 bytes (R126, R142). -/
def entryBytes (e : MapEntry) : List Byte := leBytes 5 e.bits.toNat

/-- A segment entry (R213). -/
def segWord (e : SegEntry) : Nat :=
  e.stripe + e.position * 2 ^ 48 + segStateCode e.state * 2 ^ 53 + e.done.toNat * 2 ^ 56 + e.retracted.toNat * 2 ^ 60

/-- A stripe record of 112 bytes (R220). -/
def stripeFields (r : StripeRec) : List DataField :=
  [fld 0 6 r.stripe, fld 6 1 r.k, fld 7 1 r.m, fld 8 1 (stripeStateCode r.state), fld 9 1 r.filled, fld 10 2 r.group, fld 12 4 r.epoch, fld 16 4 r.opened,
   fld 20 1 r.mypos, fld 21 1 (applyingCode r.applying), fld 22 1 r.newthru] ++ numsAt 24 2 (r.holders.map holderCode) ++ numsAt 32 2 (r.data.map dataCode) ++
  [fld 96 5 (locCode r.cur), fld 101 5 (locCode r.new), fld 106 2 r.version]

/-- A per-block record (R160): the pool is that of the slot which the block serves. -/
def blockRecord (geo : GeometryRec) (t : RegionTables) (lun blk : Nat) : Nat :=
  let x := t.block lun blk
  let slot := ((t.replaced.find? fun r => r.1 == lun && r.2.2 == blk).map (·.2.1)).getD blk
  x.state * 2 ^ 30 + (if slot < geo.slcSlots then 2 ^ 29 else 0) + min x.erases 0xFFFFFF

/-- User data of a map segment's frames after the header (R142): its entries in position order. -/
def mapSegmentBytes (g : RegionIx) (seg : Nat) (entries : List (Nat × MapEntry)) : List Byte :=
  (List.range 3145728).flatMap fun p => entryBytes (entryIn entries ((seg * 3145728 + p) * 4 + g.val))

/-- User data of the band segment's frames after the header (R142, R160, R235), in the order that the spec gives. The layouts of the extent table and
of what else the segment keeps (R171, R196, R322, R487) are not given: free bytes of their content. -/
def bandSegmentBytes (luns : List Nat) (geo : GeometryRec) (p : MediaProfile) (t : RegionTables) (valid : Nat → Nat) : List Byte :=
  ((List.range 32768).flatMap fun b => fieldBytes 64 (bandRecord (t.band b))) ++
  ((List.range 32768).flatMap fun b => fieldBytes 66 (((t.band b).corr.map correctionFields).getD [])) ++
  ((List.range 32768).flatMap fun b => leBytes 4 (valid b)) ++
  Config.extentTable t.extents ++ leBytes 8 t.nextSeq ++
  (luns.flatMap fun lun => (List.range p.blocks).flatMap fun blk => leBytes 4 (blockRecord geo t lun blk)) ++
  ((List.range 32767).flatMap fun b => (List.range 16).flatMap fun u =>
    leBytes 8 (((t.segs.find? fun e => e.band == b && e.seg == u).map segWord).getD (segStateCode .unstriped * 2 ^ 53))) ++
  ((List.range 32768).flatMap fun i => fieldBytes 112 ((t.stripes[i]?.map stripeFields).getD [])) ++
  Config.bandSegmentRest t.quarantined t.evacuated t.slotsLost

/-- Frames of an image after its header (R142). -/
def imageFrames (user : List Byte) : Nat := (user.length + 4095) / 4096

/-- IMAGE_CRC (R142): over the user data of whole frames. -/
def imageCrc (user : List Byte) : Word := crc32c (user ++ List.replicate (imageFrames user * 4096 - user.length) 0)

/-- The header frame of an image of region g with `frames` frames behind it (R142). -/
def imageHeader (g : RegionIx) (x : Image) (frames : Nat) : List DataField :=
  [fld 0 1 (bitIf (x.image == 0) 0), fld 1 1 g.val, fld 2 2 (x.image - 1), fld 4 5 x.jframe, fld 12 4 frames, fld 16 8 x.ckptSeq,
   fld 24 4 x.crc.toNat]

end Sys2Proof.Machine
end

