-- ==== Sys2Proof/Machine/SwarmWork.lean ====
section
/-! DEFINITION. What a data member does with its segments, seal notices and retracts, and the runs of swarm parity that it holds (R153, R209, R212,
R213, R219, R222 to R224, R230). -/

namespace Sys2Proof.Machine

/-- Put the notice of a segment. -/
def State.putNotice (s : State) (n : Notice) : State :=
  s.updSwarm fun w => { w with notices := n :: w.notices.filter fun x => !(x.region == n.region && x.band == n.band && x.seg == n.seg) }
def State.noticeOf (s : State) (g : RegionIx) (b : Nat) (u : Fin 16) : Option Notice :=
  s.swarm.notices.find? fun x => x.region == g && x.band == b && x.seg == u
def State.dropNotice (s : State) (g : RegionIx) (b : Nat) (u : Fin 16) : State :=
  s.updSwarm fun w => { w with notices := w.notices.filter fun x => !(x.region == g && x.band == b && x.seg == u) }

/-- The package sends seal notices: it is an ACTIVE member and not fenced (R206, R230). -/
def State.sendsNotices (s : State) : Bool := !s.swarm.fenced && (s.ownEntry.map fun e => e.state == .active).getD false

/-- Send the seal notice of a segment to the next leader of its ranking; with none left it stays SEALED until the list is tried again
(R209, R216). -/
def State.sendNotice (s : State) (g : RegionIx) (b : Nat) (u : Fin 16) : State :=
  let tried := ((s.noticeOf g b u).map (·.tried)).getD []
  let opids := ((s.noticeOf g b u).map (·.opids)).getD []
  let next := if s.sendsNotices then (s.leadersFor g b u.val).find? fun c => !tried.contains c else none
  match next with
  | none =>
    let s := if (s.seg g b u.val).state = .noticed then s.updSeg g b u.val fun e => { e with state := .sealed, stripe := 0 } else s
    s.putNotice { region := g, band := b, seg := u, opids := opids, tried := tried, exhausted := true }
  | some c =>
    let s := s.updSeg g b u.val fun e => { e with state := .noticed, stripe := c }
    let p := s.newHdr c
    let s := p.1.putNotice { region := g, band := b, seg := u, opids := opids ++ [p.2.opid], tried := tried ++ [c], exhausted := false }
    let m := LMsg.sealNotice g u b
    let s := s.updSwarm fun w => { w with waits := w.waits ++ [{ hdr := p.2, msg := m }] }
    s.sendDurable g p.2 m false

/-- Whether the segments of a sealed band are offered (R212). -/
def State.offered (s : State) (x : Band) : Bool :=
  x.kind == .data && match x.use with
    | .fold | .relocation | .restore => true
    | .staging => x.placed.any fun pl => s.targetOf pl.nsid == .slc
    | .accumulation | .retractAccum | .foldedParity | .other => false

/-- SEGMENT_OFFER (R212): BAND_SEAL is durable. -/
def State.offerBand (s : State) (g : RegionIx) (b : Nat) : State :=
  if !s.offered (s.band g b) then s else
  ((List.finRange 16).filter fun u => decide (u.val < s.segCount g b)).foldl (fun s u =>
    (s.updSeg g b u.val fun e => { e with state := .sealed }).sendNotice g b u) s

/-- One segment moves to RETRACTING, and each holder gets the form that its DONE bit asks for (R224). -/
def State.retractSegment (s : State) (g : RegionIx) (b : Nat) (u : Nat) : State :=
  let e := s.seg g b u
  match e.state with
  | .sealed | .noticed | .unstriped =>
    let s := if e.state = .unstriped then s else s.updSeg g b u fun e => { e with state := .unstriped, stripe := 0 }
    if h : u < 16 then s.dropNotice g b ⟨u, h⟩ else s
  | .retracted => s
  | .assigned | .retracting | .withdrawn =>
    let s := if e.state = .retracting then s else s.updSeg g b u fun e => { e with state := .retracting }
    let s := s.updSwarm fun w => { w with work := w.work.filter fun x => !(x.region == g && x.band == b && x.seg == u) }
    let holders := s.holdersOf e.stripe
    let s := (holders.zipIdx.filter fun x => !e.retracted.getLsbD x.2).foldl (fun s x =>
      s.startWork { region := g, band := b, seg := u, stripe := e.stripe, position := e.position, index := x.2, holder := x.1,
                    item := if e.done.getLsbD x.2 then .retract else .neverSent, running := false, refused := none, deferred := false }) s
    if (holders.zipIdx.all fun x => e.retracted.getLsbD x.2) then s.updSeg g b u fun e => { e with state := .retracted } else s

/-- RECLAIM_RETRACT: step 4 of R161 (R223, R224). Swarm parity has no segments and skips it. -/
def State.startRetracts (s : State) (g : RegionIx) (b : Nat) : State :=
  let s := if (s.band g b).kind = .swarmParity then s else (List.range (s.segCount g b)).foldl (fun s u => s.retractSegment g b u) s
  s.checkRetracted g b

/-! Parity runs (R98, R153, R169, R219, R222, R223). -/

/-- Frames of a parity run, and the granules that it counts for. -/
def runFrames : Nat := 262144
def runGranules : Nat := 16384

/-- Open bands of swarm parity at a density that a run may be taken from: what the retract reserve opened is for retracts alone (R169). -/
def State.runBands (s : State) (g : RegionIx) (use : BandUse) (d : Density) : List Band :=
  (s.regions[g]).tab.bands.filter fun x => x.kind == .swarmParity && x.phase == .opened && x.density == d && !(s.regions[g]).resync.contains x.num &&
    (use != .accumulation || x.use == .accumulation)

/-- 262,144 data slots, contiguous, of a band that holds swarm parity, in an accumulation band or folded in the main pool, with a write sequence
for each frame. None where no band or no sequences are there. -/
def State.takeRun (s : State) (g : RegionIx) (use : BandUse) (d : Density) : State × Option (Nat × Nat) :=
  match s.geo? g with
  | none => (s, none)
  | some geo =>
    let s := (s.runBands g use d).foldl (fun s x => if s.slotsLeft g x < runFrames then s.sealBand g x.num false else s) s
    let s := if (s.runBands g use d).isEmpty then (s.openBand g .swarmParity use d 0xFF).1 else s
    match s.runBands g use d with
    | [] => (s, none)
    | x :: _ =>
      if s.slotsLeft g x < runFrames then (s, none) else
      match s.takeSeqs g runFrames with
      | (s, none) => (s, none)
      | (s, some _) => (s.updBand g x.num fun y => { y with nextSlot := y.nextSlot + runFrames },
          some (x.num, slotFrame geo x.num (s.rowFrames g d) x.nextSlot))

/-- Copy the valid runs of a band whole and move CUR to each copy; each counts as its granules relocated (R153, R163, R223). A run that finds no
band or no sequences waits. -/
def State.moveRuns (s : State) (g : RegionIx) (b : Nat) : State :=
  let d := (s.band g b).density
  ((s.regions[g]).tab.stripes.filter fun r => (r.cur.map (·.1)) == some b).foldl (fun s r =>
    match s.takeRun g (if d = .slc then .accumulation else .foldedParity) d with
    | (s, some at_) => (s.putStripe { r with cur := some at_ }).updRegion g fun y => { y with
        slots := y.slots.map fun q => q.map fun q => if q.band = b then { q with relocated := q.relocated + runGranules } else q }
    | (s, none) => s) s

/-- RECLAIM_MAPPED of a parity band whose runs have all moved (R161 step 3). -/
def State.runsMoved (s : State) (g : RegionIx) (b : Nat) : State :=
  let x := s.band g b
  match (s.regions[g]).slots.toList.findSome? fun q => q.bind fun q => if q.band = b then some q else none with
  | some q => if (s.regions[g]).valid b = 0 ∧ !x.mappedRec then (s.updBand g b fun x => { x with mappedRec := true }).jotNow g (.reclaimMapped b q.relocated) else s
  | none => s

/-- The reclamation of bands of swarm parity goes on (R153): runs that found no band are copied now. -/
def State.runTurns (s : State) (g : RegionIx) : State :=
  if !s.copiesRun || !(s.regions[g]).inService then s else
  (s.regions[g]).slots.toList.foldl (fun s q => match q with
    | some q => if (s.band g q.band).kind = .swarmParity then (s.moveRuns g q.band).runsMoved g q.band else s
    | none => s) s

/-- The package retracts everything it has contributed (R230 step 1). -/
def State.retractAll (s : State) : State :=
  (List.finRange 4).foldl (fun s g => (s.regions[g]).tab.segs.foldl (fun s e =>
    if e.state = .assigned || e.state = .sealed || e.state = .noticed then s.retractSegment g e.band e.seg else s) s) s

end Sys2Proof.Machine
end

