-- ==== Sys2Proof/Machine/Map.lean ====
section
/-! DEFINITION. The commands of the map, the journal and the checkpoints (R122 to R152). -/

namespace Sys2Proof.Machine

/-! Content. -/

/-- The XTS key pair of a namespace as the surviving die holds it (R334). -/
def State.nsKey (s : State) (nsid : Nat) : Nat :=
  let d : DieIx := if (s.com 0).outOfService then 1 else 0
  (((s.dies[d].cipher.slots.toList.getD (nsid - 1) none))).getD 0

/-- A poisoned unit without data. -/
def poisonUnit : Unit4K := { plain := 0, key := 0, poisoned := true }
/-- The encryption of a zero unit under a namespace's key (R124). -/
def zeroUnit (key : Nat) : Unit4K := { plain := 0, key := key, poisoned := false }

/-- The placed granule that an entry names, in the bands of the region that serves it, else of its owner. -/
def State.placedAt (s : State) (gran : Nat) (e : MapEntry) : Option Placed :=
  let here (g : RegionIx) : Option Placed := (s.band g e.band.toNat).placed.find? fun pl => pl.gran == gran && decide (pl.frame = e.frame.toNat)
  match here (s.server gran) with
  | some pl => some pl
  | none => here (granRegion gran)

/-- Content of a unit of a granule as the map has it (R124, R127). -/
def State.mappedUnit (s : State) (gran nsid fig : Nat) : Unit4K :=
  let e := s.entryOf gran
  match e.state with
  | .mapped | .foldInFlight | .lost => ((s.placedAt gran e).map fun pl => pl.units.toList.getD fig poisonUnit).getD poisonUnit
  | .deallocated | .never => zeroUnit (s.nsKey nsid)
  | .poisoned | .reserved _ => poisonUnit

/-! Pending updates. -/

/-- The update that a granule is to apply next: its oldest, not yet placed (R125). -/
def RegionSt.nextUpdate (r : RegionSt) (gran : Nat) : Option PendUpd := match r.pend.find? fun u => u.gran == gran with
  | some u => if u.at_.isNone then some u else none
  | none => none

/-- A pending update meets its granule's old content (R124): uncovered units that lie on media are read as a host read would read them. -/
def State.mergeReads (s : State) (gran : Nat) (covered : Fin 16 → Option Unit4K) : List (Fin 16) :=
  if onMedia (s.entryOf gran) then (List.finRange 16).filter fun i => (covered i).isNone else []

/-- Content of an uncovered unit: as it was read, else as the map's entry gives it. -/
def State.oldUnit (s : State) (gran nsid : Nat) (i : Fin 16) : Unit4K :=
  match s.delivered? gran i .host none with
  | some x => x.content
  | none => s.mappedUnit gran nsid i.val

/-- An update is merged with the granule's present content, once that has been read, and placed in an open staging band (R20 steps 7 and 8,
R124). -/
def State.applyMerge (s : State) (g : RegionIx) (gran : Nat) (u : PendUpd) (ready : Bool) (covered : Fin 16 → Option Unit4K) : Out :=
  let need := s.mergeReads gran covered
  if !ready then unchanged s
  else if need.any fun i => !s.askedFor gran i .host none then
    .next (s.wantFigs gran (need.filter fun i => !s.askedFor gran i .host none) .host none)
  else if need.any fun i => (s.delivered? gran i .host none).isNone then unchanged s
  else
  let merged (i : Fin 16) : Unit4K := (covered i).getD (s.oldUnit gran u.nsid i)
  match s.bandFor g .staging .slc u.stream with
  | (s, none) => .next s
  | (s, some b) =>
    match s.placeIn g b (fun k f => Placed.mk gran u.nsid u.stream u.seq k f (BitVec.ofNat 32 s.keeper.tk.opsec.toNat) s.keeper.tk.mediaTemp (Vector.ofFn merged) false none) with
    | (s, none) => .next s
    | (s, some pl) =>
      let s := s.endAsks (fun r => r.gran == gran && r.who == .host && r.ref.isNone)
      .next ((s.updRegion g fun r => { r with pend := r.pend.map fun v => if v.gran == gran && v.seq == u.seq then { v with at_ := some (b, pl.frame) } else v }).checkStaging g |>.throughRow g b u.stream)

/-- PENDING_UPDATE_APPLY (R20 steps 7 and 8, R124, R125, R133, R139, R147): merge, placement and map change. -/
def execPendingUpdateApply (g : RegionIx) (gran : Nat) (s : State) : Out :=
  let r := s.regions[g]
  match r.nextUpdate gran with
  | none => unchanged s
  | some u =>
    if !r.inService || s.server gran != g || !r.isResident g gran || r.journal.full then unchanged s else
    let old := s.entryOf gran
    match u.kind with
    | .deallocate =>
      let s := s.remap g gran .freed false
      let s := s.updRegion g fun r => { r with pend := r.pend.filter fun v => !(v.gran == gran && v.seq == u.seq), watch := r.watch.filter fun w => w.1 != gran }
      .next (if old.state == .mapped || old.state == .foldInFlight then s.checkReclaimed g old.band.toNat else s)
    | .write units => s.applyMerge g gran u (u.encrypted && !r.stagingStopped) (fun i => units[i])
    | .zero figs => s.applyMerge g gran u (!r.stagingStopped) (fun i => if figs.contains i.val then some (zeroUnit (s.nsKey u.nsid)) else none)

/-! Journal. -/

/-- JOURNAL_FRAME_TIMER (R139): 1 ms since the first record of the tail frame. -/
def execJournalFrameTimer (g : RegionIx) (s : State) : Out := .next (s.updRegion g RegionSt.closeTail)

/-- Both copies, or the one copy of a region whose partner side is gone, are programmed (R139, R140). -/
def frameDone (j : Journal) (f : JFrame) : Bool := f.closed && ((f.ok[0] && f.ok[1]) || (j.singleCopy && (f.ok[0] || f.ok[1])))

/-- The rescued updates of a region are all placed and durable: the used rescue band is erased (R356). -/
def State.rescueDrained (s : State) (g : RegionIx) : State :=
  let r := s.regions[g]
  let waiting := r.rescued.any fun u => (r.pend.any fun v => v.gran == u.gran && v.seq == u.seq) || !r.mapDurable u.gran
  if r.rescued.isEmpty || waiting then s else
  let used := r.tab.bands.filter fun x => x.kind == .rescue && x.phase == .opened && decide (0 < x.nextSlot)
  let s := s.updRegion g fun r => { r with rescued := [] }
  used.foldl (fun s x => (s.releaseBand g x.num)) s

/-- What a record's durability allows (R139, R141, R161, R185, R212). -/
def State.recDurable (s : State) (g : RegionIx) : JRec → State
  | .seqReserve q => s.updTab g fun t => { t with reserved := max t.reserved q }
  | .eraseDone b => if (s.band g b).erasedRec then (s.bandErased g b).runTurns g else s
  | .reclaimMapped b _ => (s.updBand g b fun x => { x with mappedDurable := true }).startRetracts g b
  | .eraseIntent b => s.eraseBand g b
  | .bandSeal b _ => s.offerBand g b
  | .dirty b k on => s.updBand g b fun x => { x with dirtyDurable := if on then (if x.dirtyDurable.contains k then x.dirtyDurable else x.dirtyDurable ++ [k]) else x.dirtyDurable.filter (· != k) }
  | .map .. | .nsExtent .. | .format _ | .bandOpen .. | .bandWall .. | .bandEighth .. | .bandState .. | .blockRetire .. | .blockReplace ..
  | .lunQuarantine .. | .spareAdopt .. | .rebuildRow .. | .slotLost .. | .bandPad .. | .setEvacuate _ | .reclaimStart .. | .reclaimHold .. | .readOnly _
  | .segState _ | .stripeRec _ | .stripeRelease _ | .stripeSeqReserve _ | .unknown _ => s

/-- Messages that waited for the frame go out (R234). -/
def State.openGate (s : State) (g : RegionIx) (n : Nat) : State :=
  let mine := s.swarm.gated.filter fun x => x.region == g && decide (x.frame ≤ n)
  let s := s.updSwarm fun w => { w with gated := w.gated.filter fun x => !(x.region == g && decide (x.frame ≤ n)) }
  mine.foldl (fun s x => if x.answer then s.answer x.hdr x.msg else s.sendFrom (s.sendDie g) x.hdr x.msg) s

/-- The oldest frame of the tail becomes durable, once its copies have programmed OK (R139). -/
def State.journalDurable (s : State) (g : RegionIx) : State :=
  match (s.regions[g]).journal.tail with
  | [] => s
  | f :: _ =>
    if !frameDone (s.regions[g]).journal f then s else
    let s := (s.placeJournal g f.num 0).placeJournal g f.num 1
    let f := ((s.regions[g]).journal.tail.find? fun x => x.num == f.num).getD f
    let s := s.updJrn g fun j => { j with tail := j.tail.filter fun x => x.num != f.num, retained := j.retained ++ [f] }
    let s := f.recs.foldl (fun s x => s.recDurable g x) s
    ((((s.openGate g f.num).settleWrites).rescueDrained g).settleErase).settleSanitize

/-! Checkpoints. -/

/-- Images of a region in the round-robin order: the band segment, then its map segments (R143). -/
def RegionSt.imageList (r : RegionSt) : List Nat := 0 :: r.segments.map (· + 1)

/-- A record touches an image (R143, R146). -/
def touches (image : Nat) : JRec → Bool
  | .map gran .. => image == 0 || granSegment gran + 1 == image
  | .nsExtent .. | .format _ => true
  | _ => image == 0

/-- The segment has received no record at or above a frame number. -/
def RegionSt.untouched (r : RegionSt) (image jframe : Nat) : Bool :=
  !((r.journal.retained ++ r.journal.tail).any fun f => decide (jframe ≤ f.num) && f.recs.any (touches image))

/-- Entry as an image carries it: state 100 is never recorded (R70). -/
def captured (e : MapEntry) : MapEntry := if e.state = .foldInFlight then { e with state := .mapped } else e

/-- The current image of a segment: the indexed one of highest CKPT_SEQ (R144). -/
def RegionSt.currentImage (r : RegionSt) (image : Nat) : Option Image :=
  r.images.foldl (fun (best : Option Image) i => if i.image == image && i.indexed then
    match best with | some b => if b.ckptSeq < i.ckptSeq then some i else some b | none => some i else best) none

/-- IMAGE_CRC of a segment as it stands (R142). -/
def State.segmentCrc (s : State) (g : RegionIx) (image : Nat) (entries : List (Nat × MapEntry)) : Word :=
  if image = 0 then match s.geo? g, s.regionProf? g with
    | some geo, some p => imageCrc (bandSegmentBytes (regionLuns ((s.recs?.map fun r => r.lanes.getD []).getD []) g.val) geo p (s.regions[g]).tab (s.regions[g]).valid)
    | _, _ => 0
  else imageCrc (mapSegmentBytes g (image - 1) entries)

/-- Capture one image (R143): the tail frame closes, and the segment is copied under a new CKPT_SEQ. An untouched one is stamped again: its new index
record carries the CKPT_SEQ of the image's header (R144) and the present JFRAME. Of records of one CKPT_SEQ the later counts (DESIGN CHOICE, log
entry 128). -/
def State.captureImage (s : State) (g : RegionIx) (image : Nat) : State :=
  let s := s.updRegion g RegionSt.closeTail
  let r := s.regions[g]
  let again := match r.currentImage image with
    | some i => if r.untouched image i.jframe then some i else none
    | none => none
  match again with
  | some i => s.updRegion g fun r => { r with images := r.images ++ [{ i with jframe := r.journal.next, indexed := false }] }
  | none =>
    let q := r.ckptSeq + 1
    let s := s.updRegion g fun r => { r with ckptSeq := q }
    let entries := if image = 0 then [] else ((r.map ++ r.overlay).filter fun p => granSegment p.1 + 1 == image).map fun p => (p.1, captured p.2)
    let (s, l0) := s.takeImageSlot g 0
    let (s, l1) := if r.journal.singleCopy then (s, none) else s.takeImageSlot g 1
    s.updRegion g fun r => { r with images := r.images ++
      [{ image := image, ckptSeq := q, jframe := r.journal.next, entries := entries, tables := if image = 0 then some r.tab else none,
         lost := image != 0 && r.lostSegs.contains (image - 1),
         crc := s.segmentCrc g image entries, ok := #v[false, false], indexed := false, loc := #v[l0, l1] }] }

/-- CHECKPOINT_CAPTURE (R143): 128 frames appended since the last; the next image in turn whose segment is resident. -/
def execCheckpointCapture (g : RegionIx) (s : State) : Out :=
  let r := s.regions[g]
  if !r.inService || decide (r.journal.sinceCapture < 128) then unchanged s else
  let l := r.imageList
  let k := r.nextImage % l.length
  let ready (i : Nat) : Bool := i == 0 || r.resident.contains (i - 1)
  match (l.drop k ++ l.take k).find? ready with
  | none => unchanged s
  | some i =>
    let s := s.captureImage g i
    .next ((s.updRegion g fun r => { r with nextImage := (l.idxOf i + 1) % l.length }).updJrn g fun j => { j with sinceCapture := 0 })

/-- Retention point (R145): the lowest JFRAME among the current images; 0 while a segment has none. -/
def RegionSt.retention (r : RegionSt) : Nat :=
  (r.imageList.map fun i => ((r.currentImage i).map (·.jframe)).getD 0).foldl min r.journal.next

/-- The head moves to the next sector of the area that is not BAD (R436). -/
def Store.indexHeadOn (x : Store) : Store := { x with ckptHead := x.nextIndexSector x.ckptHead, wseq := x.wseq + 1 }

/-- One index record at the head, which moves on when it holds 2,047. -/
def State.placeIndex (s : State) (x : IndexRec) : State :=
  let s := if 2047 ≤ (s.store.index.filter fun r => r.sector == s.store.ckptHead).length then s.updStore Store.indexHeadOn else s
  s.updStore fun t => { t with index := t.index ++ [{ x with sector := t.ckptHead }], ckptErased := t.erasedAhead }

/-- Append one index record (R436). Beyond 128 sectors the tail leaves the window: its current records are copied forward, and the sector is
erased in the background (R437; done at once, DESIGN CHOICE, log entry 63). -/
def State.appendIndex (s : State) (x : IndexRec) : State :=
  let s := s.placeIndex x
  if s.store.indexSpan ≤ 128 then s else
  let tail := s.store.ckptTail
  let current (r : IndexRec) : Bool := !(s.store.index.any fun q => q.region == r.region && q.image == r.image && q.copy == r.copy && decide (r.ckptSeq < q.ckptSeq ∨ (r.ckptSeq = q.ckptSeq ∧ r.jframe < q.jframe)))
  let keep := s.store.index.filter fun r => r.sector == tail && current r
  let s := s.updStore fun t => { t with index := t.index.filter fun r => r.sector != tail, ckptTail := t.nextIndexSector tail }
  ((keep.foldl State.placeIndex s).countErase (525 + tail % 256)).updStore (fun t => { t with array := memEraseSector t.array (525 + tail % 256), ckptErased := t.erasedAhead }) |>.raise 502

/-- An image whose copies are programmed is indexed (R143 to R145): a record for each copy; the older image's slots and the journal below the
new retention point are released. -/
def State.indexImage (s : State) (g : RegionIx) (ckptSeq : Nat) : State :=
  let r := s.regions[g]
  match r.images.find? fun i => i.ckptSeq == ckptSeq && !i.indexed with
  | none => s
  | some i =>
    let both := (i.ok[0] && i.ok[1]) || (r.journal.singleCopy && i.ok[0])
    if !both then s else
    let entry (c : Fin 2) : IndexRec := {
      region := g, image := i.image, copy := c.val, ckptSeq := i.ckptSeq, jframe := i.jframe, crc := i.crc,
      band := ((i.loc[c]).map (·.1)).getD 0, frame := ((i.loc[c]).map (·.2)).getD 0, sector := 0 }
    let s := if i.ok[0] then s.appendIndex (entry 0) else s
    let s := if i.ok[1] then s.appendIndex (entry 1) else s
    -- The older image's slots are released; a record of the same CKPT_SEQ gives way to the new one.
    let s := s.updRegion g fun r => { r with images := (r.images.filter fun x => x.image != i.image || decide (i.ckptSeq < x.ckptSeq) || x == i).map fun x =>
      if x == i then { x with indexed := true } else x }
    let point := (s.regions[g]).retention
    let s := s.updJrn g fun j => { j with retained := j.retained.filter fun f => decide (point ≤ f.num) }
    (s.releaseJournalBands g).releaseImageBands g

/-- CHECKPOINT_INDEX_WRITE (R143 to R145). -/
def execCheckpointIndexWrite (g : RegionIx) (ckptSeq : Nat) (s : State) : Out := .next (s.indexImage g ckptSeq)

/-! Replay over images (R146 step 4, R149). -/

/-- A record's effect on the entries of one segment, for the granules that are meant, and on its state lost. -/
def replayEntry (mine : Nat → Bool) (extents : List (Nat × Nat × Nat)) (seg : Nat) (q : List (Nat × MapEntry) × Bool) : JRec → List (Nat × MapEntry) × Bool
  | .map gran e .. => if granSegment gran = seg ∧ mine gran then (putEntry q.1 gran (captured e), q.2) else q
  | .format id => if extentOf extents (seg * extentUnit) = some id then ([], false) else q
  | .nsExtent _ base len => if base ≤ seg ∧ seg < base + len then ([], false) else q
  | _ => q

/-- A segment of the map: its image with the records at or above its JFRAME; of a lost image every retained record, and every other entry
state 011. -/
def restoreSegment (r : RegionSt) (mine : Nat → Bool) (tab : RegionTables) (frames : List JFrame) (lostImages : List Nat) (seg : Nat) : List (Nat × MapEntry) × Bool :=
  let img := r.currentImage (seg + 1)
  let gone := img.isSome && lostImages.contains (seg + 1)
  let base : List (Nat × MapEntry) := match img with
    | some i => if gone then [] else i.entries.filter fun p => mine p.1
    | none => []
  let from_ : Nat := match img with
    | some i => if gone then 0 else i.jframe
    | none => 0
  let lost := gone || ((img.map (·.lost)).getD false)
  ((frames.filter fun (f : JFrame) => decide (from_ ≤ f.num)).flatMap (·.recs)).foldl (replayEntry mine tab.extents seg) (base, lost)

/-- An entry loaded anew from its segment's image and the records since (R149). -/
def RegionSt.reloaded (r : RegionSt) (g : RegionIx) (gran : Nat) : MapEntry :=
  let q := restoreSegment r (fun n => granRegion n = g) r.tab (r.journal.retained ++ r.journal.tail) [] (granSegment gran)
  if q.2 && !(q.1.any fun p => p.1 == gran) then { state := .poisoned, band := 0, frame := 0 } else entryIn q.1 gran

/-! Loading (R132, R147). -/

/-- Granules that a waiting host command needs. -/
def State.hostGranules (s : State) : List Nat :=
  (s.dies[0].host.slots ++ s.dies[1].host.slots).flatMap fun x => match s.namespaces.find? fun n => n.nsid == x.nsid with
    | none => []
    | some n => x.ranges.flatMap fun r =>
      let per := blocksPerGranule n.lbaf
      if r.nlb = 0 then [] else (List.range ((r.slba + r.nlb - 1) / per - r.slba / per + 1)).map fun i => n.base * extentUnit + r.slba / per + i

/-- A swarm request waits for the segment: a contribution or a peer's rebuild read meets one of its granules in band and segment (R149). -/
def State.swarmNeeds (s : State) (g : RegionIx) (seg : Nat) : Bool :=
  let has (b u : Nat) : Bool := (s.band g b).placed.any fun pl => granSegment pl.gran == seg && pl.frame / 262144 == u
  (s.swarm.work.any fun w => w.region == g && has w.band w.seg) || s.swarm.loadWaits.any fun x => match x.2 with
    | .rebuildRead stripe _ index _ _ _ _ => (s.regions[g]).tab.segs.any fun e => e.stripe == stripe && e.position == index && has e.band e.seg
    | _ => false

/-- Priority of a map segment that is not resident (R147): needed by a host command, a swarm request or a pending update; with records above its image;
the others. -/
def State.loadRank (s : State) (g : RegionIx) (seg : Nat) : Nat :=
  let r := s.regions[g]
  if (s.hostGranules.any fun n => s.server n == g && granSegment n == seg) || (r.pend.any fun u => granSegment u.gran == seg) || s.swarmNeeds g seg then 1
  else
    let from_ := ((r.currentImage (seg + 1)).map (·.jframe)).getD 0
    let named (x : JRec) : Bool := match x with | .map gran .. => granSegment gran == seg | _ => false
    if (r.journal.retained ++ r.journal.tail).any fun f => decide (from_ ≤ f.num) && f.recs.any named then 2 else 3

/-- Bytes of a map segment in DRAM (R142). -/
def segmentBytes : Nat := 3145728 * 5

/-- The adopted quarter's segment enters DRAM (R132): where the die's memory does not hold it beside the others, the first adopted segment without a
pending update is evicted; with none it waits. -/
def State.loadAdopted (s : State) (g : RegionIx) (seg : Nat) : State :=
  let d := dieOfRegion g
  let r := s.regions[g]
  let held := ((List.finRange 4).filter fun h => dieOfRegion h == d).map fun h => ((s.regions[h]).resident.length + (s.regions[h]).adoptedSegs.length) * segmentBytes
  if held.sum + segmentBytes ≤ s.dramBytes d then s.updRegion g fun r => { r with adoptedSegs := r.adoptedSegs ++ [seg] }
  else match r.adoptedSegs.find? fun k => !(r.pend.any fun u => granRegion u.gran != g && granSegment u.gran == k) with
    | some out => s.updRegion g fun r => { r with adoptedSegs := r.adoptedSegs.erase out ++ [seg] }
    | none => s

/-! Region registers. -/

/-- RGN_QUERY_HI.GO (R152): a lookup without loading the segment. -/
def execRgnQuery (g : RegionIx) (hi : Byte) (s : State) : Out :=
  let r := s.regions[g]
  let gran := hi.toNat * 2 ^ 32 + r.queryLo.toNat
  let notHere := s.server gran != g || (extentOf r.tab.extents gran).isNone
  let nonRes := !notHere && !r.isResident g gran
  let e : BitVec 40 := if notHere || nonRes then 0 else (s.entryOf gran).bits
  let pending := !notHere && r.pend.any fun u => u.gran == gran
  let hiWord : Nat := 2 ^ 31 + (if notHere then 2 ^ 30 else 0) + (if nonRes then 2 ^ 29 else 0) + (if pending then 2 ^ 28 else 0) + (e.toNat / 2 ^ 32)
  .next (s.updRegion g fun r => { r with queryHi := hi, result := (e.setWidth 32, BitVec.ofNat 32 hiWord) })

/-- RGN_CTRL.CNT_CLR (R152). -/
def execRgnCtrlCntClr (g : RegionIx) (s : State) : Out :=
  .next (s.updRegion g fun r => { r with integrity := 0, repaired := 0, poisonedCnt := 0 })

end Sys2Proof.Machine
end

