-- ==== Sys2Proof/Machine/Keys.lean ====
section
/-! DEFINITION. Cipher engines and keys: key sets, slots, installation, crypto erase, and the extents that change with the namespaces
(R123, R134, R290, R333 to R341). -/

namespace Sys2Proof.Machine

/-- The XTS tweak of a data unit: NSID in bits 63 to 56, the LBA below (R328, R329). What a unit reads as depends on its plaintext, its key and
this value alone, so a frame keeps its ciphertext wherever it moves. -/
def xtsTweak (nsid : Fin 256) (lba : BitVec 56) : BitVec 128 := BitVec.ofNat 128 (nsid.val * 2 ^ 56 + lba.toNat)

/-! New key sets (R338). -/

/-- A complete new set of the next generation is written and committed; the old set's sector is erased (R338). -/
def State.commitSet (s : State) (f : KeySet → KeySet) : State :=
  match s.keySet? with
  | none => s
  | some k =>
    let n := { f k with gen := k.gen + 1, committed := true, cryptoErase := [] }
    ((s.countErase (keySector k.gen)).updSub fun x => { x with keySets := [n] }).loadBoth n

/-- A key drawn from the generator. -/
def State.drawKey (s : State) : State × Nat := (s.updSub fun x => { x with nextKey := x.nextKey + 1 }, s.sub.nextKey)

/-- Fresh pairs for namespaces. -/
def State.drawKeys (s : State) : List Nat → State × List (Nat × Nat)
  | [] => (s, [])
  | n :: rest =>
    let r := s.drawKey.1.drawKeys rest
    (r.1, (n, s.drawKey.2) :: r.2)

/-- One pair for each existing namespace: those of namespaces that are gone are dropped, missing ones are drawn (R338). -/
def State.fitKeys (s : State) (ids : List Nat) : State :=
  match s.keySet? with
  | none => s
  | some k =>
    let missing := ids.filter fun n => !(k.ns.any fun x => x.1 == n)
    if missing.isEmpty && k.ns.all fun x => ids.contains x.1 then s
    else
      let r := s.drawKeys missing
      r.1.commitSet fun k => { k with ns := (k.ns.filter fun x => ids.contains x.1) ++ r.2 }

/-- Keys at a start (R338): the committed set of highest generation is loaded; an uncommitted set is erased, or, under CRYPTO_ERASE,
completed; the first start generates the internal KEK. -/
def State.loadKeySet (s : State) : State :=
  let s := s.updDie 0 fun x => { x with cipher := { x.cipher with locked := false, drbgFail := false } }
  let s := s.updDie 1 fun x => { x with cipher := { x.cipher with locked := false, drbgFail := false } }
  let s := match s.openErase? with
    | some k => (s.countErase (keySector (k.gen - 1))).updSub fun x => { x with
        keySets := [{ k with committed := true, cryptoErase := [] }], formatDue := k.cryptoErase, eraseRef := none }
    | none =>
      let cut : List KeySet := s.sub.keySets.filter fun k => !k.committed
      (cut.foldl (fun (s : State) (k : KeySet) => s.countErase (keySector k.gen)) s).updSub fun x => { x with keySets := x.keySets.filter (·.committed), eraseRef := none }
  let s := match s.keySet? with
    | some _ => s
    | none =>
      let r := s.drawKey
      r.1.updSub fun x => { x with keySets := [{ gen := 1, cryptoErase := [], kek := r.2, kekId := 0, ns := [], committed := true }] }
  let s := s.fitKeys s.nsids
  match s.keySet? with
  | some k => s.loadBoth k
  | none => s

/-- The public half of the member key, as certificates name it (R245). -/
def State.memberKeyId (_s : State) (swarm : DWord) : Nat := Config.memberKeyId swarm

/-! Extents that change with the namespaces. -/

/-- Every entry of an extent reads 010 again (R134, R149): the FORMAT or NS_EXTENT record of the region, and the valid counts. -/
def State.freshenRegion (s : State) (g : RegionIx) (nsid : Nat) (rec_ : JRec) : State :=
  let xs := (s.regions[g]).tab.extents
  let keep (p : Nat × MapEntry) : Bool := extentOf xs p.1 != some nsid
  let s := (s.updRegion g fun r => { r with
    map := r.map.filter keep, overlay := r.overlay.filter keep,
    lostSegs := r.lostSegs.filter fun n => extentOf xs (n * extentUnit) != some nsid, relocNow := r.relocNow.filter fun n => extentOf xs n != some nsid }).jot g rec_
  ((s.regions[g]).slots.toList.filterMap id).foldl (fun s q => s.checkReclaimed g q.band) s

/-- FORMAT of one namespace in all four regions. -/
def State.formatExtent (s : State) (nsid : Nat) : State :=
  ((List.finRange 4).foldl (fun s g => s.freshenRegion g nsid (.format nsid)) s).updSub fun x => { x with written := x.written.filter (· != nsid) }

/-- Steps 2 to 4 of R339: new pairs in a set that carries CRYPTO_ERASE and the NSIDs, not committed yet, and the FORMAT records. -/
def State.beginErase (s : State) (ids : List Nat) (ref : CmdRef) : State := match s.keySet? with
  | none => s
  | some k =>
    let r := s.drawKeys ids
    let n := { k with gen := k.gen + 1, cryptoErase := ids, committed := false, ns := (k.ns.filter fun x => !ids.contains x.1) ++ r.2 }
    let s := r.1.updSub fun x => { x with keySets := x.keySets ++ [n], eraseRef := some ref }
    (ids.foldl State.formatExtent s).settleErase

/-- An extent is created in every region (R123, R419). -/
def State.createExtent (s : State) (n : NamespaceRec) : State :=
  (List.finRange 4).foldl (fun s g => (s.updRegion g fun r => { r with
    tab := { r.tab with extents := r.tab.extents ++ [(n.nsid, n.base, nsUnits n)] },
    resident := r.resident ++ (List.range (nsUnits n)).map (n.base + ·) }).jot g (.nsExtent n.nsid n.base (nsUnits n))) s

/-- An extent is deleted in every region (R149, R419). -/
def State.deleteExtent (s : State) (nsid : Nat) : State :=
  ((List.finRange 4).foldl (fun s g =>
    let s := s.freshenRegion g nsid (.nsExtent nsid 0 0)
    s.updRegion g fun r =>
      let gone := (r.tab.extents.filter fun x => x.1 == nsid).flatMap fun x => (List.range x.2.2).map (x.2.1 + ·)
      { r with
        tab := { r.tab with extents := r.tab.extents.filter fun x => x.1 != nsid }
        resident := r.resident.filter fun n => !gone.contains n
        images := r.images.filter fun i => i.image == 0 || !gone.contains (i.image - 1) }) s).updSub fun x => { x with written := x.written.filter (· != nsid) }

/-- NSIDs whose record differs between two namespace sets. -/
def changedIds (old new : List NamespaceRec) : List Nat :=
  ((old.filter fun n => !new.contains n) ++ (new.filter fun n => !old.contains n)).map (·.nsid) |>.eraseDups

/-- The namespace set changes from one applied record to the next: extents, keys and the Changed Namespace Lists (R290, R415, R418,
R419). Before the regions are restored the extents wait for the comparison of R419. -/
def State.applyNamespaces (s : State) (old new : List NamespaceRec) : State :=
  if s.keeper.boot.stage ≠ .serving then s else
  let gone := old.filter fun n => !(new.any fun m => m.nsid == n.nsid)
  let came := new.filter fun n => !(old.any fun m => m.nsid == n.nsid)
  let s := came.foldl State.createExtent s
  let s := gone.foldl (fun s n => s.deleteExtent n.nsid) s
  let s := s.fitKeys (new.map (·.nsid))
  let ids := changedIds old new
  let note (h : HostPort) : HostPort := { h with changedNs := h.changedNs ++ ids.filter fun n => !h.changedNs.contains n }
  (s.updHost 0 note).updHost 1 note

/-- The Changed Namespace List's asynchronous event. -/
def State.hostChangedNs (s : State) : State :=
  if s.dies[0].host.changedNs.isEmpty && s.dies[1].host.changedNs.isEmpty then s else s.postAsync .namespaceChanged

/-! Installation (R335 to R337). -/

/-- An unwrap failure at a die: event, count, first refusal; a wrong WLEN is a length refusal too (R332, R337). -/
def State.unwrapFail (s : State) (d : DieIx) (wlenOk : Bool) : State :=
  let s := s.updCipher d fun c => { c with unwrapFails := satAdd 0xFFFF c.unwrapFails 1 }
  let s := s.raise (dieSrc d 13)
  if wlenOk then s else
  (s.updCipher d fun c => { c with refuse := some (c.refuse.getD (6, .cipher)), refuseCount := satAdd 255 c.refuseCount 1 }).raise (dieSrc d 14)

/-- W of a KIND 1 blob (R336): of the transport key and the blob's ephemeral key, and the package serial of the factory area. -/
def transportWrapKey (ephKey : Nat × Nat) : List Byte :=
  hkdf384 (List.replicate 48 0) (sharedX Config.transportScalar ephKey)
    (asciiBytes "tvw512 kek transport" ++ (List.range 16).map fun i => factoryArea (8 + i)) 32

/-- The key under which a die opens a blob: W from its transport key, or its installed KEK (R334, R336). -/
def State.wrapKeyAt (s : State) (x : DieIx) (b : KeyBlob) (kek : Bool) : Option (List Byte) :=
  let slots := s.dies[x].cipher.slots
  if kek then (slots[34]).map fun _ => transportWrapKey b.ephKey else (slots[32]).map Config.keyBytes

/-- The die at which a blob fails: the receiving die first, then the other where it serves (R337, R340). The integrity check holds under the key
that WRAPPED was made under, and no other. -/
def State.unwrapCheck (s : State) (d : DieIx) (b : KeyBlob) (kek idOk : Bool) : Option DieIx :=
  let ok (x : DieIx) : Bool := b.unwraps[x] && b.wlenOk && idOk && s.wrapKeyAt x b kek == some b.wrappedBy
  if !ok d then some d
  else if s.cipherUp (otherDie d) && !ok (otherDie d) then some (otherDie d)
  else none

/-- Installation of one blob, in the order of the refusals of R337. -/
def State.installKey (s : State) (ref : CmdRef) (refused kek idOk : Bool) (b : KeyBlob) (f : KeySet → KeySet) : State :=
  let d := refDie ref
  if s.dies[d].cipher.locked || refused then s.complete ref stSequenceError 0
  else match s.unwrapCheck d b kek idOk with
    | some x => (s.unwrapFail x b.wlenOk).complete ref stKeyUnwrapFailed 0
    | none => (s.commitSet f).complete ref stOk 0

/-- SECURITY_SEND_KEK (R296, R336, R337): every namespace key is rewrapped in the new set. -/
def execSecuritySendKek (ref : CmdRef) (b : KeyBlob) (s : State) : Out :=
  s.adminThen .securitySend ref fun s => .next (s.installKey ref false true (b.kekId != 0) b fun k => { k with kek := b.key, kekId := b.kekId })

/-- SECURITY_SEND_NAMESPACE_KEY (R296, R337). -/
def execSecuritySendNamespaceKey (ref : CmdRef) (nsid : Nat) (b : KeyBlob) (s : State) : Out :=
  s.adminThen .securitySend ref fun s =>
    if !s.nsids.contains nsid then .next (s.complete ref (stGeneric 0x0B) 0) else
    .next (s.installKey ref (s.sub.written.contains nsid) false (b.kekId.toNat == s.kekId) b
      fun k => { k with ns := (k.ns.filter fun x => x.1 != nsid) ++ [(nsid, b.key)] })

/-- SECURITY_SEND_LOCK (R296): until the next start. -/
def execSecuritySendLock (ref : CmdRef) (s : State) : Out :=
  s.adminThen .securitySend ref fun s =>
    let lock (c : Cipher) : Cipher := { c with locked := true }
    .next (((s.updCipher 0 lock).updCipher 1 lock).complete ref stOk 0)

/-- Filled slots of a die as a bit map. -/
def filledBits (v : Vector (Option Nat) 64) : Nat :=
  ((List.finRange 64).map fun i => if (v[i]).isSome then 2 ^ i.val else 0).sum

/-- SECURITY_RECEIVE_KEY_STATUS (R296): 64 bytes. -/
def execSecurityReceiveKeyStatus (ref : CmdRef) (s : State) : Out :=
  s.adminThen .securityReceive ref fun s => .next (s.completeWith ref stOk 0 (.fields [
      { off := 0, size := 8, val := filledBits s.dies[0].cipher.slots }, { off := 8, size := 8, val := filledBits s.dies[1].cipher.slots },
      { off := 16, size := 4, val := s.kekId }, { off := 20, size := 44, val := 0 }]))

/-- SECURITY_RECEIVE_PROTOCOL_LIST (R296): protocols 0x00 and 0xF2, in the supported protocols list of SPC (PRESUMED, log entry 33). -/
def execSecurityReceiveProtocolList (ref : CmdRef) (s : State) : Out :=
  s.adminThen .securityReceive ref fun s => .next (s.completeWith ref stOk 0 (.fields [
      { off := 0, size := 6, val := 0 }, { off := 6, size := 2, val := 0x0200 }, { off := 8, size := 1, val := 0x00 }, { off := 9, size := 1, val := 0xF2 }]))

/-- CPH_CTRL.CNT_CLR (R341): COUNT of CPH_REFUSE clears. -/
def execCphCtrlCntClr (d : DieIx) (s : State) : Out := .next (s.updCipher d fun c => { c with refuseCount := 0, unwrapFails := 0 })

end Sys2Proof.Machine
end

