-- ==== Sys2Proof/Machine/Health.lean ====
section
/-! DEFINITION. SMART fields, Critical Warning and its asynchronous event (R171, R483, R484). -/

namespace Sys2Proof.Machine

/-- Share of the spare bands left of a pool; 0 where SPARE_0 is 0 (R171). -/
def sparePct (spare spare0 : Nat) : Nat := if spare0 = 0 then 0 else 100 * spare / spare0

/-- Percentages of the main and the SLC pool of a region. A region without SPARE_0 has not lost any. -/
def State.regionSpare (s : State) (g : RegionIx) : Nat × Nat := match (s.regions[g]).tab.spare0 with
  | some z => (sparePct (s.spares g).1 z.1, sparePct (s.spares g).2 z.2)
  | none => (100, 100)

/-- Available Spare: the lowest over the pools of all regions (R171). -/
def State.availableSpare (s : State) : Nat := (List.finRange 4).foldl (fun a g => min a (min (s.regionSpare g).1 (s.regionSpare g).2)) 100

/-- Some map entry is in state 011. -/
def State.anyPoisonedEntry (s : State) : Bool := (List.finRange 4).any fun g => !(s.regions[g]).lostSegs.isEmpty || ((s.regions[g]).map ++ (s.regions[g]).overlay).any fun p => p.2.state == .poisoned

/-- The read-only state was entered because spare ran out (R173). -/
def State.spareGone (s : State) : Bool := (List.finRange 4).any fun g => (s.regions[g]).tab.readOnly == some .spare

/-- Critical Warning (R483). Bit 1 looks at the thresholds of either controller (DESIGN CHOICE, log entry 34). -/
def State.criticalWarning (s : State) : Byte :=
  let t := kelvin s.composite
  let hot (c : DieIx) : Bool := decide ((s.dies[c].host.feat.tempOver[0]).toNat < t) || decide (t < (s.dies[c].host.feat.tempUnder[0]).toNat)
  let serving := s.keeper.boot.stage == .serving
  let bit (b : Bool) (n : Nat) : Nat := if b then 2 ^ n else 0
  BitVec.ofNat 8 (
    bit (decide (s.availableSpare < 10) || s.spareGone) 0 + bit (hot 0 || hot 1) 1 +
    bit (serving && ((s.com 0).outOfService || (s.com 1).outOfService || (List.finRange 4).any (fun g => !(s.regions[g]).inService) ||
      (List.finRange 4).any (fun g => !(s.regions[g]).tab.evacuated.isEmpty) || s.anyPoisonedEntry)) 2 +
    bit s.readOnlyNow 3 + bit s.keeper.hu.degraded 4)

/-- Bits of Critical Warning that differ from the value last reported. -/
def changedBits (a b : Byte) : List Nat := (List.range 5).filter fun n => a.getLsbD n != b.getLsbD n

/-- A change of any Critical Warning bit posts a SMART/Health event (R484). -/
def State.settleWarnings (s : State) : State :=
  let now := s.criticalWarning
  if now = s.sub.lastCw then s
  else
    let old := s.sub.lastCw
    let s := (s.updSub fun x => { x with lastCw := now }).updMp fun m => { m with lastCw := now }
    (changedBits now old).foldl (fun s n => s.postAsync (.smartHealth n)) s

end Sys2Proof.Machine
end

