-- ==== Sys2Proof/Machine/HostPort.lean ====
section
/-! DEFINITION. What starts, stops and resets a host port and its controller (R278, R281, R287, R292, R353, R382, R510). -/

namespace Sys2Proof.Machine

/-- A controller's queues, slots, requests and features after a controller level reset: queues are deleted and features are at their
defaults; writes whose data was received stay and complete to nobody (R287). -/
def HostPort.reset (h : HostPort) : HostPort := { h with
  enabled := false, ready := false, shst := 0, cfs := false, slots := [], backlog := [], subs := [], cpls := [], aers := [], events := [], masked := [],
  feat := defaultFeatures, writes := h.writes.map fun w => { w with orphan := true } }

/-- Host work of a controller ends (R287): commands are discarded, reads stop at the end of their ladder step, dark waits end. -/
def State.endHostWork (s : State) (d : DieIx) : State :=
  let s := s.stopClimbs fun r => !r.viaMi && decide (r.ctrl.val = d.val)
  s.updSwarm fun w => { w with darkReads := w.darkReads.filter fun x => x.ref.viaMi || x.ref.ctrl.val != d.val }

/-- Every command of a controller leaves its slot. -/
def State.clearSlots (s : State) (d : DieIx) : State :=
  let l := s.dies[d].host.slots
  l.foldl State.endLooks (s.updHost d fun h => { h with slots := [] })

/-- A controller level reset (R287). -/
def State.hostReset (s : State) (d : DieIx) : State := ((s.endHostWork d).clearSlots d).updHost d HostPort.reset

/-- Host link down (R278): 296 or 328, and in flight work as for a function level reset. -/
def State.hostLinkLost (s : State) (d : DieIx) : State :=
  if s.dies[d].host.speed = 0 then s
  else ((s.updHost d fun h => { h with speed := 0, width := 0 }).hostReset d).raise (dieSrc d 0)

/-- Fetch stops and no completion is posted from here on (R33, R353 step 3). -/
def State.hostStopForGood (s : State) (ds : List DieIx) : State := ds.foldl (fun s d => (s.endHostWork d).updHost d fun h => { h with stopped := true }) s

/-- Fetch pauses and resumes on both controllers (R287, R303). -/
def State.hostPauseFetch (s : State) : State := (s.updHost 0 fun h => { h with paused := true }).updHost 1 fun h => { h with paused := true }
def State.hostResumeFetch (s : State) : State :=
  if s.preparing || s.opt.barrier.isSome || s.fw.activating.isSome then s else (s.updHost 0 fun h => { h with paused := false }).updHost 1 fun h => { h with paused := false }

/-- Controller Fatal Status on both controllers (R477). -/
def State.hostFatal (s : State) : State := (s.updHost 0 fun h => { h with cfs := true }).updHost 1 fun h => { h with cfs := true }

/-- Every command slot is empty (R293). -/
def State.hostIdle (s : State) : Bool := s.dies[0].host.slots.isEmpty && s.dies[1].host.slots.isEmpty

end Sys2Proof.Machine
end

