-- ==== Sys2Proof/Machine/Layouts.lean ====
section
/-! DEFINITION. Byte layouts of what the model holds decoded: frames (R97 to R99), results (R113), manifests (R355), keeper records (R425, R445), membership tables (R199 to
R201) and Lenos packets (R240, R242, R243, R257, R258). Payload bytes are the caller's: the model holds them as identities (log entry 7). -/

namespace Sys2Proof.Machine

/-! Frames. -/

/-- FLAGS (R99). -/
def frameFlags (moved swarmParity parity poisoned : Bool) : Nat := bitIf moved 3 + bitIf swarmParity 2 + bitIf parity 1 + bitIf poisoned 0

/-- A frame header less its CRC (R98). -/
def frameHeader (seq gran fig nsid : Nat) (stream : Byte) (flags : Nat) (wtime : Word) (wtemp : Int) : List DataField :=
  [fld 0 8 seq, fld 8 5 gran, fld 13 1 fig, fld 14 1 nsid, fld 15 1 stream.toNat, fld 16 2 flags, fld 18 4 wtime.toNat, fldC 22 wtemp]

/-- The 32 header bytes over 4,096 bytes of user data (R98). -/
def frameHeaderBytes (user : List Byte) (h : List DataField) : List Byte :=
  let b := fieldBytes 28 h
  b ++ leBytes 4 (crc32c (user ++ b)).toNat

/-- The frame payload of 4,128 bytes that parity and stripes protect (R97). -/
def framePayload (user : List Byte) (h : List DataField) : List Byte := user ++ frameHeaderBytes user h

/-- Header of frame FIG of a placed granule (R98, R99, R128). -/
def Placed.header (p : Placed) (fig : Fin 16) : List DataField :=
  frameHeader p.seq p.gran fig.val p.nsid p.stream (frameFlags p.moved false false p.units[fig].poisoned) p.wtime p.wtemp

/-- Header of a band parity or a swarm parity frame, with a write sequence of its own; FIG is the parity index (R98, R99, R181, R223). -/
def parityHeader (swarm : Bool) (index : Nat) (seq : Nat) (stream : Byte) (wtime : Word) (wtemp : Int) : List DataField :=
  frameHeader seq 0 index 0 stream (frameFlags false swarm (!swarm) false) wtime wtemp

/-- A journal frame of region g: SEQ, NSID and FLAGS 0, GRANULE the frame number (R136). -/
def JFrame.payload (f : JFrame) (g : RegionIx) (stream : Byte) (wtime : Word) (wtemp : Int) : List Byte :=
  framePayload (f.bytes g) (frameHeader 0 f.num 0 0 stream 0 wtime wtemp)

/-- The record that a cluster hands over with each frame (R113). -/
def resultRecord (band frame step corrected : Nat) (poisoned crcFailed otherCluster : Bool) : List DataField :=
  [fld 0 2 (band % 32768), fld 2 3 frame, fld 5 1 step, fld 6 2 (if 5 ≤ step then 0 else corrected),
   fld 8 1 (bitIf poisoned 0 + bitIf crcFailed 1 + bitIf otherCluster 2)]

/-! Rescue manifests and keeper records. -/

/-- FIGs that an update covers. -/
def coveredFigs : UpdKind → List Nat
  | .write units => (List.finRange 16).filterMap fun f => if (units[f]).isSome then some f.val else none
  | .deallocate => List.range 16
  | .zero figs => figs

/-- A manifest record (R355). -/
def manifestRecord (u : PendUpd) : List DataField :=
  [fld 0 5 u.gran, fld 5 1 (match u.kind with | .write _ => 1 | .deallocate => 2 | .zero _ => 3), fld 6 2 ((coveredFigs u.kind).map fun f => 2 ^ f).sum, fld 8 8 u.seq]
/-- The record that ends a manifest of n records. -/
def manifestEnd (n : Nat) : List DataField := [fld 0 5 n, fld 5 1 0xFF]

/-- The line of a keeper record (R425): kind, sequence and body. -/
def keeperRecord (kind seq : Nat) (body : List DataField) : List DataField := withCrc 252 ([fld 0 4 0x524B5654, fld 4 1 kind, fld 8 8 seq] ++ body)

/-- STATE of a firmware slot (R445). -/
def slotStateCode : SlotState → Nat
  | .empty => 0 | .downloading => 1 | .committed => 2 | .served => 3 | .rejected => 4 | .committedDeferred => 5

/-- The body of the slot state record, at line offsets, up to the keys and hashes, whose bytes the model does not hold (R445). -/
def slotStateFields (f : Firmware) : List DataField :=
  [fld 16 1 (f.active.val + 1), fld 17 1 ((f.pendingSlot.map fun k => k.val + 1).getD 0), fld 18 1 (slotStateCode f.slots[0].state),
   fld 19 1 (slotStateCode f.slots[1].state), fld 20 1 (bitIf f.arbReq.isSome 0 + bitIf f.patchArbReq.isSome 1), fld 21 1 f.slots[0].cause.toNat,
   fld 22 1 f.slots[1].cause.toNat, fld 24 4 (f.arbReq.getD 0).toNat, fld 28 4 (f.patchArbReq.getD 0).toNat]

/-! Membership tables. -/

/-- A group descriptor (R200). -/
def groupFields (g : GroupDesc) : List DataField :=
  [fld 0 2 g.group, fld 2 1 g.k, fld 3 1 g.m, fld 4 1 (bitIf g.shelfLocal 0), fld 6 2 g.shortTimeout]

/-- State codes of R198; a reserved code is not one of them. -/
def memberStateCode : MemberState → Nat
  | .active => 1 | .spare => 2 | .leaving => 3 | .lost => 4 | .reserved => 0

/-- A member entry (R201). -/
def memberFields (e : MemberEntry) : List DataField :=
  [fld 0 2 e.member, fld 2 2 e.group, fld 4 2 e.rack, fld 6 1 e.shelf, fld 7 1 e.slot, fld 8 1 (memberStateCode e.state),
   fld 9 1 (bitIf e.addr0.isSome 0 + bitIf e.addr1.isSome 1), fld 10 2 (e.adopter.getD 0xFFFF)] ++ addrAt 16 (e.addr0.getD 0) ++ addrAt 32 (e.addr1.getD 0)

/-- The group descriptors and member entries, over which BODY_HASH is taken (R199). -/
def tableBody (t : MemTable) : List Byte :=
  (t.groups.flatMap fun g => fieldBytes 16 (groupFields g)) ++ t.members.flatMap fun e => fieldBytes 48 (memberFields e)

/-! Lenos packets. -/

/-- The outer header (R240); a packet of SRC to DST. -/
def outerHeader (sealed : Bool) (src dst session ctr : Nat) : List DataField :=
  [fld 0 1 1, fld 1 1 (bitIf sealed 0), fld 2 2 src, fld 4 2 dst, fld 6 2 (if sealed then session else 0), fld 8 8 (if sealed then ctr else 0)]

/-- The body header (R242): base and map of the records of a half that have arrived. -/
def bodyHeader (half : Fin 2) (base : Nat) (above : List Nat) (count credit : Nat) : List DataField :=
  [fld 0 8 (base + half.val * 2 ^ 63), fld 8 8 (((above.filter fun c => base < c ∧ c ≤ base + 64).map fun c => 2 ^ (c - base - 1)).sum), fld 16 2 count, fld 20 4 credit]

/-- TYPE, and REPLY and the other MFLAGS, of a message (R257, R258). -/
def msgType : LMsg → Nat × Nat
  | .heartbeat .. => (0x02, 0)
  | .sealNotice .. => (0x10, 0)
  | .slotAssign .. => (0x11, 1)
  | .stripeRecord restore _ => (0x12, bitIf restore 1)
  | .stripeRecordAck .. => (0x13, 1)
  | .contribRun .. | .contribData .. => (0x20, 0)
  | .contribDone _ _ _ reply => (0x21, bitIf reply 0)
  | .retract _ _ _ _ _ _ _ _ _ reply _ => (0x22, bitIf reply 0)
  | .rebuildRead .. => (0x30, 0)
  | .rebuildData _ _ _ _ _ _ _ reply _ _ => (0x31, bitIf reply 0)
  | .epochAnnounce .. => (0x40, 0)
  | .lightRequest .. => (0x41, 0)
  | .nak .. => (0x7F, 1)

/-- The body of a message before its payload (R258); a CRC covers payload bytes and is the caller's. A contribution run stands for its messages of
one or two frames, of which this is the first. -/
def msgFields (crc : Word) : LMsg → List DataField
  | .heartbeat status applied staged pend opsec => [fld 0 2 status.toNat, fld 4 4 applied, fld 8 4 staged, fld 12 4 pend, fld 16 8 opsec]
  | .sealNotice g seg band => [fld 0 1 g.val, fld 1 1 seg.val, fld 2 2 band]
  | .slotAssign stripe position m version holders =>
    [fld 0 6 stripe, fld 6 1 position, fld 7 1 m, fld 8 2 version] ++ numsAt 16 2 ((List.range 4).map fun i => holders.getD i 0xFFFF)
  | .stripeRecord _ r => stripeFields { r with applying := none, newthru := 0, cur := none, new := none }
  | .stripeRecordAck stripe version => [fld 0 6 stripe, fld 6 2 version]
  | .contribRun stripe position index _ => [fld 0 6 stripe, fld 6 1 position, fld 7 1 index, fld 8 4 0, fld 12 2 2]
  | .contribData stripe position index first count => [fld 0 6 stripe, fld 6 1 position, fld 7 1 index, fld 8 4 first, fld 12 2 count]
  | .contribDone stripe position index reply => [fld 0 6 stripe, fld 6 1 position, fld 7 1 index, fld 8 4 (if reply then 0 else crc.toNat)]
  | .retract stripe position index first count neverSent release last behalf _ _ =>
    [fld 0 6 stripe, fld 6 1 position, fld 7 1 index, fld 8 4 first, fld 12 2 count,
     fld 14 1 (bitIf neverSent 0 + bitIf release 1 + bitIf last 2 + bitIf behalf 3), fld 16 4 (if last then crc.toNat else 0)]
  | .rebuildRead stripe what index first count => [fld 0 6 stripe, fld 6 1 what, fld 7 1 index, fld 8 4 first, fld 12 4 count]
  | .rebuildData stripe what index first count last push _ status record =>
    [fld 0 6 stripe, fld 6 1 what, fld 7 1 index, fld 8 4 first, fld 12 2 count, fld 14 1 (bitIf last 0 + bitIf push 1)] ++ numsAt 16 1 status ++
    [fld 20 4 (if last then crc.toNat else 0)] ++ (if what = 2 then (record.map fun r => fieldsAt 24 (stripeFields r)).getD [] else [])
  | .epochAnnounce epoch hash => [fld 0 4 epoch, fld 8 48 hash.toNat]
  | .lightRequest origin rack shelf reason cancel request waiting =>
    [fld 0 2 origin, fld 2 2 rack, fld 4 1 shelf, fld 5 1 reason, fld 6 1 (bitIf cancel 0), fld 8 4 request, fld 12 4 waiting]
  | .nak reason refused detail => [fld 0 1 reason, fld 1 1 refused, fld 4 4 detail]

/-- LENGTH of a message: its fields and its payloads of 4,128 bytes (R243, R258). -/
def msgLength : LMsg → Nat
  | .heartbeat .. => 24 | .sealNotice .. => 8 | .slotAssign .. => 24 | .stripeRecord .. => 112 | .stripeRecordAck .. => 8
  | .contribRun .. => 16 + 4128 * 2 | .contribData _ _ _ _ count => 16 + 4128 * count | .contribDone .. => 12
  | .retract _ _ _ _ count _ _ _ _ _ _ => 24 + 4128 * count | .rebuildRead .. => 16
  | .rebuildData _ what _ _ count _ _ _ _ _ => if what = 2 then 24 + 112 else 24 + 4128 * count
  | .epochAnnounce .. => 56 | .lightRequest .. => 16 | .nak .. => 8

/-- The message header (R243). -/
def msgHeader (m : OutMsg) : List DataField :=
  [fld 0 1 (msgType m.msg).1, fld 1 1 (msgType m.msg).2, fld 2 2 (msgLength m.msg), fld 4 4 m.hdr.epoch, fld 8 8 m.hdr.opid, fld 16 8 m.msn]

end Sys2Proof.Machine
end

