-- ==== Sys2Proof/Machine/Hello.lean ====
section
/-! DEFINITION. HELLO packets and the keys of a session (R244, R247, R249, R250, R258). -/

namespace Sys2Proof.Machine

/-! Packets. -/

/-- LENGTH of a HELLO (R258). -/
def helloLength : Nat := 492

/-- The body of a HELLO (R258). -/
def helloBody (m : HelloMsg) : List DataField :=
  [fld 0 1 m.phase, fld 1 1 m.status, fld 2 2 m.sessionId, fld 4 4 m.applied, fld 8 32 m.nonce] ++ bytesAt 40 ((m.ephKey.map sec1).getD []) ++
  ((m.cert.map fun c => fieldsAt 140 (certFields c)).getD []) ++ [fld 396 96 m.sig]

/-- A clear packet with one HELLO, as its whole UDP payload (R240, R243). -/
def helloPacket (m : HelloMsg) : List Byte :=
  fieldBytes 16 (outerHeader false m.src m.dst 0 0) ++
  fieldBytes 24 [fld 0 1 0x01, fld 1 1 (bitIf m.reply 0), fld 2 2 helloLength, fld 4 4 m.epoch, fld 8 8 m.opid, fld 16 8 0] ++
  fieldBytes helloLength (helloBody m)

/-- What SIGNATURE covers: the earlier packets of the exchange, then its own up to byte 395 of the body (R258). -/
def helloSigned (earlier : List HelloMsg) (m : HelloMsg) : List Byte := earlier.flatMap helloPacket ++ (helloPacket m).take (16 + 24 + 396)

/-- A HELLO is malformed (R244, R258): a reserved bit or byte, PHASE or STATUS outside its range, or a field of PHASE 3 that is not zero. -/
def helloMalformed (m : HelloMsg) : Bool :=
  m.reservedBad || m.phase == 0 || decide (3 < m.phase) || decide (4 < m.status) || (m.phase != 2 && m.status != 0) ||
  (m.phase == 3 && (m.sessionId != 0 || m.nonce != 0 || m.ephKey.isSome || m.cert.isSome))

/-- A HELLO that the package sends, signed by its member key. PHASE 2 answers PHASE 1 and carries REPLY and its OPID (DEDUCED, log entry 130). -/
def State.ownHello (s : State) (peer phase status index opid nonce : Nat) (eph : Option (Nat × Nat)) (earlier : List HelloMsg) : HelloMsg :=
  let m : HelloMsg := { src := s.actingMember, dst := peer, reply := phase == 2, epoch := s.epoch, opid := opid, phase := phase, status := status,
                        sessionId := index, applied := s.epoch, nonce := nonce, ephKey := eph, cert := if phase = 3 then none else s.identity.bind (·.cert),
                        sig := 0, reservedBad := false, sigOk := true }
  { m with sig := Config.memberSignature (helloSigned earlier m) }

/-- A HELLO goes out, unless the ports have fallen silent (R477). -/
def State.putHello (s : State) (m : HelloMsg) : State := s.updSwarm fun w => { w with helloOut := if w.silent then w.helloOut else w.helloOut ++ [m] }

/-! Keys (R249). -/

/-- TH: the hash of the PHASE 1 packet and the PHASE 2 packet. -/
def transcriptHash (first second : HelloMsg) : List Byte := sha384 (helloPacket first ++ helloPacket second)

/-- PRK, of the two nonces and Z. -/
def sessionPrk (first second : HelloMsg) (z : List Byte) : List Byte := hkdfExtract (leBytes 32 first.nonce ++ leBytes 32 second.nonce) z

/-- OKM, 72 bytes. -/
def sessionOkm (first second : HelloMsg) (z : List Byte) : List Byte :=
  hkdfExpand (sessionPrk first second z) (asciiBytes "lenos v1 keys" ++ transcriptHash first second) 72

/-- Key and salt from initiator to responder, and from responder to initiator. -/
def linkKey (okm : List Byte) (fromInitiator : Bool) : LinkKey :=
  if fromInitiator then { key := okm.take 32, salt := (okm.drop 64).take 4 } else { key := (okm.drop 32).take 32, salt := (okm.drop 68).take 4 }

/-- The two keys that an exchange gives this end: for sending and for receiving. Z is the x-coordinate of the point that the own scalar and the
peer's ephemeral key share; it, PRK and the scalar are in no field once the exchange has ended. -/
def HelloTry.keys (h : HelloTry) : LinkKey × LinkKey :=
  match h.second with
  | none => ({ key := [], salt := [] }, { key := [], salt := [] })
  | some m2 =>
    let z := sharedX h.scalar ((if h.initiator then m2.ephKey else h.first.ephKey).getD (0, 0))
    let okm := sessionOkm h.first m2 z
    (linkKey okm h.initiator, linkKey okm !h.initiator)

/-- The 96-bit GCM nonce of a sealed packet: the salt, then SEQ (R250). -/
def gcmNonce (k : LinkKey) (half : Fin 2) (ctr : Nat) : List Byte := k.salt ++ leBytes 8 (ctr + half.val * 2 ^ 63)

end Sys2Proof.Machine
end

