-- ==== Sys2Proof/Machine/Cluster.lean ====
section
/-! DEFINITION. The commands of the clusters: decoder engines, the retry ladder, the Antenna, patrol, accumulators (R69, R88 to R95, R104
to R121). -/

namespace Sys2Proof.Machine

/-- FOLD_IDLE_TIMER (R69): 1 s without host work. -/
def execFoldIdleTimer (g : RegionIx) (s : State) : Out :=
  if (s.regions[g]).inService && !s.hostWork then .next (s.foldStart g) else unchanged s

/-! Decoding. -/

/-- An engine takes a frame. -/
def State.takeJob (s : State) (c : ClusterIx) (e : Fin 5) (j : EngineJob) : State := s.updCluster c fun x => { x with engines := x.engines.set e (some j) }

/-- The engine is in service and idle. -/
def engineIdle (x : ClusterSt) (e : Fin 5) : Bool := x.inService && engineOk x e && (x.engines[e]).isNone

/-- A frame that a hard engine's fault sent back goes to another hard engine while one is healthy; the soft engine repeats on itself (R107). -/
def avoided (x : ClusterSt) (e : Fin 5) (j : EngineJob) : Bool :=
  j.avoid == some e && e != 4 && ((List.finRange 4).any fun k => engineOk x ⟨k.val, by omega⟩ && k.val != e.val)

/-- FRAME_DECODE (R105, R107): an engine of the kind takes a frame of the queue; or a frame that the lane has delivered streams into the engine,
or waits where its engine is busy or its route leads elsewhere. -/
def execFrameDecode (c : ClusterIx) (e : Fin 5) (src : FrameSource) (s : State) : Out :=
  let x := s.clusters[c]
  match src with
  | .queued id =>
    match x.queue.find? fun j => j.req.id == id with
    | none => unchanged s
    | some j =>
      if !engineIdle x e || (softStep j.step != (e == 4)) || avoided x e j then unchanged s
      else .next ((s.updCluster c fun x => { x with queue := x.queue.erase j }).takeJob c e j)
  | .read id =>
    match s.climb? c id with
    | none => unchanged s
    | some k =>
      if k.phase != .arrived then unchanged s else
      let j : EngineJob := { req := k.req, step := k.step, avoid := none }
      let s := s.updClimb c id fun y => { y with phase := .decoding }
      .next (if engineIdle x e && softStep k.step == (e == 4) then s.takeJob c e j else s.queueJob c j)

/-- Decoder internal fault (R107): the frame goes again at the same step; an engine is retired at its second fault. -/
def State.engineFault (s : State) (c : ClusterIx) (e : Fin 5) (cause : Nat) (j : EngineJob) : State :=
  let s := s.updCluster c fun x => { x with
    engines := x.engines.set e none, faults := x.faults.set e (x.faults[e] + if s.shaded (.cluster c) then 0 else 1),
    decFault := match x.decFault with | some f => some f | none => some (e, cause), decFaultCount := satAdd 0xFF x.decFaultCount 1 }
  let s := s.raise (clusterSrc c 5)
  let s := s.queueJob (reqCluster j.req) { j with avoid := some e }
  s.reroute c (e == 4)

/-- A decode that the syndrome checker confirms and whose CRC matches (R100, R109, R130): it is delivered to every requester whose map entry agrees
with the frame's header; for the others it is a map integrity fault. -/
def State.decoded (s : State) (c home : ClusterIx) (k : Climb) (step corrected : Nat) : State :=
  let good := (k.req :: k.joined).filter fun q => !mapLed q.who || s.frameMatches q
  let bad := (k.req :: k.joined).filter fun q => mapLed q.who && !s.frameMatches q
  match good, bad with
  | _, [] => s.endClimb home k step corrected (c != home) true (s.reqUnit k.req)
  | [], _ => s.failIntegrity home k
  | r :: rs, b :: bs =>
    if k.stopping then s.endClimb home k step corrected (c != home) true (s.reqUnit k.req) else
    let s := s.endClimb home { k with req := { r with id := k.req.id }, joined := rs } step corrected (c != home) true (s.reqUnit k.req)
    let new : Climb := { k with req := { b with id := s.sub.nextReq }, joined := bs, phase := .failed, integrity := true }
    ((s.meetIntegrity b.gran).freshId).addClimb home new

/-- The end of a decode at a home cluster's step (R53, R106, R109, R119, R189): the step fails, or the frame is delivered. For a frame that another
cluster decodes (R107) the spec does not say whose events and counts they are: soft-decode escalation, uncorrectable frame and the step counts are
the home cluster's, the CRC mismatch and its count the decoding cluster's (DESIGN CHOICE, log entry 126). -/
def State.judge (s : State) (c home : ClusterIx) (k : Climb) (step corrected : Nat) (converged crcOk : Bool) : State :=
  let within := converged && decide (corrected ≤ s.frameLimit k.req * (if softStep step then 2 else 1))
  let s := s.updClimb home k.req.id fun y => { y with corrected := corrected }
  let k := { k with corrected := corrected }
  let s := match lunLane k.req.lun with
    | some l =>
      let counts := !s.shaded (.cluster c)
      s.countErrors l (counts && within && !crcOk) (counts && step == 1 && !(within && crcOk))
    | none => s
  if within && crcOk then (s.countLun k.req.lun false).decoded c home k step corrected
  else
    let s := if within then
        let s := (s.updCluster c fun x => { x with crcCnt := satAdd 0xFFFFFFFF x.crcCnt 1 }).raise (clusterSrc c 4)
        let s := s.updSub fun q => { q with life := { q.life with crcOnly := q.life.crcOnly + 1 } }
        s.updClimb home k.req.id fun y => { y with crcFailed := true }
      else s
    let s := if step = 4 then s.raise (clusterSrc home 1) else s
    (s.failStep home k).countLun k.req.lun (step == 4 && !s.shaded (.cluster home))

/-- An engine's result for a frame (R106): judged while its climb waits for it. -/
def State.jobDone (s : State) (c : ClusterIx) (j : EngineJob) (corrected : Nat) (converged crcOk : Bool) : State :=
  let home := reqCluster j.req
  match s.climb? home j.req.id with
  | none => s
  | some k => if k.phase != .decoding then s else (s.judge c home k j.step corrected converged crcOk).copyTurns j.req.region

/-- DECODE_COMPLETE (R106). -/
def execDecodeComplete (c : ClusterIx) (e : Fin 5) (res : DecodeResult) (s : State) : Out :=
  match s.clusters[c].engines[e] with
  | none => unchanged s
  | some j =>
    let free := s.updCluster c fun x => { x with engines := x.engines.set e none }
    match res with
    | .rejected => .next (s.engineFault c e 1 j)
    | .memoryError => .next (s.engineFault c e 3 j)
    | .converged corrected crcOk => .next (free.jobDone c j corrected true crcOk)
    | .notConverged corrected => .next (free.jobDone c j corrected false false)

/-- DECODER_COMPLETION_TIMEOUT (R107): 200 µs without a completion. -/
def execDecoderCompletionTimeout (c : ClusterIx) (e : Fin 5) (s : State) : Out :=
  match s.clusters[c].engines[e] with
  | none => unchanged s
  | some j => .next (s.engineFault c e 2 j)

/-! The ladder. -/

/-- A retract reads the frame: it goes on to step 6 (R225). -/
def State.retracting (s : State) (k : Climb) : Bool :=
  (k.req :: k.joined).any fun r => r.who == .swarmSend &&
    s.swarm.work.any fun w => w.region == r.region && w.band == r.band && w.seg == segOf r.frame && w.item == .retract
/-- Last step of a climb. -/
def State.climbLast (s : State) (k : Climb) : Nat := if s.retracting k then 6 else k.last

/-- The step after a failed one (R72, R109, R112, R127, R130, R193, R194, R531). -/
def State.nextStep (s : State) (k : Climb) : Nat :=
  if k.darkWait.isSome then 6
  else if k.integrity && decide (k.step < 5) then 5
  else if decide (k.step < 4) && (s.lunQuarantined k.req.lun || s.frameErased k.req || !s.rowReadable k.req) then 5
  else if k.step = 1 then (if k.req.who == .regionMeta || s.correctionServes k.req then 3 else 2)
  else k.step + 1

/-- Entries that step 6 leaves without any way back become state 011 (R130, R131): those of a map integrity fault, and those in state 101 whose
segment no stripe can reconstruct; but no entry that has been rewritten meanwhile. -/
def State.entriesLost (s : State) (k : Climb) : State :=
  ((k.req :: k.joined).filter fun q => mapLed q.who && (k.integrity || (q.lost && stripeNever (s.reqSeg q)))).foldl
    (fun s q => if s.entryNames q then s.integrityLost (s.server q.gran) q.gran else s) s

/-- A frame that step 7 delivers (R108). -/
def lostUnit : Unit4K := { plain := 0, key := 0, poisoned := true }

/-- The climb has no further step (R111): poisoned at step 7 where step 6 was its last, else not delivered. -/
def State.climbOver (s : State) (c : ClusterIx) (k : Climb) : State :=
  if k.last = 6 then (s.entriesLost k).endClimb c k 7 0 false true lostUnit
  else s.endClimb c k k.step k.corrected false false lostUnit

/-- A copy of a granule is given up until a member lights (R112, R166): its entry reads 000 again; Scarab holds the band. -/
def State.copyDark (s : State) (member : Nat) (r : FrameReq) : State :=
  let s := (s.endCopy r.region r.gran).updRegion r.region fun x => { x with
    darkGrans := (x.darkGrans.filter fun d => d.1 != r.gran) ++ [(r.gran, member)] }
  if r.who == .relocation && (s.band r.region r.band).use != .staging then s.holdBand r.region r.band 1 else s

/-- Step 6 needs a dark member (R112, R166, R272, R273). -/
def State.ladderDark (s : State) (c : ClusterIx) (k : Climb) (member : Nat) : State :=
  let s := if k.whos.any fun w => w == .host || w == .verify || w == .copySource then s.postLight member 2 else s
  let copying (r : FrameReq) : Bool := r.who == .fold || r.who == .relocation
  let s := if k.whos.any fun w => w == .fold || w == .relocation then s.postLight member 3 else s
  let s := if k.whos.any fun w => w == .swarmSend then s.postLight member 4 else s
  let s := ((k.req :: k.joined).filter copying).foldl (State.copyDark · member) s
  let rest := (k.req :: k.joined).filter fun r => !copying r
  match rest with
  | [] => s.updCluster c fun x => { x with climbs := x.climbs.filter fun y => y.req.id != k.req.id }
  | r :: js => s.updClimb c k.req.id fun _ => { k with req := { r with id := k.req.id }, joined := js, step := 6, phase := .failed, darkWait := some member }

/-- Step 5 or 6 did not deliver the frame; a retract that fails at step 5 is reported (R225). -/
def State.stepLost (s : State) (c : ClusterIx) (k : Climb) (n : Nat) : State :=
  (if n = 5 ∧ s.retracting k then s.raise 412 else s).failStep c k

/-- A reconstructed frame (R100, R109, R130): it must pass its CRC, and agree with the entries that led to it. -/
def State.rebuilt (s : State) (c : ClusterIx) (k : Climb) (n : Nat) (crcOk : Bool) : State :=
  if !crcOk then (s.updClimb c k.req.id fun y => { y with crcFailed := true }).stepLost c { k with crcFailed := true } n
  else if (k.req :: k.joined).all fun q => !mapLed q.who || s.frameMatches q then s.endClimb c k n 0 false true (s.reqUnit k.req)
  else if k.integrity then s.stepLost c k n
  else (s.meetIntegrity k.req.gran).updClimb c k.req.id fun y => { y with integrity := true, phase := .failed }

/-! Step 6 at the requester (R262). -/

/-- The member to ask for a reconstruction: the one that the stripe ID names, or where its record has been returned, its lowest surviving parity
index (R228). None where the stripe ID names a member that is lost without an adopter. -/
def State.sixLeader (s : State) (stripe : Nat) : Option Nat := match s.swarm.seen.find? fun r => r.stripe == stripe with
  | some r => s.leaderNow r
  | none => if s.survives (leaderOf stripe) then some (leaderOf stripe) else none

/-- Lit ACTIVE members of the group, in the order in which they are asked for a record. -/
def State.recordOrder (s : State) (stripe : Nat) : List Nat :=
  s.holdOrder stripe (s.groupActive.filter fun e => e.member != s.actingMember && s.isLit e.member)

/-- The climb waits for the answer to a question, which goes out once. -/
def State.askMember (s : State) (c : ClusterIx) (k : Climb) (member : Nat) (m : LMsg) : State :=
  let s := s.updClimb c k.req.id fun _ => { k with phase := .asked }
  if s.swarm.waits.any fun q => q.msg == m then s
  else
    let p := s.newHdr member
    p.1.request (p.1.sendDie k.req.region) p.2 m

/-- The stripe's record is asked of the next member past `past`; with none left the step waits for a dark holder, or fails. -/
def State.searchRecord (s : State) (c : ClusterIx) (k : Climb) (past : Option Nat) : State :=
  let stripe := (s.reqSeg k.req).stripe
  let rest := match past with
    | some p => ((s.recordOrder stripe).dropWhile (· != p)).drop 1
    | none => s.recordOrder stripe
  match rest with
  | p :: _ => s.askMember c k p (.rebuildRead stripe 2 0 0 0)
  | [] => match (s.holdersOf stripe).find? fun m => s.survives m && !s.isLit m with
    | some m => s.ladderDark c k m
    | none => s.stepLost c k 6

/-- Step 6 for a frame of a complete stripe: its leader is asked to reconstruct it, a dark leader is waited for. -/
def State.stepSix (s : State) (c : ClusterIx) (k : Climb) : State :=
  let e := s.reqSeg k.req
  if !s.stripeComplete e then s.stepLost c k 6 else
  match s.sixLeader e.stripe with
  | none => s.searchRecord c k none
  | some m => if s.isLit m then s.askMember c k m (.rebuildRead e.stripe 3 e.position (k.req.frame % 262144) 1) else s.ladderDark c k m

/-- Climbs that wait for an answer about a stripe. -/
def State.askedOf (s : State) (stripe : Nat) (p : SegEntry → FrameReq → Bool) : List (ClusterIx × Climb) :=
  (List.finRange 12).flatMap fun c => (s.clusters[c].climbs.filter fun k =>
    k.phase == .asked && (s.reqSeg k.req).stripe == stripe && p (s.reqSeg k.req) k.req).map fun k => (c, k)

/-- The leader has answered for one frame slot: reconstructed, or a lost row. -/
def State.sixAnswered (s : State) (stripe position slot : Nat) (rowOk : Bool) : State :=
  (s.askedOf stripe fun e r => e.position == position && r.frame % 262144 == slot).foldl (fun s x =>
    (if rowOk then s.rebuilt x.1 x.2 6 true else s.stepLost x.1 x.2 6).copyTurns x.2.req.region) s

/-- A member has returned the record of a stripe: its leader is asked. -/
def State.recordSeen (s : State) (r : StripeRec) : State :=
  let s := s.updSwarm fun w => { w with seen := r :: w.seen.filter fun x => x.stripe != r.stripe }
  (s.askedOf r.stripe fun _ _ => true).foldl (fun s x => (s.stepSix x.1 x.2).copyTurns x.2.req.region) s

/-- A member has refused: the record is looked for at the members past it, or from the first one on where the leader refused. -/
def State.sixRefused (s : State) (stripe : Nat) (past : Option Nat) : State :=
  let s := if past.isNone then s.updSwarm fun w => { w with seen := w.seen.filter fun x => x.stripe != stripe } else s
  (s.askedOf stripe fun _ _ => true).foldl (fun s x => (s.searchRecord x.1 x.2 past).copyTurns x.2.req.region) s

/-- Questions that will have no answer are asked anew when the step is taken up again (R254). -/
def State.askAnew (s : State) (stripe : Nat) : State :=
  (s.askedOf stripe fun _ _ => true).foldl (fun s x => (s.updClimb x.1 x.2.req.id fun y => { y with step := 5 }).failStep x.1 x.2) s

/-- Steps 5 and 6 for a frame (R109, R112, R184, R214, R262). -/
def State.reconstruct (s : State) (c : ClusterIx) (k : Climb) (facts : LadderFacts) : State :=
  match k.step, facts with
  | 5, .row unread crcOk => if s.rowSolvable k.req unread then s.rebuilt c k 5 crcOk else s.stepLost c k 5
  | 6, _ => s.stepSix c k
  | n, _ => s.stepLost c k n

/-- Steps 2 to 4 for a frame: the Antenna's run of rank 1, or the soft read that the cluster is to issue (R89, R108, R119). -/
def State.readStep (s : State) (c : ClusterIx) (k : Climb) : State :=
  if k.step = 2 then (s.updClimb c k.req.id fun _ => { k with phase := .run }).requestRun k.req.region k.req.band 1 (some (s.reqRow k.req))
  else
    let s := s.updClimb c k.req.id fun _ => { k with phase := .wanted }
    if k.step = 3 then s.raise (clusterSrc c 0) else s

/-- The newest MAP record of the granule names another place, where the frame passes the header check (R130 step 2). -/
def State.repairTo (s : State) (k : Climb) : Option MapEntry :=
  if !k.integrity || !decide (k.step < 5) then none else
  match (s.regions[s.server k.req.gran]).newestMap k.req.gran with
  | none => none
  | some e =>
    let r := s.reqFor k.req.gran k.req.fig k.req.who none e
    if e.state == .mapped && (e.band.toNat != k.req.band || e.frame.toNat != k.req.base) && s.frameMatches r then some e else none

/-- R130 step 2: the entry is restored to the recorded place, and its readers are served from there; a copy of the granule is given up, and for
other requesters the frame is not delivered. -/
def State.serveRepaired (s : State) (c : ClusterIx) (k : Climb) (e : MapEntry) : State :=
  let s := if s.entryOf k.req.gran = e then s else s.integrityRepaired (s.server k.req.gran) k.req.gran e
  let s := s.updCluster c fun x => { x with climbs := x.climbs.filter fun y => y.req.id != k.req.id }
  (k.req :: k.joined).foldl (fun s q =>
    if q.who == .fold || q.who == .relocation then s.endCopy q.region q.gran
    else if mapLed q.who then s.wantFrame (s.reqFor q.gran q.fig q.who q.ref e) else s.deliverTo k q k.step 0 false false lostUnit) s

/-- RETRY_LADDER_STEP (R108 to R112, R184, R186): the frame of climb `id` starts its next step. -/
def execRetryLadderStep (c : ClusterIx) (id : Nat) (facts : LadderFacts) (s : State) : Out :=
  match s.climb? c id with
  | none => unchanged s
  | some k =>
    if k.phase != .failed then unchanged s
    else if facts = .repaired then (match s.repairTo k with
      | some e => .next (s.serveRepaired c k e)
      | none => unchanged s)
    else
      let n := s.nextStep k
      let k' := { k with step := n, darkWait := none }
      if s.climbLast k < n then .next ((s.climbOver c k).copyTurns k.req.region)
      else if n < 5 then .next (s.readStep c k')
      else if n = 5 ∧ s.awaitsResync k.req then unchanged s
      else .next (((s.updClimb c id fun _ => k').reconstruct c k' facts).copyTurns k.req.region)

/-! Patrol (R94, R95). -/

/-- The patrol interval in 1/16 equivalent hours (R94, R398). -/
def State.patrolInterval (s : State) : Nat := 16 * dflt (((s.recs?.bind (·.density)).map (·.patrol)).getD 0) 720

/-- Bands due for patrol, not yet under patrol. -/
def State.patrolDue (s : State) (g : RegionIx) : List Band :=
  (s.regions[g]).tab.bands.filter fun x => x.phase == .closed && (x.kind == .data || x.kind == .swarmParity) &&
    decide (s.patrolInterval ≤ s.snapshot x.profile - x.patrolTage.toNat) && !(s.regions[g]).patrols.any fun p => p.band == x.num

/-- Rows that a patrol reads (R94): the wordline of the middle row of each eighth, on the band's patrol position. A row lies on one position, which
need not be that one: the row of the same wordline there is taken (DESIGN CHOICE, log entry 126). -/
def patrolRows (geo : GeometryRec) (p : MediaProfile) (u : Nat) : List Nat :=
  let rows := bandRows geo p
  ((List.range 8).map fun k => (k * rows / 8 + ((k + 1) * rows / 8 - 1)) / 2 / geoW geo * geoW geo + u % geoW geo).eraseDups

/-- Steps 2 and 3 of R94: every frame of those rows that are readable is wanted. -/
def State.patrolRead (s : State) (g : RegionIx) (b : Nat) (noValley : Bool) : State :=
  match s.geo? g, s.regionProf? g with
  | some geo, some p =>
    let x := s.band g b
    let f := framesPerRow p x.density
    let req (frame : Nat) : FrameReq :=
      let pl := s.frameAt g b frame
      { id := 0, who := .patrol, region := g, band := b, frame := frame, gran := (pl.map (·.1.gran)).getD 0, fig := (pl.map (·.2)).getD 0,
        lun := lunAt geo (s.regions[g]).tab.adoptions (bandSet geo b) (frame / max 1 f % geoW geo), base := (pl.map (·.1.frame)).getD frame, lost := false, ref := none }
    let rs := ((patrolRows geo p x.patrolLun).flatMap fun row => (List.range f).map fun k => req (row * f + k)).filter s.rowReadable
    let s := s.updRegion g fun r => { r with patrols := r.patrols.map fun q => if q.band = b then { q with run := false, noValley := noValley, left := rs.length } else q }
    rs.foldl State.wantFrame s
  | _, _ => s

/-- PATROL_START (R94): the oldest due band, which is taken to be the one of lowest PATROL_TAGE (DESIGN CHOICE, log entry 126); without a valid
correction the Antenna runs first. -/
def execPatrolStart (g : RegionIx) (s : State) : Out :=
  if !(s.regions[g]).inService || !s.backgroundOk then unchanged s else
  match argMin (fun b => (s.band g b).patrolTage.toNat) ((s.patrolDue g).map (·.num)) with
  | none => .next (s.backgroundRun g)
  | some b =>
    let run := (s.band g b).corr.isNone
    let s := s.updRegion g fun r => { r with
      patrols := r.patrols ++ [{ band := b, run := run, noValley := false, left := 0, frames := 0, correctedSum := 0, maxStep := 0 }] }
    .next (if run then s.requestRun g b 4 none else s.patrolRead g b false)

/-- Twice the mean of corrected bits above which a band is refresh due (R95). -/
def State.refreshLimit2 (s : State) (g : RegionIx) (d : Density) : Nat :=
  match (s.regionProf? g).bind fun p => densEntry p d with
  | some e => if e.refresh ≠ 0 then min (hardLimit e.parity) (2 * e.refresh) else hardLimit e.parity
  | none => 0

/-- What a patrol found marks the band refresh due (R95). -/
def State.patrolFinds (s : State) (g : RegionIx) (p : PatrolRun) : Bool :=
  decide (p.frames * s.refreshLimit2 g (s.band g p.band).density < 2 * p.correctedSum) || decide (3 ≤ p.maxStep) || p.noValley

/-- PATROL_COMPLETE (R94, R95): once its run and all its frames have come to their ends. -/
def execPatrolComplete (g : RegionIx) (b : Nat) (s : State) : Out :=
  match (s.regions[g]).patrols.find? fun p => p.band == b with
  | none => unchanged s
  | some p =>
    if p.run || p.left != 0 then unchanged s else
    let due := s.patrolFinds g p
    let s := s.updRegion g fun r => { r with patrols := r.patrols.filter fun q => q.band != b }
    if (s.band g b).phase != .closed then .next s else
    let s := s.updBand g b fun x => { x with
      refreshDue := x.refreshDue || due, patrolTage := BitVec.ofNat 32 (s.snapshot x.profile), patrolLun := x.patrolLun + 1 }
    .next (s.jotFlags g b)

/-! The Antenna. -/

/-- ANTENNA_RUN_START (R89, R90): the pending run of highest rank, oldest first; waiting requests take the entry that frees. -/
def execAntennaRunStart (c : ClusterIx) (s : State) : Out :=
  let x := s.clusters[c]
  if !x.inService || x.antenna.isSome then unchanged s else
  match bestRun x.antPending with
  | none => unchanged s
  | some run =>
    let g := regionOfCluster c
    let s := s.updCluster c fun x => { x with antPending := x.antPending.erase run, antenna := some { run with plan := s.sweepPlan g c run } }
    .next (s.admitRuns g 64)

/-- Work that waits for the band's run goes on (R87, R93, R94): reads with the new correction, and the band's patrol. -/
def State.releaseWaits (s : State) (g : RegionIx) (b : Nat) (noValley : Bool) : State :=
  let s := (clustersOfRegion g).foldl (fun s c => s.updCluster c fun x => { x with
    climbs := x.climbs.map fun k => if k.req.region == g && k.req.band == b && k.phase == .run then { k with phase := .wanted } else k }) s
  if (s.regions[g]).patrols.any fun p => p.band == b && p.run then s.patrolRead g b noValley else s

/-- The correction that a run finds (R92), and whether some level found no value. -/
def State.runCorrection (s : State) (g : RegionIx) (run : AntRun) : Correction × Bool :=
  let levels := levelCount (s.band g run.band).density
  let at_ (n : Nat) : List Int := (List.range 4).filterMap fun i => run.levelValue i (n + 1)
  let ks := (List.range levels).map fun n => if (at_ n).isEmpty then 0 else median (at_ n)
  let missing := (List.range levels).any fun n => (at_ n).isEmpty
  let clsOf (i : Nat) : Nat := s.rowClass g run.band (((run.plan.find? fun x => x.sample == i).map (·.row)).getD 0)
  let good := (List.range 4).filter fun i => (List.range levels).any fun n => (run.levelValue i (n + 1)).isSome
  ({ k := ks, cls := if good.isEmpty then clsOf 0 else (good.map clsOf).foldl max 0, temp := s.keeper.tk.mediaTemp }, missing)

/-- ANTENNA_RUN_COMPLETE (R87, R92, R93): an abandoned run leaves no correction; any other ends once each of its sweeps has. -/
def execAntennaRunComplete (c : ClusterIx) (s : State) : Out :=
  match s.clusters[c].antenna with
  | none => unchanged s
  | some run =>
    let g := regionOfCluster c
    let b := run.band
    if run.abandoned then
      let s := s.updCluster c fun x => { x with antenna := none }
      let s := if (s.band g b).phase == .erased then s else (s.updBand g b fun x => { x with corr := none }).jotFlags g b
      .next ((s.releaseWaits g b false).backgroundRun g)
    else if !run.allSwept then unchanged s
    else
      let s := s.updCluster c fun x => { x with antenna := none }
      let p := s.runCorrection g run
      let s := (s.updBand g b fun x => { x with corr := some p.1, uncertain := false }).jotFlags g b
      let s := if p.2 then s.raise (clusterSrc c 2) else s
      .next ((s.releaseWaits g b p.2).backgroundRun g)

/-! Packing and accumulation. -/

/-- STAGING_ROW_TIMEOUT (R104, R180). -/
def execStagingRowTimeout (g : RegionIx) (b : Nat) (s : State) : Out := .next (s.padOut g b)

/-- Payloads of a band row that are programmed are read back and decoded into the accumulation of a cluster; parity waits for the last of them
(R120, R186). -/
def State.accReadBack (s : State) (c : ClusterIx) (band row : Nat) (back : List Nat) : State :=
  let g := regionOfCluster c
  match s.geo? g with
  | none => s
  | some geo =>
    if back.isEmpty then s else
    let f := s.rowFrames g (s.band g band).density
    let t := (s.regions[g]).tab
    let s := s.updCluster c fun y => { y with
      accRows := if y.accRows.any fun a => a.band == band && a.row == row then
          y.accRows.map fun a => if a.band = band ∧ a.row = row then { a with positions := a.positions.filter fun u => !back.contains u } else a
        else y.accRows ++ [{ band := band, row := row, positions := [] }],
      accRebuild := if y.accRebuild.contains (band, row) then y.accRebuild else y.accRebuild ++ [(band, row)] }
    let req (u k : Nat) : FrameReq :=
      let frame := (row * geoW geo + u) * f + k
      let pl := s.frameAt g band frame
      { id := 0, who := .parityWork, region := g, band := band, frame := frame, gran := (pl.map (·.1.gran)).getD 0, fig := (pl.map (·.2)).getD 0,
        lun := lunAt geo t.adoptions (bandSet geo band) u, base := (pl.map (·.1.frame)).getD frame, lost := false, ref := none }
    (back.flatMap fun u => (List.range f).map (req u)).foldl State.wantFrame s

/-- The accumulation of a band row in a cluster is discarded (R120): payloads whose data is still held are taken in again at once, those already
programmed are read back and decoded. -/
def State.accDiscard (s : State) (c : ClusterIx) (band row : Nat) : State :=
  let held := (s.clusters[c].accRows.filter fun a => a.band == band && a.row == row).flatMap (·.positions)
  s.accReadBack c band row (held.filter fun u => (s.band (regionOfCluster c) band).rowsOk.contains (row, u))

/-- PARITY_ACCUMULATOR_MEMORY_ERROR (R120): a corrected error is counted; an uncorrectable one discards the accumulation of a band row,
which is rebuilt from the payloads already programmed. -/
def execParityAccumulatorMemoryError (c : ClusterIx) (corrected : Bool) (band row : Nat) (s : State) : Out :=
  if !s.clusters[c].inService then unchanged s
  else if corrected then .next (s.updCluster c fun x => { x with accCorrected := satAdd 0xFFFF x.accCorrected 1 })
  else .next (((s.updCluster c fun x => { x with accUncorr := satAdd 0xFF x.accUncorr 1 }).raise (clusterSrc c 3)).accDiscard c band row)

/-- CLU_CTRL.CNT_CLR (R121). -/
def execCluCtrlCntClr (c : ClusterIx) (s : State) : Out :=
  .next (s.updCluster c fun x => { x with crcCnt := 0, stepCnt := Vector.replicate 7 0, accCorrected := 0 })

end Sys2Proof.Machine
end

