-- ==== Sys2Proof/Machine/Scarab.lean ====
section
/-! DEFINITION. Scarab's commands and band parity's: reclamation, single relocation, resynchronisation, rebuild (R153 to R173, R186, R192 to
R195, R223). -/

namespace Sys2Proof.Machine

/-! Candidates (R153 to R155). -/

/-- A staging band none of whose frames belongs to a namespace of target SLC. -/
def State.foldOnly (s : State) (x : Band) : Bool := x.use == .staging && !(x.placed.any fun pl => s.targetOf pl.nsid == .slc)

/-- A granule of the band still waits for its rows: a placed update, or a copy whose compare-and-set has not been tried. -/
def State.bandBusy (s : State) (g : RegionIx) (x : Band) : Bool :=
  ((s.regions[g]).pend.any fun u => (u.at_.map (·.1)) == some x.num) || x.placed.any fun pl => pl.src.isSome

/-- A run that NEW of a stripe names while APPLYING is active lies in the band (R153). -/
def RegionSt.runBusy (r : RegionSt) (b : Nat) : Bool := r.tab.stripes.any fun x => x.applying.isSome && (x.new.map (·.1)) == some b

/-- Every granule of the band lies in a resident segment (R147). -/
def RegionSt.bandResident (r : RegionSt) (g : RegionIx) (x : Band) : Bool := x.placed.all fun pl => r.isResident g pl.gran

/-- The band is a candidate for reclamation (R153, R270). -/
def State.candidate (s : State) (g : RegionIx) (x : Band) : Bool :=
  let r := s.regions[g]
  x.phase == .closed && (x.kind == .data || x.kind == .swarmParity) && !(r.slots.toList.any fun q => (q.map (·.band)) == some x.num) &&
  !(x.use == .restore && (s.swarm.adopted.map fun a => !a.2).getD false) &&
  x.hold.isNone && !x.intent && !x.mappedRec && !s.bandBusy g x && !r.runBusy x.num && r.bandResident g x &&
  (!s.foldOnly x || r.valid x.num == 0)

/-- Granules a band can hold, and its valid count held within it (R155). -/
def bandD (x : Band) : Nat := x.slots / 16
def RegionSt.bandV (r : RegionSt) (x : Band) : Nat := min (bandD x) (r.valid x.num)

/-- Age factor in 1/256 (R155). -/
def ageFactor (c : Nat) : Nat := if c ≤ 3 then 128 else if c ≤ 8 then 192 else if c ≤ 12 then 256 else if c ≤ 16 then 320 else if c ≤ 20 then 384 else 448

/-- Mean erase count over the good blocks of a pool, rounded down. -/
def poolE (geo : GeometryRec) (p : MediaProfile) (t : RegionTables) (slc : Bool) : Nat :=
  let good := ((poolBands geo p slc).flatMap fun b => (bandBlocks geo t b).map fun x => t.block x.1 x.2).filter fun x => x.state == 0
  if good.isEmpty then 0 else (good.map (·.erases)).sum / good.length

/-- Age class of a band for its score: the retention class of its seventh eighth. -/
def State.ageClass (s : State) (x : Band) : Nat := retentionClass (s.elapsed x 7)

/-- The score of a band (R155). -/
def State.score (s : State) (g : RegionIx) (x : Band) : Nat :=
  match s.geo? g, s.regionProf? g with
  | some geo, some p =>
    let r := s.regions[g]
    let slc := bandInSlc geo x.num
    let d := bandD x
    let i := if d = 0 then 0 else (d - r.bandV x) * 65536 / d
    let e := bandE geo r.tab x.num
    let wq := 256 * (e - poolE geo p r.tab slc) / max 1 (s.spreadLimit g slc)
    i * ageFactor (s.ageClass x) / (256 + wq)
  | _, _ => 0

/-- Invalid fraction large enough for order 4: 1/16, or any above zero at the urgent mark (R154, R170). -/
def State.worthIt (s : State) (g : RegionIx) (x : Band) : Bool :=
  let d := bandD x
  let inv := d - (s.regions[g]).bandV x
  decide (d ≤ 16 * inv) && decide (0 < inv) || (decide (0 < inv) && decide (s.freeMain g ≤ s.geoNum g (·.markUrgent) 8))

/-- Static wear-levelling source of a pool (R159). -/
def State.wearSource (s : State) (g : RegionIx) (slc : Bool) : Option Nat :=
  match s.geo? g with
  | none => none
  | some geo =>
    let t := (s.regions[g]).tab
    let cs := (t.bands.filter fun x => s.candidate g x && bandInSlc geo x.num == slc)
    let old := cs.filter fun x => decide (9 ≤ s.ageClass x)
    argMin (bandE geo t) ((if old.isEmpty then cs else old).map (·.num))

/-- The first candidate of the orders of R154 that a slot serves, with its reason and score. In the read-only state only bands with valid
count zero (R173). -/
def State.pickReclaim (s : State) (g : RegionIx) (k : Fin 2) : Option (Nat × ReclaimReason × Nat) :=
  let r := s.regions[g]
  let cs := r.tab.bands.filter (s.candidate g)
  let empty := argMin (fun b => (s.band g b).sealOrder) ((cs.filter fun x => r.valid x.num == 0).map (·.num))
  let refresh := argMin (fun b => (s.band g b).patrolTage.toNat) ((cs.filter fun x => x.refreshDue).map (·.num))
  let wide := r.wearOver[0] || r.wearOver[1]
  let wear := match (if r.wearOver[0] then s.wearSource g false else none) with
    | some b => some b
    | none => if r.wearOver[1] then s.wearSource g true else none
  let good := cs.filter (s.worthIt g)
  let top := (good.map (s.score g)).foldl max 0
  let scored := argMin (fun b => (s.band g b).sealOrder) ((good.filter fun x => s.score g x == top).map (·.num))
  let firstEmpty := empty.map fun b => (b, (if s.foldOnly (s.band g b) then ReclaimReason.stagingRelease else .empty), 0)
  let firstRefresh := refresh.map fun b => (b, ReclaimReason.refresh, 0)
  let firstScore := scored.map fun b => (b, ReclaimReason.score, top)
  let low := decide (s.freeMain g ≤ s.geoNum g (·.markStart) 16)
  if s.readOnlyNow then (if k = 0 ∨ !wide then firstEmpty else none)
  else if k = 0 then ((firstEmpty.or firstRefresh).or firstScore)
  else if wide then wear.map fun b => (b, ReclaimReason.wear, 0)
  else ((firstEmpty.or firstRefresh).or (if low then firstScore else none))

/-! Commands. -/

/-- Scarab may run: the region serves, no PS3 or PS4, no diapause being prepared (R166, R292). -/
def State.scarabRuns (s : State) (g : RegionIx) : Bool :=
  (s.regions[g]).inService && s.backgroundOk

/-- RECLAIM_START (R154, R161, R163): the first candidate takes the slot; not before a resynchronisation (R186). -/
def execReclaimStart (g : RegionIx) (k : Fin 2) (s : State) : Out :=
  if !s.scarabRuns g || ((s.regions[g]).slots[k]).isSome || !(s.regions[g]).resync.isEmpty then unchanged s else
  match s.pickReclaim g k with
  | none => unchanged s
  | some (b, reason, score) =>
    let x := s.band g b
    let empty := (s.regions[g]).valid b == 0
    let s := s.updRegion g fun r => { r with slots := r.slots.set k (some { band := b, reason := reason, score := score, relocated := 0 }) }
    -- RECLAIM_START and RECLAIM_MAPPED of an empty band share a frame.
    let last := ((s.regions[g]).journal.tail.getLast?).map fun f => !f.closed && decide (253 ≤ f.used)
    let s := if empty && last == some true then s.updRegion g RegionSt.closeTail else s
    if empty then
      let s := (s.jot g (.reclaimStart b reason score none)).updBand g b fun x => { x with mappedRec := true }
      .next (s.jotNow g (.reclaimMapped b 0))
    else if x.kind = .swarmParity then
      let s := (s.jot g (.reclaimStart b reason score none)).moveRuns g b
      .next (s.runsMoved g b)
    else
      let d := s.targetOf ((x.placed.head?.map (·.nsid)).getD 0)
      let p := s.bandFor g (if d = .slc then .staging else .relocation) d 0xFF
      let s := p.1.jot g (.reclaimStart b reason score p.2)
      .next (s.reclaimNext g k)

/-- The refresh count of the density policy (R168, R398). -/
def State.refreshCount (s : State) : Nat := dflt (((s.recs?.bind (·.density)).map (·.refreshCount)).getD 0) 4

/-- Granules relocated alone that are in flight: being copied, or packed and not yet mapped (R168). -/
def RegionSt.singles (r : RegionSt) : Nat :=
  (r.copies.filter fun c => c.kind == .single).length +
  ((r.tab.bands.filter fun x => x.use != .fold).map fun x => (x.placed.filter fun pl => (pl.src.map fun c => !c.reclaim && c.state == .mapped).getD false).length).sum

/-- A granule is copied alone (R132, R168, R195): into the relocation band of its target density; one in state 101 comes through ladder step 6. -/
def State.copyAlone (s : State) (g : RegionIx) (gran : Nat) : State :=
  let e := s.entryOf gran
  let home := s.entryHome gran
  let nsid := ((extentOf (s.regions[granRegion gran]).tab.extents gran).or
    (((s.band home e.band.toNat).placed.find? fun pl => pl.gran == gran && pl.frame == e.frame.toNat).map (·.nsid))).getD 0
  (s.updRegion g fun r => { r with copies := r.copies ++
    [{ kind := if e.state = .lost then .overlay else .single, gran := gran, band := e.band.toNat, frame := e.frame.toNat, state := e.state,
       target := s.targetOf nsid, got := [] }] }).wantCopy gran .relocation

/-- GRANULE_RELOCATE (R132, R168, R195): a granule whose count or whose delivery asks for it, at most 16 in flight; or one in state 101, of the region's
own map or of the one it adopts. None in the read-only state (R173), none in a segment that is not resident. -/
def execGranuleRelocate (g : RegionIx) (gran : Nat) (s : State) : Out :=
  let r := s.regions[g]
  let e := s.entryOf gran
  let wanted := r.relocNow.contains gran || r.watch.any fun w => w.1 == gran && decide (s.refreshCount ≤ w.2)
  if s.server gran != g || !s.scarabRuns g || !s.copiesRun || !r.isResident g gran || r.isDark gran then unchanged s
  else if e.state = .lost then
    if r.copies.any (fun c => c.gran == gran) || (r.tab.bands.any fun x => x.placed.any fun pl => pl.gran == gran && pl.src.isSome) then unchanged s
    else .next ((s.updRegion g fun r => { r with relocNow := r.relocNow.filter (· != gran) }).copyAlone g gran)
  else if !wanted || decide (16 ≤ r.singles) then unchanged s
  else
    let s := s.updRegion g fun r => { r with relocNow := r.relocNow.filter (· != gran), watch := r.watch.filter fun w => w.1 != gran }
    .next (if e.state != .mapped || r.copies.any (fun c => c.gran == gran) then s else s.copyAlone g gran)

/-! Band parity. -/

/-- Band rows that set dirty bits cover (R185). -/
def dirtyRows (p : MediaProfile) (f : Nat) (dirty : List Nat) : List Nat :=
  (List.range p.wordlines).filter fun w => dirty.any fun k => decide (w * f / 256 ≤ k) && decide (k ≤ ((w + 1) * f - 1) / 256)

/-- Both parity page rows of a band row are readable. -/
def parityWhole (x : Band) (w : Nat) : Bool := x.parityOk.contains (w, 0) && x.parityOk.contains (w, 1)

/-- Band rows that a resynchronisation covers: from the lowest that a dirty bit covers to the last that holds a readable data page row (R186). -/
def coveredRows (p : MediaProfile) (f : Nat) (x : Band) : List Nat :=
  let last := (x.rowsOk.map (·.1)).foldl max 0
  if x.rowsOk.isEmpty then [] else (dirtyRows p f x.dirty).filter fun w => decide (w ≤ last)

/-- A band row is made whole (R186): its programmed data is read back into the accumulations that have lost it. -/
def State.resyncRow (s : State) (geo : GeometryRec) (g : RegionIx) (b w : Nat) : State :=
  let t := (s.regions[g]).tab
  (clustersOfRegion g).foldl (fun s c =>
    let x := s.band g b
    let here := (dataPos geo b).filter fun u => x.rowsOk.contains (w, u) && lunCluster (lunAt geo t.adoptions (bandSet geo b) u) == some c
    let held := (s.clusters[c].accRows.filter fun a => a.band == b && a.row == w).flatMap (·.positions)
    if s.clusters[c].accRebuild.contains (b, w) || here.all held.contains then s else s.accReadBack c b w (here.filter fun u => !held.contains u)) s

/-- The resynchronisation of a band ends (R186): the accumulations are freed, every bit clears, and the band is sealed short. -/
def State.resyncEnds (s : State) (g : RegionIx) (b : Nat) (gone : List Nat) : State :=
  let s := gone.foldl (fun s w => s.relocateRow g b w) s
  let s := (s.band g b).dirty.foldl (fun s k => s.jot g (.dirty b k false)) (s.accFree g (·.1 == b))
  let s := (s.updBand g b fun x => { x with dirty := [], dirtyDurable := [] }).sealBand g b true
  let s := s.placeLost g b
  (s.updRegion g fun r => { r with resync := r.resync.filter (· != b) }).copyTurns g

/-- BAND_RESYNC (R186): `unreadable` are the covered band rows whose parity page row reads neither erased nor decodable. A fold band is programmed no
further. In any other band the data positions without a readable page row become pad, the programmed data is read back, and its turn ends once
the parity rows of every covered row are programmed. -/
def execBandResync (g : RegionIx) (b : Nat) (unreadable : List Nat) (s : State) : Out :=
  match s.geo? g, s.regionProf? g with
  | some geo, some p =>
    if !(s.regions[g]).resync.contains b then unchanged s else
    let x := s.band g b
    let covered := coveredRows p (framesPerRow p x.density) x
    let open' := covered.filter fun w => !parityWhole x w
    if x.use = .fold then .next (s.resyncEnds g b open')
    else
      let s := covered.foldl (fun s w => s.completeRow g b w) s
      let s := (open'.filter fun w => !unreadable.contains w).foldl (fun s w => s.resyncRow geo g b w) s
      .next (if open'.all unreadable.contains then s.resyncEnds g b open' else s)
  | _, _ => unchanged s

/-- A frame slot of a rebuilt position that nothing can restore (R195): pad, SLOT_LOST, and the granules there take state 101, or 011 where
no stripe can serve them. -/
def State.loseSlot (s : State) (g : RegionIx) (b frame : Nat) (served : Bool) : State :=
  let s := (s.updTab g fun t => { t with slotsLost := t.slotsLost ++ [(b, frame)] }).jot g (.slotLost b frame)
  match s.geo? g with
  | none => s
  | some geo =>
    let x := s.band g b
    let f := s.rowFrames g x.density
    let on (pl : Placed) : Bool := (List.range 16).any fun i => slotFrame geo b f (pl.slot + i) == frame
    (x.placed.filter on).foldl (fun s pl =>
      let e := s.entryOf pl.gran
      if e.band.toNat = b ∧ e.frame.toNat = pl.frame ∧ (e.state = .mapped ∨ e.state = .foldInFlight) then
        let s := s.remap g pl.gran { e with state := if served then .lost else .poisoned } false
        if served then s else s.updRegion g fun r => { r with poisonedCnt := satAdd 0xFF r.poisonedCnt 1 }
      else s) s

/-- BAND_REBUILD (R192, R195): the next band of an adopted position is rebuilt, row by row. `lost` are its frame slots that neither band
parity nor the stripe restored, each with whether a stripe can serve it later; `failed` that a program failed on the spare's block. With no band
left but those that Scarab releases as they are, the rebuild ends. -/
def execBandRebuild (g : RegionIx) (spare : Nat) (lost : List (Nat × Bool)) (failed : Bool) (s : State) : Out :=
  let r := s.regions[g]
  match r.tab.adoptions.find? fun a => a.spare == spare, s.regionProf? g with
  | some a, some p =>
    if a.done || !r.durable (.spareAdopt a.spare a.set a.position a.lost) then unchanged s
    else match r.nextRebuild a with
    | none => .next (s.closeRebuild g spare)
    | some (b, done) =>
      if failed then .next (s.rebuildAgain g b spare 1)
      else
        let s := lost.foldl (fun s x => s.loseSlot g b x.1 x.2) s
        let marks := (List.range (p.wordlines + 1)).filter fun w => decide (done < w) && (w % 16 == 0 || w == p.wordlines)
        .next (marks.foldl (fun s w => s.rebuildRowDone g b spare w) s)
  | _, _ => unchanged s

end Sys2Proof.Machine
end

