-- ==== Sys2Proof/Machine/SwarmRoles.lean ====
section
/-! DEFINITION. What leaders and holders do with stripes: placement, records, contributions, retracts, folding (R210, R211, R214 to R223,
R228, R230 to R233, R260, R261). -/

namespace Sys2Proof.Machine

/-! Life of a stripe record. -/

/-- A fold of a complete partial to HLC (R222): CUR moves to the main pool. -/
def State.foldParity (s : State) (stripe : Nat) : State :=
  let g := s.stripeRegion stripe
  match s.stripe? stripe with
  | none => s
  | some r => match r.cur with
    | none => s
    | some at_ =>
      if (s.band g at_.1).density ≠ .slc ∨ s.readOnlyNow = true then s else
      match s.takeRun g .foldedParity .hlc with
      | (s, some n) => s.putStripe { r with cur := some n }
      | (s, none) => s

/-- CLOSED to COMPLETE and RELEASED (R221, R222). A reclamation that waits for the stripe's runs goes on (R153). -/
def State.advanceStripe (s : State) (stripe : Nat) : State :=
  match s.stripe? stripe with
  | none => s
  | some r =>
    let t := if r.state = .opened ∨ r.applying.isSome then s
      else if allRetracted r then s.freeStripe stripe
      else if stripeSettled r then (if r.state = .complete then s else s.putStripe { r with state := .complete }).foldParity stripe
      else if r.state = .complete then s.putStripe { r with state := .closed } else s
    t.runTurns (s.stripeRegion stripe)

/-- Set the bits of a data position. -/
def setPos (r : StripeRec) (j : Nat) (f : DataPos → DataPos) : StripeRec :=
  { r with data := r.data.zipIdx.map fun x => if x.2 == j then f x.1 else x.1 }
def setHolder (r : StripeRec) (i : Nat) (f : HolderPos → HolderPos) : StripeRec :=
  { r with holders := r.holders.zipIdx.map fun x => if x.2 == i then f x.1 else x.1 }

/-! Replication (R217). -/

/-- The record as sent to a holder (R258): its parity index, no run of its own. -/
def recordFor (r : StripeRec) (i : Nat) : StripeRec := { r with mypos := i, applying := none, newthru := 0, cur := none, new := none }

/-- Send the present version to the holder of index i: a durable pending replica while it is dark. -/
def State.sendRecord (s : State) (r : StripeRec) (i : Nat) : State :=
  match r.holders[i]? with
  | none => s
  | some h =>
    if h.member = s.actingMember then s
    else if !s.isLit h.member then s.deferred h.member
    else
      let p := s.newHdr h.member
      let m := LMsg.stripeRecord false (recordFor r i)
      (p.1.updSwarm fun w => { w with waits := w.waits ++ [{ hdr := p.2, msg := m }] }).sendDurable (s.stripeRegion r.stripe) p.2 m false

/-- A new version of a record that the package leads: journaled, and sent to every other holder. -/
def State.replicate (s : State) (r : StripeRec) : State :=
  let r := { r with version := (r.version + 1) % 65536, holders := r.holders.map fun h => { h with acked := h.member == s.actingMember } }
  let s := s.putStripe r
  (List.range r.holders.length).foldl (fun s i => s.sendRecord r i) s

/-- Lit holders whose acknowledgement an assignment waits for. -/
def State.litHolders (s : State) (r : StripeRec) : List Nat :=
  (r.holders.map (·.member)).filter fun c => c != s.actingMember && s.isLit c

/-- SLOT_ASSIGN goes out once the record is durable here and acknowledged by the holders that answered (R217). -/
def State.sendAssign (s : State) (a : Assign) : State :=
  let s := s.updSwarm fun w => { w with assigns := w.assigns.filter fun x => x.hdr != a.hdr }
  match s.stripe? a.stripe with
  | none => s
  | some r => s.sendDurable (s.stripeRegion a.stripe) a.hdr (.slotAssign a.stripe a.position r.m a.version (r.holders.map (·.member))) true

def State.settleAssigns (s : State) : State := (s.swarm.assigns.filter fun a => a.left.isEmpty).foldl State.sendAssign s

/-- A holder no longer holds up the assignments of a stripe. -/
def State.assignFreed (s : State) (stripe member : Nat) : State :=
  (s.updSwarm fun w => { w with assigns := w.assigns.map fun a => if a.stripe == stripe then { a with left := a.left.filter (· != member) } else a }).settleAssigns

/-- Close an open stripe (R218): 411 when it closes short. -/
def State.closeStripe (s : State) (r : StripeRec) : State :=
  let s := if r.filled < r.k then s.raise 411 else s
  (s.replicate { r with state := .closed }).advanceStripe r.stripe

/-! Placing a notice (R210, R211, R215). -/

/-- The sender may take a position in an open stripe of the package's group (R211). -/
def State.fits (s : State) (r : StripeRec) (sender : Nat) : Bool :=
  let free (c : Nat) : Bool := match s.memberEntry c, s.memberEntry sender with
    | some a, some b => !sameShelf a b
    | _, _ => true
  (s.ownGroup.map (·.group)) == some r.group && !(r.data.any fun d => d.member == sender) && (((s.ownGroup.map (·.shelfLocal)).getD false) ||
    ((r.data.all fun d => free d.member) && (r.holders.all fun h => free h.member)))

/-- Open stripes that the package leads. -/
def State.openStripes (s : State) : List StripeRec := s.allStripes.filter fun r => r.state == .opened && s.leads r
/-- The oldest of a list: the lowest stripe sequence. -/
def oldestStripe : List StripeRec → Option StripeRec
  | [] => none
  | x :: xs => match oldestStripe xs with
    | none => some x
    | some y => if x.stripe / 16384 ≤ y.stripe / 16384 then some x else some y

/-- The region that keeps the stripe sequence (R215). -/
def State.seqRegion (s : State) : RegionIx := if (s.regions[(2 : RegionIx)]).adopting then 2 else 0
/-- Last stripe sequence (R215). -/
def lastStripeSeq : Nat := 2 ^ 34 - 1
/-- The multiple of 2^16 that must be reserved durably before the next number is issued. -/
def State.stripeBlock (s : State) : Nat := s.swarm.stripeSeq / 65536 * 65536
/-- That reserve stands, durably. -/
def State.stripeReserved (s : State) : Bool :=
  let r := s.regions[s.seqRegion]
  match r.tab.stripeReserve with
  | some v => decide (s.stripeBlock ≤ v) && r.durable (.stripeSeqReserve v)
  | none => false
/-- Append STRIPE_SEQ_RESERVE where it does not stand. -/
def State.reserveStripes (s : State) : State :=
  let g := s.seqRegion
  match (s.regions[g]).tab.stripeReserve with
  | some v => if s.stripeBlock ≤ v then s else ((s.updTab g fun t => { t with stripeReserve := some s.stripeBlock }).jot g (.stripeSeqReserve s.stripeBlock)).updRegion g RegionSt.closeTail
  | none => ((s.updTab g fun t => { t with stripeReserve := some s.stripeBlock }).jot g (.stripeSeqReserve s.stripeBlock)).updRegion g RegionSt.closeTail

/-- A stripe table of 32,768 records is full (R232). -/
def State.tableFull (s : State) (stripe : Nat) : Bool := decide (32768 ≤ (s.regions[s.stripeRegion stripe]).tab.stripes.length)

/-- The new position is assigned once its record has been replicated. -/
def State.assignPosition (s : State) (hdr : MsgHdr) (r : StripeRec) : State :=
  let r := { r with data := r.data ++ [DataPos.mk hdr.peer false false], filled := r.filled + 1 }
  let full := decide (r.k ≤ r.filled)
  let r := { r with state := if full then .closed else .opened }
  let s := s.replicate r
  let v := ((s.stripe? r.stripe).map (·.version)).getD 0
  let s := s.updSwarm fun w => { w with assigns := w.assigns ++ [{ hdr := hdr, stripe := r.stripe, position := r.filled - 1, version := v, left := s.litHolders r }] }
  s.settleAssigns.checkParity

/-- SEAL_NOTICE at a leader (R211): placed, or refused by name. -/
def State.onSealNotice (s : State) (hdr : MsgHdr) (region : RegionIx) (seg : Fin 16) (band : Nat) : State :=
  let code := 0x10
  match s.ownGroup, s.memberEntry hdr.peer, s.ownEntry with
  | some gd, some from_, some me =>
    if from_.group ≠ gd.group then s.nak hdr nakWrongGroup code
    else if s.readOnlyNow || s.swarm.leadClosed || me.state != .active || from_.state != .active then s.nak hdr nakDeclined code
    else match oldestStripe (s.openStripes.filter fun r => s.fits r hdr.peer) with
      | some r => s.assignPosition hdr r
      | none =>
        if 64 ≤ s.openStripes.length then s.nak hdr nakBusy code
        else
          let seq := s.swarm.stripeSeq
          let x := seq * 16384 + s.actingMember
          match s.chooseHolders x hdr.peer gd.m with
          | none => s.nak hdr nakNoPlacement code
          | some hs =>
            if s.tableFull x then s.nak hdr nakDeclined code
            else if !s.stripeReserved then
              s.reserveStripes.updSwarm fun w => { w with seqWaits := w.seqWaits ++ [(hdr, .sealNotice region seg band)] }
            else
              let s := s.updSwarm fun w => { w with stripeSeq := seq + 1, leadClosed := w.leadClosed || decide (lastStripeSeq ≤ seq + 1) }
              let s := if lastStripeSeq ≤ seq + 1 then s.raise 420 else s
              s.assignPosition hdr {
                stripe := x, k := gd.k, m := gd.m, state := .opened, filled := 0, group := gd.group, epoch := s.epoch,
                opened := s.keeper.tk.opsec.toNat % 2 ^ 32, mypos := 0, applying := none, newthru := 0,
                holders := hs.map (fun c => HolderPos.mk c false), data := [], cur := none, new := none, version := 0 }
  | _, _, _ => s.nak hdr nakWrongGroup code

/-- A refused position stays empty, and settled (R233). -/
def State.emptyPosition (s : State) (stripe position : Nat) : State :=
  match s.stripe? stripe with
  | none => s
  | some r =>
    let s := s.replicate (setPos r position fun d => { d with retracted := true })
    s.advanceStripe stripe

/-- A holder declined its record before any contribution reached it: the next candidate takes its index (R210). -/
def State.replaceHolder (s : State) (stripe member : Nat) : State :=
  match s.stripe? stripe with
  | none => s
  | some r => match s.holderAfter r member, r.holders.findIdx? fun h => h.member == member with
    | some c, some i => s.replicate (setHolder r i fun h => { h with member := c, acked := false })
    | _, _ => s

/-! Records at a holder (R217, R230, R266). -/

/-- What a holder makes of a received version: its own run, index and bits stay (R220, R258). -/
def mergeRecord (old : StripeRec) (m : StripeRec) (i : Nat) : StripeRec :=
  { m with
    mypos := i, applying := old.applying, newthru := old.newthru, cur := old.cur, new := old.new,
    state := if m.state = .opened then .opened else if old.state = .complete then .complete else .closed,
    data := m.data.zipIdx.map fun x => match old.data[x.2]? with
      | some d => { member := x.1.member, applied := d.applied, retracted := d.retracted || (x.1.retracted && !d.applied) }
      | none => { member := x.1.member, applied := false, retracted := x.1.retracted } }

/-- A push of the leaving member's parity to the holder that replaces it (R230 step 3). -/
def State.pushParity (s : State) (r : StripeRec) (i : Nat) (dest : Nat) : State :=
  let p := s.newHdr dest
  let m := LMsg.rebuildData r.stripe 1 i 0 262144 true true false [] (some r)
  (p.1.updSwarm fun w => { w with waits := w.waits ++ [{ hdr := p.2, msg := m }] }).sendDurable (s.stripeRegion r.stripe) p.2 m false

/-- STRIPE_RECORD (R217, R266): made durable and acknowledged, or refused DECLINED. -/
def State.onStripeRecord (s : State) (hdr : MsgHdr) (restore : Bool) (m : StripeRec) : State :=
  let ack (s : State) (v : Nat) : State := s.sendDurable (s.stripeRegion m.stripe) hdr (.stripeRecordAck m.stripe v) true
  match s.stripe? m.stripe with
  | some old =>
    if m.version < old.version then ack s old.version
    else if restore then
      let s := if old.version < m.version then s.putStripe { mergeRecord old m 0 with state := m.state } else s
      (ack s m.version).advanceStripe m.stripe
    else
      let s := s.putStripe (mergeRecord old m m.mypos)
      let s := (ack s m.version).advanceStripe m.stripe
      -- A leaving holder that the version replaces sends its parity on.
      match m.holders[old.mypos]? with
      | some h => if h.member != s.actingMember && s.isLit h.member
          then s.pushParity old old.mypos h.member else s
      | none => s
  | none =>
    let leaving := (s.ownEntry.map fun e => e.state == .leaving).getD false
    if !restore && (s.readOnlyNow || s.tableFull m.stripe || leaving) then s.nak hdr nakDeclined 0x12
    else
      let blank := { m with data := [], cur := none, new := none, applying := none, newthru := 0 }
      let s := s.putStripe (mergeRecord blank m (if restore then 0 else m.mypos))
      ((ack s m.version).advanceStripe m.stripe).checkParity

/-- STRIPE_RECORD_ACK at the leader. -/
def State.onStripeAck (s : State) (hdr : MsgHdr) (stripe version : Nat) : State :=
  let s := s.answeredBy hdr
  match s.stripe? stripe with
  | none => s
  | some r =>
    let member := hdr.peer
    if r.version ≠ version then s else
    let s := s.putStripe { r with holders := r.holders.map fun h => if h.member == member then { h with acked := true } else h }
    (s.assignFreed stripe member).backlogFell

/-! Contributions and retracts at a holder (R217, R219, R224, R261). -/

def State.rxRun? (s : State) (stripe : Nat) : Option RxRun := s.swarm.rxRuns.find? fun x => x.stripe == stripe
def State.dropRx (s : State) (stripe : Nat) : State := s.updSwarm fun w => { w with rxRuns := w.rxRuns.filter fun x => x.stripe != stripe }
/-- The NEW run is abandoned and counted invalid (R219). -/
def State.abandonRun (s : State) (stripe : Nat) : State :=
  let s := s.dropRx stripe
  match s.stripe? stripe with
  | some r => if r.applying.isSome then (s.putStripe { r with applying := none, newthru := 0, new := none }).advanceStripe stripe else s
  | none => s

/-- The adopter has not yet restored its parity of the stripe (R233). -/
def State.unrestored (s : State) (r : StripeRec) : Bool := match s.swarm.adopted with
  | some (_, false) => r.cur.isNone && !(r.data.any (·.applied))
  | _ => false

/-- Payloads of a contribution or retract arrive (R219, R258). `type` is the message type for a refusal. -/
def State.takePayload (s : State) (hdr : MsgHdr) (type stripe position index first count : Nat) (isRetract : Bool) : State :=
  match s.stripe? stripe with
  | none => s.nak hdr nakNoRecord type
  | some r => match r.data[position]? with
    | none => s.nak hdr nakNoRecord type
    | some d =>
      if r.mypos ≠ index || s.unrestored r then s.nak hdr nakNoRecord type
      else if count = 0 ∨ 2 < count ∨ 262144 < first + count then (s.raise 421).nak hdr nakMalformed type
      else if (!isRetract && (d.applied || d.retracted)) || (isRetract && (d.retracted || !d.applied)) then s
      else if first = 0 then
        let busy : Bool := match r.applying with
          | some a => a != (position, isRetract)
          | none => false
        if busy then s.nak hdr nakBusy type
        else
          let g := s.stripeRegion stripe
          match s.takeRun g (if isRetract then .retractAccum else .accumulation) .slc with
          | (s, none) => s.nak hdr nakBusy type
          | (s, some n) =>
            let s := s.putStripe { r with state := if r.state = .complete then .closed else r.state, applying := some (position, isRetract), newthru := 0, new := some n }
            ((s.dropRx stripe).updSwarm fun w => { w with rxRuns := w.rxRuns ++ [{ stripe := stripe, hdr := hdr, next := count }] }).checkParity
      else match s.rxRun? stripe with
        | some x =>
          if x.hdr ≠ hdr then s.nak hdr nakBusy type
          else if x.next ≠ first then ((s.raise 421).abandonRun stripe).nak hdr nakMalformed type
          else
            let s := s.updSwarm fun w => { w with rxRuns := w.rxRuns.map fun y => if y.stripe == stripe then { y with next := first + count } else y }
            let n := (first + count) / 4096
            if n = r.newthru then s else s.putStripe { r with newthru := n }
        | none => (s.raise 421).nak hdr nakMalformed type

/-- The whole run is programmed and its CRC agrees. -/
def State.runWhole (s : State) (hdr : MsgHdr) (stripe : Nat) (crcOk : Bool) : Bool := match s.rxRun? stripe with
  | some x => x.hdr == hdr && x.next == 262144 && crcOk
  | none => false

/-- The switch of CUR to NEW with the position's bit (R219 step 3). -/
def State.switchRun (s : State) (r : StripeRec) (position : Nat) (isRetract : Bool) : State :=
  let r := setPos r position fun d => if isRetract then { d with retracted := true } else { d with applied := true }
  ((s.putStripe { r with cur := r.new, new := none, applying := none, newthru := 0 }).dropRx r.stripe).advanceStripe r.stripe

/-- CONTRIB_DONE (R219). -/
def State.onContribDone (s : State) (hdr : MsgHdr) (stripe position index : Nat) (crcOk : Bool) : State :=
  let ack (s : State) : State := s.sendDurable (s.stripeRegion stripe) hdr (.contribDone stripe position index true) true
  match s.stripe? stripe with
  | none => s.nak hdr nakNoRecord 0x21
  | some r => match r.data[position]? with
    | none => s.nak hdr nakNoRecord 0x21
    | some d =>
      if d.applied || d.retracted then ack s
      else if r.mypos ≠ index || s.unrestored r then s.nak hdr nakNoRecord 0x21
      else if s.runWhole hdr stripe crcOk && r.applying == some (position, false) then ack (s.switchRun r position false)
      else if (r.applying.map (·.1 != position)).getD false then s.nak hdr nakBusy 0x21
      else (s.abandonRun stripe).nak hdr nakCheckFail 0x21

/-- RETRACT at a holder (R224, R225, R258, R261). -/
def State.onRetract (s : State) (hdr : MsgHdr) (stripe position index first count : Nat) (neverSent release last behalf crcOk : Bool) : State :=
  let ack (s : State) : State := s.sendDurable (s.stripeRegion stripe) hdr (.retract stripe position index 0 0 neverSent release true behalf true 0) true
  match s.stripe? stripe with
  | none => s.nak hdr nakNoRecord 0x22
  | some r => match r.data[position]? with
    | none => s.nak hdr nakNoRecord 0x22
    | some d =>
      if neverSent || release then
        let s := if (r.applying.map (·.1 == position)).getD false then s.abandonRun stripe else s
        match s.stripe? stripe with
        | none => ack s
        | some r =>
          let s := if d.retracted then s else s.putStripe (setPos r position fun d => { d with retracted := true })
          ack (s.advanceStripe stripe)
      else if d.retracted || !d.applied then (if last then ack s else s)
      else if !last then s.takePayload hdr 0x22 stripe position index first count true
      else if s.runWhole hdr stripe crcOk && r.applying == some (position, true) then ack (s.switchRun r position true)
      else if (r.applying.map (·.1 != position)).getD false then s.nak hdr nakBusy 0x22
      else (s.abandonRun stripe).nak hdr nakCheckFail 0x22

/-! Solving a row (R260). -/

/-- A row cannot be solved, or its frame fails its CRC. -/
def rowLost (sought : Nat) (x : RowFacts) : Bool :=
  let u := (sought :: x.unknown).eraseDups
  let usable := x.parity.filter fun p => u.all p.2.contains
  decide (usable.length < u.length) || x.crcFails

end Sys2Proof.Machine
end

