-- ==== Sys2Proof/Machine/Rebuild.lean ====
section
/-! DEFINITION. Rebuild and adoption: serving reads, tasks, pushes, restore (R259 to R271), leaving (R230). -/

namespace Sys2Proof.Machine

/-- Stripes about which members have been asked (R262). -/
def State.questions (s : State) (p : Nat → Bool) : List Nat := (s.swarm.waits.filterMap fun q => match q.msg with
  | .rebuildRead st .. => if p q.hdr.peer then some st else none
  | _ => none).eraseDups

/-! Serving (R259, R262). -/

/-- The segment that a data position of a stripe names at this member. -/
def State.segmentAt (s : State) (stripe position : Nat) : Option (RegionIx × SegEntry) :=
  (List.finRange 4).findSome? fun g => ((s.regions[g]).tab.segs.find? fun e =>
    e.stripe == stripe && e.position == position && (e.state == .assigned || e.state == .retracting || e.state == .withdrawn)).map fun e => (g, e)

/-- The granule that holds a frame index of a band. -/
def State.granAt (s : State) (g : RegionIx) (b frame : Nat) : Option Nat := match s.geo? g with
  | none => none
  | some geo =>
    let x := s.band g b
    let f := s.rowFrames g x.density
    (x.placed.find? fun pl => (List.range 16).any fun k => slotFrame geo b f (pl.slot + k) == frame).map (·.gran)

/-- Frames delivered at step 5 are relocated (R168, R259). -/
def State.relocateFrames (s : State) (g : RegionIx) (e : SegEntry) (slots : List Nat) : State :=
  slots.foldl (fun s n => match s.granAt g e.band (e.seg * 262144 + n) with
    | some gran => s.relocateSoon (s.server gran) gran
    | none => s) s

/-- REBUILD_READ (R259, R262). -/
def State.onRebuildRead (s : State) (hdr : MsgHdr) (stripe what index first count : Nat) (rows : List RowFacts) (stepFive : List Nat) : State :=
  let data (s : State) (bad : List Nat) (r : Option StripeRec) : State := s.answer hdr (.rebuildData stripe what index first count true false true bad r)
  let erased := (rows.filter fun x => x.unknown.contains index).map (·.slot)
  if 3 < what ∨ (what ≠ 2 ∧ (count = 0 ∨ 262144 < first + count)) then (s.raise 421).nak hdr nakMalformed 0x30
  else if what = 0 then match s.segmentAt stripe index with
    | some (g, e) =>
      if !s.framesLoaded g e.band e.seg first count then
        s.updSwarm fun w => { w with loadWaits := w.loadWaits ++ [(hdr, .rebuildRead stripe what index first count rows stepFive)] }
      else data (s.relocateFrames g e stepFive) erased none
    | none => s.nak hdr nakNotHeld 0x30
  else match s.stripe? stripe with
    | none => s.nak hdr nakNotHeld 0x30
    | some r =>
      if what = 1 then (if r.mypos = index then data s erased none else s.nak hdr nakNotHeld 0x30)
      else if what = 2 then data s [] (some r)
      else if !s.leads r then s.nak hdr nakNotHeld 0x30
      else
        let lost := (rows.filter (rowLost index)).map (·.slot)
        data (if lost.isEmpty then s else s.raise 416) lost none

/-! Tasks of a leader (R263 to R265, R268). -/

/-- LOST, or not in the table (R231, R263). -/
def deadIn (t : MemTable) (c : Nat) : Bool := match entryFor t c with
  | some e => e.state == .lost
  | none => true
def State.dead (s : State) (c : Nat) : Bool := (s.swarm.applied.map fun t => deadIn t c).getD true
def State.adopterOf (s : State) (c : Nat) : Option Nat := (s.memberEntry c).bind (·.adopter)

/-- Holders that survive and have acknowledged the record: the protection that is left (R227, R265). -/
def State.protection (s : State) (stripe : Nat) : Nat := match s.stripe? stripe with
  | some r => (r.holders.filter fun h => h.acked && !s.dead h.member).length
  | none => 0
/-- Place of a task in the order of R265. -/
def State.taskRank (s : State) (t : RebuildTask) : Nat × Nat :=
  (if s.protection t.stripe ≤ 1 then 0 else if !t.data then 1 else 2, t.stripe)

/-- Task of a lost data position (R263): the push goes to the adopter, which answers under the lost member ID. -/
def State.dataTasks (s : State) (r : StripeRec) : List RebuildTask :=
  ((r.data.take r.filled).zipIdx.filter fun x => s.dead x.1.member && !x.1.retracted).map fun x =>
    { stripe := r.stripe, data := true, index := x.2, target := if (s.adopterOf x.1.member).isSome then some x.1.member else none,
      running := false, refused := none, aside := false, done := false, lostRows := [] }

/-- Task of a parity index. -/
def parityTask (stripe i : Nat) (target : Option Nat) : RebuildTask :=
  { stripe := stripe, data := false, index := i, target := target, running := false, refused := none, aside := false, done := false, lostRows := [] }

/-- The tasks of one stripe that the package leads: a lost holder keeps its index through its adopter, or gives it to a replacement. -/
def State.stripeTasks (s : State) (old : Option MemTable) (stripe : Nat) : State :=
  match s.stripe? stripe with
  | none => s
  | some r0 =>
    let s := s.updSwarm fun w => { w with tasks := w.tasks ++ s.dataTasks r0 }
    (List.range r0.holders.length).foldl (fun s i =>
      match s.stripe? stripe with
      | none => s
      | some r => match r.holders[i]? with
        | none => s
        | some h =>
          if i = 0 ∨ s.dead h.member = false then s
          else if (s.adopterOf h.member).isSome then
            let fresh := !((old.map fun t => deadIn t h.member).getD false)
            if h.acked && !fresh then s else
            let s := s.putStripe (setHolder r i fun x => { x with acked := false })
            s.updSwarm fun w => { w with tasks := w.tasks ++ [parityTask stripe i (some h.member)] }
          else
            let next := s.nextHolder r
            let s := match next with
              | some c => s.replicate (setHolder r i fun x => { x with member := c, acked := false })
              | none => s
            s.updSwarm fun w => { w with tasks := w.tasks ++ [parityTask stripe i next] }) s

/-- Build the rebuild list (R263, R274). -/
def State.buildTasks (s : State) (old : Option MemTable) : State :=
  let s := s.updSwarm fun w => { w with tasks := [] }
  let s := ((s.allStripes.filter s.leads).map (·.stripe)).foldl (fun s n => s.stripeTasks old n) s
  if s.swarm.tasks.isEmpty then s else s.raise 413

/-- The list is finished (R265): Rebuild complete. -/
def State.checkTasks (s : State) : State :=
  if !s.swarm.tasks.isEmpty && s.swarm.tasks.all (·.done) then (s.updSwarm fun w => { w with tasks := [] }).raise 415 else s

def sameTask (a b : RebuildTask) : Bool := a.stripe == b.stripe && a.data == b.data && a.index == b.index
def State.updTask (s : State) (t : RebuildTask) (f : RebuildTask → RebuildTask) : State :=
  s.updSwarm fun w => { w with tasks := w.tasks.map fun x => if sameTask x t then f x else x }

/-- Retract on behalf of a lost member (R268): every remote holder, then the leader's own parity. Lost rows cannot be retracted: the
stripe is released when the position is the last. -/
def State.retractBehalf (s : State) (t : RebuildTask) : State :=
  let s := s.updTask t fun x => { x with running := false, done := true }
  match s.stripe? t.stripe with
  | none => s.checkTasks
  | some r =>
    let last := (r.data.take r.filled).zipIdx.all fun x => x.2 == t.index || x.1.retracted
    let release := !t.lostRows.isEmpty
    if release && !last then s.checkTasks else
    let g := s.stripeRegion t.stripe
    let s := (r.holders.zipIdx.filter fun x => x.1.member != s.actingMember).foldl (fun s x =>
      let p := s.newHdr x.1.member
      let k := stripeCoef x.2 t.index
      let m := if release then LMsg.retract t.stripe t.index x.2 0 0 false true true true false 0
               else LMsg.retract t.stripe t.index x.2 262144 0 false false true true false k
      let s := if release then p.1 else p.1.sendDurable g p.2 (.contribRun t.stripe t.index x.2 k) false
      (s.updSwarm fun w => { w with waits := w.waits ++ [{ hdr := p.2, msg := m }] }).sendDurable g p.2 m false) s
    let s := s.putStripe (setPos r t.index fun d => { d with retracted := true })
    (s.advanceStripe t.stripe).checkTasks

/-- Send the push of a task (R263, R265). -/
def State.sendPush (s : State) (t : RebuildTask) (dest : Nat) : State :=
  let p := s.newHdr dest
  let r := if t.data then none else s.stripe? t.stripe
  let m := LMsg.rebuildData t.stripe (if t.data then 0 else 1) t.index 0 262144 true true false t.lostRows r
  let s := p.1.updTask t fun x => { x with running := true, refused := none, aside := false }
  (s.updSwarm fun w => { w with waits := w.waits ++ [{ hdr := p.2, msg := m }] }).sendDurable (s.stripeRegion t.stripe) p.2 m false

/-- The first task that may start (R265). -/
def State.nextTask (s : State) : Option RebuildTask :=
  let ready := s.swarm.tasks.filter fun t => !t.running && !t.done && !t.aside && t.refused.isNone
  let less (a b : RebuildTask) : Bool :=
    let x := s.taskRank a
    let y := s.taskRank b
    decide (x.1 < y.1) || (x.1 == y.1 && decide (x.2 ≤ y.2))
  (sortBy less ready).head?

/-- REBUILD_TASK_START (R263 to R265, R272). `dark`: a needed member that is dark. `applied`: A_i of the holder over which the adopter
recomputes its own P_0 (R264, R266). -/
def execRebuildTaskStart (rows : List RowFacts) (dark : Option Nat) (applied : List Nat) (s : State) : Out :=
  if s.swarm.fenced || !s.backgroundOk || decide (4 ≤ (s.swarm.tasks.filter (·.running)).length) then unchanged s else
  match s.nextTask with
  | none => unchanged s
  | some t => match dark with
    | some c => .next ((s.updTask t fun x => { x with aside := true }).postLight c 1)
    | none =>
      let lost := if t.data then (rows.filter (rowLost t.index)).map (·.slot) else []
      let s := if lost.isEmpty then s else s.raise 416
      let t := { t with lostRows := lost }
      let s := s.updTask t fun x => { x with lostRows := lost }
      match t.target with
      | some c => .next (if s.isLit c then s.sendPush t c else s.updTask t fun x => { x with aside := true })
      | none =>
        if t.data then .next (s.retractBehalf t)
        else if t.index ≠ 0 then .next (s.updTask t fun x => { x with aside := true })
        else match s.stripe? t.stripe with
          | none => .next ((s.updTask t fun x => { x with done := true }).checkTasks)
          | some r => match s.takeRun (s.stripeRegion t.stripe) .accumulation .slc with
            | (s, none) => .next s
            | (s, some n) =>
              let r := { r with cur := some n, data := r.data.zipIdx.map fun x => { x.1 with applied := applied.contains x.2 } }
              .next (((s.putStripe r).updTask t fun x => { x with done := true }).advanceStripe t.stripe).checkTasks

/-- PUSH_BUSY_RETRY (R265): 1 s after a push was refused BUSY. -/
def State.offerPush (s : State) (reason stripe : Nat) (data : Bool) (index : Nat) : State :=
  match s.swarm.tasks.find? fun t => t.stripe == stripe && t.data == data && t.index == index && t.refused == some reason with
  | none => s
  | some t => match t.target with
    | some c => if s.isLit c then s.sendPush t c else s.updTask t fun x => { x with refused := none, aside := true }
    | none => s
def execPushBusyRetry (stripe : Nat) (data : Bool) (index : Nat) (s : State) : Out := .next (s.offerPush nakBusy stripe data index)
/-- PUSH_NO_NAMESPACE_RETRY (R271): 60 s after NO_NAMESPACE. -/
def execPushNoNamespaceRetry (stripe : Nat) (data : Bool) (index : Nat) (s : State) : Out := .next (s.offerPush nakNoNamespace stripe data index)

/-! Leaving (R230). -/

/-- LEAVE_DONE: every segment retracted and every parity segment sent on, or pending only for dark members. -/
def State.checkLeave (s : State) : State :=
  if !((s.ownEntry.map fun e => e.state == .leaving).getD false) then s else
  let segs := (List.finRange 4).all fun g => (s.regions[g]).tab.segs.all fun e =>
    e.state == .unstriped || e.state == .retracted || e.state == .sealed ||
      (e.state == .retracting && (s.swarm.work.filter fun w => w.region == g && w.band == e.band && w.seg == e.seg).all (·.deferred))
  let held := s.allStripes.all fun r => match r.holders[r.mypos]? with
    | some h => h.member != s.actingMember && !s.isLit h.member
    | none => false
  s.updSwarm fun w => { w with leaveDone := segs && held }

/-! The adopter (R266 to R271). -/

/-- Namespaces reported Inaccessible change (R206, R270, R279). -/
def State.setInaccessible (s : State) (l : List Nat) : State :=
  if s.sub.inaccessible = l then s else (s.updSub fun q => { q with inaccessible := l, anaChanges := q.anaChanges + 1 }).postAsync .anaChange

/-- The version of a granule that restore has placed: mapped in a restore band, or placed there and not yet mapped. None where the entry
holds no restored version, with whether it may still take one (R269). -/
def State.restoredSeq (s : State) (gran : Nat) : Option Nat × Bool :=
  let g := s.server gran
  let e := s.entryOf gran
  match (s.regions[g]).pend.find? fun u => u.gran == gran && u.at_.isSome with
  | some u => (some u.seq, true)
  | none =>
    if e.state = .never then (none, true)
    else if e.state ≠ .mapped then (none, false)
    else
      let x := s.band g e.band.toNat
      if x.use ≠ .restore then (none, false)
      else ((x.placed.find? fun pl => pl.gran == gran && pl.frame == e.frame.toNat).map (·.seq), true)

/-- A pushed granule is placed in a restore band and maps when its program reports OK (R267, R269). -/
def State.restoreGran (s : State) (p : PushGran) : State :=
  let v := s.restoredSeq p.gran
  if !v.2 || (v.1.map fun q => decide (p.seq ≤ q)).getD false then s else
  let g := s.server p.gran
  match s.bandFor g .restore (s.targetOf p.nsid) 0xFF with
  | (s, none) => s
  | (s, some b) =>
    let units : Vector Unit4K 16 := p.units.map fun u => match u with
      | some n => { plain := n, key := p.key, poisoned := false }
      | none => { plain := 0, key := p.key, poisoned := true }
    let mk (slot frame : Nat) : Placed := Placed.mk p.gran p.nsid p.stream p.seq slot frame p.wtime p.wtemp units true none
    match s.placeIn g b mk with
    | (s, none) => s
    | (s, some pl) =>
      let upd : PendUpd := { gran := p.gran, nsid := p.nsid, stream := p.stream, kind := .write (units.map some), seq := p.seq, encrypted := true, cipher := none, win := none, at_ := some (b, pl.frame) }
      s.updRegion g fun r => { r with pend := (r.pend.filter fun u => u.gran != p.gran) ++ [upd] }

/-- Restore ends (R270): every ACTIVE member of the group has sent a clear REBUILD_PENDING, and no push is open. Each region resumes its
sequence above what it restored (R267). -/
def State.checkRestored (s : State) : State := match s.swarm.adopted with
  | some (c, false) =>
    let clear := s.groupActive.all fun e => (s.peer e.member).rebuildClear
    if !clear || !s.swarm.openPushes.isEmpty || s.nsids.isEmpty then s
    else
      let s := s.updSwarm fun w => { w with adopted := some (c, true) }
      let s := (List.finRange 4).foldl (fun s g => s.updTab g fun t =>
        let top := ((t.bands.filter fun x => x.use == .restore).flatMap fun x => x.placed.map (·.seq)).foldl max 0
        { t with nextSeq := max t.nextSeq (if top = 0 then 0 else top + 1) }) s
      (s.raise 415).setInaccessible []
  | _ => s

/-- A push (R265 to R271): BUSY beyond 256, NO_NAMESPACE for an NSID that the record lacks; answered once all is durable. -/
def State.onPush (s : State) (hdr : MsgHdr) (stripe what index first count : Nat) (last crcOk : Bool) (record : Option StripeRec) (grans : List PushGran) : State :=
  let open? := s.swarm.openPushes.find? fun x => x.1 == hdr
  let next := (open?.map (·.2)).getD 0
  let drop (s : State) : State := s.updSwarm fun w => { w with openPushes := w.openPushes.filter fun x => x.1 != hdr }
  if open?.isNone && decide (256 ≤ s.swarm.openPushes.length) then s.nak hdr nakBusy 0x31
  else if first ≠ next ∧ count ≠ 0 then ((s.raise 421).nak hdr nakMalformed 0x31) |> drop
  else if grans.any fun p => !s.nsids.contains p.nsid then (s.nak hdr nakNoNamespace 0x31) |> drop
  else if what = 0 ∧ s.swarm.adopted.isNone = true then (s.nak hdr nakNotHeld 0x31) |> drop
  else if what = 1 ∧ (s.stripe? stripe).isNone = true then (s.nak hdr nakNoRecord 0x31) |> drop
  else
    let s := (drop s).updSwarm fun w => { w with openPushes := w.openPushes ++ [(hdr, first + count)] }
    let s := if what = 0 then grans.foldl State.restoreGran s else s
    if !last then s
    else if !crcOk then (s.nak hdr nakCheckFail 0x31) |> drop
    else
      let s := drop s
      let s := if what = 1 then match s.stripe? stripe with
          | none => s
          | some r =>
            -- The run becomes CUR, and A_0 the applied set (R264, R267); a leaving member's bits come with its parity (R230).
            match s.takeRun (s.stripeRegion stripe) .accumulation .slc with
            | (s, none) => s
            | (s, some n) =>
              let src := (record.map (·.data)).getD []
              let r := { r with
                cur := some n,
                data := r.data.zipIdx.map fun x => match src[x.2]? with
                  | some d => DataPos.mk x.1.member d.applied d.retracted
                  | none => x.1 }
              (s.putStripe r).advanceStripe stripe
        else s
      let s := s.updSwarm fun w => { w with pushes := w.pushes + 1 }
      let s := if s.swarm.pushes % 4096 = 0 then s.raise 414 else s
      let g := s.stripeRegion stripe
      (s.sendDurable g hdr (.rebuildData stripe what index 0 0 true true true [] none) true).checkRestored

/-- The package is the only position of a stripe left that is not retracted, so far as a record that it holds or was returned shows: it may release
(R225). -/
def State.onlyLeft (s : State) (w : SegWork) : Bool := match (s.stripe? w.stripe).or (s.swarm.seen.find? fun r => r.stripe == w.stripe) with
  | some r => (r.data.take r.filled).zipIdx.all fun x => x.2 == w.position || x.1.retracted
  | none => false

/-- A retract blocked by an unreadable frame is tried again, as a release where no other position is left (R225). -/
def State.retryBlocked (s : State) (w : SegWork) : State :=
  let s := s.updBand w.region w.band fun b => { b with hold := if b.hold = some 2 then none else b.hold }
  s.startWork (if s.onlyLeft w then { w with item := .release } else w)

/-- The record of a stripe has been returned: climbs go on, and a blocked retract may release. -/
def State.takeRecord (s : State) (r : StripeRec) : State :=
  let s := s.recordSeen r
  (s.swarm.work.filter fun w => w.stripe == r.stripe && w.refused == some 0 && s.onlyLeft w).foldl State.retryBlocked s

/-- REBUILD_DATA that answers a push (R265, R268, R230), or a read of this member (R262). -/
def State.onRebuildReply (s : State) (hdr : MsgHdr) (stripe what index first : Nat) (bad : List Nat) (record : Option StripeRec) : State :=
  match s.waitOf hdr with
  | none => s
  | some _ =>
    let s := s.answeredBy hdr
    if what = 3 then s.sixAnswered stripe index first (!bad.contains first)
    else if what = 2 then (match record with
      | some r => s.takeRecord r
      | none => s.sixRefused stripe (some hdr.peer))
    else match s.swarm.tasks.find? fun t => t.stripe == stripe && t.data == (what == 0) && t.index == index && t.running with
    | some t =>
      if t.data then s.retractBehalf t
      else
        let s := match s.stripe? stripe with
          | some r => s.putStripe (setHolder r index fun h => { h with acked := true })
          | none => s
        (s.updTask t fun x => { x with running := false, done := true }).checkTasks
    | none => match s.stripe? stripe with
      -- A leaving member's parity has reached its replacement.
      | some r => if what = 1 ∧ r.mypos = index ∧ ((r.holders[index]?).map (·.member)) ≠ some s.actingMember then (s.freeStripe stripe).checkLeave else s
      | none => s

/-- A read of this member, whose answer may be asked for again (R258). -/
def rereads : LMsg → Bool
  | .rebuildRead .. => true
  | _ => false

/-- REBUILD_DATA (R258, R262, R267, R269). -/
def State.onRebuildData (s : State) (hdr : MsgHdr) (stripe what index first count : Nat) (last push reply crcOk : Bool) (bad : List Nat)
    (record : Option StripeRec) (grans : List PushGran) : State :=
  if reply then
    (if !last then s
    -- An answer that fails its CRC is asked for again.
    else match s.waitOf hdr with
      | some q => if !crcOk && rereads q.msg then
          let p := (s.answeredBy hdr).newHdr hdr.peer
          p.1.request (p.1.sendDie (p.1.stripeRegion stripe)) p.2 q.msg
        else s.onRebuildReply hdr stripe what index first bad record
      | none => s)
  else if !push then (s.raise 421).nak hdr nakMalformed 0x31
  else s.onPush hdr stripe what index first count last crcOk record grans

end Sys2Proof.Machine
end

