-- ==== Sys2Proof/Machine/Epoch.lean ====
section
/-! DEFINITION. Epochs and the messages of swarm operations: applying a table, receiving, and the answers at their originators (R203 to
R206, R209, R213, R217, R224 to R231, R256, R263, R266, R272). -/

namespace Sys2Proof.Machine

/-! Answers at the data member. -/

/-- The band of a segment has entered reclamation (R163, R233). -/
def State.underReclaim (s : State) (g : RegionIx) (b : Nat) : Bool :=
  (s.regions[g]).slots.toList.any (fun q => (q.map (·.band)) == some b) || (s.band g b).mappedRec || (s.band g b).intent || (s.band g b).phase != .closed

/-- SLOT_ASSIGN (R209, R216, R233): the first one is kept; its contributions begin once SEG_STATE ASSIGNED is durable. -/
def State.onSlotAssign (s : State) (hdr : MsgHdr) (stripe position m : Nat) (holders : List Nat) : State :=
  let s := s.answeredBy hdr
  let refuse (s : State) (reason : Nat) : State := s.send hdr (.nak reason 0x11 0)
  match s.swarm.notices.find? fun n => n.opids.contains hdr.opid with
  | none => refuse s nakWithdrawn
  | some n =>
    let e := s.seg n.region n.band n.seg.val
    if e.state ≠ .sealed ∧ e.state ≠ .noticed then refuse s (if e.state = .unstriped then nakWithdrawn else nakDuplicate)
    else if s.underReclaim n.region n.band then
      refuse ((s.updSeg n.region n.band n.seg.val fun e => { e with state := .unstriped, stripe := 0 }).dropNotice n.region n.band n.seg) nakWithdrawn
    else
      let hs := holders.take m
      let s := s.updSeg n.region n.band n.seg.val fun e => { e with state := .assigned, stripe := stripe, position := position, done := 0, retracted := 0 }
      let s := s.updSwarm fun w => { w with holderMap := (stripe, hs) :: w.holderMap.filter fun x => x.1 != stripe }
      hs.zipIdx.foldl (fun s x => s.startWork
        { region := n.region, band := n.band, seg := n.seg.val, stripe := stripe, position := position, index := x.2, holder := x.1,
          item := .contrib, running := false, refused := none, deferred := false }) s

/-- A bit of a segment entry. -/
def setBit4 (v : BitVec 4) (i : Nat) : BitVec 4 := v ||| BitVec.ofNat 4 (2 ^ i)

/-- CONTRIB_DONE with REPLY (R213): the DONE bit. -/
def State.onContribReply (s : State) (hdr : MsgHdr) (stripe position index : Nat) : State :=
  let s := s.answeredBy hdr
  match s.workOf stripe position index with
  | some w =>
    if w.item ≠ .contrib then s else
    let s := (s.endWork w).updSeg w.region w.band w.seg fun e => if e.stripe = stripe then { e with done := setBit4 e.done index } else e
    s.backlogFell
  | none => s

/-- RETRACT with REPLY (R224): the RETRACTED bit; with all M set the segment is RETRACTED. -/
def State.onRetractReply (s : State) (hdr : MsgHdr) (stripe position index : Nat) : State :=
  let s := s.answeredBy hdr
  match s.workOf stripe position index with
  | some w =>
    if w.item = .contrib then s else
    let m := (s.holdersOf stripe).length
    let s := (s.endWork w).updSeg w.region w.band w.seg fun e =>
      let r := setBit4 e.retracted index
      { e with retracted := r, state := if e.state = .retracting ∧ ((List.range m).all fun i => r.getLsbD i) = true then .retracted else e.state }
    (s.backlogFell.checkRetracted w.region w.band).checkLeave
  | none => s

/-! Segments after a start, and toward a leader that is dark (R209, R233). -/

/-- Repeat the notice of a segment to the leader that it names. -/
def State.repeatNotice (s : State) (n : Notice) : State :=
  let e := s.seg n.region n.band n.seg.val
  if e.state ≠ .noticed then s else
  let p := s.newHdr e.stripe
  let s := p.1.putNotice { n with opids := n.opids ++ [p.2.opid] }
  let m := LMsg.sealNotice n.region n.seg n.band
  (s.updSwarm fun w => { w with waits := w.waits ++ [{ hdr := p.2, msg := m }] }).sendDurable n.region p.2 m false

/-! NAK (R258). -/

/-- Start the operation of a request again under the current epoch, with a new identifier. -/
def State.restart (s : State) (q : PendReq) : State :=
  let again (s : State) : State :=
    let p := s.newHdr q.hdr.peer
    (p.1.updSwarm fun w => { w with waits := w.waits ++ [{ hdr := p.2, msg := q.msg }] }).send p.2 q.msg
  match q.msg with
  | .sealNotice g u b => match s.noticeOf g b u with
    | some n => s.repeatNotice n
    | none => s
  | .contribDone st pos i _ => match s.workOf st pos i with
    | some w => s.startWork w
    | none => s
  | .retract st pos i _ _ _ _ _ behalf _ _ => if behalf then again s else match s.workOf st pos i with
    | some w => s.startWork w
    | none => s
  | .stripeRecord _ r => match s.stripe? r.stripe with
    | some x => s.sendRecord x r.mypos
    | none => s
  | .rebuildData st what i _ _ _ true _ _ _ =>
    match s.swarm.tasks.find? fun t => t.stripe == st && t.data == (what == 0) && t.index == i with
    | some t => s.sendPush t q.hdr.peer
    | none => again s
  | _ => again s

/-- Mark the work or task of a request as refused. -/
def State.refusedWork (s : State) (q : PendReq) (reason : Nat) : State :=
  match q.msg with
  | .contribDone st pos i _ | .retract st pos i _ _ _ _ _ _ _ _ =>
    s.updSwarm fun w => { w with work := w.work.map fun x => if x.stripe == st && x.position == pos && x.index == i then { x with running := false, refused := some reason } else x }
  | .rebuildData st what i _ _ _ _ _ _ _ =>
    s.updSwarm fun w => { w with tasks := w.tasks.map fun t => if t.stripe == st && t.data == (what == 0) && t.index == i then { t with running := false, refused := some reason } else t }
  | _ => s

/-- A refusal reaches its originator. A NAK that refuses a SLOT_ASSIGN answers no request: the leader finds the assignment by its
operation (R233). -/
def State.onNak (s : State) (hdr : MsgHdr) (reason refused : Nat) : State :=
  if refused = 0x11 then
    match s.swarm.answered.find? fun a => a.1.peer == hdr.peer && a.1.opid == hdr.opid with
    | some (_, .slotAssign st pos _ _ _) => if reason = nakDuplicate ∨ reason = nakWithdrawn then s.emptyPosition st pos else s
    | _ => s
  else match s.waitOf hdr with
  | none => s
  | some q =>
    let s := s.answeredBy hdr
    if reason = nakStale then s.restart q
    else if reason = nakAhead then s.updSwarm fun w => { w with aheadRetry := w.aheadRetry ++ [q] }
    else match q.msg with
      | .sealNotice g u b => s.sendNotice g b u
      | .stripeRecord _ r => if reason = nakDeclined then s.replaceHolder r.stripe hdr.peer else s
      | .contribDone .. | .retract .. =>
        if reason = nakCheckFail ∨ reason = nakMalformed then s.restart q else s.refusedWork q reason
      | .rebuildData .. => if reason = nakCheckFail ∨ reason = nakMalformed then s.restart q else s.refusedWork q reason
      | .rebuildRead st 2 .. => s.sixRefused st (some hdr.peer)
      | .rebuildRead st 3 i f _ => if reason = nakNotHeld then s.sixRefused st none else s.sixAnswered st i f false
      | _ => s

/-! Receiving (R205, R244, R256). -/

/-- TYPE of a message (R257). -/
def rxType : RxBody → Nat
  | .sealNotice .. => 0x10 | .slotAssign .. => 0x11 | .stripeRecord .. => 0x12 | .stripeRecordAck .. => 0x13
  | .contribData .. => 0x20 | .contribDone .. | .contribDoneReply .. => 0x21 | .retract .. | .retractReply .. => 0x22
  | .rebuildRead .. => 0x30 | .rebuildData .. => 0x31
/-- Replies, which no epoch check sends back. -/
def rxReply : RxBody → Bool
  | .slotAssign .. | .stripeRecordAck .. | .contribDoneReply .. | .retractReply .. => true
  | .rebuildData _ _ _ _ _ _ _ reply _ _ _ _ => reply
  | _ => false

/-- Payload of an operation whose refusal has already gone out. -/
def rxPayload : RxBody → Bool
  | .contribData .. => true
  | .retract _ _ _ _ _ _ _ last _ _ => !last
  | .rebuildData _ _ _ _ _ last _ _ _ _ _ _ => !last
  | _ => false

/-- Act on a message of the current or trailing epoch. -/
def State.handle (s : State) (hdr : MsgHdr) : RxBody → State
  | .sealNotice g u b => s.onSealNotice hdr g u b
  | .slotAssign st pos m _ hs => s.onSlotAssign hdr st pos m hs
  | .stripeRecord restore r => s.onStripeRecord hdr restore r
  | .stripeRecordAck st v => s.onStripeAck hdr st v
  | .contribData st pos i f n => s.takePayload hdr 0x20 st pos i f n false
  | .contribDone st pos i ok => s.onContribDone hdr st pos i ok
  | .contribDoneReply st pos i => s.onContribReply hdr st pos i
  | .retract st pos i f n ns rel last beh ok => s.onRetract hdr st pos i f n ns rel last beh ok
  | .retractReply st pos i => s.onRetractReply hdr st pos i
  | .rebuildRead st what i f n rows five => s.onRebuildRead hdr st what i f n rows five
  | .rebuildData st what i f n last push reply ok bad rec' grans => s.onRebuildData hdr st what i f n last push reply ok bad rec' grans

/-- The package takes part: a table is applied, it is not fenced, and the sender has a session (R202, R206, R241); in PS3 and PS4 the package
is dark to its peers (R293). -/
def State.hears (s : State) (peer : Nat) : Bool :=
  s.swarm.applied.isSome && !s.swarm.fenced && !s.swarm.silent && decide (s.keeper.sup.ps < 3) && (s.session? peer).isSome

/-- A message of a swarm operation (R205): acted on, answered EPOCH_STALE, held, or refused EPOCH_AHEAD. An OPID already answered gets the
same answer again (R256). -/
def State.receive (s : State) (hdr : MsgHdr) (b : RxBody) : State :=
  if !s.hears hdr.peer then s
  else match (if rxReply b then none else s.swarm.answered.find? fun a => a.1.peer == hdr.peer && a.1.opid == hdr.opid) with
  | some a => if rxPayload b then s else s.send hdr a.2
  | none =>
    if hdr.epoch = s.epoch ∨ some hdr.epoch = s.swarm.trailing then s.handle hdr b
    else if hdr.epoch < s.epoch then (if rxReply b then s else s.nak hdr nakStale (rxType b))
    else if 256 ≤ (s.swarm.heldMsgs.filter fun x => x.1.peer == hdr.peer).length then s.nak hdr nakAhead (rxType b)
    else s.updSwarm fun w => { w with heldMsgs := w.heldMsgs ++ [(hdr, b)] }

/-! HELLO attempts (R247). -/

/-- The package's own certificate passes the checks of R246 at itself. -/
def State.ownCertOk (s : State) : Bool := match s.swarm.applied, s.identity.bind (·.cert), s.ownMember with
  | some t, some c, some me =>
    c.signed && c.swarmId == t.swarmId && decide (c.fromEpoch ≤ t.epoch) && decide (t.epoch ≤ c.toEpoch) &&
    c.member == me && ((entryFor t me).map fun e => e.state == .active || e.state == .spare || e.state == .leaving).getD false
  | _, _, _ => false

/-- The lowest session index in no use. -/
def State.freeIndex (s : State) : Nat :=
  let used := (s.swarm.sessions.flatMap fun x => x.ownId :: (x.old.map (·.1)).toList) ++ s.swarm.hellos.map (·.ownId)
  ((List.range (used.length + 1)).map (· + 1)).find? (fun n => !used.contains n) |>.getD (used.length + 1)

/-- Start an attempt: PHASE 1 goes out, with a fresh nonce and a fresh ephemeral key. -/
def State.startHello (s : State) (peer : Nat) (rekey : Bool) : State :=
  if !s.ownCertOk || s.swarm.fenced || s.swarm.silent || (s.swarm.hellos.any fun h => h.peer == peer) then s
  else
    let k := Config.helloScalar s.free
    let m := s.ownHello peer 1 0 s.freeIndex s.swarm.nextOpid (Config.helloNonce s.free) (some (publicKey k)) []
    let s : State := { s with free := s.free + 1 }
    s.updSwarm fun w => { w with
      hellos := w.hellos ++ [{ peer := peer, initiator := true, phase := 1, ownId := m.sessionId, peerId := 0, rekey := rekey, scalar := k, first := m,
                               second := none }],
      helloOut := w.helloOut ++ [m], nextOpid := w.nextOpid + 1, retryHello := w.retryHello.filter (· != peer) }

/-- Members to reach: every one listed, but the package itself and those lost without an adopter. -/
def State.startHellos (s : State) : State :=
  ((((s.swarm.applied.map (·.members)).getD []).filter fun e =>
    e.member != s.actingMember && some e.member != s.ownMember && s.survives e.member && (s.session? e.member).isNone && (e.addr0.isSome || e.addr1.isSome)).map (·.member)).foldl
    (fun s c => s.startHello c false) s

/-! Applying an epoch (R204, R206, R228 to R231, R263, R266). -/

/-- EPOCH_ANNOUNCE to every lit peer (R204). -/
def State.announce (s : State) (t : MemTable) : State :=
  ((s.swarm.sessions.filter (·.lit)).map (·.peer)).foldl (fun s c => let p := s.newHdr c; p.1.send p.2 (.epochAnnounce t.epoch t.headerHash)) s

/-- Fenced by the table: omitted or LOST (R206). -/
def fencedBy (t : MemTable) (own : Option Nat) : Bool := match own.bind (entryFor t) with
  | some e => e.state == .lost
  | none => true

/-- The table lifts a fence: it lists the package ACTIVE or SPARE (R206). -/
def liftedBy (t : MemTable) (own : Option Nat) : Bool := (own.bind (entryFor t)).any fun e => e.state == .active || e.state == .spare

/-- The fence: every swarm operation ends, and nothing but replies to HELLO goes out. -/
def State.setFence (s : State) (t : MemTable) : State :=
  if fencedBy t s.ownMember then
    let asked := s.questions fun _ => true
    let s := s.updSwarm fun w => { w with
      fenced := true, waits := [], gated := [], sessions := [], hellos := [], retryHello := [], heldMsgs := [], seqWaits := [], loadWaits := [], assigns := [],
      aheadRetry := [], rxRuns := [], tasks := [], openPushes := [], trailing := none,
      work := w.work.map fun x => { x with running := false } }
    let s := asked.foldl State.askAnew s
    s.setInaccessible s.nsids
  else if s.swarm.fenced && liftedBy t s.ownMember then (s.updSwarm fun w => { w with fenced := false }).setInaccessible [] else s

/-- Stripes whose lead passes to the package by the new table (R228): 410, and an open stripe closes short. -/
def State.takeOver (s : State) (before : List Nat) : State :=
  (s.allStripes.filter fun r => s.leads r && !before.contains r.stripe && decide (0 < r.mypos)).foldl (fun s r =>
    let s := s.raise 410
    if r.state = .opened then s.closeStripe r else s) s

/-- A SPARE named as adopter (R266, R270). -/
def State.startAdoption (s : State) (t : MemTable) : State :=
  match s.ownMember.bind fun me => t.members.find? fun e => e.state == .lost && e.adopter == some me with
  | none => s
  | some e =>
    if (s.swarm.adopted.map (·.1)) = some e.member then s else
    let s := (s.updSwarm fun w => { w with adopted := some (e.member, false), pushes := 0, openPushes := [] }).raise 417
    s.setInaccessible s.nsids

/-- A record of a stripe that a lost member led goes to its adopter (R266). -/
def State.sendRestores (s : State) (lost : Nat) : State :=
  if s.actingMember = lost ∨ s.isLit lost = false then s else
  (s.allStripes.filter fun r => leaderOf r.stripe == lost).foldl (fun s r =>
    let p := s.newHdr lost
    let m := LMsg.stripeRecord true r
    (p.1.updSwarm fun w => { w with waits := w.waits ++ [{ hdr := p.2, msg := m }] }).send p.2 m) s

/-- Leaders choose replacements for a LEAVING holder (R230 step 2); the version goes to the holder that it replaces too. -/
def State.replaceLeaving (s : State) (c : Nat) : State :=
  (s.allStripes.filter s.leads).foldl (fun s r => match r.holders.findIdx? fun h => h.member == c with
    | none => s
    | some i => match s.nextHolder r with
      | none => s
      | some n =>
        let s := s.replicate (setHolder r i fun h => { h with member := n, acked := false })
        if c = s.actingMember then (if s.isLit n then s.pushParity r i n else s.deferred n)
        else match s.stripe? r.stripe with
          | none => s
          | some x =>
            let p := s.newHdr c
            let m := LMsg.stripeRecord false (recordFor x i)
            (p.1.updSwarm fun w => { w with waits := w.waits ++ [{ hdr := p.2, msg := m }] }).sendDurable (s.stripeRegion x.stripe) p.2 m false) s

/-- LEAVING members of the table: this package's retracts (R230 step 1), and their replacement as holders. -/
def State.applyLeaving (s : State) (t : MemTable) : State :=
  let s := if (s.ownEntry.map fun e => e.state == .leaving).getD false then s.retractAll.checkLeave else s
  ((t.members.filter fun e => e.state == .leaving).map (·.member)).foldl State.replaceLeaving s

/-- Held messages whose epoch has been applied (R205). -/
def State.takeHeld (s : State) : State :=
  let ready := s.swarm.heldMsgs.filter fun x => decide (x.1.epoch ≤ s.epoch)
  let s := s.updSwarm fun w => { w with heldMsgs := w.heldMsgs.filter fun x => !decide (x.1.epoch ≤ s.epoch) }
  ready.foldl (fun s x => s.receive x.1 x.2) s

/-- The apply instant (R204). -/
def State.applyTable (s : State) : State :=
  match s.swarm.staged with
  | none => s
  | some t =>
    let old := s.swarm.applied
    let led := (s.allStripes.filter s.leads).map (·.stripe)
    let before := s.epoch
    let busy := !s.swarm.waits.isEmpty || !s.swarm.rxRuns.isEmpty || !s.swarm.assigns.isEmpty
    let s := s.updSwarm fun w => { w with
      previous := old, applied := some t, staged := none, stageNext := 0, stageSlot := w.stageSlot + 1, applyWaits := false,
      trailing := if old.isSome && busy then some before else none,
      peers := w.peers.map fun p => { p with rebuildClear := false } }
    let s := ((s.raise 406).keeperLine 2).announce t
    let s := s.setFence t
    if s.swarm.fenced then s else
    let s := (s.startAdoption t).takeOver led
    let s := s.buildTasks old
    let s := (t.members.filter fun e => e.state == .lost && e.adopter.isSome).foldl (fun s e => s.sendRestores e.member) s
    let s := s.applyLeaving t
    (s.startHellos.takeHeld).reserveStripes

/-- The trailing epoch ends with its last operation; a waiting apply follows (R204). -/
def State.settleEpoch (s : State) : State :=
  match s.swarm.trailing with
  | none => s
  | some e =>
    let w := s.swarm
    if w.waits.any (fun q => q.hdr.epoch == e) || w.rxRuns.any (fun q => q.hdr.epoch == e) || w.assigns.any (fun q => q.hdr.epoch == e) then s
    else
      let s := s.updSwarm fun w => { w with trailing := none }
      if s.swarm.applyWaits then s.applyTable else s

/-- A trigger of an apply (R204): it waits until the trailing epoch has ended. -/
def State.requestApply (s : State) : State :=
  if s.swarm.trailing.isSome then s.updSwarm fun w => { w with applyWaits := true } else s.applyTable

/-! Commands on the table (R202 to R205, R294, R295). -/

/-- First check of R203 that fails, by its cause. -/
def State.tableFault (s : State) (t : MemTable) : Option Nat :=
  let ascending (l : List Nat) : Bool := (l.zip (l.drop 1)).all fun p => decide (p.1 < p.2)
  let groupOk (g : GroupDesc) : Bool :=
    decide (g.group < 256) && decide (4 ≤ g.k) && decide (g.k ≤ 32) && decide (1 ≤ g.m) && decide (g.m ≤ 4) && decide (60 ≤ g.shortTimeout) && decide (g.shortTimeout ≤ 3600)
  let entryOk (e : MemberEntry) : Bool := (t.groups.any fun g => g.group == e.group) && e.state != .reserved && !e.reservedSet &&
    (e.state == .lost || e.adopter.isNone)
  let sizeOk (g : GroupDesc) : Bool :=
    let ms := t.members.filter fun e => e.group == g.group
    let act := ms.filter fun e => e.state == .active
    let shelves := ((act.map fun e => (e.rack, e.shelf)).eraseDups).length
    decide (ms.length ≤ 4096) && decide (g.k + g.m ≤ (if g.shelfLocal then act.length else shelves))
  let adopters := t.members.filterMap fun e => if e.state == .lost then e.adopter.map fun a => (a, e.group) else none
  let adoptOk := (adopters.all fun a => (entryFor t a.1).any fun e => e.state == .spare && e.group == a.2) &&
    decide ((adopters.map (·.1)).eraseDups.length = adopters.length)
  let own := match s.ownMember.bind (entryFor t) with
    | some e => e.slot == s.keeper.boot.slotId.toNat
    | none => true
  if !t.formOk || t.groups.isEmpty || decide (256 < t.groups.length) || t.members.isEmpty || decide (16384 < t.members.length) then some 1
  else if t.authHash ≠ s.keeper.prot.authHash then some 2
  else if !t.verified then some 3
  else if some t.swarmId ≠ s.identity.map (·.swarmId) then some 4
  else if t.epoch ≤ s.epoch then some 5
  else if !ascending (t.groups.map (·.group)) || !t.groups.all groupOk then some 6
  else if !ascending (t.members.map (·.member)) || !t.members.all entryOk then some 7
  else if !t.groups.all sizeOk then some 8
  else if !adoptOk then some 9
  else if !own then some 10 else none

/-- Bytes of a table (R199). -/
def tableLength (t : MemTable) : Nat := 512 + 16 * t.groups.length + 48 * t.members.length
/-- A table as `n` bytes staged spell it: its form fails where its length differs (R203 cause 1). -/
def stagedTable (t : MemTable) (n : Nat) : MemTable := { t with formOk := t.formOk && decide (n = tableLength t) }

/-- MEMBERSHIP_STAGE_STAGE (R202, R203, R294, R295): one piece, the first with an erase of the slot (DEDUCED, log entry 137); `table` is the table that the pieces spell. -/
def execMembershipStageStage (ref : CmdRef) (offset len : Nat) (last : Bool) (table : MemTable) (s : State) : Out :=
  s.adminThen .membershipStage ref fun s =>
    if ref.viaMi = true ∧ 4096 < len then .next (s.complete ref (stMi 0x04) 0)
    else if offset ≠ 0 ∧ offset ≠ s.swarm.stageNext then .next (s.complete ref stStageOutOfOrder 0)
    else if 1048576 < offset + len then .next (s.complete ref stStageOutOfOrder 0)
    else
    let s := if offset = 0 then s.countErases (469 + 16 * s.swarm.stageSlot.val) 16 else s
    if !last then .next ((s.updSwarm fun w => { w with stageNext := offset + len, staged := if offset = 0 then none else w.staged }).complete ref stOk 0)
    else match s.tableFault (stagedTable table (offset + len)) with
      | some c =>
        let s := s.updSwarm fun w => { w with stageNext := 0, staged := none }
        .next ((s.raiseAt (refDie ref) 407 (BitVec.ofNat 32 c) 0).complete ref stTableRefused (BitVec.ofNat 32 c))
      | none =>
        let s := s.updSwarm fun w => { w with stageNext := 0, staged := some table }
        .next ((s.raiseAt (refDie ref) 405 0 0).complete ref stOk 0)

/-- MEMBERSHIP_STAGE_APPLY (R204, R294, R295). -/
def execMembershipStageApply (ref : CmdRef) (s : State) : Out :=
  s.adminThen .membershipStage ref fun s => match s.swarm.staged with
    | none => .next (s.complete ref stNothingStaged 0)
    | some t => .next (s.requestApply.complete ref stOk (BitVec.ofNat 32 t.epoch))

/-- MEMBERSHIP_STAGE_READ_MEMBER_KEY (R245, R295): 128 bytes, the 97-byte key by its identity, none without an identity record. -/
def execMembershipStageReadMemberKey (ref : CmdRef) (s : State) : Out :=
  s.adminThen .membershipStage ref fun s => .next (s.completeWith ref stOk 0 (.fields [{ off := 0, size := 97, val := (s.identity.map fun r => Config.memberKeyId r.swarmId).getD 0 }, { off := 97, size := 31, val := 0 }]))

/-- The header of a table as returned data (R199). -/
def tableHeader (t : MemTable) : List DataField :=
  [{ off := 0, size := 4, val := 0x544D5357 }, { off := 4, size := 2, val := 1 }, { off := 6, size := 2, val := 512 }, { off := 8, size := 4, val := t.epoch },
   { off := 16, size := 8, val := t.swarmId.toNat }, { off := 24, size := 2, val := t.groups.length }, { off := 26, size := 2, val := t.members.length },
   { off := 32, size := 97, val := t.authKey }, { off := 136, size := 8, val := t.issued }, { off := 144, size := 48, val := t.bodyHash.toNat },
   { off := 192, size := 96, val := t.signature }]

/-- MEMBERSHIP_STAGE_READ_TABLE_HEADER (R294): zeros where no table is applied. -/
def execMembershipStageReadTableHeader (ref : CmdRef) (s : State) : Out :=
  s.adminThen .membershipStage ref fun s => .next (s.completeWith ref stOk 0 (.fields ((s.swarm.applied.map tableHeader).getD [{ off := 0, size := 512, val := 0 }])))

/-- MEMBERSHIP_STAGE_DISCARD (R294). -/
def execMembershipStageDiscard (ref : CmdRef) (s : State) : Out :=
  s.adminThen .membershipStage ref fun s => .next ((s.updSwarm fun w => { w with staged := none, stageNext := 0, applyWaits := false }).complete ref stOk 0)

/-- EPOCH_ANNOUNCE (R204): the staged table of that epoch and header hash is applied; another hash raises 407 with cause 3. -/
def execEpochAnnounce (hdr : MsgHdr) (epoch : Nat) (hash : BitVec 384) (s : State) : Out :=
  if (s.session? hdr.peer).isNone then unchanged s else
  match s.swarm.staged with
  | none => unchanged s
  | some t =>
    if t.epoch ≠ epoch then unchanged s
    else if t.headerHash ≠ hash then .next (s.raise2 407 3 0)
    else .next s.requestApply

/-- TRAILING_EPOCH_TIMEOUT (R204): operations of the trailing epoch are abandoned and started again. -/
def execTrailingEpochTimeout (s : State) : Out :=
  match s.swarm.trailing with
  | none => unchanged s
  | some e =>
    let old := s.swarm.waits.filter fun q => q.hdr.epoch == e
    let runs := s.swarm.rxRuns.filter fun x => x.hdr.epoch == e
    let s := s.updSwarm fun w => { w with waits := w.waits.filter fun q => q.hdr.epoch != e, assigns := w.assigns.filter fun a => a.hdr.epoch != e }
    let s := runs.foldl (fun s x => s.abandonRun x.stripe) s
    .next (old.foldl State.restart s).settleEpoch

/-- HELD_MESSAGE_TIMEOUT (R205): the i-th held message has waited 60 s. -/
def execHeldMessageTimeout (i : Nat) (s : State) : Out :=
  match s.swarm.heldMsgs[i]? with
  | none => unchanged s
  | some x => .next ((s.updSwarm fun w => { w with heldMsgs := w.heldMsgs.eraseIdx i }).nak x.1 nakAhead (rxType x.2))

/-- EPOCH_AHEAD_RETRY (R205): 1 s after the refusal. -/
def execEpochAheadRetry (peer opid : Nat) (s : State) : Out :=
  match s.swarm.aheadRetry.find? fun q => q.hdr.peer == peer && q.hdr.opid == opid with
  | none => unchanged s
  | some q => .next ((s.updSwarm fun w => { w with aheadRetry := w.aheadRetry.filter fun x => x.hdr != q.hdr }).restart q)

/-! Messages of operations. -/

def execSealNotice (hdr : MsgHdr) (region : RegionIx) (seg : Fin 16) (band : Nat) (s : State) : Out :=
  .next (s.receive hdr (.sealNotice region seg band)).settleEpoch
def execSlotAssign (hdr : MsgHdr) (stripe position m version : Nat) (holders : List Nat) (s : State) : Out :=
  .next (s.receive hdr (.slotAssign stripe position m version holders)).settleEpoch
def execStripeRecord (hdr : MsgHdr) (restore : Bool) (r : StripeRec) (s : State) : Out :=
  .next (s.receive hdr (.stripeRecord restore r)).settleEpoch
def execStripeRecordAck (hdr : MsgHdr) (stripe version : Nat) (s : State) : Out :=
  .next (s.receive hdr (.stripeRecordAck stripe version)).settleEpoch
def execContribData (hdr : MsgHdr) (stripe position index first count : Nat) (s : State) : Out :=
  .next (s.receive hdr (.contribData stripe position index first count)).settleEpoch
def execContribDone (hdr : MsgHdr) (stripe position index : Nat) (crcOk : Bool) (s : State) : Out :=
  .next (s.receive hdr (.contribDone stripe position index crcOk)).settleEpoch
def execContribDoneReply (hdr : MsgHdr) (stripe position index : Nat) (s : State) : Out :=
  .next (s.receive hdr (.contribDoneReply stripe position index)).settleEpoch
def execRetract (hdr : MsgHdr) (stripe position index first count : Nat) (neverSent release last behalf crcOk : Bool) (s : State) : Out :=
  .next (s.receive hdr (.retract stripe position index first count neverSent release last behalf crcOk)).settleEpoch
def execRetractReply (hdr : MsgHdr) (stripe position index : Nat) (s : State) : Out :=
  .next (s.receive hdr (.retractReply stripe position index)).settleEpoch
def execRebuildRead (hdr : MsgHdr) (stripe what index first count : Nat) (rows : List RowFacts) (stepFive : List Nat) (s : State) : Out :=
  .next (s.receive hdr (.rebuildRead stripe what index first count rows stepFive)).settleEpoch
def execRebuildData (hdr : MsgHdr) (stripe what index first count : Nat) (last push reply crcOk : Bool) (bad : List Nat)
    (record : Option StripeRec) (grans : List PushGran) (s : State) : Out :=
  .next (s.receive hdr (.rebuildData stripe what index first count last push reply crcOk bad record grans)).settleEpoch
/-- NAK (R258). -/
def execNak (hdr : MsgHdr) (reason refused _detail : Nat) (s : State) : Out :=
  if !s.hears hdr.peer then unchanged s else .next (s.onNak hdr reason refused).settleEpoch

/-! Timers of operations. -/

/-- SEAL_NOTICE_TIMEOUT (R209, R233): on to the next leader; toward a leader that has gone dark the segment waits in NOTICED. -/
def execSealNoticeTimeout (g : RegionIx) (b : Nat) (u : Fin 16) (s : State) : Out :=
  let e := s.seg g b u.val
  if e.state ≠ .noticed ∨ s.isLit e.stripe = false then unchanged s else
  let drop (q : PendReq) : Bool := match q.msg with | .sealNotice h v c => h == g && v == u && c == b | _ => false
  .next ((s.updSwarm fun w => { w with waits := w.waits.filter fun q => !drop q }).sendNotice g b u).settleEpoch

/-- SEAL_NOTICE_RETRY (R209): the list is tried again 60 s after every candidate refused. -/
def execSealNoticeRetry (g : RegionIx) (b : Nat) (u : Fin 16) (s : State) : Out :=
  match s.noticeOf g b u with
  | some n => if n.exhausted && decide ((s.seg g b u.val).state = .sealed) then .next ((s.putNotice { n with tried := [] }).sendNotice g b u) else unchanged s
  | none => unchanged s

/-- SHORT_TIMEOUT seconds of operating time have passed since the stripe opened (R200, R218). -/
def State.shortDue (s : State) (r : StripeRec) : Bool :=
  let limit := ((s.swarm.applied.bind fun t => t.groups.find? fun g => g.group == r.group).map (·.shortTimeout)).getD 600
  decide (limit ≤ (s.keeper.tk.opsec.toNat + 2 ^ 32 - r.opened % 2 ^ 32) % 2 ^ 32)

/-- STRIPE_SHORT_TIMEOUT (R218). -/
def execStripeShortTimeout (stripe : Nat) (s : State) : Out :=
  match s.stripe? stripe with
  | some r => if r.state = .opened ∧ s.leads r = true ∧ s.swarm.fenced = false ∧ s.shortDue r = true then .next (s.closeStripe r) else unchanged s
  | none => unchanged s

/-- Work that was refused starts again while its holder is lit. -/
def State.retryWork (s : State) (stripe position index reason : Nat) : State :=
  match s.workOf stripe position index with
  | some w => if w.refused = some reason ∧ s.isLit w.holder = true then s.startWork w else s
  | none => s
/-- CONTRIB_RETRY (R217): 60 s after NO_RECORD. -/
def execContribRetry (stripe position index : Nat) (s : State) : Out := .next (s.retryWork stripe position index nakNoRecord)
/-- CONTRIB_BUSY_RETRY (R219): 1 s after BUSY. -/
def execContribBusyRetry (stripe position index : Nat) (s : State) : Out := .next (s.retryWork stripe position index nakBusy)

/-- REQUEST_ANSWER_TIMEOUT (R217, R256): the request goes out again with its OPID; a holder that has not answered holds up no assignment. -/
def execRequestAnswerTimeout (peer opid : Nat) (s : State) : Out :=
  match s.waitOf { peer := peer, epoch := s.epoch, opid := opid } with
  | none => unchanged s
  | some q => match q.msg with
    | .sealNotice .. => unchanged s
    | .stripeRecord _ r => .next ((s.assignFreed r.stripe peer).send q.hdr q.msg)
    | _ => .next (s.send q.hdr q.msg)

/-- JOURNAL_FRAME_DURABLE (R139): also what waited for a stripe reserve goes on (R215). -/
def execJournalFrameDurable (g : RegionIx) (s : State) : Out :=
  let s := s.journalDurable g
  if s.swarm.seqWaits.isEmpty || !s.stripeReserved then .next s
  else
    let xs := s.swarm.seqWaits
    .next (xs.foldl (fun s x => s.receive x.1 x.2) (s.updSwarm fun w => { w with seqWaits := [] }))

/-! Peers, light, dark waits. -/

/-- Place of a work item toward a holder that lights (R226). -/
def workOrder : WorkItem → Nat
  | .record => 0 | .neverSent => 1 | .contrib => 2 | .retract => 3 | .release => 4

/-- Light requests of this package that name the shelf of a lit member are satisfied (R272). -/
def State.lightSatisfied (s : State) (c : Nat) : State :=
  match s.memberEntry c with
  | none => s
  | some e =>
    let mine (r : LightReq) : Bool := r.origin == s.actingMember && r.rack == e.rack && r.shelf == e.shelf
    let done := s.swarm.light.filter mine
    let s := s.updSwarm fun w => { w with light := w.light.filter fun r => !mine r, darkReads := w.darkReads.filter fun d => d.shelf != (e.rack, e.shelf) }
    done.foldl (fun s r => s.litGroup.foldl (fun s c => let p := s.newHdr c; p.1.send p.2 (lightMsg r true)) s) s

/-- Copies that waited for a member on the shelf of a lit one go on (R112, R166, R272); a band that was held for it is a candidate again, and so is one
of which no granule waits for another. -/
def State.darkOver (s : State) (c : Nat) (g : RegionIx) : State :=
  let shelf (m : Nat) : Option (Nat × Nat) := (s.memberEntry m).map fun e => (e.rack, e.shelf)
  let lit (x : Nat × Nat) : Bool := shelf x.2 == shelf c
  let r := s.regions[g]
  let bandsOf (xs : List (Nat × Nat)) : List Nat := xs.map fun x => (s.entryOf x.1).band.toNat
  let ended := bandsOf (r.darkGrans.filter lit)
  let left := bandsOf (r.darkGrans.filter fun x => !lit x)
  let s := s.updRegion g fun r => { r with darkGrans := r.darkGrans.filter fun x => !lit x }
  let free (b : Band) : Bool := b.hold == some 1 && (ended.contains b.num || !left.contains b.num)
  let s := s.updTab g fun t => { t with bands := t.bands.map fun b => if free b then { b with hold := none } else b }
  s.copyTurns g

/-- The leader of the stripe of a blocked retract is asked for its record, which shows whether another position is left. The spec does not say how
the data member learns it (DESIGN CHOICE, log entry 133). -/
def State.askRecord (s : State) (w : SegWork) : State := match s.sixLeader w.stripe with
  | some m => if s.isLit m then
      let p := s.newHdr m
      p.1.request (p.1.sendDie w.region) p.2 (.rebuildRead w.stripe 2 0 0 0)
    else s
  | none => s

/-- Holds of R166 that light may end: copies and bands that wait for a dark member, and retracts blocked by an unreadable frame (R225). -/
def State.retryHolds (s : State) (c : Nat) : State :=
  let s := (List.finRange 4).foldl (State.darkOver · c) s
  (s.swarm.work.filter fun w => w.refused == some 0 && (s.holdersOf w.stripe).contains c).foldl (fun s w => (s.askRecord w).retryBlocked w) s

/-- A member lights (R226, R263, R266, R272): pending work in the order of R226; what waited for its shelf goes on. -/
def State.peerLights (s : State) (c : Nat) : State :=
  let s := (s.updSession c fun x => { x with lit := true }).updPeer c fun p => { p with reported := false }
  let s := s.lightSatisfied c
  let s := (s.allStripes.filter s.leads).foldl (fun s r =>
    (r.holders.zipIdx.filter fun x => x.1.member == c && !x.1.acked).foldl (fun s x => s.sendRecord r x.2) s) s
  let s := s.sendRestores c
  let s := (s.allStripes.filter fun r => ((r.holders[r.mypos]?).map (·.member)) == some c && c != s.actingMember).foldl (fun s r => s.pushParity r r.mypos c) s
  let mine := s.swarm.work.filter fun w => w.holder == c && !w.running && w.refused != some 0
  let less (a b : SegWork) : Bool := decide (workOrder a.item < workOrder b.item) ||
    (workOrder a.item == workOrder b.item && decide (a.stripe / 16384 ≤ b.stripe / 16384))
  let s := (sortBy less mine).foldl State.startWork s
  let s := (s.swarm.notices.filter fun n => (s.seg n.region n.band n.seg.val).state == .noticed && (s.seg n.region n.band n.seg.val).stripe == c).foldl State.repeatNotice s
  let s := s.retryHolds c
  (s.updSwarm fun w => { w with tasks := w.tasks.map fun t => { t with aside := false } }).backlogFell

/-- PEER_LIT. -/
def execPeerLit (c : Nat) (s : State) : Out :=
  if (s.session? c).isNone || s.isLit c || s.swarm.fenced then unchanged s else .next (s.peerLights c)

/-- HEARTBEAT (R208, R258, R270). -/
def execHeartbeat (peer : Nat) (status : Half) (applied : Nat) (s : State) : Out :=
  if !s.hears peer then unchanged s else
  let s := s.updPeer peer fun p => { p with status := status, applied := applied, rebuildClear := p.rebuildClear || !status.getLsbD hbRebuild }
  .next s.checkRestored

/-- HEARTBEAT_SEND_TIMER (R255). -/
def execHeartbeatSendTimer (peer : Nat) (s : State) : Out :=
  if (s.session? peer).isNone || s.swarm.fenced || decide (3 ≤ s.keeper.sup.ps) then unchanged s
  else let p := s.newHdr peer; .next (p.1.send p.2 (s.heartbeatTo peer))

/-- LIGHT_REQUEST (R272, R297). -/
def execLightRequest (peer : Nat) (r : LightReq) (cancel : Bool) (s : State) : Out :=
  if !s.hears peer then unchanged s else
  let same (x : LightReq) : Bool := x.origin == r.origin && x.request == r.request
  if cancel then .next (s.updSwarm fun w => { w with light := w.light.filter fun x => !same x })
  else if s.swarm.light.any same then .next (s.updSwarm fun w => { w with light := w.light.map fun x => if same x then { x with waiting := r.waiting } else x })
  else .next ((s.updSwarm fun w => { w with light := w.light ++ [r] }).postAsync (.vendorLog 0xC2))

/-- DARK_WAIT_EXPIRY (R273): the read completes with 7h/0x80; nothing is poisoned. -/
def execDarkWaitExpiry (ref : CmdRef) (s : State) : Out :=
  if !(s.swarm.darkReads.any fun d => d.ref == ref) then unchanged s else
  let s := s.updSwarm fun w => { w with darkReads := w.darkReads.filter fun d => d.ref != ref }
  let s := (s.stopClimbs fun x => x == ref).raiseAt (refDie ref) 483 0 0
  let s := s.updSub fun q => { q with life := { q.life with darkWait := q.life.darkWait + 1 } }
  .next (s.complete ref (stVendor 0x80) 0)

end Sys2Proof.Machine
end

