-- ==== Sys2Proof/Machine/Lenos.lean ====
section
/-! DEFINITION. The Lenos link: swarm ports, packets, sessions, reliable delivery (R236 to R255, R276). -/

namespace Sys2Proof.Machine

def State.updPort (s : State) (d : DieIx) (f : SwarmPort → SwarmPort) : State :=
  s.updSwarm fun w => { w with ports := w.ports.set d (f w.ports[d]) }

/-! Ports (R236 to R238). -/

/-- Own address of a port, where its record enables the port (R395). -/
def State.portAddr (s : State) (d : DieIx) : Option (BitVec 128) := s.identity.bind fun i =>
  if d = 0 then (if i.port0 then some i.addr0 else none) else (if i.port1 then some i.addr1 else none)

/-- SWARM_LINK_TRAINING (R28, R237): three failed trainings of 100GBASE-KR2 in a row fall back to 50GBASE-KR. Without its clock the port does not
train. -/
def execSwarmLinkTraining (d : DieIx) (partner : KrPartner) (s : State) : Out :=
  if (s.portAddr d).isNone || !(s.com d).inService || !s.clocksRun then unchanged s else
  let s := s.updCrossing (.swarm d) fun c => { c with clockOn := partner != .none }
  match partner with
  | .kr2 n =>
    if n < 3 then .next (s.updPort d fun p => { p with speed := 2, fails := 0, inService := true })
    else .next ((s.updPort d fun p => { p with speed := 1, fails := 0, inService := true }).raise (dieSrc d 23))
  | .kr1 => .next (s.updPort d fun p => { p with speed := 1, fails := 0, inService := true })
  | .none => .next (s.updPort d fun p => { p with speed := 0, inService := false })

/-- The port's link goes down (R237). -/
def State.swarmPortDown (s : State) (d : DieIx) : State :=
  if s.swarm.ports[d].speed = 0 then s
  else (s.updPort d fun p => { p with speed := 0, fails := 0, inService := false }).raise (dieSrc d 22)
/-- SWARM_PORT_LINK_DOWN (R237): traffic moves to the other die's port, as `sendDie` chooses. -/
def execSwarmPortLinkDown (d : DieIx) (s : State) : Out := .next (s.swarmPortDown d)

/-- The port takes a packet: its link is up, its die takes tokens (R26), and the swarm ports are not stopped by PS3 or PS4 (R34, R292). -/
def State.portTakes (s : State) (d : DieIx) : Bool := s.swarm.ports[d].speed != 0 && !(s.com d).tokensPaused && decide (s.keeper.sup.ps < 3)

/-- The port answers for its own address (R238). -/
def State.portAnswer (s : State) (d : DieIx) (kind : Nat) (target : BitVec 128) : State :=
  if !s.portTakes d ∨ s.portAddr d ≠ some target then s
  else s.updPort d fun p => { p with answers := p.answers ++ [(kind, target)] }
def execNeighborSolicitation (d : DieIx) (target : BitVec 128) (s : State) : Out := .next (s.portAnswer d 1 target)
def execArpRequest (d : DieIx) (target : BitVec 128) (s : State) : Out := .next (s.portAnswer d 2 target)
def execEchoRequest (d : DieIx) (target : BitVec 128) (s : State) : Out := .next (s.portAnswer d 3 target)
/-- OTHER_INBOUND_PACKET (R236, R238). -/
def execOtherInboundPacket (d : DieIx) (s : State) : Out :=
  if !s.portTakes d then unchanged s else .next (s.updPort d fun p => { p with rejOther := satAdd 0xFFFF p.rejOther 1 })
/-- SWM_CTRL.CNT_CLR (R276). -/
def execSwmCtrlCntClr (d : DieIx) (s : State) : Out :=
  .next (s.updPort d fun p => { p with retx := 0, rejAuth := 0, rejReplay := 0, rejOther := 0 })

/-! Halves (R250 to R253). -/

/-- Stream credit before the first body has advertised one (DESIGN CHOICE, log entry 40). -/
def firstCredit : Nat := 512
def freshTx : HalfTx := { ctr := 1, msn := 1, queue := [], unacked := [], credit := firstCredit, rtoUs := 1000, path := 0, refused := false }
def freshRx : HalfRx := { top := 0, seen := [], nextMsn := 1, held := [], ackDue := false }

/-- A counter passes the window of 1,024 (R250). -/
def HalfRx.fresh (h : HalfRx) (ctr : Nat) : Bool := decide (0 < ctr) && decide (h.top < ctr + 1024) && !h.seen.contains ctr
/-- Mark a counter received. -/
def HalfRx.take (h : HalfRx) (ctr : Nat) : HalfRx :=
  let top := max h.top ctr
  { h with top := top, seen := (ctr :: h.seen).filter fun n => decide (top < n + 1024) }

/-- Deliver held messages that follow (R252). -/
def HalfRx.drain (h : HalfRx) : Nat → HalfRx
  | 0 => h
  | n + 1 => if h.held.contains h.nextMsn then HalfRx.drain { h with nextMsn := h.nextMsn + 1, held := h.held.filter (· != h.nextMsn) } n else h
/-- One message: in order, ahead of a gap, or delivered before. -/
def HalfRx.msg (h : HalfRx) (msn : Nat) : HalfRx :=
  if msn = h.nextMsn then HalfRx.drain { h with nextMsn := msn + 1 } h.held.length
  else if h.nextMsn < msn then { h with held := if h.held.contains msn then h.held else h.held ++ [msn] } else h

/-- The lowest counter not received of a half (R242). -/
def HalfRx.base (h : HalfRx) : Nat :=
  let from_ := max 1 (h.top - 1023)
  ((List.range 1024).map (· + from_)).find? (fun n => !h.seen.contains n) |>.getD (h.top + 1)
/-- Credit for the stream of a half: at most 512, less the messages that wait behind a gap (R252). -/
def HalfRx.credit (h : HalfRx) : Nat := 512 - h.held.length
/-- The body header that acknowledges a half, in a record of `count` messages (R242, R253). -/
def HalfRx.header (h : HalfRx) (half : Fin 2) (count : Nat) : List DataField := bodyHeader half h.base h.seen count h.credit

/-- A record without messages, which acknowledges (R253). -/
def HalfTx.sealEmpty (h : HalfTx) : HalfTx := if counterEnd ≤ h.ctr then { h with refused := true } else { h with ctr := h.ctr + 1 }

/-- Send the messages of lost records in new ones (R253): MSN and OPID stay. A record that the engine refuses to seal stays outstanding (R331). -/
def HalfTx.resend (h : HalfTx) (rs : List SentRec) : HalfTx :=
  rs.foldl (fun (h : HalfTx) r =>
    if counterEnd ≤ h.ctr then { h with unacked := h.unacked ++ [r], refused := true } else { h with ctr := h.ctr + 1, unacked := h.unacked ++ [SentRec.mk h.ctr r.msgs 0] }) h

/-- An acknowledgement (R242, R252, R253): answers the half, and how many records were sent again. -/
def HalfTx.ack (h : HalfTx) (base : Nat) (map : List Nat) (credit : Nat) : HalfTx × Nat :=
  let got (r : SentRec) : Bool := decide (r.ctr < base) || map.contains r.ctr
  let new := h.unacked.filter got
  let left := (h.unacked.filter fun r => !got r).map fun r => { r with later := r.later + (new.filter fun x => decide (r.ctr < x.ctr)).length }
  let lost := left.filter fun r => decide (3 ≤ r.later)
  let h := { h with unacked := left.filter fun r => decide (r.later < 3), credit := credit, rtoUs := if new.isEmpty then h.rtoUs else 1000 }
  let again := h.resend lost
  (again.pump again.queue.length, again.ctr - h.ctr)

/-! Packets (R240 to R244). -/

/-- The session that a sealed packet names: the current one, or the one it replaced. -/
def State.sessionAt (s : State) (src index : Nat) : Option (Session × Bool) :=
  match s.swarm.sessions.find? fun x => x.peer == src && (x.ownId == index || (x.old.map (·.1)) == some index) with
  | some x => some (x, x.ownId == index)
  | none => none

/-- LENOS_PACKET (R241 to R244, R250, R252, R253): checked in order; the tag holds for a packet sealed under the session's key and salt. Its
acknowledgement and its messages are taken; in a malformed body every message is malformed (DEDUCED, log entry 130). -/
def execLenosPacket (d : DieIx) (p : LenosPkt) (s : State) : Out :=
  if !s.portTakes d then unchanged s
  else if p.version ≠ 1 ∨ 1 < p.kind then .next (s.raiseAt d 421 0 0)
  else if p.kind = 0 then unchanged s
  else if p.dst ≠ s.actingMember ∧ some p.dst ≠ s.ownMember then unchanged s
  else match s.sessionAt p.src p.session with
  | none => unchanged s
  | some (x, current) =>
    let rx := if current then x.rx else (x.old.map (·.2)).getD x.rx
    let h := rx[p.half]
    if !h.fresh p.ctr then .next ((s.updPort d fun q => { q with rejReplay := satAdd 255 q.rejReplay 1 }).raiseAt d 404 0 0)
    else if !p.tagOk || p.sealKey ≠ (if current then x.rxKey else x.oldKey.getD x.rxKey) then .next ((s.updPort d fun q => { q with rejAuth := satAdd 255 q.rejAuth 1 }).raiseAt d 403 0 0)
    else
      let h := { h.take p.ctr with ackDue := h.ackDue || !p.msgs.isEmpty }
      let bad (m : RxMsg) : Bool := m.malformed || p.bodyBad
      let good := p.msgs.filter fun m => !bad m
      let s := s.updSession p.src fun y => if current then { y with rx := y.rx.set p.half h } else { y with old := y.old.map fun o => (o.1, o.2.set p.half h) }
      -- Messages of both sessions go into the same stream.
      let s := s.updSession p.src fun y => { y with rx := y.rx.set p.half (good.foldl (fun (z : HalfRx) m => z.msg m.msn) y.rx[p.half]) }
      let a := x.tx[p.ackHalf].ack p.ackBase p.ackMap p.credit
      let s := if current then (s.sealWith p.src p.ackHalf fun _ => a.1).updPort p.ackHalf fun q => { q with retx := satAdd 0xFFFFFFFF q.retx a.2 } else s
      let s := if p.bodyBad && p.msgs.isEmpty then s.raiseAt d 421 0 0 else s
      .next ((p.msgs.filter bad).foldl (fun s m =>
        let s := s.raiseAt d 421 0 0
        if m.isReply then s else s.send { peer := p.src, epoch := s.epoch, opid := m.opid } (.nak nakMalformed m.type 0)) s)

/-! Sessions (R245 to R251). -/

/-- The peer certificate is accepted (R246). -/
def State.certOk (s : State) (src : Nat) (c : Certificate) : Bool := match s.swarm.applied with
  | none => false
  | some t =>
    c.signed && c.swarmId == t.swarmId && decide (c.fromEpoch ≤ t.epoch) && decide (t.epoch ≤ c.toEpoch) &&
    match entryFor t src with
    | none => false
    | some e => (c.member == src && (e.state == .active || e.state == .spare || e.state == .leaving)) || (e.state == .lost && e.adopter == some c.member)

/-- A session is established at this end: a new one, or one that replaces another (R247, R251). Its keys are derived, and the exchange with its
ephemeral key is erased (R249). -/
def State.establish (s : State) (h : HelloTry) : State :=
  let keys := h.keys
  let s := s.updSwarm fun w => { w with hellos := w.hellos.filter fun x => x.peer != h.peer, retryHello := w.retryHello.filter (· != h.peer) }
  match s.session? h.peer with
  | none => s.updSwarm fun w => { w with sessions := w.sessions ++
      [{ peer := h.peer, ownId := h.ownId, peerId := h.peerId, tx := #v[freshTx, freshTx], rx := #v[freshRx, freshRx], lit := false,
         txKey := keys.1, rxKey := keys.2, old := none, oldKey := none }] }
  | some _ =>
    -- Records start anew, message streams continue; what was not acknowledged goes out on the new session.
    s.updSession h.peer fun x => { x with
      old := some (x.ownId, x.rx), oldKey := some x.rxKey, ownId := h.ownId, peerId := h.peerId, txKey := keys.1, rxKey := keys.2,
      tx := x.tx.map fun t =>
        let t := HalfTx.resend { t with ctr := 1, unacked := [], refused := false } t.unacked
        t.pump t.queue.length,
      rx := x.rx.map fun r => { r with top := 0, seen := [] } }

/-- An attempt is abandoned; the initiator makes a new one after 5 s. -/
def State.abandonHello (s : State) (peer : Nat) : State :=
  let mine := s.swarm.hellos.any fun h => h.peer == peer && h.initiator
  s.updSwarm fun w => { w with
    hellos := w.hellos.filter fun h => h.peer != peer, retryHello := if mine && !w.retryHello.contains peer then w.retryHello ++ [peer] else w.retryHello }

/-- Authentication failure at a port (R241, R247). -/
def State.authFail (s : State) (d : DieIx) (peer : Nat) : State :=
  ((s.updPort d fun q => { q with rejAuth := satAdd 255 q.rejAuth 1 }).raiseAt d 403 0 0).abandonHello peer

/-- STATUS of the PHASE 2 that answers a PHASE 1 (R247, R258). -/
def State.helloStatus (s : State) (m : HelloMsg) : Nat :=
  if s.swarm.fenced then 1
  else match s.swarm.applied.bind fun t => entryFor t m.src with
    | none => 2
    | some e =>
      if e.state = .lost ∧ e.adopter.isNone = true then 2
      else if (m.cert.map fun c => e.state == .lost && c.member == m.src).getD false then 2
      else if !((m.cert.map fun c => s.certOk m.src c).getD false) || !m.sigOk then 3
      else if (s.session? m.src).isNone ∧ 4096 ≤ s.swarm.sessions.length then 4 else 0

/-- An accepted PHASE 1 is answered by PHASE 2, with a fresh nonce and a fresh ephemeral key (R247). -/
def State.answerHello (s : State) (m : HelloMsg) : State :=
  let k := Config.helloScalar s.free
  let m2 := s.ownHello m.src 2 0 s.freeIndex m.opid (Config.helloNonce s.free) (some (publicKey k)) [m]
  let s : State := { s with free := s.free + 1 }
  (s.updSwarm fun w => { w with
    hellos := (w.hellos.filter fun h => h.peer != m.src) ++
      [{ peer := m.src, initiator := false, phase := 2, ownId := m2.sessionId, peerId := m.sessionId, rekey := (s.session? m.src).isSome, scalar := k,
         first := m, second := some m2 }] }).putHello m2

/-- A PHASE 1 that is not accepted is answered by a PHASE 2 that says why and establishes nothing (R247, R258). -/
def State.refuseHello (s : State) (m : HelloMsg) (status : Nat) : State := s.putHello (s.ownHello m.src 2 status 0 m.opid 0 none [m])

/-- HELLO (R244, R246, R247). -/
def execHello (d : DieIx) (m : HelloMsg) (s : State) : Out :=
  if !s.portTakes d || s.swarm.applied.isNone then unchanged s
  else if m.dst ≠ s.actingMember ∧ some m.dst ≠ s.ownMember then unchanged s
  else if helloMalformed m then
    let s := s.raiseAt d 421 0 0
    .next (if m.reply then s else s.send { peer := m.src, epoch := s.epoch, opid := m.opid } (.nak nakMalformed 0x01 0))
  else
    let certOk := (m.cert.map fun c => s.certOk m.src c).getD false && m.sigOk
    let mine := s.swarm.hellos.find? fun h => h.peer == m.src
    if m.phase = 1 then
      let st := s.helloStatus m
      if st = 3 then .next ((s.authFail d m.src).refuseHello m st)
      else if st ≠ 0 then .next (s.refuseHello m st)
      else if s.ownCertOk = false then unchanged s
      else if (mine.map fun h => h.initiator && decide (s.actingMember < m.src)).getD false then unchanged s
      else .next (s.answerHello m)
    else match mine with
    | none => unchanged s
    | some h =>
      if m.phase = 2 ∧ h.initiator = true then
        if m.status ≠ 0 then .next (s.abandonHello m.src)
        else if !certOk then .next (s.authFail d m.src)
        else .next ((s.putHello (s.ownHello m.src 3 0 0 h.first.opid 0 none [h.first, m])).establish { h with peerId := m.sessionId, second := some m })
      else if m.phase = 3 ∧ h.initiator = false then
        if !m.sigOk then .next (s.authFail d m.src) else .next ((s.establish h).raiseAt d 401 0 0)
      else unchanged s

/-- HELLO_ATTEMPT_TIMEOUT (R247): no answer within 1 s. -/
def execHelloAttemptTimeout (peer : Nat) (s : State) : Out := .next (s.abandonHello peer)
/-- HELLO_RETRY_TIMER (R247, R251): the attempt is made again 5 s later. -/
def execHelloRetryTimer (peer : Nat) (s : State) : Out :=
  if s.swarm.retryHello.contains peer then .next (s.startHello peer (s.session? peer).isSome) else unchanged s
/-- SESSION_REKEY (R251): the member of lower ID starts a new exchange. -/
def execSessionRekey (peer : Nat) (s : State) : Out :=
  if (s.session? peer).isNone || !decide (s.actingMember < peer) then unchanged s else .next (s.startHello peer true)
/-- OLD_SESSION_ERASE (R251): 1 s after the new session. -/
def execOldSessionErase (peer : Nat) (s : State) : Out :=
  match s.session? peer with
  | some x => if x.old.isNone then unchanged s else .next ((s.updSession peer fun x => { x with old := none, oldKey := none }).raise 402)
  | none => unchanged s

/-! Timers of delivery (R253 to R255). -/

/-- ACK_TIMER (R253): a record with COUNT 0 acknowledges the peer's half. -/
def execAckTimer (peer : Nat) (half : Fin 2) (s : State) : Out :=
  match s.session? peer with
  | none => unchanged s
  | some x => if !x.rx[half].ackDue || s.swarm.fenced then unchanged s else
    .next ((if counterEnd ≤ x.tx[half].ctr then s
      else s.updSession peer fun x => { x with rx := x.rx.set half { x.rx[half] with ackDue := false } }).sealWith peer half HalfTx.sealEmpty)

/-- RETRANSMISSION_TIMEOUT (R253): the messages go out again in a new record, and the timeout doubles. -/
def execRetransmissionTimeout (peer : Nat) (half : DieIx) (ctr : Nat) (s : State) : Out :=
  match (s.session? peer).bind fun x => x.tx[half].unacked.find? fun r => r.ctr == ctr with
  | none => unchanged s
  | some r =>
    let sent := if ((s.session? peer).map fun x => decide (x.tx[half].ctr < counterEnd)).getD false then 1 else 0
    .next ((s.sealWith peer half fun h => HalfTx.resend
      { h with unacked := h.unacked.filter fun q => q.ctr != ctr, rtoUs := min 250000 (2 * h.rtoUs) } [r]).updPort half fun q =>
        { q with retx := satAdd 0xFFFFFFFF q.retx sent })

/-- The session is lost (R254): what was not delivered is dropped, and every operation with the peer is broken off. -/
def State.sessionLost (s : State) (peer : Nat) : State :=
  let runs := s.swarm.rxRuns.filter fun x => x.hdr.peer == peer
  let s := runs.foldl (fun s x => s.abandonRun x.stripe) s
  let records := s.swarm.waits.filterMap fun q => match q.msg with | .stripeRecord _ r => if q.hdr.peer == peer then some r.stripe else none | _ => none
  let work := s.swarm.work.filter fun w => w.holder == peer && w.running
  let asked := s.questions (· == peer)
  let s := s.updSwarm fun w => { w with
    sessions := w.sessions.filter fun x => x.peer != peer, waits := w.waits.filter fun q => q.hdr.peer != peer,
    gated := w.gated.filter fun q => q.hdr.peer != peer, answered := w.answered.filter fun a => a.1.peer != peer,
    aheadRetry := w.aheadRetry.filter fun q => q.hdr.peer != peer, heldMsgs := w.heldMsgs.filter fun q => q.1.peer != peer,
    loadWaits := w.loadWaits.filter fun q => q.1.peer != peer,
    openPushes := w.openPushes.filter fun q => q.1.peer != peer, assigns := w.assigns.filter fun a => a.hdr.peer != peer,
    tasks := w.tasks.map fun t => if t.target == some peer && !t.done then { t with running := false, refused := none, aside := true } else t }
  let s := asked.foldl State.askAnew s
  let s := records.foldl (fun s n => s.assignFreed n peer) s
  let s := work.foldl State.startWork s
  s.startHello peer false

/-- PATH_PROGRESS_TIMEOUT (R254): the next path, or the session is lost. -/
def execPathProgressTimeout (peer : Nat) (half : DieIx) (s : State) : Out :=
  match s.session? peer with
  | none => unchanged s
  | some x =>
    if x.tx[half].unacked.isEmpty then unchanged s
    else if h : x.tx[half].path.val < 3 then
      .next (s.updSession peer fun y => { y with tx := y.tx.set half { y.tx[half] with path := ⟨x.tx[half].path.val + 1, by omega⟩ } })
    else .next (s.sessionLost peer).settleEpoch

/-- LIVENESS_TIMEOUT (R255). -/
def execLivenessTimeout (peer : Nat) (s : State) : Out := .next (s.updSession peer fun x => { x with lit := false })

/-- PEER_UNREACHABLE (R255): once in a dark interval, and not for a peer in diapause. -/
def execPeerUnreachable (peer : Nat) (s : State) : Out :=
  if s.isLit peer || (s.peer peer).reported || s.peerFlag peer hbDiapause || !(s.swarm.peers.any fun p => p.member == peer) then unchanged s
  else .next ((s.updPeer peer fun p => { p with reported := true }).raise 400)

/-! What other parts of the package do to the swarm. -/

/-- Volatile swarm state is lost: sessions, operations and rebuild progress; segments and stripe records follow the journals. -/
def State.swarmDark (s : State) : State :=
  s.updSwarm fun w => { w with
    trailing := none, applyWaits := false, silent := false, sessions := [], hellos := [], helloOut := [], retryHello := [], waits := [], answered := [], gated := [], heldMsgs := [],
    seqWaits := [], loadWaits := [], assigns := [], aheadRetry := [], notices := [], work := [], rxRuns := [], tasks := [], openPushes := [], light := [], darkReads := [], seen := [],
    backlogHigh := false,
    ports := w.ports.map fun p => { p with inService := false, speed := 0, fails := 0, retx := 0, rejAuth := 0, rejReplay := 0, rejOther := 0 } }

/-- After a start (R209, R215, R219, R224, R263, R266): the stripe sequence resumes, broken contributions leave no mark, and what the tables
show as outstanding waits for its holders to light. -/
def State.swarmResume (s : State) : State :=
  let g := s.seqRegion
  let s := s.updSwarm fun w => { w with stripeSeq := match (s.regions[g]).tab.stripeReserve with | some v => v + 65536 | none => 1 }
  let s := (s.allStripes.filter fun r => r.applying.isSome).foldl (fun s r => s.abandonRun r.stripe) s
  match s.swarm.applied with
  | none => s
  | some t =>
    let s := s.setFence t
    if s.swarm.fenced then s else
    let s := (List.finRange 4).foldl (fun s g => (s.regions[g]).tab.segs.foldl (fun s e =>
      match e.state with
      | .noticed => if h : e.seg < 16 then s.putNotice { region := g, band := e.band, seg := ⟨e.seg, h⟩, opids := [], tried := [e.stripe], exhausted := false } else s
      | .sealed => if h : e.seg < 16 then s.sendNotice g e.band ⟨e.seg, h⟩ else s
      | .assigned => ((s.holdersOf e.stripe).zipIdx.filter fun x => !e.done.getLsbD x.2).foldl (fun s x => s.startWork
          { region := g, band := e.band, seg := e.seg, stripe := e.stripe, position := e.position, index := x.2, holder := x.1,
            item := .contrib, running := false, refused := none, deferred := false }) s
      | .retracting => s.retractSegment g e.band e.seg
      | .retracted | .unstriped | .withdrawn => s) s) s
    let s := s.buildTasks (some t)
    let s := if (s.swarm.adopted.map fun a => !a.2).getD false then s.setInaccessible s.nsids else s
    s.startHellos

end Sys2Proof.Machine
end

