-- ==== Sys2Proof/Machine/Fresh.lean ====
section
/-! DEFINITION. What a reset of a die keeps of its blocks: NAND content, tables kept in NAND, lifetime counts (R322, R383, R483, R485, R487). -/

namespace Sys2Proof.Machine

/-- A die's own blocks after a reset: completions already posted and the count of errors stay, the straps and sensors read as before, retired
memory stays retired in its tables (R322, R483). -/
def DieSt.volatileReset (x : DieSt) : DieSt :=
  { freshDie with
    common := { freshCommon with temp := x.common.temp, tempMax := x.common.tempMax, vcoreMeas := x.common.vcoreMeas, vcoreBad := x.common.vcoreBad,
                                 warned := x.common.warned, critical := x.common.critical, usec := x.common.usec,
                                 outOfService := false }
    host := { freshHost with perst := x.host.perst, out := x.host.out, cfgAnswers := x.host.cfgAnswers, errCount := x.host.errCount }
    mem := { freshMem with capacity := x.mem.capacity, rowsLeft := x.mem.rowsLeft, linesLeft := x.mem.linesLeft, dram := { x.mem.dram with corrected := 0, uncorr := 0 }, sram := { x.mem.sram with corrected := 0, uncorr := 0 } } }

/-- A region after a reset of its die: its bands as media hold them, durable journal frames, images and rescued updates stay. -/
def RegionSt.volatileReset (r : RegionSt) : RegionSt :=
  { freshRegion with
    tab := r.tab, rescued := r.rescued, images := r.images, ckptSeq := r.ckptSeq, nextImage := r.nextImage, sealSeq := r.sealSeq
    journal := { freshJournal with retained := r.journal.retained, next := r.journal.next, bands := r.journal.bands, singleCopy := false } }

/-- A lane at a start of its die (R49, R383): nothing of its work is kept; each LUN whose erase ran or stood suspended gets the LUN reset. -/
def LaneSt.volatileReset (x : LaneSt) : LaneSt := { freshLane with bus := x.erases.map fun r => .lunReset r.unit }

/-- Volatile state of a die goes back to its reset values (R345, R383). -/
def State.resetDieVolatile (s : State) (d : DieIx) : State :=
  let s := s.swarmDark
  let s := s.updDie d DieSt.volatileReset
  let s := (lanesOfDie d).foldl (fun s l => s.updLane l LaneSt.volatileReset) s
  let s := ((List.finRange 12).filter fun c => dieOfCluster c == d).foldl (fun s c => s.updCluster c fun _ => freshCluster) s
  (regionsOfDie d).foldl (fun s g => s.updRegion g RegionSt.volatileReset) s

end Sys2Proof.Machine
end

