-- ==== Sys2Proof/Machine/Hooks.lean ====
section
/-! DEFINITION. What the package's reactions do to lanes, windows, journals, regions and the swarm (R33, R132, R353, R354, R363, R477). -/

namespace Sys2Proof.Machine

/-! Lanes and swarm ports stop. -/

/-- The order to stop at the lanes of dies (R33, R353 step 5, R477 step 5). The regions act on none of the completions. -/
def State.lanesStop (s : State) (ds : List DieIx) : State := (ds.flatMap lanesOfDie).foldl (fun s l => (s.laneStop l).1) s

def State.swarmLinkLost (s : State) (d : DieIx) : State := s.swarmPortDown d

/-- A die out of service stops its swarm port (R33), and a disabled port's clock stops (R34). -/
def State.swarmStop (s : State) (d : DieIx) : State :=
  (s.updPort d fun p => { p with inService := false, speed := 0, fails := 0 }).clockOrder false [.swarm d]

/-- The member-fault notice: a HEARTBEAT of STATUS 0x0007 on every session, and silence after it (R477 step 4). -/
def State.swarmFaultNotice (s : State) : State :=
  let notice (s : State) (x : Session) : State :=
    let h := s.newHdr x.peer
    h.1.send h.2 (.heartbeat 0x0007 s.epoch ((s.swarm.staged.map (·.epoch)).getD 0) (s.pendingToward (some x.peer)) s.keeper.tk.opsec.toNat)
  (s.swarm.sessions.foldl notice s).updSwarm fun w => { w with silent := true }

/-! Windows and journals (R353 steps 7 and 8, R354). -/

/-- KIB of both windows. -/
def State.windowKib (s : State) : Nat := 4 * (s.winUsed 0 + s.winUsed 1)

/-- The update was acknowledged: it lies in a window, or is a deallocation (R125). -/
def acknowledged (u : PendUpd) : Bool := u.win.isSome || (match u.kind with | .deallocate | .zero _ => true | .write _ => false)

/-- What the rescue leaves of a region's pending table: a manifest record and the frames of each acknowledged update. A region that has not
applied its last rescue yet keeps that one. -/
def RegionSt.saveUpdates (r : RegionSt) : RegionSt :=
  if !r.inService && r.pend.isEmpty then r
  else
    let l := (r.pend.filter acknowledged).map fun u => { u with at_ := none, win := none, encrypted := true, cipher := none }
    let frames := (l.map fun u => match u.kind with
      | .write units => (units.toList.filter (·.isSome)).length
      | .deallocate | .zero _ => 0).sum + (l.length + 256) / 256
    let band := if l.isEmpty then none else r.tab.bands.find? fun x => x.kind == .rescue && x.phase == .opened && x.nextSlot == 0
    { r with rescued := l, tab := match band with | some x => r.tab.setBand { x with nextSlot := frames } | none => r.tab }

/-- The window of one die is persisted where the other die goes on (R33): its updates no longer rest on the window. -/
def State.keepWindow (s : State) (d : DieIx) : State :=
  let free (u : PendUpd) : PendUpd :=
    let u := if (u.cipher.map (·.1)) = some d then { u with cipher := none } else u
    match u.win with
    | some w => if w.1 = d then { u with win := none, encrypted := true } else u
    | none => u
  let s := (List.finRange 4).foldl (fun s g => s.updRegion g fun r => { r with pend := r.pend.map free }) s
  s.updPool d fun p => { p with win := [] }

/-- A row of the rescue band that the rescue leaves partly filled is completed with pad (R104). -/
def State.padRescue (s : State) (g : RegionIx) : State :=
  match s.geo? g, s.regionProf? g with
  | some geo, some p =>
    let f := framesPerRow p .slc
    let fill (x : Band) : Band :=
      if x.kind = .rescue ∧ x.phase = .opened ∧ f ≠ 0 ∧ x.nextSlot % f ≠ 0 then
        let row := x.nextSlot / f
        { x with nextSlot := (row + 1) * f, pads := x.pads ++ [(row % geoW geo, row / geoW geo, x.nextSlot % f)] }
      else x
    s.updTab g fun t => { t with bands := t.bands.map fill }
  | _, _ => s

/-- The windows of dies are persisted: of one die taken out of service, or of both in a rescue. -/
def State.persistWindows (s : State) : List DieIx → State
  | [d] => s.keepWindow d
  | _ => (List.finRange 4).foldl (fun s g => (s.updRegion g RegionSt.saveUpdates).padRescue g) s

/-- Every journal tail frame is programmed (R353 step 8). -/
def State.persistJournal (s : State) (g : RegionIx) : State :=
  let s := s.updRegion g RegionSt.closeTail
  let frames := (s.regions[g]).journal.tail
  let s := frames.foldl (fun s f => (s.placeJournal g f.num 0).placeJournal g f.num 1) s
  s.updJrn g fun j => { j with tail := [], retained := j.retained ++ j.tail.map fun f => { f with closed := true, ok := #v[true, !j.singleCopy] } }
def State.persistJournals (s : State) : State := (List.finRange 4).foldl State.persistJournal s

/-! Regions out of service (R132). -/

/-- A region goes out of service and its partner, where it serves, adopts it: pending updates go over, beside the overlay that it holds. -/
def State.regionOut (s : State) (g : RegionIx) : State :=
  let p := partnerRegion g
  let moved := (s.regions[g]).pend.map fun u => { u with at_ := none }
  let dieGone := (s.com (dieOfRegion g)).outOfService
  let s := (s.updRegion g fun r => { r with inService := false, coreUp := false, slots := #v[none, none], copies := [], foldBand := none, folding := false,
                                            lookups := 0, lookupWaiting := 0 }).endAsks fun r => r.region == g
  let s := if !dieGone then s else
    let s := (lanesOfRegion g).foldl (fun s l => s.updLane l fun x => { x with inService := false }) s
    (clustersOfRegion g).foldl (fun s c => s.updCluster c fun x => { x with inService := false }) s
  if !(s.regions[p]).inService then s else
  let s := s.updRegion g fun r => { r with pend := [] }
  (s.updRegion p fun r => { r with adopting := true, pend := r.pend ++ moved }).settleCopies p

end Sys2Proof.Machine
end

