-- ==== Sys2Proof/Machine/OptionCheck.lean ====
section
/-! DEFINITION. The option check of R412: header first, then the records in image order, the first failure reported. -/

namespace Sys2Proof.Machine

/-- A failure: the record type, 0 for the header, and the check code. -/
abbrev CheckFail := Option (Nat × Nat)

/-- The first failure of a list. -/
def firstFail : List CheckFail → CheckFail
  | [] => none
  | some f :: _ => some f
  | none :: r => firstFail r

/-- A condition that must hold, else the failure. -/
def require (ok : Bool) (type code : Nat) : CheckFail := if ok then none else some (type, code)

def inRange (lo hi x : Nat) : Bool := decide (lo ≤ x) && decide (x ≤ hi)
/-- 0 selects the default. -/
def dfltOrRange (lo hi x : Nat) : Bool := x == 0 || inRange lo hi x

/-- Parity sizes of R101. -/
def paritySizes : List Nat := [256, 384, 512, 640, 768, 1024]

/-- Ranges of R395. -/
def identityRange (r : IdentityRec) : Bool :=
  dfltOrRange 1024 65535 r.udpPort && decide (r.member < 16384) && decide (r.dscp < 64) &&
  inRange 1 128 r.prefix0 && inRange 1 128 r.prefix1

/-- Ranges of R408 and R409. -/
def profileRange (p : MediaProfile) : Bool :=
  inRange 1 2 p.iface && [1600, 2400, 3600].contains p.maxRate && !p.densities.isEmpty && inRange 1 8 p.planes &&
  inRange 1 4096 p.wordlines && inRange 64 (2 ^ 24) p.blocks && inRange 4096 32768 p.pageBytes && dfltOrRange 600 1500 p.ea &&
  decide (p.minRun ≤ 4095) && decide (p.maxSusp ≤ 4095) && decide (p.suspLimit ≤ 255) &&
  p.defaults.length == 13 && p.defaults.all (fun d => inRange 1 0xFFFFFFFF d.timeout) &&
  p.densities.all fun d => match p.density[(densityIdx d).val]? with
    | some e => paritySizes.contains e.parity && inRange 1 4 e.passes && decide (e.lag ≤ 3) && decide (e.sweepStep ≤ 16) && decide (e.softDelta ≤ 31)
    | none => false

/-- The ROM's microaddresses (R58). -/
def romWords : Nat := 8192

/-- A density that the profile does not name has an entry, LEVELS and XROWS of zeros (R409). -/
def blankDensity (p : MediaProfile) (d : Density) : Bool :=
  p.density.getD (densityIdx d).val ⟨0, 0, 0, 0, 0, 0, 0⟩ == ⟨0, 0, 0, 0, 0, 0, 0⟩ &&
  ((p.levels.drop (levelStart d)).take (32 * levelCount d)).all (· == 0) && ((p.xrows.drop (xrowStart d)).take (levelCount d)).all (· == 0)

/-- Check 0x08 (R412): features, the patch, the routines, and no content for a density that is not supported. -/
def profileRule (p : MediaProfile) (patches : List PatchBlob) : Bool :=
  let patch := patches.find? (·.patchId == p.patchId)
  let words := match patch with | some b => b.words.length | none => 0
  let inside (a : Nat) := a == 0x3FFF || decide (a < romWords + words)
  p.featuresOk && (allDensities.all fun d => p.densities.contains d || blankDensity p d) && (p.patchId == 0 || patch.isSome) && p.routines.all inside &&
  p.defaults.all (fun d => match p.routines[d.routine]? with | some a => inside a && a != 0x3FFF | none => false)

/-- Check 0x09: lanes of record 0x0003 against the profiles and the inventory (R397, R411). -/
def laneRule (ls : List LanePop) (profiles : List (Option MediaProfile)) (inventory : Option (List Nat)) : Bool :=
  ls.length == 24 && (ls.zipIdx).all fun (p, l) =>
    match p.profile with
    | none => true
    | some k =>
      (match profiles[k.val]? with | some (some _) => true | _ => false) && p.ceMask != 0 &&
      (List.range 32).all fun i => !(p.lunMask.getLsbD i) ||
        (p.ceMask.getLsbD (i / 4) && (match inventory with | some inv => inv.contains (l * 32 + i) | none => true))

/-- R174: sets, spares and lanes of one region. -/
def geometrySets (ls : List LanePop) (geo : GeometryRec) (g : Nat) : Bool :=
  let luns := regionLuns ls g
  let used := geo.setLuns.flatten ++ geo.spareLuns
  let lanes := (List.range 6).filter fun k => luns.any fun n => n / 32 == 6 * g + k
  let n := lanes.length
  geo.setLuns.length == geo.sets && geo.setLuns.all (fun set => set.length == geoW geo) &&
  used.Nodup && used.all (fun x => luns.contains x) && luns.all (fun x => used.contains x) &&
  decide (dflt geo.spares 2 ≤ geo.spareLuns.length) && decide (geo.spareLuns.length ≤ 32) &&
  geo.setLuns.all fun set => lanes.all fun k =>
    decide ((set.filter fun x => x / 32 == 6 * g + k).length * n ≤ geoW geo + n - 1)

/-- The band segment fits its slot (R142, R235): band write records, corrections, valid counts, the next write sequence, one record for each
block, segment entries and stripe records within 4,095 frames. -/
def bandSegmentFits (geo : GeometryRec) (p : MediaProfile) : Bool :=
  decide (32768 * (64 + 66 + 4) + 8 + 4 * (geo.setLuns.flatten.length + geo.spareLuns.length) * p.blocks + 32767 * 16 * 8 + 32768 * 112 ≤ 4095 * 4096)

/-- No stripe record and no segment that is not UNSTRIPED (R412). -/
def State.swarmEmpty (s : State) : Bool := (List.finRange 4).all fun g => (s.regions[g]).tab.stripes.isEmpty && (s.regions[g]).tab.segs.all fun e => e.state == .unstriped

/-- The tables of a region under a geometry record: block states and quarantines stand; replacements and set changes belong to the record in force. -/
def State.tabUnder (s : State) (g : RegionIx) (geo : GeometryRec) : RegionTables :=
  let t := (s.regions[g]).tab
  if s.geo? g = some geo then t else { t with replaced := [], adoptions := [], evacuated := [] }

/-- Bands of a pool that can be formed with the present inventory (R171). -/
def formableCount (geo : GeometryRec) (p : MediaProfile) (t : RegionTables) (slc : Bool) : Nat :=
  ((poolBands geo p slc).filter fun b => formable geo p t b).length

/-- SPARE of a pool stays above 0 (R171, R412). -/
def spareOkSlc (geo : GeometryRec) (p : MediaProfile) (t : RegionTables) : Bool := decide (slcNeeded geo < formableCount geo p t true)
def spareOkMain (geo : GeometryRec) (p : MediaProfile) (t : RegionTables) (ns : List NamespaceRec) (target : Nat → Density) : Bool :=
  decide (mainNeeded geo p ns target + dflt geo.resRelocation 2 < formableCount geo p t false)

/-- Check 0x0A (R412): R174, R175, R103, R235, one profile, its densities, SPARE of both pools with the present inventory and the namespaces of the
applied image (DEDUCED, log entry 129). -/
def geometryRule (s : State) (r : OptRecords) (present : List NamespaceRec) (geo : GeometryRec) (g : RegionIx) : Bool :=
  match r.lanes, regionProfile r g with
  | some ls, some p =>
    let used := geo.setLuns.flatten ++ geo.spareLuns
    let k := lunProfile ls ((geo.setLuns.headD []).headD 0)
    geometrySets ls geo g && used.all (fun x => lunProfile ls x == k) &&
    decide (geo.sets * (p.blocks - replBlocks geo p) ≤ 32767) &&
    p.densities.contains .slc && p.densities.contains .hlc &&
    p.densities.all (fun d => decide (p.wordlines * geoW geo * framesPerRow p d < 2 ^ 22 + 1)) &&
    bandSegmentFits geo p && spareOkSlc geo p (s.tabUnder g geo) &&
    spareOkMain geo p (s.tabUnder g geo) present (targetIn r.density)
  | _, _ => false

/-- Extents of two namespaces overlap. -/
def extentsOverlap (a b : NamespaceRec) : Bool :=
  decide (a.base < b.base + nsUnits b) && decide (b.base < a.base + nsUnits a)

/-- Pairs of a list, each once. -/
def pairsAll (f : α → α → Bool) : List α → Bool
  | [] => true
  | x :: xs => xs.all (f x) && pairsAll f xs

/-- Bytes of map segments of every extent on one die, plus 64 MiB a region (R123, R126, R150): an extent unit is one segment of
3,145,728 entries of 5 bytes in each region, and a die holds two regions. -/
def mapBytes (ns : List NamespaceRec) : Nat := (ns.map fun n => nsUnits n * 2 * (3145728 * 5)).sum + 2 * 67108864

/-- The map segments of every extent leave 40 % of the LPDDR5X of each die in service (R150). -/
def State.mapFits (s : State) (ns : List NamespaceRec) : Bool :=
  [(0 : DieIx), 1].all fun d => (s.com d).outOfService || decide (mapBytes ns * 10 ≤ s.dramBytes d * 6)

/-- The fold buffers take at most a quarter of the LPDDR5X of each die in service (R304). -/
def State.foldFits (s : State) (buffers : Nat) : Bool :=
  [(0 : DieIx), 1].all fun d => (s.com d).outOfService || decide (buffers * 2 ^ 20 * 4 ≤ s.dramBytes d)

/-- Check 0x0B: R401, R406, R150, R171. -/
def namespacesRule (s : State) (r : OptRecords) (ns applied : List NamespaceRec) : Bool :=
  pairsAll (fun a b => a.nsid != b.nsid && a.nguid != b.nguid && !extentsOverlap a b) ns &&
  ns.all (fun n => !n.phandles.isEmpty) &&
  applied.all (fun o => ns.any fun n => n.nsid == o.nsid && n.lbaf == o.lbaf && n.nsze == o.nsze && n.nguid == o.nguid && n.base == o.base) &&
  (((r.cipher.getD (false, false)).1 == false) || s.kekId != 0 || ns.all (fun n => applied.any fun o => o.nsid == n.nsid)) &&
  s.mapFits ns &&
  (List.finRange 4).all fun g => match r.geometry[g.val]?, regionProfile r g.val with
    | some (some geo), some p => spareOkMain geo p (s.tabUnder g geo) ns (targetIn r.density)
    | _, _ => false

/-- Ranges of R398. -/
def densityRange (d : DensityPolicy) : Bool :=
  d.target.all (fun t => (targetDensity t).isSome) && dfltOrRange 10 90 d.foldHigh && dfltOrRange 5 85 d.foldLow &&
  dfltOrRange 16 2048 d.foldBuffers && dfltOrRange 24 8760 d.patrol && d.spread.all (dfltOrRange 10 10000) && decide (d.refreshCount ≤ 64)

/-- Check 0x0C: the marks, the fold buffers, and the effective target of every declared namespace at every region (R65, R304, R398). -/
def densityRule (s : State) (r : OptRecords) : Bool :=
  let pol := r.density
  let hi := match pol with | some d => dflt d.foldHigh 50 | none => 50
  let lo := match pol with | some d => dflt d.foldLow 25 | none => 25
  decide (lo < hi) && s.foldFits (match pol with | some d => dflt d.foldBuffers 1024 | none => 1024) && ((r.namespaces.getD []).all fun n =>
    let t := match pol with | some d => d.target.getD (n.nsid - 1) 0 | none => 0
    match targetDensity t with
    | none => false
    | some dens => (List.range 4).all fun g => match regionProfile r g with | some p => p.densities.contains dens | none => false)

/-- Ranges of R403. -/
def powerRange (p : PowerRec) : Bool :=
  dfltOrRange 2700 5500 p.vinNom && decide (p.cap ≤ 20000) && dfltOrRange 3500 5500 p.target && dfltOrRange 10 1000 p.testLoad &&
  dfltOrRange 40 400 p.rescueP && decide (p.window ≤ 6144) && dfltOrRange 1 168 p.interval && dfltOrRange 1 60 p.chgTimeout

/-- Check 0x0D: R358, and the thresholds of R351. With no bank declared the windows must be 0. -/
def powerRule (p0 : PowerRec) : Bool :=
  let p := resolvePower p0
  (if p.cap = 0 then p.window == 0 else energyHolds p.cap p.target p.rescueP (windowBytes p)) &&
  (if p.vinNom < 2900 then p0.loss == 0 && p0.warn == 0
   else inRange 2800 (p.vinNom - 100) p.loss && decide (p.loss < p.warn) && decide (p.loss + 50 ≤ p.warn) && decide (p.warn ≤ p.vinNom))

/-- Check 0x0E: used SQIDs are at most 128 and not repeated for one controller (R402). -/
def orderedRule (l : List Nat) : Bool :=
  l.all (fun q => decide (q ≤ 128)) && ((l.take 16).filter (· != 0)).Nodup && (((l.drop 16).take 16).filter (· != 0)).Nodup

/-- Check 0x10: no filter on a Severe or Fatal source (R405). -/
def filtersRule (m : BitVec 512) : Bool :=
  (List.range 512).all fun i => !(m.getLsbD i) || (match classOf i with | some c => !isSerious c | none => true)

/-- Check 0x11. -/
def mgmtRule (m : MgmtPortRec) : Bool := dfltOrRange 8 0x77 m.addr && decide (m.speed ≤ 2) && dfltOrRange 8 254 m.eid

/-- Check 0x07: the certificate, the authority hash, and no change of identity while the swarm holds anything of it (R396). -/
def identityRule (s : State) (r : IdentityRec) (applied : Option IdentityRec) : Bool :=
  (match r.cert with | some c => c.member == r.member && c.swarmId == r.swarmId | none => true) &&
  (r.authHash == 0 || s.keeper.prot.authHash == 0 || r.authHash == s.keeper.prot.authHash) &&
  (match applied with
   | some a => (a.swarmId == r.swarmId && a.member == r.member) || s.swarmEmpty
   | none => true)

/-- Record types whose records are required (R394): each missing one fails with 0x05. -/
def missing (r : OptRecords) : List Nat :=
  (if r.identity.isNone then [1] else []) ++ (if r.profiles.all (·.isNone) then [2] else []) ++
  (if r.lanes.isNone then [3] else []) ++ (if (List.range 4).any (fun g => (r.geometry[g]?).getD none |>.isNone) then [5] else []) ++
  (if r.hostPorts.isNone then [6] else [])

/-- The running image's schema range (R375, R412). -/
def State.schemaRange (s : State) : Nat × Nat :=
  match s.fw.running with
  | some k => match s.fw.slots[k].image with
    | some i => (i.schemaMin, i.schemaMax)
    | none => (0, 0)
  | none => (0, 0)

/-- Codes 0x04 and 0x05 of one record type, then its own checks. -/
def recordCheck (img : OptImage) (type : Nat) (own : List CheckFail) : CheckFail :=
  firstFail ([require (!img.reservedBad.contains type) type 4,
              require (!img.shapeBad.contains type && !(missing img.records).contains type) type 5] ++ own)

/-- The option check (R412). -/
def State.optionCheck (s : State) (img : OptImage) : CheckFail :=
  let r := img.records
  let applied := appliedOf s.opt
  let appliedRecs := applied.map (·.records)
  let each {α : Type} (o : Option α) (f : α → List CheckFail) : List CheckFail := match o with | some x => f x | none => []
  firstFail [
    require img.headerOk 0 1,
    require (decide (s.schemaRange.1 ≤ img.schema) && decide (img.schema ≤ s.schemaRange.2)) 0 2,
    require (img.baseSeq == (match applied with | some a => a.seq | none => 0)) 0 3,
    recordCheck img 1 (each r.identity fun x => [require (identityRange x) 1 6,
      require (identityRule s x (appliedRecs.bind (·.identity))) 1 7]),
    recordCheck img 2 (r.profiles.flatMap fun o => each o fun p => [require (profileRange p) 2 6, require (profileRule p s.runningPatches) 2 8]),
    recordCheck img 3 (each r.lanes fun ls => [require (ls.all fun p => dfltOrRange 50 10000 p.idleUs) 3 6,
      require (laneRule ls r.profiles s.opt.inventory) 3 9]),
    recordCheck img 4 (each r.density (fun d => [require (densityRange d) 4 6]) ++ [require (densityRule s r) 4 12]),
    recordCheck img 5 ((List.finRange 4).flatMap fun g => each ((r.geometry[g.val]?).getD none) fun geo =>
      [require ([0, 18, 32, 64].contains geo.w && inRange 1 12 geo.sets && dfltOrRange 5 100 geo.rb && dfltOrRange 10 200 geo.retireLimit &&
        dfltOrRange 700 980 geo.op) 5 6, require (geometryRule s r ((appliedRecs.bind (·.namespaces)).getD []) geo g) 5 10]),
    recordCheck img 6 (each r.hostPorts fun h => [require (decide (h.subnqn.length ≤ 223)) 6 6]),
    recordCheck img 7 (each r.namespaces fun ns => [
      require (decide (ns.length ≤ 32) && ns.all fun n => inRange 1 32 n.nsid && decide (n.lbaf ≤ 2) && decide (blocksPerGranule n.lbaf ≤ n.nsze) &&
        n.nguid != 0 && n.phandles.all fun h => decide (h < 8)) 7 6,
      require (namespacesRule s r ns ((appliedRecs.bind (·.namespaces)).getD [])) 7 11]),
    recordCheck img 8 (each r.ordered fun l => [require (orderedRule l) 8 14]),
    recordCheck img 9 (each r.power fun p => [require (powerRange p) 9 6, require (powerRule p) 9 13]),
    recordCheck img 10 (each r.thermal fun t => [require (decide (-40 ≤ t.darkTemp) && decide (t.darkTemp ≤ 85)) 10 6,
      require (t.media &&& ~~~t.present == 0) 10 15]),
    recordCheck img 11 (each r.darkWait fun w => [require (decide (w ≤ 600000)) 11 6]),
    recordCheck img 12 (each r.filters fun m => [require (filtersRule m) 12 16]),
    recordCheck img 13 [],
    recordCheck img 14 (each r.mgmt fun m => [require (mgmtRule m) 14 17])]

/-- Whether a change from the applied image holds anything start-only (R394, R414): identity but for CERT, profiles, lanes,
FOLD_BUFFERS, geometry, host ports, removed or changed namespaces, the management port. -/
def startOnlyChange (old new : OptRecords) : Bool :=
  (old.identity.map fun i => { i with cert := none }) != (new.identity.map fun i => { i with cert := none }) ||
  old.profiles != new.profiles || old.lanes != new.lanes || old.geometry != new.geometry || old.hostPorts != new.hostPorts ||
  old.mgmt != new.mgmt ||
  (match old.density with | some d => dflt d.foldBuffers 1024 | none => 1024) != (match new.density with | some d => dflt d.foldBuffers 1024 | none => 1024)

end Sys2Proof.Machine
end

