-- ==== Sys2Proof/Machine/Collector.lean ====
section
/-! DEFINITION. The fault collector, the first-fault latch and the event recorder (R458 to R476). -/

namespace Sys2Proof.Machine

/-- The record of a token that arrives now (R469). -/
def State.recordOf (s : State) (t : EventToken) (cls : EventClass) : EventRecord :=
  { opsec := s.keeper.tk.opsec, pcycles := BitVec.ofNat 24 (min s.keeper.tk.pcycles 0xFFFFFF),
    usec := BitVec.ofNat 20 (s.keeper.tk.usec % 1000000), source := t.source, cls := cls,
    conseq := t.cause.isSome, first := false, injected := t.injected, cause := t.cause.getD 0,
    repeats := 0, data0 := t.data0, data1 := t.data1 }

/-- The last slot of the log, kept for source 380 (R473). -/
def logLast : Nat := 1048575

/-- A record dropped is counted in KPR_EV_LOST, saturating (R470, R473). -/
def State.loseRecords (s : State) (n : Nat) : State :=
  s.updEv fun e => { e with lost := satAdd 0xFFFFFFFF e.lost n }

/-- Start a flush of the records present (R470). One that is running is left to end. -/
def State.startFlush (s : State) : State :=
  if s.keeper.ev.flushing || s.keeper.ev.full || s.keeper.ev.buf.isEmpty then s
  else s.updEv fun e => { e with flushing := true, buf := e.buf.map fun b => { b with flushing := true } }

/-- A record matches the newest record still in the buffer (R471). -/
def recordMatches (a b : EventRecord) : Bool :=
  a.source == b.source && a.cls == b.cls && a.conseq == b.conseq && a.first == b.first && a.injected == b.injected &&
  a.cause == b.cause && a.data0 == b.data0 && a.data1 == b.data1

/-- Absorb a record into the newest of the buffer where R471 allows: REPEAT rises by one, saturating. -/
def absorb (buf : List BufEntry) (r : EventRecord) : Option (List BufEntry) :=
  match buf.getLast? with
  | some b =>
    if !b.flushing && recordMatches b.record r then
      some (buf.dropLast ++ [{ b with record := { b.record with
        repeats := if b.record.repeats = 0xFFFF then 0xFFFF else b.record.repeats + 1 } }])
    else none
  | none => none

/-- Entries of class Notice and Degraded in the buffer. -/
def ordinaryCount (buf : List BufEntry) : Nat := (buf.filter fun b => !isSerious b.record.cls).length

/-- Whether a record of the class finds an entry it may take: 64 in all, 56 for Notice and Degraded (R470). -/
def bufferAccepts (buf : List BufEntry) (cls : EventClass) : Bool :=
  decide (buf.length < 64) && (isSerious cls || decide (ordinaryCount buf < 56))

/-- The event filters in force keep a filtered source out (R405). -/
def State.filtered (s : State) (src : Nat) (cls : EventClass) : Bool :=
  !isSerious cls && (match s.opt.inForce with
    | some img => (img.records.filters.getD 0).getLsbD src
    | none => false)

/-- Pass a record to the event recorder: filter, absorb, take an entry or be lost, and start a flush (R470, R471). -/
def State.recordEvent (s : State) (r : EventRecord) : State :=
  if s.filtered r.source r.cls then s
  else if s.keeper.ev.full then s.loseRecords 1
  else match absorb s.keeper.ev.buf r with
    | some buf => s.updEv fun e => { e with buf := buf }
    | none =>
      if !bufferAccepts s.keeper.ev.buf r.cls then s.loseRecords 1
      else
        let s := s.updEv fun e => { e with buf := e.buf ++ [{ record := r, flushing := false }] }
        let s := if s.keeper.ev.buf.length = 48 then s.updEv fun e => { e with irq := e.irq.set 0 } else s
        if isSerious r.cls then
          if s.keeper.ev.flushing then s.updEv fun e => { e with again := true } else s.startFlush
        else if s.keeper.ev.buf.length ≥ 48 then s.startFlush
        else s

/-- The first-fault latch (R463): an empty latch takes the record with FIRST; a full one sets OVERFLOW, keeps the first
SECOND, and raises source 379 once for each latch. Answers the state and whether the record is the latched one. -/
def State.latchRecord (s : State) (r : EventRecord) : State × Bool :=
  match s.keeper.fc.latch with
  | none => (s.updFc fun f => { f with latch := some { r with first := true }, irq := f.irq.set 0 }, true)
  | some _ =>
    let raise379 := !s.keeper.fc.overflowRaised
    let s := s.updFc fun f => { f with overflow := true, overflowRaised := true, irq := f.irq.set 1,
                                       second := some (f.second.getD r.source) }
    (if raise379 then s.raise 379 else s, false)

/-- A token's work at the collector (R458, R462, R463, R467). A consequential event sets no pending bit and is not latched. -/
def State.collect (s : State) (t : EventToken) : State :=
  match classOf t.source with
  | none => s
  | some cls =>
    let r := s.recordOf t cls
    if isSerious cls && !r.conseq then
      let s := s.updFc fun f => { f with pend := f.pend ||| (BitVec.ofNat 512 (2 ^ t.source)) }
      let p := s.latchRecord r
      p.1.recordEvent { r with first := p.2 }
    else s.recordEvent r

/-- EVENT_TOKEN (R458): the arbiter grants the i-th token on its way. -/
def execEventToken (i : Nat) (s : State) : Out :=
  match s.keeper.fc.tokens[i]? with
  | none => unchanged s
  | some t => .next ((s.updFc fun f => { f with tokens := f.tokens.eraseIdx i }).collect t)

/-- Write records into the slots from `at` on; answers the log and the next slot. -/
def writeSlots : List (Nat × EventRecord) → Nat → List EventRecord → List (Nat × EventRecord) × Nat
  | log, at_, [] => (log, at_)
  | log, at_, r :: rs => if at_ < logLast then writeSlots (log ++ [(at_, r)]) (at_ + 1) rs else (log, at_)

/-- The record of Event recorder full, written into the last slot (R473). -/
def State.fullRecord (s : State) : EventRecord :=
  s.recordOf { source := 380, data0 := 0, data1 := 0, cause := none, injected := false, fromD1 := false } .degraded

/-- A flush ends (R470, R473): its records stand in the log. When they reach the last ordinary slot, those that do not fit
are lost, source 380 takes the last slot and recording stops. -/
def State.finishFlush (s : State) : State :=
  let mine := (s.keeper.ev.buf.filter (·.flushing)).map (·.record)
  let rest := s.keeper.ev.buf.filter (!·.flushing)
  let w := writeSlots s.keeper.ev.log s.keeper.ev.next mine
  let again := s.keeper.ev.again
  if w.2 < logLast then
    let s := s.updEv fun e => { e with buf := rest, log := w.1, next := w.2, flushing := false, again := false, irq := e.irq.set 1 }
    if again || decide (rest.length ≥ 48) then s.startFlush else s
  else
    let lostNow := mine.length - (w.1.length - s.keeper.ev.log.length) + rest.length
    let s := (s.setIrq 380).loseRecords lostNow
    s.updEv fun e => { e with buf := [], log := w.1 ++ [(logLast, s.fullRecord)], next := logLast + 1, full := true,
                              flushing := false, again := false, irq := e.irq.set 1 }

/-- A flush that runs to its end inside the present step (R353 step 9, R363 step 7, R376). -/
def State.flushNow (s : State) : State :=
  let s := if s.keeper.ev.flushing then s.finishFlush else s
  let s := s.startFlush
  if s.keeper.ev.flushing then s.finishFlush else s

/-- EVENT_FLUSH_COMPLETE (R470, R473). -/
def execEventFlushComplete (s : State) : Out :=
  if !s.keeper.ev.flushing then unchanged s else .next s.finishFlush

/-- A line of the event log fails to program: it is skipped, counted, and source 381 raised (R472). -/
def State.skipLogLine (s : State) : State :=
  (s.updEv fun e => { e with next := min logLast ((e.next / 8 + 1) * 8), skipped := satAdd 0xFFFF e.skipped 1 }).raise 381

/-- KPR_EV_CTRL.FLUSH (R482). -/
def execKprEvCtrlFlush (s : State) : Out := .next s.startFlush

/-- KPR_FC_FIRST.VALID written 1: the latch, OVERFLOW and SECOND clear together and the latch re-arms (R463). -/
def execKprFcFirstClear (s : State) : Out :=
  .next (s.updFc fun f => { f with latch := none, overflow := false, second := none, overflowRaised := false })

/-- A W1C write to KPR_FC_PENDk (R462, R464). -/
def execKprFcPendClear (k : Fin 16) (mask : Word) (s : State) : Out :=
  .next (s.updFc fun f => { f with pend := f.pend &&& ~~~((mask.setWidth 512) <<< (32 * k.val)) })

end Sys2Proof.Machine
end

