-- ==== Sys2Proof/Machine/Reactions.lean ====
section
/-! DEFINITION. Reactions of the package level shared by several events: the rescue (R353), a die out of service (R33), the safe state
(R477), restarts (R369) and the loss of the keeper's supply (R362). -/

namespace Sys2Proof.Machine

/-- The rescue order (R353 steps 2 to 5; R477 step 7 when `safe`; R369 when `restart`). With no bank declared HU_ISO stays low
(R358); in the safe state VCORE stays and 362 is not raised (R357). A diapause record stands (R364). -/
def State.startRescue (s : State) (bank safe restart : Bool) : State :=
  if s.keeper.rescue.run.isSome then s else
  let iso := bank && decide (s.power.cap ≠ 0)
  let kib := s.windowKib
  let s := s.updSup fun x => { x with
    huIso := iso, huChgEn := safe && x.huChgEn, huTest := false,
    state := if safe then x.state else .rescue,
    vcore := if safe then x.vcore else #v[55, 55] }
  let s := s.updHu fun h => { h with phase := .idle, charge := .off }
  let s := s.updRescue fun r => { r with
    run := some { onBank := iso, safeState := safe, thenRestart := restart,
                  railLost := !(s.keeper.sup.vccqOk && s.keeper.sup.vddqOk && s.keeper.sup.vdd2hOk), windowKib := kib },
    record := if r.record = .diapause && s.diapauseReady then .diapause else .started, windowKib := kib }
  let s := if s.keeper.rescue.record = .started then s.keeperLine 1 else s
  let s := if safe then s else s.raise 362
  (s.hostStopForGood [0, 1]).lanesStop [0, 1]

/-- The dies held in reset by the keeper: volatile state of both goes back to its reset values (R345, R353, R383). -/
def State.resetDie (s : State) (d : DieIx) : State :=
  (s.resetDieVolatile d).updCommon d fun c => { c with inReset := true, inService := false, coreUp := false }

/-- D0 in reset clears LOCK (R371, R388). -/
def State.resetBothDies (s : State) : State :=
  ((s.resetDie 0).resetDie 1).updBoot fun b => { b with lock := false, stage := if b.stage = .heldInReset then .heldInReset else .inReset, active := 0 }

/-- SPEED and static EID of the management port record in the image of the previous start (R407, R488). -/
def State.mpSpeed (s : State) : BitVec 2 := BitVec.ofNat 2 (((s.recs?.bind (·.mgmt)).map (·.speed)).getD 0)
def State.mpEid (s : State) : Byte := BitVec.ofNat 8 (((s.recs?.bind (·.mgmt)).map (·.eid)).getD 0)

/-- The records of a rescue are programmed with an erase suspended, which the rescue never resumes (R434; DEDUCED, log entry 112). -/
def State.eraseForRescue (s : State) : State :=
  s.updStore fun x => { x with erase := x.erase.map fun e => if e.susp = .explicit then e else { e with susp := .rescue } }

/-- An erase suspended by a command, or for a rescue, goes on at the next start, after a program that runs (R431 to R434). -/
def State.resumeAtStart (s : State) : State :=
  s.updStore fun x => { x with erase := x.erase.map fun e =>
    if e.susp = .explicit ∨ e.susp = .rescue then { e with susp := if x.prog.isSome then .autoSuspended else .running, runTime := 0 } else e }

/-- A start before D0's release: the counters and marks that every start sets (R369, R388). The bridge is tried afresh, and with it the choice of
R33 is made again. -/
def State.beginStart (s : State) : State :=
  let s := ({ s with bridgeUp := true } : State).clearBridge
  let s := s.updBoot fun b => { b with starts := satAdd 255 b.starts 1, fetchMs := 0, unconfigured := false, sealed := false,
                                       recoveryCommitted := false, protRepaired := false }
  let s := s.resumeAtStart
  let s := s.updHu fun h => { h with mode := if s.power.cap = 0 then .writeThrough else .closedAtStart,
                                     charge := if s.power.cap = 0 then .off else .charging, phase := .idle, degraded := false }
  let s := s.updMp fun m => { m with inService := true, refused := 0, speed := s.mpSpeed }
  s.updSup fun x => { x with state := .starting, huChgEn := decide (s.power.cap ≠ 0), vcore := #v[75, 75], capSteps := [], ps := 0 }

/-- Steps 7 to 10 of R353 and what follows step 10. A board rail lost leaves the record started (R344).
The hold-up pins of the safe state and a rescue moved to the bank: DEDUCED, log entry 113. -/
def State.finishRescue (s : State) (r : RescueRun) (tenUs : Nat) : State :=
  let s := (s.persistWindows [0, 1]).persistJournals
  let s := s.eraseForRescue.writeTkRecord
  let done := !r.railLost
  let s := if done then
      (s.setIrq 363).recordEvent (s.recordOf { source := 363, data0 := 0, data1 := 0, cause := none, injected := false, fromD1 := false } .notice)
    else s
  let s := if done then s.flushNow.keeperLine 1 else s.flushNow
  let s := s.updRescue fun q => { q with
    run := none,
    record := if q.record = .diapause then .diapause else if done then .complete else .started,
    last := if done then 1 else q.last,
    duration := if done then min tenUs 0x3FFF else q.duration,
    completed := if done then q.completed + 1 else q.completed,
    isoRelease := r.onBank || !(r.safeState || r.thenRestart) }
  if r.safeState then s.updSup fun x => { x with state := .safe, huIso := r.onBank, huChgEn := !r.onBank && decide (s.power.cap ≠ 0), huTest := false }
  else if r.thenRestart && !r.onBank then s.resetBothDies.beginStart
  else s.resetBothDies

/-- The safe state (R477 steps 1 to 5; steps 6 to 8 end with RESCUE_COMPLETE). A rescue that runs already completes once, and the
safe state follows (R480). -/
def State.enterSafe (s : State) : State :=
  if s.keeper.fc.safe then s else
  let s := (s.raise 378).updFc fun f => { f with
    safe := true, shadow := some { source := 378, scope := .allButKeeper, own := .keeper, order := f.shadowSeq },
    shadowSeq := f.shadowSeq + 1, irq := f.irq.set 2 }
  let s := s.hostFatal.swarmFaultNotice
  match s.keeper.rescue.run with
  | some r => s.updRescue fun q => { q with run := some { r with safeState := true } }
  | none => s.startRescue false true false

/-- A die taken out of service (R33): it stops its host port, swarm port and lanes, the rescue persists its window, and its regions'
partners adopt them (R132). `source` opens the shadow of R465. -/
def State.takeOut (s : State) (d : DieIx) (source : Nat) : State :=
  if (s.com d).outOfService then s else
  let s := s.openShadow d source (.dieAndBridge d) (blockOf source)
  let s := s.updCommon d fun c => { c with inService := false, outOfService := true }
  let s := ((s.hostStopForGood [d]).swarmStop d).lanesStop [d]
  let s := s.persistWindows [d]
  (regionsOfDie d).foldl (fun s g => s.regionOut g) s

/-- Whether D0 holds an uncleared fault of class Severe or Fatal (R33). -/
def State.d0Faulted (s : State) : Bool :=
  (List.range 512).any fun i => s.isPending i && blockDie (blockOf i) == some 0 && decide (i < 360)

/-- Die bridge lost (R32, R33). The choice is made on the faults that stand before this one; the token of D1 finds no bridge (R459).
In a shadow, as while a core reloads, the dies report and react no further (R465, R467). -/
def State.bridgeLost (s : State) : State :=
  if !s.bridgeUp then s else if s.shaded (.bridge 0) then (s.raise 312).raise 344 else
  let d0Bad := s.d0Faulted
  let s := (({ s.raise 312 with bridgeUp := false } : State).raise 344).clearBridge
  if d0Bad then s.takeOut 0 312 else s.takeOut 1 344

/-- The reaction of source 383 by its rail code (R461). -/
def State.railReaction (s : State) (r : PkgRail) : State :=
  match r with
  | .vcore0 => s.takeOut 0 383
  | .vcore1 => s.takeOut 1 383
  | .vkeep | .vio18 | .vpll | .vphy => s.enterSafe

/-- VKEEP lost: pending bits, latch, buffered records and tokens are gone (R462, R480). -/
def State.keeperDark (s : State) : State :=
  let s := s.updFc fun f => { f with tokens := [], pend := 0, latch := none, overflow := false, second := none, overflowRaised := false, selfOk := false }
  let s := s.updEv fun e => { e with buf := [], flushing := false, again := false }
  let s := s.updMp fun m => { m with
    inService := false, refused := 0, irq := .reset 0x3, speed := s.mpSpeed, eid := s.mpEid, eidValid := s.mpEid != 0 }
  (s.updTk fun t => { t with kept := false }).updSup fun x => { x with vkeep := false, xtal32k := false }

end Sys2Proof.Machine
end

