-- ==== Sys2Proof/Machine/Firmware.lean ====
section
/-! DEFINITION. Firmware download, commit and activation (R441 to R452), and the slot checks of the boot ROM (R374). -/

namespace Sys2Proof.Machine

def State.updSlot (s : State) (k : Fin 2) (f : FwSlot → FwSlot) : State :=
  s.updFw fun x => { x with slots := x.slots.set k (f x.slots[k]) }

/-- A slot changes with its part of the slot state record (R425, R445). -/
def State.noteSlot (s : State) (k : Fin 2) (f : FwSlot → FwSlot) : State := (s.updSlot k f).keeperLine 2

/-- First sector of a slot, and of its half of the patch area (R423, R444). -/
def slotSector (k : Fin 2) : Nat := 1024 * k.val
def patchSector (k : Fin 2) : Nat := 384 + 16 * k.val

/-- An empty slot. -/
def emptySlot : FwSlot := { state := .empty, cause := 0, image := none, patches := [], seen := false, keyWrapped := false }

/-- The slot that is not running (R446). With none running, the one that is not active. -/
def State.targetSlot (s : State) : Fin 2 :=
  match s.fw.running with
  | some k => ⟨1 - k.val, by omega⟩
  | none => ⟨1 - s.fw.active.val, by omega⟩

/-- Recovery mode serves the boot ROM's own commands (R384 to R386). -/
def State.inRecovery (s : State) : Bool := s.keeper.boot.stage == .recovery

/-- FIRMWARE_IMAGE_DOWNLOAD (R446). `image` is what the slot's bytes spell when the piece is in; a start discards it uncommitted. -/
def execFirmwareImageDownload (ref : CmdRef) (offset len : Nat) (last : Bool) (image : FwImage) (s : State) : Out :=
  s.adminThen .fwDownload ref fun s =>
    let t := s.targetSlot
    if offset = 0 then
      if len = 0 ∨ (len % 4096 ≠ 0 ∧ last = false) then .next (s.complete ref stInvalidField 0) else
      let s := (s.countErases (slotSector t) 384).noteSlot t fun _ => { emptySlot with state := .downloading, image := some image }
      let s := s.updFw fun x => { x with
        pendingSlot := if x.pendingSlot = some t then none else x.pendingSlot, download := some (ref.ctrl.val, len) }
      .next (s.complete ref stOk 0)
    else match s.fw.download with
      | none => .next (s.complete ref stInvalidField 0)
      | some (c, next) =>
        if c ≠ ref.ctrl.val then .next (s.complete ref stSequenceError 0)
        else if offset ≠ next ∨ len = 0 ∨ (len % 4096 ≠ 0 ∧ last = false) then
          let s := (s.noteSlot t fun _ => emptySlot).updFw fun x => { x with download := none }
          .next (s.complete ref stInvalidField 0)
        else
          let s := (s.updSlot t fun x => { x with image := some image }).updFw fun x => { x with download := some (c, next + len) }
          .next (s.complete ref stOk 0)

/-- The header check of R448, R444: every case in which a commit fails. -/
def State.headerCheck (s : State) (i : FwImage) (bytes : Nat) : Bool :=
  i.formOk && i.targetOk && i.bodyLen + 4096 == bytes && i.bodyHashOk && i.signed && decide (s.keeper.prot.fwArb.toNat ≤ i.arbLevel) &&
  i.keyOk && i.patches.all fun p => p.verified && decide (s.keeper.prot.patchArb.toNat ≤ p.arb)

/-- The slot checks of R374 in order: the cause of the first failure in the code of KPR_BOOT_FAIL. -/
def State.slotFailure (s : State) (i : FwImage) : Option (BitVec 4) :=
  if !i.signed || !i.targetOk || !i.formOk then some 3
  else if i.arbLevel < s.keeper.prot.fwArb.toNat then some 4
  else if !i.bodyHashOk then some 5
  else none

/-- The slot named by a commit: 0 selects the target (R447). -/
def State.commitSlot (s : State) (n : Nat) : Option (Fin 2) :=
  if n = 0 then some s.targetSlot else if n = 1 then some 0 else if n = 2 then some 1 else none

/-- An accepted replacement (R444, R447): patches copied, key rewrapped, committed, source 471. -/
def State.acceptCommit (s : State) (ref : CmdRef) (k : Fin 2) (i : FwImage) : State :=
  let s := (s.countErases (patchSector k) 16).noteSlot k fun x => { x with
    state := if i.deferred then .committedDeferred else .committed, patches := i.patches, cause := 0,
    seen := !i.deferred, keyWrapped := !i.deferred }
  (s.updFw fun x => { x with download := none }).raiseAt ref.ctrl 471 0 0

/-- Commit actions 000 and 001 (R386, R447, R448). Answers the state and whether the commit was accepted. -/
def State.replace (s : State) (ref : CmdRef) (n : Nat) : State × Status :=
  match s.commitSlot n with
  | none => (s, stInvalidSlot)
  | some k =>
    if s.fw.running = some k then (s, stInvalidSlot)
    else match s.fw.slots[k].image, s.fw.download with
      | some i, some (_, bytes) =>
        if s.inRecovery then
          if i.deferred || !s.headerCheck i bytes || (s.slotFailure i).isSome then (s, stInvalidImage)
          else ((s.acceptCommit ref k i).updBoot fun b => { b with recoveryCommitted := true }, stOk)
        else if i.deferred then (s.acceptCommit ref k i, stOk)
        else if s.headerCheck i bytes then (s.acceptCommit ref k i, stOk)
        else ((s.noteSlot k fun _ => emptySlot).updFw fun x => { x with download := none }, stInvalidImage)
      | _, _ => (s, stInvalidImage)

def State.fwGate (s : State) (ref : CmdRef) (f : State → State × Status) : Out :=
  s.adminThen .fwCommit ref fun s => let r := f s; .next (r.1.complete ref r.2 0)

/-- FIRMWARE_COMMIT_REPLACE, action 000 (R447). -/
def execFirmwareCommitReplace (ref : CmdRef) (slot : Nat) (s : State) : Out := s.fwGate ref fun s => s.replace ref slot

/-- FIRMWARE_COMMIT_REPLACE_ACTIVATE, action 001 (R447): as 000, then PENDING and status 0x10. -/
def execFirmwareCommitReplaceActivate (ref : CmdRef) (slot : Nat) (s : State) : Out :=
  s.fwGate ref fun s =>
    let r := s.replace ref slot
    if r.2 = stOk then ((r.1.updFw fun x => { x with pendingSlot := s.commitSlot slot }).keeperLine 2, stFwPending) else r

/-- Slots that may be activated (R447). -/
def activatable (x : SlotState) : Bool := x == .committed || x == .served || x == .committedDeferred

/-- FIRMWARE_COMMIT_ACTIVATE_AT_RESET, action 010 (R447). Naming the running slot clears PENDING. -/
def execFirmwareCommitActivateAtReset (ref : CmdRef) (slot : Nat) (s : State) : Out :=
  s.fwGate ref fun s =>
    match s.commitSlot slot with
    | none => (s, stInvalidSlot)
    | some k =>
      if s.fw.running = some k then ((s.updFw fun x => { x with pendingSlot := none }).keeperLine 2 |>.raiseAt ref.ctrl 471 0 0, stOk)
      else if activatable s.fw.slots[k].state then ((s.updFw fun x => { x with pendingSlot := some k }).keeperLine 2 |>.raiseAt ref.ctrl 471 0 0, stFwPending)
      else (s, stInvalidImage)

/-- The conditions of R449 for activation at once. -/
def State.liveActivatable (s : State) (i : FwImage) : Bool :=
  i.actLive && !i.deferred &&
  (match s.opt.inForce with
   | some a => decide (i.schemaMin ≤ a.schema) && decide (a.schema ≤ i.schemaMax) &&
      a.records.profiles.all fun p => match p with
        | some p => p.patchId == 0 || i.patches.any (·.patchId == p.patchId)
        | none => true
   | none => true)

/-- The commit of action 011 on a slot (R447 to R449): an image that was downloaded and not committed is committed as by action 000; a
committed native one passes the header check again or its slot becomes empty. -/
def State.recommit (s : State) (ref : CmdRef) (slot : Nat) (k : Fin 2) (i : FwImage) : State × Status :=
  if s.fw.slots[k].state = .downloading then s.replace ref slot
  else if !activatable s.fw.slots[k].state then (s, stInvalidImage)
  else if i.deferred || s.headerCheck i (i.bodyLen + 4096) then (s.raiseAt ref.ctrl 471 0 0, stOk)
  else (s.noteSlot k fun _ => emptySlot, stInvalidImage)

/-- FIRMWARE_COMMIT_ACTIVATE_NOW, action 011 (R447, R449, R452). Where the conditions of R449 do not hold, PENDING is set and the status is
0x10. The running slot is refused as for action 000 (DESIGN CHOICE, log entry 137). -/
def execFirmwareCommitActivateNow (ref : CmdRef) (slot : Nat) (s : State) : Out :=
  s.fwGate ref fun s =>
    if s.inRecovery then (s, stInvalidField)
    else if s.sanitizing || s.preparing || s.diapauseReady then (s, stActivationProhibited)
    else match s.commitSlot slot with
      | none => (s, stInvalidSlot)
      | some k =>
        if s.fw.running = some k then (s, stInvalidSlot) else
        match s.fw.slots[k].image with
          | none => (s, stInvalidImage)
          | some i =>
            let r := s.recommit ref slot k i
            if r.2 ≠ stOk then r
            else if s.liveActivatable i then ((r.1.updFw fun x => { x with activating := some k }).hostPauseFetch, stOk)
            else ((r.1.updFw fun x => { x with pendingSlot := some k }).keeperLine 2, stFwPending)

/-- FIRMWARE_COMMIT_BOOT_PARTITION, actions 100 to 111 (R447). -/
def execFirmwareCommitBootPartition (ref : CmdRef) (s : State) : Out := s.fwGate ref fun s => (s, stInvalidField)

/-- A slot first serves the host: served, and its image's anti-rollback requests recorded (R445). -/
def State.slotServes (s : State) : State :=
  match s.fw.running with
  | none => s
  | some k => match s.fw.slots[k].image with
    | none => s
    | some i =>
      let s := s.noteSlot k fun x => { x with state := .served }
      s.updFw fun x => { x with
        arbReq := if i.raiseArb then some (BitVec.ofNat 32 i.arbLevel) else x.arbReq,
        patchArbReq := if i.raisePatchArb then some (BitVec.ofNat 32 i.patchArbLevel) else x.patchArbReq }

/-- Step 5 of R449: the patches of the lanes are loaded again from the half of the slot that now runs (R444). -/
def State.reloadPatches (s : State) : State :=
  (List.finRange 24).foldl (fun s l =>
    let named : Bool := match s.laneProfile l with | some p => p.patchId != 0 | none => false
    if named && s.lanes[l].iface != 0 then s.loadPatch l (((s.patchBlob l).map (·.words)).getD []) else s) s

/-- FIRMWARE_ACTIVATION (R417, R449 steps 1 to 7): a live apply under way completes first; fetch has stopped, every fetched command has
completed, and the lanes hold no context. The outcome of loading D1's core and the region cores is the operand (R378, R452). -/
def execFirmwareActivation (d1CoreOk : Bool) (regionCoreOk : Vector Bool 4) (s : State) : Out :=
  match s.fw.activating with
  | none => unchanged s
  | some k =>
    if s.opt.barrier.isSome || (List.finRange 24).any (fun l => s.lanes[l].ctxs.any (·.isSome)) then unchanged s else
    let s := s.raise 472
    let s := s.updFw fun x => { x with active := k, pendingSlot := none, running := some k, activating := none }
    let s := s.keeperLine 2
    let s := s.updBoot fun b => { b with active := BitVec.ofNat 2 (k.val + 1) }
    let s := if d1CoreOk then s else s.takeOut 1 344
    let s := (List.finRange 4).foldl (fun s g => if regionCoreOk[g] then s else s.regionOut g) s
    .next ((s.reloadPatches.hostResumeFetch.raise 473).slotServes)

end Sys2Proof.Machine
end

