-- ==== Sys2Proof/Machine/Option.lean ====
section
/-! DEFINITION. Staging, checking and applying option images (R295, R375, R391, R413 to R419). -/

namespace Sys2Proof.Machine

/-- An empty staging slot. -/
def noStaging : Staging := { next := 0, image := none, marked := false, cancelled := false }

/-- Whether A is the target slot of R415 step 2: the invalid one of A and B, or else the one of lower SEQ. -/
def OptionArea.targetA (o : OptionArea) : Bool :=
  match (if o.corruptA then none else o.slotA), (if o.corruptB then none else o.slotB) with
  | none, _ => true
  | some _, none => false
  | some x, some y => decide (x.seq ≤ y.seq)

/-- Write an image into the target slot, whose 16 sectors are erased first (R391, R415, R423). -/
def State.installImage (s : State) (img : OptImage) : State :=
  (s.countErases (if s.opt.targetA then 416 else 432) 16).updOpt fun o =>
    if o.targetA then { o with slotA := some img, corruptA := false, inForce := some img } else { o with slotB := some img, corruptB := false, inForce := some img }

/-- SEQ of the applied image, 0 for none. -/
def appliedSeq (o : OptionArea) : Nat := match appliedOf o with | some a => a.seq | none => 0

/-- Put an image in force as applied: SEQ raised by one, APPLY programmed in its slot, the set taken by every block (R415 steps 2
to 6, R416). A changed CAP, TARGET or TEST_LOAD starts a bank measurement. -/
def State.applyImage (s : State) (img : OptImage) (live : Bool) : State :=
  let before := s.power
  let img' := { img with seq := appliedSeq s.opt + 1 }
  let oldNs := ((s.recs?).bind (·.namespaces)).getD []
  let oldGeo := ((appliedOf s.opt).map (·.records.geometry)).getD []
  let s := s.installImage img'
  let s := (List.finRange 4).foldl (fun (s : State) (g : RegionIx) => if oldGeo[g.val]? = img'.records.geometry[g.val]? then s else s.updTab g fun (t : RegionTables) => { t with spare0 := none }) s
  let s := s.applyNamespaces oldNs (img'.records.namespaces.getD [])
  if live then
    let after := s.power
    if before.cap ≠ after.cap ∨ before.target ≠ after.target ∨ before.testLoad ≠ after.testLoad then
      if after.cap = 0 then (s.updHu fun h => { h with mode := .writeThrough, phase := .idle, charge := .off }).updSup fun x => { x with huChgEn := false, huTest := false }
      else if s.keeper.hu.phase = .idle then
        s.updHu fun h => { h with phase := .draining, mode := if h.mode = .window then .closedForMeasure else h.mode, cap := after.cap, target := after.target, testLoad := after.testLoad }
      else s
    else s
  else s

/-- OPTION_STAGE (R295, R413, R417): one piece in contiguous order. `image` is the image that the bytes staged so far spell. -/
def execOptionStage (ref : CmdRef) (offset len : Nat) (last : Bool) (image : OptImage) (s : State) : Out :=
  s.adminThen .optionStage ref fun s =>
    if ref.viaMi = true ∧ 4096 < len then .next (s.complete ref (stMi 0x04) 0)
    else if offset % 4096 ≠ 0 ∨ len = 0 ∨ len > 262144 * 4 then .next (s.complete ref stInvalidField 0)
    else if offset = 0 ∧ s.opt.barrier.isSome = true then .next (s.complete ref stInProgress 0)
    else if offset ≠ 0 ∧ (s.opt.staging.next ≠ offset ∨ s.opt.staging.image.isSome = true) then .next (s.complete ref stStageOutOfOrder 0)
    else if offset + len > 1048576 then .next (s.complete ref stStageOutOfOrder 0)
    else
      let base := if offset = 0 then noStaging else s.opt.staging
      let s := if offset = 0 then s.countErases 448 16 else s
      let s := s.updOpt fun o => { o with staging := { base with next := offset + len, image := if last then some image else none } }
      let s := if last then s.raiseAt ⟨ref.ctrl.val, ref.ctrl.isLt⟩ 475 0 0 else s
      .next (s.complete ref stOk 0)

/-- Completion Dword 0 of a failed check: record type and check code (R412). -/
def checkDw0 (f : Nat × Nat) : Word := BitVec.ofNat 32 (f.1 + 65536 * f.2)

/-- OPTION_CHECK (R295, R412): a failure raises 476. -/
def execOptionCheck (ref : CmdRef) (s : State) : Out :=
  s.adminThen .optionCheck ref fun s =>
    match s.opt.staging.image with
    | none => .next (s.complete ref stNothingStaged 0)
    | some img => match s.optionCheck img with
      | none => .next (s.complete ref stOk 0)
      | some f => .next ((s.raiseAt ref.ctrl 476 0 0).complete ref stOptionCheckFailed (checkDw0 f))

/-- Option Apply's check: the staged image, or the status that refuses it (R414, R417). -/
def State.applyCheck (s : State) (ref : CmdRef) : OptImage ⊕ State :=
    if s.opt.barrier.isSome then .inr (s.complete ref stInProgress 0)
    else match s.opt.staging.image with
    | none => .inr (s.complete ref stNothingStaged 0)
    | some img => match s.optionCheck img with
      | some f => .inr ((s.raiseAt ref.ctrl 476 0 0).complete ref stOptionCheckFailed (checkDw0 f))
      | none => .inl img

/-- OPTION_APPLY_AT_START (R414): APPLY programmed in the staging slot. -/
def execOptionApplyAtStart (ref : CmdRef) (s : State) : Out :=
  s.adminThen .optionApply ref fun s => match s.applyCheck ref with
  | .inr s => .next s
  | .inl _ => .next ((s.updOpt fun o => { o with staging := { o.staging with marked := true, cancelled := false } }).complete ref stOk 1)

/-- OPTION_APPLY_LIVE (R414, R415, R417): the barrier goes up and fetch pauses; the apply ends on the next step with no command waiting. An
activation under way goes first. A start-only change completes with Start-Only Change and applies nothing. An unconfigured package
applies at next start only (R377). -/
def execOptionApplyLive (ref : CmdRef) (s : State) : Out :=
  s.adminThen .optionApply ref fun s => match s.applyCheck ref with
  | .inr s => .next s
  | .inl img =>
    if s.preparing then .next (s.complete ref stInProgress 0) else if s.fw.activating.isSome then unchanged s else
    match appliedOf s.opt with
    | none => .next (s.complete ref stStartOnlyChange 0)
    | some a =>
      if startOnlyChange a.records img.records then .next (s.complete ref stStartOnlyChange 0)
      else
        let s := (s.updOpt fun o => { o with barrier := some ref }).hostPauseFetch
        .next (s.updHost (refDie ref) fun h => { h with
          slots := h.slots ++ [heldSlot ref .vendor 0] })

/-- The apply instant and the end of a live apply (R415 steps 5 to 7): the staged image is in force, fetch resumes, 477 is raised and the
command completes. The staging slot keeps its image, which its BASE_SEQ makes stale (R391, R414). The spare of each pool is judged anew (R172). -/
def State.settleApply (s : State) : State :=
  match s.opt.barrier, s.opt.staging.image with
  | some ref, some img =>
    if s.keeper.boot.stage ≠ .serving ∨ s.keeper.rescue.run.isSome = true ∨ s.keeper.fc.safe = true then s else
    let s := (s.applyImage img true).updOpt fun o => { o with barrier := none }
    let s := (((s.raiseAt ref.ctrl 477 0 0).hostChangedNs).hostResumeFetch).checkSpares
    if s.dies[refDie ref].host.slots.any fun x => x.ref == ref then s.complete ref stOk 0 else s
  | _, _ => s

/-- An image that the package writes itself after a change of its namespace set (R418): a staged image goes stale, because its
BASE_SEQ no longer names the applied image. -/
def State.packageImage (s : State) (ns : List NamespaceRec) : State :=
  match appliedOf s.opt with
  | none => s
  | some a => s.installImage { a with seq := a.seq + 1, records := { a.records with namespaces := some ns } }

/-- The staging slot at a start (R375, R387, R414): a marked image is checked in full; it is applied and 478 raised, or its mark is
withdrawn and 476 raised. -/
def State.stagedAtStart (s : State) : State :=
  if !s.opt.staging.marked || s.opt.staging.cancelled then s else
  match s.opt.staging.image with
  | none => s
  | some img => match s.optionCheck img with
    | none => (((s.applyImage img false).countErases 448 16).updOpt fun o => { o with staging := noStaging }).raise 478
    | some _ => (s.raise 476).updOpt fun o => { o with staging := { o.staging with marked := false, cancelled := true } }

end Sys2Proof.Machine
end

