-- ==== Sys2Proof/Machine/StoreDie.lean ====
section
/-! DEFINITION. The store die's controller: command sequences, refusals, programs, erases, reads and execute-only ranges
(R422 to R440). -/

namespace Sys2Proof.Machine

/-- A sector under erase, suspended or not, or with erase intent pending (R431, R437). -/
def underErase (x : Store) (n : Nat) : Bool :=
  (match x.erase with | some e => e.sectors.contains n | none => false) || x.intentPending.contains n || (rowOf x.rows n).intent

/-- Boot ROM inside the boot window (R371). -/
def State.windowOpen (s : State) : Bool := s.keeper.boot.stage == .bootWindow && !s.keeper.boot.lock

/-- A program or an unsuspended erase runs in either bank. -/
def storeBusy (x : Store) : Bool :=
  x.prog.isSome || (match x.erase with | some e => e.susp == .running | none => false)

/-- Refusals of R431 for a program or an erase of sectors by a requester; `prog` tells which. -/
def State.storeRefusal (s : State) (req : Requester) (sectors : List Nat) (prog : Bool) : Option StoResult :=
  let x := s.store
  if storeBusy x || (!prog && x.erase.isSome) then some .busy
  else if sectors.any isFactory then some .readOnly
  else if sectors.any isEventLog && (!prog || req != .keeper) then some .readOnly
  else if sectors.any isProtection && !(req == .bootRom && s.windowOpen) then some .readOnly
  else if prog && sectors.any (underErase x) then some .targetErasing
  else none

/-- STO_CMD of a command that starts, ends or is refused. -/
def Store.setCmd (x : Store) (code : Byte) (r : StoResult) (sector : Nat) (req : Requester) (count : Nat) : Store :=
  { x with cmdCode := code, cmdResult := r, cmdSector := sector, cmdRequester := req, cmdCount := count }

/-- A refused access to a protection set sector raises Protection write after lock (R431). -/
def State.refuseStore (s : State) (code : Byte) (r : StoResult) (sectors : List Nat) (req : Requester) : State :=
  let s := s.updStore fun x => x.setCmd code r (sectors.headD 0) req x.cmdCount
  if r = .readOnly ∧ sectors.any isProtection = true then s.raise 374 else s

/-- Programming clears bits only: a bit that would rise refuses the program with BIT_RISE (R429). -/
def bitRise (m : List Host.Cell) (offset : Nat) : List Byte → Bool
  | [] => false
  | b :: bs => (b &&& ~~~(memRead m offset)) != 0 || bitRise m (offset + 1) bs

/-- A complete program command (R427, R429, R431, R432). -/
def State.startProgram (s : State) (code : Byte) (req : Requester) (offset : Nat) (bytes : List Byte) : State :=
  let n := sectorOf offset
  match s.storeRefusal req [n] true with
  | some r => s.refuseStore code r [n] req
  | none =>
    if bitRise s.store.array offset bytes then s.refuseStore code .bitRise [n] req
    else s.updStore fun x => { (x.setCmd code .running n req x.cmdCount) with prog := some { requester := req, offset := offset, bytes := bytes } }

/-- A complete erase command (R427, R431, R437): the intent marks are set before the erase. -/
def State.startErase (s : State) (req : Requester) (sectors : List Nat) (fromIntent : Bool) : State :=
  match s.storeRefusal req sectors false with
  | some r => s.refuseStore 0x30 r sectors req
  | none => s.updStore fun x =>
    { (x.setCmd 0x30 .running (sectors.headD 0) req sectors.length) with
      rows := sectors.foldl (fun rows n => setRow rows { rowOf rows n with intent := true }) x.rows
      erase := some { requester := req, sectors := sectors, susp := .running, runTime := 0, fromIntent := fromIntent } }

/-- 0x31 (R431, R433): denied with source 500; a suspension for a waiting read becomes explicit. -/
def State.eraseSuspend (s : State) (req : Requester) : State :=
  let deny := (s.updStore fun x => x.setCmd 0x31 .suspendDenied x.cmdSector req x.cmdCount).raise 500
  let ok (e : StoreErase) := s.updStore fun x => { (x.setCmd 0x31 .completed (e.sectors.headD 0) req x.cmdCount) with erase := some { e with susp := .explicit } }
  match s.store.erase with
  | none => deny
  | some e => match e.susp with
    | .autoSuspended => ok e
    | .running => if s.store.prog.isSome || decide (e.runTime < 50) then deny else ok e
    | .explicit | .rescue => if s.store.prog.isSome then deny else ok e

/-- 0x32 (R431): resumes a suspended erase, after a program that runs (R432); with none suspended it has no effect. -/
def State.eraseResume (s : State) (req : Requester) : State :=
  s.updStore fun x =>
    let x := x.setCmd 0x32 .completed x.cmdSector req x.cmdCount
    match x.erase with
    | some e => if e.susp = .running then x else
        { x with erase := some { e with susp := if x.prog.isSome then .autoSuspended else .running, runTime := 0 } }
    | none => x

/-- An open sequence is abandoned: nothing is programmed and RESULT reads ABANDONED (R428). -/
def Store.abandon (x : Store) : Store :=
  match x.seq with
  | some o => { (x.setCmd (match o.step with | .operands c _ => c | _ => x.cmdCode) .abandoned x.cmdSector o.owner x.cmdCount) with seq := none }
  | none => x

/-- 0xF0 (R427, R430): RESULT 0x0 and normal reads. -/
def Store.toRead (x : Store) (req : Requester) : Store :=
  { (x.setCmd 0xF0 .completed x.cmdSector req x.cmdCount) with seq := none, margin := 0 }

/-- Operand writes of 0x20: 64, ascending from an aligned offset. -/
def ascending : List (Nat × Word) → Bool
  | (a, _) :: (b, w) :: r => a + 4 == b && ascending ((b, w) :: r)
  | _ => true

/-- One more operand write of an open sequence, after it joined the list (R427, R428, R431). -/
def State.operandWrite (s : State) (req : Requester) (code : Byte) (ws : List (Nat × Word)) : State :=
  let close := s.updStore fun x => { x with seq := none }
  let hold := s.updStore fun x => { x with seq := some { owner := req, step := .operands code ws } }
  let abandon := s.updStore Store.abandon
  let first := (ws.headD (0, 0)).1
  let bad := close.refuseStore code .badOperand [] req
  if code = 0x10 then
    if first % 8 ≠ 0 ∨ arrayBytes ≤ first then bad
    else if !ascending ws then abandon
    else if ws.length < 2 then hold
    else close.startProgram code req first (ws.flatMap fun w => wordBytes w.2)
  else if code = 0x20 then
    if first % 256 ≠ 0 ∨ arrayBytes ≤ first then bad
    else if !ascending ws then abandon
    else if ws.length < 64 then hold
    else close.startProgram code req first (ws.flatMap fun w => wordBytes w.2)
  else if code = 0x30 then
    if ws.any (fun w => w.2 != 0x30) || decide (8 < ws.length) then abandon
    else if ws.any (fun w => decide (arrayBytes ≤ w.1)) || !((ws.map fun w => sectorOf w.1).Nodup) ||
        ws.any (fun w => sectorBank (sectorOf w.1) != sectorBank (sectorOf first)) then bad
    else hold
  else if code = 0x40 then
    if first ≠ 0xAA8 then abandon
    else match ws with
      | [(_, w)] => if w.toNat ≤ 2 then close.updStore fun x => { (x.setCmd code .completed x.cmdSector req x.cmdCount) with margin := w.toNat } else bad
      | _ => abandon
  else if code = 0x50 then
    match ws with
    | [(a, w)] =>
      if w ≠ 0 then abandon else if arrayBytes ≤ a then bad else
      close.updStore fun x => { (x.setCmd code .completed (sectorOf a) req x.cmdCount) with
        result := BitVec.ofNat 32 (min 0xFFFFFFFF (rowOf x.rows (sectorOf a)).counter) }
    | _ => abandon
  else abandon

/-- The command code of a sequence (R427): codes with no operand act at once. -/
def State.codeWrite (s : State) (req : Requester) (w : Word) : State :=
  let code := w.setWidth 8
  let close := s.updStore fun x => { x with seq := none }
  if w.toNat ≥ 256 then s.updStore Store.abandon
  else if [0x10, 0x20, 0x30, 0x40, 0x50].contains code.toNat then
    s.updStore fun x => { x with seq := some { owner := req, step := .operands code [] } }
  else if code = 0x31 then close.eraseSuspend req
  else if code = 0x32 then close.eraseResume req
  else if code = 0xF0 then s.updStore fun x => x.toRead req
  else s.updStore Store.abandon

/-- One 32-bit write to the controller by a requester, with no other requester's sequence open (R426, R428). -/
def State.ownCycle (s : State) (req : Requester) (offset : Nat) (w : Word) : State :=
  match s.store.seq with
  | none =>
    if offset = 0xAA8 ∧ w = 0x9C then s.updStore fun x => { x with seq := some { owner := req, step := .unlocked1 } } else s
  | some o => match o.step with
    | .unlocked1 =>
      if offset = 0x554 ∧ w = 0x63 then s.updStore fun x => { x with seq := some { o with step := .unlocked2 } }
      else s.updStore Store.abandon
    | .unlocked2 => if offset = 0xAA8 then s.codeWrite req w else s.updStore Store.abandon
    | .operands code ws => s.operandWrite req code (ws ++ [(offset, w)])

/-- When a sequence has ended, the requester that waited first goes on with the cycles it holds (R428). -/
def State.drainWaiting (s : State) : Nat → State
  | 0 => s
  | fuel + 1 =>
    match s.store.waiting with
    | [] => s
    | (req, off, w) :: rest =>
      match s.store.seq with
      | some o => if o.owner = req then
          ((s.updStore fun x => { x with waiting := rest }).ownCycle req off w).drainWaiting fuel
        else s
      | none => ((s.updStore fun x => { x with waiting := rest }).ownCycle req off w).drainWaiting fuel

/-- One write cycle: a first cycle of another requester waits for the open sequence to end, and its later cycles behind it. -/
def State.storeCycle (s : State) (req : Requester) (offset : Nat) (w : Word) : State :=
  let other := match s.store.seq with | some o => o.owner != req | none => false
  let queued := s.store.waiting.any (·.1 == req)
  if other then
    if queued || (offset == 0xAA8 && w == 0x9C) then s.updStore fun x => { x with waiting := x.waiting ++ [(req, offset, w)] } else s
  else
    let s := s.ownCycle req offset w
    s.drainWaiting s.store.waiting.length

/-- A command given by its three cycles and its operand writes. -/
def State.storeCommand (s : State) (req : Requester) (code : Word) (writes : List (Nat × Word)) : State :=
  ([(0xAA8, 0x9C), (0x554, 0x63), (0xAA8, code)] ++ writes).foldl (fun (s : State) (w : Nat × Word) => s.storeCycle req w.1 w.2) s

/-- Whether the store die answers commands. -/
def State.storeUp (s : State) : Bool := s.keeper.sup.vio18 && s.store.ready

def State.storeRun (s : State) (req : Requester) (code : Word) (writes : List (Nat × Word)) : Out :=
  if s.storeUp then .next (s.storeCommand req code writes) else unchanged s

/-- PROGRAM_64_BIT_WORD (R427 code 0x10). Fewer than two operand writes leave the sequence open. -/
def execProgram64BitWord (req : Requester) (writes : List (Nat × Word)) (s : State) : Out := s.storeRun req 0x10 writes
/-- PROGRAM_256_BYTE_LINE (R427 code 0x20). -/
def execProgram256ByteLine (req : Requester) (writes : List (Nat × Word)) (s : State) : Out := s.storeRun req 0x20 writes
/-- ERASE_SECTOR (R427 code 0x30): one operand offset a sector; the erase starts 50 µs after the last (STORE_ERASE_START). -/
def execEraseSector (req : Requester) (offsets : List Nat) (s : State) : Out :=
  s.storeRun req 0x30 (offsets.map fun a => (a, 0x30))
/-- ERASE_SUSPEND (R431 code 0x31); `runTime` is the erase's run time in 10 µs units at this moment. -/
def execEraseSuspend (req : Requester) (runTime : Nat) (s : State) : Out :=
  (s.updStore fun x => { x with erase := x.erase.map fun e => { e with runTime := max e.runTime runTime } }).storeRun req 0x31 []
/-- ERASE_RESUME (R431 code 0x32). -/
def execEraseResume (req : Requester) (s : State) : Out := s.storeRun req 0x32 []
/-- MARGIN_MODE (R430 code 0x40). -/
def execMarginMode (req : Requester) (mode : Word) (s : State) : Out := s.storeRun req 0x40 [(0xAA8, mode)]
/-- READ_ERASE_COUNTER (R427 code 0x50). -/
def execReadEraseCounter (req : Requester) (offset : Nat) (s : State) : Out := s.storeRun req 0x50 [(offset, 0)]

/-- RETURN_TO_READ (R427, R428 code 0xF0): the requester's open sequence is abandoned, and RESULT reads 0x0. -/
def execReturnToRead (req : Requester) (s : State) : Out :=
  let mine := match s.store.seq with | some o => o.owner == req | none => true
  if !s.storeUp then unchanged s
  else if mine then
    let s := s.updStore fun x => x.toRead req
    .next (s.drainWaiting s.store.waiting.length)
  else s.storeRun req 0xF0 []

/-- STORE_SEQUENCE_TIMEOUT (R428): 10 ms between two writes. An erase whose operands have been given starts instead. -/
def execStoreSequenceTimeout (s : State) : Out :=
  match s.store.seq with
  | none => unchanged s
  | some _ =>
    let s := s.updStore Store.abandon
    .next (s.drainWaiting s.store.waiting.length)

/-- STORE_ERASE_START (R427): 50 µs after the last operand write of an erase. -/
def execStoreEraseStart (s : State) : Out :=
  match s.store.seq with
  | some { owner := req, step := .operands code ws } =>
    if code = 0x30 ∧ ws ≠ [] then
      let s := (s.updStore fun x => { x with seq := none }).startErase req (ws.map fun w => sectorOf w.1) false
      .next (s.drainWaiting s.store.waiting.length)
    else unchanged s
  | _ => unchanged s

/-- A failure's trace in STO_FAULT: the first since start, and the count (R440). -/
def Store.noteFault (x : Store) (cause sector : Nat) : Store :=
  { x with faultCause := if x.faultCause = 0 then cause else x.faultCause,
           faultSector := if x.faultCause = 0 then sector else x.faultSector, faultCount := satAdd 0xFFFF x.faultCount 1 }

/-- The array after a program: bits cleared where the data has zeros. -/
def programBytes (m : List Host.Cell) (offset : Nat) : List Byte → List Host.Cell
  | [] => m
  | b :: bs => programBytes (memWrite m offset (memRead m offset &&& b)) (offset + 1) bs

/-- What a failed program left: each bit to be cleared is cleared or not, which the spec leaves open (DESIGN CHOICE, log entry 9). -/
def failedBytes (k : Nat) : List Byte → List Byte
  | [] => []
  | b :: bs => (b ||| Config.freeByte k) :: failedBytes (k + 1) bs

/-- STORE_PROGRAM_COMPLETE (R429, R432, R472). With no command's program running it is a line of the event flush. -/
def execStoreProgramComplete (ok : Bool) (s : State) : Out :=
  match s.store.prog with
  | none => if s.keeper.ev.flushing && !ok then .next ((s.raise 496).skipLogLine) else unchanged s
  | some p =>
    let n := sectorOf p.offset
    let done (s : State) : State := s.updStore fun x => { x with prog := none, readWaits := x.readWaits.set (sectorBank n) 0 }
    if ok then
      .next (done (s.updStore fun x => { (x.setCmd x.cmdCode .completed n p.requester x.cmdCount) with array := programBytes x.array p.offset p.bytes }))
    else
      let s := { (s.updStore fun x =>
        ({ (x.setCmd x.cmdCode .programFail n p.requester x.cmdCount) with
           array := programBytes x.array p.offset (failedBytes s.free p.bytes) }).noteFault 1 n) with free := s.free + p.bytes.length }
      let s := (done s).raise 496
      .next (if p.requester = .keeper ∧ isEventLog n = true then s.skipLogLine else s)

/-- Content of the areas that the model holds decoded goes with their sectors (R389, R423, R436, R444, R445). -/
def State.areaErased (s : State) (n : Nat) : State :=
  if 416 ≤ n ∧ n ≤ 431 then s.updOpt fun o => { o with slotA := none }
  else if 432 ≤ n ∧ n ≤ 447 then s.updOpt fun o => { o with slotB := none }
  else if 448 ≤ n ∧ n ≤ 463 then s.updOpt fun o => { o with staging := { next := 0, image := none, marked := false, cancelled := false } }
  else if n ≤ 383 then s.updFw fun f => { f with slots := f.slots.set 0 { f.slots[0] with image := none } }
  else if 1024 ≤ n ∧ n ≤ 1407 then s.updFw fun f => { f with slots := f.slots.set 1 { f.slots[1] with image := none } }
  else if 384 ≤ n ∧ n ≤ 399 then s.updFw fun f => { f with slots := f.slots.set 0 { f.slots[0] with patches := [] } }
  else if 400 ≤ n ∧ n ≤ 415 then s.updFw fun f => { f with slots := f.slots.set 1 { f.slots[1] with patches := [] } }
  else if 525 ≤ n ∧ n ≤ 780 then s.updStore fun x => { x with index := x.index.filter fun r => r.sector != n - 525 }
  else s

/-- One sector's erase has verified (R437, R438): mark cleared, counter raised, the limit reported. -/
def State.sectorErased (s : State) (n : Nat) : State :=
  let s := s.updStore fun x => { x with array := memEraseSector x.array n, intentPending := x.intentPending.filter (· != n) }
  (s.areaErased n).countErase n

/-- Of the sectors found with intent at the start the next round of up to 8 of one bank is erased afresh (R437). -/
def State.nextIntents (s : State) : State :=
  let next := (s.store.intentPending.filter fun m => sectorBank m == sectorBank (s.store.intentPending.headD 0)).take 8
  if next.isEmpty then s else s.updStore fun x => { x with
    erase := some { requester := .keeper, sectors := next, susp := .running, runTime := 0, fromIntent := true } }

/-- STORE_ERASE_COMPLETE (R437, R438, R430). `marginFailures` counts the readings in mode 2 that failed: one erases once more, a
second marks the sectors BAD. Sectors found with intent and still waiting are taken next. -/
def execStoreEraseComplete (marginFailures : Nat) (s : State) : Out :=
  match s.store.erase with
  | none => unchanged s
  | some e =>
    if e.susp ≠ .running then unchanged s else
    let n := e.sectors.headD 0
    let s := e.sectors.foldl State.sectorErased s
    let s := s.updStore fun x => { (x.setCmd 0x30 .completed n e.requester e.sectors.length) with erase := none }
    let s := if marginFailures ≥ 1 then
        ((s.raise2 498 (BitVec.ofNat 32 n) 0).updStore fun x => x.noteFault 3 n).sectorErased n else s
    let s := if marginFailures ≥ 2 then
        ((((s.raise2 498 (BitVec.ofNat 32 n) 0).raise2 497 (BitVec.ofNat 32 n) 0).updStore fun x =>
          { (x.noteFault 3 n) with rows := setRow x.rows { rowOf x.rows n with bad := true } })) else s
    .next s.nextIntents

/-- STORE_ERASE_TIMEOUT (R429): not verified after 1 s of run time: ERASE_FAIL, 497 and BAD. -/
def execStoreEraseTimeout (s : State) : Out :=
  match s.store.erase with
  | none => unchanged s
  | some e =>
    let n := e.sectors.headD 0
    .next (((s.updStore fun x =>
      { ((x.setCmd 0x30 .eraseFail n e.requester e.sectors.length).noteFault 2 n) with
        erase := none, rows := e.sectors.foldl (fun rows m => setRow rows { rowOf rows m with bad := true }) x.rows,
        intentPending := x.intentPending.filter fun m => !e.sectors.contains m }).raise2 497 (BitVec.ofNat 32 n) 0).nextIntents)

end Sys2Proof.Machine
namespace Sys2Proof.Machine

/-- An execute-only descriptor in force over a sector, from the instant LOCK is set (R435). -/
def State.xoOver (s : State) (n : Nat) : Option XoDesc :=
  if !s.keeper.boot.lock then none
  else s.keeper.prot.xo.toList.find? fun d => d.en && decide (d.first.toNat ≤ n) && decide (n < d.first.toNat + d.count.toNat)

/-- What a data read delivers (R430, R433): zeros under erase or intent; at a margin reference weak bits read otherwise, which the
spec leaves open. -/
def State.dataRead (s : State) (offset : Nat) : Word :=
  if underErase s.store (sectorOf offset) then 0
  else
    let w := s.readWord offset
    match s.store.margin with
    | 0 => w
    | 1 => w ||| Config.freeWord (s.free + 1)
    | _ => w &&& Config.freeWord (s.free + 1)

/-- A word has been read: what the read drew of the free values is not drawn again. -/
def State.afterRead (s : State) (offset : Nat) (w : Word) : State :=
  { (s.updStore fun x => { x with lastRead := w }) with
    free := if s.store.margin = 0 ∧ (s.arrayWord offset).isSome = true then s.free else s.free + 2 }

/-- A program or a running erase in a bank: its reads wait (R432, R433). -/
def bankBusy (x : Store) (b : Fin 2) : Bool :=
  (match x.prog with | some p => sectorBank (sectorOf p.offset) == b | none => false) ||
  (match x.erase with | some e => e.susp == .running && sectorBank (e.sectors.headD 0) == b | none => false)

/-- STORE_ARRAY_READ (R430, R433, R435). `byCore` names the die core that reads; `differs` is a margin read-back that differs from
what its writer keeps. -/
def execStoreArrayRead (kind : StoreReadKind) (offset : Nat) (byCore : Option DieIx) (differs : Bool) (s : State) : Out :=
  if !s.storeUp || decide (arrayBytes ≤ offset) then unchanged s else
  let n := sectorOf offset
  let b := sectorBank n
  if bankBusy s.store b then .next (s.updStore fun x => { x with readWaits := x.readWaits.set b (x.readWaits[b] + 1) })
  else
    let plain := s.readWord offset
    match kind with
    | .fetch => .next (s.afterRead offset (if underErase s.store n then 0 else plain))
    | .hashing =>
      let open_ := s.store.hashPort && (match s.xoOver n with | some d => d.hashPort | none => true)
      .next (s.afterRead offset (if open_ && !underErase s.store n then plain else 0))
    | .data =>
      if (s.xoOver n).isSome then
        let s := (s.updStore fun x => { x with lastRead := 0 }).raise2 501 (BitVec.ofNat 32 n) 0
        .next (match byCore with
          | some d => s.raise (dieSrc d 26)
          | none => s)
      else
        let s := s.afterRead offset (s.dataRead offset)
        .next (if differs ∧ s.store.margin ≠ 0 then
            (s.updStore fun x => x.noteFault 3 n).raise2 498 (BitVec.ofNat 32 n) 0
          else s)

/-- STORE_ERASE_AUTO_SUSPEND (R433): 500 µs of run time with a read waiting; the reads are served. -/
def execStoreEraseAutoSuspend (s : State) : Out :=
  match s.store.erase with
  | some e =>
    let b := sectorBank (e.sectors.headD 0)
    if e.susp = .running ∧ s.store.readWaits[b] ≠ 0 then
      .next (s.updStore fun x => { x with erase := some { e with susp := .autoSuspended, runTime := max e.runTime 50 }, readWaits := x.readWaits.set b 0 })
    else unchanged s
  | none => unchanged s

/-- STORE_ERASE_AUTO_RESUME (R432 to R434): no read has waited for 50 µs, and neither a program nor a rescue runs. -/
def execStoreEraseAutoResume (s : State) : Out :=
  match s.store.erase with
  | some e =>
    if s.keeper.rescue.run = none ∧ e.susp = .autoSuspended ∧ s.store.prog = none ∧ s.store.readWaits[sectorBank (e.sectors.headD 0)] = 0 then
      .next (s.updStore fun x => { x with erase := some { e with susp := .running, runTime := 0 } })
    else unchanged s
  | none => unchanged s

end Sys2Proof.Machine
end

