-- ==== Sys2Proof/Machine/Watchdog.lean ====
section
/-! DEFINITION. Watchdogs, shadows' ends, die temperatures, the collector's self-check and fault injection (R461 to R479). -/

namespace Sys2Proof.Machine

/-- One hour of operating time (R461). -/
def withinHour (now : BitVec 40) (before : Option Nat) : Bool :=
  match before with
  | some t => decide (now.toNat - t < 3600)
  | none => false

/-- The reaction of 320 and 352 (R461): the region core is reloaded under a shadow; a second event of the same region within an
hour takes the region out of service. -/
def State.regionDogReaction (s : State) (g : RegionIx) : State :=
  let d := dieOfRegion g
  if s.shaded (.die d) then s else
  let k : Fin 2 := ⟨g.val % 2, by omega⟩
  let again := withinHour s.keeper.tk.opsec (s.com d).regionDog[k]
  let s := s.updCommon d fun c => { c with regionDog := c.regionDog.set k (some s.keeper.tk.opsec.toNat) }
  let s := s.openShadow d (dieSrc d 24) (.regionDependents g) (.die d)
  if again then s.regionOut g else s

/-- REGION_CORE_WATCHDOG (R461): DATA0 carries the region. -/
def execRegionCoreWatchdog (g : RegionIx) (s : State) : Out :=
  let d := dieOfRegion g
  if !(s.com d).inService then unchanged s else
  let shaded := s.shaded (.die d)
  let s := s.raise2 (dieSrc d 24) (BitVec.ofNat 32 g.val) 0
  .next (if shaded then s else s.regionDogReaction g)

/-- The reaction of 321 and 353 (R461). D0: fetch stops and the core restarts, which is over when the shadow closes; a second event within an
hour enters the safe state. D1: its core is reloaded, a second event takes D1 out of service. -/
def State.dieDogReaction (s : State) (d : DieIx) : State :=
  let again := withinHour s.keeper.tk.opsec (s.com d).coreDog
  let s := s.updCommon d fun c => { c with coreDog := some s.keeper.tk.opsec.toNat }
  if d = 0 then
    let s := s.openShadow 0 321 .bothDies (.die 0)
    if again then s.enterSafe else if (s.com 0).shadows.any fun x => x.source == 321 then s.hostPauseFetch else s
  else
    let s := s.openShadow 1 353 (.dieAndBridge 1) (.die 1)
    if again then s.takeOut 1 353 else s

/-- DIE_CORE_WATCHDOG (R461). -/
def execDieCoreWatchdog (d : DieIx) (s : State) : Out :=
  if !(s.com d).inService then unchanged s else
  let shaded := s.shaded (.die d)
  let s := s.raise (dieSrc d 25)
  .next (if shaded then s else s.dieDogReaction d)

/-- Conditions of the state itself that still hold for a shadow's dependents are raised again (R468). -/
def State.reevaluate (s : State) (sh : Shadow) (d : DieIx) : State :=
  if !scopeCovers sh.scope (.die d) then s else
  let s := if (s.com d).vcoreBad then
      ((s.raise (dieSrc d 17)).updCommon d fun c => { c with tokensPaused := true }).openShadow d (dieSrc d 17) (.dieAndBridge d) (.die d)
    else s
  let s := if (s.com d).warned then s.raise (dieSrc d 18) else s
  if (s.com d).critical then s.raise (dieSrc d 19) else s

/-- SHADOW_CLOSE (R468): the shadow leaves its holder, and every detector of its dependents evaluates afresh. The shadow of the
safe state lasts until VIN is removed. After D0's core restart fetch resumes. -/
def execShadowClose (holder : Option DieIx) (i : Nat) (persisting : List Persisting) (s : State) : Out :=
  match holder with
  | none => unchanged s
  | some d =>
    match (s.com d).shadows[i]? with
    | none => unchanged s
    | some sh =>
      let s := s.updCommon d fun c => { c with shadows := c.shadows.eraseIdx i }
      let s := if sh.source = 321 then s.hostResumeFetch else s
      let s := (s.reevaluate sh 0).reevaluate sh 1
      .next (persisting.foldl (fun s p =>
        if scopeCovers sh.scope (blockOf p.source) then s.raise2 p.source p.data0 p.data1 else s) s)

/-- A collector self-check failure (R476): pending bits and latch are discarded, 373 and 378 set and 373 latched by a path past
the collector's registers, and the safe state entered. -/
def State.collectorFailed (s : State) : State :=
  let r373 := s.recordOf { source := 373, data0 := 0, data1 := 0, cause := none, injected := false, fromD1 := false } .fatal
  let s := (s.setIrq 373).updFc fun f => { f with
    selfOk := false, pend := (BitVec.ofNat 512 (2 ^ 373)) ||| (BitVec.ofNat 512 (2 ^ 378)),
    latch := some { r373 with first := true }, overflow := false, second := none, overflowRaised := false, irq := f.irq.set 0 }
  (s.recordEvent { r373 with first := true }).enterSafe

/-- COLLECTOR_PARITY_SCAN (R476). -/
def execCollectorParityScan (ok : Bool) (s : State) : Out :=
  if ok || !s.keeper.sup.vkeep then unchanged s else .next s.collectorFailed

/-- DIE_TEMPERATURE_WARNING (R461): outside the grade's range; not again until it cleared 5 °C inside. -/
def execDieTemperatureWarning (d : DieIx) (t : Int) (s : State) : Out :=
  let s := s.updCommon d fun c => { c with temp := t, tempMax := max c.tempMax t }
  if (t > gradeMax ∨ t < gradeMin) ∧ !(s.com d).warned then
    .next ((s.updCommon d fun c => { c with warned := true }).raise (dieSrc d 18))
  else .next s

/-- DIE_TEMPERATURE_CRITICAL (R461): above the grade maximum + 10 °C the keeper holds the PS2 cap. In a shadow the event is raised
and nothing else happens (R467). -/
def execDieTemperatureCritical (d : DieIx) (t : Int) (s : State) : Out :=
  let s := s.updCommon d fun c => { c with temp := t, tempMax := max c.tempMax t }
  if t > gradeMax + 10 ∧ !(s.com d).critical then
    let s := (s.updCommon d fun c => { c with critical := true }).raise (dieSrc d 19)
    .next (if s.shaded (.die d) then s else s.updSup fun x => { x with capHeld := true })
  else .next s

/-- DIE_TEMPERATURE_BACK_IN_RANGE (R461): at or below the grade maximum lifts the cap, 5 °C inside the range clears the warning. -/
def execDieTemperatureBackInRange (d : DieIx) (t : Int) (s : State) : Out :=
  let s := s.updCommon d fun c => { c with
    temp := t, critical := c.critical && decide (t > gradeMax),
    warned := c.warned && !(decide (t ≤ gradeMax - 5) && decide (t ≥ gradeMin + 5)) }
  .next (if (s.com 0).critical || (s.com 1).critical then s else s.updSup fun x => { x with capHeld := false })


/-- The reaction that R189, R461 and R533 give a source, taken for an injected event as for a real one (R479). One that acts on an object which the data
word does not name is left out (DESIGN CHOICE, log entry 104). -/
def State.injectedReaction (s : State) (src : Nat) (d0 : Word) : State :=
  if s.shaded (blockOf src) then s
  else if src = 312 ∨ src = 344 then
    if !s.bridgeUp then s else
    let t := ({ s with bridgeUp := false } : State).clearBridge
    if s.d0Faulted then t.takeOut 0 312 else t.takeOut 1 344
  else if src = 313 ∨ src = 345 then
    let d : DieIx := if src = 313 then 0 else 1
    (s.updCommon d fun c => { c with tokensPaused := true }).openShadow d src (.dieAndBridge d) (.die d)
  else if src = 315 ∨ src = 347 then s.updSup fun x => { x with capHeld := true }
  else if src = 320 ∨ src = 352 then
    match regionIx? d0.toNat with
    | some g => s.regionDogReaction g
    | none => s
  else if src = 321 then s.dieDogReaction 0
  else if src = 353 then s.dieDogReaction 1
  else if src = 361 then s.startRescue true false false
  else if src = 365 then s.updHu fun h => { h with degraded := true, lastPass := false, mode := .writeThrough }
  else if src = 372 ∨ src = 378 then s.enterSafe
  else if src = 383 then match d0.toNat % 256 with
    | 0 => s.railReaction .vcore0
    | 1 => s.railReaction .vcore1
    | 2 => s.railReaction .vkeep
    | 3 => s.railReaction .vphy
    | 4 => s.railReaction .vpll
    | 5 => s.railReaction .vio18
    | _ => s
  else if src < 192 ∧ src % 8 = 2 ∧ d0.toNat / 32 = src / 8 then s.countTimeout d0.toNat
  else if src = 373 then s.collectorFailed
  else s

/-- KPR_FC_INJECT.GO (R479): outside factory test mode the write changes nothing and raises 376; a reserved source is ignored
(R454). -/
def execKprFcInjectGo (source : BitVec 9) (s : State) : Out :=
  if !s.factoryMode then .next (s.raise 376) else
  let src := source.toNat
  let s := s.updFc fun f => { f with injectSource := source }
  if (classOf src).isNone then .next s else
  let d0 := s.keeper.fc.injectData
  let s := s.setIrq src
  let s := s.sendToken (blockOf src) src d0 0 true
  .next (s.injectedReaction src d0)

end Sys2Proof.Machine
end

