-- ==== Sys2Proof/Machine/Boot.lean ====
section
/-! DEFINITION. Start: cold start, release of D0, the boot window, slot choice, main firmware, fallback and recovery (R345, R369 to R387). -/

namespace Sys2Proof.Machine

/-- The first failure since the last cold start (R388). -/
def State.noteBootFail (s : State) (cause : BitVec 4) (slot : BitVec 2) : State :=
  s.updBoot fun b => if b.failCause = 0 then { b with failCause := cause, failSlot := slot } else b

def State.stage (s : State) (x : BootStage) : State := s.updBoot fun b => { b with stage := x }

/-- Sectors with erase intent found at step 2 (R437): each raises 499, is counted, and is erased afresh in rounds of up to 8 of one
bank. -/
def State.findIntents (s : State) : State :=
  let found := (s.store.rows.filter (·.intent)).map (·.sector)
  let s := s.updStore fun x => { x with irq := .reset 0x7FF, cmdCode := 0, cmdResult := .completed, cmdSector := 0, cmdRequester := .bootRom,
                                        cmdCount := 0, result := 0, margin := 0, hashPort := false }
  let s := found.foldl (fun s n => s.raise2 499 (BitVec.ofNat 32 n) 0) s
  let round := (found.filter fun m => sectorBank m == sectorBank (found.headD 0)).take 8
  s.updStore fun x => { x with
    ready := true, ckptErased := x.erasedAhead, intentFound := found.length, intentPending := found, seq := none, waiting := [], prog := none,
    faultCause := 0, faultSector := 0, faultCount := 0
    erase := if round.isEmpty then none else some { requester := .keeper, sectors := round, susp := .running, runTime := 0, fromIntent := true } }

/-- The rescue record read at a start (R356). -/
def State.readRescueRecord (s : State) : State :=
  match s.keeper.rescue.record with
  | .started =>
    (s.raise 364).updRescue fun r => { r with last := 2, incomplete := r.incomplete + 1, unsafeStarts := r.unsafeStarts + 1 }
  | .complete => s.updRescue fun r => { r with unsafeStarts := r.unsafeStarts + 1 }
  | .none | .diapause => s

/-- A pending activation takes effect at the next cold start and at the restart of an NVM subsystem reset (R450). -/
def State.takePending (s : State) : State :=
  match s.fw.pendingSlot with
  | none => s
  | some k => ((s.raise 472).updFw fun x => { x with active := k, pendingSlot := none, restartActivates := true }).keeperLine 2

/-- VIN_RISE (R345, R381 steps 1 and 2): rails in order, VCORE at 0.75 V, the collector's self-check, clocks and power-cycle count,
erase intents, the bank's charger. Time was kept only where the Carapace itself stayed powered throughout (R85). A failed self-check enters the safe
state before D0 is released (R476). -/
def execVinRise (o : ColdStartFindings) (s : State) : Out :=
  if s.keeper.sup.vinOk then unchanged s else
  let s := s.updSup fun x => { x with
    vinOk := true, vauxOk := o.vaux, vkeep := true, vio18 := true, vpll := true, vphy := true, vcoreUp := #v[true, true], xtal25 := true,
    xtal32k := true, vcore := #v[75, 75], warnArmed := true, overArmed := true }
  let s := { s with bridgeUp := true }
  let s := s.updBoot fun b => { b with starts := 0, fallback := false, failCause := 0, failSlot := 0, windowTimeouts := 0, stage := .inReset, lock := false, byKeeper := false }
  let s := s.beginStart
  let s := s.startClocks (s.keeper.tk.kept && o.keptTime) o.darkMs
  let s := s.findIntents
  let s := s.readRescueRecord
  let s := s.updEv fun e => { e with located := true }
  let s := if o.selfCheckOk then s.updFc fun f => { f with selfOk := true } else s.collectorFailed
  .next s.takePending

/-- A restart of the package from step 3 (R369). -/
def State.restartNow (s : State) : State := s.resetBothDies.beginStart

/-- PACKAGE_RESTART (R369): after host work the rescue runs first, on the input and without HU_ISO; before host work the dies are
reset at once. -/
def execPackageRestart (cause : RestartCause) (s : State) : Out :=
  if !s.keeper.sup.vinOk || s.keeper.fc.safe || s.keeper.rescue.run.isSome then unchanged s else
  match cause with
  | .afterHostWork => .next (s.takePending.startRescue false false true)
  | .beforeHostWork => if s.keeper.boot.stage = .serving then unchanged s else .next s.restartNow

/-- Recovery mode (R384): the boot ROM serves it on D0, D1 stays in reset, nothing else starts. -/
def State.enterRecovery (s : State) (sealed : Bool) : State :=
  let s := (s.stage .recovery).updBoot fun b => { b with sealed := sealed, active := 0 }
  let s := s.updFw fun x => { x with running := none }
  (s.updCommon 0 fun c => { c with inService := true }).updSup fun x => { x with state := .lit }

/-- The protection set copy in use, and whether the other is to be rewritten (R372). -/
def chooseCopy (p0 p1 : ProtSet) (ok0 ok1 : Bool) : Option (Fin 2 × Bool) :=
  match ok0, ok1 with
  | false, false => none
  | true, false => some (0, true)
  | false, true => some (1, true)
  | true, true => if p0.generation.toNat = p1.generation.toNat then some (0, false)
      else if p0.generation.toNat < p1.generation.toNat then some (1, true) else some (0, true)

/-- The raises and the provisioning that the boot ROM applies before LOCK (R373, R396): counters only rise. -/
def raisedSet (p : ProtSet) (fw patch : Option Word) (auth : BitVec 384) : ProtSet :=
  let up (cur : Word) (req : Option Word) : Word := match req with
    | some r => if cur.toNat < r.toNat then r else cur
    | none => cur
  let q := { p with fwArb := up p.fwArb fw, patchArb := up p.patchArb patch, authHash := if p.authHash = 0 then auth else p.authHash }
  if q = p then p else { q with generation := p.generation + 1 }

/-- The protection set check and LOCK (R371 to R373). None when both copies fail: sealed recovery. -/
def State.protectionCheck (s : State) (f : StartFindings) : State × Bool :=
  let cs := s.store.protCopies
  let lockIt (s : State) : State := (s.updBoot fun b => { b with lock := true, byKeeper := false, lockMs := min f.lockMs 0xFFFF })
  match chooseCopy cs[0] cs[1] f.prot0Ok f.prot1Ok with
  | none => ((lockIt ((s.raise 506).noteBootFail 1 0)).enterRecovery true, false)
  | some (k, repair) =>
    let s := if f.prot0Ok && f.prot1Ok then s else s.raise 506
    let auth := match (appliedOf s.opt).bind (·.records.identity) with | some i => i.authHash | none => 0
    let set := raisedSet cs[k] s.fw.arbReq s.fw.patchArbReq auth
    let s := if repair || set != cs[k] then s.countErase (if k = 0 then 1408 else 464) else s
    let s := if set != cs[k] then s.countErase (if k = 0 then 464 else 1408) else s
    let s := s.updStore fun x => { x with protCopies := if repair || set != cs[k] then #v[set, set] else x.protCopies }
    let s := if s.fw.arbReq.isSome || s.fw.patchArbReq.isSome then s.keeperLine 2 else s
    let s := s.updFw fun x => { x with arbReq := none, patchArbReq := none }
    let s := { s with keeper := { s.keeper with prot := set } }
    let s := s.updBoot fun b => { b with protCopy := k == 1, protRepaired := repair }
    (lockIt s, true)

/-- Sectors of a firmware slot hold erase intent: the boot ROM treats it as empty (R437). -/
def State.slotIntent (s : State) (k : Fin 2) : Bool :=
  s.store.intentPending.any fun n => if k = 0 then decide (n ≤ 383) else decide (1024 ≤ n) && decide (n ≤ 1407)

/-- One slot checked under R374: its image, or the state with the slot rejected and 505 raised. -/
def State.trySlot (s : State) (k : Fin 2) : FwImage ⊕ State :=
  let x := s.fw.slots[k]
  match x.image with
  | none => .inr s
  | some i =>
    if !activatable x.state || s.slotIntent k then .inr s
    else match s.slotFailure i with
      | none => .inl i
      | some c => .inr (((s.raise 505).noteBootFail c (BitVec.ofNat 2 (k.val + 1))).noteSlot k fun x => { x with state := .rejected, cause := c })

/-- The active slot, then the other (R374, R451). Answers the running image where one passes. -/
def State.chooseSlot (s : State) : State × Option FwImage :=
  let k := s.fw.active
  let other : Fin 2 := ⟨1 - k.val, by omega⟩
  let run (s : State) (k : Fin 2) (i : FwImage) : State × Option FwImage :=
    (((s.updFw fun x => { x with active := k, running := some k }).updBoot fun b => { b with active := BitVec.ofNat 2 (k.val + 1) }).updSlot k
      fun x => { x with patches := if x.patches.isEmpty then i.patches else x.patches }, some i)
  match s.trySlot k with
  | .inl i => run s k i
  | .inr s => match s.trySlot other with
    | .inl i => run s other i
    | .inr s => (s, none)

/-- Schema fallback (R376): nothing is written to the option area, 474, the slot rejected, events flushed, and a restart before host
work. When the other slot cannot run either, the start ends in recovery mode. -/
def State.fallback (s : State) : State :=
  match s.fw.running with
  | none => s
  | some k =>
    let other : Fin 2 := ⟨1 - k.val, by omega⟩
    let s := ((s.raise 474).noteBootFail 6 (BitVec.ofNat 2 (k.val + 1))).noteSlot k fun x => { x with state := .rejected, cause := 6 }
    let s := s.flushNow
    if activatable s.fw.slots[other].state then
      let s := s.updFw fun x => { x with active := other, running := none }
      s.restartNow.updBoot fun b => { b with fallback := true, fallbackEvent := true }
    else s.enterRecovery false

/-- The schema lies within what the image reads or converts (R375). -/
def readsSchema (i : FwImage) (schema : Nat) : Bool := decide (i.schemaMin ≤ schema) && decide (schema ≤ i.schemaMax)

/-- The start with no valid applied image (R377). -/
def State.startUnconfigured (s : State) : State :=
  let s := (s.stage .unconfigured).updBoot fun b => { b with unconfigured := true }
  let s := s.updSup fun x => { x with state := .lit }
  (s.updCommon 0 fun c => { c with inReset := false, inService := true, coreUp := true }).updCommon 1 fun c => { c with inReset := false, inService := true, coreUp := true }

/-- A lane takes the values of its media profile (R64, R397, R408). -/
def State.configureLanes (s : State) (r : OptRecords) : State :=
  (List.finRange 24).foldl (fun s l =>
    match (r.lanes.getD [])[l.val]? with
    | none => s
    | some x => match x.profile.bind fun k => (r.profiles[k.val]?).getD none with
      | none => s
      | some p => s.updLane l fun y => { y with
          iface := BitVec.ofNat 2 p.iface, suspLimit := dflt p.suspLimit 12, minRun := dflt p.minRun 200, maxSusp := dflt p.maxSusp 500,
          barPrograms := p.programsBarred }) s

/-- The inventory's DRAM capacities, which the option check needs: the smaller of two different ones counts (R312, R411). -/
def State.noteDram (s : State) (f : StartFindings) : State :=
  let gib (d : DieIx) : Nat := if (s.com (otherDie d)).outOfService then f.dramGiB[d] else min f.dramGiB[0] f.dramGiB[1]
  (s.updMem 0 fun m => { m with capacity := gib 0 * 2 ^ 30 }).updMem 1 fun m => { m with capacity := gib 1 * 2 ^ 30 }

/-- A die's LPDDR5X is trained, and the zero fill begins (R313, R315). -/
def State.dramTrained (s : State) (d : DieIx) (f : StartFindings) : State :=
  (s.clockOrder true [.lpddr d]).updMem d fun m => { m with rate := some f.dramRate[d], filling := true, lastTemp := (s.com d).temp }

/-- Steps 7 to 11 of R381 (R378 to R380): the cores, patches and keys, memory and lanes. -/
def State.bringUp (s : State) (f : StartFindings) (img : OptImage) : State :=
  let s := s.updCommon 0 fun c => { c with inService := true, coreUp := true }
  let s := (s.stage .memoryLanes).updCommon 1 fun c => { c with inReset := false }
  let s := if f.d1CoreOk then s.updCommon 1 fun c => { c with inService := true, coreUp := true } else (s.noteBootFail 10 0).takeOut 1 344
  let s := (List.finRange 4).foldl (fun s g =>
    if f.regionCoreOk[g] then s.updRegion g fun r => { r with coreUp := !(s.com (dieOfRegion g)).outOfService } else (s.noteBootFail 11 0).regionOut g) s
  let s := s.updMp fun m => match img.records.mgmt with
    | some r => { m with
        addr := BitVec.ofNat 7 (dflt r.addr 0x1D), speed := BitVec.ofNat 2 r.speed, eidValid := m.eidValid || r.eid != 0,
        eid := if r.eid = 0 then m.eid else BitVec.ofNat 8 r.eid, writePermitted := r.writePermitted }
    | none => { m with addr := 0x1D, speed := 0, writePermitted := false }
  let s := (s.configureLanes img.records).loadKeySet
  let s := (List.finRange 12).foldl (fun s c => s.updCluster c fun x => { x with inService := (s.com (dieOfCluster c)).inService }) s
  -- Of each lane the LUNs that answered at the last start at which it drove its chip enables (R411).
  let driven (n : Nat) : Bool := (((img.records.lanes.getD [])[n / 32]?).bind (·.profile)).isSome
  let s := (s.noteDram f).updOpt fun o => { o with inventory := some (f.lunsAnswering.filter driven ++ (o.inventory.getD []).filter fun n => !driven n) }
  let s := (List.finRange 2).foldl (fun s d => (if f.dramOk[d] && f.checkerOk[d] then s.dramTrained d f else s).updMem d fun m => { m with checkerFail := !f.checkerOk[d] }) s
  let s := if f.dramOk[1] && f.checkerOk[1] then s else if (s.com 1).outOfService then s else s.takeOut 1 344
  if !f.dramOk[0] || !s.keeper.sup.xtal25 then (s.noteBootFail 8 0).enterRecovery false
  else if !f.checkerOk[0] then (s.noteBootFail 9 0).enterRecovery false
  else s

/-- Main firmware's one read of the option area (R375 to R377), and the start after it. -/
def State.mainFirmware (s : State) (f : StartFindings) (i : FwImage) : State :=
  let s := s.stage .optionArea
  let s := s.updStore fun x => { x with hashPort := false }
  let bad (o : Option OptImage) (ok : Bool) : Bool := o.isSome && !ok
  let s := s.updOpt fun o => { o with corruptA := bad o.slotA f.optAOk, corruptB := bad o.slotB f.optBOk, barrier := none }
  let s := if s.opt.corruptA then s.raise 504 else s
  let s := if s.opt.corruptB then s.raise 504 else s
  let s := if s.opt.corruptA && s.opt.corruptB then s.noteBootFail 7 0 else s
  let s := s.updFw fun x => { x with download := none, activating := none }
  let s := (s.noteDram f).stagedAtStart
  match appliedOf s.opt with
  | none => s.startUnconfigured
  | some a =>
    if !readsSchema i a.schema then s.fallback
    else (s.updOpt fun o => { o with inForce := some a }).bringUp f a

/-- D0_RELEASE (R370 to R380): straps sampled, the boot window opened; when the boot ROM sets LOCK, the whole path to the loaded
cores. When it does not, the window stays open for BOOT_WINDOW_TIMEOUT. -/
def execD0Release (f : StartFindings) (s : State) : Out :=
  let x := s.keeper.sup
  if !x.vinOk || !(x.vccqOk && x.vddqOk && x.vdd2hOk) || x.regulatorFault || s.keeper.fc.safe || !(s.com 0).inReset ||
      s.keeper.boot.stage == .heldInReset || s.keeper.rescue.run.isSome then unchanged s
  else if (s.com 0).outOfService then .next (s.enterRecovery false)
  else
  let s := s.updBoot fun b => { b with mode := f.bootMode, slotId := f.slotId, lock := false, byKeeper := false, stage := .bootWindow, protRepaired := false }
  let s := (s.updCommon 0 fun c => { c with inReset := false }).updStore fun x => { x with hashPort := true }
  let s := if f.bootMode = 2 ∧ s.keeper.boot.factoryFuse = false then s.raise 376 else s
  if !f.locks then .next s else
  let p := s.protectionCheck f
  if !p.2 then .next p.1 else
  let s := p.1
  if f.bootMode = 1 ∨ f.bootMode = 3 then .next ((s.noteBootFail 12 0).enterRecovery false) else
  let c := (s.stage .slotCheck).chooseSlot
  match c.2 with
  | none => .next (c.1.enterRecovery false)
  | some i => .next (c.1.mainFirmware f i)

/-- BOOT_WINDOW_TIMEOUT (R371): the keeper sets LOCK with BY_KEEPER, raises 375 and resets D0; the window reopens once, and a second
timeout before the next cold start holds D0 in reset. -/
def execBootWindowTimeout (s : State) : Out :=
  if !s.windowOpen then unchanged s else
  let second := decide (s.keeper.boot.windowTimeouts ≥ 1)
  let s := s.updBoot fun b => { b with lock := true, byKeeper := true, windowTimeouts := b.windowTimeouts + 1 }
  let s := ((s.raise 375).noteBootFail 2 0).resetDie 0
  .next (if second then s.stage .heldInReset
    else ((s.stage .inReset).updBoot fun b => { b with starts := satAdd 255 b.starts 1 }).resumeAtStart)

end Sys2Proof.Machine
end

