-- ==== Sys2Proof/Machine/Buffers.lean ====
section
/-! DEFINITION. The commands of the buffer pools and of the memory controllers (R304 to R325). -/

namespace Sys2Proof.Machine

/-! The pool. -/

/-- The lowest free buffer of a class. -/
def State.lowestFree (s : State) (d : DieIx) (c : PoolClass) : Option Nat := (List.range (s.classCount c)).find? fun i => s.isFree d c i

/-- Take a buffer now, or start to wait (R305). -/
def State.takeBuf (s : State) (d : DieIx) (c : PoolClass) (k : WorkKind) : State × Option Nat :=
  if s.mayTake d c k then match s.lowestFree d c with
    | some i => (s.allocBuf d c i, some i)
    | none => (s.waitBuf d c k none, none)
  else (s.waitBuf d c k none, none)

/-- BUFFER_ALLOCATE (R304, R305): the smallest SRAM class that holds the size, or the DRAM class by name; above 256 KiB of SRAM the request
is refused. -/
def execBufferAllocate (d : DieIx) (bytes : Nat) (dram : Bool) (kind : WorkKind) (s : State) : Out :=
  if !(s.dies[d].pool.inService) then unchanged s
  else match (if dram then (if bytes ≤ 1048576 then some PoolClass.dram else none) else classFor bytes) with
    | none => unchanged s
    | some c => .next (s.takeBuf d c kind).1

/-- BUFFER_REFERENCE_TAKE (R307, R308). -/
def execBufferReferenceTake (d : DieIx) (ptr : Word) (user : PoolUser) (s : State) : Out :=
  match s.ptrCheck d ptr 0 false, decodePtr ptr with
  | some cause, _ => .next (s.pointerFault d ptr cause user)
  | none, (some c, _, i, _) => match (s.dies[d].pool).find c i with
    | none => unchanged s
    | some b =>
      if b.pinned then unchanged s
      else if b.refs = 255 then .next ((s.updPool d fun p => p.updBuf c i fun x => { x with pinned := true }).refFault d)
      else .next (s.updPool d fun p => p.updBuf c i fun x => { x with refs := x.refs + 1 })
  | none, _ => unchanged s

/-- BUFFER_REFERENCE_DROP (R307, R308): on a free buffer nothing changes but the event. -/
def execBufferReferenceDrop (d : DieIx) (ptr : Word) (user : PoolUser) (s : State) : Out :=
  match s.ptrCheck d ptr 0 false, decodePtr ptr with
  | some 4, _ => .next (s.refFault d)
  | some cause, _ => .next (s.pointerFault d ptr cause user)
  | none, (some c, _, i, _) => if c = .c0 ∧ i = 0 then unchanged s else .next (s.dropBuf d c i)
  | none, _ => unchanged s

/-- A waiting request that the class can serve now takes the lowest free buffer (R31, R305); work that is named takes it when it goes on. -/
def State.serveWaiting (s : State) (d : DieIx) (c : PoolClass) : State :=
  match bestReq c (s.dies[d].pool.waiting.filter fun r => s.mayTake d c r.kind) with
  | none => s
  | some r =>
    if r.named then s.updPool d fun p => { p with waiting := p.waiting.erase r }
    else match s.lowestFree d c with
    | some i => (s.updPool d fun p => { p with waiting := p.waiting.erase r }).allocBuf d c i
    | none => s

/-- BUFFER_ZEROED (R305, R309): the buffer enters the free list. -/
def execBufferZeroed (d : DieIx) (c : PoolClass) (i : Nat) (s : State) : Out :=
  if !s.dies[d].pool.zeroing.contains (c, i) then unchanged s else
  let s := s.updPool d fun p => { p with zeroing := p.zeroing.filter (· != (c, i)) }
  let s := if s.classCount c / 8 ≤ s.freeCount d c then s.updPool d fun p => { p with armed := p.armed.set (classIdx c) true } else s
  .next (s.serveWaiting d c)

/-! The LPDDR5X interface. -/

/-- The DRAM serves: in service and not in self-refresh. -/
def State.dramServes (s : State) (d : DieIx) : Bool := s.dies[d].mem.inService && !s.selfRefresh

/-- DRAM_OSCILLATOR_READ (R312, R313): drift beyond 20 ps calls for a retrain. -/
def execDramOscillatorRead (d : DieIx) (value driftPs : Nat) (s : State) : Out :=
  if !s.dramServes d then unchanged s
  else .next (s.updMem d fun m => { m with oscillator := value, retrainDue := m.retrainDue || decide (20 < driftPs) })

/-- DRAM_ZQ_LATCH (R312). -/
def execDramZqLatch (d : DieIx) (value : Nat) (s : State) : Out :=
  if !s.dramServes d then unchanged s else .next (s.updMem d fun m => { m with zqLatched := value })

/-- Training (R313): two failures at a rate step it down; none where it fails at 6,400 MT/s. `tries` are the outcomes in order. -/
def trainDram : Nat → List Bool → Option Nat
  | 0, tries => match tries with
    | false :: false :: _ => none
    | _ => some 0
  | n + 1, tries => match tries with
    | false :: false :: rest => trainDram n rest
    | _ => some (n + 1)

/-- DRAM_RETRAIN (R313, R321): on drift, a change of 10 °C, or a persisting rate of corrections; deferred while the rescue runs. -/
def execDramRetrain (d : DieIx) (byRate : Bool) (tries : List Bool) (s : State) : Out :=
  let m := s.dies[d].mem
  let t := (s.com d).temp
  let due := m.retrainDue || byRate || decide (10 ≤ (t - m.lastTemp).natAbs)
  if !s.dramServes d || !due || s.keeper.rescue.run.isSome then unchanged s
  else match m.rate with
    | none => unchanged s
    | some r =>
      let s := (s.updMem d fun m => { m with retrains := satAdd 255 m.retrains 1, lastTemp := t, retrainDue := false }).raise (dieSrc d 6)
      -- Rates are numbered from the highest; steps left below the present one.
      match trainDram (2 - r.val) tries with
      | some n => .next (s.updMem d fun m => { m with rate := some ⟨(2 - n) % 3, Nat.mod_lt _ (by decide)⟩ })
      | none => .next ((s.updMem d fun m => { m with rate := none, inService := false }).takeOut d (dieSrc d 6))

/-! Correctable and uncorrectable errors (R316 to R319). -/

/-- The entry that a new address displaces in a full table: of lowest HITS among those in state CORRECTED, the oldest on a tie. -/
def displaced : List CeEntry → Option CeEntry
  | [] => none
  | x :: xs =>
    if x.state ≠ .corrected then displaced xs
    else match displaced xs with
      | none => some x
      | some y => if x.hits ≤ y.hits then some x else some y

/-- Enter a new address (R316): answers none where no entry takes it. -/
def CeTable.enter (t : CeTable) (e : CeEntry) : Option CeTable :=
  if t.entries.length < 32 then some { t with entries := t.entries ++ [e] }
  else match displaced t.entries with
    | none => none
    | some x => some { t with entries := t.entries.erase x ++ [e], evicted := satAdd 0xFFFFFFFF t.evicted 1 }

/-- One more correction at an entry (R317). -/
def CeEntry.hit (e : CeEntry) (bit : Byte) (now : Word) : CeEntry :=
  let e := { e with bit := bit, last := now }
  match e.state with
  | .corrected => if 7 ≤ e.hits then { e with hits := e.hits + 1, state := .rewritten } else { e with hits := e.hits + 1 }
  | .rewritten => if 2 ≤ e.post then { e with post := e.post + 1, state := .hard } else { e with post := e.post + 1 }
  | .hard | .retired => e

/-- Event locals of a memory: correctable and uncorrectable. -/
def ceLocal : MemKind → Nat
  | .dram => 3 | .sram => 7
def ueLocal : MemKind → Nat
  | .dram => 4 | .sram => 8

/-- MEMORY_CORRECTED (R316, R317). In a shadow nothing counts toward a retirement (R467). -/
def execMemoryCorrected (d : DieIx) (k : MemKind) (addr : BitVec 40) (bit : Byte) (s : State) : Out :=
  let now := BitVec.ofNat 32 s.keeper.tk.opsec.toNat
  let s := s.updMem d fun m => match k with
    | .dram => { m with ceDram := satAdd 0xFFFF m.ceDram 1 }
    | .sram => { m with ceSram := satAdd 0xFFFF m.ceSram 1 }
  let s := s.updTable d k fun t => { t with corrected := satAdd 0xFFFFFFFF t.corrected 1 }
  let t := s.tableOf d k
  if t.entries.any fun e => e.addr == addr then
    .next (if s.shaded (.die d) then s else s.updTable d k fun t => { t with entries := t.entries.map fun e => if e.addr == addr then e.hit bit now else e })
  else match t.enter { addr := addr, state := .corrected, hits := if s.shaded (.die d) then 0 else 1, post := 0, bit := bit, last := now } with
    | some t => .next ((s.updTable d k fun _ => t).raise (dieSrc d (ceLocal k)))
    | none => .next s

/-- Poison the n-th covered unit of a pending write. -/
def poisonNth (units : Vector (Option Unit4K) 16) (n : Nat) : Vector (Option Unit4K) 16 :=
  let figs := (List.finRange 16).filter fun f => (units[f]).isSome
  Vector.ofFn fun f => if figs[n]? == some f then (units[f]).map (fun x => { x with poisoned := true }) else units[f]
def PendUpd.poisonUnit (u : PendUpd) (n : Nat) : PendUpd := match u.kind with
  | .deallocate | .zero _ => u
  | .write units => { u with kind := .write (poisonNth units n) }

/-- The FIG of the n-th covered unit of a pending write. -/
def PendUpd.coveredFig (u : PendUpd) (n : Nat) : Option (Fin 16) := match u.kind with
  | .deallocate | .zero _ => none
  | .write units => ((List.finRange 16).filter fun f => (units[f]).isSome)[n]?

/-- Frames of a band whose page rows are not programmed take the poison of the buffer that they come from (R114, R319). -/
def State.poisonPlaced (s : State) (g : RegionIx) (b : Nat) (which : Placed → Option (Fin 16)) : State :=
  match s.geo? g with
  | none => s
  | some geo =>
    let f := s.rowFrames g (s.band g b).density
    s.updBand g b fun x => { x with placed := x.placed.map fun pl => match which pl with
      | some i =>
        let at_ := slotPlace geo b f (pl.slot + i.val)
        if x.rowsOk.contains (at_.1, at_.2.1) then pl else { pl with units := pl.units.set i { pl.units[i] with poisoned := true } }
      | none => pl }

/-- Pending updates of a region take poison in their n-th covered unit, and with them the frames that they are placed in. -/
def State.poisonUpds (s : State) (g : RegionIx) (n : Nat) (which : PendUpd → Bool) : State :=
  ((s.regions[g]).pend.filter which).foldl (fun s u =>
    let s := s.updRegion g fun r => { r with pend := r.pend.map fun v => if v = u then u.poisonUnit n else v }
    match u.at_ with
    | some (b, _) => s.poisonPlaced g b fun pl => if pl.gran = u.gran ∧ pl.seq = u.seq ∧ pl.src = none then u.coveredFig n else none
    | none => s) s

/-- The update's data, plain or encrypted, lies in a buffer: its window entry's, that of its written-through piece, or its ciphertext's. -/
def State.updIn (s : State) (d : DieIx) (c : PoolClass) (i : Nat) (u : PendUpd) : Bool :=
  (s.dies[d].pool.win.any fun w => w.2.1 == c && w.2.2 == i && u.win == some (d, w.1)) || u.cipher == some (d, c, i) ||
  (s.dies[d].host.writes.any fun w => w.pieces.any fun p => p.buf == some (c, i) && p.gran == u.gran && p.at_ == .through u.seq)

/-- A pointer names a unit of a buffer. -/
def ptrUnit (c : PoolClass) (i unit : Nat) (w : Word) : Bool := match decodePtr w with
  | (some c', _, i', off) => c' == c && i' == i && off / 4096 == unit
  | (none, _) => false

/-- A poison mark on a unit of a buffer (R114, R115, R311, R319). It travels with what the buffer holds: pending updates, frames delivered
and the copies that they are of, and multi-pass rows of the fold class. -/
def State.poisonBuf (s : State) (d : DieIx) (c : PoolClass) (i unit : Nat) : State :=
  let s := s.updPool d fun p => p.updBuf c i fun b => { b with poison := if b.poison.contains unit then b.poison else b.poison ++ [unit] }
  let s := (List.finRange 4).foldl (fun s g => s.poisonUpds g unit (s.updIn d c i)) s
  let hit (x : FrameResult) : Bool := dieOfRegion x.req.region == d && ptrUnit c i unit x.ptr
  let got := (List.finRange 12).flatMap fun k => s.clusters[k].results.filter hit
  let s := (List.finRange 12).foldl (fun s k => if s.clusters[k].results.any hit then s.updCluster k fun x => { x with
    results := x.results.map fun r => if hit r then { r with poisoned := true, content := { r.content with poisoned := true } } else r } else s) s
  let s := got.foldl (fun s r => if r.req.who == .fold || r.req.who == .relocation then s.updRegion r.req.region fun x => { x with
    copies := x.copies.map fun y => if y.gran = r.req.gran ∧ y.band = r.req.band ∧ y.frame = r.req.base then
      { y with got := y.got.map fun z => if z.1 = r.req.fig.val then (z.1, { z.2 with poisoned := true }) else z } else y } else s) s
  -- A fold-class buffer holds the frames of a page row, in their order.
  (List.finRange 4).foldl (fun s g => if dieOfRegion g != d then s else
    ((s.regions[g]).tab.bands.flatMap fun x => (x.foldHeld.filter fun h => h.2.2 == (d, i) && c == .dram).map fun h => (x.num, h.1, h.2.1)).foldl (fun s h =>
      match s.geo? g with
      | none => s
      | some geo =>
        let f := s.rowFrames g (s.band g h.1).density
        if f ≤ unit then s else
        match s.frameAt g h.1 (frameIndex geo f h.2.1 h.2.2 unit) with
        | some (pl, k) => s.poisonPlaced g h.1 fun q => if q.slot = pl.slot then some k else none
        | none => s) s) s

/-- A map entry in DRAM is loaded anew from its segment's image and the records since (R149, R319): the owner's, or the adopter's overlay. -/
def State.reloadEntry (s : State) (g : RegionIx) (gran : Nat) : State :=
  let r := s.regions[g]
  if granRegion gran = g then
    if r.resident.contains (granSegment gran) then s.updRegion g fun x => { x with map := putEntry x.map gran (r.reloaded g gran) } else s
  else
    let q := restoreSegment r (fun n => granRegion n ≠ g) r.tab (r.journal.retained ++ r.journal.tail) [] (granSegment gran)
    s.updRegion g fun x => { x with overlay := (q.1.filter fun p => p.1 == gran) ++ x.overlay.filter fun p => p.1 != gran }

/-- MEMORY_UNCORRECTABLE (R319): entered HARD, in a shadow not (R467); a buffer unit is poisoned, a map entry reloaded. -/
def execMemoryUncorrectable (d : DieIx) (k : MemKind) (addr : BitVec 40) (target : UeTarget) (s : State) : Out :=
  let now := BitVec.ofNat 32 s.keeper.tk.opsec.toNat
  let s := s.updMem d fun m => match k with
    | .dram => { m with ueDram := satAdd 0xFFFF m.ueDram 1 }
    | .sram => { m with ueSram := satAdd 0xFFFF m.ueSram 1 }
  let s := s.updTable d k fun t => { t with uncorr := satAdd 0xFFFFFFFF t.uncorr 1 }
  let t := s.tableOf d k
  let s := if s.shaded (.die d) then s else if t.entries.any fun e => e.addr == addr then
      s.updTable d k fun t => { t with entries := t.entries.map fun e => if e.addr == addr then
        { e with state := .hard, bit := 0xFF, last := now } else e }
    else match t.enter { addr := addr, state := .hard, hits := 0, post := 0, bit := 0xFF, last := now } with
      | some t => s.updTable d k fun _ => t
      | none => s
  let s := s.raise (dieSrc d (ueLocal k))
  match target with
  | .buffer c i unit => .next (if ((s.dies[d].pool).find c i).isSome then s.poisonBuf d c i unit else s)
  | .map g gran => .next (s.reloadEntry g gran)
  | .control => .next s

/-- LOCATION_RETIRE (R318, R321): a HARD location goes to a spare row or line; a line inside an allocated buffer waits for its release. -/
def execLocationRetire (d : DieIx) (k : MemKind) (addr : BitVec 40) (channel : Fin 4) (inBuffer : Option (PoolClass × Nat)) (s : State) : Out :=
  match (s.tableOf d k).entries.find? fun e => e.addr == addr with
  | none => unchanged s
  | some e =>
    if e.state ≠ .hard then unchanged s else match k with
    | .dram =>
      if s.dies[d].mem.rowsLeft[channel] = 0 then unchanged s
      else
        let s := s.updMem d fun m => { m with rowsLeft := m.rowsLeft.set channel (m.rowsLeft[channel] - 1) }
        .next ((s.updTable d .dram fun t => { t.setState addr .retired with retired := satAdd 0xFFFF t.retired 1 }).raise (dieSrc d 5))
    | .sram => match inBuffer with
      | some (c, i) =>
        if ((s.dies[d].pool).find c i).isSome then .next (s.updPool d fun p => p.updBuf c i fun b => { b with remap := some addr })
        else .next (s.retireLine d addr)
      | none => .next (s.retireLine d addr)

/-- Bit positions that FLIP names: a nibble above 7 names none, 0xFF none (R325). -/
def flips (f : Byte) : List Nat :=
  let a := f.toNat % 16
  let b := f.toNat / 16
  (if a < 8 then [a] else []) ++ (if b < 8 ∧ b ≠ a then [b] else [])

/-- MEM_TEST (R320, R325): a write in checker test mode. `checkOk`: CHECK holds the check bits of the data word; where it does not, what
the checker answers is a free value. -/
def execMemTest (d : DieIx) (w : Word) (checkOk : Bool) (s : State) : Out :=
  let en := w.getLsbD 31
  let flip : Byte := w.extractLsb' 0 8
  let n := (flips flip).length
  let f := s.free
  let s := s.updMem d fun m => { m with test := { m.test with
    en := en, target := w.getLsbD 30, check := w.extractLsb' 8 8, flip := flip } }
  if !en then .next s
  else
    let ce := if checkOk then n == 1 else Config.freeFlag f
    let ue := if checkOk then n == 2 else Config.freeFlag (f + 1)
    let s := s.updMem d fun m => { m with test := { m.test with resultCe := ce, resultUe := ue } }
    .next (if checkOk then s else { s with free := f + 2 })

/-- MEM_CTRL.CNT_CLR (R325). -/
def execMemCtrlCntClr (d : DieIx) (s : State) : Out :=
  .next (s.updMem d fun m => { m with ceDram := 0, ceSram := 0, ueDram := 0, ueSram := 0 })

/-- ZERO_FILL_COMPLETE (R315, R381): the die's memories serve; once every die in service is filled the restore begins. -/
def execZeroFillComplete (d : DieIx) (s : State) : Out :=
  if s.keeper.boot.stage ≠ .memoryLanes ∨ s.dies[d].mem.filling = false ∨ (s.com d).outOfService = true then unchanged s else
  let s := (s.updMem d fun m => { m with filling := false, inService := true }).updPool d fun p => { p with inService := true }
  let done := (List.finRange 2).all fun e => (s.com e).outOfService || !s.dies[e].mem.filling
  .next (if done then s.stage .restore else s)

end Sys2Proof.Machine
end

