-- ==== Sys2Proof/Machine/HostCtl.lean ====
section
/-! DEFINITION. Links, controllers, queues, Abort and Asynchronous Event Request (R278, R281, R285 to R288, R382, R510). -/

namespace Sys2Proof.Machine

/-! Links and configuration space. -/

/-- The port's configuration space is initialised (R382): from step 7 of the start, for a die that serves. -/
def State.configInit (s : State) (d : DieIx) : Bool :=
  (match s.keeper.boot.stage with
   | .memoryLanes | .restore | .serving | .unconfigured => true
   | .recovery => d == 0
   | .inReset | .bootWindow | .slotCheck | .optionArea | .cores | .patchesKeys | .heldInReset => false) &&
  !(s.com d).inReset && !(s.com d).outOfService

/-- PCIE_LINK_TRAINING (R278): `gen` 3 to 5 and `lanes` 1, 2 or 4 are the highest that both ends support. -/
def execPcieLinkTraining (d : DieIx) (gen lanes : Nat) (s : State) : Out :=
  if !s.configInit d || !s.clocksRun || s.dies[d].host.perst || gen < 3 || 5 < gen || !([1, 2, 4].contains lanes) then unchanged s else
  let s := (s.updHost d fun h => { h with speed := gen - 2, width := if lanes = 4 then 2 else lanes - 1 }).clockOrder true [.pcie d]
  .next (if gen < 5 ∨ lanes < 4 then s.raise (dieSrc d 1) else s)

/-- HOST_LINK_DOWN (R278). -/
def execHostLinkDown (d : DieIx) (s : State) : Out := .next (s.hostLinkLost d)

/-- A reset of a port touches neither the rescue nor the safe state (R510). -/
def State.portDead (s : State) : Bool := s.keeper.rescue.run.isSome || s.keeper.fc.safe

/-- PERST_N_ASSERT (R510): link down; held through a start, the port stays in Detect. -/
def execPerstNAssert (d : DieIx) (s : State) : Out :=
  if s.portDead then .next (s.updHost d fun h => { h with perst := true }) else
  .next ((s.updHost d fun h => { h with perst := true }).hostLinkLost d)

/-- PERST_N_RELEASE (R510). -/
def execPerstNRelease (d : DieIx) (s : State) : Out := .next (s.updHost d fun h => { h with perst := false })

/-- FUNCTION_LEVEL_RESET (R287). -/
def execFunctionLevelReset (d : DieIx) (s : State) : Out :=
  if !s.hostLinkUp d || s.portDead then unchanged s else .next ((s.hostReset d).raise (dieSrc d 2))

/-- CONFIG_REQUEST (R14, R382): Configuration Request Retry Status until the configuration space is initialised. Without VIN the part shows no
device. -/
def execConfigRequest (d : DieIx) (s : State) : Out :=
  if s.dies[d].host.perst || !s.keeper.sup.vinOk then unchanged s else .next (s.updHost d fun h => { h with cfgAnswers := h.cfgAnswers ++ [s.configInit d] })

/-! Controllers. -/

/-- Host fetch may start on a controller (R147, R382, R384, R478): not in the safe state and not after the order to stop. -/
def State.fetchAllowed (s : State) (d : DieIx) : Bool :=
  (match s.keeper.boot.stage with | .serving | .unconfigured => true | .recovery => d == 0 | _ => false) && !s.portDead && !(s.com d).outOfService

/-- CSTS.RDY is set on an enabled controller once fetch may start, and 464 raised. -/
def State.controllerReady (s : State) (d : DieIx) : State :=
  if s.dies[d].host.enabled && !s.dies[d].host.ready && s.fetchAllowed d then (s.updHost d fun h => { h with ready := true }).raiseAt d 464 0 0 else s

/-- CONTROLLER_ENABLE (R302, R382): the admin queues have the sizes of AQA. -/
def execControllerEnable (d : DieIx) (asqs acqs : Nat) (s : State) : Out :=
  let h := s.dies[d].host
  if !s.hostLinkUp d || !s.configInit d || h.enabled then unchanged s else
  let s := s.updHost d fun h => { h with
    enabled := true, shst := 0, subs := [SubQueue.mk 0 0 asqs 0], cpls := [CplQueue.mk 0 acqs 0 0 true] }
  .next (s.controllerReady d)

/-- A successful commit lets a controller reset or an NVM subsystem reset end recovery mode (R386). -/
def State.recoveryEnds (s : State) : Bool := s.keeper.boot.stage == .recovery && s.keeper.boot.recoveryCommitted

/-- CONTROLLER_RESET (R287, R386): CC.EN 1 to 0. In the safe state CSTS.CFS stays set (R478). -/
def execControllerReset (d : DieIx) (s : State) : Out :=
  if !s.dies[d].host.enabled then unchanged s else
  let cfs := s.keeper.fc.safe
  let s := ((s.hostReset d).updHost d fun h => { h with cfs := cfs }).raiseAt d 465 0 0
  .next (if s.recoveryEnds then s.takePending.startRescue false false true else s)

/-- Open bands that carry parity are sealed, every parity row programmed, its accumulation freed and every dirty bit cleared (R183, R186). -/
def State.sealOpen (s : State) (g : RegionIx) : State :=
  let open' := (s.regions[g]).tab.bands.filter fun x => x.phase == .opened && x.carriesParity
  open'.foldl (fun s x =>
    let s := (s.sealBand g x.num true).accFree g (·.1 == x.num)
    let s := x.dirty.foldl (fun s k => s.jot g (.dirty x.num k false)) s
    let ws := (x.rowsOk.map (·.1)).eraseDups
    s.updBand g x.num fun y => { y with dirty := [], parityOk := (y.parityOk ++ ws.flatMap fun w => [(w, 0), (w, 1)]).eraseDups }) s
def State.sealAllOpen (s : State) : State := (List.finRange 4).foldl State.sealOpen s

/-- A shutdown in progress ends once the controller's commands have completed; the last controller to shut down seals the bands (R287), and the
keeper writes its timekeeping record (R79). -/
def State.settleShutdown (s : State) (d : DieIx) : State :=
  let h := s.dies[d].host
  if h.shst ≠ 1 ∨ h.slots.isEmpty = false ∨ (h.writes.all (·.orphan)) = false then s else
  let s := s.updHost d fun h => { h with shst := 2 }
  let o := s.dies[otherDie d].host
  if !o.enabled || o.shst == 2 then s.sealAllOpen.writeTkRecord else s

/-- NORMAL_SHUTDOWN (R287, R470). -/
def execNormalShutdown (d : DieIx) (s : State) : Out :=
  let h := s.dies[d].host
  if !h.enabled || h.shst != 0 || s.portDead then unchanged s else
  .next ((((s.updHost d fun h => { h with shst := 1 }).raiseAt d 467 0 0).startFlush).settleShutdown d)

/-- ABRUPT_SHUTDOWN (R287). -/
def execAbruptShutdown (d : DieIx) (s : State) : Out :=
  let h := s.dies[d].host
  if !h.enabled || h.shst == 2 || s.portDead then unchanged s else
  .next ((((s.endHostWork d).clearSlots d).updHost d fun h => { h with
    shst := 2, slots := [], backlog := [], writes := h.writes.map fun w => { w with orphan := true } }).raiseAt d 468 0 0)

/-- NVM_SUBSYSTEM_RESET (R287, R386, R450): both controllers, and both links retrain; a pending activation, or a commit in recovery mode, makes it
a package restart. -/
def execNvmSubsystemReset (d : DieIx) (value : Word) (s : State) : Out :=
  if value ≠ 0x4E564D65 ∨ s.portDead = true ∨ s.hostLinkUp d = false then unchanged s else
  let s := s.raiseAt d 466 0 0
  if s.fw.pendingSlot.isSome || s.recoveryEnds then .next (s.takePending.startRescue false false true)
  else
    let down (h : HostPort) : HostPort := { h with speed := 0, width := 0 }
    .next ((((s.hostReset 0).hostReset 1).updHost 0 down).updHost 1 down)

/-! Doorbells (R288). -/

/-- A doorbell that names no queue, or a value outside it, is discarded. -/
def State.badDoorbell (s : State) (d : DieIx) : State := (s.updHost d fun h => h.async ⟨d.val, d.isLt⟩ .invalidDoorbell).raiseAt d 484 0 0

/-- SUBMISSION_QUEUE_DOORBELL (R31, R288). -/
def execSubmissionQueueDoorbell (d : DieIx) (qid tail : Nat) (s : State) : Out :=
  let h := s.dies[d].host
  if !h.enabled || !s.hostLinkUp d then unchanged s
  else match h.subs.find? fun q => q.id == qid with
    | none => .next (s.badDoorbell d)
    | some q =>
      if q.size ≤ tail then .next (s.badDoorbell d)
      else .next (s.updHost d fun h => { h with subs := h.subs.map fun q => if q.id == qid then { q with tail := tail } else q })

/-- COMPLETION_QUEUE_DOORBELL (R288). -/
def execCompletionQueueDoorbell (d : DieIx) (qid head : Nat) (s : State) : Out :=
  let h := s.dies[d].host
  if !h.enabled || !s.hostLinkUp d then unchanged s
  else match h.cpls.find? fun q => q.id == qid with
    | none => .next (s.badDoorbell d)
    | some q =>
      if q.size ≤ head then .next (s.badDoorbell d)
      else .next (s.updHost d fun h => { h with cpls := h.cpls.map fun q => if q.id == qid then { q with head := head } else q })

/-! I/O queues (R281; status codes of the base specification, PRESUMED, log entry 36). -/

/-- An admin command that the present state admits runs. -/
def State.admin (s : State) (k : AdminKind) (ref : CmdRef) (f : State → State) : Out := s.adminThen k ref fun s => .next (f s)

def stInvalidQueueId : Status := stSpecific 0x01
def stInvalidQueueSize : Status := stSpecific 0x02

/-- Queue identifier and size are valid: 128 I/O queues of 2 to 16,384 entries, contiguous. -/
def queueFault (used : List Nat) (qid entries : Nat) (contiguous : Bool) : Option Status :=
  if qid = 0 ∨ 128 < qid ∨ used.contains qid = true then some stInvalidQueueId
  else if entries < 2 ∨ 16384 < entries then some stInvalidQueueSize
  else if contiguous then none else some stInvalidField

/-- CREATE_IO_COMPLETION_QUEUE (R281). -/
def execCreateIoCompletionQueue (ref : CmdRef) (qid entries : Nat) (contiguous irqEn : Bool) (vector : Nat) (s : State) : Out :=
  s.admin .queueWork ref fun s =>
    let h := s.dies[refDie ref].host
    match queueFault (h.cpls.map (·.id)) qid entries contiguous with
    | some st => s.complete ref st 0
    | none =>
      if 128 < vector then s.complete ref (stSpecific 0x08) 0
      else (s.updHost (refDie ref) fun h => { h with cpls := h.cpls ++ [CplQueue.mk qid entries 0 vector irqEn] }).complete ref stOk 0

/-- AUTO_LOCK of the cipher policy: key installation locks with the first I/O submission queue after a start (R406). -/
def State.autoLock (s : State) : State :=
  if ((s.recs?.bind (·.cipher)).getD (false, false)).2 then
    let lock (c : Cipher) : Cipher := { c with locked := true }
    (s.updCipher 0 lock).updCipher 1 lock
  else s

/-- CREATE_IO_SUBMISSION_QUEUE (R281, R406). -/
def execCreateIoSubmissionQueue (ref : CmdRef) (qid entries cqid : Nat) (contiguous : Bool) (s : State) : Out :=
  s.admin .queueWork ref fun s =>
    let h := s.dies[refDie ref].host
    match queueFault (h.subs.map (·.id)) qid entries contiguous with
    | some st => s.complete ref st 0
    | none =>
      if cqid = 0 ∨ (h.cpls.any fun q => q.id == cqid) = false then s.complete ref (stSpecific 0x00) 0
      else ((s.autoLock).updHost (refDie ref) fun h => { h with subs := h.subs ++ [SubQueue.mk qid cqid entries 0] }).complete ref stOk 0

/-- A slot's command may still be caught: it has not passed its point of no return (R286). -/
def catchable (x : SlotCmd) : Bool := !x.committed && (match x.kind with | .admin | .vendor => false | _ => true)

/-- A command caught in its slot ends without its effect. -/
def State.catchCmd (s : State) (x : SlotCmd) (st : Status) : State :=
  let s := s.stopClimbs fun r => r == x.ref
  let s := s.updSwarm fun w => { w with darkReads := w.darkReads.filter fun y => y.ref != x.ref }
  let jobs := s.dies[refDie x.ref].host.writes.filter fun w => !w.orphan && w.ref == x.ref
  let s := (jobs.flatMap (·.pieces)).foldl (fun s p => s.dropPiece (refDie x.ref) p) s
  s.complete x.ref st 0

/-- DELETE_IO_SUBMISSION_QUEUE (R281): commands of the queue that can still be caught are aborted for it. -/
def execDeleteIoSubmissionQueue (ref : CmdRef) (qid : Nat) (s : State) : Out :=
  s.admin .queueWork ref fun s =>
    let h := s.dies[refDie ref].host
    if qid = 0 ∨ (h.subs.any fun q => q.id == qid) = false then s.complete ref stInvalidQueueId 0
    else
      let s := (h.slots.filter fun x => x.ref.qid == qid && catchable x).foldl (fun s x => s.catchCmd x (stGeneric 0x08)) s
      (s.updHost (refDie ref) fun h => { h with subs := h.subs.filter fun q => q.id != qid }).complete ref stOk 0

/-- DELETE_IO_COMPLETION_QUEUE (R281). -/
def execDeleteIoCompletionQueue (ref : CmdRef) (qid : Nat) (s : State) : Out :=
  s.admin .queueWork ref fun s =>
    let h := s.dies[refDie ref].host
    if qid = 0 ∨ (h.cpls.any fun q => q.id == qid) = false then s.complete ref stInvalidQueueId 0
    else if h.subs.any fun q => q.cq == qid then s.complete ref (stSpecific 0x0C) 0
    else (s.updHost (refDie ref) fun h => { h with cpls := h.cpls.filter fun q => q.id != qid }).complete ref stOk 0

/-! Abort and Asynchronous Event Request. -/

/-- ABORT (R286): handled when fetched, so ACL is never exceeded. -/
def execAbort (ref : CmdRef) (sqid : Nat) (cid : Half) (s : State) : Out :=
  s.admin .abort ref fun s =>
    match s.dies[refDie ref].host.slots.find? fun x => x.ref.qid == sqid && x.ref.cid == cid && !x.ref.viaMi && catchable x with
    | some x => ((s.catchCmd x (stGeneric 0x07)).raiseAt (refDie ref) 469 0 0).complete ref stOk 0
    | none => (s.raiseAt (refDie ref) 470 0 0).complete ref stOk 1

/-- Outstanding requests that AERL of 8, counted from 0, allows (R29, R281). -/
def aerLimit : Nat := 9

/-- ASYNCHRONOUS_EVENT_REQUEST (R29, R281): held outside the slots; a waiting event completes it at once. The event of R376 waits for the
first request. -/
def execAsynchronousEventRequest (ref : CmdRef) (s : State) : Out :=
  s.admin .asyncEvent ref fun s =>
    let d := refDie ref
    let h := s.dies[d].host
    if aerLimit ≤ h.aers.length then s.complete ref (stSpecific 0x05) 0
    else if s.keeper.boot.fallbackEvent then
      let s := (s.updBoot fun b => { b with fallbackEvent := false }).updHost d fun h => { h with masked := h.masked ++ [.firmwareLog] }
      s.complete ref stOk (asyncDw0 .firmwareLog)
    else match h.events with
      | e :: rest => (s.updHost d fun h => { h with events := rest, masked := h.masked ++ [e] }).complete ref stOk (asyncDw0 e)
      | [] => s.updHost d fun h => { h with aers := h.aers ++ [ref.cid] }

end Sys2Proof.Machine
end

