-- ==== Sys2Proof/Machine/Namespaces.lean ====
section
/-! DEFINITION. Namespace Management, Namespace Attachment, Format NVM and Sanitize (R279, R290, R291, R338, R339, R406, R418). -/

namespace Sys2Proof.Machine

/-- The NSID that names every namespace. -/
def allNs : Nat := 0xFFFFFFFF

def stReadOnly : Status := stGeneric 0x20
def stInternalError : Status := stGeneric 0x06
def stInvalidNs : Status := stGeneric 0x0B

/-! Waiting for the updates of an extent. -/

/-- Fetched commands, received writes or pending updates of these namespaces are not finished (R149, R339 step 1). -/
def State.extentBusy (s : State) (ids : List Nat) : Bool :=
  (List.finRange 4).any (fun g => (s.regions[g]).pend.any fun u => ids.contains u.nsid) ||
  [(0 : DieIx), 1].any fun d =>
    s.dies[d].host.slots.any (fun x => x.kind != .admin && x.kind != .vendor && ids.contains x.nsid) ||
    s.dies[d].host.writes.any fun w => ids.contains w.nsid

/-- An admin command keeps its slot while it waits. -/
def State.holdAdmin (s : State) (ref : CmdRef) (nsid : Nat) : State := s.updHost (refDie ref) fun h =>
  { h with slots := if h.slots.any (fun x => x.ref == ref) then h.slots
      else h.slots ++ [heldSlot ref .admin nsid] }

/-- Run once the updates of these namespaces are mapped, no diapause is being prepared and no live apply stands at its barrier (R417); until then the command waits in its slot. It
cancels a prepared diapause (R295). -/
def State.onceIdle (s : State) (ref : CmdRef) (nsid : Nat) (ids : List Nat) (f : State → State) : State :=
  if s.preparing || s.opt.barrier.isSome || s.extentBusy ids then s.holdAdmin ref nsid else f s.cancelReady

/-! Namespace Management. -/

/-- The lowest free base that holds so many extent units (R123). -/
def lowestBase (ns : List NamespaceRec) (units : Nat) : Nat :=
  let clear (b : Nat) : Bool := ns.all fun n => decide (b + units ≤ n.base) || decide (n.base + nsUnits n ≤ b)
  ((0 :: ns.map fun n => n.base + nsUnits n).filter clear).foldl min ((ns.map fun n => n.base + nsUnits n).foldl max 0)

/-- The profile of every region supports the namespace's effective target density (R65). -/
def State.densityServed (s : State) (nsid : Nat) : Bool :=
  (List.finRange 4).all fun g => match s.regionProf? g with
    | some p => p.densities.contains (s.targetOf nsid)
    | none => false

/-- SPARE of every main pool stays above 0 with these namespaces (R171). -/
def State.spareStays (s : State) (ns : List NamespaceRec) : Bool :=
  (List.finRange 4).all fun g => match s.geo? g, s.regionProf? g with
    | some geo, some p => spareOkMain geo p (s.regions[g]).tab ns s.targetOf
    | _, _ => false

/-- The package writes a new namespace set: its image, the extents, keys and lists that follow (R418). -/
def State.newNamespaces (s : State) (ns : List NamespaceRec) : State :=
  let old := s.namespaces
  ((((s.packageImage ns).applyNamespaces old ns).raise 479).hostChangedNs).checkSpares

/-- The refusal of a creation (R281, R290, R406). -/
def State.createFault (s : State) (ncap : Nat) (n : NamespaceRec) : Option Status :=
  let ns := s.namespaces
  if 2 < n.lbaf then some (stSpecific 0x0A)
  else if n.nsze ≠ ncap then some (stSpecific 0x1B)
  else if n.nsze < blocksPerGranule n.lbaf ∨ n.phandles.isEmpty = true ∨ 8 < n.phandles.length ∨ n.phandles.all (fun h => decide (h < 8)) = false then some stInvalidField
  else if s.readOnlyNow then some stReadOnly
  else if ((s.recs?.bind (·.cipher)).getD (false, false)).1 && s.kekId == 0 then some stSequenceError
  else if 32 ≤ ns.length then some (stSpecific 0x16)
  else if !s.mapFits (ns ++ [n]) || !s.spareStays (ns ++ [n]) || !s.densityServed n.nsid then some (stSpecific 0x15)
  else none

/-- The generator fails its health tests: nothing changes but CPH_STATUS.DRBG_FAIL, and the command completes (R338). -/
def State.drbgFailed (s : State) (ref : CmdRef) : State :=
  (s.updCipher (if s.cipherUp 0 then 0 else 1) fun c => { c with drbgFail := true }).complete ref stInternalError 0

/-- The namespace that a creation makes: the lowest free NSID (DESIGN CHOICE, log entry 37) and extent, a GUID that the rules leave open, and handle 0 where
the command names no placement handle (DESIGN CHOICE, log entry 38). -/
def State.newNamespace (s : State) (nsze lbaf : Nat) (phandles : List Nat) : NamespaceRec :=
  let ns := s.namespaces
  let id := (((List.range 32).map (· + 1)).find? fun i => !(ns.any fun n => n.nsid == i)).getD 33
  let n : NamespaceRec := { nsid := id, lbaf := lbaf, nsze := nsze, nguid := Config.nguid s.free, base := 0, phandles := if phandles.isEmpty then [0] else phandles }
  { n with base := lowestBase ns (nsUnits n) }

/-- NAMESPACE_MANAGEMENT_CREATE (R123, R290, R338, R418). -/
def execNamespaceManagementCreate (ref : CmdRef) (nsze ncap lbaf : Nat) (phandles : List Nat) (drbgOk : Bool) (s : State) : Out :=
  s.admin .namespaceWork ref fun s =>
    let n := s.newNamespace nsze lbaf phandles
    match s.createFault ncap n with
    | some st => s.complete ref st 0
    | none =>
      if !drbgOk then s.drbgFailed ref
      else s.onceIdle ref 0 [] fun s =>
        (({ s with free := s.free + 1 }).newNamespaces (s.namespaces ++ [n])).complete ref stOk (BitVec.ofNat 32 n.nsid)

/-- Namespaces that a command names. -/
def State.named (s : State) (nsid : Nat) : List Nat := if nsid = allNs then s.nsids else s.nsids.filter (· == nsid)

/-- NAMESPACE_MANAGEMENT_DELETE (R149, R290, R418): pending updates finish first. -/
def execNamespaceManagementDelete (ref : CmdRef) (nsid : Nat) (s : State) : Out :=
  s.admin .namespaceWork ref fun s =>
    let ids := s.named nsid
    if ids.isEmpty && nsid != allNs then s.complete ref stInvalidNs 0
    else s.onceIdle ref nsid ids fun s => (s.newNamespaces (s.namespaces.filter fun n => !ids.contains n.nsid)).complete ref stOk 0

/-- NAMESPACE_ATTACHMENT (R279): every namespace is shared and attached to both controllers. Attaching finds it attached; nothing detaches it
(PRESUMED, log entry 39). -/
def execNamespaceAttachment (ref : CmdRef) (nsid : Nat) (attach : Bool) (ctrls : List Half) (s : State) : Out :=
  s.admin .namespaceWork ref fun s =>
    if !s.nsids.contains nsid then s.complete ref stInvalidNs 0
    else if ctrls.isEmpty || !ctrls.all fun c => c == 1 || c == 2 then s.complete ref (stSpecific 0x1C) 0
    else s.complete ref (if attach then stSpecific 0x18 else stInvalidField) 0

/-! Format NVM. -/

/-- A namespace after a change of its LBA format: the size in bytes is kept (R290). -/
def relba (lbaf : Nat) (n : NamespaceRec) : NamespaceRec :=
  if n.lbaf = lbaf then n else { n with lbaf := lbaf, nsze := n.nsze * blocksPerGranule lbaf / blocksPerGranule n.lbaf }

/-- The record of the new LBA format (R418); none is written where no format changes. -/
def State.setLbaf (s : State) (ids : List Nat) (lbaf : Nat) : State :=
  let new := s.namespaces.map fun n => if ids.contains n.nsid then relba lbaf n else n
  if new = s.namespaces then s else
  let old := s.namespaces
  (((s.packageImage new).applyNamespaces old new).hostChangedNs).checkSpares

/-- The refusal of a Format (R290). -/
def State.formatFault (s : State) (nsid lbaf : Nat) : Option Status :=
  let ids := s.named nsid
  if ids.isEmpty && nsid != allNs then some stInvalidNs
  else if 2 < lbaf then some (stSpecific 0x0A)
  else if ids.any s.sub.inaccessible.contains then some (stGeneric 0x82)
  else none

/-- FORMAT_NVM (R134, R149, R290), SES 000. -/
def execFormatNvm (ref : CmdRef) (nsid lbaf : Nat) (s : State) : Out :=
  s.admin .formatNvm ref fun s => match s.formatFault nsid lbaf with
    | some st => s.complete ref st 0
    | none => s.onceIdle ref nsid (s.named nsid) fun s =>
        (((s.named nsid).foldl State.formatExtent s).setLbaf (s.named nsid) lbaf).complete ref stOk 0

/-- A crypto erase of namespaces from its step 2 on: nothing where it runs already, its end comes with the FORMAT records (R339). -/
def State.eraseNow (s : State) (ref : CmdRef) (nsid : Nat) (ids : List Nat) (drbgOk : Bool) (f : State → State) : State :=
  if s.openErase?.isSome then s
  else if !drbgOk then s.drbgFailed ref
  else f ((s.holdAdmin ref nsid).beginErase ids ref)

/-- FORMAT_NVM_CRYPTO_ERASE (R290, R338, R339), SES 001 and 010: the command completes once the new key set is committed. -/
def execFormatNvmCryptoErase (ref : CmdRef) (nsid lbaf : Nat) (drbgOk : Bool) (s : State) : Out :=
  s.admin .formatNvm ref fun s => match s.formatFault nsid lbaf with
    | some st => s.complete ref st 0
    | none =>
      let ids := s.named nsid
      if ids.isEmpty then s.complete ref stOk 0
      else (s.updSub fun x => { x with eraseRef := some ref }).onceIdle ref nsid ids fun s =>
        s.eraseNow ref nsid ids drbgOk fun s => s.setLbaf ids lbaf

/-! Sanitize (R291). -/

/-- Contributed payload bytes of a segment (R212, R291). -/
def segBytes : Nat := 1082130432

/-- Ones of the DONE bits of a segment: the contributions that retracts are to take back. -/
def popcount4 (x : BitVec 4) : Nat := ((List.range 4).filter fun i => x.getLsbD i).length

/-- The estimate of a block erase in seconds: the retract traffic at 25 GB/s, rounded up (R291). -/
def State.eraseEstimate (s : State) : Nat :=
  let n := ((List.finRange 4).map fun g => ((s.regions[g]).tab.segs.map fun e => popcount4 e.done).sum).sum
  (n * segBytes + 25000000000 - 1) / 25000000000

/-- Data bands of the regions in service, which a block erase reclaims. -/
def State.dataBands (s : State) : List (RegionIx × Nat) :=
  (List.finRange 4).flatMap fun g => if (s.regions[g]).inService then
    ((s.regions[g]).tab.bands.filter fun x => x.kind == .data && x.phase != .erased).map fun x => (g, x.num) else []

/-- A sanitize starts: 480, its state, and for a block erase the open bands sealed and every data band to be reclaimed. -/
def State.sanitizeStart (s : State) (block : Bool) : State :=
  let s := s.raise 480
  let s := if block then s.sealAllOpen else s
  s.updSub fun x => { x with
    sanitize := .running block, sanitizeBands := if block then s.dataBands else []
    sanitizeEstimate := if block then s.eraseEstimate else 0 }

/-- A crypto or block erase: refused while one runs; it waits for fetched commands and pending updates, replaces every key and sets every
entry to 010; the command completes with step 7 of R339, a block erase goes on until its bands are reclaimed (DESIGN CHOICE, log entry 41). -/
def State.sanitizeRun (s : State) (ref : CmdRef) (block drbgOk : Bool) : State :=
  if s.sanitizing && s.openErase?.isNone then s.complete ref stSanitizeInProgress 0
  else if s.nsids.isEmpty then s.onceIdle ref allNs [] fun s => ((s.sanitizeStart block).settleSanitize).complete ref stOk 0
  else (s.updSub fun x => { x with eraseRef := some ref }).onceIdle ref allNs s.nsids fun s =>
    if s.openErase?.isSome then s
    else if !drbgOk then s.drbgFailed ref
    else ((s.sanitizeStart block).holdAdmin ref allNs).beginErase s.nsids ref

/-- SANITIZE_CRYPTO_ERASE (R291, R339). -/
def execSanitizeCryptoErase (ref : CmdRef) (drbgOk : Bool) (s : State) : Out := s.admin .sanitize ref fun s => s.sanitizeRun ref false drbgOk
/-- SANITIZE_BLOCK_ERASE (R291). -/
def execSanitizeBlockErase (ref : CmdRef) (drbgOk : Bool) (s : State) : Out := s.admin .sanitize ref fun s => s.sanitizeRun ref true drbgOk
/-- SANITIZE_OVERWRITE (R291): not supported. -/
def execSanitizeOverwrite (ref : CmdRef) (s : State) : Out := s.admin .sanitize ref fun s => s.complete ref stInvalidField 0
/-- SANITIZE_EXIT_FAILURE_MODE (R291): a failed sanitize is left; in any other state nothing changes. -/
def execSanitizeExitFailureMode (ref : CmdRef) (s : State) : Out :=
  s.admin .sanitize ref fun s =>
    if s.sanitizing then s.complete ref stSanitizeInProgress 0
    else (s.updSub fun x => { x with sanitize := if x.sanitize = .failed then .never else x.sanitize }).complete ref stOk 0

end Sys2Proof.Machine
end

