-- ==== Sys2Proof/Machine/Diapause.lean ====
section
/-! DEFINITION. Diapause Prepare, its end and its status (R294, R295, R363, R364). -/

namespace Sys2Proof.Machine

/-- DIAPAUSE_PREPARE (R295, R363): I/O fetch stops on both controllers; Prepare waits for the ready state. -/
def execDiapausePrepare (ref : CmdRef) (s : State) : Out :=
  s.admin .diapausePrepare ref fun s =>
    if s.preparing then s.complete ref stInProgress 0
    else
      let s := (s.updSub fun x => { x with diapause := .preparing ref }).hostPauseFetch
      s.updHost (refDie ref) fun h => { h with slots := h.slots ++ [heldSlot ref .vendor 0] }

/-- Steps 1 and 2 of R363 are done: fetched commands have completed, nothing lies in a window and no update is pending. -/
def State.diapauseDrained (s : State) : Bool :=
  [(0 : DieIx), 1].all (fun d => s.dies[d].pool.win.isEmpty && s.dies[d].host.writes.isEmpty &&
    s.dies[d].host.slots.all fun x => x.kind == .admin || x.kind == .vendor) &&
  (List.finRange 4).all fun g => (s.regions[g]).pend.isEmpty

/-- Step 5: every image is captured, on both copies where the region writes two, and indexed (R140, R143, R144). -/
def State.captureAll (s : State) (g : RegionIx) : State :=
  (s.regions[g]).imageList.foldl (fun s i =>
    let s := s.captureImage g i
    let two := !(s.regions[g]).journal.singleCopy
    let s := s.updRegion g fun r => { r with images := r.images.map fun x => if x.image == i && !x.indexed then { x with ok := #v[true, x.ok[1] || two] } else x }
    match (s.regions[g]).images.find? fun x => x.image == i && !x.indexed with
    | some x => s.indexImage g x.ckptSeq
    | none => s) s

/-- The tail of a region is durable, with what that durability allows (R139). -/
def State.drainOnce (s : State) (g : RegionIx) : State :=
  let frames := ((s.regions[g]).closeTail).journal.tail
  let s := s.persistJournal g
  frames.foldl (fun s f => (f.recs.foldl (fun s x => s.recDurable g x) s).openGate g f.num) s

/-- Step 6: the tail is durable, records that its durability calls for included. -/
def State.drainJournal (s : State) (g : RegionIx) : State := ((List.range 4).foldl (fun s _ => s.drainOnce g) s).settleErase

/-- DIAPAUSE_READY (R363 steps 3 to 8): folding, Scarab and patrol stop; bands sealed, images captured, journals durable, timekeeping and events
written, the diapause record programmed. Prepare completes. -/
def execDiapauseReady (s : State) : Out :=
  match s.sub.diapause with
  | .preparing ref =>
    if !s.diapauseDrained || s.keeper.rescue.run.isSome then unchanged s else
    let s := s.sealAllOpen
    -- The first capture opens bands where it needs them; the second stamps every image again above those records.
    let pass (s : State) : State := (List.finRange 4).foldl (fun s g => if (s.regions[g]).inService then (s.drainJournal g).captureAll g else s) s
    let s := pass (pass s)
    let s := (List.finRange 4).foldl (fun s g => s.drainJournal g) s
    let s := (s.writeTkRecord).flushNow.keeperLine 1
    let s := (s.updRescue fun r => { r with record := .diapause }).updSub fun x => { x with diapause := .ready }
    -- The DRAM goes into self-refresh, and its clocks stop (R34).
    .next (((s.clockOrder false [.lpddr 0, .lpddr 1]).hostResumeFetch).complete ref stOk 0)
  | .lit | .ready | .cancelled => unchanged s

/-- Percent of map images captured above the last record of their segment (R294). -/
def State.capturedPercent (s : State) : Nat :=
  let per (g : RegionIx) : List Bool := (s.regions[g]).imageList.map fun i => match (s.regions[g]).currentImage i with
    | some x => (s.regions[g]).untouched i x.jframe
    | none => false
  let all := (List.finRange 4).flatMap per
  if all.isEmpty then 0 else 100 * (all.filter id).length / all.length

/-- State code of Diapause Status (R294). -/
def diapauseCode : Diapause → Nat
  | .lit => 0 | .preparing _ => 1 | .ready => 2 | .cancelled => 3

/-- DIAPAUSE_STATUS (R294). -/
def execDiapauseStatus (ref : CmdRef) (s : State) : Out :=
  s.admin .diapauseStatus ref fun s => s.complete ref stOk (BitVec.ofNat 32 (diapauseCode s.sub.diapause + 256 * s.capturedPercent))

end Sys2Proof.Machine
end

