-- ==== Sys2Proof/Machine/Fabric.lean ====
section
/-! DEFINITION. The clockless fabric: VCORE windows, the real-time tick, the die bridge and the clocked crossings (R22 to R37). -/

namespace Sys2Proof.Machine

/-- VCORE_OUT_OF_WINDOW (R26, R465): below 0.53 V or above 0.88 V the die raises 313 or 345 and takes no new tokens. -/
def execVcoreOutOfWindow (d : DieIx) (mv : Nat) (s : State) : Out :=
  if 530 ≤ mv ∧ mv ≤ 880 then unchanged s else
  let src := dieSrc d 17
  let s := s.updCommon d fun c => { c with vcoreMeas := mv, vcoreBad := true }
  let shaded := s.shaded (.die d)
  let s := s.raise src
  .next (if shaded then s else
    (s.updCommon d fun c => { c with tokensPaused := true }).openShadow d src (.dieAndBridge d) (.die d))

/-- VCORE_WINDOW_RESTORED (R26): back inside 0.55 V to 0.85 V for 100 µs, the die accepts tokens again. -/
def execVcoreWindowRestored (d : DieIx) (mv : Nat) (s : State) : Out :=
  if 550 ≤ mv ∧ mv ≤ 850 then
    .next (s.updCommon d fun c => { c with vcoreMeas := mv, vcoreBad := false, tokensPaused := false })
  else unchanged s

/-- XTAL25_STOP (R28): every clocked PHY stops, the tick moves to XTAL32K, and each die raises its link-down events. -/
def execXtal25Stop (s : State) : Out :=
  if !s.keeper.sup.vinOk || !s.keeper.sup.xtal25 then unchanged s else
  let s := s.updSup fun x => { x with xtal25 := false }
  let s := allCrossings.foldl (fun s x => s.updCrossing x fun c => { c with clockOn := false }) s
  .next ((((s.hostLinkLost 0).hostLinkLost 1).swarmLinkLost 0).swarmLinkLost 1)

/-- XTAL32K_STOP (R28): 382 with VIN present, the tick stays on XTAL25; Carapace-only the keeper is left without a timebase. -/
def execXtal32kStop (s : State) : Out :=
  if !s.keeper.sup.xtal32k then unchanged s else
  let s := s.updSup fun x => { x with xtal32k := false }
  .next (if s.keeper.sup.vinOk then s.raise 382 else s.updTk fun t => { t with kept := false })

/-- One arrival at the receiving side of the bridge (R32): a good transfer leaves the direction and one that waits takes its place (R31);
a failed one is counted and resent. A tag that does not stand is a transfer that the model did not send out. -/
def bridgeArrive (b : BridgeDir) (tag : Nat) (crcOk : Bool) : BridgeDir :=
  let out := if b.out.any (·.tag == tag) then b.out else b.out ++ [{ tag := tag, fails := 0, item := .other, kind := .read }]
  if crcOk then ({ b with out := out.filter (·.tag != tag) } : BridgeDir).grant
  else { b with out := out.map fun x => if x.tag = tag then { x with fails := x.fails + 1 } else x }

/-- The result of a request that has arrived sets out for the die of its host port (R18; that it does so at once is log entry 122). -/
def State.bridgeAnswer (s : State) (toward : DieIx) (tag : Nat) : State :=
  match (s.com toward).bridge.out.find? (·.tag == tag) with
  | some x => match x.item with
    | .request ref => s.bridgeSend (otherDie toward) (.answer ref) x.kind
    | .answer _ | .other => s
  | none => s

/-- DIE_BRIDGE_TRANSFER (R26, R32): the receiving die, where it takes tokens, checks the CRC-32C; a failed transfer raises 311 or 343 and is
resent, and one that fails 8 times in a row loses the bridge. A new transfer beyond the 256 of its direction waits at the sender (R31). -/
def execDieBridgeTransfer (toward : DieIx) (tag : Nat) (crcOk : Bool) (s : State) : Out :=
  let b := (s.com toward).bridge
  if !s.bridgeUp || (s.com toward).tokensPaused then unchanged s
  else if !(b.out.any (·.tag == tag)) && decide (b.out.length ≥ bridgeLimit) then
    .next (s.updCommon toward fun c => { c with bridge := { b with
      waiting := b.waiting ++ [{ tag := tag, fails := 0, item := .other, kind := .read }] } })
  else
    let s := if crcOk then s.bridgeAnswer toward tag else s
    let b' := bridgeArrive (s.com toward).bridge tag crcOk
    let s := s.updCommon toward fun c => { c with bridge := b' }
    let s := if crcOk then s else s.raise (dieSrc toward 15)
    .next (if b'.out.any (fun x => decide (x.fails ≥ 8)) then s.bridgeLost else s)

/-- DIE_BRIDGE_HANDSHAKE_TIMEOUT (R32): no handshake for 100 µs while transfers wait. -/
def execDieBridgeHandshakeTimeout (s : State) : Out :=
  let busy (d : DieIx) := !(s.com d).bridge.out.isEmpty || !(s.com d).bridge.waiting.isEmpty
  if s.bridgeUp && (busy 0 || busy 1) then .next s.bridgeLost else unchanged s

/-- One side of a crossing is reset (R36): it clears its pointers and drops ready, and the other stops. The LPDDR5X controller keeps what was
discarded, to repeat it. -/
def Crossing.resetSide (c : Crossing) (x : CrossingId) (phySide : Bool) : Crossing :=
  let n := c.toPhy.fill (fifoDepth x) + c.fromPhy.fill (fifoDepth x)
  { c with
    running := false, readyIn := c.readyIn && phySide, readyOut := c.readyOut && !phySide
    toPhy := if phySide then { c.toPhy with rd := 0 } else { c.toPhy with wr := 0 }
    fromPhy := if phySide then { c.fromPhy with wr := 0 } else { c.fromPhy with rd := 0 }
    again := match x with | .lpddr _ => if c.running then n else c.again | .pcie _ | .nand _ | .swarm _ => 0 }

/-- CROSSING_RESET (R36). The owner recovers the work: a lane reissues the operations that were moving data from their descriptors. -/
def execCrossingReset (x : CrossingId) (phySide : Bool) (s : State) : Out :=
  let s := s.updCrossing x fun c => c.resetSide x phySide
  .next (match x with
    | .nand l => s.laneReissue l
    | .pcie _ | .lpddr _ | .swarm _ => s)

/-- The handshake of R36: both sides at zero and ready, each ready returned as a toggle; held toggles are delivered, discarded accesses repeated, and
a held wake acted on where the clock can run. -/
def Crossing.handshake (c : Crossing) (x : CrossingId) (go : Bool) : Crossing :=
  { c with
    running := true, readyIn := true, readyOut := true, clockOn := c.clockOn || (c.wakeHeld && go), wakeHeld := c.wakeHeld && !go
    toPhy := ({ wr := 0, rd := 0 } : Fifo).pass (fifoDepth x) c.again, fromPhy := { wr := 0, rd := 0 }
    ctlOut := c.ctlOut.deliver.sendMany 1, ctlIn := c.ctlIn.deliver.sendMany 1, again := 0 }

/-- CROSSING_READY_HANDSHAKE (R36, R37). -/
def execCrossingReadyHandshake (x : CrossingId) (s : State) : Out :=
  .next (s.updCrossing x fun c => c.handshake x s.clocksRun)

/-- PHY_WAKE_REQUEST (R28, R37): held in reset, and while XTAL25 stands still; otherwise the clock runs when it ends, whichever of stop and wake was
granted first, and repeated requests merge. With the wake granted first the idle timer restarts. -/
def execPhyWakeRequest (x : CrossingId) (stopGrantedFirst : Bool) (s : State) : Out :=
  let c := s.crossing x
  if !c.running || !s.clocksRun then .next (s.updCrossing x fun c => { c with wakeHeld := true })
  else .next (s.updCrossing x fun c => { c with clockOn := true, idleTimer := !(stopGrantedFirst && c.clockOn) })

/-- PHY_IDLE_TIMER_EXPIRY (R34, R37): the clock of an idle lane PHY stops, unless a wake request is granted first. -/
def execPhyIdleTimerExpiry (l : LaneIx) (wakeGrantedFirst : Bool) (s : State) : Out :=
  let c := s.lanes[l].crossing
  if !c.running || !c.clockOn || !s.laneIdle l then unchanged s
  else if wakeGrantedFirst then .next (s.updCrossing (.nand l) fun c => { c with idleTimer := true })
  else .next (s.updCrossing (.nand l) fun c => { c with clockOn := false, idleTimer := false })

/-- PCIE_L1_2_ENTRY (R34, R35): the link enters L1.2, which crosses to the clockless side as a toggle, and the crossing's clock stops. -/
def execPcieL12Entry (d : DieIx) (s : State) : Out :=
  if s.hostLinkUp d then .next (s.updCrossing (.pcie d) fun c => { c with clockOn := false, ctlIn := c.ctlIn.send (s.com d).inService }) else unchanged s

/-- PCIE_L1_2_EXIT (R34, R35): the link leaves L1.2 and the clock restarts. -/
def execPcieL12Exit (d : DieIx) (s : State) : Out :=
  if s.hostLinkUp d && s.clocksRun then .next (s.updCrossing (.pcie d) fun c => { c with clockOn := true, ctlIn := c.ctlIn.send (s.com d).inService })
  else unchanged s

end Sys2Proof.Machine
end

