-- ==== Sys2Proof/Machine/Features.lean ====
section
/-! DEFINITION. Get Features, Set Features and autonomous power state transitions (R86, R281, R289, R292, R293, R484). -/

namespace Sys2Proof.Machine

/-- Set a feature of the controller that a command names. -/
def State.updFeat (s : State) (ref : CmdRef) (f : Features → Features) : State := s.updHost (refDie ref) fun h => { h with feat := f h.feat }

/-- The value that a Set Features takes. -/
def State.setFeature (s : State) (ref : CmdRef) (fault : Option Status) (f : Features → Features) (dw0 : Word) : Out :=
  s.admin .setFeatures ref fun s => match fault with
    | some st => s.complete ref st 0
    | none => (s.updFeat ref f).complete ref stOk dw0

/-- SET_FEATURES_TIMESTAMP (R86): milliseconds since 1970. -/
def execSetFeaturesTimestamp (ref : CmdRef) (ms : BitVec 48) (s : State) : Out :=
  s.admin .setFeatures ref fun s => (s.setTimestamp ms.toNat).complete ref stOk 0

/-- SET_FEATURES_ARBITRATION (R281). -/
def execSetFeaturesArbitration (ref : CmdRef) (dw11 : Word) (s : State) : Out := s.setFeature ref none (fun f => { f with arbitration := dw11 }) 0

/-- SET_FEATURES_POWER_MANAGEMENT (R292): the package moves, whichever controller asks. -/
def execSetFeaturesPowerManagement (ref : CmdRef) (ps : Nat) (s : State) : Out :=
  s.admin .setFeatures ref fun s => if 4 < ps then s.complete ref stInvalidField 0 else (s.complete ref stOk 0).setPower ps

/-- Threshold fields that TMPSEL names: 0 composite, 1 to 8 sensors, 0xF all (PRESUMED, log entry 36). -/
def selects (sel : Nat) (i : Fin 9) : Bool := sel == 15 || sel == i.val

/-- SET_FEATURES_TEMPERATURE_THRESHOLD (R484). -/
def execSetFeaturesTemperatureThreshold (ref : CmdRef) (kelvin : Half) (sel : Nat) (under : Bool) (s : State) : Out :=
  s.admin .setFeatures ref fun s =>
    if 8 < sel ∧ sel ≠ 15 then s.complete ref stInvalidField 0 else
    let put (v : Vector Word 9) : Vector Word 9 := Vector.ofFn fun i => if selects sel i then kelvin.setWidth 32 else v[i]
    ((s.updFeat ref fun f => if under then { f with tempUnder := put f.tempUnder } else { f with tempOver := put f.tempOver }).complete ref stOk 0).settleWarnings

/-- SET_FEATURES_ERROR_RECOVERY (R281): DULBE, bit 16, is not supported. -/
def execSetFeaturesErrorRecovery (ref : CmdRef) (dw11 : Word) (s : State) : Out :=
  s.setFeature ref (if dw11.getLsbD 16 then some stInvalidField else none) (fun f => { f with errorRecovery := dw11 }) 0

/-- SET_FEATURES_NUMBER_OF_QUEUES (R281): 128 of each are allocated; once I/O queues exist the number stands (PRESUMED, log entry 36). -/
def execSetFeaturesNumberOfQueues (ref : CmdRef) (nsq ncq : Half) (s : State) : Out :=
  let h := s.dies[refDie ref].host
  let fault := if nsq = 0xFFFF ∨ ncq = 0xFFFF then some stInvalidField
    else if (h.subs.any fun q => q.id != 0) || (h.cpls.any fun q => q.id != 0) then some stSequenceError else none
  s.setFeature ref fault (fun f => f) 0x007F007F

/-- SET_FEATURES_INTERRUPT_COALESCING (R281). -/
def execSetFeaturesInterruptCoalescing (ref : CmdRef) (dw11 : Word) (s : State) : Out := s.setFeature ref none (fun f => { f with intCoalescing := dw11 }) 0

/-- SET_FEATURES_INTERRUPT_VECTOR_CONFIG (R281): 129 vectors. -/
def execSetFeaturesInterruptVectorConfig (ref : CmdRef) (vector : Half) (disable : Bool) (s : State) : Out :=
  s.setFeature ref (if 128 < vector.toNat then some stInvalidField else none)
    (fun f => { f with intVectors := (f.intVectors.filter fun v => v.1 != vector) ++ [(vector, disable)] }) 0

/-- SET_FEATURES_ASYNC_EVENT_CONFIGURATION (R281). -/
def execSetFeaturesAsyncEventConfiguration (ref : CmdRef) (dw11 : Word) (s : State) : Out := s.setFeature ref none (fun f => { f with asyncConfig := dw11 }) 0

/-- Target state and idle time in ms of an APST entry. -/
def apstTarget (x : DWord) : Nat := (x.toNat / 8) % 32
def apstMs (x : DWord) : Nat := (x.toNat / 256) % 2 ^ 24

/-- SET_FEATURES_APST (R293): the 32 entries, indexed by the present power state; an entry with a time names PS3 or PS4. -/
def execSetFeaturesApst (ref : CmdRef) (enable : Bool) (table : Vector DWord 32) (s : State) : Out :=
  let bad := (List.finRange 5).any fun i => let x := table[i.val]; apstMs x != 0 && apstTarget x != 3 && apstTarget x != 4
  s.setFeature ref (if bad then some stInvalidField else none) (fun f => { f with apst := table, apste := enable }) 0

/-- SET_FEATURES_FDP (R289): endurance group 1, always enabled, configuration 0 alone. -/
def execSetFeaturesFdp (ref : CmdRef) (endgid : Half) (index : Byte) (enable : Bool) (s : State) : Out :=
  s.setFeature ref (if endgid ≠ 1 ∨ index ≠ 0 ∨ enable = false then some stInvalidField else none) (fun f => f) 0

/-- SET_FEATURES_FDP_EVENTS (R281): event types of a placement handle are enabled or disabled. -/
def execSetFeaturesFdpEvents (ref : CmdRef) (handle : Half) (types : List Byte) (enable : Bool) (s : State) : Out :=
  s.setFeature ref (if 7 < handle.toNat then some stInvalidField else none)
    (fun f => { f with fdpEvents := (f.fdpEvents.filter fun e => !(e.1 == handle && types.contains e.2.1)) ++ types.map fun t => (handle, t, enable) }) 0

/-- Value of a feature: completion Dword 0 and data; none for a feature that R281 does not list as supported. -/
def State.featureValue (s : State) (ref : CmdRef) (fid : Byte) (dw11 : Word) : Option (Word × Returned) :=
  let f := s.dies[refDie ref].host.feat
  match fid.toNat with
  | 0x01 => some (f.arbitration, .none)
  | 0x02 => some (BitVec.ofNat 32 s.keeper.sup.ps, .none)
  | 0x04 =>
    let sel := (dw11.toNat / 2 ^ 16) % 16
    let under := decide ((dw11.toNat / 2 ^ 20) % 4 = 1)
    if h : sel < 9 then some (if under then f.tempUnder[sel] else f.tempOver[sel], .none) else none
  | 0x05 => some (f.errorRecovery, .none)
  | 0x07 => some (f.numQueues, .none)
  | 0x08 => some (f.intCoalescing, .none)
  | 0x09 =>
    let v : Half := dw11.extractLsb' 0 16
    let off := ((f.intVectors.find? fun x => x.1 == v).map (·.2)).getD false
    if 128 < v.toNat then none else some (BitVec.ofNat 32 (v.toNat + if off then 2 ^ 16 else 0), .none)
  | 0x0B => some (f.asyncConfig, .none)
  | 0x0C => some (if f.apste then 1 else 0, .fields ((List.finRange 32).map fun i => { off := 8 * i.val, size := 8, val := (f.apst[i]).toNat }))
  | 0x0E => some (0, .fields [{ off := 0, size := 6, val := s.keeper.tk.wallMs % 2 ^ 48 }, { off := 6, size := 2, val := if s.keeper.tk.wallSet then 2 else 0 }])
  | 0x1D => some (1, .none)
  | 0x1E => some (BitVec.ofNat 32 f.fdpEvents.length, .fields (f.fdpEvents.zipIdx.map fun e =>
      { off := 2 * e.2, size := 2, val := e.1.2.1.toNat + if e.1.2.2 then 256 else 0 }))
  | _ => none

/-- GET_FEATURES (R281): an unsupported feature completes with Invalid Field in Command. -/
def execGetFeatures (ref : CmdRef) (fid : Byte) (dw11 : Word) (s : State) : Out :=
  s.admin .getFeatures ref fun s => match s.featureValue ref fid dw11 with
    | some v => s.completeWith ref stOk v.1 v.2
    | none => s.complete ref stInvalidField 0

/-- APST_IDLE_TIMER (R293): the idle time of the present state's entry at a controller has passed with both controllers idle. -/
def execApstIdleTimer (d : DieIx) (s : State) : Out :=
  let f := s.dies[d].host.feat
  let x := f.apst[s.keeper.sup.ps % 32]'(Nat.mod_lt _ (by decide))
  if !f.apste || apstMs x = 0 || !s.hostIdle || s.portDead || decide (apstTarget x ≤ s.keeper.sup.ps) || (apstTarget x != 3 && apstTarget x != 4) then unchanged s
  else .next (s.setPower (apstTarget x))

end Sys2Proof.Machine
end

