-- ==== Sys2Proof/Machine/HostIo.lean ====
section
/-! DEFINITION. I/O commands: fetch, order, reads, writes, the acknowledge window and encryption (R20, R21, R116, R124, R125, R133, R281 to R285,
R326, R327, R332). -/

namespace Sys2Proof.Machine

/-! Order of execution (R285). -/

/-- Ranges that a command modifies, and those it reads. The first range of a Copy is its destination. -/
def modRanges (x : SlotCmd) : List LbaRange := match x.kind with
  | .write | .writeZeroes | .deallocate => x.ranges
  | .copy => x.ranges.take 1
  | .read | .verify | .flush | .admin | .vendor => []
def readRanges (x : SlotCmd) : List LbaRange := match x.kind with
  | .read | .verify => x.ranges
  | .copy => x.ranges.drop 1
  | .write | .writeZeroes | .deallocate | .flush | .admin | .vendor => []

def rangesMeet (as bs : List LbaRange) : Bool := as.any fun a => bs.any fun b => decide (a.slba < b.slba + b.nlb) && decide (b.slba < a.slba + a.nlb)

/-- The range interlock holds the later of two commands. -/
def interlocked (a b : SlotCmd) : Bool :=
  a.ref.qid == b.ref.qid && a.nsid == b.nsid &&
  (rangesMeet (modRanges a) (modRanges b) || rangesMeet (modRanges a) (readRanges b) || rangesMeet (readRanges a) (modRanges b))

/-- The queue is named by the ordered queues record (R285, R402). -/
def State.orderedQueue (s : State) (ref : CmdRef) : Bool :=
  ((((s.recs?.bind (·.ordered)).getD []).drop (16 * ref.ctrl.val)).take 16).contains ref.qid && ref.qid != 0

/-- An earlier command of its queue holds the command in its slot. -/
def State.ioWaits (s : State) (c : SlotCmd) : Bool :=
  (s.dies[refDie c.ref].host.slots.takeWhile fun x => x.ref != c.ref).any fun x =>
    x.ref.qid == c.ref.qid && (s.orderedQueue c.ref || interlocked x c)

def State.nsRec? (s : State) (nsid : Nat) : Option NamespaceRec := s.namespaces.find? fun n => n.nsid == nsid

/-! Granules of a range. -/

/-- 4 KiB units of an LBA. -/
def unitsPerLba (n : NamespaceRec) : Nat := 16 / blocksPerGranule n.lbaf

/-- The granules that a range covers: granule, first FIG, units (R122). -/
def rangeCover (n : NamespaceRec) (r : LbaRange) : List (Nat × Nat × Nat) :=
  let u0 := r.slba * unitsPerLba n
  let u1 := (r.slba + r.nlb) * unitsPerLba n
  (List.range (if u0 < u1 then (u1 - 1) / 16 - u0 / 16 + 1 else 0)).map fun i =>
    let k := u0 / 16 + i
    let lo := max u0 (16 * k)
    (n.base * extentUnit + k, lo - 16 * k, min u1 (16 * k + 16) - lo)

/-- The reads of a command end: its climbs stop, and what was delivered or waits for a dark member is dropped. -/
def State.endReads (s : State) (ref : CmdRef) : State :=
  (s.stopClimbs (· == ref)).updSwarm fun w => { w with darkReads := w.darkReads.filter fun x => x.ref != ref }

/-! Fetch. -/

/-- An admin command on the namespace waits or runs, so that fetch for it has stopped (R149, R339). -/
def State.fetchHeld (s : State) (nsid : Nat) : Bool :=
  (s.dies[0].host.slots ++ s.dies[1].host.slots).any fun x => x.kind == .admin && (x.nsid == nsid || x.nsid == allNs)

/-- The status that refuses an I/O command, none where it runs (R279, R281, R291). -/
def State.ioFault (s : State) (c : SlotCmd) : Option Status :=
  if s.sanitizing then some stSanitizeInProgress
  else if s.sub.sanitize = .failed then some stSanitizeFailed
  else if c.kind == .flush && c.nsid == allNs then none
  else match s.nsRec? c.nsid with
    | none => some stInvalidNs
    | some n =>
      if s.sub.inaccessible.contains c.nsid then some { sct := 3, sc := 0x02, dnr := false }
      else if c.ranges.any fun r => decide (n.nsze < r.slba + r.nlb) then some (stGeneric 0x80)
      else none

/-- The queue works: its controller posts completions, and it exists. -/
def State.queueLive (s : State) (ref : CmdRef) : Bool :=
  let h := s.dies[refDie ref].host
  h.posts && !ref.viaMi && ref.qid != 0 && (h.subs.any fun q => q.id == ref.qid)

/-- The command lies in a slot. -/
def State.fetched (s : State) (ref : CmdRef) : Bool := s.dies[refDie ref].host.slots.any fun x => x.ref == ref

/-- Fetch takes the command into a slot now (R31, R303): its die takes tokens (R26), and a slot is free. -/
def State.mayFetch (s : State) (c : SlotCmd) : Bool :=
  let h := s.dies[refDie c.ref].host
  !h.paused && !(s.com (refDie c.ref)).tokensPaused && decide (h.slots.length < 1024) && !s.fetchHeld c.nsid

/-- Granule requests of a command, by the region that serves each (R18). -/
def State.granuleNeed (s : State) (c : SlotCmd) : Vector Nat 4 :=
  match s.nsRec? c.nsid with
  | none => Vector.replicate 4 0
  | some n =>
    let gs := (c.ranges.flatMap (rangeCover n)).map fun x => s.server x.1
    Vector.ofFn fun g => (gs.filter (· == g)).length

/-- The requests of a command that the other die's regions serve set out across the bridge, one for each region (R18). -/
def State.bridgeRequests (s : State) (c : SlotCmd) : State :=
  let d := refDie c.ref
  ((List.finRange 4).filter fun g => dieOfRegion g != d && (s.granuleNeed c)[g] != 0).foldl
    (fun s _ => s.bridgeSend (otherDie d) (.request c.ref) (if cmdRank c = 0 then .read else .write)) s

/-- The command takes its slot; in PS3 or PS4 it wakes the package, and a prepared diapause is cancelled (R293, R295). Its requests for the
other die cross the bridge. -/
def State.fetch (s : State) (c : SlotCmd) : State :=
  if s.fetched c.ref then s
  else ((s.wake.cancelReady).updHost (refDie c.ref) fun h => { h with slots := h.slots ++ [c] }).bridgeRequests c

/-- The slot entry of a command as it stands. -/
def State.slot? (s : State) (ref : CmdRef) : Option SlotCmd := s.dies[refDie ref].host.slots.find? fun x => x.ref == ref

/-- The command holds lookups. -/
def State.looking (s : State) (c : SlotCmd) : Bool := (s.slot? c.ref).any fun x => x.looks.toList.any (· != 0)

/-- A region that the command needs has all of its lookups in use (R29). -/
def State.lookBlocked (s : State) (c : SlotCmd) : Option RegionIx :=
  if s.looking c then none
  else (List.finRange 4).find? fun g => (s.granuleNeed c)[g] != 0 && decide (lookupLimit ≤ (s.regions[g]).lookups)

/-- The command's granule requests take lookups, as many as there are (R29). -/
def State.takeLooks (s : State) (c : SlotCmd) : State :=
  if s.looking c then s else
  let need := s.granuleNeed c
  let take : Vector Nat 4 := Vector.ofFn fun g => min need[g] (lookupLimit - (s.regions[g]).lookups)
  let s := (List.finRange 4).foldl (fun (s : State) (g : RegionIx) => if take[g] = 0 then s else s.updRegion g fun r => { r with lookups := r.lookups + take[g] }) s
  s.updHost (refDie c.ref) fun h => { h with slots := h.slots.map fun x => if x.ref == c.ref then { x with looks := take } else x }

/-- The region holds the command in its slot (R31). -/
def State.lookHeld (s : State) (c : SlotCmd) (g : RegionIx) : State :=
  if (s.slot? c.ref).any fun x => x.lookWait.isSome then s
  else (s.updHost (refDie c.ref) fun h => { h with slots := h.slots.map fun x => if x.ref == c.ref then { x with lookWait := some g } else x }).updRegion g
    fun r => { r with lookupWaiting := r.lookupWaiting + 1 }

/-- An I/O command arrives, or goes on from its slot: it is fetched, refused, held by an earlier one or by a region without a free lookup, or
carried out. -/
def State.ioThen (s : State) (c : SlotCmd) (f : State → State) : Out :=
  if !s.queueLive c.ref || !(s.fetched c.ref || s.mayFetch c) then unchanged s else
  let s := s.fetch c
  match s.ioFault c with
  | some st => .next ((s.endReads c.ref).complete c.ref st 0)
  | none => .next (if s.ioWaits c then s else match s.lookBlocked c with
    | some g => s.lookHeld c g
    | none => f (s.takeLooks c))

/-- The slot entry of a command. -/
def slotOf (ref : CmdRef) (k : CmdKind) (nsid : Nat) (ranges : List LbaRange) : SlotCmd :=
  { ref := ref, kind := k, nsid := nsid, ranges := ranges, committed := false, buffered := false, looks := Vector.replicate 4 0, lookWait := none }

/-- Bytes of a range exceed MDTS, 2 MiB (R281). -/
def overMdts (n : NamespaceRec) (r : LbaRange) : Bool := decide (512 < r.nlb * unitsPerLba n)

/-! Reads. -/

/-- The pending update that covers a unit: the newest (R125). -/
def RegionSt.pendFor (r : RegionSt) (gran fig : Nat) : Option PendUpd :=
  r.pend.reverse.find? fun u => u.gran == gran && (match u.kind with
    | .write us => (us.toList.getD fig none).isSome
    | .deallocate => true
    | .zero figs => figs.contains fig)

/-- Content that a pending update gives a unit. -/
def pendUnit (key : Nat) (u : PendUpd) (fig : Nat) : Unit4K := match u.kind with
  | .write us => (us.toList.getD fig none).getD poisonUnit
  | .deallocate | .zero _ => zeroUnit key

/-- A read at a die waits for step 6 of R20: the unit was received by the other die and is not encrypted yet. -/
def crossWaits (d : DieIx) (u : PendUpd) : Bool := !u.encrypted && (match u.kind, u.win with
  | .write _, some w => w.1 != d
  | .write _, none => true
  | .deallocate, _ | .zero _, _ => false)

/-- The requester of a command that reads. -/
def askerOf : CmdKind → Requester2
  | .verify => .verify
  | .copy => .copySource
  | _ => .host

/-- FIGs of a granule's range that the command takes from media or map: those that it has asked for, and those that no pending update covers
(R112, R125). -/
def State.ownFigs (s : State) (c : SlotCmd) (x : Nat × Nat × Nat) : List (Fin 16) :=
  (List.finRange 16).filter fun f => decide (x.2.1 ≤ f.val) && decide (f.val < x.2.1 + x.2.2) &&
    (s.askedFor x.1 f (askerOf c.kind) (some c.ref) || ((s.regions[s.server x.1]).pendFor x.1 f.val).isNone)

/-- Whether a read of a granule waits: for its region, for the other die's encryption, for its segment (R125, R147), or for a buffer (R305). -/
def State.granWaits (s : State) (c : SlotCmd) (x : Nat × Nat × Nat) : Bool :=
  let d := refDie c.ref
  let g := s.server x.1
  let r := s.regions[g]
  !r.inService ||
  ((List.range x.2.2).any fun i => ((r.pendFor x.1 (x.2.1 + i)).map (crossWaits d)).getD false) ||
  (!(s.ownFigs c x).isEmpty && !r.isResident g x.1) ||
  (match classFor (x.2.2 * 4096) with | some c => decide (s.freeCount d c = 0) | none => false)

/-- A waiting read waits for its buffer under R31. -/
def State.askFor (s : State) (c : SlotCmd) (x : Nat × Nat × Nat) : State :=
  let d := refDie c.ref
  match classFor (x.2.2 * 4096) with
  | some k => if s.freeCount d k = 0 then s.waitBuf d k .read (some c.ref) else s
  | none => s

/-- Frames of a granule that lie on media and that the command has not asked for yet (R127). -/
def State.unasked (s : State) (c : SlotCmd) (x : Nat × Nat × Nat) : List (Fin 16) :=
  if onMedia (s.entryOf x.1) then (s.ownFigs c x).filter fun f => !s.askedFor x.1 f (askerOf c.kind) (some c.ref) else []

/-- Frames of a granule that the command has asked for and that still climb. -/
def State.climbing (s : State) (c : SlotCmd) (x : Nat × Nat × Nat) : Bool :=
  (s.ownFigs c x).any fun f => s.askedFor x.1 f (askerOf c.kind) (some c.ref) && (s.delivered? x.1 f (askerOf c.kind) (some c.ref)).isNone

/-- A dark member that a frame of the command waits for (R112, R273). -/
def State.darkFor (s : State) (ref : CmdRef) : Option Nat :=
  (List.finRange 12).findSome? fun c => s.clusters[c].climbs.findSome? fun k =>
    if (k.req :: k.joined).any fun r => r.ref == some ref then k.darkWait else none

/-- Count of host reads that hit the watch table's conditions (R167). -/
def bumpWatch (w : List (Nat × Nat)) (gran : Nat) : List (Nat × Nat) :=
  match w.find? fun x => x.1 == gran with
  | some _ => w.map fun x => if x.1 == gran then (x.1, x.2 + 1) else x
  | none =>
    if w.length < 1024 then w ++ [(gran, 1)]
    else
      let low := (w.map (·.2)).foldl min ((w.headD (0, 0)).2)
      match w.find? fun x => x.2 == low with
      | some y => w.erase y ++ [(gran, 1)]
      | none => w ++ [(gran, 1)]

/-- A delivered frame counts for the watch table (R167): at step 1 or 2 above three quarters of the hard-decode limit, or at step 3 or 4. -/
def State.hotFrame (s : State) (x : FrameResult) : Bool :=
  (decide (x.step ≤ 2) && decide (3 * s.frameLimit x.req < 4 * x.corrected)) || x.step == 3 || x.step == 4

/-- A host read of a granule is counted, and its relocation asked for at the refresh count (R167, R168). -/
def State.watchRead (s : State) (c : SlotCmd) (x : Nat × Nat × Nat) : State :=
  let g := s.server x.1
  if c.kind != .read || !((s.ownFigs c x).any fun f => ((s.delivered? x.1 f .host (some c.ref)).map s.hotFrame).getD false) then s else
  let s := s.updRegion g fun r => { r with watch := bumpWatch r.watch x.1 }
  let n := ((((s.regions[g]).watch.find? fun y => y.1 == x.1)).map (·.2)).getD 0
  if dflt (((s.recs?.bind (·.density)).map (·.refreshCount)).getD 0) 4 ≤ n then s.relocateSoon g x.1 else s

/-- A poisoned map entry is consumed (R127). -/
def State.poisonedEntry (s : State) (c : SlotCmd) (x : Nat × Nat × Nat) : State :=
  if (s.entryOf x.1).state = .poisoned ∧ (s.ownFigs c x).isEmpty = false then s.raise (regionSrc (s.server x.1) 0) else s

/-- A unit as the reading command receives it (R112, R125, R127): the frame delivered to it, else pending data, else what the map entry reads as; none
where poisoned; under another key than the namespace's its content is open. -/
def State.readUnit (s : State) (c : SlotCmd) (gran fig : Nat) : Option Nat :=
  let key := s.nsKey c.nsid
  let u := match (if h : fig < 16 then s.delivered? gran ⟨fig, h⟩ (askerOf c.kind) (some c.ref) else none), (s.regions[s.server gran]).pendFor gran fig with
    | some x, _ => { x.content with poisoned := x.content.poisoned || x.poisoned }
    | none, some p => pendUnit key p fig
    | none, none => s.mappedUnit gran c.nsid fig
  if u.poisoned then none else some (if u.key = key then u.plain else Config.garbled u.plain u.key)

/-- A data unit that contains a poisoned 4 KiB unit is poisoned as a whole (R115). -/
def wholeUnits (per : Nat) (us : List (Option Nat)) : List (Option Nat) :=
  us.zipIdx.map fun x => if ((us.drop (x.2 / per * per)).take per).all Option.isSome then x.1 else none

/-- What a read of ranges meets. -/
inductive ReadEnd where
  | waits
  | dark (member : Nat)
  | units (l : List (Option Nat))

/-- The source side of Read, Verify and Copy (R21, R112, R116, R125, R127): frames on media are asked for, and the read goes on once each has been
delivered. -/
def State.readRanges (s : State) (c : SlotCmd) (n : NamespaceRec) (ranges : List LbaRange) : State × ReadEnd :=
  let cover := ranges.flatMap (rangeCover n)
  if cover.any (s.granWaits c) then (cover.foldl (fun s x => s.askFor c x) s, .waits)
  else if cover.any fun x => !(s.unasked c x).isEmpty then
    (cover.foldl (fun s x => s.wantFigs x.1 (s.unasked c x) (askerOf c.kind) (some c.ref)) s, .waits)
  else if cover.any (s.climbing c) then (s, match s.darkFor c.ref with | some m => .dark m | none => .waits)
  else
    let us := cover.flatMap fun x => (List.range x.2.2).map fun i => s.readUnit c x.1 (x.2.1 + i)
    (cover.foldl (fun s x => (s.poisonedEntry c x).watchRead c x) s, .units (wholeUnits (unitsPerLba n) us))

/-- Step 6 needs a dark member (R272, R273): the command waits for the dark-wait, or completes 7h/0x80 where it is 0. -/
def State.darkEnd (s : State) (ref : CmdRef) (member : Nat) : State :=
  if s.swarm.darkReads.any fun x => x.ref == ref then s else
  let s := s.postLight member 2
  if (s.recs?.bind (·.darkWait)).getD 0 = 0 then
    (((s.endReads ref).raiseAt (refDie ref) 483 0 0).updSub fun q => { q with life := { q.life with darkWait := q.life.darkWait + 1 } }).complete ref (stVendor 0x80) 0
  else
    let shelf := ((s.memberEntry member).map fun e => (e.rack, e.shelf)).getD (0, 0)
    s.updSwarm fun w => { w with darkReads := w.darkReads ++ [{ ref := ref, group := (s.ownGroup.map (·.group)).getD 0, shelf := shelf }] }

def stUnrecovered : Status := { sct := 2, sc := 0x81, dnr := true }

/-- Poison is consumed (R116): the event, the counts of R483 and R487. -/
def State.poisonMet (s : State) (ref : CmdRef) : State :=
  (s.raise (dieSrc (refDie ref) 20)).updSub fun x => { x with mediaErrors := x.mediaErrors + 1, life := { x.life with poisonHost := x.life.poisonHost + 1 } }

/-- READ (R21, R116, R125, R127). -/
def execRead (ref : CmdRef) (nsid slba nlb : Nat) (s : State) : Out :=
  let range : LbaRange := { slba := slba, nlb := nlb }
  let c := slotOf ref .read nsid [range]
  s.ioThen c fun s => match s.nsRec? nsid with
    | none => s
    | some n =>
      if overMdts n range then s.complete ref stInvalidField 0 else
      match s.readRanges c n [range] with
      | (s, .waits) => s
      | (s, .dark m) => s.darkEnd ref m
      | (s, .units us) =>
        let s := (s.endReads ref).updSub fun x => { x with hostReads := x.hostReads + 1, unitsRead := x.unitsRead + 8 * us.length }
        if us.all Option.isSome then s.completeWith ref stOk 0 (.units us)
        else (s.poisonMet ref).completeWith ref stUnrecovered 0 (.units us)

/-- VERIFY (R116). -/
def execVerify (ref : CmdRef) (nsid slba nlb : Nat) (s : State) : Out :=
  let range : LbaRange := { slba := slba, nlb := nlb }
  let c := slotOf ref .verify nsid [range]
  s.ioThen c fun s => match s.nsRec? nsid with
    | none => s
    | some n => match s.readRanges c n [range] with
      | (s, .waits) => s
      | (s, .dark m) => s.darkEnd ref m
      | (s, .units us) =>
        let s := s.endReads ref
        if us.all Option.isSome then s.complete ref stOk 0 else (s.poisonMet ref).complete ref stUnrecovered 0

/-- FLUSH (R284): every write completed before it is durable or protected. -/
def execFlush (ref : CmdRef) (nsid : Nat) (s : State) : Out := s.ioThen (slotOf ref .flush nsid []) fun s => s.complete ref stOk 0

/-! Writes. -/

/-- Data units of a whole granule or of part of one. -/
def writeUpd (key : Nat) (lo : Nat) (data : List Nat) : UpdKind :=
  .write (Vector.ofFn fun i : Fin 16 => if lo ≤ i.val then (data[i.val - lo]?).map fun p => { plain := p, key := key, poisoned := false } else none)

/-- The pieces of a write: one granule each (R282). -/
def writePieces (key : Nat) (data : List Nat) : List (Nat × Nat × Nat) → List (Nat × Nat × UpdKind)
  | [] => []
  | x :: rest => (x.1, x.2.2 * 4096, writeUpd key x.2.1 (data.take x.2.2)) :: writePieces key (data.drop x.2.2) rest

/-- Buffers for every piece, or none of them and a request that waits (R31, R305). -/
def State.takePieces (s : State) (d : DieIx) (ref : CmdRef) : List (Nat × Nat × UpdKind) → State × Option (List WritePiece)
  | [] => (s, some [])
  | x :: rest =>
    match classFor x.2.1 with
    | none => (s, none)
    | some c =>
      match (if s.mayTake d c .write then s.lowestFree d c else none) with
      | none => (s.waitBuf d c .write (some ref), none)
      | some i => match (s.allocBuf d c i).takePieces d ref rest with
        | (t, some ps) => (t, some ({ gran := x.1, upd := x.2.2, buf := some (c, i), at_ := .received } :: ps))
        | (t, none) => (t.updPool d fun p => { p with bufs := p.bufs.filter fun b => !(b.cls == c && b.index == i) }, none)

/-- An update enters the pending table of its region (R125), with the poison that its buffer's units bear (R115). -/
def State.enterPend (s : State) (g : RegionIx) (d : DieIx) (w : WriteJob) (p : WritePiece) (q : Nat) (win : Option (DieIx × Nat)) : State :=
  let u : PendUpd := { gran := p.gran, nsid := w.nsid, stream := w.stream, kind := p.upd, seq := q, encrypted := false, cipher := none, win := win, at_ := none }
  let marks := ((p.buf.bind fun b => (s.dies[d].pool).find b.1 b.2).map (·.poison)).getD []
  s.updRegion g fun r => { r with pend := r.pend ++ [marks.foldl PendUpd.poisonUnit u] }

/-- Step 4 of R20 for one piece (R282, R283): it enters the window, or is written through where the window is closed or smaller than its
buffer; a full window, or a sequence that waits for its reserve, holds it. -/
def State.admitPiece (s : State) (d : DieIx) (w : WriteJob) (p : WritePiece) : State × WritePiece :=
  match p.at_ with
  | .inWindow | .through _ => (s, p)
  | .received =>
    let g := s.server p.gran
    let small := match p.buf with | some b => decide (classBytes b.1 / 4096 ≤ s.winLimit d) | none => true
    let fits := match p.buf with | some b => s.winFits d b.1 | none => true
    let through := !s.ackOpen || !small
    if !(s.regions[g]).inService || (!through && !fits) then (s, p)
    else match s.takeSeq g with
      | (s, none) => (s, p)
      | (s, some q) =>
        if through then (s.enterPend g d w p q none, { p with at_ := .through q })
        else match p.buf with
          | none => (s.enterPend g d w p q none, { p with at_ := .inWindow })
          | some b =>
            let e := s.enterWindow d b.1 b.2
            (e.1.enterPend g d w p q (some (d, e.2)), { p with at_ := .inWindow })

def State.admitPieces (s : State) (d : DieIx) (w : WriteJob) : List WritePiece → State × List WritePiece
  | [] => (s, [])
  | p :: rest =>
    let a := s.admitPiece d w p
    let b := a.1.admitPieces d w rest
    (b.1, a.2 :: b.2)

/-- The update may enter in the read-only state: it only deallocates whole granules (R173). -/
def roAllowed (p : WritePiece) : Bool := match p.upd with | .deallocate => true | .write _ | .zero _ => false

/-- A received write ends with an error before its acknowledgement: pieces not yet pending drop their buffers, the others run to their end. -/
def State.refuseJob (s : State) (d : DieIx) (w : WriteJob) (st : Status) : State :=
  let out := w.pieces.filter fun p => match p.at_ with | .received => true | .inWindow | .through _ => false
  let s := out.foldl (fun s p => s.dropPiece d p) s
  let left : List WriteJob := if w.pieces.length = out.length then [] else [{ w with orphan := true, pieces := w.pieces.filter fun p => !out.contains p }]
  let s := s.updHost d fun h => { h with writes := h.writes.erase w ++ left }
  if w.orphan then s else s.complete w.ref st 0

/-- A job goes on from step 4. In the read-only state what is not yet acknowledged completes with 0x20 (R173). -/
def State.admitJob (s : State) (d : DieIx) (w : WriteJob) : State :=
  if s.readOnlyNow && w.pieces.any fun p => (p.at_ == .received || !w.orphan) && !roAllowed p then s.refuseJob d w stReadOnly
  else
    let a := s.admitPieces d w w.pieces
    a.1.updHost d fun h => { h with
      writes := h.writes.map fun x => if x == w then { w with pieces := a.2 } else x
      slots := h.slots.map fun x => if x.ref == w.ref && !w.orphan then { x with buffered := true, committed := x.committed || a.2.any fun p => p.at_ != .received } else x }

/-- Every received write of a die, in the order of receipt, then those that are acknowledged complete. -/
def State.admitAll (s : State) (d : DieIx) : State := (s.dies[d].host.writes.foldl (fun s w => s.admitJob d w) s).settleWrites

/-- WINDOW_ADMIT (R282). -/
def execWindowAdmit (d : DieIx) (s : State) : Out := .next (s.admitAll d)

/-- A write has its buffers and its data (R20 steps 2 and 3) and goes on to step 4. -/
def State.startJob (s : State) (ref : CmdRef) (nsid : Nat) (stream : Byte) (data : Bool) (pieces : List WritePiece) : State :=
  let d := refDie ref
  (s.updHost d fun h => { h with writes := h.writes ++ [{ ref := ref, nsid := nsid, stream := stream, pieces := pieces, data := data, orphan := false }] }).admitAll d

/-- The write of a command is received already. -/
def State.hasJob (s : State) (ref : CmdRef) : Bool := s.dies[refDie ref].host.writes.any fun w => !w.orphan && w.ref == ref

/-- Data moves into buffers, and the write goes on. -/
def State.receiveData (s : State) (ref : CmdRef) (n : NamespaceRec) (stream : Byte) (range : LbaRange) (data : List Nat) : State :=
  match s.takePieces (refDie ref) ref (writePieces (s.nsKey n.nsid) data (rangeCover n range)) with
  | (s, none) => s
  | (s, some ps) => s.startJob ref n.nsid stream true ps

/-- The stream of a write (R98, R289): DTYPE 2h names a placement handle; none where the directive is not one of the two. -/
def streamOf (n : NamespaceRec) (dtype dspec : Nat) : Option Byte :=
  if dtype = 0 then some 0xFF
  else if dtype = 2 then (n.phandles[dspec]?).map fun h => BitVec.ofNat 8 h
  else none

/-- WRITE (R20, R124, R282, R283, R289). `data` holds the content of each 4 KiB unit. -/
def execWrite (ref : CmdRef) (nsid slba nlb dtype dspec : Nat) (data : List Nat) (s : State) : Out :=
  let range : LbaRange := { slba := slba, nlb := nlb }
  s.ioThen (slotOf ref .write nsid [range]) fun s => match s.nsRec? nsid with
    | none => s
    | some n =>
      if s.hasJob ref then s.admitAll (refDie ref)
      else if overMdts n range || data.length != nlb * unitsPerLba n then s.complete ref stInvalidField 0
      else match streamOf n dtype dspec with
        | none => s.complete ref stInvalidField 0
        | some st => if s.readOnlyNow then s.complete ref stReadOnly 0 else (s.carry (.pcie (refDie ref)) false (4096 * data.length)).receiveData ref n st range data

/-- Deallocations and encrypted zeros of ranges (R133): whole granules are deallocated, parts take zeros. -/
def zeroPieces (n : NamespaceRec) (ranges : List LbaRange) : List WritePiece :=
  (ranges.flatMap (rangeCover n)).map fun x =>
    { gran := x.1, upd := if x.2.2 = 16 then .deallocate else .zero ((List.range x.2.2).map (x.2.1 + ·)), buf := none, at_ := .received }

/-- Write Zeroes and Deallocate run once fetched: in the read-only state only where every range covers whole granules (R173). -/
def State.zeroRanges (s : State) (ref : CmdRef) (n : NamespaceRec) (ranges : List LbaRange) : State :=
  let ps := zeroPieces n ranges
  if s.hasJob ref then s.admitAll (refDie ref)
  else if s.readOnlyNow && !ps.all roAllowed then s.complete ref stReadOnly 0
  else s.startJob ref n.nsid 0xFF false ps

/-- WRITE_ZEROES (R133). -/
def execWriteZeroes (ref : CmdRef) (nsid slba nlb : Nat) (s : State) : Out :=
  let range : LbaRange := { slba := slba, nlb := nlb }
  s.ioThen (slotOf ref .writeZeroes nsid [range]) fun s => match s.nsRec? nsid with
    | none => s
    | some n => s.zeroRanges ref n [range]

/-- DATASET_MANAGEMENT (R133, R281): Deallocate; other attributes are ignored. -/
def execDatasetManagement (ref : CmdRef) (nsid : Nat) (deallocate : Bool) (ranges : List LbaRange) (s : State) : Out :=
  s.ioThen (slotOf ref (if deallocate then .deallocate else .flush) nsid (if deallocate then ranges else [])) fun s => match s.nsRec? nsid with
    | none => s
    | some n =>
      if !deallocate then s.complete ref stOk 0
      else if 256 < ranges.length then s.complete ref stInvalidField 0
      else s.zeroRanges ref n ranges

/-- Copy limits (R281): 128 ranges, 16 MiB of blocks in a range and in all. -/
def overCopy (n : NamespaceRec) (src : List LbaRange) : Bool :=
  decide (128 < src.length) || decide (4096 < (src.map (·.nlb)).sum * unitsPerLba n)

/-- COPY (R116, R273, R327): the sources are read, decrypted and written at the destination under its tweaks. Poison ends the command before its
destination is touched. -/
def execCopy (ref : CmdRef) (nsid sdlba : Nat) (src : List LbaRange) (s : State) : Out :=
  let dst : LbaRange := { slba := sdlba, nlb := (src.map (·.nlb)).sum }
  let c := slotOf ref .copy nsid (dst :: src)
  s.ioThen c fun s => match s.nsRec? nsid with
    | none => s
    | some n =>
      if s.hasJob ref then s.admitAll (refDie ref)
      else if overCopy n src then s.complete ref (stSpecific 0x83) 0
      else if s.readOnlyNow then (s.endReads ref).complete ref stReadOnly 0
      else match s.readRanges c n src with
        | (s, .waits) => s
        | (s, .dark m) => s.darkEnd ref m
        | (s, .units us) =>
          if us.all Option.isSome then
            -- What was read is kept until the destination has its buffers.
            let t := s.receiveData ref n 0xFF dst (us.filterMap id)
            if t.hasJob ref then t.endReads ref else t
          else ((s.endReads ref).poisonMet ref).complete ref stUnrecovered 0

/-! Encryption. -/

/-- A length refusal of an XTS engine (R332). -/
def State.xtsRefused (s : State) (d : DieIx) : State :=
  (s.updCipher d fun c => { c with refuse := some (c.refuse.getD (1, .hostPort)), refuseCount := satAdd 255 c.refuseCount 1 }).raise (dieSrc d 14)

/-- The job and die that hold a written-through piece. -/
def State.throughJob (s : State) (gran seq : Nat) : Option (DieIx × WriteJob) :=
  [(0 : DieIx), 1].findSome? fun d => (s.dies[d].host.writes.find? fun w => w.pieces.any fun p => p.gran == gran && p.at_ == .through seq).map fun w => (d, w)

/-- The buffer that the ciphertext of an update takes: the smallest class that holds its covered units; an update without data takes none. -/
def cipherClass (u : PendUpd) : Option PoolClass := match u.kind with
  | .write units => classFor ((units.toList.filter (·.isSome)).length * 4096)
  | .deallocate | .zero _ => none

/-- The die that received an update: that of its window entry, of its written-through piece, else its region's (R18, R20). -/
def State.updDieOf (s : State) (g : RegionIx) (u : PendUpd) : DieIx :=
  match u.win, s.throughJob u.gran u.seq with
  | some w, _ => w.1
  | none, some x => x.1
  | none, none => dieOfRegion g

/-- Take that buffer, or start to wait for it: answers none while it waits. -/
def State.takeCipher (s : State) (d : DieIx) (u : PendUpd) : State × Option (Option (DieIx × PoolClass × Nat)) :=
  match cipherClass u with
  | none => (s, some none)
  | some c =>
    match (if s.mayTake d c .write then s.lowestFree d c else none) with
    | some i => (s.allocBuf d c i, some (some (d, c, i)))
    | none => (s.waitFor d { cls := c, kind := .write, ref := none, update := some (u.gran, u.seq) }, none)

/-- A data unit with a poisoned 4 KiB unit leaves the cipher poisoned as a whole (R115). -/
def PendUpd.wholePoison (u : PendUpd) (per : Nat) : PendUpd := match u.kind with
  | .deallocate | .zero _ => u
  | .write units =>
    let bad (i : Nat) : Bool := (List.finRange 16).any fun j => j.val / per == i / per && ((units[j]).map (·.poisoned)).getD false
    { u with kind := .write (Vector.ofFn fun i => if bad i.val then (units[i]).map (fun x => { x with poisoned := true }) else units[i]) }

/-- XTS_ENCRYPT (R20 step 6, R305, R326, R332): the receiving die's pipeline encrypts the units of a pending write into a fresh buffer, for
which it waits where its class holds none. `refused` names covered units, by
their place, that the engine refuses: acknowledged ones are poisoned, one not yet acknowledged ends its command with Internal Error. -/
def execXtsEncrypt (g : RegionIx) (gran seq : Nat) (refused : List Nat) (s : State) : Out :=
  match (s.regions[g]).pend.find? fun u => u.gran == gran && u.seq == seq && !u.encrypted with
  | none => unchanged s
  | some u =>
    let d := s.updDieOf g u
    match s.takeCipher d u with
    | (s, none) => .next s
    | (s, some buf) =>
    let per := ((s.nsRec? u.nsid).map unitsPerLba).getD 1
    let set (f : PendUpd → PendUpd) (s : State) : State :=
      s.updRegion g fun r => { r with pend := r.pend.map fun v => if v.gran == gran && v.seq == seq then { (f v).wholePoison per with cipher := buf, encrypted := true } else v }
    if refused.isEmpty then .next (set id s)
    else match u.win, s.throughJob gran seq with
      | some w, _ => .next (set (refused.foldl PendUpd.poisonUnit ·) (s.xtsRefused w.1))
      | none, some (d, w) =>
        if w.orphan then .next (set (refused.foldl PendUpd.poisonUnit ·) (s.xtsRefused d))
        else
          let s := match buf with | some b => s.dropBuf b.1 b.2.1 b.2.2 | none => s
          let s := (s.xtsRefused d).updRegion g fun r => { r with pend := r.pend.filter fun v => !(v.gran == gran && v.seq == seq) }
          let w' := { w with pieces := w.pieces.map fun p => if p.gran == gran && p.at_ == .through seq then { p with at_ := .received } else p }
          let s := s.updHost d fun h => { h with writes := h.writes.map fun x => if x == w then w' else x }
          .next (s.refuseJob d w' stInternalError)
      | none, none => .next (set (refused.foldl PendUpd.poisonUnit ·) s)

end Sys2Proof.Machine
end

