-- ==== Sys2Proof/Machine/Logs.lean ====
section
/-! DEFINITION. Get Log Page and Identify: the log pages and data structures as fields of their layouts (R272, R277, R279, R281, R289, R291, R292,
R297 to R300, R322, R376, R385, R445, R451, R469, R474, R475, R483 to R487; layouts of the base specification, PRESUMED, log entry 42). -/

namespace Sys2Proof.Machine

/-- Identifiers in ascending order. -/
def ascendingIds (l : List Nat) : List Nat := sortBy (fun a b => decide (a ≤ b)) l

/-! SMART/Health and Endurance Group Information (R483). -/

/-- Units of 1,000 × 512 bytes, rounded up. -/
def dataUnits (bytes : Nat) : Nat := (bytes + 511999) / 512000

/-- A thermistor's reading in kelvin: 0 where it is unfitted, unread or under fault. -/
def State.thKelvin (s : State) (n : Fin 4) : Nat :=
  let c := s.keeper.sup.adc[8 + n.val]
  let fitted := ((s.recs?.bind (·.thermal)).map fun t => t.present.getLsbD n.val).getD false
  if fitted && c.valid && !c.below && !c.above then kelvin (nearestC (sensor16 c.value)) else 0

/-- Temperature Sensors 1 to 7 in kelvin. -/
def State.tempSensors (s : State) : List Nat :=
  [kelvin (s.com 0).temp, kelvin (s.com 1).temp, kelvin (nearestC (sensor16 s.keeper.sup.adc[12].value)),
   s.thKelvin 0, s.thKelvin 1, s.thKelvin 2, s.thKelvin 3]

/-- Entries posted to the Error Information logs of both controllers. -/
def State.errorEntries (s : State) : Nat := s.dies[0].host.errCount + s.dies[1].host.errCount

/-- Log 0x02. -/
def State.smartLog (s : State) : List DataField :=
  let x := s.sub
  let t := s.keeper.tk
  [fld 0 1 s.criticalWarning.toNat, fld 1 2 (kelvin s.composite), fld 3 1 s.availableSpare, fld 4 1 10, fld 5 1 (100 - s.availableSpare),
   fld 32 16 (dataUnits (x.unitsRead * 512)), fld 48 16 (dataUnits (x.unitsWritten * 512)), fld 64 16 x.hostReads, fld 80 16 x.hostWrites,
   fld 96 16 t.busyMin, fld 112 16 t.pcycles, fld 128 16 (t.opsec.toNat / 3600), fld 144 16 s.keeper.rescue.unsafeStarts,
   fld 160 16 x.mediaErrors, fld 176 16 s.errorEntries, fld 192 4 t.warnMin, fld 196 4 t.critMin] ++
  s.tempSensors.zipIdx.map fun p => fld (200 + 2 * p.2) 2 p.1

/-- Log 0x09 of endurance group 1. -/
def State.enduranceLog (s : State) : List DataField :=
  let x := s.sub
  [fld 0 1 s.criticalWarning.toNat, fld 3 1 s.availableSpare, fld 4 1 10, fld 5 1 (100 - s.availableSpare), fld 32 16 0,
   fld 48 16 (dataUnits (x.unitsRead * 512)), fld 64 16 (dataUnits (x.unitsWritten * 512)), fld 80 16 (dataUnits x.life.mediaBytes),
   fld 96 16 x.hostReads, fld 112 16 x.hostWrites, fld 128 16 x.mediaErrors, fld 144 16 s.errorEntries]

/-! Logs of the base specification. -/

/-- The status field of a completion, with the phase bit clear. -/
def statusBits (x : Status) : Nat := x.sc * 2 + x.sct * 512 + bitIf x.dnr 15

/-- Log 0x01: the newest 64 entries, newest first. -/
def errorInfoLog (h : HostPort) : List DataField :=
  (h.errorLog.reverse.take 64).zipIdx.flatMap fun p => fieldsAt (64 * p.2)
    [fld 0 8 (h.errCount - p.2), fld 8 2 p.1.ref.qid, fld 10 2 p.1.ref.cid.toNat, fld 12 2 (statusBits p.1.status)]

/-- A slot as a number from 1. -/
def slotNo (k : Fin 2) : Nat := k.val + 1

/-- ASCII "REJECTED". -/
def rejectedText : List Nat := [0x52, 0x45, 0x4A, 0x45, 0x43, 0x54, 0x45, 0x44]

/-- Log 0x03 (R451). -/
def State.firmwareLog (s : State) : List DataField :=
  let frs (k : Fin 2) : List DataField :=
    let x := s.fw.slots[k]
    match x.state with
    | .committed | .served | .committedDeferred => (((x.image.map (·.fr)).getD []).take 8).zipIdx.map fun p => fld (8 + 8 * k.val + p.2) 1 p.1.toNat
    | .rejected => rejectedText.zipIdx.map fun p => fld (8 + 8 * k.val + p.2) 1 p.1
    | .empty | .downloading => []
  fld 0 1 ((s.fw.running.map slotNo).getD 0 + 16 * (s.fw.pendingSlot.map slotNo).getD 0) :: (frs 0 ++ frs 1)

/-- Log 0x04: the namespaces that changed since the log was last read. -/
def changedLog (h : HostPort) : List DataField := (ascendingIds h.changedNs).zipIdx.map fun p => fld (4 * p.2) 4 p.1

/-- Admin opcodes supported, with the effects beside CSUPP: LBCC 2, NCC 4, NIC 8, CCC 16 (R281, R294; PRESUMED, log entry 42). -/
def adminEffects : List (Nat × Nat) :=
  [(0x00, 0), (0x01, 0), (0x02, 0), (0x04, 0), (0x05, 0), (0x06, 0), (0x08, 0), (0x09, 0), (0x0A, 0), (0x0C, 0), (0x0D, 14), (0x10, 0),
   (0x11, 0), (0x15, 0), (0x80, 6), (0x81, 2), (0x82, 0), (0x84, 6), (0xC0, 0), (0xC1, 0), (0xC2, 14), (0xC4, 0), (0xC5, 0), (0xC8, 0),
   (0xCA, 0), (0xCB, 0)]
/-- I/O opcodes supported. -/
def ioEffects : List (Nat × Nat) := [(0x00, 0), (0x01, 2), (0x02, 0), (0x08, 2), (0x09, 2), (0x0C, 0), (0x19, 2)]

/-- Log 0x05. -/
def effectsLog : List DataField :=
  (adminEffects.map fun p => fld (4 * p.1) 4 (1 + p.2)) ++ ioEffects.map fun p => fld (1024 + 4 * p.1) 4 (1 + p.2)

/-- Log 0x0C (R279): a group of one namespace for each that exists. -/
def State.anaLog (s : State) : List DataField :=
  let ids := ascendingIds s.nsids
  [fld 0 8 s.sub.anaChanges, fld 8 2 ids.length] ++
  ids.zipIdx.flatMap fun p => fieldsAt (16 + 36 * p.2)
    [fld 0 4 p.1, fld 4 4 1, fld 8 8 s.sub.anaChanges, fld 16 1 (if s.sub.inaccessible.contains p.1 then 3 else 1), fld 32 4 p.1]

/-- RUNS (R289): user data of a main band at HLC. -/
def State.runs (s : State) : Nat := match s.geo? 0, s.regionProf? 0 with
  | some geo, some p => bandGranules geo p .hlc * 65536
  | _, _ => 0

/-- Log 0x20 (R289). -/
def State.fdpConfigLog (s : State) : List DataField :=
  [fld 0 2 0, fld 2 1 1, fld 4 4 112] ++
  fieldsAt 16 ([fld 0 2 96, fld 2 1 0x80, fld 4 4 1, fld 8 2 8, fld 10 2 7, fld 12 4 32, fld 16 8 s.runs] ++
    (List.range 8).map fun i => fld (64 + 4 * i) 1 1)

/-- Log 0x21 (R289): a handle is host specified where a namespace's list names it. -/
def State.fdpUsageLog (s : State) : List DataField :=
  fld 0 2 8 :: (List.range 8).map fun i => fld (8 + 8 * i) 1 (if s.namespaces.any fun n => n.phandles.contains i then 1 else 0)

/-- Log 0x22. -/
def State.fdpStatsLog (s : State) : List DataField :=
  [fld 0 16 (s.sub.unitsWritten * 512), fld 16 16 s.sub.life.mediaBytes, fld 32 16 s.sub.life.erasedBytes]

/-- Log 0x81 (R291). How far a running sanitize has come is a free value; a time without estimate reads 0xFFFFFFFF. -/
def State.sanitizeLog (s : State) : List DataField :=
  let r : Nat × Nat × Nat := match s.sub.sanitize with
    | .never => (0xFFFF, 0, 0)
    | .running b => ((Config.freeWord s.free).toNat % 65535, 2, if b then 2 else 4)
    | .done b => (0xFFFF, 1, if b then 2 else 4)
    | .failed => (0xFFFF, 3, 0)
  [fld 0 2 r.1, fld 2 2 r.2.1, fld 4 4 r.2.2, fld 8 4 0xFFFFFFFF, fld 12 4 (match s.sub.sanitize with
    | .running true | .done true => s.sub.sanitizeEstimate
    | .never | .running false | .done false | .failed => s.eraseEstimate), fld 16 4 0xFFFFFFFF]

/-! Vendor logs. -/

/-- KPR_HU_STATUS.MODE (R367). -/
def huModeCode : HuMode → Nat
  | .window => 0 | .closedAtStart => 1 | .closedForMeasure => 2 | .writeThrough => 3

/-- Granules of a namespace by protection (R227): unassigned, then levels 0, 1, 2 and 3 or more. -/
def State.protectionCounts (s : State) (nsid : Nat) : List Nat :=
  let cls (g : RegionIx) (x : Band) (pl : Placed) : Option Nat :=
    let e := s.entryOf pl.gran
    if pl.nsid ≠ nsid ∨ e.band.toNat ≠ x.num ∨ e.frame.toNat ≠ pl.frame ∨ s.server pl.gran ≠ g then none
    else match e.state with
      | .mapped | .foldInFlight | .lost =>
        let q := s.seg g x.num (segOf pl.frame)
        some (match q.state with
          | .assigned | .retracting => 1 + min 3 (popcount4 (q.done &&& ~~~q.retracted))
          | .sealed | .noticed | .retracted | .unstriped | .withdrawn => 0)
      | .deallocated | .never | .poisoned | .reserved _ => none
  let all := (List.finRange 4).flatMap fun g => (s.regions[g]).tab.bands.flatMap fun x => x.placed.filterMap (cls g x)
  (List.range 5).map fun k => (all.filter (· == k)).length

/-- Light requests that this package has posted and that are not satisfied. -/
def State.ownLight (s : State) : List LightReq := s.swarm.light.filter fun r => r.origin == s.actingMember
/-- Peers lit. -/
def State.peersLit (s : State) : Nat := (s.swarm.sessions.filter (·.lit)).length
/-- Rebuild tasks outstanding. -/
def State.tasksLeft (s : State) : Nat := (s.swarm.tasks.filter fun t => !t.done).length
/-- STATUS of R258 for a report that goes to no one peer: bit 6 stands for rebuild work toward any. -/
def State.reportStatus (s : State) : Nat := (s.ownStatus s.actingMember).toNat % 64 + bitIf (decide (0 < s.tasksLeft)) 6

/-- Log 0xC1 (R298). -/
def State.swarmLog (s : State) : List DataField :=
  let w := s.swarm
  [fld 0 4 s.epoch, fld 4 4 ((w.staged.map (·.epoch)).getD 0), fld 8 2 (s.ownMember.getD 0), fld 10 2 ((s.ownEntry.map (·.group)).getD 0),
   fld 12 2 s.reportStatus, fld 14 2 s.peersLit, fld 16 2 w.sessions.length, fld 18 2 s.ownLight.length, fld 20 4 (s.pendingToward none),
   fld 24 8 ((s.identity.map fun i => i.swarmId.toNat).getD 0), fld 32 4 s.openStripes.length, fld 36 4 s.allStripes.length, fld 40 4 s.tasksLeft] ++
  s.nsids.flatMap fun n => fieldsAt (64 + 48 * (n - 1)) (fld 0 4 n :: (s.protectionCounts n).zipIdx.map fun p => fld (8 + 8 * p.2) 8 p.1)

/-- An entry of log 0xC2 (R272). -/
def lightFields (r : LightReq) : List DataField :=
  [fld 0 2 r.origin, fld 2 2 r.rack, fld 4 1 r.shelf, fld 5 1 r.reason, fld 8 4 r.request, fld 12 4 r.waiting, fld 16 8 r.posted]

/-- Log 0xC2 (R299): the package's own requests first, 256 entries. -/
def State.lightLog (s : State) : List DataField :=
  let l := s.ownLight ++ s.swarm.light.filter fun r => r.origin != s.actingMember
  [fld 0 4 l.length, fld 4 4 s.ownLight.length] ++ (l.take 256).zipIdx.flatMap fun p => fieldsAt (16 + 32 * p.2) (lightFields p.1)

/-- Log 0xC3 (R474). -/
def State.eventLog (s : State) : List DataField :=
  let e := s.keeper.ev
  let rs := e.log.map (·.2) ++ e.buf.map (·.record)
  [fld 0 4 rs.length, fld 4 4 e.log.length, fld 8 4 e.lost, fld 12 4 e.skipped, fld 16 1 (if e.full then 1 else 0)] ++
  rs.zipIdx.flatMap fun p => fieldsAt (64 + 32 * p.2) (recordFields p.1)

/-- Log 0xC4 (R475). -/
def State.firstFaultLog (s : State) : List DataField :=
  let f := s.keeper.fc
  (match f.latch with | some r => recordFields r | none => []) ++
  [fld 32 2 ((f.second.getD 0) + bitIf f.second.isSome 15), fld 34 2 s.pendingCount, fld 36 1 (if f.safe then 1 else 0), fld 37 1 s.shadows.length,
   fld 40 64 f.pend.toNat]

/-- STATE of a correctable entry (R322). -/
def ceCode : CeState → Nat
  | .corrected => 1 | .rewritten => 2 | .hard => 3 | .retired => 4

/-- An entry of log 0xC5 (R322). -/
def ceFields (e : CeEntry) : List DataField :=
  [fld 0 5 e.addr.toNat, fld 5 1 (ceCode e.state), fld 6 2 e.hits, fld 8 1 e.post, fld 9 1 e.bit.toNat, fld 12 4 e.last.toNat]

/-- Log 0xC5 (R322). -/
def State.memoryLog (s : State) : List DataField :=
  let tables : List (CeTable × Nat) := (List.finRange 2).flatMap fun d =>
    let m := s.dies[d].mem
    [(m.dram, m.rowsLeft.toList.sum), (m.sram, m.linesLeft)]
  (tables.zipIdx.flatMap fun p => fieldsAt (16 * p.2)
    [fld 0 4 p.1.1.corrected, fld 4 4 p.1.1.uncorr, fld 8 2 p.1.1.retired, fld 10 2 p.1.2, fld 12 4 p.1.1.evicted]) ++
  tables.zipIdx.flatMap fun p => (p.1.1.entries.take 32).zipIdx.flatMap fun q => fieldsAt (64 + 512 * p.2 + 16 * q.2) (ceFields q.1)

/-- A LUN entry of log 0xC6 (R300). -/
def State.lunFields (s : State) (n : Fin 768) : List DataField :=
  let g := lunRegion n.val
  let t := (s.regions[g]).tab
  let pos := (s.geo? g).bind fun geo => positionOf geo t n.val
  let quar := t.quarantined.find? fun q => q.1 == n.val
  let spare := ((s.geo? g).map fun geo => (spareLuns geo t).contains n.val).getD false
  let state := if !s.populated (laneOfLun n) (lunOnLane n) then 0 else if quar.isSome then 3 else if pos.isSome then 1 else if spare then 2 else 0
  [fld 0 1 state, fld 1 1 ((pos.map (·.1)).getD 0xFF), fld 2 1 ((pos.map (·.2)).getD 0xFF), fld 3 1 ((quar.map (·.2)).getD 0),
   fld 4 2 (t.retired n.val), fld 6 2 (t.replaced.filter fun x => x.1 == n.val).length]

/-- A region entry of log 0xC6 (R300). -/
def State.rebuildFields (s : State) (g : RegionIx) : List DataField :=
  let t := (s.regions[g]).tab
  let evac := fld 10 2 ((t.evacuated.map fun x => 2 ^ x).sum)
  let r := s.regions[g]
  match t.adoptions.find? fun a => !a.done with
  | some a => [fld 0 1 1, fld 1 1 a.set, fld 2 1 a.position, fld 4 2 (((r.nextRebuild a).map (·.1)).getD 0), fld 6 2 (((r.nextRebuild a).map (·.2)).getD 0),
               fld 8 2 (a.left.filter fun x => !r.skipsRebuild x.1).length, evac]
  | none => [evac]

/-- Log 0xC6 (R300). -/
def State.bandLog (s : State) : List DataField :=
  let luns := List.finRange 768
  let pop := (luns.filter fun n => s.populated (laneOfLun n) (lunOnLane n)).length
  let quar := ((List.finRange 4).map fun g => (s.regions[g]).tab.quarantined.length).sum
  [fld 0 2 pop, fld 2 2 quar, fld 4 1 (((s.geo? 0).map geoW).getD 0)] ++
  ((List.finRange 4).flatMap fun g => [fld (8 + 4 * g.val) 2 (s.regionSpare g).1, fld (10 + 4 * g.val) 2 (s.regionSpare g).2]) ++
  ((List.finRange 4).map fun g => fld (24 + 4 * g.val) 4 (s.regions[g]).tab.slotsLost.length) ++
  (luns.flatMap fun n => fieldsAt (64 + 8 * n.val) (s.lunFields n)) ++
  (List.finRange 4).flatMap fun g => fieldsAt (6208 + 16 * g.val) (s.rebuildFields g)

/-- Bands of a region formed at a density, and the erase counts of their good blocks (R486). -/
def State.bandsAt (s : State) (g : RegionIx) (d : Density) : Nat × List Nat := match s.geo? g with
  | none => (0, [])
  | some geo =>
    let t := (s.regions[g]).tab
    let bs := t.bands.filter fun x => x.phase != .erased && x.density == d
    (bs.length, bs.flatMap fun x => ((bandBlocks geo t x.num).map fun b => t.block b.1 b.2).filterMap fun b => if b.state = 0 then some b.erases else none)

/-- A DENSITY entry (R486); the spread is the widest over the regions (DESIGN CHOICE, log entry 43). -/
def State.densityFields (s : State) (d : Density) : List DataField :=
  let per := (List.finRange 4).map fun g => s.bandsAt g d
  let es := per.flatMap (·.2)
  let slc := d == .slc
  let pct := (List.finRange 4).foldl (fun a g => min a (if slc then (s.regionSpare g).2 else (s.regionSpare g).1)) 100
  [fld 0 4 ((per.map (·.1)).sum), fld 4 4 (if es.isEmpty then 0 else es.sum / es.length), fld 8 4 (es.foldl max 0),
   fld 12 2 ((List.finRange 4).foldl (fun a g => max a (s.spread g slc)) 0), fld 14 1 pct]

/-- The sector of the highest erase counter, the first where several share it. -/
def worstRow : List SectorRow → SectorRow → SectorRow
  | [], b => b
  | x :: xs, b => worstRow xs (if b.counter < x.counter ∨ (b.counter = x.counter ∧ x.sector < b.sector) then x else b)

/-- Highest sector erase counter and its sector (STO_WEAR). -/
def Store.worst (x : Store) : Nat × Nat :=
  let r := worstRow x.rows (rowOf x.rows 0)
  (r.counter, r.sector)

/-- Log 0xC0 (R485). -/
def State.healthLog (s : State) : List DataField :=
  let t := s.keeper.tk
  let r := s.keeper.rescue
  let h := s.keeper.hu
  let life := s.sub.life
  let bands := (List.finRange 4).flatMap fun g => (s.regions[g]).tab.bands
  let sums := (List.range 5).map fun k => (s.nsids.map fun n => (s.protectionCounts n).getD k 0).sum
  let retired := ((List.finRange 4).map fun g => ((s.regions[g]).tab.blocks.filter fun x => x.state != 0).length).sum
  let quar := ((List.finRange 4).map fun g => (s.regions[g]).tab.quarantined.length).sum
  [fld 0 4 1, fld 4 4 (bitIf s.readOnlyNow 0 + bitIf (!s.ackOpen) 1 + bitIf ((s.com 0).outOfService || (s.com 1).outOfService) 2 +
     bitIf s.keeper.boot.unconfigured 3),
   fld 8 8 t.opsec.toNat, fld 16 4 t.pcycles, fldC 24 t.mediaTemp, fldC 25 t.tempMax, fldC 26 t.tempMin, fldC 28 (s.com 0).tempMax, fldC 29 (s.com 1).tempMax] ++
  ((List.finRange 16).map fun k => fld (32 + 4 * k.val) 4 t.tempHist[k]) ++
  ((List.range 4).map fun k => fld (96 + 4 * k) 4 (s.snapshot k)) ++
  [fld 112 2 (bands.filter (·.uncertain)).length, fld 114 2 (((List.finRange 4).map fun g => (s.patrolDue g).length).sum),
   fld 116 2 (bands.filter (·.refreshDue)).length] ++
  ([Density.slc, .tlc, .qlc, .plc, .hlc].zipIdx.flatMap fun p => fieldsAt (120 + 16 * p.2) (s.densityFields p.1)) ++
  [fld 200 4 retired, fld 204 2 quar] ++
  ((List.finRange 7).map fun k => fld (208 + 8 * k.val) 8 life.steps[k]) ++
  [fld 264 8 life.crcOnly, fld 272 8 life.poisonHost, fld 280 8 life.darkWait, fld 288 8 life.mapFaults,
   fld 296 2 s.power.cap, fld 298 2 h.measured, fld 300 2 h.usable, fld 302 2 (requiredMj s.power.rescueP (windowBytes s.power)),
   fld 304 4 h.measurements, fld 308 4 h.failed, fld 312 4 r.completed, fld 316 4 r.incomplete, fld 320 2 r.duration, fld 322 1 (huModeCode h.mode),
   fld 324 4 t.wtMin, fld 328 4 s.epoch, fld 332 2 s.peersLit, fld 334 2 s.ownLight.length] ++
  (sums.zipIdx.map fun p => fld (336 + 8 * p.2) 8 p.1) ++
  [fld 376 4 (s.pendingToward none), fld 380 4 s.tasksLeft, fld 392 4 s.store.worst.1, fld 396 2 s.store.worst.2,
   fld 398 2 (s.store.rows.filter (·.bad)).length, fld 400 4 s.keeper.ev.lost, fld 404 4 s.keeper.ev.log.length]

/-! Get Log Page. -/

/-- The logs of endurance group 1. -/
def groupLog (lid : Byte) : Bool := lid == 0x09 || lid == 0x20 || lid == 0x21 || lid == 0x22 || lid == 0x23
def vendorLog (lid : Byte) : Bool := decide (0xC0 ≤ lid.toNat) && decide (lid.toNat ≤ 0xC6)

/-- Content of a log, none for one that R281 does not list. -/
def State.logPage (s : State) (d : DieIx) (lid : Byte) : Option (List DataField) :=
  match lid.toNat with
  | 0x01 => some (errorInfoLog s.dies[d].host)
  | 0x02 => some s.smartLog
  | 0x03 => some s.firmwareLog
  | 0x04 => some (changedLog s.dies[d].host)
  | 0x05 => some effectsLog
  | 0x09 => some s.enduranceLog
  | 0x0C => some s.anaLog
  | 0x20 => some s.fdpConfigLog
  | 0x21 => some s.fdpUsageLog
  | 0x22 => some s.fdpStatsLog
  | 0x23 => some []
  | 0x81 => some s.sanitizeLog
  | 0xC0 => some s.healthLog
  | 0xC1 => some s.swarmLog
  | 0xC2 => some s.lightLog
  | 0xC3 => some s.eventLog
  | 0xC4 => some s.firstFaultLog
  | 0xC5 => some s.memoryLog
  | 0xC6 => some s.bandLog
  | _ => none

/-- What reading a log does: with RAE clear its asynchronous events are cleared; the Changed Namespace List empties; a free value is drawn for
the progress of a sanitize. -/
def State.logWasRead (s : State) (d : DieIx) (lid : Byte) (rae : Bool) : State :=
  let s := if rae then s else s.updHost d fun h => h.logRead lid
  let s := if lid = 0x04 && !rae then s.updHost d fun h => { h with changedNs := [] } else s
  if lid = 0x81 && s.sanitizing then { s with free := s.free + 1 } else s

/-- GET_LOG_PAGE (R281, R297): `lpo` and `len` are the offset and the length in bytes. -/
def execGetLogPage (ref : CmdRef) (lid : Byte) (nsid lsi lpo len : Nat) (rae : Bool) (s : State) : Out :=
  s.admin (.getLog lid) ref fun s =>
    let d := refDie ref
    match s.logPage d lid with
    | none => s.complete ref stInvalidField 0
    | some l =>
      if (vendorLog lid && nsid != allNs) || (groupLog lid && lsi != 1) then s.complete ref stInvalidField 0
      else (s.logWasRead d lid rae).completeWith ref stOk 0 (.fields (cutFields lpo len l))

/-! Identify. -/

/-- A text field: its characters, padded with spaces. -/
def textFields (off size : Nat) (cs : List Nat) : List DataField := (List.range size).map fun i => fld (off + i) 1 (cs.getD i 0x20)

/-- "TVW512 RECOVERY". -/
def recoveryModel : List Nat := [0x54, 0x56, 0x57, 0x35, 0x31, 0x32, 0x20, 0x52, 0x45, 0x43, 0x4F, 0x56, 0x45, 0x52, 0x59]

/-- SSVID and SSID: of the host ports record, in recovery mode of the factory area (R277, R385, R424). -/
def State.subsystemIds (s : State) : Nat × Nat :=
  if s.inRecovery then
    (factoryNum 24 2, factoryNum 26 2)
  else match s.recs?.bind (·.hostPorts) with
    | some h => (h.ssvid.toNat, h.ssid.toNat)
    | none => (0, 0)

/-- A power state descriptor: centiwatts, non-operational, ENLAT and EXLAT in µs (R292). -/
def powerFields (i mp : Nat) (nonOp : Bool) (enlat exlat : Nat) : List DataField :=
  fieldsAt (2048 + 32 * i) [fld 0 2 mp, fld 3 1 (bitIf nonOp 1), fld 4 4 enlat, fld 8 4 exlat]

/-- CNS 0x01 (R277, R279, R281, R282, R289, R291, R292, R385, R445, R484). Only fields that the rules fix are listed. -/
def State.identifyController (s : State) (ref : CmdRef) : List DataField :=
  let nn := if s.inRecovery then 0 else 32
  let fr := ((s.fw.running.bind fun k => s.fw.slots[k].image).map (·.fr)).getD []
  let nqn := (((s.recs?.bind (·.hostPorts)).map (·.subnqn)).getD []).map BitVec.toNat
  [fld 0 2 0x1E9C, fld 2 2 s.subsystemIds.1] ++ (if s.inRecovery then textFields 24 40 recoveryModel else []) ++
  textFields 64 8 (fr.map BitVec.toNat) ++
  [fld 76 1 0x0B, fld 77 1 9, fld 78 2 (ref.ctrl.val + 1), fld 80 4 0x00020000, fld 84 4 6000000, fld 88 4 500000, fld 92 4 0xB00, fld 96 4 0x80010, fld 111 1 1,
   fld 256 2 0xF, fld 258 1 8, fld 259 1 8, fld 260 1 0x14, fld 261 1 6, fld 262 1 63, fld 263 1 4, fld 265 1 1, fld 266 2 wcTemp, fld 268 2 ccTemp,
   fld 270 2 4, fld 319 1 1, fld 328 4 3, fld 343 1 0x45, fld 344 4 32, fld 348 4 32, fld 512 1 0x66, fld 513 1 0x44, fld 516 4 nn, fld 520 2 0x1CC,
   fld 525 1 0, fld 526 2 15, fld 528 2 15, fld 534 2 1] ++
  (nqn.take 256).zipIdx.map (fun p => fld (768 + p.2) 1 p.1) ++
  powerFields 0 1100 false 0 0 ++ powerFields 1 600 false 0 0 ++ powerFields 2 350 false 0 0 ++ powerFields 3 85 true 1000 5000 ++ powerFields 4 9 true 12000 30000

/-- The fields that every namespace shares. -/
def namespaceCommon : List DataField :=
  [fld 25 1 2, fld 30 1 1, fld 33 1 9, fld 128 4 (12 * 65536), fld 132 4 (14 * 65536), fld 136 4 (16 * 65536)]

/-- CNS 0x00 and 0x11 (R5, R134, R279, R281, R290, R401). -/
def namespaceFields (n : NamespaceRec) : List DataField :=
  [fld 0 8 n.nsze, fld 8 8 n.nsze, fld 26 1 n.lbaf, fld 92 4 n.nsid, fld 102 2 1, fld 104 16 n.nguid.toNat] ++ namespaceCommon

/-- A list of identifiers, each of `size` bytes. -/
def idList (off size : Nat) (ids : List Nat) : List DataField := ids.zipIdx.map fun p => fld (off + size * p.2) size p.1

/-- Data of an Identify, or the status that refuses it. -/
def State.identifyData (s : State) (ref : CmdRef) (cns : Byte) (nsid cntid : Nat) : Status ⊕ List DataField :=
  let found := s.namespaces.find? fun n => n.nsid == nsid
  let ids := (ascendingIds (s.nsids.filter fun i => decide (nsid < i))).take 1024
  match cns.toNat with
  | 0x01 => .inr (s.identifyController ref)
  | 0x00 | 0x11 =>
    if nsid = allNs then .inr namespaceCommon
    else if nsid = 0 ∨ 32 < nsid then .inl stInvalidNs
    else .inr ((found.map namespaceFields).getD [])
  | 0x02 | 0x10 => if 0xFFFFFFFE ≤ nsid then .inl stInvalidNs else .inr (idList 0 4 ids)
  | 0x03 => match found with
    | some n => .inr [fld 0 1 2, fld 1 1 16, fld 4 16 n.nguid.toNat]
    | none => .inl stInvalidNs
  | 0x12 | 0x13 =>
    let cs := [1, 2].filter fun c => decide (cntid ≤ c)
    if cns = 0x12 ∧ found.isNone = true then .inl stInvalidNs else .inr (fld 0 2 cs.length :: idList 2 2 cs)
  | _ => .inl stInvalidField

/-- IDENTIFY (R281, R385). -/
def execIdentify (ref : CmdRef) (cns : Byte) (nsid cntid : Nat) (s : State) : Out :=
  s.admin (.identify cns) ref fun s => match s.identifyData ref cns nsid cntid with
    | .inl st => s.complete ref st 0
    | .inr l => s.completeWith ref stOk 0 (.fields l)

/-- UNSUPPORTED_COMMAND (R281): an admin or I/O command that the controller does not support. -/
def execUnsupportedCommand (ref : CmdRef) (s : State) : Out :=
  if ref.qid = 0 then (if s.adminBusy .other ref || s.tokensHeld ref then unchanged s else .next (s.complete ref stInvalidOpcode 0))
  else if s.dies[refDie ref].host.posts && s.dies[refDie ref].host.subs.any fun q => q.id == ref.qid then .next (s.complete ref stInvalidOpcode 0)
  else unchanged s

end Sys2Proof.Machine
end

