-- ==== Sys2Proof/Machine/Restore.lean ====
section
/-! DEFINITION. The restore of the regions at a start and the start of host fetch (R85 to R89, R138, R141, R146 to R149, R163, R164, R171, R186, R189,
R196, R356, R380 to R382, R419, R445, R450, R536). -/

namespace Sys2Proof.Machine

/-! Replay of the band, extent, sequence, parity, Scarab and swarm records over the band segment (R146 step 3). -/

/-- What replay yields beside the tables: reclamations whose step 1 has begun, and reserved records skipped. -/
structure Replay where
  tab : RegionTables
  started : List Reclaim
  skipped : Nat

def RegionTables.updBand (t : RegionTables) (b : Nat) (f : Band → Band) : RegionTables := t.setBand (f (t.band b))

/-- A band record's effect on the tables (R75, R138). -/
def replayBand (geo : GeometryRec) (t : RegionTables) : JRec → RegionTables
  | .bandOpen b d p st op k => t.setBand { freshBand b with
      phase := .opened, density := d, kind := k, use := if d = .slc then .staging else .relocation, stream := st, profile := p, openOpsec := op }
  | .bandWall b w => t.updBand b fun x => { x with openWall := some w }
  | .bandEighth b k tage temp => t.updBand b fun x =>
      if h : k < 8 then { x with tage := x.tage.set k tage, temp := x.temp.set k (some temp) } else x
  | .bandState b fl age => t.updBand b fun x => { x with
      uncertain := fl.getLsbD 6, corr := if fl.getLsbD 4 then x.corr else none, refreshDue := fl.getLsbD 3, sealedShort := fl.getLsbD 2, patrolTage := age }
  | .bandSeal b n => t.updBand b fun x => { fillEighths x with phase := .closed, slots := n }
  | .eraseIntent b => t.updBand b fun x => { x with
      intent := true, intentDurable := true, phase := if x.phase = .opened then .closed else x.phase, eraseTodo := eraseBlocks geo t b, eraseList := [] }
  | .dirty b k on => t.updBand b fun x =>
      let rest := x.dirty.filter (· != k)
      { x with dirty := if on then rest ++ [k] else rest, dirtyDurable := if on then rest ++ [k] else rest }
  | .bandPad b u w n => t.updBand b fun x => { x with pads := x.pads ++ [(u, w, n)] }
  | .reclaimMapped b _ => t.updBand b fun x => { x with mappedRec := true, mappedDurable := true }
  | .reclaimHold b c => t.updBand b fun x => { x with hold := some c }
  | _ => t

/-- A rebuild resumes at the last REBUILD_ROW: the counts between two of them are not kept (R192, R195). -/
def lastRows (a : Adoption) : Adoption := { a with left := a.left.map fun x => (x.1, x.2 / 16 * 16), done := a.done || a.left.isEmpty }

/-- ERASE_DONE: the count of each block rises that was good when the erase was intended and whose LUN is still in service, and the band is free
(R158, R161). -/
def replayErase (t : RegionTables) (b : Nat) : RegionTables :=
  let x := t.band b
  let done := x.eraseList ++ x.eraseTodo.filter fun y => !(x.eraseList.contains y) && !(t.quarantined.any fun q => q.1 == y.1)
  let t : RegionTables := { t with adoptions := t.adoptions.map fun a => { a with left := a.left.filter fun x => x.1 != b } }
  (done.foldl (fun t x => let y := t.block x.1 x.2; t.setBlock { y with erases := satAdd 0xFFFFFF y.erases 1 }) t).setBand (freshBand b)

/-- Bands that an adoption has still to rebuild once `rows` of band b are done (R192, R196). -/
def replayRows (geo : GeometryRec) (p : MediaProfile) (t : RegionTables) (b u rows : Nat) : RegionTables := { t with
  adoptions := t.adoptions.map fun a =>
    if a.set = bandSet geo b ∧ a.position = u then
      { a with left := if p.wordlines ≤ rows then a.left.filter fun x => x.1 != b else a.left.map fun x => if x.1 == b then (b, rows) else x }
    else a }

/-- One record (R138, R163, R196). -/
def replayRec (geo : GeometryRec) (p : MediaProfile) (q : Replay) (x : JRec) : Replay :=
  let t := q.tab
  let put (t : RegionTables) : Replay := { q with tab := t }
  match x with
  | .seqReserve n => put { t with reserved := max t.reserved n }
  | .nsExtent id base len =>
    let rest := t.extents.filter fun e => e.1 != id
    put { t with extents := if len = 0 then rest else rest ++ [(id, base, len)] }
  | .eraseDone b => { q with tab := replayErase t b, started := q.started.filter fun r => r.band != b }
  | .blockRetire lun blk c => put (t.setBlock { t.block lun blk with state := if c = 3 then 2 else 1 })
  | .blockReplace lun slot n => put { t with replaced := (lun, slot, n) :: t.replaced.filter fun e => !(e.1 == lun && e.2.1 == slot) }
  | .lunQuarantine lun c => put { t with quarantined := if t.quarantined.any (fun e => e.1 == lun) then t.quarantined else t.quarantined ++ [(lun, c)] }
  | .spareAdopt sp st u lun =>
    let a : Adoption := { spare := sp, set := st, position := u, lost := lun, left := (setBands geo t st).map fun b => (b.num, 0), done := false }
    put { t with adoptions := (t.adoptions.filter fun e => !(e.set == st && e.position == u)) ++ [a] }
  | .rebuildRow b u rows => put (replayRows geo p t b u rows)
  | .slotLost b f => put { t with slotsLost := t.slotsLost ++ [(b, f)] }
  | .setEvacuate st => put { t with evacuated := if t.evacuated.contains st then t.evacuated else t.evacuated ++ [st] }
  | .reclaimStart b r n _ => { q with started := q.started ++ [{ band := b, reason := r, score := n, relocated := 0 }] }
  | .reclaimMapped b _ => { q with tab := replayBand geo t x, started := q.started.filter fun r => r.band != b }
  | .readOnly c => put { t with readOnly := some c }
  | .segState e => put { t with segs := e :: t.segs.filter fun y => !(y.band == e.band && y.seg == e.seg) }
  | .stripeRec r => put { t with stripes := if t.stripes.any fun y => y.stripe == r.stripe then t.stripes.map fun y => if y.stripe == r.stripe then r else y
                                            else t.stripes ++ [r] }
  | .stripeRelease n => put { t with stripes := t.stripes.filter fun y => y.stripe != n }
  | .stripeSeqReserve n => put { t with stripeReserve := some (max n (t.stripeReserve.getD n)) }
  | .unknown _ => { q with skipped := q.skipped + 1 }
  -- What a compare-and-set took from a band under reclamation counts as relocated (R163).
  | .map _ _ cas om ob => if cas && om then { q with started := q.started.map fun r => if r.band = ob then { r with relocated := r.relocated + 1 } else r } else q
  | .format _ => q
  | .bandOpen .. | .bandWall .. | .bandEighth .. | .bandState .. | .bandSeal .. | .eraseIntent _ | .dirty .. | .bandPad .. | .reclaimHold .. =>
    put (replayBand geo t x)

/-- What NAND holds of a band that replay names: its frames and page rows, where they are those of that opening. -/
def physicalBand (pre : Band) (x : Band) : Band :=
  if pre.phase = .erased ∨ pre.openOpsec ≠ x.openOpsec ∨ pre.kind ≠ x.kind then x
  else { x with
    use := pre.use, placed := pre.placed.map (fun pl => { pl with src := none }), rowsOk := pre.rowsOk, parityOk := pre.parityOk,
    passes := pre.passes, nextSlot := pre.nextSlot, sealOrder := pre.sealOrder, patrolLun := pre.patrolLun }

/-! One region. -/

/-- Tables and map of a region from its images and its retained journal (R146). -/
def State.restoreRegion (s : State) (g : RegionIx) (x : RestoreFacts) : State := match s.geo? g, s.regionProf? g with
  | some geo, some p =>
    let r := s.regions[g]
    let frames := r.journal.retained.filter fun f => match x.journalEnds with | some n => decide (f.num < n) | none => true
    let img := (r.currentImage 0).bind fun i => if x.imagesLost.contains 0 then none else some i
    let base := (img.bind (·.tables)).getD freshTables
    let from_ : Nat := (img.map (·.jframe)).getD 0
    let q := ((frames.filter fun (f : JFrame) => decide (from_ ≤ f.num)).flatMap (·.recs)).foldl (replayRec geo p) (Replay.mk base [] 0)
    let bands := (q.tab.bands.filter fun b => b.phase != .erased).map fun b => physicalBand (r.tab.band b.num) b
    let tab := { q.tab with bands := bands, adoptions := q.tab.adoptions.map lastRows, spare0 := r.tab.spare0, nextSeq := max q.tab.nextSeq q.tab.reserved }
    let fresh := r.tab.spare0.isNone
    let tab := if fresh then { tab with quarantined := [], adoptions := [], evacuated := [] } else tab
    let segs := tab.extents.flatMap fun e => (List.range e.2.2).map (e.2.1 + ·)
    let parts := segs.map fun k => (k, restoreSegment r (fun n => granRegion n = g) tab frames x.imagesLost k)
    -- Overlay entries that the adopter kept for its partner's granules (R132).
    let over' := segs.flatMap fun k => (restoreSegment r (fun n => granRegion n ≠ g) tab frames x.imagesLost k).1
    -- Every entry of a segment whose image is lost is set to 011, which fills the count.
    let gone := segs.any fun k => (r.currentImage (k + 1)).isSome && x.imagesLost.contains (k + 1)
    let reclaims := q.started.filter fun c => (tab.band c.band).phase == .closed && !(tab.band c.band).mappedRec
    s.updRegion g fun r => { r with
      tab := tab, map := parts.flatMap fun k => k.2.1, lostSegs := (parts.filter fun k => k.2.2).map (·.1), overlay := over'
      resident := [], restoring := !segs.isEmpty, slots := #v[reclaims[0]?, reclaims[1]?]
      poisonedCnt := if gone then 0xFF else satAdd 0xFF r.poisonedCnt q.skipped
      journal := { r.journal with retained := frames, tail := [], next := match x.journalEnds with | some n => min n r.journal.next | none => r.journal.next } }
  | _, _ => s

/-- LOW_SEQ of the last replayed journal frame. -/
def RegionSt.lastLow (r : RegionSt) : Nat := ((r.journal.retained.getLast?).map (·.lowSeq)).getD 0

/-- The scan of R148 after an incomplete rescue: whole granules of open bands, in ascending write sequence, applied as MAP records; never a
frame with MOVED set (R165). -/
def State.scanOpen (s : State) (g : RegionIx) (x : RestoreFacts) : State := match s.geo? g, s.regionProf? g with
  | some geo, some p =>
    let r := s.regions[g]
    let low := r.lastLow
    let found (b : Band) : List (Nat × Placed) := (b.placed.filter fun pl =>
      (granuleRows geo b.num (framesPerRow p b.density) pl.slot).all b.rowsOk.contains && decide (low ≤ pl.seq) && !x.scanBad.contains pl.gran && !pl.moved &&
      (extentOf r.tab.extents pl.gran).isSome).map fun pl => (b.num, pl)
    let all := (r.tab.bands.filter fun b => b.phase == .opened && b.kind == .data).flatMap found
    (sortBy (fun a b => decide (a.2.seq ≤ b.2.seq)) all).foldl (fun s q =>
      if s.entryOf q.2.gran = mappedAt q.1 q.2.frame then s else s.remap g q.2.gran (mappedAt q.1 q.2.frame) false) s
  | _, _ => s

/-- A rescued update as it enters the pending table: units whose frame does not decode are poisoned (R117, R356). -/
def rescuedUpdate (bad : List (Nat × Nat × Nat)) (u : PendUpd) : PendUpd := match u.kind with
  | .write units =>
    let mark (i : Fin 16) : Option Unit4K := (units[i]).map fun y => if bad.contains (u.gran, u.seq, i.val) then { y with poisoned := true } else y
    { u with kind := .write (Vector.ofFn mark) }
  | .deallocate | .zero _ => u

/-- The manifest of the last rescue is applied (R356). -/
def State.applyRescued (s : State) (g : RegionIx) (x : RestoreFacts) : State :=
  let r := s.regions[g]
  let low := r.lastLow
  let us := r.rescued.filter fun u => decide (low ≤ u.seq) && !x.rescueMissing.contains (u.gran, u.seq)
  let us := (sortBy (fun a b => decide (a.seq ≤ b.seq)) us).map (rescuedUpdate x.poisonedUnits)
  s.updRegion g fun r => { r with rescued := us, pend := us, tab := { r.tab with nextSeq := us.foldl (fun n u => max n (u.seq + 1)) r.tab.nextSeq } }

/-- Frames that never reached NAND are gone from the open bands; open fold bands are sealed at their last mapped row (R73); dirty rows are
to be made whole (R186); an erase or a reclamation is taken up where its records leave it (R162, R164). -/
def State.settleBands (s : State) (g : RegionIx) : State := match s.geo? g, s.regionProf? g with
  | some geo, some p =>
    let s := s.updTab g fun t => { t with bands := t.bands.map fun b =>
      if b.phase = .opened ∧ b.kind = .data then
        { b with placed := b.placed.filter fun pl => (granuleRows geo b.num (framesPerRow p b.density) pl.slot).all b.rowsOk.contains }
      else b }
    let bs := (s.regions[g]).tab.bands
    let s := (bs.filter fun b => b.phase == .opened && b.kind == .data && b.use == .fold).foldl (fun s b => s.sealBand g b.num true) s
    let s := s.updRegion g fun r => { r with resync := (bs.filter fun b => b.carriesParity && !b.dirty.isEmpty).map (·.num) }
    -- The bands of a position that is being rebuilt are taken in the order of R192.
    let s := s.updTab g fun t => { t with adoptions := t.adoptions.map fun a => { a with
      left := (rebuildOrder geo (s.regions[g]) a.set).filterMap fun b => a.left.find? fun x => x.1 == b } }
    let s := (bs.filter fun b => b.intent).foldl (fun s b => s.eraseBand g b.num) s
    (bs.filter fun b => b.mappedDurable && !b.intent).foldl (fun s b => s.startRetracts g b.num) s
  | _, _ => s

/-- Every change of the bands' flags that a start brings: thermal age uncertain after a gap (R86), the first read after diapause (R89). -/
def State.markBands (s : State) (g : RegionIx) (uncertain dark : Bool) : State :=
  let bs := (s.regions[g]).tab.bands.map (·.num)
  let s := if dark then s.updTab g fun t => { t with bands := t.bands.map fun b => { b with afterDark := true } } else s
  if uncertain then bs.foldl (fun s b => (s.updBand g b fun x => { x with uncertain := true }).jotFlags g b) s else s

/-- LUNs in quarantine stay out; populated ones that do not answer, and those of lanes that did not train, go into it (R189, R380). -/
def State.settleLuns (s : State) (g : RegionIx) : State :=
  let held := (s.regions[g]).tab.quarantined.map (·.1)
  let s := held.foldl (fun s n => match lunLane n with
    | some l => s.updLane l fun x => { x with quarLuns := x.quarLuns ||| BitVec.ofNat 32 (2 ^ (n % 32)) }
    | none => s) s
  let seen (n : Nat) : Bool := match s.opt.inventory with | some inv => inv.contains n | none => true
  let absent := (lanesOfRegion g).flatMap fun l => ((List.finRange 32).filter fun u => s.populated l u && !seen (lunNumber l u)).map fun u => lunNumber l u
  let s := absent.foldl (fun s n => s.quarantineLun n 5) s
  ((lanesOfRegion g).filter fun l => s.lanes[l].quarantined).foldl (fun s l => s.quarantineLane l) s

/-- The write sequence resumes above every reserved one; the record that reserves further goes out before any is issued (R141). -/
def State.resumeSeq (s : State) (g : RegionIx) : State := s.jot g (.seqReserve ((s.regions[g]).tab.nextSeq + 2 * seqBlock))

/-- Bands that a region holds ready from its first start on: the rescue reserve and an open journal band on each side (R140, R169, R536). -/
def State.rescueBands (s : State) (g : RegionIx) : State :=
  let have' := ((s.regions[g]).tab.bands.filter fun b => b.kind == .rescue && b.phase == .opened).length
  (List.range (s.geoNum g (·.resRescue) 2 - have')).foldl (fun s _ => (s.openBand g .rescue .other .slc 0xFF).1) s
def State.journalBands (s : State) (c : Fin 2) (g : RegionIx) : State :=
  if ((s.regions[g]).journal.bands[c]).isEmpty then s.addJournalBand g c else s

/-- Bands of the other roles that a first start takes, after those (R536): a checkpoint band, the staging bands of R135 and an accumulation band
(DESIGN CHOICE, log entry 127). -/
def State.firstBands (s : State) (g : RegionIx) : State :=
  if (s.regions[g]).tab.spare0.isSome || (s.geo? g).isNone then s else
  let s := (s.openBand g .checkpoint .other .slc 0xFF).1
  let s := (List.range (openLimit .staging)).foldl (fun s _ => (s.openBand g .data .staging .slc 0xFF).1) s
  (s.openBand g .swarmParity .accumulation .slc 0xFF).1

/-- SPARE_0 is taken at the first start with a geometry; a pool without spare makes the package read-only (R171, R172). -/
def State.firstSpare (s : State) (g : RegionIx) : State :=
  let n := s.spares g
  ((s.updTab g fun t => { t with spare0 := some (t.spare0.getD n) }).checkSpare g).checkWear g

/-- The extents agree with the applied namespaces record (R419). -/
def State.matchExtents (s : State) : State :=
  let ns := s.namespaces
  let have' := (s.regions[(0 : RegionIx)]).tab.extents
  let s := (have'.filter fun x => !(ns.any fun n => n.nsid == x.1)).foldl (fun s x => s.deleteExtent x.1) s
  (ns.filter fun n => !(have'.any fun x => x.1 == n.nsid)).foldl State.createExtent s

/-! Loading map segments. -/

/-- A map segment is resident: contributions and rebuild reads that waited go on (R149). -/
def State.loadedTurns (s : State) (g : RegionIx) : State :=
  let ws := s.swarm.work.filter fun w => w.region == g && w.item == .contrib && !w.running && !w.deferred && w.refused.isNone
  let s := ws.foldl State.startWork s
  let reads := s.swarm.loadWaits
  let s := s.updSwarm fun w => { w with loadWaits := [] }
  reads.foldl (fun s x => s.handle x.1 x.2) s

/-- MAP_SEGMENT_LOAD (R132, R146, R147): in the order of priority, within priority 3 the lowest number; a segment of the region's own is resident
before the adopted one of that number. What waited for it goes on. -/
def execMapSegmentLoad (g : RegionIx) (seg : Nat) (s : State) : Out :=
  let r := s.regions[g]
  if !r.inService || !r.segments.contains seg then unchanged s
  else if r.resident.contains seg then
    if r.adopting && !r.adoptedSegs.contains seg then .next (s.loadAdopted g seg) else unchanged s
  else
    let k := s.loadRank g seg
    if (r.segments.filter fun x => !r.resident.contains x).any fun x => decide (s.loadRank g x < k) || (k == 3 && decide (x < seg)) then unchanged s
    else .next ((s.updRegion g fun r =>
      let res := r.resident ++ [seg]
      { r with resident := res, restoring := !(r.segments.all res.contains) }).loadedTurns g)

/-! Host fetch. -/

/-- Each region in turn. -/
def State.eachRegion (s : State) (f : State → RegionIx → State) : State := (List.finRange 4).foldl f s

/-- Regions restore their maps, apply what the rescue kept, and take up what was cut short. -/
def State.restoreAll (s : State) (facts : Vector RestoreFacts 4) : State :=
  let rec_ := s.keeper.rescue.record
  let gap := s.keeper.tk.gapMarks
  let s := s.eachRegion fun s g => s.restoreRegion g facts[g]
  let s := if rec_ = .started then s.eachRegion fun s g => s.scanOpen g facts[g] else s
  let s := if rec_ = .started ∨ rec_ = .complete then s.eachRegion fun s g => s.applyRescued g facts[g]
    else s.eachRegion fun s g => s.updRegion g fun r => { r with rescued := [] }
  let s := s.eachRegion State.resumeSeq
  let s := s.eachRegion fun s g => s.markBands g gap (rec_ == .diapause)
  let s := s.updTk fun t => { t with gapMarks := false }
  let s := (s.sub.formatDue.foldl State.formatExtent s).updSub fun x => { x with formatDue := [] }
  let s := s.matchExtents
  let s := s.eachRegion State.settleLuns
  let s := s.eachRegion State.rescueBands
  let s := (s.eachRegion (State.journalBands · 0)).eachRegion (State.journalBands · 1)
  let s := s.eachRegion State.firstBands
  let s := s.eachRegion State.firstSpare
  s.eachRegion State.settleBands

/-- Regions go into service; one whose core did not load, or whose die is out, is adopted by its partner (R132, R378). -/
def State.regionsServe (s : State) : State :=
  let up (s : State) (g : RegionIx) : Bool := (s.regions[g]).coreUp && !(s.com (dieOfRegion g)).outOfService
  let s := s.eachRegion fun s g => if up s g then s.updRegion g fun r => { r with inService := true, adopting := false } else s
  let s := s.eachRegion fun s g => if up s g then s else s.regionOut g
  -- Reclamations that the loss cut short resume (R164).
  (s.eachRegion State.settleCopies).eachRegion fun s g => (s.copyTurns g).runTurns g

/-- HOST_FETCH_START (R147, R356, R381 step 13, R382, R445, R450): `facts` are what each region finds in its media, `ms` the time since the
start (KPR_BOOT_TIME). -/
def execHostFetchStart (facts : Vector RestoreFacts 4) (ms : Nat) (s : State) : Out :=
  if s.keeper.boot.stage ≠ .restore ∨ s.keeper.rescue.run.isSome = true ∨ s.keeper.fc.safe = true then unchanged s else
  let s := (s.restoreAll facts).regionsServe
  let s := (s.stage .serving).updBoot fun b => { b with fetchMs := min ms 0xFFFF }
  let s := s.updSup fun x => { x with state := .lit }
  let s := s.updSub fun x => { x with diapause := .lit, fetchStarted := true }
  let s := ((s.controllerReady 0).controllerReady 1).slotServes
  let s := if s.fw.restartActivates then (s.updFw fun x => { x with restartActivates := false }).raise 473 else s
  let s := s.settleSanitize.swarmResume
  .next (s.eachRegion State.backgroundRun)

end Sys2Proof.Machine
end

