-- ==== Sys2Proof/Machine/Mi.lean ====
section
/-! DEFINITION. The management port: MCTP packets and control messages, NVMe-MI commands, the Basic Management Command and the admin command
tunnel (R488 to R491; layouts of NVMe-MI and of MCTP, PRESUMED, log entry 48). -/

namespace Sys2Proof.Machine

/-! Answers. -/

/-- The port answers a request with a completion code or response status, and data. -/
def State.miAnswer (s : State) (tag : Half) (code : Nat) (data : List DataField) : State :=
  s.updMp fun m => { m with out := m.out ++ [{ tag := tag, code := code, data := data }] }

/-- A request reaches a port that answers. -/
def State.mpThen (s : State) (f : State → State) : Out := if s.keeper.mp.inService then .next (f s) else unchanged s

/-- Response statuses of NVMe-MI. -/
def miInvalidOpcode : Nat := 0x03
def miInvalidParameter : Nat := 0x04

/-- MCTP_PACKET (R488): a packet whose PEC fails is discarded and counted; another is taken up by the command that it carries. -/
def execMctpPacket (pecOk : Bool) (s : State) : Out :=
  s.mpThen fun s => if pecOk then s else s.updMp fun m => { m with pecDiscards := m.pecDiscards + 1, irq := m.irq.set 1 }

/-! MCTP control (R489). -/

/-- Response of Set and Get Endpoint ID: completion code, then the bytes. -/
def ctlOk : Nat := 0
def ctlInvalidData : Nat := 2

/-- SET_ENDPOINT_ID (R488, R489, R495): 8 to 254 is taken; a reset goes back to the static identifier, where the record gives one. -/
def execSetEndpointId (tag : Half) (op : EidOp) (eid : Byte) (s : State) : Out :=
  s.mpThen fun s =>
    let took (s : State) (e : Byte) : State := (s.updMp fun m => { m with eid := e, eidValid := true }).miAnswer tag ctlOk [fld 0 1 0, fld 1 1 e.toNat, fld 2 1 0]
    match op with
    | .set | .force => if 8 ≤ eid.toNat ∧ eid.toNat ≤ 254 then took s eid else s.miAnswer tag ctlInvalidData []
    | .reset => if s.mpEid = 0 then s.miAnswer tag ctlInvalidData [] else took s s.mpEid
    | .discovered => s.miAnswer tag ctlInvalidData []

/-- GET_ENDPOINT_ID (R489): the identifier, 0 where none is set, and whether it is static. -/
def execGetEndpointId (tag : Half) (s : State) : Out :=
  s.mpThen fun s =>
    let m := s.keeper.mp
    let e := if m.eidValid then m.eid else 0
    s.miAnswer tag ctlOk [fld 0 1 e.toNat, fld 1 1 (if s.mpEid = 0 then 0 else if e = s.mpEid then 2 else 3), fld 2 1 0]

/-- GET_ENDPOINT_UUID (R489): the spec does not give the UUID. -/
def execGetEndpointUuid (tag : Half) (s : State) : Out := s.mpThen fun s => s.miAnswer tag ctlOk [fld 0 16 Config.endpointUuid.toNat]

/-- GET_MCTP_VERSION_SUPPORT (R489): of the base, of control messages and of NVMe-MI; another type is not supported. -/
def execGetMctpVersionSupport (tag : Half) (msgType : Byte) (s : State) : Out :=
  s.mpThen fun s =>
    if msgType = 0xFF ∨ msgType = 0x00 ∨ msgType = 0x04 then s.miAnswer tag ctlOk [fld 0 1 1, fld 1 4 (Config.mctpVersion msgType.toNat).toNat]
    else s.miAnswer tag 0x80 []

/-- GET_MESSAGE_TYPE_SUPPORT (R488, R489): NVMe-MI over MCTP. -/
def execGetMessageTypeSupport (tag : Half) (s : State) : Out := s.mpThen fun s => s.miAnswer tag ctlOk [fld 0 1 1, fld 1 1 0x04]

/-! NVMe-MI commands (R489, R491). -/

/-- Controllers in service, by their CNTLID. -/
def State.liveControllers (s : State) : List Nat :=
  if s.keeperOnly then []
  else if s.inRecovery then [1]
  else ((List.finRange 2).filter fun d => !(s.com d).inReset && !(s.com d).outOfService).map fun d => d.val + 1

/-- A temperature as NVMe-MI encodes it: 0 to 126 °C, 0x7F above, two's complement from −59 to −1, 0xC4 below. -/
def miTemp (t : Int) : Nat := if t < -59 then 0xC4 else if t < 0 then (256 + t).toNat else min 0x7F t.toNat

/-- Composite temperature: from the keeper die's sensor while the keeper alone answers, 0x80 before its first sample (R491). -/
def State.miComposite (s : State) : Nat :=
  if s.keeperOnly then
    let c := s.keeper.sup.adc[12]
    if c.valid then miTemp (nearestC (sensor16 c.value)) else 0x80
  else miTemp s.composite

/-- Critical Warning: the last value reported while the keeper alone answers (R491). -/
def State.miWarning (s : State) : Byte := if s.keeperOnly then s.keeper.mp.lastCw else s.criticalWarning

/-- The drive works: the package serves. -/
def State.functional (s : State) : Bool := !s.keeperOnly && s.keeper.boot.stage == .serving

/-- READ_NVME_MI_DATA_STRUCTURE (R277, R488, R489): 0 subsystem, 1 port, 2 controller list, 3 controller, 4 optional commands. -/
def execReadNvmeMiDataStructure (tag : Half) (dtyp port ctrl : Nat) (s : State) : Out :=
  s.mpThen fun s =>
    match dtyp with
    | 0 => s.miAnswer tag 0 [fld 0 1 2, fld 1 1 1, fld 2 1 2]
    | 1 =>
      if port < 2 then s.miAnswer tag 0 [fld 0 1 1, fld 2 2 64, fld 4 4 0]
      else if port = 2 then
        s.miAnswer tag 0 [fld 0 1 2, fld 2 2 64, fld 4 4 0, fld 10 1 (s.keeper.mp.addr.toNat * 2), fld 11 1 3, fld 12 1 1]
      else s.miAnswer tag miInvalidParameter []
    | 2 =>
      let ids := s.liveControllers.filter fun c => decide (ctrl ≤ c)
      s.miAnswer tag 0 (fld 0 2 ids.length :: idList 2 2 ids)
    | 3 =>
      if s.liveControllers.contains ctrl then
        s.miAnswer tag 0 [fld 0 1 (ctrl - 1), fld 8 2 0x1E9C, fld 10 2 0x0512, fld 12 2 s.subsystemIds.1, fld 14 2 s.subsystemIds.2]
      else s.miAnswer tag miInvalidParameter []
    | 4 => s.miAnswer tag 0 [fld 0 2 0]
    | _ => s.miAnswer tag miInvalidParameter []

/-- NVM_SUBSYSTEM_HEALTH_STATUS_POLL (R489, R491). The composite controller status shows changes that no rule of the spec follows: a free value. -/
def execNvmSubsystemHealthStatusPoll (tag : Half) (s : State) : Out :=
  s.mpThen fun s =>
    let nss := bitIf s.functional 5 + bitIf true 4 + bitIf (s.hostLinkUp 0) 3 + bitIf (s.hostLinkUp 1) 2
    let t : State := { s with free := s.free + 1 }
    t.miAnswer tag 0 [fld 0 1 nss, fld 1 1 (255 - s.miWarning.toNat), fld 2 1 s.miComposite, fld 3 1 (100 - s.availableSpare),
      fld 4 2 (Config.freeWord s.free).toNat]

/-- CSTS of a controller as the poll gives it; the flags of changes, bits 4 to 7, are free values. -/
def State.pollCsts (s : State) (c : Nat) : Nat :=
  let h := s.dies[(⟨(c - 1) % 2, by omega⟩ : DieIx)].host
  bitIf (h.enabled && h.ready) 0 + bitIf h.cfs 1 + h.shst % 4 * 4 + (Config.freeWord (s.free + c)).toNat % 16 * 16

/-- CONTROLLER_HEALTH_STATUS_POLL (R489, R491): an entry for each controller in service from `start` on; where only changes are asked for,
which controllers have changed is a free value. While the keeper alone answers there is no controller. -/
def execControllerHealthStatusPoll (tag : Half) (start maxEntries : Nat) (all : Bool) (s : State) : Out :=
  s.mpThen fun s =>
    let cs := (s.liveControllers.filter fun c => decide (start ≤ c) && (all || Config.freeFlag (s.free + c))).take (maxEntries + 1)
    let entry (c : Nat) : List DataField :=
      [fld 0 2 c, fld 2 2 (s.pollCsts c), fld 4 2 (kelvin s.composite), fld 6 1 (100 - s.availableSpare), fld 7 1 s.availableSpare,
       fld 8 1 s.criticalWarning.toNat]
    let t : State := { s with free := s.free + 3 }
    t.miAnswer tag 0 (fld 0 1 cs.length :: cs.zipIdx.flatMap fun p => fieldsAt (4 + 16 * p.2) (entry p.1))

/-- CONFIGURATION_GET (R488, R489): 1 SMBus frequency, 2 health status change, 3 transmission unit. -/
def execConfigurationGet (tag : Half) (id port : Nat) (s : State) : Out :=
  s.mpThen fun s =>
    if id = 2 then s.miAnswer tag 0 []
    else if port ≠ 2 then s.miAnswer tag miInvalidParameter []
    else match id with
      | 1 => s.miAnswer tag 0 [fld 0 1 (s.keeper.mp.speed.toNat + 1)]
      | 3 => s.miAnswer tag 0 [fld 0 2 64]
      | _ => s.miAnswer tag miInvalidParameter []

/-- CONFIGURATION_SET (R489): one of the three rates until the next start; a transmission unit of 64 only. -/
def execConfigurationSet (tag : Half) (id port value : Nat) (s : State) : Out :=
  s.mpThen fun s =>
    if id = 2 then s.miAnswer tag 0 []
    else if port ≠ 2 then s.miAnswer tag miInvalidParameter []
    else match id with
      | 1 =>
        if 1 ≤ value ∧ value ≤ 3 then (s.updMp fun m => { m with speed := BitVec.ofNat 2 (value - 1) }).miAnswer tag 0 []
        else s.miAnswer tag miInvalidParameter []
      | 3 => s.miAnswer tag (if value = 64 then 0 else miInvalidParameter) []
      | _ => s.miAnswer tag miInvalidParameter []

/-- BASIC_MANAGEMENT_COMMAND (R489, R491): code 0 the status block, code 8 the vendor and the package serial of the factory area (R424). -/
def execBasicManagementCommand (tag : Half) (code : Nat) (s : State) : Out :=
  s.mpThen fun s =>
    match code with
    | 0 =>
      let flags := bitIf true 7 + bitIf (!s.functional) 6 + bitIf s.functional 5 + bitIf true 4 + bitIf (s.hostLinkUp 0 || s.hostLinkUp 1) 3 + 7
      s.miAnswer tag 0 [fld 0 1 6, fld 1 1 flags, fld 2 1 (255 - s.miWarning.toNat), fld 3 1 s.miComposite, fld 4 1 (100 - s.availableSpare), fld 5 2 0]
    | 8 =>
      s.miAnswer tag 0 ([fld 0 1 22, fld 1 1 0x1E, fld 2 1 0x9C] ++
        (List.range 16).map fun i => fld (3 + i) 1 (factoryArea (8 + i)).toNat)
    | _ => s.miAnswer tag miInvalidParameter []

/-! The admin command tunnel (R489 to R491). -/

/-- ADMIN_COMMAND_TUNNEL (R489 to R491): the command runs for the controller that it names, in the order of arrival, under the rules of a
command of that controller. -/
def execAdminCommandTunnel (ctrl : Nat) (cid : Half) (cmd : TunnelCmd) (s : State) : Out :=
  if !s.keeper.mp.inService then unchanged s
  else
    let ref : CmdRef := { ctrl := ⟨(ctrl - 1) % 2, by omega⟩, qid := 0, cid := cid, viaMi := true }
    if s.keeperOnly then .next (s.complete ref (stMi miInvalidOpcode) 0)
    else if ctrl = 0 ∨ 2 < ctrl ∨ (s.com (refDie ref)).outOfService = true ∨ (s.inRecovery = true ∧ ctrl ≠ 1) then
      .next (s.complete ref (stMi miInvalidParameter) 0)
    else match cmd with
      | .identify cns nsid cntid => execIdentify ref cns nsid cntid s
      | .getLogPage lid nsid lsi lpo len rae => execGetLogPage ref lid nsid lsi lpo len rae s
      | .getFeatures fid dw11 => execGetFeatures ref fid dw11 s
      | .download offset len last image => execFirmwareImageDownload ref offset len last image s
      | .commit slot .replace => execFirmwareCommitReplace ref slot s
      | .commit slot .replaceActivate => execFirmwareCommitReplaceActivate ref slot s
      | .commit slot .activateAtReset => execFirmwareCommitActivateAtReset ref slot s
      | .commit slot .activateNow => execFirmwareCommitActivateNow ref slot s
      | .commit _ .bootPartition => execFirmwareCommitBootPartition ref s
      | .other => .next (s.complete ref stInvalidOpcode 0)

/-- MI_UNSUPPORTED_COMMAND (R489): VPD Read, VPD Write, Reset and the SES commands. -/
def execMiUnsupportedCommand (tag : Half) (s : State) : Out := s.mpThen fun s => s.miAnswer tag miInvalidOpcode []

end Sys2Proof.Machine
end

