-- ==== Sys2Proof/Machine/Microcode.lean ====
section
/-! DEFINITION. The microwords of R59: the fetch, its redirect and its faults (R58, R60, R62), and one meaning for each of the 32 operations. -/

namespace Sys2Proof.Machine

/-- A microword: bits [23:19] the operation, [18:0] its operands (R59). -/
def microword (op fields : Nat) : BitVec 24 := BitVec.ofNat 24 (op * 2 ^ 19 + fields)

/-- Update a context. -/
def State.updCtx (s : State) (l : LaneIx) (c : CtxIx) (f : Ctx → Ctx) : State :=
  s.updLane l fun x => match x.ctxs[c] with
    | some k => { x with ctxs := x.ctxs.set c (some (f k)) }
    | none => x

/-- The address a fetch goes to: an enabled redirect slot that names a ROM address diverts it (R62). -/
def LaneSt.fetchAt (x : LaneSt) (pc : BitVec 14) : BitVec 14 :=
  if pc.toNat < 0x2000 then
    match (slotsEnabled x.patch.redirect).find? fun q => q.1 == pc.toNat with
    | some q => BitVec.ofNat 14 (0x2000 + q.2)
    | none => pc
  else pc

/-- One microword of a context: fetch, redirect, the faults of the fetch, an operand outside its range, a channel cycle without
ownership, then its action. The command must be the word that stands at the address, where that is patch RAM. -/
def State.micro (s : State) (l : LaneIx) (c : CtxIx) (word : BitVec 24) (inRange needsChannel : Bool)
    (go : State → QEntry → Ctx → State) : Out :=
  let x := s.lanes[l]
  match x.ctxs[c], x.queue.find? fun e => e.ctx == some c with
  | some k, some e =>
    if k.waits then unchanged s else
    let pc := x.fetchAt k.pc
    let n := pc.toNat
    if 0x2000 ≤ n ∧ (0x2400 ≤ n ∨ x.patch.words.length ≤ n - 0x2000) then .next (s.microFault l c e pc 4)
    else if 0x2000 ≤ n ∧ (x.patch.words.getD (n - 0x2000) 0) ≠ word then unchanged s
    else if !inRange then .next (s.microFault l c e pc 6)
    else if needsChannel && x.owner != some c then .next (s.microFault l c e pc 7)
    else .next (go s e { k with pc := pc })
  | _, _ => unchanged s

/-- The context goes on with the next address (R58). -/
def State.advance (s : State) (l : LaneIx) (c : CtxIx) (k : Ctx) : State := s.updCtx l c fun _ => { k with pc := k.pc + 1 }
/-- The context goes on at a target. -/
def State.jumpTo (s : State) (l : LaneIx) (c : CtxIx) (k : Ctx) (t : BitVec 14) : State := s.updCtx l c fun _ => { k with pc := t }

/-- Write a working register and go on. -/
def State.writeW (s : State) (l : LaneIx) (c : CtxIx) (k : Ctx) (d : Fin 16) (v : Word) : State :=
  s.advance l c { k with w := k.w.set d v }

/-- Z and N of a result, C as given (R58). -/
def Ctx.flags (k : Ctx) (v : Word) (carry : Bool) : Ctx := { k with z := v == 0, n := v.msb, c := carry }

/-- Carry out of a 32-bit addition. -/
def carryOut (a b : Word) : Bool := decide (2 ^ 32 ≤ a.toNat + b.toNat)

/-- NOP (R59). -/
def execNop (l : LaneIx) (c : CtxIx) (s : State) : Out := s.micro l c (microword 0x00 0) true false fun s _ k => s.advance l c k

/-- JMP (R59). -/
def execJmp (l : LaneIx) (c : CtxIx) (t : BitVec 14) (s : State) : Out :=
  s.micro l c (microword 0x01 t.toNat) true false fun s _ k => s.jumpTo l c k t

/-- A condition of BRC; none for a reserved code (R59). -/
def State.condition (s : State) (l : LaneIx) (e : QEntry) (k : Ctx) (code : Nat) : Option Bool :=
  match code with
  | 0 => some true
  | 1 => some k.z
  | 2 => some !k.z
  | 3 => some k.c
  | 4 => some k.n
  | 5 => some k.t
  | 6 => some k.s
  | 7 => some k.nand.fail
  | 8 => some k.nand.ready
  | 9 => some k.nand.arrayReady
  | 10 => some k.nand.suspended
  | 11 => some (s.lanes[l].quarLuns.getLsbD e.desc.unit.val)
  | _ => none

/-- BRC (R59, R60): a reserved condition code is a microcode fault. -/
def execBrc (l : LaneIx) (c : CtxIx) (cond : BitVec 5) (t : BitVec 14) (s : State) : Out :=
  s.micro l c (microword 0x02 (cond.toNat * 2 ^ 14 + t.toNat)) true false fun s e k =>
    match s.condition l e k cond.toNat with
    | none => s.microFault l c e k.pc 1
    | some true => s.jumpTo l c k t
    | some false => s.advance l c k

/-- CALL (R58, R60): the return stack holds four entries. -/
def execCall (l : LaneIx) (c : CtxIx) (t : BitVec 14) (s : State) : Out :=
  s.micro l c (microword 0x03 t.toNat) true false fun s e k =>
    if 4 ≤ k.stack.length then s.microFault l c e k.pc 2 else s.jumpTo l c { k with stack := (k.pc + 1) :: k.stack } t

/-- RET (R58, R60). -/
def execRet (l : LaneIx) (c : CtxIx) (s : State) : Out :=
  s.micro l c (microword 0x04 0) true false fun s e k => match k.stack with
    | [] => s.microFault l c e k.pc 3
    | t :: rest => s.jumpTo l c { k with stack := rest } t

/-- LDI (R59). -/
def execLdi (l : LaneIx) (c : CtxIx) (d : Fin 16) (v : BitVec 15) (s : State) : Out :=
  s.micro l c (microword 0x05 (d.val * 2 ^ 15 + v.toNat)) true false fun s _ k => s.writeW l c k d (v.setWidth 32)

/-- LDU (R59): Wd[31:17] takes the value, Wd[16:0] stays. -/
def execLdu (l : LaneIx) (c : CtxIx) (d : Fin 16) (v : BitVec 15) (s : State) : Out :=
  s.micro l c (microword 0x06 (d.val * 2 ^ 15 + v.toNat)) true false fun s _ k => s.writeW l c k d (v ++ (k.w[d]).extractLsb' 0 17)

/-- LDD (R38, R59): a 32-bit word of the descriptor. -/
def execLdd (l : LaneIx) (c : CtxIx) (d word : Fin 16) (s : State) : Out :=
  s.micro l c (microword 0x07 (d.val * 2 ^ 15 + word.val)) true false fun s e k => s.writeW l c k d e.desc.words[word]

/-- ADDI (R58, R59). -/
def execAddi (l : LaneIx) (c : CtxIx) (d a : Fin 16) (v : BitVec 11) (s : State) : Out :=
  s.micro l c (microword 0x08 (d.val * 2 ^ 15 + a.val * 2 ^ 11 + v.toNat)) true false fun s _ k =>
    let b : Word := v.signExtend 32
    let r := k.w[a] + b
    s.writeW l c (k.flags r (carryOut k.w[a] b)) d r

/-- The result of an ALU function; none where the spec states none: a shift by 32 or more (R59). -/
def aluResult (f : BitVec 3) (a b : Word) : Option Word :=
  match f.toNat with
  | 0 => some (a + b)
  | 1 => some (a - b)
  | 2 => some (a &&& b)
  | 3 => some (a ||| b)
  | 4 => some (a ^^^ b)
  | 5 => if b.toNat < 32 then some (a <<< b.toNat) else none
  | 6 => if b.toNat < 32 then some (a >>> b.toNat) else none
  | _ => some a

/-- ALU (R58, R59). C is the carry of an addition; after every other function the spec states no value: free. -/
def execAlu (l : LaneIx) (c : CtxIx) (d a b : Fin 16) (f : BitVec 3) (s : State) : Out :=
  s.micro l c (microword 0x09 (d.val * 2 ^ 15 + a.val * 2 ^ 11 + b.val * 2 ^ 7 + f.toNat)) true false fun s _ k =>
    let r := (aluResult f k.w[a] k.w[b]).getD (Config.freeWord s.free)
    let carry := if f = 0 then carryOut k.w[a] k.w[b] else Config.freeFlag s.free
    { (s.writeW l c (k.flags r carry) d r) with free := s.free + 1 }

/-- CMP (R58, R59): flags of Ws − Wt; C after a subtraction is free. -/
def execCmp (l : LaneIx) (c : CtxIx) (a b : Fin 16) (s : State) : Out :=
  s.micro l c (microword 0x0A (a.val * 2 ^ 11 + b.val * 2 ^ 7)) true false fun s _ k =>
    { (s.advance l c (k.flags (k.w[a] - k.w[b]) (Config.freeFlag s.free))) with free := s.free + 1 }

/-- Geometry and suspend rules of a profile, in the order of their fields (R408). -/
def tblGeometry (p : MediaProfile) : List Nat := [p.planes, p.wordlines, p.blocks, p.pageBytes]
def tblSuspend (p : MediaProfile) : List Nat :=
  [dflt p.minRun 200, dflt p.maxSusp 500, dflt p.suspLimit 12, if p.programsBarred then 1 else 0]

/-- An entry of a profile table (R59, R408). Which index names which field of the geometry and of the suspend rules, the spec does not say:
the index that names a field is free, its value is the profile's (log entry 125). -/
def tableEntry (p : MediaProfile) (t i : Nat) : Option Word :=
  match t with
  | 0 => (p.opcodes[i]?).map (·.setWidth 32)
  | 1 => (p.timings[i]?).map (BitVec.ofNat 32)
  | 2 => ((tblGeometry p)[Config.tableIndex t i]?).map (BitVec.ofNat 32)
  | 3 => (p.routines[i]?).map (BitVec.ofNat 32)
  | 4 => ((tblSuspend p)[Config.tableIndex t i]?).map (BitVec.ofNat 32)
  | _ => none

/-- TBL (R59, R60, R408): reserved tables and entries that a table does not hold are out of range. -/
def execTbl (l : LaneIx) (c : CtxIx) (d : Fin 16) (t : BitVec 3) (i : BitVec 12) (s : State) : Out :=
  let v := (s.laneProfile l).bind fun p => tableEntry p t.toNat i.toNat
  s.micro l c (microword 0x0B (d.val * 2 ^ 15 + t.toNat * 2 ^ 12 + i.toNat)) (decide (t.toNat < 5) && v.isSome) false fun s _ k =>
    s.writeW l c k d (v.getD 0)

/-- SYNC (R42, R43, R59): waits while another context owns the channel; a channel that comes free is granted in rank order. -/
def execSync (l : LaneIx) (c : CtxIx) (s : State) : Out :=
  s.micro l c (microword 0x0C 0) true false fun s _ k =>
    let o := s.lanes[l].owner
    if o.isNone || o == some c then (s.updLane l fun x => { x with owner := some c }).advance l c k
    else s.jumpTo l c { k with waits := true } k.pc

/-- YLD (R42, R59). -/
def execYld (l : LaneIx) (c : CtxIx) (s : State) : Out :=
  s.micro l c (microword 0x0D 0) true false fun s _ k =>
    let s := s.advance l c k
    s.updLane l fun x => ({ x with owner := if x.owner = some c then none else x.owner } : LaneSt).grantChannel

/-- CEN (R59): chip enable 0 to 7, or 0xF to deselect. -/
def execCen (l : LaneIx) (c : CtxIx) (n : Fin 16) (s : State) : Out :=
  s.micro l c (microword 0x0E n.val) (decide (n.val < 8) || n == 15) false fun s _ k =>
    let ce : Option (Fin 8) := if h : n.val < 8 then some ⟨n.val, h⟩ else none
    (s.updLane l fun x => { (x.cycle (.ce ce)) with ce := ce }).advance l c k

/-- Channel cycles in turn. -/
def State.cycles (s : State) (l : LaneIx) (bs : List BusCycle) : State := s.updLane l fun x => { x with bus := x.bus ++ bs }

/-- CMD (R59, R60): an immediate byte, or the profile's opcode entry. -/
def execCmd (l : LaneIx) (c : CtxIx) (fromProfile : Bool) (v : Byte) (s : State) : Out :=
  let b := if fromProfile then (s.laneProfile l).bind fun p => p.opcodes[v.toNat]? else some v
  s.micro l c (microword 0x0F ((if fromProfile then 2 ^ 18 else 0) + v.toNat)) b.isSome true fun s _ k =>
    (s.cycles l [.cmd (b.getD 0)]).advance l c k

/-- The first n bytes of a word as address cycles, low byte first. -/
def addrCycles (w : Word) (n : Nat) : List BusCycle := ((descBytes w).take n).map .addr

/-- ADR (R59, R60): 1 to 4 address cycles. -/
def execAdr (l : LaneIx) (c : CtxIx) (a : Fin 16) (n : BitVec 3) (s : State) : Out :=
  s.micro l c (microword 0x10 (a.val * 2 ^ 15 + n.toNat)) (decide (1 ≤ n.toNat) && decide (n.toNat ≤ 4)) true fun s _ k =>
    (s.cycles l (addrCycles k.w[a] n.toNat)).advance l c k

/-- ADX (R59, R60): 1 to 2 further address cycles. -/
def execAdx (l : LaneIx) (c : CtxIx) (a : Fin 16) (n : BitVec 2) (s : State) : Out :=
  s.micro l c (microword 0x11 (a.val * 2 ^ 15 + n.toNat)) (decide (1 ≤ n.toNat) && decide (n.toNat ≤ 2)) true fun s _ k =>
    (s.cycles l (addrCycles k.w[a] n.toNat)).advance l c k

/-- A burst through a buffer: a failed pointer check moves no data and is an operand out of range (R307);
the data passes the crossing of the lane's PHY (R34). -/
def State.burst (s : State) (l : LaneIx) (c : CtxIx) (e : QEntry) (k : Ctx) (len ptr : Word) (toBuffer : Bool) (b : BusCycle) : State :=
  let d := dieOfLane l
  match s.ptrCheck d ptr len.toNat toBuffer with
  | some cause => (s.pointerFault d ptr cause .lane).microFault l c e k.pc 6
  | none => ((s.carry (.nand l) (!toBuffer) len.toNat).cycles l [b]).advance l c k

/-- DOUT (R59, R307). -/
def execDout (l : LaneIx) (c : CtxIx) (a b : Fin 16) (s : State) : Out :=
  s.micro l c (microword 0x12 (a.val * 2 ^ 15 + b.val * 2 ^ 11)) true true fun s e k =>
    s.burst l c e k k.w[a] k.w[b] false (.dataOut k.w[a] k.w[b])

/-- DIN (R59, R307). -/
def execDin (l : LaneIx) (c : CtxIx) (a b : Fin 16) (toDecoder : Bool) (s : State) : Out :=
  s.micro l c (microword 0x13 (a.val * 2 ^ 15 + b.val * 2 ^ 11 + (if toDecoder then 1 else 0))) true true fun s e k =>
    s.burst l c e k k.w[a] k.w[b] true (.dataIn k.w[a] k.w[b] toDecoder)

/-- STAT (R59): `st` is what the LUN answers. -/
def execStat (l : LaneIx) (c : CtxIx) (d : Fin 16) (enhanced : Bool) (st : NandStatus) (s : State) : Out :=
  s.micro l c (microword 0x14 (d.val * 2 ^ 15 + (if enhanced then 1 else 0))) true true fun s _ k =>
    (s.cycles l [.status enhanced]).writeW l c { k with nand := st } d (st.raw.setWidth 32)

/-- WRDY (R58, R59): polls until ready or until Ws µs have passed; `st` is the status read last. -/
def execWrdy (l : LaneIx) (c : CtxIx) (a : Fin 16) (st : NandStatus) (s : State) : Out :=
  s.micro l c (microword 0x15 (a.val * 2 ^ 15)) true false fun s _ k =>
    (s.cycles l [.status false]).advance l c { k with nand := st, t := !st.ready }

/-- TIM (R59, R530): the wait is over when the microword completes. -/
def execTim (l : LaneIx) (c : CtxIx) (i : Byte) (s : State) : Out :=
  s.micro l c (microword 0x16 i.toNat) true false fun s _ k => s.advance l c k

/-- WAIT (R59). -/
def execWait (l : LaneIx) (c : CtxIx) (a : Fin 16) (s : State) : Out :=
  s.micro l c (microword 0x17 (a.val * 2 ^ 15)) true false fun s _ k => s.advance l c k

/-- LVL (R38, R59, R60, R307): the offset vector's byte for level Ws, as the buffer holds it; a pointer of 0 selects zero offsets. -/
def execLvl (l : LaneIx) (c : CtxIx) (d a : Fin 16) (b : Byte) (s : State) : Out :=
  s.micro l c (microword 0x18 (d.val * 2 ^ 15 + a.val * 2 ^ 11)) true false fun s e k =>
    let n := (k.w[a]).toNat
    if n = 0 ∨ 63 < n then s.microFault l c e k.pc 6
    else if e.desc.offsets = 0 then s.writeW l c k d 0
    else match s.ptrCheck (dieOfLane l) e.desc.offsets 64 false with
      | some cause => (s.pointerFault (dieOfLane l) e.desc.offsets cause .lane).microFault l c e k.pc 6
      | none => s.writeW l c k d (b.signExtend 32)

/-- What a step of PHY does: 0 long ZQ, 1 short ZQ, 2 duty cycle, 3 read DQ, 4 write DQ (R59). -/
def State.phyStep (s : State) (l : LaneIx) (ces : List (Fin 8)) (step : Nat) : State :=
  match step with
  | 0 => s.trainStep l ces (s.laneRate l) .zqLong
  | 1 => s.updLane l fun x => { x with train := { x.train with zqShort := x.train.zqShort + ces.length } }
  | 2 => s.trainStep l ces (s.laneRate l) .dutyCycle
  | 3 => s.trainStep l ces (s.laneRate l) .readDq
  | 4 => s.trainStep l ces (s.laneRate l) .writeDq
  | _ => s

/-- PHY (R51, R59): a training step on the CE driven, or on every populated CE where none is (DEDUCED, log entry 125); step 5 selects the
rate that W0 names. -/
def execPhy (l : LaneIx) (c : CtxIx) (step : Fin 16) (s : State) : Out :=
  s.micro l c (microword 0x19 step.val) (decide (step.val ≤ 5)) false fun s e k =>
    if step.val = 5 then
      let n := (k.w[(0 : Fin 16)]).toNat
      if h : n < 3 then (s.updLane l fun x => { x with train := { x.train with rate := some ⟨n, h⟩ } }).advance l c k
      else if n = 3 then (s.updLane l fun x => { x with train := { x.train with rate := none } }).advance l c k
      else s.microFault l c e k.pc 6
    else
      let ces := match s.lanes[l].ce with | some n => [n] | none => s.ces l
      let s := s.updLane l fun x => { x with train := { x.train with running := true } }
      (s.phyStep l ces step.val).advance l c k

/-- LOOP (R59). -/
def execLoop (l : LaneIx) (c : CtxIx) (d : Fin 16) (t : BitVec 14) (s : State) : Out :=
  s.micro l c (microword 0x1A (d.val * 2 ^ 15 + t.toNat)) true false fun s _ k =>
    let v := k.w[d] - 1
    let k := { k with w := k.w.set d v }
    if v = 0 then s.advance l c k else s.jumpTo l c k t

/-- SUSP (R46, R58, R59). -/
def execSusp (l : LaneIx) (c : CtxIx) (s : State) : Out :=
  s.micro l c (microword 0x1B 0) true false fun s e k =>
    let x := s.lanes[l]
    let ok := match runningOn x e.desc.unit with
      | some r => r.minMet && decide (r.count < x.suspLimit) && wantsLun x r
      | none => false
    s.advance l c { k with s := ok }

/-- STO (R41, R59): completion word 1 to 3. -/
def execSto (l : LaneIx) (c : CtxIx) (a : Fin 16) (word : Fin 4) (s : State) : Out :=
  s.micro l c (microword 0x1C (a.val * 2 ^ 15 + word.val)) (word.val != 0) false fun s _ k =>
    s.advance l c { k with out := k.out.set (word.val - 1) (some k.w[a]) (by omega) }

/-- EVT (R59, R63). -/
def execEvt (l : LaneIx) (c : CtxIx) (n : Fin 8) (s : State) : Out :=
  s.micro l c (microword 0x1D n.val) true false fun s e k => (s.raiseLane l n.val e.desc).advance l c k

/-- The completion status of a code (R41). -/
def laneStatusOf (n : Nat) : Option LaneStatus :=
  [LaneStatus.ok, .programFail, .eraseFail, .timeout, .erasePending, .refused, .abandoned, .ucodeFault, .phyFault][n]?

/-- DONE (R41, R55, R59): the failures that a routine reports are counted and raised as R55 gives. -/
def execDone (l : LaneIx) (c : CtxIx) (status : Byte) (s : State) : Out :=
  s.micro l c (microword 0x1E status.toNat) (laneStatusOf status.toNat).isSome false fun s e k =>
    match laneStatusOf status.toNat with
    | none => s
    | some st =>
      let s := match st with
        | .programFail => s.programFailed l e.desc
        | .eraseFail => s.eraseFailed l e.desc
        | .timeout => ((s.updLane l fun x => { x with err := { x.err with timeout := satAdd 255 x.err.timeout 1 } }).raiseLane l 2 e.desc).countTimeout e.desc.lunNo
        | _ => s
      match s.lanes[l].queue.find? fun q => q.desc.tag == e.desc.tag with
      | some q => s.settle l q st k.nand.raw 0 0
      | none => s

/-- TRAP (R59, R60). -/
def execTrap (l : LaneIx) (c : CtxIx) (code : Byte) (s : State) : Out :=
  s.micro l c (microword 0x1F code.toNat) true false fun s e k => s.microFault l c e k.pc 5

end Sys2Proof.Machine
end

