-- ==== Sys2Proof/Machine/Supply.lean ====
section
/-! DEFINITION. Supply, power cap, power loss, rescue, hold-up bank and thermistors (R343 to R368, R528, R533). -/

namespace Sys2Proof.Machine

/-- RAIL_WINDOW_TIMEOUT (R345): the rails are not all there within 1 s; 383, and the keeper keeps waiting. -/
def execRailWindowTimeout (r : BoardRail) (s : State) : Out :=
  if s.keeper.sup.vinOk && (s.com 0).inReset then .next (s.raiseRail (boardRail r) false) else unchanged s

/-- REGULATOR_START_TIMEOUT (R345, R461): 383, the dies stay in reset, and the reaction of the rail code. -/
def execRegulatorStartTimeout (r : PkgRail) (s : State) : Out :=
  if !s.keeper.sup.vinOk then unchanged s else
  .next (((s.raiseRail (pkgRail r) false).updSup fun x => { x with regulatorFault := true }).railReaction r)

/-- BOARD_RAIL_OUT_OF_WINDOW (R344): 383; a rail that a rescue step still needs leaves the rescue record started. -/
def execBoardRailOutOfWindow (r : BoardRail) (above : Bool) (s : State) : Out :=
  if !s.keeper.sup.vinOk then unchanged s else
  let s := s.updSup fun x => match r with
    | .vccq => { x with vccqOk := false }
    | .vddq => { x with vddqOk := false }
    | .vdd2h => { x with vdd2hOk := false }
  .next ((s.raiseRail (boardRail r) above).updRescue fun q => { q with run := q.run.map fun x => { x with railLost := true } })

/-- VIN_OVERVOLTAGE (R528): above 5.75 V for 100 µs; again only after VIN was at or below 5.5 V for 1 s. -/
def execVinOvervoltage (mv : Half) (s : State) : Out :=
  if s.keeper.sup.vinOk && s.keeper.sup.overArmed && decide (mv.toNat > 5750) then
    .next ((s.raiseRail .vin true).updSup fun x => { x with overArmed := false, overGood := 0 })
  else unchanged s

/-- The cap of the present state in mW, none in PS3 and PS4 (R346, R461). -/
def State.capMw (s : State) : Option Nat :=
  let c := match s.keeper.sup.ps with
    | 0 => some 11000 | 1 => some 6000 | 2 => some 3500 | _ => none
  if s.keeper.sup.capHeld then some (match c with | some x => min x 3500 | none => 3500) else c

/-- One more step of R348 against the cap: VCORE of the hotter die down to 0.55 V, then the issue of CLASS 0b11 and 0b10
halved, then four contexts a lane. -/
def capStepDown (x : Supply) (hotter : DieIx) : Supply :=
  if x.vcore[hotter] > 55 then
    { x with vcore := x.vcore.set hotter (x.vcore[hotter] - 1), capSteps := CapStep.vcore hotter :: x.capSteps }
  else if !x.capSteps.contains .halve11 then { x with capSteps := .halve11 :: x.capSteps }
  else if !x.capSteps.contains .halve10 then { x with capSteps := .halve10 :: x.capSteps }
  else if !x.capSteps.contains .fourContexts then { x with capSteps := .fourContexts :: x.capSteps }
  else x

/-- Undo the latest step (R348). -/
def capStepUp (x : Supply) : Supply :=
  match x.capSteps with
  | [] => x
  | CapStep.vcore d :: r => { x with vcore := x.vcore.set d (min 85 (x.vcore[d] + 1)), capSteps := r }
  | _ :: r => { x with capSteps := r }

/-- In PS0 with no step against the cap standing, VCORE moves toward 0.85 V while the die is below 85 °C, and back to 0.75 V
otherwise (R23). -/
def vcoreDrift (v : Nat) (temp : Int) : Nat :=
  if temp < 85 then min 85 (v + 1) else if v > 75 then v - 1 else v

/-- The hotter of the two dies; D0 where both are as hot (DESIGN CHOICE, log entry 135). -/
def State.hotterDie (s : State) : DieIx := if (s.com 0).temp < (s.com 1).temp then 1 else 0

/-- POWER_CAP_AVERAGE (R23, R348): one 1 ms average; one step down above the cap, one step back after 10 ms below 90 % of it. With no step standing
VCORE moves under the cap. -/
def execPowerCapAverage (mw : Nat) (s : State) : Out :=
  if !s.keeper.sup.vinOk || s.keeper.rescue.run.isSome then .next (s.updSup fun x => { x with inputMw := min mw 0xFFFF }) else
  let s := s.updSup fun x => { x with inputMw := min mw 0xFFFF }
  match s.capMw with
  | none => .next s
  | some cap =>
    if mw > cap then .next (s.updSup fun x => { capStepDown x s.hotterDie with lowMs := 0 })
    else
      let n := if mw * 10 < cap * 9 then min 10 (s.keeper.sup.lowMs + 1) else 0
      let s := s.updSup fun x => { x with lowMs := n }
      if !s.keeper.sup.capSteps.isEmpty then .next (if n < 10 then s else s.updSup capStepUp)
      else if mw < cap ∧ s.keeper.sup.ps = 0 then
        .next (s.updSup fun x => { x with vcore := #v[vcoreDrift x.vcore[0] (s.com 0).temp, vcoreDrift x.vcore[1] (s.com 1).temp] })
      else .next s

/-- Power loss detected (R352): 361 and the rescue. -/
def State.powerLost (s : State) : State := (s.raise 361).startRescue true false false

/-- Whether a power loss can be detected now: VIN present and no rescue under way. A rescue of the safe state goes on, on the
bank, as the single rescue (R478). -/
def State.lossDetectable (s : State) : Bool := s.keeper.sup.vinOk && !s.keeper.sup.huIso

/-- A loss detected: in steps 1 to 7 of the safe state the single rescue goes over to the bank (R478); after its end nothing is
left to save. -/
def State.onLoss (s : State) : State :=
  match s.keeper.rescue.run with
  | none => if s.keeper.sup.state = .safe then s.raise 361 else s.powerLost
  | some r =>
    let iso := decide (s.power.cap ≠ 0)
    ((s.raise 361).updSup fun x => { x with huIso := iso, huChgEn := false, huTest := false }).updRescue
      fun q => { q with run := some { r with onBank := iso } }

/-- PWR_LOSS_N_ASSERT (R352): low for 1 µs. -/
def execPwrLossNAssert (s : State) : Out := if s.lossDetectable then .next s.onLoss else unchanged s

/-- VIN_BELOW_LOSS_THRESHOLD (R352): VIN-based detection, off for a nominal below 2.9 V. -/
def execVinBelowLossThreshold (s : State) : Out :=
  if s.lossDetectable && decide (s.power.loss ≠ 0) then .next s.onLoss else unchanged s

/-- RESCUE_COMPLETE (R353 steps 6 to 10, R477 steps 6 to 8). -/
def execRescueComplete (tenUs : Nat) (s : State) : Out :=
  match s.keeper.rescue.run with
  | none => unchanged s
  | some r => .next (s.finishRescue r tenUs)

/-- VIN falls away (R345, R362): both dies in reset at once, and the keeper runs from VAUX or goes dark. A rescue not complete
leaves its record started. -/
def State.vinGone (s : State) : State :=
  let s := if s.keeper.rescue.run.isSome then (s.persistWindows [0, 1]).persistJournals else s
  let s := s.resetBothDies
  let s := s.updRescue fun q => { q with run := none, isoRelease := false }
  let s := s.updFc fun f => { f with safe := false, shadow := none }
  let s := s.updSup fun x => { x with
    vinOk := false, vio18 := false, vpll := false, vphy := false, vcoreUp := #v[false, false], xtal25 := false,
    vccqOk := false, vddqOk := false, vdd2hOk := false, regulatorFault := false, capHeld := false, capSteps := [],
    huIso := false, huChgEn := false, huTest := false, state := .carapace, inputMw := 0 }
  let s := s.updHu fun h => { h with phase := .idle, charge := .off }
  let s := (s.updCommon 0 fun c => { c with shadows := [], outOfService := false }).updCommon 1 fun c => { c with shadows := [], outOfService := false }
  let s := { (s.updStore fun x => { x with ready := false, seq := none, waiting := [], prog := none, erase := none, margin := 0, hashPort := false, readWaits := #v[0, 0] }) with bridgeUp := false }
  if s.keeper.sup.vauxOk then s.updTk fun t => { t with kept := t.kept && s.keeper.sup.xtal32k } else s.keeperDark

/-- VIN_FALL (R345). -/
def execVinFall (s : State) : Out := if s.keeper.sup.vinOk then .next s.vinGone else unchanged s

/-- HU_ISO_RELEASE (R353, R478): 50 ms after step 10 the keeper lowers HU_ISO; with the input present the package starts as after any
power loss, or stays in the safe state; with it absent VIN falls away. -/
def execHuIsoRelease (inputPresent : Bool) (s : State) : Out :=
  if !s.keeper.rescue.isoRelease then unchanged s else
  let s := (s.updSup fun x => { x with huIso := false }).updRescue fun q => { q with isoRelease := false }
  .next (if !inputPresent then s.vinGone else if s.keeper.fc.safe then s else s.beginStart)

/-- VIN_BELOW_WARNING (R352). -/
def execVinBelowWarning (mv : Half) (s : State) : Out :=
  if s.keeper.sup.vinOk && s.keeper.sup.warnArmed && decide (s.power.warn ≠ 0) && decide (mv.toNat < s.power.warn) then
    .next ((s.raise 360).updSup fun x => { x with warnArmed := false, warnGood := 0 })
  else unchanged s

/-- A measurement starts (R359 step 1): both window limits 0. Ignored with no bank declared and while one runs. -/
def State.startMeasure (s : State) : State :=
  if s.power.cap = 0 || s.keeper.hu.phase != .idle || !s.keeper.sup.vinOk || s.keeper.rescue.run.isSome then s else
  s.updHu fun h => { h with phase := .draining, mode := if h.mode = .window then .closedForMeasure else h.mode,
                            cap := s.power.cap, target := s.power.target, testLoad := s.power.testLoad }

/-- KPR_CTRL.HU_MEASURE (R359, R367). -/
def execKprCtrlHuMeasure (s : State) : Out := .next s.startMeasure

/-- MEASUREMENT_INTERVAL_EXPIRY (R359). -/
def execMeasurementIntervalExpiry (s : State) : Out := .next s.startMeasure

/-- HOLDUP_WINDOWS_EMPTY (R359 step 2): HU_CHG_EN falls once both windows are empty. -/
def execHoldupWindowsEmpty (s : State) : Out :=
  if s.keeper.hu.phase = .draining ∧ s.windowKib = 0 then
    .next ((s.updSup fun x => { x with huChgEn := false }).updHu fun h => { h with phase := .settling, charge := .off })
  else unchanged s

/-- Any of the cases of R360: the window limits stay 0 and both dies complete in write-through (R283). -/
def degradeBank (h : HoldUp) : HoldUp := { h with degraded := true, lastPass := false, mode := .writeThrough }

/-- Step 5 of R359: the bank charges again. -/
def State.rechargeBank (s : State) : State :=
  (s.updSup fun x => { x with huChgEn := true, huTest := false }).updHu fun h => { h with phase := .recharging, charge := .charging }

/-- A failed measurement (R359 step 3): capacitance 0, sources 366 and 365. -/
def State.measureFailed (s : State) : State :=
  let s := (s.raise 366).raise 365
  (s.updHu fun h => degradeBank { h with measured := 0, usable := 0, measurements := h.measurements + 1, failed := h.failed + 1 }).rechargeBank

/-- HOLDUP_SETTLE_EXPIRY (R359 steps 2 and 3): V1 is read; more than 1 % from the charge target fails the measurement. -/
def execHoldupSettleExpiry (v1 : Nat) (s : State) : Out :=
  if s.keeper.hu.phase = .settling then
    let s := s.updHu fun h => { h with bankMv := min v1 0xFFFF }
    if 100 * v1 > 101 * s.keeper.hu.target ∨ 100 * v1 < 99 * s.keeper.hu.target then .next s.measureFailed
    else .next ((s.updSup fun x => { x with huTest := true }).updHu fun h => { h with phase := .discharging v1 })
  else unchanged s

/-- C = t ÷ (test load × ln(V1 ÷ V2)) with V2 = 0.945 V1 (R359 step 4), in 0.1 mF, for t in µs and the load in 0.1 Ω. The
logarithm of 1 ÷ 0.945 stands as 0.0565703 and the result is rounded down (DESIGN CHOICE, log entry 8). -/
def bankCapacitance (us testLoad : Nat) : Nat := us * 1000000 / (testLoad * 565703)

/-- HOLDUP_DISCHARGE_CROSSING (R359 step 4, R360): the capacitance is computed and judged. -/
def execHoldupDischargeCrossing (us : Nat) (s : State) : Out :=
  match s.keeper.hu.phase with
  | .discharging _ =>
    let h := s.keeper.hu
    let c := bankCapacitance us h.testLoad
    let low := decide (10 * c < 9 * h.cap)
    let weak := !energyHolds c h.target s.power.rescueP (windowBytes s.power)
    let s := if low then s.raise 366 else s
    let s := if weak then s.raise 365 else s
    let s := s.updHu fun h =>
      let h := { h with measured := min c 0xFFFF, usable := min (usableMj c h.target) 0xFFFF, measurements := h.measurements + 1 }
      if low || weak then degradeBank { h with failed := h.failed + 1 }
      else { h with degraded := false, lastPass := true, mode := if h.mode = .closedAtStart then .closedAtStart else .closedForMeasure }
    .next s.rechargeBank
  | _ => unchanged s

/-- HOLDUP_DISCHARGE_TIMEOUT (R359 step 3): not below V2 after 30 s. -/
def execHoldupDischargeTimeout (s : State) : Out :=
  match s.keeper.hu.phase with
  | .discharging _ => .next s.measureFailed
  | _ => unchanged s

/-- HOLDUP_RECHARGED (R359 step 5, R361): within 1 % of the target the window limits return, unless R360 holds them at 0. -/
def execHoldupRecharged (mv : Nat) (s : State) : Out :=
  if s.keeper.hu.phase = .recharging ∧ 100 * mv ≥ 99 * s.keeper.hu.target ∧ 100 * mv ≤ 101 * s.keeper.hu.target then
    .next (s.updHu fun h => { h with phase := .idle, charge := .atTarget, bankMv := min mv 0xFFFF,
                                     mode := if h.degraded then .writeThrough else .window })
  else unchanged s

/-- HOLDUP_CHARGE_TIMEOUT (R360): a declared bank has not reached its target in time. -/
def execHoldupChargeTimeout (s : State) : Out :=
  if s.power.cap ≠ 0 ∧ s.keeper.hu.charge = .charging then
    .next ((s.raise 365).updHu fun h => degradeBank { h with charge := .timeout, phase := .idle })
  else unchanged s

/-- VAUX_LOST (R362): with VIN present 367 at once; with VIN absent the keeper goes dark. Absent by declaration, VAUX raises
nothing. -/
def execVauxLost (s : State) : Out :=
  if !s.keeper.sup.vauxOk then unchanged s else
  let s := s.updSup fun x => { x with vauxOk := false }
  .next (if !s.keeper.sup.vinOk then s.keeperDark else if s.power.vauxPresent then s.raise 367 else s)

/-- VAUX_RISE (R362): with VIN absent the keeper powers up into the Carapace-only state, on XTAL32K. -/
def execVauxRise (s : State) : Out :=
  if s.keeper.sup.vauxOk then unchanged s else
  let s := s.updSup fun x => { x with vauxOk := true }
  .next (if s.keeper.sup.vinOk then s
    else ((s.updSup fun x => { x with vkeep := true, xtal32k := true, xtal25 := false, state := .carapace }).updFc fun f => { f with selfOk := true }).updMp
      fun m => { m with inService := true })

/-- THERMISTOR_FAULT (R366): a fitted input reads open or shorted for 10 s. Unfitted inputs raise no fault (R404). -/
def execThermistorFault (n : Fin 4) (shorted : Bool) (s : State) : Out :=
  let fitted := match s.recs? with
    | some r => (r.thermal.map fun t => t.present.getLsbD n.val).getD false
    | none => false
  if fitted && s.keeper.sup.vinOk then
    .next ((s.updSup fun x => { x with adc := x.adc.set (8 + n.val) { x.adc[8 + n.val] with below := !shorted, above := shorted } }).raise (368 + n.val))
  else unchanged s

/-- KEEPER_TEMPERATURE_CRITICAL (R366, R461): above 125 °C; 372 and the safe state. -/
def execKeeperTemperatureCritical (t : Int) (s : State) : Out :=
  if t > 125 ∧ s.keeper.sup.vinOk then .next ((s.raise 372).enterSafe) else unchanged s

/-- A sample's effect beyond its register: rail windows, the bank's voltage and the timers of R352 and R528 that count VIN samples
(10,000 samples of 100 µs are 1 s). -/
def sampleEffect (x : Supply) (warn : Nat) (o : AdcSampleOp) : Supply :=
  let ok := !o.below && !o.above
  match o.channel.val with
  | 0 =>
    let v := o.value.toNat
    let wg := if v ≥ warn then x.warnGood + 1 else 0
    let og := if v ≤ 5500 then x.overGood + 1 else 0
    { x with warnGood := min wg 10000, overGood := min og 10000, warnArmed := x.warnArmed || decide (wg ≥ 10000),
             overArmed := x.overArmed || decide (og ≥ 10000) }
  | 2 => { x with vauxOk := if o.value.toNat > 3600 then false else x.vauxOk || decide (2500 ≤ o.value.toNat) }
  | 3 => { x with vccqOk := ok }
  | 4 => { x with vddqOk := ok }
  | 5 => { x with vdd2hOk := ok }
  | _ => x

/-- ADC_SAMPLE (R78, R368). A bank that reaches its charge target at a start is then measured (R359, R361). -/
def execAdcSample (o : AdcSampleOp) (s : State) : Out :=
  if !s.keeper.sup.vkeep && !s.keeper.sup.vinOk then unchanged s else
  let warn := s.power.warn
  let s := s.updSup fun x => sampleEffect { x with adc := x.adc.set o.channel { valid := true, below := o.below, above := o.above, value := o.value } } warn o
  let s := if 8 ≤ o.channel.val then s.refreshMedia else s
  if o.channel.val = 1 then
    let mv := o.value.toNat
    let s := s.updHu fun h => { h with bankMv := mv }
    if s.keeper.hu.charge = .charging ∧ s.keeper.hu.phase = .idle ∧ 100 * mv ≥ 99 * s.power.target then
      .next ((s.updHu fun h => { h with charge := .atTarget }).startMeasure)
    else .next s
  else .next s

end Sys2Proof.Machine
end

