-- ==== Sys2Proof/Types/Regs.lean ====
section
/-! DEFINITION. The register blocks of management space (R492). -/

namespace Sys2Proof

/-- A block of management space: those of the keeper die, the store die's controller and array window, the services of a die, and the blocks
of its regions, clusters and lanes. -/
inductive RegBlock where
  | power | adc | fc | ev | tk | prot | mp
  | store | array
  | host (d : DieIx) | mem (d : DieIx) | pool (d : DieIx) | cipher (d : DieIx) | swarm (d : DieIx) | common (d : DieIx)
  | region (g : RegionIx) | cluster (c : ClusterIx) | lane (l : LaneIx)
  deriving DecidableEq, Repr

end Sys2Proof
end

