-- ==== Sys2Proof/Machine/Regs.lean ====
section
/-! DEFINITION. Management space: the layout, the value of every register, writes by access code, and the vendor commands that read and write
it (R3, R11, R12, R64, R96, R121, R152, R276, R303, R324, R325, R341, R367, R368, R383, R388, R421, R440, R460, R481, R482, R491 to R495). -/

namespace Sys2Proof.Machine

/-! The layout. -/

/-- A block inside a region's 16 MiB (R3, R121, R152). -/
def regionBlockAt (g : RegionIx) (o : Nat) : Option (RegBlock × Nat) :=
  if o < 0x100000 then some (.region g, o)
  else match clusterIx? (3 * g.val + (o / 0x100000 - 1)) with
    | none => none
    | some c =>
      if 0x400000 ≤ o then none else
      match o % 0x100000 / 0x10000 with
      | 0 => some (.cluster c, o % 0x10000)
      | 1 => (laneIx? (2 * c.val)).map fun l => (.lane l, o % 0x10000)
      | 2 => (laneIx? (2 * c.val + 1)).map fun l => (.lane l, o % 0x10000)
      | _ => none

/-- A block inside a die's space (R492). -/
def dieBlockAt (d : DieIx) (o : Nat) : Option (RegBlock × Nat) :=
  let x := o % 0x10000
  match o / 0x10000 with
  | 0 => some (.host d, x)
  | 1 => some (.mem d, x)
  | 2 => some (.pool d, x)
  | 3 => some (.cipher d, x)
  | 4 => some (.swarm d, x)
  | 5 => some (.common d, x)
  | _ =>
    if o < 0x1000000 ∨ 0x3000000 ≤ o then none
    else match regionIx? (2 * d.val + (o / 0x1000000 - 1)) with
      | some g => regionBlockAt g (o % 0x1000000)
      | none => none

/-- The block that lists an address, and the offset in it (R492). -/
def blockAt (a : Nat) : Option (RegBlock × Nat) :=
  if a < 0x7000 then
    let x := a % 0x1000
    match a / 0x1000 with
    | 0 => some (.power, x)
    | 1 => some (.adc, x)
    | 2 => some (.fc, x)
    | 3 => some (.ev, x)
    | 4 => some (.tk, x)
    | 5 => some (.prot, x)
    | _ => some (.mp, x)
  else if 0x10000 ≤ a ∧ a < 0x20000 then some (.store, a - 0x10000)
  else if 0x1000000 ≤ a ∧ a < 0x9000000 then some (.array, a - 0x1000000)
  else match a / 0x10000000 with
    | 1 => dieBlockAt 0 (a % 0x10000000)
    | 2 => dieBlockAt 1 (a % 0x10000000)
    | _ => none

/-- The blocks of the keeper die, which answer whenever the keeper runs. -/
def keeperBlock : RegBlock → Bool
  | .power | .adc | .fc | .ev | .tk | .prot | .mp => true
  | _ => false

/-! Values. -/

/-- A field of a register: its value at its lowest bit, held to its width. -/
def at_ (lo width val : Nat) : Nat := min val (2 ^ width - 1) * 2 ^ lo
/-- A wrapping field: the low bits of a value. -/
def atLow (lo width val : Nat) : Nat := val % 2 ^ width * 2 ^ lo
/-- A signed °C field. -/
def atC (lo : Nat) (t : Int) : Nat := (t % 256).toNat * 2 ^ lo
def wordOf (n : Nat) : Word := BitVec.ofNat 32 n

/-- IRQ at 0x004 and IRQ_EN at 0x008 of every block. -/
def Irq.read (x : Irq) (o : Nat) : Word := if o = 4 then x.pend else x.en

/-- KPR_STATUS.STATE (R367). -/
def pkgStateCode : PkgState → Nat
  | .carapace => 0 | .starting => 1 | .lit => 2 | .rescue => 3 | .diapauseReady => 4 | .safe => 5
/-- KPR_HU_STATUS.CHARGE (R367). -/
def chargeCode : HuCharge → Nat
  | .off => 0 | .charging => 1 | .atTarget => 2 | .timeout => 3
/-- KPR_BOOT.STAGE (R388). -/
def stageCode : BootStage → Nat
  | .inReset => 0 | .bootWindow => 1 | .slotCheck => 2 | .optionArea => 3 | .cores => 4 | .patchesKeys => 5 | .memoryLanes => 6
  | .restore => 7 | .serving => 8 | .unconfigured => 9 | .recovery => 14 | .heldInReset => 15
/-- STO_CMD.RESULT (R440). -/
def storeResultCode : StoResult → Nat
  | .completed => 0 | .running => 1 | .busy => 2 | .bitRise => 3 | .readOnly => 4 | .targetErasing => 5 | .suspendDenied => 6
  | .abandoned => 7 | .programFail => 8 | .eraseFail => 9 | .badOperand => 10
/-- STO_CMD.REQUESTER (R440). -/
def requesterCode : Requester → Nat
  | .bootRom => 0 | .mainFirmware => 1 | .keeper => 2 | .management => 3
/-- BPM_FAULT_INFO.REQUESTER (R324). -/
def poolUserCode : PoolUser → Nat
  | .hostPort => 0 | .lane => 1 | .cluster => 2 | .region => 3 | .cipher => 4 | .swarmPort => 5 | .core => 6
/-- LNE_TRAIN.LAST_CAUSE (R64). -/
def trainCauseCode : TrainCause → Nat
  | .startOrTrain => 0 | .temperature => 1 | .errorRate => 2 | .request => 3

/-- Every monitored rail within its window (R344). -/
def State.railsOk (s : State) : Bool :=
  s.keeper.sup.vccqOk && s.keeper.sup.vddqOk && s.keeper.sup.vdd2hOk && !(s.com 0).vcoreBad && !(s.com 1).vcoreBad

/-- The power block (R367). -/
def State.readPower (s : State) (o : Nat) : Nat :=
  let p := s.keeper.sup
  let h := s.keeper.hu
  let r := s.keeper.rescue
  match o with
  | 0x00 => bitIf p.vinOk 31 + bitIf p.vauxOk 30 + bitIf p.huIso 29 + bitIf s.railsOk 28 + at_ 25 3 (pkgStateCode p.state) + at_ 22 3 p.ps
  | 0x14 => at_ 30 2 (huModeCode h.mode) + at_ 28 2 (chargeCode h.charge) + bitIf p.huTest 27 + bitIf h.lastPass 26 + at_ 0 16 h.bankMv
  | 0x18 => at_ 16 16 h.measured + at_ 0 16 s.power.cap
  | 0x1C => at_ 16 16 h.usable + at_ 0 16 (requiredMj s.power.rescueP (windowBytes s.power))
  | 0x20 => at_ 30 2 r.last.toNat + at_ 16 14 r.duration + at_ 0 16 r.windowKib
  | 0x24 => at_ 16 8 p.vcore[1] + at_ 0 8 p.vcore[0]
  | 0x28 => at_ 16 16 (s.capMw.getD 0xFFFF) + at_ 0 16 p.inputMw
  | _ => 0

/-- KPR_ADCn (R368). -/
def State.readAdc (s : State) (o : Nat) : Nat :=
  if h : 0x100 ≤ o ∧ o % 4 = 0 ∧ (o - 0x100) / 4 < 13 then
    let c := s.keeper.sup.adc[(o - 0x100) / 4]'h.2.2
    bitIf c.valid 31 + bitIf c.below 30 + bitIf c.above 29 + c.value.toNat
  else 0

/-- The fault collector (R463, R479, R481). -/
def State.readFc (s : State) (o : Nat) : Nat :=
  let f := s.keeper.fc
  match o with
  | 0x00 => bitIf f.safe 31 + bitIf f.selfOk 30 + bitIf s.faultNLow 29 + at_ 25 4 s.shadows.length + at_ 0 10 s.pendingCount
  | 0x10 => match f.latch with
    | none => 0
    | some r => 2 ^ 31 + bitIf f.overflow 30 + at_ 28 2 (classCode r.cls) + bitIf r.injected 27 + at_ 18 9 (f.second.getD 0) + at_ 0 9 r.source
  | 0x14 => (f.latch.map fun r => r.data0.toNat).getD 0
  | 0x18 => (f.latch.map fun r => r.opsec.toNat % 2 ^ 32).getD 0
  | 0x1C => (f.latch.map fun r => r.pcycles.toNat * 256 + r.opsec.toNat / 2 ^ 32).getD 0
  | 0xF0 => if s.factoryMode then f.injectSource.toNat else 0
  | 0xF4 => if s.factoryMode then f.injectData.toNat else 0
  | _ => if 0x40 ≤ o ∧ o < 0x80 then f.pend.toNat / 2 ^ (8 * (o - 0x40)) % 2 ^ 32 else 0

/-- The event buffer (R482). -/
def State.readEv (s : State) (o : Nat) : Nat :=
  let e := s.keeper.ev
  match o with
  | 0x00 => bitIf (e.located && !e.full) 31 + bitIf e.flushing 30 + bitIf e.full 29 + at_ 0 7 e.buf.length
  | 0x14 => at_ 0 21 e.log.length
  | 0x18 => at_ 0 32 e.lost
  | 0x1C => at_ 0 16 e.skipped
  | _ => 0

/-- Timekeeping (R96). -/
def State.readTk (s : State) (o : Nat) : Nat :=
  let t := s.keeper.tk
  let acc (k : Fin 4) (hi : Bool) : Nat := if hi then t.acc[k] / 2 ^ 32 % 2 ^ 32 else t.acc[k] % 2 ^ 32
  match o with
  | 0x10 => t.opsec.toNat % 2 ^ 32
  | 0x14 => at_ 8 24 t.pcycles + t.opsec.toNat / 2 ^ 32
  | 0x18 => t.wallMs % 2 ^ 32
  | 0x1C => bitIf t.wallValid 31 + bitIf t.wallSet 30 + atLow 0 16 (t.wallMs / 2 ^ 32)
  | 0x20 => atC 24 t.mediaTemp + at_ 20 4 t.mediaSrc + ((List.finRange 4).map fun n => bitIf (s.thValid n) (16 + n.val)).sum
  | 0x24 => bitIf t.gapPending 31 + bitIf t.gapApplied 30 + bitIf t.gapNegative 29 + bitIf t.gapNoRef 28 + at_ 0 28 t.gapHours
  | 0x30 => acc 0 false
  | 0x34 => acc 0 true
  | 0x38 => acc 1 false
  | 0x3C => acc 1 true
  | 0x40 => acc 2 false
  | 0x44 => acc 2 true
  | 0x48 => acc 3 false
  | 0x4C => acc 3 true
  | 0x50 => at_ 0 16 ((s.eaOf 0).getD 0)
  | 0x54 => at_ 0 16 ((s.eaOf 1).getD 0)
  | 0x58 => at_ 0 16 ((s.eaOf 2).getD 0)
  | 0x5C => at_ 0 16 ((s.eaOf 3).getD 0)
  | _ => 0

/-- Word k of a hash of 48 bytes: bytes 4k to 4k + 3, little-endian (R421). -/
def hashWord (h : BitVec 384) (k : Nat) : Nat := h.toNat / 2 ^ (32 * k) % 2 ^ 32

/-- The mirror of the protection set from its offset 0 (R420, R421). -/
def ProtSet.read (p : ProtSet) (o : Nat) : Nat :=
  match o with
  | 0x00 => p.magic.toNat
  | 0x04 => p.format.toNat
  | 0x08 => p.generation.toNat % 2 ^ 32
  | 0x0C => p.generation.toNat / 2 ^ 32
  | 0x10 => p.keyFuse.toNat
  | 0x14 => bitIf p.storeWriteLock 0
  | 0x18 => p.fwArb.toNat
  | 0x1C => p.patchArb.toNat
  | _ =>
    if o % 4 ≠ 0 then 0
    else if 0x20 ≤ o ∧ o < 0x50 then hashWord p.authHash ((o - 0x20) / 4)
    else if 0x50 ≤ o ∧ o < 0x80 then hashWord p.signHash ((o - 0x50) / 4)
    else if h : 0x80 ≤ o ∧ (o - 0x80) / 8 < 8 then
      let x := p.xo[(o - 0x80) / 8]'h.2
      if o % 8 = 0 then bitIf x.en 31 + bitIf x.hashPort 30 + x.first.toNat else x.count.toNat
    else 0

/-- The protection mirror block (R388, R421). -/
def State.readProt (s : State) (o : Nat) : Nat :=
  let b := s.keeper.boot
  match o with
  | 0x00 => bitIf b.byKeeper 1 + bitIf b.lock 0
  | 0x04 => at_ 30 2 b.mode.toNat + at_ 26 4 (stageCode b.stage) + at_ 24 2 b.active.toNat + bitIf b.fallback 23 + bitIf b.unconfigured 22 +
      bitIf b.protCopy 21 + bitIf b.protRepaired 20 + at_ 8 8 b.slotId.toNat + at_ 0 8 b.starts
  | 0x08 => at_ 16 16 b.fetchMs + at_ 0 16 b.lockMs
  | 0x0C => at_ 28 4 b.failCause.toNat + at_ 26 2 b.failSlot.toNat
  | _ => if 0x100 ≤ o ∧ o < 0x200 then s.keeper.prot.read (o - 0x100) else 0

/-- The management port block (R495). -/
def State.readMp (s : State) (o : Nat) : Nat :=
  let m := s.keeper.mp
  match o with
  | 0x00 => bitIf m.inService 31 + at_ 29 2 m.speed.toNat + bitIf m.eidValid 28 + at_ 20 8 m.eid.toNat + at_ 13 7 m.addr.toNat +
      bitIf m.writePermitted 12 + at_ 0 12 m.refused
  | _ => 0

/-- The sector with the highest erase counter, the lowest number on a tie, and its counter (R440). -/
def Store.wear (x : Store) : Nat × Nat :=
  x.rows.foldl (fun (a : Nat × Nat) (r : SectorRow) => if a.2 < r.counter then (r.sector, r.counter) else a) (0, 0)

/-- A program or an unsuspended erase runs in a bank. -/
def Store.bankBusy (x : Store) (b : Fin 2) : Bool :=
  (match x.prog with | some p => sectorBank (sectorOf p.offset) == b | none => false) ||
  (match x.erase with | some e => e.susp == .running && sectorBank (e.sectors.headD 0) == b | none => false)

/-- The store die controller (R440). -/
def State.readStore (s : State) (o : Nat) : Nat :=
  let x := s.store
  match o with
  | 0x00 =>
    let susp := match x.erase with | some e => e.susp != .running | none => false
    let expl := match x.erase with | some e => e.susp == .explicit | none => false
    bitIf x.ready 31 + bitIf (x.bankBusy 0) 30 + bitIf (x.bankBusy 1) 29 + bitIf susp 28 + bitIf expl 27 + at_ 25 2 x.margin +
      bitIf x.seq.isSome 24 + bitIf x.hashPort 23 + at_ 0 16 ((x.erase.map (·.runTime)).getD 0)
  | 0x10 => at_ 24 8 x.cmdCode.toNat + at_ 20 4 (storeResultCode x.cmdResult) + at_ 8 11 x.cmdSector + at_ 4 4 (requesterCode x.cmdRequester) +
      at_ 0 4 x.cmdCount
  | 0x14 => x.result.toNat
  | 0x18 => at_ 21 11 x.wear.1 + at_ 0 21 x.wear.2
  | 0x1C => at_ 16 16 x.intentFound + at_ 0 16 x.intentPending.length
  | 0x20 => at_ 16 8 x.ckptHead + at_ 8 8 x.ckptTail + at_ 0 8 x.ckptErased
  | 0x24 => at_ 28 4 x.faultCause + at_ 16 11 x.faultSector + at_ 0 16 x.faultCount
  | _ => 0

/-- The host port (R303). -/
def State.readHost (s : State) (d : DieIx) (o : Nat) : Nat :=
  let h := s.dies[d].host
  match o with
  | 0x0 => bitIf (h.enabled && h.ready) 31 + at_ 28 3 h.speed + at_ 26 2 h.width + bitIf (!s.ackOpen) 25 + bitIf h.paused 24 +
      at_ 21 3 s.keeper.sup.ps + at_ 10 11 h.slots.length
  | 0xC => at_ 16 13 (s.winLimit d) + at_ 0 13 (s.winUsed d)
  | _ => 0

/-- The memory controller (R325). -/
def State.readMem (s : State) (d : DieIx) (o : Nat) : Nat :=
  let m := s.dies[d].mem
  match o with
  | 0x00 => bitIf m.inService 31 + at_ 29 2 ((m.rate.map (·.val)).getD 3) + at_ 23 6 (m.capacity / 2 ^ 30) + bitIf s.selfRefresh 22 + bitIf m.filling 21 +
      bitIf m.checkerFail 20 + at_ 8 8 m.retrains + atC 0 m.lastTemp
  | 0x14 => at_ 16 16 m.ceDram + at_ 0 16 m.ceSram
  | 0x18 => at_ 16 16 m.ueDram + at_ 0 16 m.ueSram
  | 0x1C => at_ 16 8 m.linesLeft + at_ 0 9 m.rowsLeft.toList.sum
  | 0x20 => bitIf m.test.en 31 + bitIf m.test.target 30 + bitIf m.test.resultCe 29 + bitIf m.test.resultUe 28 + at_ 8 8 m.test.check.toNat +
      at_ 0 8 m.test.flip.toNat
  | _ => 0

/-- The buffer pool (R324). -/
def State.readPool (s : State) (d : DieIx) (o : Nat) : Nat :=
  let p := s.dies[d].pool
  let waits (c : PoolClass) (n : Nat) : Nat := bitIf (p.waiting.any fun r => r.cls == c) n
  match o with
  | 0x00 => bitIf p.inService 31 + waits .c0 27 + waits .c1 28 + waits .c2 29 + waits .c3 30 + waits .dram 26 +
      at_ 16 10 (p.bufs.filter (·.pinned)).length + at_ 0 16 p.zeroing.length
  | 0x10 => at_ 16 10 (s.freeCount d .c1) + at_ 0 13 (s.freeCount d .c0)
  | 0x14 => at_ 16 4 (s.freeCount d .c3) + at_ 0 7 (s.freeCount d .c2)
  | 0x18 => at_ 16 12 s.foldBuffers + at_ 0 12 (s.freeCount d .dram)
  | 0x1C => (p.fault.map fun f => f.1.toNat).getD 0
  | 0x20 => at_ 28 4 ((p.fault.map fun f => f.2.1).getD 0) + at_ 24 4 ((p.fault.map fun f => poolUserCode f.2.2).getD 0) + at_ 16 8 p.faultCount +
      at_ 0 16 p.refFaults
  | _ => 0

/-- The cipher (R341). -/
def State.readCipher (s : State) (d : DieIx) (o : Nat) : Nat :=
  let c := s.dies[d].cipher
  let f := filledBits c.slots
  match o with
  | 0x00 => bitIf c.inService 31 + bitIf c.locked 30 + bitIf c.drbgFail 29 + bitIf s.cipherErasing 28 +
      at_ 0 8 ((c.slots.toList.take 32).filter (·.isSome)).length
  | 0x14 => f % 2 ^ 32
  | 0x18 => f / 2 ^ 32
  | 0x1C => c.kekId.toNat
  | 0x20 => c.gen.toNat % 2 ^ 32
  | 0x24 => at_ 28 4 ((c.refuse.map (·.1)).getD 0) + at_ 24 4 ((c.refuse.map fun r => poolUserCode r.2).getD 0) + at_ 16 8 c.refuseCount +
      at_ 0 16 c.unwrapFails
  | _ => 0

/-- The swarm port (R276). -/
def State.readSwarm (s : State) (d : DieIx) (o : Nat) : Nat :=
  let w := s.swarm
  let p := w.ports[d]
  match o with
  | 0x00 => bitIf p.inService 31 + at_ 29 2 p.speed + bitIf w.fenced 28 + bitIf (match w.adopted with | some a => !a.2 | none => false) 27 +
      bitIf (decide (0 < s.tasksLeft)) 26 + bitIf w.leadClosed 25 + bitIf w.parityLow 24 + at_ 0 16 s.ownLight.length
  | 0x14 => at_ 0 32 s.epoch
  | 0x18 => at_ 16 13 s.peersLit + at_ 0 13 w.sessions.length
  | 0x1C => at_ 0 32 p.retx
  | 0x20 => at_ 24 8 p.rejAuth + at_ 16 8 p.rejReplay + at_ 0 16 p.rejOther
  | _ => 0

/-- The die common block (R460). -/
def State.readCommon (s : State) (d : DieIx) (o : Nat) : Nat :=
  let c := s.com d
  match o with
  | 0x0 => bitIf c.inService 31 + bitIf s.bridgeUp 30 + bitIf c.tokensPaused 29 + at_ 26 3 c.shadows.length + atC 18 c.temp + at_ 10 8 c.vcoreMeas
  | _ => 0

/-- A region (R152). -/
def State.readRegion (s : State) (g : RegionIx) (o : Nat) : Nat :=
  let r := s.regions[g]
  match o with
  | 0x00 => bitIf r.inService 31 + bitIf r.tab.readOnly.isSome 30 + bitIf r.adopting 29 + bitIf r.restoring 28 + bitIf r.journal.singleCopy 27 +
      at_ 16 8 (r.tab.bands.filter fun b => b.phase == .opened).length + at_ 0 10 r.lookups
  | 0x14 => at_ 16 16 r.resident.length + at_ 0 16 r.segments.length
  | 0x18 => at_ 22 10 r.journal.tail.length + at_ 0 22 r.journal.retained.length
  | 0x1C => at_ 16 16 r.integrity + at_ 8 8 r.repaired + at_ 0 8 r.poisonedCnt
  | 0x20 => r.journal.next % 2 ^ 32
  | 0x24 => atLow 0 8 (r.journal.next / 2 ^ 32)
  | 0x28 => r.tab.nextSeq % 2 ^ 32
  | 0x2C => r.tab.nextSeq / 2 ^ 32 % 2 ^ 32
  | 0x30 => r.queryLo.toNat
  | 0x34 => r.queryHi.toNat
  | 0x38 => r.result.1.toNat
  | 0x3C => r.result.2.toNat
  | _ => 0

/-- All hard engines of a cluster, or its soft one, are retired: its frames are routed (R107). -/
def routed (x : ClusterSt) : Bool := !(engineOk x 4) || !(engineOk x 0 || engineOk x 1 || engineOk x 2 || engineOk x 3)

/-- A cluster (R121). -/
def State.readCluster (s : State) (c : ClusterIx) (o : Nat) : Nat :=
  let x := s.clusters[c]
  match o with
  | 0x00 => bitIf x.inService 31 + bitIf (routed x) 30 + ((List.finRange 4).map fun n => bitIf (engineOk x ⟨n.val, by omega⟩) (26 + n.val)).sum +
      bitIf (engineOk x 4) 25 + bitIf x.antenna.isSome 24 + at_ 16 8 x.antPending.length + at_ 0 16 x.queue.length
  | 0x14 => at_ 28 4 ((x.decFault.map fun f => f.1.val).getD 0) + at_ 24 4 ((x.decFault.map (·.2)).getD 0) + at_ 16 8 x.decFaultCount
  | 0x18 => at_ 16 16 x.accCorrected + at_ 8 8 x.accUncorr +
      at_ 0 8 ((x.accRows.map (·.band)).eraseDups).length
  | 0x1C => at_ 0 32 x.crcCnt
  | _ => if h : 0x30 ≤ o ∧ o % 4 = 0 ∧ (o - 0x30) / 4 < 7 then at_ 0 32 (x.stepCnt[(o - 0x30) / 4]'h.2.2) else 0

/-- A lane (R64). -/
def State.readLane (s : State) (l : LaneIx) (o : Nat) : Nat :=
  let x := s.lanes[l]
  match o with
  | 0x00 => bitIf x.quarantined 31 + bitIf x.inService 30 + at_ 28 2 x.iface.toNat + at_ 26 2 ((x.train.rate.map (·.val)).getD 3) +
      bitIf x.crossing.clockOn 25 + bitIf x.train.running 24 + at_ 16 8 (x.erases.filter fun r => r.phase == .suspended).length +
      ((List.finRange 8).map fun c => bitIf (x.ctxs[c]).isSome (8 + c.val)).sum + bitIf x.patch.active 7
  | 0x14 => at_ 15 5 (16 - slotsUsed x.queue .critical) + at_ 9 6 (32 - slotsUsed x.queue .read) + at_ 0 9 x.queue.length
  | 0x18 => at_ 24 8 x.suspLimit + at_ 12 12 x.minRun + at_ 0 12 x.maxSusp
  | 0x20 => atC 24 x.train.lastTemp + at_ 16 8 x.train.count + at_ 14 2 (trainCauseCode x.train.lastCause) + bitIf x.train.lastFail 13
  | 0x24 => at_ 24 8 x.err.prog + at_ 16 8 x.err.erase + at_ 8 8 x.err.timeout + at_ 0 8 x.err.pending
  | 0x30 => bitIf x.patch.active 31 + bitIf x.patch.rejected 30 + at_ 0 8 x.patch.patchId.toNat
  | 0x34 => match x.ucodeFault with
    | some f => at_ 28 4 f.cause.toNat + at_ 25 3 f.ctx.val + f.addr.toNat
    | none => 0
  | _ => if h : 0x40 ≤ o ∧ o % 4 = 0 ∧ (o - 0x40) / 4 < 32 then
      (x.patch.redirect[(o - 0x40) / 4]'h.2.2).toNat &&& 0x807FFFFF
    else 0

/-- IRQ and IRQ_EN of a block, and the mask of its EVENT field. -/
def State.irqOf (s : State) : RegBlock → Option (Irq × Word)
  | .power => some (s.keeper.sup.irq, 0xFFFFFF)
  | .fc => some (s.keeper.fc.irq, 0x7)
  | .ev => some (s.keeper.ev.irq, 0x3)
  | .mp => some (s.keeper.mp.irq, 0x3)
  | .store => some (s.store.irq, 0x7FF)
  | .host d => some (s.dies[d].hstIrq, 0x3FFFFF)
  | .mem d => some (s.dies[d].memIrq, 0x3F)
  | .pool d => some (s.dies[d].bpmIrq, 0x7)
  | .cipher d => some (s.dies[d].cphIrq, 0x7)
  | .swarm d => some (s.dies[d].swmIrq, 0x3FFFFF)
  | .common d => some ((s.com d).irq, 0xFFFFFFF)
  | .region g => some ((s.regions[g]).irq, 0xFF)
  | .cluster c => some ((s.clusters[c]).irq, 0x3F)
  | .lane l => some ((s.lanes[l]).irq, 0xFF)
  | .adc | .tk | .prot | .array => none

/-- Blocks whose events reach the firmware core of a die: those of the keeper and the store, the die's own, and its regions, clusters and lanes (R63, R119,
R151). -/
def coreBlocks (d : DieIx) : List RegBlock :=
  [.power, .fc, .ev, .mp, .store, .host d, .mem d, .pool d, .cipher d, .swarm d, .common d] ++ (regionsOfDie d).map .region ++
    (((List.finRange 12).filter fun c => dieOfCluster c == d).map .cluster) ++ (lanesOfDie d).map .lane

/-- The interrupt to the firmware core of a die: an event is pending in one of its blocks, and enabled there (R63). -/
def State.coreIrq (s : State) (d : DieIx) : Bool := (coreBlocks d).any fun b => ((s.irqOf b).map fun x => x.1.line).getD false

/-- The value of a register (WO and RSV fields read zero). An offset that no table lists reads zero. -/
def State.readReg (s : State) (b : RegBlock) (o : Nat) : Word :=
  match (if o = 4 ∨ o = 8 then s.irqOf b else none) with
  | some i => i.1.read o
  | none => wordOf (match b with
    | .power => s.readPower o
    | .adc => s.readAdc o
    | .fc => s.readFc o
    | .ev => s.readEv o
    | .tk => s.readTk o
    | .prot => s.readProt o
    | .mp => s.readMp o
    | .store => s.readStore o
    | .array => 0
    | .host d => s.readHost d o
    | .mem d => s.readMem d o
    | .pool d => s.readPool d o
    | .cipher d => s.readCipher d o
    | .swarm d => s.readSwarm d o
    | .common d => s.readCommon d o
    | .region g => s.readRegion g o
    | .cluster c => s.readCluster c o
    | .lane l => s.readLane l o)

/-- The Reset values of a block that is not in service (R383); fields loaded from a record or the store hold the loaded value. -/
def State.resetReg (s : State) (b : RegBlock) (o : Nat) : Word :=
  match b, o with
  | .adc, _ | .tk, _ | .prot, _ | .array, _ => 0
  | b, 8 => ((s.irqOf b).map (·.2)).getD 0
  | .lane _, 0 => 0x0C000000
  | .lane _, 0x14 => 0x00084000
  | .lane _, 0x18 => 0x0C0C81F4
  | .cluster _, 0 => 0x3E000000
  | .region _, 0 => 0x10000000
  | .pool _, 0x10 => 0x02000FFF
  | .pool _, 0x14 => 0x00080060
  | .pool d, 0x18 => s.readReg (.pool d) 0x18
  | .mem _, 0 => 0x00200000
  | .mem _, 0x1C => 0x00800100
  | .swarm d, 0x14 => s.readReg (.swarm d) 0x14
  | .cipher d, 0x1C => s.readReg (.cipher d) 0x1C
  | .cipher d, 0x20 => s.readReg (.cipher d) 0x20
  | _, _ => 0

/-- The die runs: released from reset and not taken out. -/
def State.dieRuns (s : State) (d : DieIx) : Bool := !(s.com d).inReset && !(s.com d).outOfService

/-- A block is in service by its own IN_SERVICE or READY bit. A quarantined lane and a cluster whose frames are routed still answer for
themselves: QUARANTINED and ROUTED are theirs to show (DEDUCED, log entry 44). -/
def State.blockLive (s : State) : RegBlock → Bool
  | .power | .adc | .fc | .ev | .tk | .prot | .mp => true
  | .store | .array => s.storeUp
  | .host d => s.dieRuns d && s.dies[d].host.enabled && s.dies[d].host.ready
  | .mem d => s.dieRuns d && s.dies[d].mem.inService
  | .pool d => s.dieRuns d && s.dies[d].pool.inService
  | .cipher d => s.dieRuns d && s.dies[d].cipher.inService
  | .swarm d => s.dieRuns d && s.swarm.ports[d].inService
  | .common d => s.dieRuns d && (s.com d).inService
  | .region g => s.dieRuns (dieOfRegion g) && (s.regions[g]).inService
  | .cluster c => s.dieRuns (dieOfCluster c) && ((s.clusters[c]).inService || routed s.clusters[c])
  | .lane l => s.dieRuns (dieOfLane l) && ((s.lanes[l]).inService || (s.lanes[l]).quarantined)

/-! Writes. -/

/-- A write to IRQ clears the bits written 1; a write to IRQ_EN is held to the EVENT field (R11, R12). -/
def Irq.write (mask : Word) (o : Nat) (w : Word) (x : Irq) : Irq :=
  if o = 4 then { x with pend := x.pend &&& ~~~(w &&& mask) } else { x with en := w &&& mask }

/-- Change a block's Irq. -/
def State.updIrq (s : State) (b : RegBlock) (f : Irq → Irq) : State :=
  match b with
  | .power => s.updSup fun x => { x with irq := f x.irq }
  | .fc => s.updFc fun x => { x with irq := f x.irq }
  | .ev => s.updEv fun x => { x with irq := f x.irq }
  | .mp => s.updMp fun x => { x with irq := f x.irq }
  | .store => s.updStore fun x => { x with irq := f x.irq }
  | .host d => s.updDie d fun x => { x with hstIrq := f x.hstIrq }
  | .mem d => s.updDie d fun x => { x with memIrq := f x.memIrq }
  | .pool d => s.updDie d fun x => { x with bpmIrq := f x.bpmIrq }
  | .cipher d => s.updDie d fun x => { x with cphIrq := f x.cphIrq }
  | .swarm d => s.updDie d fun x => { x with swmIrq := f x.swmIrq }
  | .common d => s.updCommon d fun x => { x with irq := f x.irq }
  | .region g => s.updRegion g fun x => { x with irq := f x.irq }
  | .cluster c => s.updCluster c fun x => { x with irq := f x.irq }
  | .lane l => s.updLane l fun x => { x with irq := f x.irq }
  | .adc | .tk | .prot | .array => s

/-- The state that a meaning answers. -/
def State.after (s : State) : Out → State
  | .next t => t
  | .fault _ => s
  | .refused _ => s

/-- A word of a hash replaced. -/
def setHashWord (h : BitVec 384) (k : Nat) (w : Word) : BitVec 384 :=
  (h &&& ~~~((0xFFFFFFFF#384) <<< (32 * k))) ||| ((w.setWidth 384) <<< (32 * k))

/-- A write to the mirror's protection set before LOCK (R421). -/
def ProtSet.write (p : ProtSet) (o : Nat) (w : Word) : ProtSet :=
  match o with
  | 0x00 => { p with magic := w }
  | 0x04 => { p with format := w.setWidth 16 }
  | 0x08 => { p with generation := p.generation.extractLsb' 32 32 ++ w }
  | 0x0C => { p with generation := w ++ p.generation.extractLsb' 0 32 }
  | 0x10 => { p with keyFuse := w.setWidth 16 }
  | 0x14 => { p with storeWriteLock := w.getLsbD 0 }
  | 0x18 => { p with fwArb := w }
  | 0x1C => { p with patchArb := w }
  | _ =>
    if o % 4 ≠ 0 then p
    else if 0x20 ≤ o ∧ o < 0x50 then { p with authHash := setHashWord p.authHash ((o - 0x20) / 4) w }
    else if 0x50 ≤ o ∧ o < 0x80 then { p with signHash := setHashWord p.signHash ((o - 0x50) / 4) w }
    else if h : 0x80 ≤ o ∧ (o - 0x80) / 8 < 8 then
      let x := p.xo[(o - 0x80) / 8]'h.2
      let x := if o % 8 = 0 then { x with en := w.getLsbD 31, hashPort := w.getLsbD 30, first := w.setWidth 11 } else { x with count := w.setWidth 12 }
      { p with xo := p.xo.set ((o - 0x80) / 8) x h.2 }
    else p

/-- RWL registers of the mirror lie at 0x100 to 0x1BF (R421). -/
def rwlOffset (o : Nat) : Bool := decide (0x100 ≤ o) && decide (o < 0x1C0)

/-- MEM_TEST written where nothing says whether CHECK holds the check bits of the data word: that is a free value (R320). -/
def State.writeMemTest (s : State) (d : DieIx) (w : Word) : State :=
  let ok := Config.freeFlag s.free
  let t : State := { s with free := s.free + 1 }
  t.after (execMemTest d w ok t)

/-- A write to a register by its access code (R11): RO and RSV fields ignore it, WO bits act, W1C bits clear. -/
def State.writeReg (s : State) (b : RegBlock) (o : Nat) (w : Word) : State :=
  match (if o = 4 ∨ o = 8 then s.irqOf b else none) with
  | some i => s.updIrq b fun x => x.write i.2 o w
  | none => match b with
    | .power => if o = 0x10 ∧ w.getLsbD 0 then s.after (execKprCtrlHuMeasure s) else s
    | .fc =>
      if o = 0x10 then (if w.getLsbD 31 then s.after (execKprFcFirstClear s) else s)
      else if 0x40 ≤ o ∧ o < 0x80 then s.after (execKprFcPendClear ⟨(o - 0x40) / 4 % 16, by omega⟩ w s)
      else if o = 0xF0 then
        if !s.factoryMode then s.raise 376
        else if w.getLsbD 31 then s.after (execKprFcInjectGo (w.setWidth 9) s)
        else s.updFc fun f => { f with injectSource := w.setWidth 9 }
      else if o = 0xF4 then (if s.factoryMode then s.updFc fun f => { f with injectData := w } else s.raise 376)
      else s
    | .ev => if o = 0x10 ∧ w.getLsbD 0 then s.after (execKprEvCtrlFlush s) else s
    | .prot =>
      if !rwlOffset o then s
      else if s.keeper.boot.lock then s.raise 374
      else { s with keeper := { s.keeper with prot := s.keeper.prot.write (o - 0x100) w } }
    | .mem d =>
      if o = 0x10 then (if w.getLsbD 0 then s.after (execMemCtrlCntClr d s) else s)
      else if o = 0x20 then s.writeMemTest d w else s
    | .cipher d => if o = 0x10 ∧ w.getLsbD 0 then s.after (execCphCtrlCntClr d s) else s
    | .swarm d => if o = 0x10 ∧ w.getLsbD 0 then s.after (execSwmCtrlCntClr d s) else s
    | .region g =>
      if o = 0x10 then (if w.getLsbD 0 then s.after (execRgnCtrlCntClr g s) else s)
      else if o = 0x30 then s.updRegion g fun r => { r with queryLo := w }
      else if o = 0x34 then
        if w.getLsbD 31 then s.after (execRgnQuery g (w.setWidth 8) s) else s.updRegion g fun r => { r with queryHi := w.setWidth 8 }
      else s
    | .cluster c => if o = 0x10 ∧ w.getLsbD 0 then s.after (execCluCtrlCntClr c s) else s
    | .lane l =>
      if o = 0x10 then
        let t := if w.getLsbD 0 then s.after (execLneCtrlCntClr l s) else s
        if w.getLsbD 1 then t.after (execLneCtrlRetrain l t) else t
      else s
    | .adc | .tk | .mp | .store | .array | .host _ | .pool _ | .common _ => s

/-- REGISTER_WRITE (R11, R12): a write to a register that has no row of its own. A block that is held in reset or out of service takes no write;
an address that no block lists, and the store die's array, hold no register. -/
def execRegisterWrite (addr value : Word) (s : State) : Out :=
  match blockAt addr.toNat with
  | none => unchanged s
  | some (b, o) => if b == .array || !s.blockLive b then unchanged s else .next (s.writeReg b o value)

/-! Management Read and Management Write (R493, R494). -/

/-- The protection set sectors of the store die (R372, R423). -/
def inProtectionSectors (b : RegBlock) (o : Nat) : Bool := b == .array && isProtection (sectorOf o)

/-- W1C registers of the fault collector, the only ones written while the keeper alone answers (R491). -/
def fcW1c (o : Nat) : Bool := o == 4 || o == 0x10 || (decide (0x40 ≤ o) && decide (o < 0x80))

/-- What the package state leaves of management space (R385, R491). -/
def State.mgmtReach (s : State) (write : Bool) (b : RegBlock) (o : Nat) : Bool :=
  if s.keeperOnly then keeperBlock b && (!write || (b == .fc && fcW1c o))
  else if s.keeper.boot.stage = .recovery then keeperBlock b || b == .store
  else true

/-- One dword of a read or a write is refused (R371, R493). -/
def State.mgmtRefused (s : State) (viaMi write : Bool) (a : Nat) : Bool :=
  match blockAt a with
  | none => true
  | some (b, o) =>
    !s.mgmtReach write b o ||
    (match b with | .mem _ => o == 0x20 && !s.factoryMode | _ => false) ||
    (b == .prot && (write || s.windowOpen)) || (s.windowOpen && inProtectionSectors b o) ||
    (write && (!s.blockLive b || (viaMi && !s.keeper.mp.writePermitted) ||
      ((b == .store || b == .array) && s.keeper.prot.storeWriteLock && !s.factoryMode)))

/-- The addresses of a command, ascending (R494). -/
def mgmtAddrs (addr : Word) (n : Nat) : List Nat := (List.range n).map fun i => addr.toNat + 4 * i

/-- A refused access is counted, and shown in KPR_MP_IRQ (R495). -/
def State.countRefused (s : State) : State :=
  s.updMp fun m => { m with refused := satAdd 0xFFF m.refused 1, irq := m.irq.set 0 }

/-- Completion of a refused command: 0x86 on NVMe, Access Denied on NVMe-MI. -/
def State.refuseAccess (s : State) (ref : CmdRef) : State := s.countRefused.complete ref (if ref.viaMi then stMi 0x07 else stAccessRefused) 0
/-- A command that is malformed: Invalid Field in Command, or Invalid Parameter on NVMe-MI. -/
def State.badMgmt (s : State) (ref : CmdRef) : State := s.complete ref (if ref.viaMi then stMi 0x04 else stInvalidField) 0

/-- The bank of the array that a dword reads, where a program or an erase runs in it. -/
def State.busyBank (s : State) (a : Nat) : Option (Fin 2) := match blockAt a with
  | some (.array, o) =>
    let b := sectorBank (sectorOf o)
    if s.storeUp && s.store.bankBusy b then some b else none
  | _ => none

/-- One dword read. The array reads as any data read does: zeros and 501 in an execute-only range (R435). -/
def State.readDword (s : State) (a : Nat) : State × Word :=
  match blockAt a with
  | none => (s, 0)
  | some (b, o) =>
    if !s.blockLive b then (s, s.resetReg b o)
    else if b != .array then (s, s.readReg b o)
    else
      let n := sectorOf o
      if (s.xoOver n).isSome then ((s.updStore fun x => { x with lastRead := 0 }).raise2 501 (BitVec.ofNat 32 n) 0, 0)
      else
        let v := s.dataRead o
        (s.afterRead o v, v)

/-- MANAGEMENT_READ (R294, R493, R494). A read of a bank that runs a program or an erase waits (R433). -/
def execManagementRead (ref : CmdRef) (addr : Word) (numd : Nat) (s : State) : Out :=
  s.adminThen .mgmtRead ref fun s =>
    let as_ := mgmtAddrs addr numd
    if addr.toNat % 4 ≠ 0 ∨ numd = 0 ∨ 1024 < numd then .next (s.badMgmt ref)
    else if as_.any fun a => s.mgmtRefused ref.viaMi false a then .next (s.refuseAccess ref)
    else match as_.findSome? s.busyBank with
      | some b => .next (s.updStore fun x => { x with readWaits := x.readWaits.set b (x.readWaits[b] + 1) })
      | none =>
        let r := as_.foldl (fun (p : State × List Word) (a : Nat) => let x := p.1.readDword a; (x.1, p.2 ++ [x.2])) (s, [])
        .next (r.1.completeWith ref stOk 0 (.words r.2))

/-- One dword written: a command cycle of the store die in its array window (R426), else a register. -/
def State.writeDword (s : State) (a : Nat) (w : Word) : State :=
  match blockAt a with
  | none => s
  | some (.array, o) => s.storeCycle .management o w
  | some (b, o) => s.writeReg b o w

/-- MANAGEMENT_WRITE (R294, R493, R494). A write to the protection mirror after LOCK raises 374 (R371). -/
def execManagementWrite (ref : CmdRef) (addr : Word) (values : List Word) (s : State) : Out :=
  s.adminThen .mgmtWrite ref fun s =>
    let as_ := mgmtAddrs addr values.length
    if addr.toNat % 4 ≠ 0 ∨ values.isEmpty = true ∨ 1024 < values.length then .next (s.badMgmt ref)
    else if as_.any fun a => s.mgmtRefused ref.viaMi true a then
      let prot := as_.any fun a => match blockAt a with | some (.prot, _) => true | _ => false
      .next ((if prot && s.keeper.boot.lock then s.raise 374 else s).refuseAccess ref)
    else
      let t := (as_.zip values).foldl (fun (s : State) (p : Nat × Word) => s.writeDword p.1 p.2) s
      .next (t.complete ref stOk 0)

end Sys2Proof.Machine
end

