-- ==== Sys2Proof/Machine/Dispatch.lean ====
section
/-! DEFINITION. One arm per command: the command's effect on everything but the queue. -/

namespace Sys2Proof.Machine

/-- The effect of a command, by the rule of its row. -/
def exec (i : Instr) (s : State) : Host.Outcome State Fault Refusal :=
  match i with
  | .vcoreOutOfWindow d mv => Sys2Proof.Machine.execVcoreOutOfWindow d mv s
  | .vcoreWindowRestored d mv => Sys2Proof.Machine.execVcoreWindowRestored d mv s
  | .xtal25Stop => Sys2Proof.Machine.execXtal25Stop s
  | .xtal32kStop => Sys2Proof.Machine.execXtal32kStop s
  | .dieBridgeTransfer toward tag crcOk => Sys2Proof.Machine.execDieBridgeTransfer toward tag crcOk s
  | .dieBridgeHandshakeTimeout => Sys2Proof.Machine.execDieBridgeHandshakeTimeout s
  | .crossingReset x phySide => Sys2Proof.Machine.execCrossingReset x phySide s
  | .crossingReadyHandshake x => Sys2Proof.Machine.execCrossingReadyHandshake x s
  | .phyWakeRequest x stopGrantedFirst => Sys2Proof.Machine.execPhyWakeRequest x stopGrantedFirst s
  | .phyIdleTimerExpiry l wakeGrantedFirst => Sys2Proof.Machine.execPhyIdleTimerExpiry l wakeGrantedFirst s
  | .resourceSlotFree r => Sys2Proof.Machine.execResourceSlotFree r s
  | .descriptorSubmit l d p => Sys2Proof.Machine.execDescriptorSubmit l d p s
  | .readPage l => Sys2Proof.Machine.execReadPage l s
  | .readSoft l => Sys2Proof.Machine.execReadSoft l s
  | .marginRead l => Sys2Proof.Machine.execMarginRead l s
  | .offsetSweep l => Sys2Proof.Machine.execOffsetSweep l s
  | .programPage l => Sys2Proof.Machine.execProgramPage l s
  | .programPass l => Sys2Proof.Machine.execProgramPass l s
  | .eraseBlock l => Sys2Proof.Machine.execEraseBlock l s
  | .suspend l => Sys2Proof.Machine.execSuspend l s
  | .resume l => Sys2Proof.Machine.execResume l s
  | .setFeature l => Sys2Proof.Machine.execSetFeature l s
  | .getFeature l => Sys2Proof.Machine.execGetFeature l s
  | .readStatus l => Sys2Proof.Machine.execReadStatus l s
  | .train l tries => Sys2Proof.Machine.execTrain l tries s
  | .lunReady l tag st reply => Sys2Proof.Machine.execLunReady l tag st reply s
  | .statusTimeout l tag => Sys2Proof.Machine.execStatusTimeout l tag s
  | .minEraseRunTimeExpiry l u => Sys2Proof.Machine.execMinEraseRunTimeExpiry l u s
  | .maxSuspendedTimeExpiry l u => Sys2Proof.Machine.execMaxSuspendedTimeExpiry l u s
  | .laneReset l results => Sys2Proof.Machine.execLaneReset l results s
  | .dqsDriftTrack l drift => Sys2Proof.Machine.execDqsDriftTrack l drift s
  | .zqShortCalibration l => Sys2Proof.Machine.execZqShortCalibration l s
  | .laneRetrain l tries => Sys2Proof.Machine.execLaneRetrain l tries s
  | .retrainIdleTimeout l tries => Sys2Proof.Machine.execRetrainIdleTimeout l tries s
  | .lneCtrlRetrain l => Sys2Proof.Machine.execLneCtrlRetrain l s
  | .lneCtrlCntClr l => Sys2Proof.Machine.execLneCtrlCntClr l s
  | .patchLoad l words => Sys2Proof.Machine.execPatchLoad l words s
  | .nop l c => Sys2Proof.Machine.execNop l c s
  | .jmp l c t => Sys2Proof.Machine.execJmp l c t s
  | .brc l c cond t => Sys2Proof.Machine.execBrc l c cond t s
  | .call l c t => Sys2Proof.Machine.execCall l c t s
  | .ret l c => Sys2Proof.Machine.execRet l c s
  | .ldi l c d v => Sys2Proof.Machine.execLdi l c d v s
  | .ldu l c d v => Sys2Proof.Machine.execLdu l c d v s
  | .ldd l c d word => Sys2Proof.Machine.execLdd l c d word s
  | .addi l c d a v => Sys2Proof.Machine.execAddi l c d a v s
  | .alu l c d a b f => Sys2Proof.Machine.execAlu l c d a b f s
  | .cmp l c a b => Sys2Proof.Machine.execCmp l c a b s
  | .tbl l c d t ix => Sys2Proof.Machine.execTbl l c d t ix s
  | .sync l c => Sys2Proof.Machine.execSync l c s
  | .yld l c => Sys2Proof.Machine.execYld l c s
  | .cen l c n => Sys2Proof.Machine.execCen l c n s
  | .cmd l c fromProfile v => Sys2Proof.Machine.execCmd l c fromProfile v s
  | .adr l c a n => Sys2Proof.Machine.execAdr l c a n s
  | .adx l c a n => Sys2Proof.Machine.execAdx l c a n s
  | .dout l c a b => Sys2Proof.Machine.execDout l c a b s
  | .din l c a b toDecoder => Sys2Proof.Machine.execDin l c a b toDecoder s
  | .stat l c d enhanced st => Sys2Proof.Machine.execStat l c d enhanced st s
  | .wrdy l c a st => Sys2Proof.Machine.execWrdy l c a st s
  | .tim l c ix => Sys2Proof.Machine.execTim l c ix s
  | .wait l c a => Sys2Proof.Machine.execWait l c a s
  | .lvl l c d a b => Sys2Proof.Machine.execLvl l c d a b s
  | .phy l c step => Sys2Proof.Machine.execPhy l c step s
  | .loop l c d t => Sys2Proof.Machine.execLoop l c d t s
  | .susp l c => Sys2Proof.Machine.execSusp l c s
  | .sto l c a word => Sys2Proof.Machine.execSto l c a word s
  | .evt l c n => Sys2Proof.Machine.execEvt l c n s
  | .done l c status => Sys2Proof.Machine.execDone l c status s
  | .trap l c code => Sys2Proof.Machine.execTrap l c code s
  | .foldIdleTimer g => Sys2Proof.Machine.execFoldIdleTimer g s
  | .thermalAgeAccumulate => Sys2Proof.Machine.execThermalAgeAccumulate s
  | .carapaceTemperatureSample => Sys2Proof.Machine.execCarapaceTemperatureSample s
  | .timekeepingRecordWrite => Sys2Proof.Machine.execTimekeepingRecordWrite s
  | .setFeaturesTimestamp ref ms => Sys2Proof.Machine.execSetFeaturesTimestamp ref ms s
  | .gapTimeout => Sys2Proof.Machine.execGapTimeout s
  | .antennaRunStart c => Sys2Proof.Machine.execAntennaRunStart c s
  | .antennaRunComplete c => Sys2Proof.Machine.execAntennaRunComplete c s
  | .patrolStart g => Sys2Proof.Machine.execPatrolStart g s
  | .patrolComplete g b => Sys2Proof.Machine.execPatrolComplete g b s
  | .stagingRowTimeout g b => Sys2Proof.Machine.execStagingRowTimeout g b s
  | .frameDecode c e src => Sys2Proof.Machine.execFrameDecode c e src s
  | .decodeComplete c e res => Sys2Proof.Machine.execDecodeComplete c e res s
  | .decoderCompletionTimeout c e => Sys2Proof.Machine.execDecoderCompletionTimeout c e s
  | .retryLadderStep c id facts => Sys2Proof.Machine.execRetryLadderStep c id facts s
  | .parityAccumulatorMemoryError c corrected band row => Sys2Proof.Machine.execParityAccumulatorMemoryError c corrected band row s
  | .cluCtrlCntClr c => Sys2Proof.Machine.execCluCtrlCntClr c s
  | .pendingUpdateApply g gran => Sys2Proof.Machine.execPendingUpdateApply g gran s
  | .journalFrameTimer g => Sys2Proof.Machine.execJournalFrameTimer g s
  | .journalFrameDurable g => Sys2Proof.Machine.execJournalFrameDurable g s
  | .checkpointCapture g => Sys2Proof.Machine.execCheckpointCapture g s
  | .checkpointIndexWrite g ckptSeq => Sys2Proof.Machine.execCheckpointIndexWrite g ckptSeq s
  | .mapSegmentLoad g seg => Sys2Proof.Machine.execMapSegmentLoad g seg s
  | .hostFetchStart facts ms => Sys2Proof.Machine.execHostFetchStart facts ms s
  | .rgnQuery g hi => Sys2Proof.Machine.execRgnQuery g hi s
  | .rgnCtrlCntClr g => Sys2Proof.Machine.execRgnCtrlCntClr g s
  | .reclaimStart g k => Sys2Proof.Machine.execReclaimStart g k s
  | .granuleRelocate g gran => Sys2Proof.Machine.execGranuleRelocate g gran s
  | .bandResync g b unreadable => Sys2Proof.Machine.execBandResync g b unreadable s
  | .bandRebuild g spare lost failed => Sys2Proof.Machine.execBandRebuild g spare lost failed s
  | .membershipStageStage ref offset len last table => Sys2Proof.Machine.execMembershipStageStage ref offset len last table s
  | .membershipStageApply ref => Sys2Proof.Machine.execMembershipStageApply ref s
  | .membershipStageReadMemberKey ref => Sys2Proof.Machine.execMembershipStageReadMemberKey ref s
  | .membershipStageReadTableHeader ref => Sys2Proof.Machine.execMembershipStageReadTableHeader ref s
  | .membershipStageDiscard ref => Sys2Proof.Machine.execMembershipStageDiscard ref s
  | .epochAnnounce hdr epoch hash => Sys2Proof.Machine.execEpochAnnounce hdr epoch hash s
  | .trailingEpochTimeout => Sys2Proof.Machine.execTrailingEpochTimeout s
  | .heldMessageTimeout ix => Sys2Proof.Machine.execHeldMessageTimeout ix s
  | .sealNotice hdr region seg band => Sys2Proof.Machine.execSealNotice hdr region seg band s
  | .sealNoticeTimeout g b u => Sys2Proof.Machine.execSealNoticeTimeout g b u s
  | .sealNoticeRetry g b u => Sys2Proof.Machine.execSealNoticeRetry g b u s
  | .slotAssign hdr stripe position m version holders => Sys2Proof.Machine.execSlotAssign hdr stripe position m version holders s
  | .stripeRecord hdr restore r => Sys2Proof.Machine.execStripeRecord hdr restore r s
  | .stripeRecordAck hdr stripe version => Sys2Proof.Machine.execStripeRecordAck hdr stripe version s
  | .stripeShortTimeout stripe => Sys2Proof.Machine.execStripeShortTimeout stripe s
  | .contribData hdr stripe position index first count => Sys2Proof.Machine.execContribData hdr stripe position index first count s
  | .contribDone hdr stripe position index crcOk => Sys2Proof.Machine.execContribDone hdr stripe position index crcOk s
  | .retract hdr stripe position index first count neverSent release last behalf crcOk => Sys2Proof.Machine.execRetract hdr stripe position index first count neverSent release last behalf crcOk s
  | .contribRetry stripe position index => Sys2Proof.Machine.execContribRetry stripe position index s
  | .contribBusyRetry stripe position index => Sys2Proof.Machine.execContribBusyRetry stripe position index s
  | .peerLit c => Sys2Proof.Machine.execPeerLit c s
  | .swarmLinkTraining d partner => Sys2Proof.Machine.execSwarmLinkTraining d partner s
  | .swarmPortLinkDown d => Sys2Proof.Machine.execSwarmPortLinkDown d s
  | .neighborSolicitation d target => Sys2Proof.Machine.execNeighborSolicitation d target s
  | .arpRequest d target => Sys2Proof.Machine.execArpRequest d target s
  | .echoRequest d target => Sys2Proof.Machine.execEchoRequest d target s
  | .lenosPacket d p => Sys2Proof.Machine.execLenosPacket d p s
  | .hello d m => Sys2Proof.Machine.execHello d m s
  | .helloAttemptTimeout peer => Sys2Proof.Machine.execHelloAttemptTimeout peer s
  | .helloRetryTimer peer => Sys2Proof.Machine.execHelloRetryTimer peer s
  | .sessionRekey peer => Sys2Proof.Machine.execSessionRekey peer s
  | .oldSessionErase peer => Sys2Proof.Machine.execOldSessionErase peer s
  | .ackTimer peer half => Sys2Proof.Machine.execAckTimer peer half s
  | .retransmissionTimeout peer half ctr => Sys2Proof.Machine.execRetransmissionTimeout peer half ctr s
  | .pathProgressTimeout peer half => Sys2Proof.Machine.execPathProgressTimeout peer half s
  | .livenessTimeout peer => Sys2Proof.Machine.execLivenessTimeout peer s
  | .peerUnreachable peer => Sys2Proof.Machine.execPeerUnreachable peer s
  | .heartbeatSendTimer peer => Sys2Proof.Machine.execHeartbeatSendTimer peer s
  | .heartbeat peer status applied => Sys2Proof.Machine.execHeartbeat peer status applied s
  | .requestAnswerTimeout peer opid => Sys2Proof.Machine.execRequestAnswerTimeout peer opid s
  | .rebuildRead hdr stripe what index first count rows stepFive => Sys2Proof.Machine.execRebuildRead hdr stripe what index first count rows stepFive s
  | .rebuildData hdr stripe what index first count last push reply crcOk bad record grans => Sys2Proof.Machine.execRebuildData hdr stripe what index first count last push reply crcOk bad record grans s
  | .lightRequest peer r cancel => Sys2Proof.Machine.execLightRequest peer r cancel s
  | .nak hdr reason refused detail => Sys2Proof.Machine.execNak hdr reason refused detail s
  | .rebuildTaskStart rows dark applied => Sys2Proof.Machine.execRebuildTaskStart rows dark applied s
  | .pushBusyRetry stripe data index => Sys2Proof.Machine.execPushBusyRetry stripe data index s
  | .pushNoNamespaceRetry stripe data index => Sys2Proof.Machine.execPushNoNamespaceRetry stripe data index s
  | .darkWaitExpiry ref => Sys2Proof.Machine.execDarkWaitExpiry ref s
  | .swmCtrlCntClr d => Sys2Proof.Machine.execSwmCtrlCntClr d s
  | .pcieLinkTraining d gen lanes => Sys2Proof.Machine.execPcieLinkTraining d gen lanes s
  | .hostLinkDown d => Sys2Proof.Machine.execHostLinkDown d s
  | .perstNAssert d => Sys2Proof.Machine.execPerstNAssert d s
  | .functionLevelReset d => Sys2Proof.Machine.execFunctionLevelReset d s
  | .configRequest d => Sys2Proof.Machine.execConfigRequest d s
  | .controllerEnable d asqs acqs => Sys2Proof.Machine.execControllerEnable d asqs acqs s
  | .controllerReset d => Sys2Proof.Machine.execControllerReset d s
  | .normalShutdown d => Sys2Proof.Machine.execNormalShutdown d s
  | .abruptShutdown d => Sys2Proof.Machine.execAbruptShutdown d s
  | .nvmSubsystemReset d value => Sys2Proof.Machine.execNvmSubsystemReset d value s
  | .submissionQueueDoorbell d qid tail => Sys2Proof.Machine.execSubmissionQueueDoorbell d qid tail s
  | .completionQueueDoorbell d qid head => Sys2Proof.Machine.execCompletionQueueDoorbell d qid head s
  | .createIoSubmissionQueue ref qid entries cqid contiguous => Sys2Proof.Machine.execCreateIoSubmissionQueue ref qid entries cqid contiguous s
  | .deleteIoSubmissionQueue ref qid => Sys2Proof.Machine.execDeleteIoSubmissionQueue ref qid s
  | .createIoCompletionQueue ref qid entries contiguous irqEn vector => Sys2Proof.Machine.execCreateIoCompletionQueue ref qid entries contiguous irqEn vector s
  | .deleteIoCompletionQueue ref qid => Sys2Proof.Machine.execDeleteIoCompletionQueue ref qid s
  | .getLogPage ref lid nsid lsi lpo len rae => Sys2Proof.Machine.execGetLogPage ref lid nsid lsi lpo len rae s
  | .identify ref cns nsid cntid => Sys2Proof.Machine.execIdentify ref cns nsid cntid s
  | .abort ref sqid cid => Sys2Proof.Machine.execAbort ref sqid cid s
  | .getFeatures ref fid dw11 => Sys2Proof.Machine.execGetFeatures ref fid dw11 s
  | .setFeaturesArbitration ref dw11 => Sys2Proof.Machine.execSetFeaturesArbitration ref dw11 s
  | .setFeaturesPowerManagement ref ps => Sys2Proof.Machine.execSetFeaturesPowerManagement ref ps s
  | .setFeaturesTemperatureThreshold ref kelvin sel under => Sys2Proof.Machine.execSetFeaturesTemperatureThreshold ref kelvin sel under s
  | .setFeaturesErrorRecovery ref dw11 => Sys2Proof.Machine.execSetFeaturesErrorRecovery ref dw11 s
  | .setFeaturesNumberOfQueues ref nsq ncq => Sys2Proof.Machine.execSetFeaturesNumberOfQueues ref nsq ncq s
  | .setFeaturesInterruptCoalescing ref dw11 => Sys2Proof.Machine.execSetFeaturesInterruptCoalescing ref dw11 s
  | .setFeaturesInterruptVectorConfig ref vector disable => Sys2Proof.Machine.execSetFeaturesInterruptVectorConfig ref vector disable s
  | .setFeaturesAsyncEventConfiguration ref dw11 => Sys2Proof.Machine.execSetFeaturesAsyncEventConfiguration ref dw11 s
  | .setFeaturesApst ref enable table => Sys2Proof.Machine.execSetFeaturesApst ref enable table s
  | .setFeaturesFdp ref endgid index enable => Sys2Proof.Machine.execSetFeaturesFdp ref endgid index enable s
  | .setFeaturesFdpEvents ref handle types enable => Sys2Proof.Machine.execSetFeaturesFdpEvents ref handle types enable s
  | .asynchronousEventRequest ref => Sys2Proof.Machine.execAsynchronousEventRequest ref s
  | .namespaceManagementCreate ref nsze ncap lbaf phandles drbgOk => Sys2Proof.Machine.execNamespaceManagementCreate ref nsze ncap lbaf phandles drbgOk s
  | .namespaceManagementDelete ref nsid => Sys2Proof.Machine.execNamespaceManagementDelete ref nsid s
  | .namespaceAttachment ref nsid attach ctrls => Sys2Proof.Machine.execNamespaceAttachment ref nsid attach ctrls s
  | .formatNvm ref nsid lbaf => Sys2Proof.Machine.execFormatNvm ref nsid lbaf s
  | .formatNvmCryptoErase ref nsid lbaf drbgOk => Sys2Proof.Machine.execFormatNvmCryptoErase ref nsid lbaf drbgOk s
  | .securitySendKek ref b => Sys2Proof.Machine.execSecuritySendKek ref b s
  | .securitySendNamespaceKey ref nsid b => Sys2Proof.Machine.execSecuritySendNamespaceKey ref nsid b s
  | .securitySendLock ref => Sys2Proof.Machine.execSecuritySendLock ref s
  | .securityReceiveKeyStatus ref => Sys2Proof.Machine.execSecurityReceiveKeyStatus ref s
  | .securityReceiveProtocolList ref => Sys2Proof.Machine.execSecurityReceiveProtocolList ref s
  | .sanitizeCryptoErase ref drbgOk => Sys2Proof.Machine.execSanitizeCryptoErase ref drbgOk s
  | .sanitizeBlockErase ref drbgOk => Sys2Proof.Machine.execSanitizeBlockErase ref drbgOk s
  | .sanitizeOverwrite ref => Sys2Proof.Machine.execSanitizeOverwrite ref s
  | .sanitizeExitFailureMode ref => Sys2Proof.Machine.execSanitizeExitFailureMode ref s
  | .optionStage ref offset len last image => Sys2Proof.Machine.execOptionStage ref offset len last image s
  | .optionCheck ref => Sys2Proof.Machine.execOptionCheck ref s
  | .optionApplyAtStart ref => Sys2Proof.Machine.execOptionApplyAtStart ref s
  | .optionApplyLive ref => Sys2Proof.Machine.execOptionApplyLive ref s
  | .managementRead ref addr numd => Sys2Proof.Machine.execManagementRead ref addr numd s
  | .managementWrite ref addr values => Sys2Proof.Machine.execManagementWrite ref addr values s
  | .diapausePrepare ref => Sys2Proof.Machine.execDiapausePrepare ref s
  | .diapauseReady => Sys2Proof.Machine.execDiapauseReady s
  | .diapauseStatus ref => Sys2Proof.Machine.execDiapauseStatus ref s
  | .unsupportedCommand ref => Sys2Proof.Machine.execUnsupportedCommand ref s
  | .read ref nsid slba nlb => Sys2Proof.Machine.execRead ref nsid slba nlb s
  | .write ref nsid slba nlb dtype dspec data => Sys2Proof.Machine.execWrite ref nsid slba nlb dtype dspec data s
  | .windowAdmit d => Sys2Proof.Machine.execWindowAdmit d s
  | .xtsEncrypt g gran seq refused => Sys2Proof.Machine.execXtsEncrypt g gran seq refused s
  | .flush ref nsid => Sys2Proof.Machine.execFlush ref nsid s
  | .writeZeroes ref nsid slba nlb => Sys2Proof.Machine.execWriteZeroes ref nsid slba nlb s
  | .datasetManagement ref nsid deallocate ranges => Sys2Proof.Machine.execDatasetManagement ref nsid deallocate ranges s
  | .verify ref nsid slba nlb => Sys2Proof.Machine.execVerify ref nsid slba nlb s
  | .copy ref nsid sdlba src => Sys2Proof.Machine.execCopy ref nsid sdlba src s
  | .apstIdleTimer d => Sys2Proof.Machine.execApstIdleTimer d s
  | .bufferAllocate d bytes dram kind => Sys2Proof.Machine.execBufferAllocate d bytes dram kind s
  | .bufferReferenceTake d ptr user => Sys2Proof.Machine.execBufferReferenceTake d ptr user s
  | .bufferReferenceDrop d ptr user => Sys2Proof.Machine.execBufferReferenceDrop d ptr user s
  | .bufferZeroed d c ix => Sys2Proof.Machine.execBufferZeroed d c ix s
  | .dramOscillatorRead d value driftPs => Sys2Proof.Machine.execDramOscillatorRead d value driftPs s
  | .dramZqLatch d value => Sys2Proof.Machine.execDramZqLatch d value s
  | .dramRetrain d byRate tries => Sys2Proof.Machine.execDramRetrain d byRate tries s
  | .memoryCorrected d k addr bit => Sys2Proof.Machine.execMemoryCorrected d k addr bit s
  | .memoryUncorrectable d k addr target => Sys2Proof.Machine.execMemoryUncorrectable d k addr target s
  | .locationRetire d k addr channel inBuffer => Sys2Proof.Machine.execLocationRetire d k addr channel inBuffer s
  | .memTest d w checkOk => Sys2Proof.Machine.execMemTest d w checkOk s
  | .memCtrlCntClr d => Sys2Proof.Machine.execMemCtrlCntClr d s
  | .cphCtrlCntClr d => Sys2Proof.Machine.execCphCtrlCntClr d s
  | .vinRise o => Sys2Proof.Machine.execVinRise o s
  | .vinFall => Sys2Proof.Machine.execVinFall s
  | .railWindowTimeout r => Sys2Proof.Machine.execRailWindowTimeout r s
  | .regulatorStartTimeout r => Sys2Proof.Machine.execRegulatorStartTimeout r s
  | .boardRailOutOfWindow r above => Sys2Proof.Machine.execBoardRailOutOfWindow r above s
  | .vinOvervoltage mv => Sys2Proof.Machine.execVinOvervoltage mv s
  | .powerCapAverage mw => Sys2Proof.Machine.execPowerCapAverage mw s
  | .pwrLossNAssert => Sys2Proof.Machine.execPwrLossNAssert s
  | .vinBelowLossThreshold => Sys2Proof.Machine.execVinBelowLossThreshold s
  | .rescueComplete tenUs => Sys2Proof.Machine.execRescueComplete tenUs s
  | .huIsoRelease inputPresent => Sys2Proof.Machine.execHuIsoRelease inputPresent s
  | .vinBelowWarning mv => Sys2Proof.Machine.execVinBelowWarning mv s
  | .kprCtrlHuMeasure => Sys2Proof.Machine.execKprCtrlHuMeasure s
  | .measurementIntervalExpiry => Sys2Proof.Machine.execMeasurementIntervalExpiry s
  | .holdupWindowsEmpty => Sys2Proof.Machine.execHoldupWindowsEmpty s
  | .holdupSettleExpiry v1 => Sys2Proof.Machine.execHoldupSettleExpiry v1 s
  | .holdupDischargeCrossing us => Sys2Proof.Machine.execHoldupDischargeCrossing us s
  | .holdupDischargeTimeout => Sys2Proof.Machine.execHoldupDischargeTimeout s
  | .holdupRecharged mv => Sys2Proof.Machine.execHoldupRecharged mv s
  | .holdupChargeTimeout => Sys2Proof.Machine.execHoldupChargeTimeout s
  | .vauxLost => Sys2Proof.Machine.execVauxLost s
  | .thermistorFault n shorted => Sys2Proof.Machine.execThermistorFault n shorted s
  | .keeperTemperatureCritical t => Sys2Proof.Machine.execKeeperTemperatureCritical t s
  | .adcSample x => Sys2Proof.Machine.execAdcSample x s
  | .packageRestart cause => Sys2Proof.Machine.execPackageRestart cause s
  | .d0Release f => Sys2Proof.Machine.execD0Release f s
  | .bootWindowTimeout => Sys2Proof.Machine.execBootWindowTimeout s
  | .program64BitWord req writes => Sys2Proof.Machine.execProgram64BitWord req writes s
  | .program256ByteLine req writes => Sys2Proof.Machine.execProgram256ByteLine req writes s
  | .eraseSector req offsets => Sys2Proof.Machine.execEraseSector req offsets s
  | .eraseSuspend req runTime => Sys2Proof.Machine.execEraseSuspend req runTime s
  | .eraseResume req => Sys2Proof.Machine.execEraseResume req s
  | .marginMode req mode => Sys2Proof.Machine.execMarginMode req mode s
  | .readEraseCounter req offset => Sys2Proof.Machine.execReadEraseCounter req offset s
  | .returnToRead req => Sys2Proof.Machine.execReturnToRead req s
  | .storeEraseStart => Sys2Proof.Machine.execStoreEraseStart s
  | .storeSequenceTimeout => Sys2Proof.Machine.execStoreSequenceTimeout s
  | .storeProgramComplete ok => Sys2Proof.Machine.execStoreProgramComplete ok s
  | .storeEraseComplete marginFailures => Sys2Proof.Machine.execStoreEraseComplete marginFailures s
  | .storeEraseTimeout => Sys2Proof.Machine.execStoreEraseTimeout s
  | .storeArrayRead kind offset byCore differs => Sys2Proof.Machine.execStoreArrayRead kind offset byCore differs s
  | .storeEraseAutoSuspend => Sys2Proof.Machine.execStoreEraseAutoSuspend s
  | .storeEraseAutoResume => Sys2Proof.Machine.execStoreEraseAutoResume s
  | .firmwareImageDownload ref offset len last image => Sys2Proof.Machine.execFirmwareImageDownload ref offset len last image s
  | .firmwareCommitReplace ref slot => Sys2Proof.Machine.execFirmwareCommitReplace ref slot s
  | .firmwareCommitReplaceActivate ref slot => Sys2Proof.Machine.execFirmwareCommitReplaceActivate ref slot s
  | .firmwareCommitActivateAtReset ref slot => Sys2Proof.Machine.execFirmwareCommitActivateAtReset ref slot s
  | .firmwareCommitActivateNow ref slot => Sys2Proof.Machine.execFirmwareCommitActivateNow ref slot s
  | .firmwareCommitBootPartition ref => Sys2Proof.Machine.execFirmwareCommitBootPartition ref s
  | .firmwareActivation d1CoreOk regionCoreOk => Sys2Proof.Machine.execFirmwareActivation d1CoreOk regionCoreOk s
  | .eventToken ix => Sys2Proof.Machine.execEventToken ix s
  | .eventFlushComplete => Sys2Proof.Machine.execEventFlushComplete s
  | .kprEvCtrlFlush => Sys2Proof.Machine.execKprEvCtrlFlush s
  | .kprFcFirstClear => Sys2Proof.Machine.execKprFcFirstClear s
  | .kprFcPendClear k mask => Sys2Proof.Machine.execKprFcPendClear k mask s
  | .kprFcInjectGo source => Sys2Proof.Machine.execKprFcInjectGo source s
  | .regionCoreWatchdog g => Sys2Proof.Machine.execRegionCoreWatchdog g s
  | .dieCoreWatchdog d => Sys2Proof.Machine.execDieCoreWatchdog d s
  | .shadowClose holder ix persisting => Sys2Proof.Machine.execShadowClose holder ix persisting s
  | .collectorParityScan ok => Sys2Proof.Machine.execCollectorParityScan ok s
  | .dieTemperatureWarning d t => Sys2Proof.Machine.execDieTemperatureWarning d t s
  | .dieTemperatureCritical d t => Sys2Proof.Machine.execDieTemperatureCritical d t s
  | .mctpPacket pecOk => Sys2Proof.Machine.execMctpPacket pecOk s
  | .setEndpointId tag op eid => Sys2Proof.Machine.execSetEndpointId tag op eid s
  | .getEndpointId tag => Sys2Proof.Machine.execGetEndpointId tag s
  | .getEndpointUuid tag => Sys2Proof.Machine.execGetEndpointUuid tag s
  | .getMctpVersionSupport tag msgType => Sys2Proof.Machine.execGetMctpVersionSupport tag msgType s
  | .getMessageTypeSupport tag => Sys2Proof.Machine.execGetMessageTypeSupport tag s
  | .readNvmeMiDataStructure tag dtyp port ctrl => Sys2Proof.Machine.execReadNvmeMiDataStructure tag dtyp port ctrl s
  | .nvmSubsystemHealthStatusPoll tag => Sys2Proof.Machine.execNvmSubsystemHealthStatusPoll tag s
  | .controllerHealthStatusPoll tag start maxEntries all => Sys2Proof.Machine.execControllerHealthStatusPoll tag start maxEntries all s
  | .configurationGet tag id port => Sys2Proof.Machine.execConfigurationGet tag id port s
  | .configurationSet tag id port value => Sys2Proof.Machine.execConfigurationSet tag id port value s
  | .basicManagementCommand tag code => Sys2Proof.Machine.execBasicManagementCommand tag code s
  | .adminCommandTunnel ctrl cid cmd => Sys2Proof.Machine.execAdminCommandTunnel ctrl cid cmd s
  | .miUnsupportedCommand tag => Sys2Proof.Machine.execMiUnsupportedCommand tag s
  | .registerWrite addr value => Sys2Proof.Machine.execRegisterWrite addr value s
  | .epochAheadRetry peer opid => Sys2Proof.Machine.execEpochAheadRetry peer opid s
  | .contribDoneReply hdr stripe position index => Sys2Proof.Machine.execContribDoneReply hdr stripe position index s
  | .retractReply hdr stripe position index => Sys2Proof.Machine.execRetractReply hdr stripe position index s
  | .otherInboundPacket d => Sys2Proof.Machine.execOtherInboundPacket d s
  | .perstNRelease d => Sys2Proof.Machine.execPerstNRelease d s
  | .vauxRise => Sys2Proof.Machine.execVauxRise s
  | .dieTemperatureBackInRange d t => Sys2Proof.Machine.execDieTemperatureBackInRange d t s
  | .zeroFillComplete d => Sys2Proof.Machine.execZeroFillComplete d s
  | .pcieL12Entry d => Sys2Proof.Machine.execPcieL12Entry d s
  | .pcieL12Exit d => Sys2Proof.Machine.execPcieL12Exit d s

end Sys2Proof.Machine
end

