-- ==== Sys2Proof/Machine/Idle.lean ====
section
/-! DEFINITION. What the package does with no command waiting: it ends what has come to its end (R287, R291, R339, R484; DESIGN CHOICE, log entry 49). -/

namespace Sys2Proof.Machine

/-- Background work that a power state, a diapause or an activation held goes on where it may (R292, R364, R449 step 6). -/
def State.settleWork (s : State) : State :=
  if s.keeper.boot.stage = .serving ∧ s.copiesRun = true then s.eachRegion fun s g => (s.copyTurns g).runTurns g else s

/-- Shutdowns whose commands have completed, a crypto erase whose records are durable, a sanitize whose bands are reclaimed, a live apply at its barrier,
a changed Critical Warning and held background work; then one tick of real time (R27). -/
def State.idle (s : State) : State := (((((((s.settleShutdown 0).settleShutdown 1).settleErase).settleSanitize).settleApply).settleWarnings).settleWork).tick

end Sys2Proof.Machine
end

