-- ==== Sys2Proof/Machine/Balls.lean ====
section
/-! DEFINITION. What the balls show: the states of R508 and R509, read off the state of the package. A ball that a running unit drives
under the rules of its interface reads `driven` (DEDUCED, log entry 114). -/

namespace Sys2Proof.Machine

/-- The balls of R508. -/
inductive Ball where
  | nandCe (l : LaneIx) (n : Fin 8)
  | nandWp (l : LaneIx)
  /-- WE_N and RE_T of a lane. -/
  | nandStrobe (l : LaneIx)
  /-- ALE and CLE of a lane. -/
  | nandLatch (l : LaneIx)
  /-- DQ and DQS of a lane. -/
  | nandData (l : LaneIx)
  | dramCommand (d : DieIx)
  | dramData (d : DieIx)
  | dramResetN (d : DieIx)
  | hostTx (p : DieIx)
  | hostClkreqN (p : DieIx)
  | swarmTx (p : DieIx)
  | huIso | huChgEn | huTest
  | faultN
  | managementPort
  | xtal25 | xtal32k
  deriving DecidableEq, Repr

/-- What a ball shows. -/
inductive BallLevel where
  | highZ | high | low
  | selfRefresh
  | noReceiver
  | linkKept
  | asLinkRequires
  | electricalIdle
  | active
  | stopped | running
  /-- Driven by a running unit under the rules of its interface. -/
  | driven
  deriving DecidableEq, Repr

/-- The condition that R508 gives the balls of a die. -/
inductive BallCond where
  | unpowered | carapaceOnly | diesInReset | safeState | running
  deriving DecidableEq, Repr

/-- The condition of a die's balls (R508, R509): the safe state from step 8 of R477; a die held in reset shows the reset state. -/
def State.ballCond (s : State) (d : DieIx) : BallCond :=
  if !s.keeper.sup.vkeep then .unpowered
  else if !s.keeper.sup.vinOk then .carapaceOnly
  else if s.keeper.sup.state = .safe then .safeState
  else if (s.com d).inReset then .diesInReset
  else .running

/-- The package's own condition: that of D0, with either die running counted as running. -/
def State.ballCondAll (s : State) : BallCond :=
  if s.ballCond 0 = .diesInReset ∧ s.ballCond 1 = .running then .running else s.ballCond 0

/-- A pin that the keeper drives high or low. -/
def levelOf (b : Bool) : BallLevel := if b then .high else .low

/-- A NAND ball by its die's condition; `run` is what a running lane shows. -/
def nandBall (c : BallCond) (reset safe run : BallLevel) : BallLevel :=
  match c with
  | .unpowered | .carapaceOnly => .highZ
  | .diesInReset => reset
  | .safeState => safe
  | .running => run

/-- The state of a ball (R508, R509). -/
def State.ball (s : State) (b : Ball) : BallLevel :=
  let quar (l : LaneIx) (x : BallLevel) : BallLevel := if s.lanes[l].quarantined then x else .driven
  let keeperPin (x : Bool) : BallLevel := match s.ballCondAll with
    | .unpowered | .carapaceOnly => .highZ
    | .diesInReset | .safeState | .running => levelOf x
  match b with
  | .nandCe l _ => nandBall (s.ballCond (dieOfLane l)) .highZ .high (quar l .high)
  | .nandWp l => nandBall (s.ballCond (dieOfLane l)) (if s.keeper.sup.vccqOk then .low else .highZ) .low (quar l .low)
  | .nandStrobe l => nandBall (s.ballCond (dieOfLane l)) .highZ .high .driven
  | .nandLatch l => nandBall (s.ballCond (dieOfLane l)) .highZ .low .driven
  | .nandData l => nandBall (s.ballCond (dieOfLane l)) .highZ .highZ .driven
  | .dramCommand d => nandBall (s.ballCond d) .highZ .selfRefresh (if s.selfRefresh then .selfRefresh else .driven)
  | .dramData d => nandBall (s.ballCond d) .highZ .highZ .driven
  | .dramResetN d => nandBall (s.ballCond d) .highZ .high .driven
  | .hostTx p => nandBall (s.ballCond p) .noReceiver .linkKept .driven
  | .hostClkreqN p => nandBall (s.ballCond p) .highZ .asLinkRequires .asLinkRequires
  | .swarmTx p => nandBall (s.ballCond p) .highZ .electricalIdle .driven
  | .huIso => keeperPin s.keeper.sup.huIso
  | .huChgEn => keeperPin s.keeper.sup.huChgEn
  | .huTest => keeperPin s.keeper.sup.huTest
  | .faultN => match s.ballCondAll with
    | .unpowered | .carapaceOnly => .highZ
    | .safeState => .low
    | .diesInReset | .running => if s.faultNLow then .low else .highZ
  | .managementPort => match s.ballCondAll with
    | .unpowered => .highZ
    | .carapaceOnly | .diesInReset | .safeState | .running => .active
  | .xtal25 => match s.ballCondAll with
    | .unpowered | .carapaceOnly => .stopped
    | .diesInReset | .safeState | .running => if s.keeper.sup.xtal25 then .running else .stopped
  | .xtal32k => match s.ballCondAll with
    | .unpowered => .stopped
    | .carapaceOnly | .diesInReset | .safeState | .running => if s.keeper.sup.xtal32k then .running else .stopped

end Sys2Proof.Machine
end

