-- ==== Sys2Proof/Safety.lean ====
section
/-! DEFINITION. What a claim about the part is stated in: the state without its event reporting, and what the store die keeps through every
command. -/

namespace Sys2Proof.Machine

/-! The part without event bits and tokens: what reporting an event leaves alone (R458, R467). -/

/-- IRQ with nothing pending. -/
def Irq.mute (x : Irq) : Irq := { x with pend := 0 }
def LaneSt.mute (x : LaneSt) : LaneSt := { x with irq := x.irq.mute }
def ClusterSt.mute (x : ClusterSt) : ClusterSt := { x with irq := x.irq.mute }
def RegionSt.mute (x : RegionSt) : RegionSt := { x with irq := x.irq.mute }
def DieSt.mute (x : DieSt) : DieSt :=
  { x with
    common := { x.common with irq := x.common.irq.mute }
    hstIrq := x.hstIrq.mute, swmIrq := x.swmIrq.mute, memIrq := x.memIrq.mute, bpmIrq := x.bpmIrq.mute, cphIrq := x.cphIrq.mute }
def Keeper.mute (x : Keeper) : Keeper :=
  { x with
    sup := { x.sup with irq := x.sup.irq.mute }
    fc := { x.fc with tokens := [] } }
def Store.mute (x : Store) : Store := { x with irq := x.irq.mute }

/-- The state with no event bit pending and no token on its way. -/
def State.mute (s : State) : State :=
  { s with
    keeper := s.keeper.mute
    store := s.store.mute, dies := s.dies.map DieSt.mute, regions := s.regions.map RegionSt.mute,
    clusters := s.clusters.map ClusterSt.mute, lanes := s.lanes.map LaneSt.mute }

/-! Conditions that several statements share. -/

/-- Entry `e` of lane `l` is the one that the lane starts next, it asks for this operation, nothing of R44 or R185 holds it up, and context
`c` is free for it (R42 to R44, R185). -/
abbrev State.starts (s : State) (l : LaneIx) (op : LaneOp) (e : QEntry) (c : CtxIx) : Prop :=
  s.lanes[l].nextStart = some e ∧ e.desc.op = some op ∧
  onErasing (s.lanes[l].queue.takeWhile fun q => q.desc.tag != e.desc.tag) e = false ∧
  (s.dirtyMissing e).isEmpty = true ∧ s.ctxFor l op = some c

/-- The state in which a started operation acts: the dirty bits that go ahead are in the journal, and the entry is bound to its context (R42, R185). -/
abbrev State.startBind (s : State) (l : LaneIx) (c : CtxIx) (e : QEntry) (op : LaneOp) : State := (s.markDirty (s.dirtyAhead e)).bind l c e op

/-- Context `c` of lane `l` fetches `word` for entry `e`: `k` is the context, which does not wait for the channel, at the address that the
fetch goes to, in ROM, or in patch RAM where that word stands (R43, R58, R62). -/
abbrev State.fetches (s : State) (l : LaneIx) (c : CtxIx) (word : BitVec 24) (e : QEntry) (k : Ctx) : Prop :=
  (s.lanes[l].ctxs[c]).map (fun x => { x with pc := s.lanes[l].fetchAt x.pc }) = some k ∧
  s.lanes[l].queue.find? (fun e => e.ctx == some c) = some e ∧ k.waits = false ∧
  (k.pc.toNat < 0x2000 ∨ (k.pc.toNat < 0x2400 ∧ k.pc.toNat - 0x2000 < s.lanes[l].patch.words.length ∧
    s.lanes[l].patch.words.getD (k.pc.toNat - 0x2000) 0 = word))

/-- The lane and the context of a microword (R59); none for every other command. -/
def microOf : Instr → Option (LaneIx × CtxIx)
  | .nop l c => some (l, c)
  | .jmp l c _ => some (l, c)
  | .brc l c _ _ => some (l, c)
  | .call l c _ => some (l, c)
  | .ret l c => some (l, c)
  | .ldi l c _ _ => some (l, c)
  | .ldu l c _ _ => some (l, c)
  | .ldd l c _ _ => some (l, c)
  | .addi l c _ _ _ => some (l, c)
  | .alu l c _ _ _ _ => some (l, c)
  | .cmp l c _ _ => some (l, c)
  | .tbl l c _ _ _ => some (l, c)
  | .sync l c => some (l, c)
  | .yld l c => some (l, c)
  | .cen l c _ => some (l, c)
  | .cmd l c _ _ => some (l, c)
  | .adr l c _ _ => some (l, c)
  | .adx l c _ _ => some (l, c)
  | .dout l c _ _ => some (l, c)
  | .din l c _ _ _ => some (l, c)
  | .stat l c _ _ _ => some (l, c)
  | .wrdy l c _ _ => some (l, c)
  | .tim l c _ => some (l, c)
  | .wait l c _ => some (l, c)
  | .lvl l c _ _ _ => some (l, c)
  | .phy l c _ => some (l, c)
  | .loop l c _ _ => some (l, c)
  | .susp l c => some (l, c)
  | .sto l c _ _ => some (l, c)
  | .evt l c _ => some (l, c)
  | .done l c _ => some (l, c)
  | .trap l c _ => some (l, c)
  | _ => none

/-- An admin command of this kind runs: no earlier one does, its die takes tokens or it has its slot, and the present state refuses it nothing
(R26, R285, R369 to R386, R490). -/
abbrev State.admits (s : State) (k : AdminKind) (ref : CmdRef) : Prop :=
  s.adminBusy k ref = false ∧ s.tokensHeld ref = false ∧ s.adminGate k ref = none

/-- The state in which an I/O command is carried out: it has its slot and its lookups. -/
abbrev State.begun (s : State) (c : SlotCmd) : State := (s.fetch c).takeLooks c

/-- An I/O command is carried out: its controller fetches from the queue, it has its slot or may take one, nothing refuses it and no earlier
command holds it (R31, R279, R281, R285, R291, R303). -/
abbrev State.runsIo (s : State) (c : SlotCmd) : Prop :=
  s.queueLive c.ref = true ∧ (s.fetched c.ref = true ∨ s.mayFetch c = true) ∧ (s.fetch c).ioFault c = none ∧ (s.fetch c).ioWaits c = false ∧
  (s.fetch c).lookBlocked c = none

/-- The store die answers, no command sequence stands open and none waits (R426, R428). -/
abbrev State.storeFree (s : State) : Prop := s.storeUp = true ∧ s.store.seq = none ∧ s.store.waiting = []

/-- The package acts on a message of a swarm operation: it takes part, the message is of the current or trailing epoch, and no answer to it
stands (R205, R256). -/
abbrev State.takesMsg (s : State) (hdr : MsgHdr) (b : RxBody) : Prop :=
  s.hears hdr.peer = true ∧ (hdr.epoch = s.epoch ∨ some hdr.epoch = s.swarm.trailing) ∧
  (rxReply b = true ∨ s.swarm.answered.find? (fun a => a.1.peer == hdr.peer && a.1.opid == hdr.opid) = none)

/-- The message of a swarm operation that a command delivers (R257); none for every other command. -/
def rxOf : Instr → Option (MsgHdr × RxBody)
  | .sealNotice hdr region seg band => some (hdr, .sealNotice region seg band)
  | .slotAssign hdr stripe position m version holders => some (hdr, .slotAssign stripe position m version holders)
  | .stripeRecord hdr restore r => some (hdr, .stripeRecord restore r)
  | .stripeRecordAck hdr stripe version => some (hdr, .stripeRecordAck stripe version)
  | .contribData hdr stripe position index first count => some (hdr, .contribData stripe position index first count)
  | .contribDone hdr stripe position index crcOk => some (hdr, .contribDone stripe position index crcOk)
  | .contribDoneReply hdr stripe position index => some (hdr, .contribDoneReply stripe position index)
  | .retract hdr stripe position index first count neverSent release last behalf crcOk =>
    some (hdr, .retract stripe position index first count neverSent release last behalf crcOk)
  | .retractReply hdr stripe position index => some (hdr, .retractReply stripe position index)
  | .rebuildRead hdr stripe what index first count rows stepFive => some (hdr, .rebuildRead stripe what index first count rows stepFive)
  | .rebuildData hdr stripe what index first count last push reply crcOk bad record grans =>
    some (hdr, .rebuildData stripe what index first count last push reply crcOk bad record grans)
  | _ => none

/-! What every command keeps. -/

/-- An open sequence has not yet all the operands that its code takes (R427). -/
def waitsForOperands : SeqStep → Bool
  | .operands code ws => decide (ws.length < if code = 0x10 then 2 else 64)
  | _ => true

/-- What the store die keeps (R422 to R424, R429, R431, R432, R437): its array in canonical form; a running program outside the factory area;
no sector of the factory area under erase, waiting for one or marked with intent; no erase running beside a program;
and an open sequence with operands still to come. -/
abbrev State.storeKept (s : State) : Prop :=
  memWf s.store.array = true ∧
  (∀ p, s.store.prog = some p → p.offset + p.bytes.length ≤ 0x7F00000) ∧
  (∀ e, s.store.erase = some e → (∀ n ∈ e.sectors, isFactory n = false) ∧ (s.store.prog.isSome = true → e.susp ≠ .running)) ∧
  (∀ n ∈ s.store.intentPending, isFactory n = false) ∧
  (∀ r ∈ s.store.rows, r.intent = true → isFactory r.sector = false) ∧
  (∀ o, s.store.seq = some o → waitsForOperands o.step = true)

/-- No die holds more than four open shadows (R466). -/
abbrev State.shadowsKept (s : State) : Prop := ∀ d : DieIx, (s.com d).shadows.length ≤ 4

end Sys2Proof.Machine
end

