-- ==== Sys2Proof/Certificates/Slice0/Obligations.lean ====
section
/-! DEFINITION. Statements about the part, from the numbered rules of the spec: what each command does, what it leaves alone, and what every
command keeps. -/

open Sys2Proof Sys2Proof.Machine


/-- R26, R28, R31, R32, R34, R36, R37: the supply and clock events of the fabric, the die bridge and the crossings. -/
def Obligations.FabricEventsAct : Prop :=
  ((∀ (s : State) (d : DieIx) (mv : Nat), mv < 530 ∨ 880 < mv → s.shaded (.die d) = false →
    exec (.vcoreOutOfWindow d mv) s = .next ((((s.updCommon d fun c => { c with vcoreMeas := mv, vcoreBad := true }).raise (dieSrc d 17)).updCommon d
      fun c => { c with tokensPaused := true }).openShadow d (dieSrc d 17) (.dieAndBridge d) (.die d))) ∧
  (∀ (s : State) (d : DieIx) (mv : Nat), mv < 530 ∨ 880 < mv → s.shaded (.die d) = true →
    exec (.vcoreOutOfWindow d mv) s = .next ((s.updCommon d fun c => { c with vcoreMeas := mv, vcoreBad := true }).raise (dieSrc d 17))) ∧
  (∀ (s : State) (d : DieIx) (mv : Nat), 550 ≤ mv → mv ≤ 850 →
    exec (.vcoreWindowRestored d mv) s = .next (s.updCommon d fun c => { c with vcoreMeas := mv, vcoreBad := false, tokensPaused := false })) ∧
  (∀ s : State, s.keeper.sup.vinOk = true → s.keeper.sup.xtal25 = true →
    exec .xtal25Stop s = .next ((((((allCrossings.foldl (fun s x => s.updCrossing x fun c => { c with clockOn := false })
      (s.updSup fun x => { x with xtal25 := false })).hostLinkLost 0).hostLinkLost 1).swarmLinkLost 0).swarmLinkLost 1))) ∧
  (∀ s : State, s.keeper.sup.xtal32k = true →
    exec .xtal32kStop s = .next (if s.keeper.sup.vinOk then (s.updSup fun x => { x with xtal32k := false }).raise 382
      else (s.updSup fun x => { x with xtal32k := false }).updTk fun t => { t with kept := false })) ∧
  (∀ (s : State) (d : DieIx), s.hostLinkUp d = true →
    exec (.pcieL12Entry d) s = .next (s.updCommon d fun c => { c with
      pcie := { c.pcie with clockOn := false, ctlIn := c.pcie.ctlIn.send (s.com d).inService } })) ∧
  (∀ (s : State) (d : DieIx), s.hostLinkUp d = true → s.clocksRun = true →
    exec (.pcieL12Exit d) s = .next (s.updCommon d fun c => { c with
      pcie := { c.pcie with clockOn := true, ctlIn := c.pcie.ctlIn.send (s.com d).inService } }))) ∧
  ((∀ (s : State) (d : DieIx) (tag : Nat) (x : BridgeXfer), s.bridgeUp = true → (s.com d).tokensPaused = false →
    (s.com d).bridge.out.find? (·.tag == tag) = some x → (s.com d).bridge.waiting = [] → (∀ x ∈ (s.com d).bridge.out, x.fails < 8) →
    exec (.dieBridgeTransfer d tag true) s = .next ((match x.item with
        | .request ref => s.bridgeSend (otherDie d) (.answer ref) x.kind
        | .answer _ | .other => s).updCommon d fun c => { c with
      bridge := { c.bridge with out := c.bridge.out.filter (·.tag != tag) } })) ∧
  (∀ (b : BridgeDir) (tag : Nat) (w : BridgeXfer), b.out.any (·.tag == tag) = true → b.waiting = [w] → b.out.length ≤ 256 →
    bridgeArrive b tag true = { b with out := b.out.filter (·.tag != tag) ++ [w], waiting := [] }) ∧
  (∀ (s : State) (d : DieIx) (tag : Nat), s.bridgeUp = true → (s.com d).tokensPaused = false →
    (s.com d).bridge.out.any (·.tag == tag) = true ∨ (s.com d).bridge.out.length < 256 →
    exec (.dieBridgeTransfer d tag false) s = .next (
      let b := bridgeArrive (s.com d).bridge tag false
      let t := (s.updCommon d fun c => { c with bridge := b }).raise (dieSrc d 15)
      if b.out.any (fun x => decide (8 ≤ x.fails)) then t.bridgeLost else t)) ∧
  (∀ (s : State) (d : DieIx) (tag : Nat) (ok : Bool), s.bridgeUp = true → (s.com d).tokensPaused = false →
    (s.com d).bridge.out.any (·.tag == tag) = false → 256 ≤ (s.com d).bridge.out.length →
    exec (.dieBridgeTransfer d tag ok) s = .next (s.updCommon d fun c => { c with
      bridge := { c.bridge with waiting := c.bridge.waiting ++ [BridgeXfer.mk tag 0 .other .read] } })) ∧
  (∀ (s : State) (d : DieIx) (tag : Nat) (ok : Bool), (s.com d).tokensPaused = true → exec (.dieBridgeTransfer d tag ok) s = .next s) ∧
  (∀ s : State, s.bridgeUp = true → (∃ d, (s.com d).bridge.out ≠ [] ∨ (s.com d).bridge.waiting ≠ []) →
    exec .dieBridgeHandshakeTimeout s = .next s.bridgeLost) ∧
  (∀ (s : State) (x : CrossingId) (phy : Bool), exec (.crossingReset x phy) s = .next (
    let t := s.updCrossing x fun c => c.resetSide x phy
    match x with
    | .nand l => t.laneReissue l
    | .pcie _ | .lpddr _ | .swarm _ => t)) ∧
  (∀ (c : Crossing) (x : CrossingId) (phy : Bool), (c.resetSide x phy).running = false ∧
    (c.resetSide x phy).readyIn = (c.readyIn && phy) ∧ (c.resetSide x phy).readyOut = (c.readyOut && !phy) ∧
    (phy = true → (c.resetSide x phy).toPhy.rd = 0 ∧ (c.resetSide x phy).fromPhy.wr = 0) ∧
    (phy = false → (c.resetSide x phy).toPhy.wr = 0 ∧ (c.resetSide x phy).fromPhy.rd = 0)) ∧
  (∀ (s : State) (x : CrossingId), exec (.crossingReadyHandshake x) s = .next (s.updCrossing x fun c => c.handshake x s.clocksRun)) ∧
  (∀ (c : Crossing) (x : CrossingId) (go : Bool), let d := c.handshake x go
    d.running = true ∧ d.readyIn = true ∧ d.readyOut = true ∧ d.fromPhy = ⟨0, 0⟩ ∧ d.toPhy.wr = d.toPhy.rd ∧
    d.clockOn = (c.clockOn || (c.wakeHeld && go)) ∧ d.wakeHeld = (c.wakeHeld && !go) ∧ d.ctlOut.waiting = 0 ∧ d.ctlIn.waiting = 0) ∧
  (∀ t : Toggle, t.req = t.ack → t.waiting = 0 → t.send true = { t with req := !t.req, ack := !t.ack, pulses := t.pulses + 1 } ∧
    t.send false = { t with req := !t.req } ∧ (t.send false).send false = { t with req := !t.req, waiting := 1 } ∧
    ((t.send false).send false).deliver = { t with pulses := t.pulses + 2 }) ∧
  (∀ (s : State) (x : CrossingId) (first : Bool), (s.crossing x).running = true → s.clocksRun = true →
    exec (.phyWakeRequest x first) s = .next (s.updCrossing x fun c => { c with
      clockOn := true, idleTimer := !(first && (s.crossing x).clockOn) })) ∧
  (∀ (s : State) (x : CrossingId) (first : Bool), (s.crossing x).running = false ∨ s.clocksRun = false →
    exec (.phyWakeRequest x first) s = .next (s.updCrossing x fun c => { c with wakeHeld := true })) ∧
  (∀ (s : State) (l : LaneIx) (wake : Bool), s.lanes[l].crossing.running = true → s.lanes[l].crossing.clockOn = true → s.laneIdle l = true →
    exec (.phyIdleTimerExpiry l wake) s = .next (s.updLane l fun y => { y with
      crossing := { y.crossing with clockOn := wake, idleTimer := wake } })))

/-- R40, R42, R43, R46 to R48, R51, R185: the start of each lane operation. -/
def Obligations.LaneOperationsStart : Prop :=
  (∀ (s : State) (l : LaneIx) (e : QEntry) (c : CtxIx),
    (s.starts l .readPage e c → exec (.readPage l) s = .next (s.startBind l c e .readPage)) ∧
    (s.starts l .readSoft e c → exec (.readSoft l) s = .next (s.startBind l c e .readSoft)) ∧
    (s.starts l .marginRead e c → exec (.marginRead l) s = .next (s.startBind l c e .marginRead)) ∧
    (s.starts l .offsetSweep e c → exec (.offsetSweep l) s = .next (s.startBind l c e .offsetSweep)) ∧
    (s.starts l .programPage e c → exec (.programPage l) s = .next (s.startBind l c e .programPage)) ∧
    (s.starts l .programPass e c → exec (.programPass l) s = .next (s.startBind l c e .programPass)) ∧
    (s.starts l .setFeature e c → exec (.setFeature l) s = .next (s.startBind l c e .setFeature)) ∧
    (s.starts l .getFeature e c → exec (.getFeature l) s = .next (s.startBind l c e .getFeature)) ∧
    (s.starts l .readStatus e c → exec (.readStatus l) s = .next (s.startBind l c e .readStatus)) ∧
    (s.starts l .eraseBlock e c → exec (.eraseBlock l) s = .next ((s.startBind l c e .eraseBlock).updLane l fun x => { x with
      erases := x.erases ++ [EraseRun.mk e.desc.tag e.desc.unit .running false 0 false false false] })) ∧
    ((∀ g b, e.purpose ≠ .dataRow g b) → ∀ op, s.startBind l c e op = s.bind l c e op)) ∧
  (∀ (s : State) (l : LaneIx) (e : QEntry) (c : CtxIx), s.starts l .suspend e c →
    let t := s.startBind l c e .suspend
    (t.lanes[l].erases.find? (fun r => r.unit == e.desc.unit) = none →
      exec (.suspend l) s = .next (t.settle l { e with ctx := some c } .ok 0 0 0)) ∧
    (∀ r : EraseRun, t.lanes[l].erases.find? (fun r => r.unit == e.desc.unit) = some r →
      (e.desc.critical = false → r.held = false → t.lanes[l].suspLimit ≤ r.count →
        exec (.suspend l) s = .next (t.settle l { e with ctx := some c } .ok 0 0 0)) ∧
      (r.phase = .running → e.desc.critical = true ∨ r.held = true ∨ r.count < t.lanes[l].suspLimit →
        exec (.suspend l) s = .next (t.updLane l fun x =>
          (x.updErase e.desc.unit fun r => { r with phase := .suspending, held := true }).cycle (.suspend e.desc.unit))))) ∧
  (∀ (s : State) (l : LaneIx) (e : QEntry) (c : CtxIx), s.starts l .resume e c →
    let t := s.startBind l c e .resume
    (suspendedOn t.lanes[l] e.desc.unit = none → exec (.resume l) s = .next (t.settle l { e with ctx := some c } .ok 0 0 0)) ∧
    ((suspendedOn t.lanes[l] e.desc.unit).isSome = true →
      exec (.resume l) s = .next ((t.updLane l fun x => x.resumeErase e.desc.unit).settle l { e with ctx := some c } .ok 0 0 0))) ∧
  (∀ (s : State) (l : LaneIx) (e : QEntry) (c : CtxIx) (tries : List Bool), s.starts l .train e c → s.patchAwaited l = false → s.lanes[l].owner = none →
    let b := s.startBind l c e .train
    let t := b.fullTraining l .startOrTrain false (b.laneRate l) 3 tries
    ∀ q : QEntry, t.lanes[l].queue.find? (fun q => q.desc.tag == e.desc.tag) = some q →
      exec (.train l tries) s = .next (t.settle l q (if t.lanes[l].inService && !(b.shaded (.lane l) && !b.triesPass tries) then .ok else .phyFault) 0 0 0))

/-- R29 to R31, R38, R39, R182: descriptors and freed slots. -/
def Obligations.LaneQueueTakesDescriptors : Prop :=
  (∀ (s : State) (l : LaneIx) (d : Descriptor) (p : Purpose),
    (s.descAccepted l d = false → exec (.descriptorSubmit l d p) s =
      .next ((s.updLane l fun x => { x with completions := x.completions ++ [completionOf d .refused 0 0 0 0 0] }).raise2 (laneSrc l 5) (eventLun d) (eventTag d))) ∧
    (s.descAccepted l d = true → s.submission l d p = .notIt ∨ s.submission l d p = .held → exec (.descriptorSubmit l d p) s = .next s) ∧
    (∀ (t : State) (q : Purpose), s.descAccepted l d = true → s.submission l d p = .go t q →
      (∀ k : SlotKind, t.lanes[l].waiting = [] → slotFor t.lanes[l].queue d = some k → exec (.descriptorSubmit l d p) s =
        .next ((t.updLane l fun x => { x with queue := x.queue ++ [QEntry.mk d q k none] }).turns l)) ∧
      (t.lanes[l].waiting = [] → slotFor t.lanes[l].queue d = none → exec (.descriptorSubmit l d p) s =
        .next (t.updLane l fun x => { x with waiting := x.waiting ++ [(d, q)] })) ∧
      (t.lanes[l].waiting ≠ [] → exec (.descriptorSubmit l d p) s =
        .next ((t.updLane l fun x => { x with waiting := x.waiting ++ [(d, q)] }).grantSlot l))) ∧
    (∀ o : LaneOp, d.op = some o → programOp o = false → o ≠ .eraseBlock → s.submission l d .plain = .go s .plain) ∧
    (∀ (g : RegionIx) (b u : Nat), (s.band g b).carriesParity = true → d.pass = 0 →
      s.clusters[clusterOfLane l].accRows.any (fun r => r.band == b && r.row == d.wordline.toNat) = false →
      (accMemory < s.accUsed (clusterOfLane l) + s.accRowBytes g b → s.accTake l g b u d = none) ∧
      (s.accUsed (clusterOfLane l) + s.accRowBytes g b ≤ accMemory → s.accTake l g b u d =
        some (s.updCluster (clusterOfLane l) fun x => { x with accRows := x.accRows ++ [AccRow.mk b d.wordline.toNat [u]] })))) ∧
  (∀ (s : State) (l : LaneIx) (w : Descriptor × Purpose) (k : SlotKind), bestWaiting s.lanes[l].queue s.lanes[l].waiting = some w →
    (s.updLane l fun x => { x with waiting := x.waiting.erase w }).descAccepted l w.1 = true → slotFor s.lanes[l].queue w.1 = some k →
    exec (.resourceSlotFree (.laneQueue l)) s = .next ((s.updLane l fun x => { x with waiting := x.waiting.erase w }).enqueue l w.1 w.2 k)) ∧
  (∀ (s : State) (d : DieIx) (c : SlotCmd) (rest : List SlotCmd), s.dies[d].host.backlog = c :: rest → s.dies[d].host.slots.length < 1024 →
    exec (.resourceSlotFree (.hostSlots d)) s = .next (s.updHost d fun h => { h with slots := h.slots ++ [c], backlog := rest })) ∧
  (∀ (s : State) (g : RegionIx) (x : SlotCmd), (s.dies[0].host.slots ++ s.dies[1].host.slots).find? (fun x => x.looks[g] != 0) = some x →
    exec (.resourceSlotFree (.lookups g)) s = .next (((s.updSlots fun y => if y.ref == x.ref then { y with looks := y.looks.set g (y.looks[g] - 1) } else y).updRegion g
      fun r => { r with lookups := r.lookups - 1 }).grantLookup g)) ∧
  (∀ (s : State) (d : DieIx) (x : BridgeXfer), firstRanked (fun x => workRank x.kind) (s.com d).bridge.waiting = some x → (s.com d).bridge.out.length < 256 →
    exec (.resourceSlotFree (.bridge d)) s = .next (s.updCommon d fun c => { c with
      bridge := { c.bridge with out := c.bridge.out ++ [x], waiting := c.bridge.waiting.erase x } }))

/-- R41, R46 to R49, R52, R53, R55, R57, R61, R64, R444: results, timers and supervision of a lane. -/
def Obligations.LaneResultsAndTimers : Prop :=
  (∀ (s : State) (l : LaneIx) (tag : Half) (st : NandStatus) (v : LunReply) (e : QEntry) (op : LaneOp),
    s.lanes[l].queue.find? (fun e => e.desc.tag == tag) = some e → e.ctx.isSome = true → e.desc.op = some op →
    (s.lanes[l].erases.find? (fun r => r.tag == tag) = none → op ≠ .train → op ≠ .suspend → op ≠ .resume →
      (st.ready = true → exec (.lunReady l tag st v) s = .next (s.arrayDone l e op st v)) ∧
      (st.ready = false → exec (.lunReady l tag st v) s = .next (s.statusSeen l e st))) ∧
    (∀ r : EraseRun, s.lanes[l].erases.find? (fun r => r.tag == tag) = some r → r.phase = .running → st.ready = true →
      exec (.lunReady l tag st v) s = .next (s.arrayDone l e op st v)) ∧
    (∀ r : EraseRun, s.lanes[l].erases.find? (fun r => r.tag == tag) = some r → r.phase = .suspending → st.suspended = true →
      exec (.lunReady l tag st v) s = .next (s.suspendConfirmed l r st.raw))) ∧
  (∀ (s : State) (l : LaneIx) (tag : Half) (e : QEntry),
    s.lanes[l].queue.find? (fun e => e.desc.tag == tag) = some e → e.ctx.isSome = true →
    s.lanes[l].erases.any (fun r => r.tag == tag && r.phase == .suspended) = false → e.desc.op ≠ some .train →
    exec (.statusTimeout l tag) s = .next (
      let v := s.updLane l fun x => { x with bus := x.bus ++ [.lunReset e.desc.unit], err := { x.err with timeout := satAdd 255 x.err.timeout 1 } }
      let t := (v.raise2 (laneSrc l 2) (eventLun e.desc) (eventTag e.desc)).settle l e .timeout (v.lastNand l e) 0 0
      let p := t.finishAll l .abandoned (t.lanes[l].queue.filter fun q => t.lanes[l].erases.any fun r => r.tag == q.desc.tag && r.unit == e.desc.unit)
      ((p.1.onDoneAll p.2).countTimeout e.desc.lunNo).turns l)) ∧
  (∀ (s : State) (l : LaneIx) (u : LunIx), (runningOn s.lanes[l] u).isSome = true →
    exec (.minEraseRunTimeExpiry l u) s = .next ((s.updLane l fun x => x.updErase u fun r => { r with minMet := true }).suspendIfDue l u)) ∧
  (∀ (s : State) (l : LaneIx) (u : LunIx) (r : EraseRun), suspendedOn s.lanes[l] u = some r → r.held = false →
    (lunBusy s.lanes[l] u = false → exec (.maxSuspendedTimeExpiry l u) s = .next (s.updLane l fun x => x.resumeErase u)) ∧
    (lunBusy s.lanes[l] u = true → exec (.maxSuspendedTimeExpiry l u) s = .next (s.updLane l fun x => x.updErase u fun r => { r with due := true }))) ∧
  (∀ (s : State) (l : LaneIx) (rs : List (Half × NandStatus)), ∃ t, exec (.laneReset l rs) s = .next t ∧
    t.lanes[l].ctxs = Vector.replicate 8 none ∧ t.lanes[l].owner = none ∧ t.lanes[l].erases = [] ∧ ∀ e ∈ t.lanes[l].queue, e.ctx = none) ∧
  (∀ (s : State) (l : LaneIx) (drift : Int), s.lanes[l].train.rate.isSome = true → exec (.dqsDriftTrack l drift) s =
    .next (s.updLane l fun x => { x with train := { x.train with dqsCorrection := x.train.dqsCorrection + drift } })) ∧
  (∀ (s : State) (l : LaneIx), s.lanes[l].train.rate.isSome = true → idleSlot s.lanes[l] = true → exec (.zqShortCalibration l) s =
    .next (s.updLane l fun x => { x with train := { x.train with zqShort := x.train.zqShort + (s.ces l).length } })) ∧
  (∀ (s : State) (l : LaneIx) (tries : List Bool) (c : TrainCause), s.retrainCause l = some c → s.lanes[l].inService = true →
    (idleSlot s.lanes[l] = true → exec (.laneRetrain l tries) s = .next (s.retrain l tries c)) ∧
    exec (.retrainIdleTimeout l tries) s = .next (s.retrain l tries c)) ∧
  (∀ (s : State) (l : LaneIx), s.lanes[l].inService = true → exec (.lneCtrlRetrain l) s =
    .next (s.updLane l fun x => { x with train := { x.train with pending := some (x.train.pending.getD .request) } })) ∧
  (∀ (s : State) (l : LaneIx), exec (.lneCtrlCntClr l) s =
    .next (s.updLane l fun x => { x with err := { prog := 0, erase := 0, timeout := 0, pending := 0 } })) ∧
  (∀ (s : State) (l : LaneIx) (ws : List (BitVec 24)) (q : MediaProfile), s.keeper.boot.lock = true → s.lanes[l].iface ≠ 0 →
    s.laneProfile l = some q → q.patchId ≠ 0 → s.lanes[l].patch.active = false → s.lanes[l].patch.rejections < 2 →
    s.lanes[l].ctxs.any (·.isSome) = false →
    (∀ b : PatchBlob, s.patchBlob l = some b → b.verified = true → s.keeper.prot.patchArb.toNat ≤ b.arb →
      let slots : Vector Word 32 := Vector.ofFn fun i => b.redirect.getD i.val 0
      patchOk ws b.crc slots = true → exec (.patchLoad l ws) s = .next ((s.updLane l fun x => { x with patch := { x.patch with
        patchId := BitVec.ofNat 8 b.patchId, crc := b.crc } }).updLane l fun x => { x with patch := { x.patch with
        words := ws, redirect := slots, active := true, rejected := false } })) ∧
    (s.patchBlob l = none → exec (.patchLoad l ws) s = .next (s.rejectPatch l)))

/-- R44: a read of a block with an accepted erase. -/
def Obligations.ReadOnErasingBlockReturnsPending : Prop :=
  (∀ (before : List QEntry) (e : QEntry),
    (∀ q ∈ before, q.desc.op = some .eraseBlock → q.desc.unit = e.desc.unit → q.desc.block ≠ e.desc.block) → onErasing before e = false) ∧
  ∀ (s : State) (l : LaneIx) (e : QEntry), s.lanes[l].nextStart = some e →
    onErasing (s.lanes[l].queue.takeWhile fun q => q.desc.tag != e.desc.tag) e = true →
    let t := ((s.updLane l fun x => { x with err := { x.err with pending := satAdd 255 x.err.pending 1 } }).raise2 (laneSrc l 7) (eventLun e.desc)
      (eventTag e.desc)).finishDesc l e .erasePending 0 0 0
    (t.1.lanes[l].bus = s.lanes[l].bus ∧ ∃ c, t.1.lanes[l].completions = s.lanes[l].completions ++ [c] ∧ c.tag = e.desc.tag ∧ c.status = .erasePending) ∧
    (e.desc.op = some .readPage → exec (.readPage l) s = .next ((t.1.onDone t.2).turns l)) ∧
    (e.desc.op = some .readSoft → exec (.readSoft l) s = .next ((t.1.onDone t.2).turns l)) ∧
    (e.desc.op = some .marginRead → exec (.marginRead l) s = .next ((t.1.onDone t.2).turns l)) ∧
    (e.desc.op = some .offsetSweep → exec (.offsetSweep l) s = .next ((t.1.onDone t.2).turns l))

/-- R58, R59: the microwords that act on their context alone. C after any ALU function but addition, and after CMP, is the model's free value. -/
def Obligations.MicrocodeComputes : Prop :=
  ∀ (s : State) (l : LaneIx) (c : CtxIx) (e : QEntry) (k : Ctx),
    (s.fetches l c (microword 0x00 0) e k → exec (.nop l c) s = .next (s.updCtx l c fun _ => { k with pc := k.pc + 1 })) ∧
    (∀ t : BitVec 14, s.fetches l c (microword 0x01 t.toNat) e k → exec (.jmp l c t) s = .next (s.updCtx l c fun _ => { k with pc := t })) ∧
    (∀ (b : BitVec 5) (t : BitVec 14) (v : Bool), s.fetches l c (microword 0x02 (b.toNat * 2 ^ 14 + t.toNat)) e k →
      s.condition l e k b.toNat = some v →
      exec (.brc l c b t) s = .next (s.updCtx l c fun _ => { k with pc := if v then t else k.pc + 1 })) ∧
    (∀ t : BitVec 14, s.fetches l c (microword 0x03 t.toNat) e k → k.stack.length < 4 →
      exec (.call l c t) s = .next (s.updCtx l c fun _ => { k with stack := (k.pc + 1) :: k.stack, pc := t })) ∧
    (∀ (t : BitVec 14) (rest : List (BitVec 14)), s.fetches l c (microword 0x04 0) e k → k.stack = t :: rest →
      exec (.ret l c) s = .next (s.updCtx l c fun _ => { k with stack := rest, pc := t })) ∧
    (∀ (d : Fin 16) (v : BitVec 15), s.fetches l c (microword 0x05 (d.val * 2 ^ 15 + v.toNat)) e k →
      exec (.ldi l c d v) s = .next (s.updCtx l c fun _ => { k with w := k.w.set d (v.setWidth 32), pc := k.pc + 1 })) ∧
    (∀ (d : Fin 16) (v : BitVec 15), s.fetches l c (microword 0x06 (d.val * 2 ^ 15 + v.toNat)) e k →
      exec (.ldu l c d v) s = .next (s.updCtx l c fun _ => { k with w := k.w.set d (v ++ (k.w[d]).extractLsb' 0 17), pc := k.pc + 1 })) ∧
    (∀ d w : Fin 16, s.fetches l c (microword 0x07 (d.val * 2 ^ 15 + w.val)) e k →
      exec (.ldd l c d w) s = .next (s.updCtx l c fun _ => { k with w := k.w.set d e.desc.words[w], pc := k.pc + 1 })) ∧
    (∀ (d a : Fin 16) (v : BitVec 11), s.fetches l c (microword 0x08 (d.val * 2 ^ 15 + a.val * 2 ^ 11 + v.toNat)) e k →
      exec (.addi l c d a v) s = .next (s.updCtx l c fun _ =>
        let r := k.w[a] + v.signExtend 32
        { k with w := k.w.set d r, z := r == 0, n := r.msb, c := decide (2 ^ 32 ≤ (k.w[a]).toNat + (v.signExtend 32).toNat), pc := k.pc + 1 })) ∧
    (∀ (d a b : Fin 16) (f : BitVec 3) (r : Word), s.fetches l c (microword 0x09 (d.val * 2 ^ 15 + a.val * 2 ^ 11 + b.val * 2 ^ 7 + f.toNat)) e k →
      aluResult f k.w[a] k.w[b] = some r → ∃ cf : Bool, (f = 0 → cf = decide (2 ^ 32 ≤ (k.w[a]).toNat + (k.w[b]).toNat)) ∧
      exec (.alu l c d a b f) s = .next { (s.updCtx l c fun _ => { k with w := k.w.set d r, z := r == 0, n := r.msb, c := cf, pc := k.pc + 1 }) with
        free := s.free + 1 }) ∧
    (∀ a b : Fin 16, s.fetches l c (microword 0x0A (a.val * 2 ^ 11 + b.val * 2 ^ 7)) e k → ∃ cf : Bool,
      exec (.cmp l c a b) s = .next { (s.updCtx l c fun _ => { k with z := k.w[a] - k.w[b] == 0, n := (k.w[a] - k.w[b]).msb, c := cf, pc := k.pc + 1 }) with
        free := s.free + 1 }) ∧
    (∀ (d : Fin 16) (t : BitVec 3) (i : BitVec 12) (p : MediaProfile) (v : Word), t.toNat < 5 → s.laneProfile l = some p → tableEntry p t.toNat i.toNat = some v →
      s.fetches l c (microword 0x0B (d.val * 2 ^ 15 + t.toNat * 2 ^ 12 + i.toNat)) e k →
      exec (.tbl l c d t i) s = .next (s.updCtx l c fun _ => { k with w := k.w.set d v, pc := k.pc + 1 })) ∧
    (∀ (d : Fin 16) (t : BitVec 14), s.fetches l c (microword 0x1A (d.val * 2 ^ 15 + t.toNat)) e k →
      exec (.loop l c d t) s = .next (s.updCtx l c fun _ =>
        { k with w := k.w.set d (k.w[d] - 1), pc := if k.w[d] - 1 = 0 then k.pc + 1 else t })) ∧
    (s.fetches l c (microword 0x1B 0) e k → exec (.susp l c) s = .next (s.updCtx l c fun _ => { k with
      s := match runningOn s.lanes[l] e.desc.unit with
        | some r => r.minMet && decide (r.count < s.lanes[l].suspLimit) && wantsLun s.lanes[l] r
        | none => false,
      pc := k.pc + 1 })) ∧
    (∀ (a : Fin 16) (w : Fin 4), s.fetches l c (microword 0x1C (a.val * 2 ^ 15 + w.val)) e k → (h : 1 ≤ w.val) →
      exec (.sto l c a w) s = .next (s.updCtx l c fun _ => { k with out := k.out.set (w.val - 1) (some k.w[a]), pc := k.pc + 1 }))

/-- R59, R60, R307: the microwords that act outside their context. -/
def Obligations.MicrocodeActsOnChannel : Prop :=
  ∀ (s : State) (l : LaneIx) (c : CtxIx) (e : QEntry) (k : Ctx),
    (s.fetches l c (microword 0x0C 0) e k →
      (s.lanes[l].owner = none ∨ s.lanes[l].owner = some c →
        exec (.sync l c) s = .next ((s.updLane l fun x => { x with owner := some c }).updCtx l c fun _ => { k with pc := k.pc + 1 })) ∧
      (∀ o : CtxIx, s.lanes[l].owner = some o → o ≠ c → exec (.sync l c) s = .next (s.updCtx l c fun _ => { k with waits := true }))) ∧
    (s.fetches l c (microword 0x0D 0) e k → exec (.yld l c) s = .next
      ((s.updCtx l c fun _ => { k with pc := k.pc + 1 }).updLane l fun x =>
        ({ x with owner := if x.owner = some c then none else x.owner } : LaneSt).grantChannel)) ∧
    (∀ n : Fin 8, s.fetches l c (microword 0x0E n.val) e k → exec (.cen l c ⟨n.val, by omega⟩) s = .next
      ((s.updLane l fun x => { x with bus := x.bus ++ [.ce (some n)], ce := some n }).updCtx l c fun _ => { k with pc := k.pc + 1 })) ∧
    (s.fetches l c (microword 0x0E 15) e k → exec (.cen l c 15) s = .next
      ((s.updLane l fun x => { x with bus := x.bus ++ [.ce none], ce := none }).updCtx l c fun _ => { k with pc := k.pc + 1 })) ∧
    (s.lanes[l].owner = some c →
      (∀ v : Byte, s.fetches l c (microword 0x0F v.toNat) e k → exec (.cmd l c false v) s = .next
        ((s.updLane l fun x => { x with bus := x.bus ++ [.cmd v] }).updCtx l c fun _ => { k with pc := k.pc + 1 })) ∧
      (∀ (v b : Byte) (p : MediaProfile), s.laneProfile l = some p → p.opcodes[v.toNat]? = some b →
        s.fetches l c (microword 0x0F (2 ^ 18 + v.toNat)) e k → exec (.cmd l c true v) s = .next
        ((s.updLane l fun x => { x with bus := x.bus ++ [.cmd b] }).updCtx l c fun _ => { k with pc := k.pc + 1 })) ∧
      (∀ (a : Fin 16) (n : BitVec 3), 1 ≤ n.toNat → n.toNat ≤ 4 → s.fetches l c (microword 0x10 (a.val * 2 ^ 15 + n.toNat)) e k →
        exec (.adr l c a n) s = .next
        ((s.updLane l fun x => { x with bus := x.bus ++ ((descBytes k.w[a]).take n.toNat).map .addr }).updCtx l c fun _ => { k with pc := k.pc + 1 })) ∧
      (∀ (a : Fin 16) (n : BitVec 2), 1 ≤ n.toNat → n.toNat ≤ 2 → s.fetches l c (microword 0x11 (a.val * 2 ^ 15 + n.toNat)) e k →
        exec (.adx l c a n) s = .next
        ((s.updLane l fun x => { x with bus := x.bus ++ ((descBytes k.w[a]).take n.toNat).map .addr }).updCtx l c fun _ => { k with pc := k.pc + 1 })) ∧
      (∀ a b : Fin 16, s.ptrCheck (dieOfLane l) k.w[b] (k.w[a]).toNat false = none → s.fetches l c (microword 0x12 (a.val * 2 ^ 15 + b.val * 2 ^ 11)) e k →
        exec (.dout l c a b) s = .next
        (((s.carry (.nand l) true (k.w[a]).toNat).updLane l fun x => { x with bus := x.bus ++ [.dataOut k.w[a] k.w[b]] }).updCtx l c fun _ => { k with pc := k.pc + 1 })) ∧
      (∀ (a b : Fin 16) (dec : Bool), s.ptrCheck (dieOfLane l) k.w[b] (k.w[a]).toNat true = none →
        s.fetches l c (microword 0x13 (a.val * 2 ^ 15 + b.val * 2 ^ 11 + (if dec then 1 else 0))) e k →
        exec (.din l c a b dec) s = .next
        (((s.carry (.nand l) false (k.w[a]).toNat).updLane l fun x => { x with bus := x.bus ++ [.dataIn k.w[a] k.w[b] dec] }).updCtx l c fun _ => { k with pc := k.pc + 1 })) ∧
      (∀ (d : Fin 16) (enh : Bool) (st : NandStatus), s.fetches l c (microword 0x14 (d.val * 2 ^ 15 + (if enh then 1 else 0))) e k →
        exec (.stat l c d enh st) s = .next ((s.updLane l fun x => { x with bus := x.bus ++ [.status enh] }).updCtx l c fun _ =>
          { k with nand := st, w := k.w.set d (st.raw.setWidth 32), pc := k.pc + 1 }))) ∧
    (∀ (a : Fin 16) (st : NandStatus), s.fetches l c (microword 0x15 (a.val * 2 ^ 15)) e k → exec (.wrdy l c a st) s = .next
      ((s.updLane l fun x => { x with bus := x.bus ++ [.status false] }).updCtx l c fun _ => { k with nand := st, t := !st.ready, pc := k.pc + 1 })) ∧
    (∀ i : Byte, s.fetches l c (microword 0x16 i.toNat) e k → exec (.tim l c i) s = .next (s.updCtx l c fun _ => { k with pc := k.pc + 1 })) ∧
    (∀ a : Fin 16, s.fetches l c (microword 0x17 (a.val * 2 ^ 15)) e k → exec (.wait l c a) s = .next (s.updCtx l c fun _ => { k with pc := k.pc + 1 })) ∧
    (∀ (d a : Fin 16) (b : Byte), s.fetches l c (microword 0x18 (d.val * 2 ^ 15 + a.val * 2 ^ 11)) e k → 1 ≤ (k.w[a]).toNat → (k.w[a]).toNat ≤ 63 →
      (e.desc.offsets = 0 → exec (.lvl l c d a b) s = .next (s.updCtx l c fun _ => { k with w := k.w.set d 0, pc := k.pc + 1 })) ∧
      (e.desc.offsets ≠ 0 → s.ptrCheck (dieOfLane l) e.desc.offsets 64 false = none →
        exec (.lvl l c d a b) s = .next (s.updCtx l c fun _ => { k with w := k.w.set d (b.signExtend 32), pc := k.pc + 1 }))) ∧
    (∀ st : Fin 16, s.fetches l c (microword 0x19 st.val) e k →
      (st.val < 5 → exec (.phy l c st) s = .next (((s.updLane l fun x => { x with train := { x.train with running := true } }).phyStep l
        (match s.lanes[l].ce with | some n => [n] | none => s.ces l) st.val).updCtx l c fun _ => { k with pc := k.pc + 1 })) ∧
      (st.val = 5 → (k.w[(0 : Fin 16)]).toNat = 3 →
        exec (.phy l c st) s = .next ((s.updLane l fun x => { x with train := { x.train with rate := none } }).updCtx l c fun _ =>
        { k with pc := k.pc + 1 })) ∧
      (st.val = 5 → 3 < (k.w[(0 : Fin 16)]).toNat → exec (.phy l c st) s = .next (s.microFault l c e k.pc 6)) ∧
      (∀ r : Fin 3, st.val = 5 → (k.w[(0 : Fin 16)]).toNat = r.val →
        exec (.phy l c st) s = .next ((s.updLane l fun x => { x with train := { x.train with rate := some r } }).updCtx l c fun _ =>
        { k with pc := k.pc + 1 }))) ∧
    (∀ n : Fin 8, s.fetches l c (microword 0x1D n.val) e k → exec (.evt l c n) s = .next
      ((s.raise2 (laneSrc l n.val) (eventLun e.desc) (eventTag e.desc)).updCtx l c fun _ => { k with pc := k.pc + 1 })) ∧
    (∀ (code : Byte) (st : LaneStatus) (q : QEntry), s.fetches l c (microword 0x1E code.toNat) e k → laneStatusOf code.toNat = some st →
      st ≠ .programFail → st ≠ .eraseFail → st ≠ .timeout → s.lanes[l].queue.find? (fun x => x.desc.tag == e.desc.tag) = some q →
      exec (.done l c code) s = .next (s.settle l q st k.nand.raw 0 0)) ∧
    (∀ q : QEntry, s.fetches l c (microword 0x1E 1) e k → (s.programFailed l e.desc).lanes[l].queue.find? (fun x => x.desc.tag == e.desc.tag) = some q →
      exec (.done l c 1) s = .next ((s.programFailed l e.desc).settle l q .programFail k.nand.raw 0 0)) ∧
    (∀ q : QEntry, s.fetches l c (microword 0x1E 2) e k → (s.eraseFailed l e.desc).lanes[l].queue.find? (fun x => x.desc.tag == e.desc.tag) = some q →
      exec (.done l c 2) s = .next ((s.eraseFailed l e.desc).settle l q .eraseFail k.nand.raw 0 0)) ∧
    (∀ code : Byte, s.fetches l c (microword 0x1F code.toNat) e k → exec (.trap l c code) s = .next (s.microFault l c e k.pc 5))

/-- R60: the microcode faults and what each does. -/
def Obligations.MicrocodeFaultStopsOneContext : Prop :=
  (∀ (s : State) (i : Instr) (l : LaneIx) (c : CtxIx) (e : QEntry) (k : Ctx), microOf i = some (l, c) → s.lanes[l].ctxs[c] = some k → k.waits = false →
    s.lanes[l].queue.find? (fun e => e.ctx == some c) = some e →
    let n := s.lanes[l].fetchAt k.pc
    0x2400 ≤ n.toNat ∨ (0x2000 ≤ n.toNat ∧ s.lanes[l].patch.words.length ≤ n.toNat - 0x2000) → exec i s = .next (s.microFault l c e n 4)) ∧
  (∀ (s : State) (l : LaneIx) (c : CtxIx) (e : QEntry) (k : Ctx),
    (∀ (b : BitVec 5) (t : BitVec 14), 12 ≤ b.toNat → s.fetches l c (microword 0x02 (b.toNat * 2 ^ 14 + t.toNat)) e k →
      exec (.brc l c b t) s = .next (s.microFault l c e k.pc 1)) ∧
    (∀ t : BitVec 14, s.fetches l c (microword 0x03 t.toNat) e k → 4 ≤ k.stack.length → exec (.call l c t) s = .next (s.microFault l c e k.pc 2)) ∧
    (s.fetches l c (microword 0x04 0) e k → k.stack = [] → exec (.ret l c) s = .next (s.microFault l c e k.pc 3)) ∧
    (∀ code : Byte, s.fetches l c (microword 0x1F code.toNat) e k → exec (.trap l c code) s = .next (s.microFault l c e k.pc 5)) ∧
    (∀ n : Fin 16, 8 ≤ n.val → n.val < 15 → s.fetches l c (microword 0x0E n.val) e k → exec (.cen l c n) s = .next (s.microFault l c e k.pc 6)) ∧
    (∀ a : Fin 16, s.fetches l c (microword 0x1C (a.val * 2 ^ 15)) e k → exec (.sto l c a 0) s = .next (s.microFault l c e k.pc 6)) ∧
    (∀ st : Fin 16, 5 < st.val → s.fetches l c (microword 0x19 st.val) e k → exec (.phy l c st) s = .next (s.microFault l c e k.pc 6)) ∧
    (s.lanes[l].owner ≠ some c →
      (∀ v : Byte, s.fetches l c (microword 0x0F v.toNat) e k → exec (.cmd l c false v) s = .next (s.microFault l c e k.pc 7)) ∧
      (∀ (a : Fin 16) (n : BitVec 3), 1 ≤ n.toNat → n.toNat ≤ 4 → s.fetches l c (microword 0x10 (a.val * 2 ^ 15 + n.toNat)) e k →
        exec (.adr l c a n) s = .next (s.microFault l c e k.pc 7)) ∧
      (∀ (a : Fin 16) (n : BitVec 2), 1 ≤ n.toNat → n.toNat ≤ 2 → s.fetches l c (microword 0x11 (a.val * 2 ^ 15 + n.toNat)) e k →
        exec (.adx l c a n) s = .next (s.microFault l c e k.pc 7)) ∧
      (∀ a b : Fin 16, s.fetches l c (microword 0x12 (a.val * 2 ^ 15 + b.val * 2 ^ 11)) e k →
        exec (.dout l c a b) s = .next (s.microFault l c e k.pc 7)) ∧
      (∀ (a b : Fin 16) (dec : Bool), s.fetches l c (microword 0x13 (a.val * 2 ^ 15 + b.val * 2 ^ 11 + (if dec then 1 else 0))) e k →
        exec (.din l c a b dec) s = .next (s.microFault l c e k.pc 7)) ∧
      (∀ (d : Fin 16) (enh : Bool) (st : NandStatus), s.fetches l c (microword 0x14 (d.val * 2 ^ 15 + (if enh then 1 else 0))) e k →
        exec (.stat l c d enh st) s = .next (s.microFault l c e k.pc 7)))) ∧
  (∀ (s : State) (l : LaneIx) (c : CtxIx) (e : QEntry) (addr : BitVec 14) (cause : BitVec 4), e.ctx = some c →
    ∃ (t : State) (r : Completion), s.microFault l c e addr cause = (t.onDone ⟨l, e.desc, e.purpose, .ucodeFault⟩).turns l ∧
      t.lanes[l].ucodeFault = some (s.lanes[l].ucodeFault.getD ⟨cause, c, addr⟩) ∧
      t.lanes[l].bus = s.lanes[l].bus ++ (if s.lanes[l].owner = some c then [BusCycle.lunReset e.desc.unit] else []) ∧
      t.lanes[l].completions = s.lanes[l].completions ++ [r] ∧ r.tag = e.desc.tag ∧ r.status = .ucodeFault ∧ r.ucodeAddr = addr.setWidth 16 ∧
      t.lanes[l].ctxs = s.lanes[l].ctxs.set c none)

/-- R27, R69, R77 to R79, R86: time, thermal age and the fold timer. -/
def Obligations.TimekeepingCountsAndAges : Prop :=
  (∀ s : State, s.keeper.sup.vinOk = true → s.keeper.sup.xtal25 = true ∨ s.keeper.sup.xtal32k = true →
    ∃ t, exec .thermalAgeAccumulate s = .next t ∧ t.keeper.tk.opsec = s.keeper.tk.opsec + 1 ∧
      (∀ k : Fin 4, t.keeper.tk.acc[k] = match s.eaOf k.val with
        | some ea => min (2 ^ 64 - 1) (s.keeper.tk.acc[k] + afEntry ea s.mediaReading.2)
        | none => s.keeper.tk.acc[k]) ∧
      t.keeper.tk.part = 0 ∧ t.keeper.tk.usec = s.keeper.tk.usec + (1000000 - s.keeper.tk.part / partUsec) ∧
      (∀ d : DieIx, t.dies[d].common.usec = if s.dies[d].common.inReset then s.dies[d].common.usec
        else s.dies[d].common.usec + BitVec.ofNat 48 (1000000 - s.keeper.tk.part / partUsec)) ∧
      t.store = s.store ∧ t.regions = s.regions ∧ t.clusters = s.clusters ∧ t.lanes = s.lanes ∧ t.sub = s.sub ∧ t.swarm = s.swarm) ∧
  (∀ s : State, s.keeper.sup.vinOk = false → s.keeper.sup.vkeep = true → s.keeper.sup.xtal32k = true →
    ∃ t, exec .carapaceTemperatureSample s = .next t ∧
      (∀ k : Fin 4, t.keeper.tk.acc[k] = match s.eaOf k.val with
        | some ea => min (2 ^ 64 - 1) (s.keeper.tk.acc[k] + afEntry ea s.mediaReading.2 * 600)
        | none => s.keeper.tk.acc[k]) ∧
      t.keeper.tk.opsec = s.keeper.tk.opsec ∧ t.dies = s.dies ∧ t.store = s.store) ∧
  (∀ s : State, s.keeper.sup.vinOk = true → exec .timekeepingRecordWrite s = .next ((s.keeperLine 0).updTk fun t => { t with
    sinceRecord := 0, recOpsec := t.opsec.toNat, recWallMs := t.wallMs, recWallValid := t.wallValid, recAcc := t.acc, recLost := s.keeper.ev.lost })) ∧
  (∀ s : State, s.keeper.tk.gapPending = true → s.keeper.tk.gapReported = false →
    exec .gapTimeout s = .next ((s.raise 377).updTk fun t => { t with gapReported := true })) ∧
  (∀ (s : State) (g : RegionIx), (s.regions[g]).inService = true → s.hostWork = false → exec (.foldIdleTimer g) s = .next (s.foldStart g))

/-- R104 to R107, R120, R121: engines, accumulators and staging rows. -/
def Obligations.ClusterDecodersAct : Prop :=
  (∀ (s : State) (c : ClusterIx) (e : Fin 5) (id : Nat) (j : EngineJob), s.clusters[c].queue.find? (fun j => j.req.id == id) = some j →
    engineIdle s.clusters[c] e = true → softStep j.step = (e == 4) → avoided s.clusters[c] e j = false →
    exec (.frameDecode c e (.queued id)) s = .next (s.updCluster c fun x => { x with queue := x.queue.erase j, engines := x.engines.set e (some j) })) ∧
  (∀ (s : State) (c : ClusterIx) (e : Fin 5) (id : Nat) (k : Climb), s.climb? c id = some k → k.phase = .arrived →
    let t := s.updClimb c id fun y => { y with phase := .decoding }
    (engineIdle s.clusters[c] e = true → softStep k.step = (e == 4) → exec (.frameDecode c e (.read id)) s = .next (t.takeJob c e ⟨k.req, k.step, none⟩)) ∧
    (engineIdle s.clusters[c] e = false ∨ softStep k.step ≠ (e == 4) →
      exec (.frameDecode c e (.read id)) s = .next (t.queueJob c ⟨k.req, k.step, none⟩))) ∧
  (∀ (s : State) (c : ClusterIx) (e : Fin 5) (j : EngineJob), s.clusters[c].engines[e] = some j →
    let home := reqCluster j.req
    let t := s.updCluster c fun x => { x with engines := x.engines.set e none }
    exec (.decodeComplete c e .rejected) s = .next (s.engineFault c e 1 j) ∧
    exec (.decodeComplete c e .memoryError) s = .next (s.engineFault c e 3 j) ∧
    exec (.decoderCompletionTimeout c e) s = .next (s.engineFault c e 2 j) ∧
    (∀ k : Climb, t.climb? home j.req.id = some k → k.phase = .decoding → ∀ n : Nat,
      let k' : Climb := { k with corrected := n }
      let u := t.updClimb home k.req.id fun y => { y with corrected := n }
      (∀ crc : Bool, exec (.decodeComplete c e (.converged n crc)) s = .next ((t.judge c home k j.step n true crc).copyTurns j.req.region)) ∧
      (lunLane k.req.lun = none → n ≤ t.frameLimit k.req * (if softStep j.step then 2 else 1) → exec (.decodeComplete c e (.converged n true)) s =
        .next (((u.countLun k.req.lun false).decoded c home k' j.step n).copyTurns j.req.region)) ∧
      (∀ l : LaneIx, lunLane k.req.lun = some l → n ≤ t.frameLimit k.req * (if softStep j.step then 2 else 1) →
        exec (.decodeComplete c e (.converged n true)) s =
        .next ((((u.countErrors l false false).countLun k.req.lun false).decoded c home k' j.step n).copyTurns j.req.region)) ∧
      (lunLane k.req.lun = none → j.step ≠ 4 → exec (.decodeComplete c e (.notConverged n)) s =
        .next (((u.failStep home k').countLun k.req.lun false).copyTurns j.req.region)) ∧
      (∀ l : LaneIx, lunLane k.req.lun = some l → j.step ≠ 4 → exec (.decodeComplete c e (.notConverged n)) s =
        .next ((((u.countErrors l false (!u.shaded (.cluster c) && j.step == 1)).failStep home k').countLun k.req.lun false).copyTurns j.req.region)) ∧
      (∀ l : LaneIx, lunLane k.req.lun = some l → j.step = 4 →
        let v := (u.countErrors l false false).raise (clusterSrc home 1)
        exec (.decodeComplete c e (.notConverged n)) s =
          .next (((v.failStep home k').countLun k.req.lun (!v.shaded (.cluster home))).copyTurns j.req.region)))) ∧
  (∀ (s : State) (c : ClusterIx) (band row : Nat), s.clusters[c].inService = true →
    exec (.parityAccumulatorMemoryError c true band row) s =
      .next (s.updCluster c fun x => { x with accCorrected := satAdd 0xFFFF x.accCorrected 1 }) ∧
    exec (.parityAccumulatorMemoryError c false band row) s = .next ((s.updCluster c fun x => { x with
      accUncorr := satAdd 0xFF x.accUncorr 1 }).raise (clusterSrc c 3) |>.accDiscard c band row)) ∧
  (∀ (s : State) (c : ClusterIx), exec (.cluCtrlCntClr c) s =
    .next (s.updCluster c fun x => { x with crcCnt := 0, stepCnt := Vector.replicate 7 0, accCorrected := 0 })) ∧
  (∀ (s : State) (g : RegionIx) (b : Nat) (geo : GeometryRec), s.geo? g = some geo → (s.band g b).phase = .opened → (s.band g b).use = .staging →
    let f := s.rowFrames g (s.band g b).density
    let p := slotPlace geo b f (s.band g b).nextSlot
    f ≠ 0 → (s.band g b).nextSlot % f ≠ 0 → exec (.stagingRowTimeout g b) s =
      .next (((s.updBand g b fun x => { x with nextSlot := (x.nextSlot / f + 1) * f, pads := x.pads ++ [(p.2.1, p.1, p.2.2)] }).jot g
        (.bandPad b p.2.1 p.1 p.2.2)).sealIfFull g b))

/-- R89 to R95, R108 to R112, R130, R184, R214: the ladder, the Antenna and patrol. -/
def Obligations.LadderAntennaAndPatrolAct : Prop :=
  (∀ (s : State) (c : ClusterIx) (id : Nat) (k : Climb), s.climb? c id = some k → k.phase = .failed →
    let n := s.nextStep k
    let k' : Climb := { k with step := n, darkWait := none }
    let t := s.updClimb c id fun _ => k'
    (∀ e : MapEntry, s.repairTo k = some e → exec (.retryLadderStep c id .repaired) s = .next (s.serveRepaired c k e)) ∧
    (∀ f : LadderFacts, f ≠ .repaired →
      (s.climbLast k < n → exec (.retryLadderStep c id f) s = .next ((s.climbOver c k).copyTurns k.req.region)) ∧
      (n ≤ s.climbLast k →
        (n = 2 → exec (.retryLadderStep c id f) s =
          .next ((s.updClimb c k.req.id fun _ => { k' with phase := .run }).requestRun k.req.region k.req.band 1 (some (s.reqRow k.req)))) ∧
        (n = 3 → exec (.retryLadderStep c id f) s = .next ((s.updClimb c k.req.id fun _ => { k' with phase := .wanted }).raise (clusterSrc c 0))) ∧
        (n = 4 → exec (.retryLadderStep c id f) s = .next (s.updClimb c k.req.id fun _ => { k' with phase := .wanted })) ∧
        (n = 5 → s.awaitsResync k.req = true → exec (.retryLadderStep c id f) s = .next s) ∧
        (5 ≤ n → n ≠ 6 → f = .failed → (n = 5 → s.awaitsResync k.req = false) →
          exec (.retryLadderStep c id f) s = .next ((t.stepLost c k' n).copyTurns k.req.region)))) ∧
    (∀ (unread : List Nat) (crc : Bool), n ≤ s.climbLast k → n = 5 → s.awaitsResync k.req = false →
      (t.rowSolvable k.req unread = true → exec (.retryLadderStep c id (.row unread crc)) s = .next ((t.rebuilt c k' 5 crc).copyTurns k.req.region)) ∧
      (t.rowSolvable k.req unread = false → exec (.retryLadderStep c id (.row unread crc)) s = .next ((t.stepLost c k' 5).copyTurns k.req.region))) ∧
    (∀ f : LadderFacts, f ≠ .repaired → n ≤ s.climbLast k → n = 6 →
      let e := t.reqSeg k.req
      (t.stripeComplete e = false → exec (.retryLadderStep c id f) s = .next ((t.stepLost c k' 6).copyTurns k.req.region)) ∧
      (t.stripeComplete e = true → t.sixLeader e.stripe = none → exec (.retryLadderStep c id f) s =
        .next ((t.searchRecord c k' none).copyTurns k.req.region)) ∧
      (∀ m : Nat, t.stripeComplete e = true → t.sixLeader e.stripe = some m → t.isLit m = true → exec (.retryLadderStep c id f) s =
        .next ((t.askMember c k' m (.rebuildRead e.stripe 3 e.position (k.req.frame % 262144) 1)).copyTurns k.req.region)) ∧
      (∀ m : Nat, t.stripeComplete e = true → t.sixLeader e.stripe = some m → t.isLit m = false → exec (.retryLadderStep c id f) s =
        .next ((t.ladderDark c k' m).copyTurns k.req.region)))) ∧
  (∀ (s : State) (c : ClusterIx) (run : AntRun), s.clusters[c].inService = true → s.clusters[c].antenna = none → bestRun s.clusters[c].antPending = some run →
    exec (.antennaRunStart c) s = .next ((s.updCluster c fun x => { x with
      antPending := x.antPending.erase run, antenna := some { run with plan := s.sweepPlan (regionOfCluster c) c run } }).admitRuns (regionOfCluster c) 64)) ∧
  (∀ (s : State) (c : ClusterIx) (run : AntRun), s.clusters[c].antenna = some run →
    let g := regionOfCluster c
    let t := s.updCluster c fun x => { x with antenna := none }
    (run.abandoned = true →
      ((t.band g run.band).phase ≠ .erased → exec (.antennaRunComplete c) s =
        .next ((((t.updBand g run.band fun x => { x with corr := none }).jotFlags g run.band).releaseWaits g run.band false).backgroundRun g)) ∧
      ((t.band g run.band).phase = .erased → exec (.antennaRunComplete c) s = .next ((t.releaseWaits g run.band false).backgroundRun g))) ∧
    (run.abandoned = false → run.allSwept = true →
      let p := t.runCorrection g run
      let u := (t.updBand g run.band fun x => { x with corr := some p.1, uncertain := false }).jotFlags g run.band
      exec (.antennaRunComplete c) s = .next (((if p.2 then u.raise (clusterSrc c 2) else u).releaseWaits g run.band p.2).backgroundRun g))) ∧
  (∀ (s : State) (g : RegionIx) (b : Nat), (s.regions[g]).inService = true → s.backgroundOk = true →
    argMin (fun b => (s.band g b).patrolTage.toNat) ((s.patrolDue g).map (·.num)) = some b →
    let t := s.updRegion g fun r => { r with patrols := r.patrols ++ [PatrolRun.mk b (s.band g b).corr.isNone false 0 0 0 0] }
    ((s.band g b).corr = none → exec (.patrolStart g) s = .next (t.requestRun g b 4 none)) ∧
    ((s.band g b).corr ≠ none → exec (.patrolStart g) s = .next (t.patrolRead g b false))) ∧
  (∀ (s : State) (g : RegionIx) (b : Nat) (p : PatrolRun), (s.regions[g]).patrols.find? (fun p => p.band == b) = some p → p.run = false → p.left = 0 →
    (s.band g b).phase = .closed →
    let t := s.updRegion g fun r => { r with patrols := r.patrols.filter fun q => q.band != b }
    let due := decide (p.frames * s.refreshLimit2 g (s.band g p.band).density < 2 * p.correctedSum) || decide (3 ≤ p.maxStep) || p.noValley
    exec (.patrolComplete g b) s = .next ((t.updBand g b fun x => { x with
      refreshDue := x.refreshDue || due, patrolTage := BitVec.ofNat 32 (t.snapshot x.profile), patrolLun := x.patrolLun + 1 }).jotFlags g b))

/-- R124, R125, R133, R139, R143 to R147, R152: the map, its journal and its checkpoints. -/
def Obligations.MapAndJournalCommandsAct : Prop :=
  (∀ (s : State) (g : RegionIx) (gran : Nat) (u : PendUpd), (s.regions[g]).nextUpdate gran = some u → (s.regions[g]).inService = true →
    s.server gran = g → (s.regions[g]).isResident g gran = true → (s.regions[g]).journal.full = false →
    (u.kind = .deallocate →
      let t := (s.remap g gran .freed false).updRegion g fun r => { r with
        pend := r.pend.filter fun v => !(v.gran == gran && v.seq == u.seq), watch := r.watch.filter fun w => w.1 != gran }
      exec (.pendingUpdateApply g gran) s = .next (if (s.entryOf gran).state == .mapped || (s.entryOf gran).state == .foldInFlight
        then t.checkReclaimed g (s.entryOf gran).band.toNat else t)) ∧
    (∀ covered : Fin 16 → Option Unit4K, (s.regions[g]).stagingStopped = false →
      (∃ units : Vector (Option Unit4K) 16, u.kind = .write units ∧ u.encrypted = true ∧ covered = fun i => units[i]) ∨
      (∃ figs : List Nat, u.kind = .zero figs ∧ covered = fun i => if figs.contains i.val then some (zeroUnit (s.nsKey u.nsid)) else none) →
      let need := s.mergeReads gran covered
      ((need.any fun i => !s.askedFor gran i .host none) = true → exec (.pendingUpdateApply g gran) s =
        .next (s.wantFigs gran (need.filter fun i => !s.askedFor gran i .host none) .host none)) ∧
      ((need.any fun i => !s.askedFor gran i .host none) = false → (need.any fun i => (s.delivered? gran i .host none).isNone) = false →
        ∀ (s1 s2 : State) (b : Nat) (pl : Placed), s.bandFor g .staging .slc u.stream = (s1, some b) →
        s1.placeIn g b (fun k f => Placed.mk gran u.nsid u.stream u.seq k f (BitVec.ofNat 32 s1.keeper.tk.opsec.toNat) s1.keeper.tk.mediaTemp
          (Vector.ofFn fun i => (covered i).getD (s.oldUnit gran u.nsid i)) false none) = (s2, some pl) →
        exec (.pendingUpdateApply g gran) s = .next (((s2.endAsks fun r => r.gran == gran && r.who == .host && r.ref.isNone).updRegion g fun r =>
          { r with pend := r.pend.map fun v => if v.gran == gran && v.seq == u.seq then { v with at_ := some (b, pl.frame) } else v }).checkStaging g |>.throughRow g b u.stream)))) ∧
  (∀ (s : State) (g : RegionIx), exec (.journalFrameTimer g) s = .next (s.updRegion g RegionSt.closeTail)) ∧
  (∀ (s : State) (g : RegionIx),
    ((s.journalDurable g).swarm.seqWaits = [] ∨ (s.journalDurable g).stripeReserved = false → exec (.journalFrameDurable g) s = .next (s.journalDurable g)) ∧
    ((s.journalDurable g).swarm.seqWaits ≠ [] → (s.journalDurable g).stripeReserved = true → exec (.journalFrameDurable g) s = .next
      ((s.journalDurable g).swarm.seqWaits.foldl (fun s x => s.receive x.1 x.2) ((s.journalDurable g).updSwarm fun w => { w with seqWaits := [] })))) ∧
  (∀ (s : State) (g : RegionIx) (i : Nat), (s.regions[g]).inService = true → 128 ≤ (s.regions[g]).journal.sinceCapture →
    let l := (s.regions[g]).imageList
    let k := (s.regions[g]).nextImage % l.length
    (l.drop k ++ l.take k).find? (fun i => i == 0 || (s.regions[g]).resident.contains (i - 1)) = some i →
    exec (.checkpointCapture g) s = .next (((s.captureImage g i).updRegion g fun r => { r with nextImage := (l.idxOf i + 1) % l.length }).updJrn g
      fun j => { j with sinceCapture := 0 })) ∧
  (∀ (s : State) (g : RegionIx) (q : Nat), exec (.checkpointIndexWrite g q) s = .next (s.indexImage g q)) ∧
  (∀ (s : State) (g : RegionIx) (seg : Nat), (s.regions[g]).inService = true → (s.regions[g]).segments.contains seg = true →
    ((s.regions[g]).resident.contains seg = false →
      (∀ x ∈ (s.regions[g]).segments, (s.regions[g]).resident.contains x = false → s.loadRank g seg ≤ s.loadRank g x ∧ (s.loadRank g seg = 3 → seg ≤ x)) →
      exec (.mapSegmentLoad g seg) s = .next ((s.updRegion g fun r => { r with
        resident := r.resident ++ [seg], restoring := !(r.segments.all (r.resident ++ [seg]).contains) }).loadedTurns g)) ∧
    ((s.regions[g]).resident.contains seg = true → (s.regions[g]).adopting = true → (s.regions[g]).adoptedSegs.contains seg = false →
      exec (.mapSegmentLoad g seg) s = .next (s.loadAdopted g seg))) ∧
  (∀ (s : State) (g : RegionIx) (hi : Byte), let gran := hi.toNat * 2 ^ 32 + (s.regions[g]).queryLo.toNat
    s.server gran = g → (extentOf (s.regions[g]).tab.extents gran).isSome = true → (s.regions[g]).isResident g gran = true →
    exec (.rgnQuery g hi) s = .next (s.updRegion g fun r => { r with queryHi := hi, result := ((s.entryOf gran).bits.setWidth 32,
      BitVec.ofNat 32 (2 ^ 31 + (if r.pend.any (fun u => u.gran == gran) then 2 ^ 28 else 0) + (s.entryOf gran).bits.toNat / 2 ^ 32)) })) ∧
  (∀ (s : State) (g : RegionIx), exec (.rgnCtrlCntClr g) s = .next (s.updRegion g fun r => { r with integrity := 0, repaired := 0, poisonedCnt := 0 }))

/-- R147, R154, R161, R163, R168, R186, R192, R195, R381: the start of service, reclamation and parity work. -/
def Obligations.RestoreReclaimAndParityAct : Prop :=
  (∀ (s : State) (facts : Vector RestoreFacts 4) (ms : Nat), s.keeper.boot.stage = .restore → s.keeper.rescue.run = none → s.keeper.fc.safe = false →
    exec (.hostFetchStart facts ms) s = .next (
      let t := (((s.restoreAll facts).regionsServe).stage .serving).updBoot fun b => { b with fetchMs := min ms 0xFFFF }
      let t := (t.updSup fun x => { x with state := .lit }).updSub fun x => { x with diapause := .lit, fetchStarted := true }
      let t := ((t.controllerReady 0).controllerReady 1).slotServes
      let t := if t.fw.restartActivates then (t.updFw fun x => { x with restartActivates := false }).raise 473 else t
      (t.settleSanitize.swarmResume).eachRegion State.backgroundRun)) ∧
  (∀ (s : State) (g : RegionIx) (k : Fin 2) (b : Nat) (why : ReclaimReason) (score : Nat), s.scarabRuns g = true → (s.regions[g]).slots[k] = none → (s.regions[g]).resync = [] →
    s.pickReclaim g k = some (b, why, score) →
    let t := s.updRegion g fun r => { r with slots := r.slots.set k (some (Reclaim.mk b why score 0)) }
    let full := ((t.regions[g]).journal.tail.getLast?).map fun f => !f.closed && decide (253 ≤ f.used)
    ((s.regions[g]).valid b = 0 → exec (.reclaimStart g k) s = .next (
      let t := if full == some true then t.updRegion g RegionSt.closeTail else t
      ((t.jot g (.reclaimStart b why score none)).updBand g b fun x => { x with mappedRec := true }).jotNow g (.reclaimMapped b 0))) ∧
    ((s.regions[g]).valid b ≠ 0 → (s.band g b).kind = .swarmParity →
      exec (.reclaimStart g k) s = .next (((t.jot g (.reclaimStart b why score none)).moveRuns g b).runsMoved g b)) ∧
    ((s.regions[g]).valid b ≠ 0 → (s.band g b).kind ≠ .swarmParity → exec (.reclaimStart g k) s = .next (
      let d := t.targetOf (((s.band g b).placed.head?.map (·.nsid)).getD 0)
      let p := t.bandFor g (if d = .slc then .staging else .relocation) d 0xFF
      (p.1.jot g (.reclaimStart b why score p.2)).reclaimNext g k))) ∧
  (∀ (s : State) (g : RegionIx) (gran : Nat), s.server gran = g → s.scarabRuns g = true → s.copiesRun = true → (s.regions[g]).isResident g gran = true →
    (s.regions[g]).isDark gran = false →
    ((s.entryOf gran).state = .mapped →
      (s.regions[g]).relocNow.contains gran = true ∨ (∃ w ∈ (s.regions[g]).watch, w.1 = gran ∧ s.refreshCount ≤ w.2) →
      (s.regions[g]).singles < 16 → (s.regions[g]).copies.any (fun c => c.gran == gran) = false →
      exec (.granuleRelocate g gran) s = .next ((s.updRegion g fun r => { r with
        relocNow := r.relocNow.filter (· != gran), watch := r.watch.filter fun w => w.1 != gran }).copyAlone g gran)) ∧
    ((s.entryOf gran).state = .lost → (s.regions[g]).copies.any (fun c => c.gran == gran) = false →
      ((s.regions[g]).tab.bands.any fun x => x.placed.any fun pl => pl.gran == gran && pl.src.isSome) = false →
      exec (.granuleRelocate g gran) s = .next ((s.updRegion g fun r => { r with relocNow := r.relocNow.filter (· != gran) }).copyAlone g gran))) ∧
  (∀ (s : State) (g : RegionIx) (b : Nat) (bad : List Nat) (geo : GeometryRec) (p : MediaProfile), s.geo? g = some geo → s.regionProf? g = some p →
    (s.regions[g]).resync.contains b = true →
    let covered := coveredRows p (framesPerRow p (s.band g b).density) (s.band g b)
    let rows := covered.filter fun w => !parityWhole (s.band g b) w
    let t := (rows.filter fun w => !bad.contains w).foldl (fun s w => s.resyncRow geo g b w) (covered.foldl (fun s w => s.completeRow g b w) s)
    ((s.band g b).use = .fold → exec (.bandResync g b bad) s = .next (s.resyncEnds g b rows)) ∧
    ((s.band g b).use ≠ .fold →
      ((rows.all bad.contains) = false → exec (.bandResync g b bad) s = .next t) ∧
      ((rows.all bad.contains) = true → exec (.bandResync g b bad) s = .next (t.resyncEnds g b rows)))) ∧
  (∀ (s : State) (g : RegionIx) (spare : Nat) (a : Adoption) (p : MediaProfile),
    (s.regions[g]).tab.adoptions.find? (fun a => a.spare == spare) = some a → s.regionProf? g = some p →
    (s.regions[g]).durable (.spareAdopt a.spare a.set a.position a.lost) = true → a.done = false → ∀ lost : List (Nat × Bool),
    (∀ b done : Nat, (s.regions[g]).nextRebuild a = some (b, done) →
      exec (.bandRebuild g spare lost false) s = .next (
        ((List.range (p.wordlines + 1)).filter fun w => decide (done < w) && (w % 16 == 0 || w == p.wordlines)).foldl
          (fun s w => s.rebuildRowDone g b spare w) (lost.foldl (fun s x => s.loseSlot g b x.1 x.2) s)) ∧
      exec (.bandRebuild g spare lost true) s = .next (s.rebuildAgain g b spare 1)) ∧
    ((s.regions[g]).nextRebuild a = none → ∀ failed : Bool, exec (.bandRebuild g spare lost failed) s = .next (s.closeRebuild g spare)))

/-- R202 to R205, R294, R295: membership and epochs. -/
def Obligations.MembershipCommandsAct : Prop :=
  (∀ (s : State) (ref : CmdRef), s.admits .membershipStage ref →
    (∀ (off len : Nat) (last : Bool) (t : MemTable), ref.viaMi = false ∨ len ≤ 4096 →
      (off ≠ 0 → off ≠ s.swarm.stageNext → exec (.membershipStageStage ref off len last t) s = .next (s.complete ref stStageOutOfOrder 0)) ∧
      (off = 0 ∨ off = s.swarm.stageNext → 1048576 < off + len →
        exec (.membershipStageStage ref off len last t) s = .next (s.complete ref stStageOutOfOrder 0)) ∧
      (off = 0 ∨ off = s.swarm.stageNext → off + len ≤ 1048576 →
        let u := if off = 0 then s.countErases (469 + 16 * s.swarm.stageSlot.val) 16 else s
        (last = false → exec (.membershipStageStage ref off len last t) s = .next
          ((u.updSwarm fun w => { w with stageNext := off + len, staged := if off = 0 then none else w.staged }).complete ref stOk 0)) ∧
        (∀ c : Nat, last = true → u.tableFault (stagedTable t (off + len)) = some c → exec (.membershipStageStage ref off len last t) s = .next
          (((u.updSwarm fun w => { w with stageNext := 0, staged := none }).raiseAt (refDie ref) 407 (BitVec.ofNat 32 c) 0).complete ref
            stTableRefused (BitVec.ofNat 32 c))) ∧
        (last = true → u.tableFault (stagedTable t (off + len)) = none → exec (.membershipStageStage ref off len last t) s = .next
          (((u.updSwarm fun w => { w with stageNext := 0, staged := some t }).raiseAt (refDie ref) 405 0 0).complete ref stOk 0)))) ∧
    (∀ t : MemTable, s.swarm.staged = some t → exec (.membershipStageApply ref) s = .next (s.requestApply.complete ref stOk (BitVec.ofNat 32 t.epoch))) ∧
    (s.swarm.staged = none → exec (.membershipStageApply ref) s = .next (s.complete ref stNothingStaged 0)) ∧
    exec (.membershipStageReadMemberKey ref) s = .next (s.completeWith ref stOk 0 (.fields
      [DataField.mk 0 97 ((s.identity.map fun r => Config.memberKeyId r.swarmId).getD 0), DataField.mk 97 31 0])) ∧
    exec (.membershipStageReadTableHeader ref) s = .next (s.completeWith ref stOk 0 (.fields
      ((s.swarm.applied.map tableHeader).getD [DataField.mk 0 512 0]))) ∧
    exec (.membershipStageDiscard ref) s = .next
      ((s.updSwarm fun w => { w with staged := none, stageNext := 0, applyWaits := false }).complete ref stOk 0)) ∧
  (∀ (s : State) (hdr : MsgHdr) (t : MemTable), (s.session? hdr.peer).isSome = true → s.swarm.staged = some t →
    exec (.epochAnnounce hdr t.epoch t.headerHash) s = .next s.requestApply ∧
    (∀ h : BitVec 384, h ≠ t.headerHash → exec (.epochAnnounce hdr t.epoch h) s = .next (s.raise2 407 3 0))) ∧
  (∀ (s : State) (e : Nat), s.swarm.trailing = some e → exec .trailingEpochTimeout s = .next (
    let t := s.updSwarm fun w => { w with waits := w.waits.filter fun q => q.hdr.epoch != e, assigns := w.assigns.filter fun a => a.hdr.epoch != e }
    ((s.swarm.waits.filter fun q => q.hdr.epoch == e).foldl State.restart
      ((s.swarm.rxRuns.filter fun x => x.hdr.epoch == e).foldl (fun s x => s.abandonRun x.stripe) t)).settleEpoch)) ∧
  (∀ (s : State) (i : Nat) (x : MsgHdr × RxBody), s.swarm.heldMsgs[i]? = some x → exec (.heldMessageTimeout i) s =
    .next ((s.updSwarm fun w => { w with heldMsgs := w.heldMsgs.eraseIdx i }).nak x.1 nakAhead (rxType x.2))) ∧
  (∀ (s : State) (peer opid : Nat) (q : PendReq), s.swarm.aheadRetry.find? (fun q => q.hdr.peer == peer && q.hdr.opid == opid) = some q →
    exec (.epochAheadRetry peer opid) s = .next ((s.updSwarm fun w => { w with aheadRetry := w.aheadRetry.filter fun x => x.hdr != q.hdr }).restart q))

/-- R205, R256, R257: receiving. -/
def Obligations.SwarmMessagesAreTaken : Prop :=
  (∀ (i : Instr) (s : State) (hdr : MsgHdr) (b : RxBody), rxOf i = some (hdr, b) →
    (s.hears hdr.peer = false → exec i s = .next s.settleEpoch) ∧
    (s.takesMsg hdr b → exec i s = .next (s.handle hdr b).settleEpoch) ∧
    (∀ a : MsgHdr × LMsg, s.hears hdr.peer = true → rxReply b = false →
      s.swarm.answered.find? (fun a => a.1.peer == hdr.peer && a.1.opid == hdr.opid) = some a →
      exec i s = .next (if rxPayload b then s else s.send hdr a.2).settleEpoch) ∧
    (s.hears hdr.peer = true → (rxReply b = true ∨ s.swarm.answered.find? (fun a => a.1.peer == hdr.peer && a.1.opid == hdr.opid) = none) →
      (hdr.epoch < s.epoch → some hdr.epoch ≠ s.swarm.trailing →
        exec i s = .next (if rxReply b then s else s.nak hdr nakStale (rxType b)).settleEpoch) ∧
      (s.epoch < hdr.epoch → some hdr.epoch ≠ s.swarm.trailing →
        ((s.swarm.heldMsgs.filter fun x => x.1.peer == hdr.peer).length < 256 →
          exec i s = .next (s.updSwarm fun w => { w with heldMsgs := w.heldMsgs ++ [(hdr, b)] }).settleEpoch) ∧
        (256 ≤ (s.swarm.heldMsgs.filter fun x => x.1.peer == hdr.peer).length →
          exec i s = .next (s.nak hdr nakAhead (rxType b)).settleEpoch)))) ∧
  (∀ (s : State) (hdr : MsgHdr) (reason refused detail : Nat), s.hears hdr.peer = true →
    exec (.nak hdr reason refused detail) s = .next (s.onNak hdr reason refused).settleEpoch)

/-- R208, R209, R217 to R219, R226, R255, R256, R272, R273: timers, heartbeats, light. -/
def Obligations.SwarmTimersAndPeersAct : Prop :=
  (∀ (s : State) (g : RegionIx) (b : Nat) (u : Fin 16), (s.seg g b u.val).state = .noticed → s.isLit (s.seg g b u.val).stripe = true →
    exec (.sealNoticeTimeout g b u) s = .next ((s.updSwarm fun w => { w with waits := w.waits.filter fun q =>
      !(match q.msg with | .sealNotice h v c => h == g && v == u && c == b | _ => false) }).sendNotice g b u).settleEpoch) ∧
  (∀ (s : State) (g : RegionIx) (b : Nat) (u : Fin 16) (n : Notice), s.noticeOf g b u = some n → n.exhausted = true →
    (s.seg g b u.val).state = .sealed → exec (.sealNoticeRetry g b u) s = .next ((s.putNotice { n with tried := [] }).sendNotice g b u)) ∧
  (∀ (s : State) (n : Nat) (r : StripeRec), s.stripe? n = some r → r.state = .opened → s.leads r = true → s.swarm.fenced = false → s.shortDue r = true →
    exec (.stripeShortTimeout n) s = .next (s.closeStripe r)) ∧
  (∀ (s : State) (st pos i : Nat) (w : SegWork), s.workOf st pos i = some w → s.isLit w.holder = true →
    (w.refused = some nakNoRecord → exec (.contribRetry st pos i) s = .next (s.startWork w)) ∧
    (w.refused = some nakBusy → exec (.contribBusyRetry st pos i) s = .next (s.startWork w))) ∧
  (∀ (s : State) (c : Nat), (s.session? c).isSome = true → s.isLit c = false → s.swarm.fenced = false → 
    exec (.peerLit c) s = .next (s.peerLights c)) ∧
  (∀ (s : State) (c : Nat), (s.session? c).isSome = true → s.swarm.fenced = false → s.keeper.sup.ps < 3 → exec (.heartbeatSendTimer c) s =
    .next ((s.newHdr c).1.send (s.newHdr c).2 ((s.newHdr c).1.heartbeatTo c))) ∧
  (∀ (s : State) (c : Nat) (st : Half) (a : Nat), s.hears c = true → exec (.heartbeat c st a) s =
    .next (s.updPeer c fun p => { p with status := st, applied := a, rebuildClear := p.rebuildClear || !st.getLsbD hbRebuild }).checkRestored) ∧
  (∀ (s : State) (c o : Nat) (q : PendReq), s.waitOf ⟨c, s.epoch, o⟩ = some q → (∀ h u d, q.msg ≠ .sealNotice h u d) → (∀ b r, q.msg ≠ .stripeRecord b r) →
    exec (.requestAnswerTimeout c o) s = .next (s.send q.hdr q.msg)) ∧
  (∀ (s : State) (c o : Nat) (b : Bool) (r : StripeRec) (q : PendReq), s.waitOf ⟨c, s.epoch, o⟩ = some q → q.msg = .stripeRecord b r →
    exec (.requestAnswerTimeout c o) s = .next ((s.assignFreed r.stripe c).send q.hdr q.msg)) ∧
  (∀ (s : State) (c : Nat) (r : LightReq), s.hears c = true →
    let same (x : LightReq) : Bool := x.origin == r.origin && x.request == r.request
    exec (.lightRequest c r true) s = .next (s.updSwarm fun w => { w with light := w.light.filter fun x => !same x }) ∧
    (s.swarm.light.any same = true → exec (.lightRequest c r false) s =
      .next (s.updSwarm fun w => { w with light := w.light.map fun x => if same x then { x with waiting := r.waiting } else x })) ∧
    (s.swarm.light.any same = false → exec (.lightRequest c r false) s =
      .next ((s.updSwarm fun w => { w with light := w.light ++ [r] }).postAsync (.vendorLog 0xC2)))) ∧
  (∀ (s : State) (ref : CmdRef), (s.swarm.darkReads.any fun d => d.ref == ref) = true → exec (.darkWaitExpiry ref) s =
    .next (((((s.updSwarm fun w => { w with darkReads := w.darkReads.filter fun d => d.ref != ref }).stopClimbs fun x => x == ref).raiseAt
      (refDie ref) 483 0 0).updSub fun q => { q with life := { q.life with darkWait := q.life.darkWait + 1 } }).complete ref (stVendor 0x80) 0))

/-- R211, R213, R216, R217, R219, R224, R233, R258, R259, R262, R267, R269: the messages of stripes. -/
def Obligations.StripeMessagesHaveTheirEffect : Prop :=
  (∀ (s : State) (hdr : MsgHdr) (g : RegionIx) (u : Fin 16) (b : Nat) (gd : GroupDesc) (p me : MemberEntry), s.takesMsg hdr (.sealNotice g u b) →
    s.ownGroup = some gd → s.memberEntry hdr.peer = some p → s.ownEntry = some me →
    (p.group ≠ gd.group → exec (.sealNotice hdr g u b) s = .next (s.nak hdr nakWrongGroup 0x10).settleEpoch) ∧
    (∀ r, p.group = gd.group → s.readOnlyNow = false → s.swarm.leadClosed = false → me.state = .active → p.state = .active →
      oldestStripe (s.openStripes.filter fun r => s.fits r hdr.peer) = some r →
      exec (.sealNotice hdr g u b) s = .next (s.assignPosition hdr r).settleEpoch)) ∧
  (∀ (s : State) (hdr : MsgHdr) (st pos m v : Nat) (hs : List Nat), s.takesMsg hdr (.slotAssign st pos m v hs) →
    let t := s.answeredBy hdr
    (t.swarm.notices.find? (fun n => n.opids.contains hdr.opid) = none →
      exec (.slotAssign hdr st pos m v hs) s = .next (t.send hdr (.nak nakWithdrawn 0x11 0)).settleEpoch) ∧
    (∀ n, t.swarm.notices.find? (fun n => n.opids.contains hdr.opid) = some n →
      ((t.seg n.region n.band n.seg.val).state = .sealed ∨ (t.seg n.region n.band n.seg.val).state = .noticed) → t.underReclaim n.region n.band = false →
      exec (.slotAssign hdr st pos m v hs) s = .next ((hs.take m).zipIdx.foldl (fun s x => s.startWork
        { region := n.region, band := n.band, seg := n.seg.val, stripe := st, position := pos, index := x.2, holder := x.1, item := .contrib,
          running := false, refused := none, deferred := false })
        ((t.updSeg n.region n.band n.seg.val fun e => { e with state := .assigned, stripe := st, position := pos, done := 0, retracted := 0 }).updSwarm
          fun w => { w with holderMap := (st, hs.take m) :: w.holderMap.filter fun x => x.1 != st })).settleEpoch)) ∧
  (∀ (s : State) (hdr : MsgHdr) (restore : Bool) (m : StripeRec), s.takesMsg hdr (.stripeRecord restore m) →
    (∀ old, s.stripe? m.stripe = some old → m.version < old.version → exec (.stripeRecord hdr restore m) s = .next
      (s.sendDurable (s.stripeRegion m.stripe) hdr (.stripeRecordAck m.stripe old.version) true).settleEpoch) ∧
    (s.stripe? m.stripe = none → s.readOnlyNow = false → s.tableFull m.stripe = false → (∀ e, s.ownEntry = some e → e.state ≠ .leaving) → restore = false →
      let t := s.putStripe (mergeRecord { m with data := [], cur := none, new := none, applying := none, newthru := 0 } m m.mypos)
      exec (.stripeRecord hdr restore m) s = .next (((t.sendDurable (t.stripeRegion m.stripe) hdr (.stripeRecordAck m.stripe m.version) true).advanceStripe
        m.stripe).checkParity).settleEpoch)) ∧
  (∀ (s : State) (hdr : MsgHdr) (st v : Nat) (r : StripeRec), s.takesMsg hdr (.stripeRecordAck st v) → (s.answeredBy hdr).stripe? st = some r →
    r.version = v → exec (.stripeRecordAck hdr st v) s = .next ((((s.answeredBy hdr).putStripe { r with
      holders := r.holders.map fun h => if h.member == hdr.peer then { h with acked := true } else h }).assignFreed st hdr.peer).backlogFell).settleEpoch) ∧
  (∀ (s : State) (hdr : MsgHdr) (st pos i first n : Nat) (r : StripeRec) (d : DataPos), s.takesMsg hdr (.contribData st pos i first n) →
    s.stripe? st = some r → r.data[pos]? = some d → r.mypos = i → s.unrestored r = false → 0 < n → n ≤ 2 → first + n ≤ 262144 →
    d.applied = false → d.retracted = false →
    (∀ t run, first = 0 → r.applying = none → s.takeRun (s.stripeRegion st) .accumulation .slc = (t, some run) →
      exec (.contribData hdr st pos i first n) s = .next ((((t.putStripe { r with
        state := if r.state = .complete then .closed else r.state, applying := some (pos, false), newthru := 0, new := some run }).dropRx st).updSwarm fun w => { w with
          rxRuns := w.rxRuns ++ [{ stripe := st, hdr := hdr, next := n }] }).checkParity.settleEpoch)) ∧
    (∀ q, first = 0 → r.applying = some q → q ≠ (pos, false) → exec (.contribData hdr st pos i first n) s = .next (s.nak hdr nakBusy 0x20).settleEpoch) ∧
    (∀ x, 0 < first → s.rxRun? st = some x → x.hdr = hdr →
      (x.next = first →
        let t := s.updSwarm fun w => { w with rxRuns := w.rxRuns.map fun y => if y.stripe == st then { y with next := first + n } else y }
        exec (.contribData hdr st pos i first n) s = .next
          (if (first + n) / 4096 = r.newthru then t else t.putStripe { r with newthru := (first + n) / 4096 }).settleEpoch) ∧
      (x.next ≠ first → exec (.contribData hdr st pos i first n) s = .next (((s.raise 421).abandonRun st).nak hdr nakMalformed 0x20).settleEpoch))) ∧
  (∀ (s : State) (hdr : MsgHdr) (st pos i : Nat) (ok : Bool) (r : StripeRec) (d : DataPos), s.takesMsg hdr (.contribDone st pos i ok) →
    s.stripe? st = some r → r.data[pos]? = some d →
    let done (t : State) := t.sendDurable (t.stripeRegion st) hdr (.contribDone st pos i true) true
    (d.applied = true → exec (.contribDone hdr st pos i ok) s = .next (done s).settleEpoch) ∧
    (d.applied = false → d.retracted = false → r.mypos = i → s.unrestored r = false → r.applying = some (pos, false) →
      (∀ x, s.rxRun? st = some x → x.hdr = hdr → x.next = 262144 → ok = true → exec (.contribDone hdr st pos i ok) s = .next (done
        (((s.putStripe { setPos r pos (fun d => { d with applied := true }) with cur := r.new, new := none, applying := none, newthru := 0 }).dropRx
          r.stripe).advanceStripe r.stripe)).settleEpoch) ∧
      (ok = false → exec (.contribDone hdr st pos i ok) s = .next ((s.abandonRun st).nak hdr nakCheckFail 0x21).settleEpoch))) ∧
  (∀ (s : State) (hdr : MsgHdr) (st pos i first n : Nat) (never release last behalf ok : Bool) (r : StripeRec) (d : DataPos),
    s.takesMsg hdr (.retract st pos i first n never release last behalf ok) → s.stripe? st = some r → r.data[pos]? = some d → d.retracted = false →
    let done (t : State) := t.sendDurable (t.stripeRegion st) hdr (.retract st pos i 0 0 never release true behalf true 0) true
    ((never || release) = true → r.applying = none → exec (.retract hdr st pos i first n never release last behalf ok) s = .next
      (done ((s.putStripe (setPos r pos fun d => { d with retracted := true })).advanceStripe st)).settleEpoch) ∧
    (∀ x, never = false → release = false → d.applied = true → last = true → s.rxRun? st = some x → x.hdr = hdr → x.next = 262144 → ok = true →
      r.applying = some (pos, true) → exec (.retract hdr st pos i first n never release last behalf ok) s = .next (done
        (((s.putStripe { setPos r pos (fun d => { d with retracted := true }) with cur := r.new, new := none, applying := none, newthru := 0 }).dropRx
          r.stripe).advanceStripe r.stripe)).settleEpoch)) ∧
  (∀ (s : State) (hdr : MsgHdr) (st pos i : Nat) (w : SegWork), (s.answeredBy hdr).workOf st pos i = some w →
    let t := (s.answeredBy hdr).endWork w
    (s.takesMsg hdr (.contribDoneReply st pos i) → w.item = .contrib → exec (.contribDoneReply hdr st pos i) s = .next
      ((t.updSeg w.region w.band w.seg fun e => if e.stripe = st then { e with done := setBit4 e.done i } else e).backlogFell).settleEpoch) ∧
    (s.takesMsg hdr (.retractReply st pos i) → w.item ≠ .contrib → exec (.retractReply hdr st pos i) s = .next
      ((((t.updSeg w.region w.band w.seg fun e => { e with
        retracted := setBit4 e.retracted i, state := if e.state = .retracting ∧ ((List.range ((s.answeredBy hdr).holdersOf st).length).all fun k => (setBit4 e.retracted i).getLsbD k) = true
        then .retracted else e.state }).backlogFell).checkRetracted w.region w.band).checkLeave).settleEpoch)) ∧
  (∀ (s : State) (hdr : MsgHdr) (st what i first n : Nat) (rows : List RowFacts) (five : List Nat), s.takesMsg hdr (.rebuildRead st what i first n rows five) →
    let erased := (rows.filter fun x => x.unknown.contains i).map (·.slot)
    let reply (t : State) (bad : List Nat) (r : Option StripeRec) := t.answer hdr (.rebuildData st what i first n true false true bad r)
    (∀ r, what = 2 → s.stripe? st = some r → exec (.rebuildRead hdr st what i first n rows five) s = .next (reply s [] (some r)).settleEpoch) ∧
    (0 < n → first + n ≤ 262144 →
      (∀ g e, what = 0 → s.segmentAt st i = some (g, e) →
        (s.framesLoaded g e.band e.seg first n = true → exec (.rebuildRead hdr st what i first n rows five) s = .next
          (reply (s.relocateFrames g e five) erased none).settleEpoch) ∧
        (s.framesLoaded g e.band e.seg first n = false → exec (.rebuildRead hdr st what i first n rows five) s = .next
          (s.updSwarm fun w => { w with loadWaits := w.loadWaits ++ [(hdr, .rebuildRead st what i first n rows five)] }).settleEpoch)) ∧
      (∀ r, what = 3 → s.stripe? st = some r → s.leads r = true →
        let lost := (rows.filter (rowLost i)).map (·.slot)
        exec (.rebuildRead hdr st what i first n rows five) s = .next (reply (if lost.isEmpty then s else s.raise 416) lost none).settleEpoch) ∧
      (∀ r, what = 1 → s.stripe? st = some r → r.mypos = i → exec (.rebuildRead hdr st what i first n rows five) s = .next (reply s erased none).settleEpoch) ∧
      (what = 0 → s.segmentAt st i = none → exec (.rebuildRead hdr st what i first n rows five) s = .next (s.nak hdr nakNotHeld 0x30).settleEpoch) ∧
      (what = 1 → s.stripe? st = none → exec (.rebuildRead hdr st what i first n rows five) s = .next (s.nak hdr nakNotHeld 0x30).settleEpoch))) ∧
  (∀ (s : State) (hdr : MsgHdr) (st i first n : Nat) (last push ok : Bool) (bad : List Nat) (rec' : Option StripeRec) (grans : List PushGran),
    s.takesMsg hdr (.rebuildData st 0 i first n last push false ok bad rec' grans) →
    let drop (t : State) := t.updSwarm fun w => { w with openPushes := w.openPushes.filter fun x => x.1 != hdr }
    (push = false → exec (.rebuildData hdr st 0 i first n last push false ok bad rec' grans) s = .next ((s.raise 421).nak hdr nakMalformed 0x31).settleEpoch) ∧
    (push = true → s.swarm.openPushes.find? (fun x => x.1 == hdr) = none → s.swarm.openPushes.length < 256 → first = 0 →
      (grans.any (fun p => !s.nsids.contains p.nsid) = true → exec (.rebuildData hdr st 0 i first n last push false ok bad rec' grans) s = .next
        (drop (s.nak hdr nakNoNamespace 0x31)).settleEpoch) ∧
      (grans.any (fun p => !s.nsids.contains p.nsid) = false → s.swarm.adopted.isNone = false →
        let t := grans.foldl State.restoreGran ((drop s).updSwarm fun w => { w with openPushes := w.openPushes ++ [(hdr, first + n)] })
        (last = false → exec (.rebuildData hdr st 0 i first n last push false ok bad rec' grans) s = .next t.settleEpoch) ∧
        (last = true → ok = true →
          let u := (drop t).updSwarm fun w => { w with pushes := w.pushes + 1 }
          let u := if u.swarm.pushes % 4096 = 0 then u.raise 414 else u
          exec (.rebuildData hdr st 0 i first n last push false ok bad rec' grans) s = .next
            ((u.sendDurable (u.stripeRegion st) hdr (.rebuildData st 0 i 0 0 true true true [] none) true).checkRestored).settleEpoch))))

/-- R236 to R238, R246, R247, R251, R276: ports and sessions. -/
def Obligations.LenosPortsAndSessionsAct : Prop :=
  (∀ (s : State) (d : DieIx), (s.portAddr d).isSome = true → (s.com d).inService = true → s.clocksRun = true →
    let t (up : Bool) := s.updCrossing (.swarm d) fun c => { c with clockOn := up }
    (∀ n : Nat, n < 3 → exec (.swarmLinkTraining d (.kr2 n)) s = .next ((t true).updPort d fun p => { p with speed := 2, fails := 0, inService := true })) ∧
    (∀ n : Nat, 3 ≤ n → exec (.swarmLinkTraining d (.kr2 n)) s =
      .next (((t true).updPort d fun p => { p with speed := 1, fails := 0, inService := true }).raise (dieSrc d 23))) ∧
    exec (.swarmLinkTraining d .kr1) s = .next ((t true).updPort d fun p => { p with speed := 1, fails := 0, inService := true }) ∧
    exec (.swarmLinkTraining d .none) s = .next ((t false).updPort d fun p => { p with speed := 0, inService := false })) ∧
  (∀ (s : State) (d : DieIx), s.swarm.ports[d].speed ≠ 0 →
    exec (.swarmPortLinkDown d) s = .next ((s.updPort d fun p => { p with speed := 0, fails := 0, inService := false }).raise (dieSrc d 22))) ∧
  (∀ (s : State) (d : DieIx), s.portTakes d = true →
    (∀ a : BitVec 128, s.portAddr d = some a →
      exec (.neighborSolicitation d a) s = .next (s.updPort d fun p => { p with answers := p.answers ++ [(1, a)] }) ∧
      exec (.arpRequest d a) s = .next (s.updPort d fun p => { p with answers := p.answers ++ [(2, a)] }) ∧
      exec (.echoRequest d a) s = .next (s.updPort d fun p => { p with answers := p.answers ++ [(3, a)] })) ∧
    exec (.otherInboundPacket d) s = .next (s.updPort d fun p => { p with rejOther := satAdd 0xFFFF p.rejOther 1 })) ∧
  (∀ (s : State) (d : DieIx),
    exec (.swmCtrlCntClr d) s = .next (s.updPort d fun p => { p with retx := 0, rejAuth := 0, rejReplay := 0, rejOther := 0 })) ∧
  (∀ (s : State) (d : DieIx) (m : HelloMsg), s.portTakes d = true → s.swarm.applied.isSome = true → m.dst = s.actingMember →
    (helloMalformed m = true →
      (m.reply = true → exec (.hello d m) s = .next (s.raiseAt d 421 0 0)) ∧
      (m.reply = false → exec (.hello d m) s = .next ((s.raiseAt d 421 0 0).send ⟨m.src, (s.raiseAt d 421 0 0).epoch, m.opid⟩ (.nak nakMalformed 0x01 0)))) ∧
    (helloMalformed m = false →
      (m.phase = 1 → s.helloStatus m = 0 → s.ownCertOk = true →
        (∀ h : HelloTry, s.swarm.hellos.find? (fun h => h.peer == m.src) = some h → h.initiator = false ∨ m.src ≤ s.actingMember) →
        exec (.hello d m) s = .next (s.answerHello m)) ∧
      (m.phase = 1 → s.helloStatus m = 3 → exec (.hello d m) s = .next ((s.authFail d m.src).refuseHello m 3)) ∧
      (∀ n : Nat, m.phase = 1 → s.helloStatus m = n → n ≠ 0 → n ≠ 3 → exec (.hello d m) s = .next (s.refuseHello m n)) ∧
      (∀ h : HelloTry, s.swarm.hellos.find? (fun h => h.peer == m.src) = some h →
        (m.phase = 2 → h.initiator = true → m.status ≠ 0 → exec (.hello d m) s = .next (s.abandonHello m.src)) ∧
        (m.phase = 2 → h.initiator = true → m.status = 0 → ((m.cert.map fun c => s.certOk m.src c).getD false && m.sigOk) = true →
          exec (.hello d m) s = .next ((s.putHello (s.ownHello m.src 3 0 0 h.first.opid 0 none [h.first, m])).establish
            { h with peerId := m.sessionId, second := some m })) ∧
        (m.phase = 2 → h.initiator = true → m.status = 0 → ((m.cert.map fun c => s.certOk m.src c).getD false && m.sigOk) = false →
          exec (.hello d m) s = .next (s.authFail d m.src)) ∧
        (m.phase = 3 → h.initiator = false → m.sigOk = true → exec (.hello d m) s = .next ((s.establish h).raiseAt d 401 0 0)) ∧
        (m.phase = 3 → h.initiator = false → m.sigOk = false → exec (.hello d m) s = .next (s.authFail d m.src))))) ∧
  (∀ (s : State) (h : HelloTry), s.session? h.peer = none →
    ((s.establish h).session? h.peer).map (fun x => (x.txKey, x.rxKey)) = some h.keys) ∧
  (∀ (a b : HelloTry) (m : HelloMsg) (p q : Nat × Nat), a.initiator = true → b.initiator = false → a.first = b.first → a.second = some m → b.second = some m →
    m.ephKey = some p → b.first.ephKey = some q → sharedX a.scalar p = sharedX b.scalar q → a.keys = (b.keys.2, b.keys.1)) ∧
  (∀ (s : State) (c : Nat), exec (.helloAttemptTimeout c) s = .next (s.abandonHello c)) ∧
  (∀ (s : State) (c : Nat), s.swarm.retryHello.contains c = true →
    exec (.helloRetryTimer c) s = .next (s.startHello c (s.session? c).isSome)) ∧
  (∀ (s : State) (c : Nat) (x : Session), s.session? c = some x →
    (s.actingMember < c → exec (.sessionRekey c) s = .next (s.startHello c true)) ∧
    (c ≤ s.actingMember → exec (.sessionRekey c) s = .next s) ∧
    (x.old ≠ none → exec (.oldSessionErase c) s = .next ((s.updSession c fun x => { x with old := none, oldKey := none }).raise 402)))

/-- R241 to R244, R250, R252 to R255: delivery. -/
def Obligations.LenosDeliveryActs : Prop :=
  (∀ (s : State) (d : DieIx) (p : LenosPkt), s.portTakes d = true →
    (p.version ≠ 1 ∨ 1 < p.kind → exec (.lenosPacket d p) s = .next (s.raiseAt d 421 0 0)) ∧
    (∀ x : Session, p.version = 1 → p.kind = 1 → p.dst = s.actingMember → s.sessionAt p.src p.session = some (x, true) →
      (x.rx[p.half].fresh p.ctr = false → exec (.lenosPacket d p) s =
        .next ((s.updPort d fun q => { q with rejReplay := satAdd 255 q.rejReplay 1 }).raiseAt d 404 0 0)) ∧
      (x.rx[p.half].fresh p.ctr = true → p.tagOk = false ∨ p.sealKey ≠ x.rxKey → exec (.lenosPacket d p) s =
        .next ((s.updPort d fun q => { q with rejAuth := satAdd 255 q.rejAuth 1 }).raiseAt d 403 0 0)) ∧
      (x.rx[p.half].fresh p.ctr = true → p.tagOk = true → p.sealKey = x.rxKey → p.bodyBad = false → p.msgs.filter (·.malformed) = [] →
        let h := { x.rx[p.half].take p.ctr with ackDue := x.rx[p.half].ackDue || !p.msgs.isEmpty }
        let a := x.tx[p.ackHalf].ack p.ackBase p.ackMap p.credit
        exec (.lenosPacket d p) s = .next ((((s.updSession p.src fun y => { y with rx := y.rx.set p.half h }).updSession p.src fun y =>
            { y with rx := y.rx.set p.half ((p.msgs.filter fun m => !m.malformed).foldl (fun (z : HalfRx) m => z.msg m.msn) y.rx[p.half]) }).sealWith
          p.src p.ackHalf fun _ => a.1).updPort p.ackHalf fun q => { q with retx := satAdd 0xFFFFFFFF q.retx a.2 })))) ∧
  (∀ (s : State) (c : Nat) (k : Fin 2) (x : Session), s.session? c = some x → x.rx[k].ackDue = true → s.swarm.fenced = false →
    (x.tx[k].ctr < 2 ^ 33 → ∃ f : Session → Session,
      f x = { x with rx := x.rx.set k { x.rx[k] with ackDue := false }, tx := x.tx.set k { x.tx[k] with ctr := x.tx[k].ctr + 1 } } ∧
      exec (.ackTimer c k) s = .next (s.updSession c f)) ∧
    (2 ^ 33 ≤ x.tx[k].ctr → x.tx[k].refused = false → ∃ f : Session → Session, f x = { x with tx := x.tx.set k { x.tx[k] with refused := true } } ∧
      exec (.ackTimer c k) s = .next ((s.updSession c f).raise (dieSrc k 12))) ∧
    (2 ^ 33 ≤ x.tx[k].ctr → x.tx[k].refused = true → ∃ f : Session → Session, f x = x ∧ exec (.ackTimer c k) s = .next (s.updSession c f))) ∧
  (∀ (s : State) (c : Nat) (k : DieIx) (n : Nat) (r : SentRec),
    ((s.session? c).bind fun x => x.tx[k].unacked.find? fun r => r.ctr == n) = some r →
    ((s.session? c).map fun x => decide (x.tx[k].ctr < 2 ^ 33)) = some true →
    let left (x : HalfTx) : HalfTx := { x with unacked := x.unacked.filter fun q => q.ctr != n, rtoUs := min 250000 (2 * x.rtoUs) }
    exec (.retransmissionTimeout c k n) s = .next ((s.sealWith c k fun x => (left x).resend [r]).updPort k
      fun q => { q with retx := satAdd 0xFFFFFFFF q.retx 1 })) ∧
  (∀ (s : State) (c : Nat) (k : DieIx) (x : Session), s.session? c = some x → x.tx[k].unacked ≠ [] →
    (∀ h : x.tx[k].path.val < 3, exec (.pathProgressTimeout c k) s =
      .next (s.updSession c fun y => { y with tx := y.tx.set k { y.tx[k] with path := ⟨x.tx[k].path.val + 1, by omega⟩ } })) ∧
    (x.tx[k].path = 3 → exec (.pathProgressTimeout c k) s = .next (s.sessionLost c).settleEpoch)) ∧
  (∀ (s : State) (c : Nat), exec (.livenessTimeout c) s = .next (s.updSession c fun x => { x with lit := false })) ∧
  (∀ (s : State) (c : Nat), s.isLit c = false → (s.peer c).reported = false → s.peerFlag c hbDiapause = false →
    (s.swarm.peers.any fun p => p.member == c) = true →
    exec (.peerUnreachable c) s = .next ((s.updPeer c fun p => { p with reported := true }).raise 400))

/-- R263 to R265, R268, R271: the rebuild list. -/
def Obligations.RebuildTasksStartAndRetry : Prop :=
  (∀ (s : State) (t : RebuildTask) (rows : List RowFacts) (applied : List Nat), s.swarm.fenced = false → s.backgroundOk = true →
    (s.swarm.tasks.filter (·.running)).length < 4 → s.nextTask = some t →
    (∀ c : Nat, exec (.rebuildTaskStart rows (some c) applied) s = .next ((s.updTask t fun x => { x with aside := true }).postLight c 1)) ∧
    ((t.data = true → rows.filter (rowLost t.index) = []) →
      let u : RebuildTask := { t with lostRows := [] }
      let s' := s.updTask u fun x => { x with lostRows := [] }
      (∀ c : Nat, t.target = some c → s'.isLit c = true → exec (.rebuildTaskStart rows none applied) s = .next (s'.sendPush u c)) ∧
      (∀ c : Nat, t.target = some c → s'.isLit c = false →
        exec (.rebuildTaskStart rows none applied) s = .next (s'.updTask u fun x => { x with aside := true })) ∧
      (t.target = none → t.data = true → exec (.rebuildTaskStart rows none applied) s = .next (s'.retractBehalf u)) ∧
      (t.target = none → t.data = false → t.index ≠ 0 →
        exec (.rebuildTaskStart rows none applied) s = .next (s'.updTask u fun x => { x with aside := true })) ∧
      (∀ (r : StripeRec) (s'' : State) (n : Nat × Nat), t.target = none → t.data = false → t.index = 0 → s'.stripe? t.stripe = some r →
        s'.takeRun (s'.stripeRegion t.stripe) .accumulation .slc = (s'', some n) → exec (.rebuildTaskStart rows none applied) s =
          .next (((s''.putStripe { r with cur := some n, data := r.data.zipIdx.map fun x => { x.1 with applied := applied.contains x.2 } }).updTask u
            fun x => { x with done := true }).advanceStripe t.stripe).checkTasks))) ∧
  (∀ (s : State) (st i c : Nat) (data : Bool) (t : RebuildTask), t.target = some c →
    (s.swarm.tasks.find? (fun t => t.stripe == st && t.data == data && t.index == i && t.refused == some nakBusy) = some t →
      (s.isLit c = true → exec (.pushBusyRetry st data i) s = .next (s.sendPush t c)) ∧
      (s.isLit c = false → exec (.pushBusyRetry st data i) s = .next (s.updTask t fun x => { x with refused := none, aside := true }))) ∧
    (s.swarm.tasks.find? (fun t => t.stripe == st && t.data == data && t.index == i && t.refused == some nakNoNamespace) = some t →
      (s.isLit c = true → exec (.pushNoNamespaceRetry st data i) s = .next (s.sendPush t c)) ∧
      (s.isLit c = false → exec (.pushNoNamespaceRetry st data i) s = .next (s.updTask t fun x => { x with refused := none, aside := true }))))

/-- R278, R287, R288, R302, R382, R386, R450, R510: links, controllers and doorbells. -/
def Obligations.HostPortCommandsAct : Prop :=
  (∀ (s : State) (d : DieIx) (gen lanes : Nat), s.configInit d = true → s.clocksRun = true → s.dies[d].host.perst = false → 3 ≤ gen → gen ≤ 5 →
    lanes = 1 ∨ lanes = 2 ∨ lanes = 4 →
    let t := (s.updHost d fun h => { h with speed := gen - 2, width := if lanes = 4 then 2 else lanes - 1 }).clockOrder true [.pcie d]
    exec (.pcieLinkTraining d gen lanes) s = .next (if gen < 5 ∨ lanes < 4 then t.raise (dieSrc d 1) else t)) ∧
  (∀ (s : State) (d : DieIx),
    (s.dies[d].host.speed ≠ 0 → exec (.hostLinkDown d) s =
      .next (((s.updHost d fun h => { h with speed := 0, width := 0 }).hostReset d).raise (dieSrc d 0))) ∧
    exec (.perstNAssert d) s = .next (if s.portDead then s.updHost d fun h => { h with perst := true }
      else (s.updHost d fun h => { h with perst := true }).hostLinkLost d) ∧
    exec (.perstNRelease d) s = .next (s.updHost d fun h => { h with perst := false }) ∧
    (s.hostLinkUp d = true → s.portDead = false → exec (.functionLevelReset d) s = .next ((s.hostReset d).raise (dieSrc d 2))) ∧
    (s.dies[d].host.perst = false → s.keeper.sup.vinOk = true → exec (.configRequest d) s = .next (s.updHost d fun h => { h with cfgAnswers := h.cfgAnswers ++ [s.configInit d] })) ∧
    (∀ a c : Nat, s.hostLinkUp d = true → s.configInit d = true → s.dies[d].host.enabled = false → exec (.controllerEnable d a c) s =
      .next ((s.updHost d fun h => { h with
        enabled := true, shst := 0, subs := [SubQueue.mk 0 0 a 0], cpls := [CplQueue.mk 0 c 0 0 true] }).controllerReady d)) ∧
    (s.dies[d].host.enabled = true →
      (let t := ((s.hostReset d).updHost d fun h => { h with cfs := s.keeper.fc.safe }).raiseAt d 465 0 0
       (t.keeper.boot.stage = .recovery ∧ t.keeper.boot.recoveryCommitted = true →
         exec (.controllerReset d) s = .next (t.takePending.startRescue false false true)) ∧
       (¬ (t.keeper.boot.stage = .recovery ∧ t.keeper.boot.recoveryCommitted = true) → exec (.controllerReset d) s = .next t)) ∧
      (s.portDead = false → s.dies[d].host.shst = 0 → exec (.normalShutdown d) s =
        .next ((((s.updHost d fun h => { h with shst := 1 }).raiseAt d 467 0 0).startFlush).settleShutdown d)) ∧
      (s.portDead = false → s.dies[d].host.shst ≠ 2 → exec (.abruptShutdown d) s = .next ((((s.endHostWork d).clearSlots d).updHost d fun h => { h with
        shst := 2, slots := [], backlog := [], writes := h.writes.map fun w => { w with orphan := true } }).raiseAt d 468 0 0))) ∧
    (s.portDead = false → s.hostLinkUp d = true →
      (s.fw.pendingSlot = none → ¬ ((s.raiseAt d 466 0 0).keeper.boot.stage = .recovery ∧ (s.raiseAt d 466 0 0).keeper.boot.recoveryCommitted = true) →
        exec (.nvmSubsystemReset d 0x4E564D65) s = .next
        (((((s.raiseAt d 466 0 0).hostReset 0).hostReset 1).updHost 0 fun h => { h with speed := 0, width := 0 }).updHost 1
          fun h => { h with speed := 0, width := 0 })) ∧
      (s.fw.pendingSlot ≠ none ∨ ((s.raiseAt d 466 0 0).keeper.boot.stage = .recovery ∧ (s.raiseAt d 466 0 0).keeper.boot.recoveryCommitted = true) →
        exec (.nvmSubsystemReset d 0x4E564D65) s =
        .next ((s.raiseAt d 466 0 0).takePending.startRescue false false true))) ∧
    (s.hostLinkUp d = true → s.dies[d].host.enabled = true →
      (∀ (id v : Nat) (q : SubQueue), s.dies[d].host.subs.find? (fun q => q.id == id) = some q →
        (v < q.size → exec (.submissionQueueDoorbell d id v) s =
          .next (s.updHost d fun h => { h with subs := h.subs.map fun q => if q.id == id then { q with tail := v } else q })) ∧
        (q.size ≤ v → exec (.submissionQueueDoorbell d id v) s =
          .next ((s.updHost d fun h => h.async ⟨d.val, d.isLt⟩ .invalidDoorbell).raiseAt d 484 0 0))) ∧
      (∀ (id v : Nat) (q : CplQueue), s.dies[d].host.cpls.find? (fun q => q.id == id) = some q →
        (v < q.size → exec (.completionQueueDoorbell d id v) s =
          .next (s.updHost d fun h => { h with cpls := h.cpls.map fun q => if q.id == id then { q with head := v } else q })) ∧
        (q.size ≤ v → exec (.completionQueueDoorbell d id v) s =
          .next ((s.updHost d fun h => h.async ⟨d.val, d.isLt⟩ .invalidDoorbell).raiseAt d 484 0 0)))))

/-- R29, R281, R286, R406: queues, Abort, Asynchronous Event Request. -/
def Obligations.QueueAndAbortCommandsAct : Prop :=
  (∀ (s : State) (ref : CmdRef) (qid n : Nat), s.admits .queueWork ref →
    (queueFault (s.dies[refDie ref].host.cpls.map (·.id)) qid n true = none → ∀ (irq : Bool) (v : Nat), v ≤ 128 →
      exec (.createIoCompletionQueue ref qid n true irq v) s =
        .next ((s.updHost (refDie ref) fun h => { h with cpls := h.cpls ++ [CplQueue.mk qid n 0 v irq] }).complete ref stOk 0)) ∧
    (queueFault (s.dies[refDie ref].host.subs.map (·.id)) qid n true = none → ∀ cq : Nat, cq ≠ 0 →
      (s.dies[refDie ref].host.cpls.any fun q => q.id == cq) = true → exec (.createIoSubmissionQueue ref qid n cq true) s =
        .next ((s.autoLock.updHost (refDie ref) fun h => { h with subs := h.subs ++ [SubQueue.mk qid cq n 0] }).complete ref stOk 0)) ∧
    (qid ≠ 0 → (s.dies[refDie ref].host.subs.any fun q => q.id == qid) = true → exec (.deleteIoSubmissionQueue ref qid) s =
      .next ((((s.dies[refDie ref].host.slots.filter fun x => x.ref.qid == qid && catchable x).foldl (fun s x => s.catchCmd x (stGeneric 0x08)) s).updHost
        (refDie ref) fun h => { h with subs := h.subs.filter fun q => q.id != qid }).complete ref stOk 0)) ∧
    (qid ≠ 0 → (s.dies[refDie ref].host.cpls.any fun q => q.id == qid) = true → (s.dies[refDie ref].host.subs.any fun q => q.cq == qid) = false →
      exec (.deleteIoCompletionQueue ref qid) s =
        .next ((s.updHost (refDie ref) fun h => { h with cpls := h.cpls.filter fun q => q.id != qid }).complete ref stOk 0)) ∧
    (qid ≠ 0 → (s.dies[refDie ref].host.cpls.any fun q => q.id == qid) = true → (s.dies[refDie ref].host.subs.any fun q => q.cq == qid) = true →
      exec (.deleteIoCompletionQueue ref qid) s = .next (s.complete ref (stSpecific 0x0C) 0))) ∧
  (∀ (used : List Nat) (qid n : Nat), queueFault used qid n true = none ↔ qid ≠ 0 ∧ qid ≤ 128 ∧ qid ∉ used ∧ 2 ≤ n ∧ n ≤ 16384) ∧
  (∀ (s : State) (ref : CmdRef) (sqid : Nat) (cid : Half), s.admits .abort ref →
    (∀ x : SlotCmd, s.dies[refDie ref].host.slots.find? (fun x => x.ref.qid == sqid && x.ref.cid == cid && !x.ref.viaMi && catchable x) = some x →
      exec (.abort ref sqid cid) s = .next (((s.catchCmd x (stGeneric 0x07)).raiseAt (refDie ref) 469 0 0).complete ref stOk 0)) ∧
    (s.dies[refDie ref].host.slots.find? (fun x => x.ref.qid == sqid && x.ref.cid == cid && !x.ref.viaMi && catchable x) = none →
      exec (.abort ref sqid cid) s = .next ((s.raiseAt (refDie ref) 470 0 0).complete ref stOk 1))) ∧
  (∀ (s : State) (ref : CmdRef), s.admits .asyncEvent ref → s.keeper.boot.fallbackEvent = false →
    (s.dies[refDie ref].host.aers.length < 9 →
      (s.dies[refDie ref].host.events = [] →
        exec (.asynchronousEventRequest ref) s = .next (s.updHost (refDie ref) fun h => { h with aers := h.aers ++ [ref.cid] })) ∧
      (∀ (e : AsyncEvent) (rest : List AsyncEvent), s.dies[refDie ref].host.events = e :: rest → exec (.asynchronousEventRequest ref) s =
        .next ((s.updHost (refDie ref) fun h => { h with events := rest, masked := h.masked ++ [e] }).complete ref stOk (asyncDw0 e)))) ∧
    (9 ≤ s.dies[refDie ref].host.aers.length → exec (.asynchronousEventRequest ref) s = .next (s.complete ref (stSpecific 0x05) 0)))

/-- R86, R281, R289, R292, R293, R484: Set Features. -/
def Obligations.SetFeaturesAct : Prop :=
  ∀ (s : State) (ref : CmdRef), s.admits .setFeatures ref →
    (∀ ms : BitVec 48, exec (.setFeaturesTimestamp ref ms) s = .next ((s.setTimestamp ms.toNat).complete ref stOk 0)) ∧
    (∀ w : Word, exec (.setFeaturesArbitration ref w) s = .next ((s.updFeat ref fun f => { f with arbitration := w }).complete ref stOk 0) ∧
      exec (.setFeaturesInterruptCoalescing ref w) s = .next ((s.updFeat ref fun f => { f with intCoalescing := w }).complete ref stOk 0) ∧
      exec (.setFeaturesAsyncEventConfiguration ref w) s = .next ((s.updFeat ref fun f => { f with asyncConfig := w }).complete ref stOk 0) ∧
      exec (.setFeaturesErrorRecovery ref w) s = .next (if w.getLsbD 16 then s.complete ref stInvalidField 0
        else (s.updFeat ref fun f => { f with errorRecovery := w }).complete ref stOk 0)) ∧
    (∀ ps : Nat, exec (.setFeaturesPowerManagement ref ps) s =
      .next (if 4 < ps then s.complete ref stInvalidField 0 else (s.complete ref stOk 0).setPower ps)) ∧
    (∀ (k : Half) (sel : Nat), (sel ≤ 8 ∨ sel = 15 → 
        let put (v : Vector Word 9) : Vector Word 9 := Vector.ofFn fun i => if sel = 15 ∨ sel = i.val then k.setWidth 32 else v[i]
        exec (.setFeaturesTemperatureThreshold ref k sel false) s =
          .next ((s.updFeat ref fun f => { f with tempOver := put f.tempOver }).complete ref stOk 0).settleWarnings ∧
        exec (.setFeaturesTemperatureThreshold ref k sel true) s =
          .next ((s.updFeat ref fun f => { f with tempUnder := put f.tempUnder }).complete ref stOk 0).settleWarnings) ∧
      (8 < sel → sel ≠ 15 → ∀ u : Bool, exec (.setFeaturesTemperatureThreshold ref k sel u) s = .next (s.complete ref stInvalidField 0))) ∧
    (∀ a b : Half, a ≠ 0xFFFF → b ≠ 0xFFFF → (s.dies[refDie ref].host.subs.any fun q => q.id != 0) = false →
      (s.dies[refDie ref].host.cpls.any fun q => q.id != 0) = false →
      exec (.setFeaturesNumberOfQueues ref a b) s = .next ((s.updFeat ref fun f => f).complete ref stOk 0x007F007F)) ∧
    (∀ (v : Half) (b : Bool), exec (.setFeaturesInterruptVectorConfig ref v b) s = .next (if 128 < v.toNat then s.complete ref stInvalidField 0
      else (s.updFeat ref fun f => { f with intVectors := (f.intVectors.filter fun x => x.1 != v) ++ [(v, b)] }).complete ref stOk 0)) ∧
    (∀ (b : Bool) (t : Vector DWord 32), exec (.setFeaturesApst ref b t) s = .next (
      if (List.finRange 5).any fun i => apstMs t[i.val] != 0 && apstTarget t[i.val] != 3 && apstTarget t[i.val] != 4 then s.complete ref stInvalidField 0
      else (s.updFeat ref fun f => { f with apst := t, apste := b }).complete ref stOk 0)) ∧
    (∀ (e : Half) (i : Byte) (b : Bool), exec (.setFeaturesFdp ref e i b) s =
      .next (if e = 1 ∧ i = 0 ∧ b = true then (s.updFeat ref fun f => f).complete ref stOk 0 else s.complete ref stInvalidField 0)) ∧
    (∀ (h : Half) (ts : List Byte) (b : Bool), exec (.setFeaturesFdpEvents ref h ts b) s = .next (if 7 < h.toNat then s.complete ref stInvalidField 0
      else (s.updFeat ref fun f => { f with fdpEvents := (f.fdpEvents.filter fun e => !(e.1 == h && ts.contains e.2.1)) ++ ts.map fun t => (h, t, b) }).complete
        ref stOk 0))

/-- R281, R293, R297: Get Features, Get Log Page, Identify, APST. -/
def Obligations.ReadsOfTheControllerAct : Prop :=
  (∀ (s : State) (ref : CmdRef) (fid : Byte) (w : Word), s.admits .getFeatures ref →
    (∀ v : Word × Returned, s.featureValue ref fid w = some v → exec (.getFeatures ref fid w) s = .next (s.completeWith ref stOk v.1 v.2)) ∧
    (s.featureValue ref fid w = none → exec (.getFeatures ref fid w) s = .next (s.complete ref stInvalidField 0))) ∧
  (∀ (s : State) (ref : CmdRef) (lid : Byte) (nsid lsi off len : Nat) (rae : Bool), s.admits (.getLog lid) ref →
    (∀ l : List DataField, s.logPage (refDie ref) lid = some l → (vendorLog lid = true → nsid = 0xFFFFFFFF) → (groupLog lid = true → lsi = 1) →
      exec (.getLogPage ref lid nsid lsi off len rae) s =
        .next ((s.logWasRead (refDie ref) lid rae).completeWith ref stOk 0 (.fields (cutFields off len l)))) ∧
    (s.logPage (refDie ref) lid = none ∨ (vendorLog lid = true ∧ nsid ≠ 0xFFFFFFFF) ∨ (groupLog lid = true ∧ lsi ≠ 1) →
      exec (.getLogPage ref lid nsid lsi off len rae) s = .next (s.complete ref stInvalidField 0))) ∧
  (∀ (s : State) (ref : CmdRef) (cns : Byte) (nsid cnt : Nat), s.admits (.identify cns) ref →
    (∀ l : List DataField, s.identifyData ref cns nsid cnt = .inr l → exec (.identify ref cns nsid cnt) s = .next (s.completeWith ref stOk 0 (.fields l))) ∧
    (∀ st : Status, s.identifyData ref cns nsid cnt = .inl st → exec (.identify ref cns nsid cnt) s = .next (s.complete ref st 0))) ∧
  (∀ (s : State) (ref : CmdRef), ref.qid = 0 → s.adminBusy .other ref = false → s.tokensHeld ref = false →
    exec (.unsupportedCommand ref) s = .next (s.complete ref stInvalidOpcode 0)) ∧
  (∀ (s : State) (d : DieIx), s.dies[d].host.feat.apste = true → s.hostIdle = true → s.portDead = false →
    ∀ h : s.keeper.sup.ps < 32, apstMs (s.dies[d].host.feat.apst[s.keeper.sup.ps]) ≠ 0 →
    ∀ p : Nat, apstTarget (s.dies[d].host.feat.apst[s.keeper.sup.ps]) = p → p = 3 ∨ p = 4 → s.keeper.sup.ps < p →
      exec (.apstIdleTimer d) s = .next (s.setPower p))

/-- R149, R279, R290, R291, R338, R339, R418: namespaces, Format, Sanitize. -/
def Obligations.NamespaceCommandsAct : Prop :=
  (∀ (s : State) (ref : CmdRef), s.admits .namespaceWork ref → s.preparing = false → s.opt.barrier = none →
    (∀ (nsze lbaf : Nat) (hs : List Nat), s.createFault nsze (s.newNamespace nsze lbaf hs) = none →
      (s.extentBusy [] = false → exec (.namespaceManagementCreate ref nsze nsze lbaf hs true) s = .next (
        let t := s.cancelReady
        (({ t with free := t.free + 1 }).newNamespaces (t.namespaces ++ [s.newNamespace nsze lbaf hs])).complete ref stOk
          (BitVec.ofNat 32 (s.newNamespace nsze lbaf hs).nsid))) ∧
      exec (.namespaceManagementCreate ref nsze nsze lbaf hs false) s = .next (s.drbgFailed ref)) ∧
    (∀ (nsze ncap lbaf : Nat) (hs : List Nat) (b : Bool) (st : Status), s.createFault ncap (s.newNamespace nsze lbaf hs) = some st →
      exec (.namespaceManagementCreate ref nsze ncap lbaf hs b) s = .next (s.complete ref st 0)) ∧
    (∀ n : Nat, n ∈ s.nsids → n ≠ allNs →
      (s.extentBusy (s.named n) = false → exec (.namespaceManagementDelete ref n) s = .next
        ((s.cancelReady.newNamespaces (s.cancelReady.namespaces.filter fun x => !(s.named n).contains x.nsid)).complete ref stOk 0)) ∧
      (s.extentBusy (s.named n) = true → exec (.namespaceManagementDelete ref n) s = .next (s.holdAdmin ref n)) ∧
      (∀ cs : List Half, cs ≠ [] → (cs.all fun c => c == 1 || c == 2) = true →
        exec (.namespaceAttachment ref n true cs) s = .next (s.complete ref (stSpecific 0x18) 0) ∧
        exec (.namespaceAttachment ref n false cs) s = .next (s.complete ref stInvalidField 0)))) ∧
  (∀ (s : State) (ref : CmdRef) (n lbaf : Nat), s.admits .formatNvm ref → s.preparing = false → s.opt.barrier = none → s.formatFault n lbaf = none →
    (s.extentBusy (s.named n) = false → exec (.formatNvm ref n lbaf) s = .next
      ((((s.cancelReady.named n).foldl State.formatExtent s.cancelReady).setLbaf (s.cancelReady.named n) lbaf).complete ref stOk 0)) ∧
    (s.named n ≠ [] →
      let t := s.updSub fun x => { x with eraseRef := some ref }
      t.extentBusy (s.named n) = false → t.preparing = false → t.cancelReady.openErase? = none → exec (.formatNvmCryptoErase ref n lbaf true) s =
        .next (((t.cancelReady.holdAdmin ref n).beginErase (s.named n) ref).setLbaf (s.named n) lbaf))) ∧
  (∀ (s : State) (ref : CmdRef), s.admits .sanitize ref →
    (s.sanitizing = false → s.preparing = false → s.opt.barrier = none →
      (s.nsids = [] → s.extentBusy [] = false →
        exec (.sanitizeCryptoErase ref true) s = .next (((s.cancelReady.sanitizeStart false).settleSanitize).complete ref stOk 0) ∧
        exec (.sanitizeBlockErase ref true) s = .next (((s.cancelReady.sanitizeStart true).settleSanitize).complete ref stOk 0)) ∧
      (s.nsids ≠ [] →
        let t := s.updSub fun x => { x with eraseRef := some ref }
        t.extentBusy s.nsids = false → t.preparing = false → t.cancelReady.openErase? = none →
        exec (.sanitizeCryptoErase ref true) s =
          .next (((t.cancelReady.sanitizeStart false).holdAdmin ref allNs).beginErase t.cancelReady.nsids ref) ∧
        exec (.sanitizeBlockErase ref true) s =
          .next (((t.cancelReady.sanitizeStart true).holdAdmin ref allNs).beginErase t.cancelReady.nsids ref)) ∧
      exec (.sanitizeExitFailureMode ref) s =
        .next ((s.updSub fun x => { x with sanitize := if x.sanitize = .failed then .never else x.sanitize }).complete ref stOk 0)) ∧
    exec (.sanitizeOverwrite ref) s = .next (s.complete ref stInvalidField 0))

/-- R296, R336, R337, R341: keys. -/
def Obligations.KeyCommandsAct : Prop :=
  (∀ (s : State) (ref : CmdRef) (b : KeyBlob), s.admits .securitySend ref →
    (s.dies[refDie ref].cipher.locked = true → exec (.securitySendKek ref b) s = .next (s.complete ref stSequenceError 0)) ∧
    (s.dies[refDie ref].cipher.locked = false →
      (s.unwrapCheck (refDie ref) b true (b.kekId != 0) = none →
        exec (.securitySendKek ref b) s = .next ((s.commitSet fun k => { k with kek := b.key, kekId := b.kekId }).complete ref stOk 0)) ∧
      (∀ d : DieIx, s.unwrapCheck (refDie ref) b true (b.kekId != 0) = some d →
        exec (.securitySendKek ref b) s = .next ((s.unwrapFail d b.wlenOk).complete ref stKeyUnwrapFailed 0)) ∧
      (∀ n : Nat, s.nsids.contains n = true →
        (s.sub.written.contains n = true → exec (.securitySendNamespaceKey ref n b) s = .next (s.complete ref stSequenceError 0)) ∧
        (s.sub.written.contains n = false → s.unwrapCheck (refDie ref) b false (b.kekId.toNat == s.kekId) = none → exec (.securitySendNamespaceKey ref n b) s =
          .next ((s.commitSet fun k => { k with ns := (k.ns.filter fun x => x.1 != n) ++ [(n, b.key)] }).complete ref stOk 0)) ∧
        (∀ d : DieIx, s.sub.written.contains n = false → s.unwrapCheck (refDie ref) b false (b.kekId.toNat == s.kekId) = some d →
          exec (.securitySendNamespaceKey ref n b) s = .next ((s.unwrapFail d b.wlenOk).complete ref stKeyUnwrapFailed 0)))) ∧
    (∀ n : Nat, s.nsids.contains n = false → exec (.securitySendNamespaceKey ref n b) s = .next (s.complete ref (stGeneric 0x0B) 0)) ∧
    exec (.securitySendLock ref) s =
      .next (((s.updCipher 0 fun c => { c with locked := true }).updCipher 1 fun c => { c with locked := true }).complete ref stOk 0)) ∧
  (∀ (s : State) (ref : CmdRef), s.admits .securityReceive ref →
    exec (.securityReceiveKeyStatus ref) s = .next (s.completeWith ref stOk 0 (.fields [
      DataField.mk 0 8 (filledBits s.dies[0].cipher.slots), DataField.mk 8 8 (filledBits s.dies[1].cipher.slots), DataField.mk 16 4 s.kekId, DataField.mk 20 44 0])) ∧
    exec (.securityReceiveProtocolList ref) s =
      .next (s.completeWith ref stOk 0 (.fields [DataField.mk 0 6 0, DataField.mk 6 2 0x0200, DataField.mk 8 1 0x00, DataField.mk 9 1 0xF2]))) ∧
  (∀ (s : State) (d : DieIx), exec (.cphCtrlCntClr d) s = .next (s.updCipher d fun c => { c with refuseCount := 0, unwrapFails := 0 }))

/-- R294, R295, R363, R412 to R417: option images and diapause. -/
def Obligations.OptionCommandsAct : Prop :=
  (∀ (s : State) (ref : CmdRef) (off len : Nat) (last : Bool) (img : OptImage), s.admits .optionStage ref → ref.viaMi = false ∨ len ≤ 4096 →
    off % 4096 = 0 → len ≠ 0 → off + len ≤ 1048576 →
    (off = 0 → s.opt.barrier = none →
      let t := (s.countErases 448 16).updOpt fun o => { o with staging := { noStaging with next := len, image := if last then some img else none } }
      exec (.optionStage ref off len last img) s = .next ((if last then t.raiseAt ⟨ref.ctrl.val, ref.ctrl.isLt⟩ 475 0 0 else t).complete ref stOk 0)) ∧
    (off ≠ 0 → s.opt.staging.next = off → s.opt.staging.image = none →
      let t := s.updOpt fun o => { o with staging := { s.opt.staging with next := off + len, image := if last then some img else none } }
      exec (.optionStage ref off len last img) s = .next ((if last then t.raiseAt ⟨ref.ctrl.val, ref.ctrl.isLt⟩ 475 0 0 else t).complete ref stOk 0)) ∧
    (off ≠ 0 → s.opt.staging.next ≠ off → exec (.optionStage ref off len last img) s = .next (s.complete ref stStageOutOfOrder 0))) ∧
  (∀ (s : State) (ref : CmdRef), s.admits .optionCheck ref →
    (s.opt.staging.image = none → exec (.optionCheck ref) s = .next (s.complete ref stNothingStaged 0)) ∧
    (∀ img : OptImage, s.opt.staging.image = some img →
      (s.optionCheck img = none → exec (.optionCheck ref) s = .next (s.complete ref stOk 0)) ∧
      (∀ f : Nat × Nat, s.optionCheck img = some f → exec (.optionCheck ref) s =
        .next ((s.raiseAt ref.ctrl 476 0 0).complete ref stOptionCheckFailed (BitVec.ofNat 32 (f.1 + 65536 * f.2)))))) ∧
  (∀ (s : State) (ref : CmdRef) (img : OptImage), s.admits .optionApply ref → s.opt.barrier = none → s.opt.staging.image = some img →
    (s.optionCheck img = none →
      exec (.optionApplyAtStart ref) s = .next ((s.updOpt fun o => { o with staging := { o.staging with marked := true, cancelled := false } }).complete ref stOk 1) ∧
      (s.preparing = true → exec (.optionApplyLive ref) s = .next (s.complete ref stInProgress 0)) ∧
      (s.preparing = false → s.fw.activating ≠ none → exec (.optionApplyLive ref) s = .next s) ∧
      (∀ a : OptImage, s.preparing = false → s.fw.activating = none → appliedOf s.opt = some a →
        (startOnlyChange a.records img.records = true → exec (.optionApplyLive ref) s = .next (s.complete ref stStartOnlyChange 0)) ∧
        (startOnlyChange a.records img.records = false → exec (.optionApplyLive ref) s = .next
          (((s.updOpt fun o => { o with barrier := some ref }).hostPauseFetch).updHost (refDie ref) fun h =>
            { h with slots := h.slots ++ [heldSlot ref .vendor 0] })))) ∧
    (∀ f : Nat × Nat, s.optionCheck img = some f → exec (.optionApplyAtStart ref) s =
      .next ((s.raiseAt ref.ctrl 476 0 0).complete ref stOptionCheckFailed (BitVec.ofNat 32 (f.1 + 65536 * f.2))))) ∧
  (∀ (s : State) (ref q : CmdRef), s.admits .optionApply ref → s.opt.barrier = some q →
    exec (.optionApplyLive ref) s = .next (s.complete ref stInProgress 0) ∧ exec (.optionApplyAtStart ref) s = .next (s.complete ref stInProgress 0)) ∧
  (∀ (s : State) (ref : CmdRef) (img : OptImage), s.opt.barrier = some ref → s.opt.staging.image = some img → s.keeper.boot.stage = .serving →
    s.keeper.rescue.run = none → s.keeper.fc.safe = false →
    let t := (((((s.applyImage img true).updOpt fun o => { o with barrier := none }).raiseAt ref.ctrl 477 0 0).hostChangedNs).hostResumeFetch).checkSpares
    s.settleApply = if t.dies[refDie ref].host.slots.any (fun x => x.ref == ref) then t.complete ref stOk 0 else t) ∧
  (∀ (s : State) (ref : CmdRef), s.admits .diapausePrepare ref →
    (s.preparing = false → exec (.diapausePrepare ref) s = .next ((s.updSub fun x => { x with diapause := .preparing ref }).hostPauseFetch.updHost (refDie ref)
      fun h => { h with slots := h.slots ++ [heldSlot ref .vendor 0] })) ∧
    (s.preparing = true → exec (.diapausePrepare ref) s = .next (s.complete ref stInProgress 0))) ∧
  (∀ (s : State) (ref : CmdRef), s.sub.diapause = .preparing ref → s.diapauseDrained = true → s.keeper.rescue.run = none →
    ∃ t u : State, exec .diapauseReady s = .next t ∧ t = u.complete ref stOk 0 ∧ t.sub.diapause = .ready ∧ t.keeper.rescue.record = .diapause) ∧
  (∀ (s : State) (ref : CmdRef), s.admits .diapauseStatus ref → exec (.diapauseStatus ref) s =
    .next (s.complete ref stOk (BitVec.ofNat 32 ((match s.sub.diapause with | .lit => 0 | .preparing _ => 1 | .ready => 2 | .cancelled => 3) + 256 * s.capturedPercent))))

/-- R11, R12, R294, R371, R433, R493 to R495: management space. -/
def Obligations.ManagementAccessActs : Prop :=
  (∀ (s : State) (ref : CmdRef) (a : Word) (n : Nat), s.admits .mgmtRead ref → a.toNat % 4 = 0 → 0 < n → n ≤ 1024 →
    let as_ := (List.range n).map fun i => a.toNat + 4 * i
    ((as_.any fun a => s.mgmtRefused ref.viaMi false a) = true → exec (.managementRead ref a n) s = .next (s.refuseAccess ref)) ∧
    ((as_.any fun a => s.mgmtRefused ref.viaMi false a) = false →
      (∀ b : Fin 2, as_.findSome? s.busyBank = some b →
        exec (.managementRead ref a n) s = .next (s.updStore fun x => { x with readWaits := x.readWaits.set b (x.readWaits[b] + 1) })) ∧
      (as_.findSome? s.busyBank = none →
        let r := as_.foldl (fun (p : State × List Word) (a : Nat) => ((p.1.readDword a).1, p.2 ++ [(p.1.readDword a).2])) (s, [])
        exec (.managementRead ref a n) s = .next (r.1.completeWith ref stOk 0 (.words r.2))))) ∧
  (∀ (s : State) (ref : CmdRef) (a : Word) (vs : List Word), s.admits .mgmtWrite ref →
    let as_ := (List.range vs.length).map fun i => a.toNat + 4 * i
    (a.toNat % 4 ≠ 0 ∨ vs = [] → exec (.managementWrite ref a vs) s = .next (s.badMgmt ref)) ∧
    (a.toNat % 4 = 0 → vs ≠ [] → vs.length ≤ 1024 →
      ((as_.any fun a => s.mgmtRefused ref.viaMi true a) = false →
        exec (.managementWrite ref a vs) s = .next (((as_.zip vs).foldl (fun (s : State) p => s.writeDword p.1 p.2) s).complete ref stOk 0)) ∧
      ((as_.any fun a => s.mgmtRefused ref.viaMi true a) = true →
        let p := (as_.any fun a => match blockAt a with | some (.prot, _) => true | _ => false) && s.keeper.boot.lock
        exec (.managementWrite ref a vs) s = .next ((if p then s.raise 374 else s).refuseAccess ref)))) ∧
  (∀ (s : State) (ref : CmdRef), (s.refuseAccess ref) =
    (s.updMp fun m => { m with refused := satAdd 0xFFF m.refused 1, irq := m.irq.set 0 }).complete ref (if ref.viaMi then stMi 0x07 else stAccessRefused) 0) ∧
  (∀ (s : State) (a v : Word) (b : RegBlock) (o : Nat), blockAt a.toNat = some (b, o) → b ≠ .array → s.blockLive b = true →
    exec (.registerWrite a v) s = .next (s.writeReg b o v)) ∧
  (∀ (s : State) (b : RegBlock) (w : Word) (i : Irq × Word), s.irqOf b = some i →
    s.writeReg b 4 w = s.updIrq b fun x => { x with pend := x.pend &&& ~~~(w &&& i.2) })

/-- R20, R21, R116, R133, R273, R281 to R285, R293: I/O commands. -/
def Obligations.IoCommandsAct : Prop :=
  ∀ (s : State) (ref : CmdRef) (n : NamespaceRec) (slba nlb : Nat),
    let range : LbaRange := LbaRange.mk slba nlb
    let start (k : CmdKind) (rs : List LbaRange) : SlotCmd := slotOf ref k n.nsid rs
    let at_ (k : CmdKind) (rs : List LbaRange) : State := s.begun (start k rs)
    let goes (k : CmdKind) (rs : List LbaRange) : Prop := s.runsIo (start k rs) ∧ (at_ k rs).nsRec? n.nsid = some n
    let back (k : CmdKind) (rs src : List LbaRange) : State × ReadEnd := (at_ k rs).readRanges (start k rs) n src
    ((goes .read [range] → overMdts n range = false →
        (∀ (t : State), back .read [range] [range] = (t, .waits) → exec (.read ref n.nsid slba nlb) s = .next t) ∧
        (∀ (t : State) (m : Nat), back .read [range] [range] = (t, .dark m) → exec (.read ref n.nsid slba nlb) s = .next (t.darkEnd ref m)) ∧
        (∀ (t : State) (us : List (Option Nat)), back .read [range] [range] = (t, .units us) →
          let u := (t.endReads ref).updSub fun x => { x with hostReads := x.hostReads + 1, unitsRead := x.unitsRead + 8 * us.length }
          exec (.read ref n.nsid slba nlb) s = .next (if us.all Option.isSome then u.completeWith ref stOk 0 (.units us)
            else (u.poisonMet ref).completeWith ref stUnrecovered 0 (.units us)))) ∧
      (goes .verify [range] →
        (∀ (t : State), back .verify [range] [range] = (t, .waits) → exec (.verify ref n.nsid slba nlb) s = .next t) ∧
        (∀ (t : State) (us : List (Option Nat)), back .verify [range] [range] = (t, .units us) → exec (.verify ref n.nsid slba nlb) s =
          .next (if us.all Option.isSome then (t.endReads ref).complete ref stOk 0 else ((t.endReads ref).poisonMet ref).complete ref stUnrecovered 0))) ∧
      (∀ (src : List LbaRange) (dlba : Nat), let dst := LbaRange.mk dlba (src.map (·.nlb)).sum
        goes .copy (dst :: src) → (at_ .copy (dst :: src)).hasJob ref = false → overCopy n src = false → (at_ .copy (dst :: src)).readOnlyNow = false →
        (∀ (t : State), back .copy (dst :: src) src = (t, .waits) → exec (.copy ref n.nsid dlba src) s = .next t) ∧
        (∀ (t : State) (us : List (Option Nat)), back .copy (dst :: src) src = (t, .units us) →
          let u := t.receiveData ref n 0xFF dst (us.filterMap id)
          exec (.copy ref n.nsid dlba src) s = .next (if us.all Option.isSome then (if u.hasJob ref then u.endReads ref else u)
            else ((t.endReads ref).poisonMet ref).complete ref stUnrecovered 0)))) ∧
    (s.runsIo (start .flush []) → exec (.flush ref n.nsid) s = .next ((at_ .flush []).complete ref stOk 0)) ∧
    (∀ (data : List Nat) (dt ds : Nat) (st : Byte), goes .write [range] →
      ((at_ .write [range]).hasJob ref = false → overMdts n range = false → data.length = nlb * unitsPerLba n → streamOf n dt ds = some st →
        exec (.write ref n.nsid slba nlb dt ds data) s = .next (if (at_ .write [range]).readOnlyNow then (at_ .write [range]).complete ref stReadOnly 0
          else ((at_ .write [range]).carry (.pcie (refDie ref)) false (4096 * data.length)).receiveData ref n st range data)) ∧
      ((at_ .write [range]).hasJob ref = true →
        exec (.write ref n.nsid slba nlb dt ds data) s = .next ((at_ .write [range]).admitAll (refDie ref)))) ∧
    (goes .writeZeroes [range] → exec (.writeZeroes ref n.nsid slba nlb) s = .next ((at_ .writeZeroes [range]).zeroRanges ref n [range])) ∧
    (∀ rs : List LbaRange, rs.length ≤ 256 →
      (goes .deallocate rs → exec (.datasetManagement ref n.nsid true rs) s = .next ((at_ .deallocate rs).zeroRanges ref n rs)) ∧
      (goes .flush [] → exec (.datasetManagement ref n.nsid false rs) s = .next ((at_ .flush []).complete ref stOk 0))) ∧
    (∀ (st : Status), s.queueLive ref = true → s.fetched ref = true ∨ s.mayFetch (start .read [range]) = true →
      (s.fetch (start .read [range])).ioFault (start .read [range]) = some st →
        exec (.read ref n.nsid slba nlb) s = .next (((s.fetch (start .read [range])).endReads ref).complete ref st 0))

/-- R20, R282, R326, R332: the window and XTS. -/
def Obligations.AdmissionAndEncryptionAct : Prop :=
  (∀ (s : State) (d : DieIx), exec (.windowAdmit d) s = .next (s.dies[d].host.writes.foldl (fun s w => s.admitJob d w) s).settleWrites) ∧
  (∀ (s : State) (g : RegionIx) (gran seq : Nat) (u : PendUpd),
    (s.regions[g]).pend.find? (fun u => u.gran == gran && u.seq == seq && !u.encrypted) = some u →
    let per := ((s.nsRec? u.nsid).map unitsPerLba).getD 1
    let set (b : Option (DieIx × PoolClass × Nat)) (f : PendUpd → PendUpd) (s : State) : State :=
      s.updRegion g fun r => { r with pend := r.pend.map fun v => if v.gran == gran && v.seq == seq then { (f v).wholePoison per with cipher := b, encrypted := true } else v }
    (∀ t : State, s.takeCipher (s.updDieOf g u) u = (t, none) → ∀ bad : List Nat, exec (.xtsEncrypt g gran seq bad) s = .next t) ∧
    (∀ (t : State) (b : Option (DieIx × PoolClass × Nat)), s.takeCipher (s.updDieOf g u) u = (t, some b) → ((t.nsRec? u.nsid).map unitsPerLba).getD 1 = per →
      exec (.xtsEncrypt g gran seq []) s = .next (set b (fun v => v) t) ∧
      (∀ (bad : List Nat) (w : DieIx × Nat), bad ≠ [] → u.win = some w →
        exec (.xtsEncrypt g gran seq bad) s = .next (set b (fun v => bad.foldl PendUpd.poisonUnit v) (t.xtsRefused w.1))) ∧
      (∀ (bad : List Nat) (d : DieIx) (w : WriteJob), bad ≠ [] → u.win = none → t.throughJob gran seq = some (d, w) → w.orphan = false →
        let w' := { w with pieces := w.pieces.map fun p => if p.gran == gran && p.at_ == .through seq then { p with at_ := .received } else p }
        let t' := match b with | some x => t.dropBuf x.1 x.2.1 x.2.2 | none => t
        exec (.xtsEncrypt g gran seq bad) s = .next ((((t'.xtsRefused d).updRegion g fun r => { r with
          pend := r.pend.filter fun v => !(v.gran == gran && v.seq == seq) }).updHost d
            fun h => { h with writes := h.writes.map fun x => if x == w then w' else x }).refuseJob d w' stInternalError))))

/-- R304, R305, R307 to R309: the pool. -/
def Obligations.BufferPoolCommandsAct : Prop :=
  (∀ (s : State) (d : DieIx) (n : Nat) (k : WorkKind), s.dies[d].pool.inService = true →
    (∀ c : PoolClass, classFor n = some c →
      (∀ i : Nat, s.mayTake d c k = true → s.lowestFree d c = some i → exec (.bufferAllocate d n false k) s = .next (s.allocBuf d c i)) ∧
      (s.mayTake d c k = false → exec (.bufferAllocate d n false k) s = .next (s.waitBuf d c k none))) ∧
    (n ≤ 1048576 →
      (∀ i : Nat, s.mayTake d .dram k = true → s.lowestFree d .dram = some i → exec (.bufferAllocate d n true k) s = .next (s.allocBuf d .dram i)) ∧
      (s.mayTake d .dram k = false → exec (.bufferAllocate d n true k) s = .next (s.waitBuf d .dram k none)))) ∧
  (∀ (s : State) (d : DieIx) (ptr : Word) (u : PoolUser),
    (∀ cause : Nat, s.ptrCheck d ptr 0 false = some cause → cause ≠ 4 →
      exec (.bufferReferenceTake d ptr u) s = .next (s.pointerFault d ptr cause u) ∧ exec (.bufferReferenceDrop d ptr u) s = .next (s.pointerFault d ptr cause u)) ∧
    (s.ptrCheck d ptr 0 false = some 4 → exec (.bufferReferenceDrop d ptr u) s = .next (s.refFault d)) ∧
    (∀ (c : PoolClass) (o : Bool) (i l : Nat) (b : Buf), s.ptrCheck d ptr 0 false = none → decodePtr ptr = (some c, o, i, l) → (s.dies[d].pool).find c i = some b →
      b.pinned = false →
      (b.refs ≠ 255 → exec (.bufferReferenceTake d ptr u) s = .next (s.updPool d fun p => p.updBuf c i fun x => { x with refs := x.refs + 1 })) ∧
      (b.refs = 255 → exec (.bufferReferenceTake d ptr u) s = .next ((s.updPool d fun p => p.updBuf c i fun x => { x with pinned := true }).refFault d)) ∧
      (¬ (c = .c0 ∧ i = 0) → exec (.bufferReferenceDrop d ptr u) s = .next (s.dropBuf d c i)))) ∧
  (∀ (s : State) (d : DieIx) (c : PoolClass) (i : Nat), s.dies[d].pool.zeroing.contains (c, i) = true →
    let t := s.updPool d fun p => { p with zeroing := p.zeroing.filter (· != (c, i)) }
    exec (.bufferZeroed d c i) s = .next
      ((if t.classCount c / 8 ≤ t.freeCount d c then t.updPool d fun p => { p with armed := p.armed.set (classIdx c) true } else t).serveWaiting d c))

/-- R312 to R321, R325, R381: the memories. -/
def Obligations.MemoryCommandsAct : Prop :=
  (∀ (s : State) (d : DieIx), s.dramServes d = true →
    (∀ v n : Nat, exec (.dramOscillatorRead d v n) s = .next (s.updMem d fun m => { m with oscillator := v, retrainDue := m.retrainDue || decide (20 < n) })) ∧
    (∀ v : Nat, exec (.dramZqLatch d v) s = .next (s.updMem d fun m => { m with zqLatched := v })) ∧
    (∀ (byRate : Bool) (tries : List Bool) (r : Fin 3), s.keeper.rescue.run = none → s.dies[d].mem.rate = some r →
      s.dies[d].mem.retrainDue = true ∨ byRate = true ∨ 10 ≤ ((s.com d).temp - s.dies[d].mem.lastTemp).natAbs →
      let t := (s.updMem d fun m => { m with retrains := satAdd 255 m.retrains 1, lastTemp := (s.com d).temp, retrainDue := false }).raise (dieSrc d 6)
      (∀ n : Nat, trainDram (2 - r.val) tries = some n →
        exec (.dramRetrain d byRate tries) s = .next (t.updMem d fun m => { m with rate := some ⟨(2 - n) % 3, Nat.mod_lt _ (by decide)⟩ })) ∧
      (trainDram (2 - r.val) tries = none →
        exec (.dramRetrain d byRate tries) s = .next ((t.updMem d fun m => { m with rate := none, inService := false }).takeOut d (dieSrc d 6))))) ∧
  (∀ (s : State) (d : DieIx) (a : BitVec 40) (bit : Byte),
    let t := (s.updMem d fun m => { m with ceDram := satAdd 0xFFFF m.ceDram 1 }).updTable d .dram fun t => { t with corrected := satAdd 0xFFFFFFFF t.corrected 1 }
    let now := BitVec.ofNat 32 s.keeper.tk.opsec.toNat
    (((t.tableOf d .dram).entries.any fun e => e.addr == a) = true → exec (.memoryCorrected d .dram a bit) s =
      .next (if t.shaded (.die d) then t else t.updTable d .dram fun t => { t with entries := t.entries.map fun e => if e.addr == a then e.hit bit now else e })) ∧
    (((t.tableOf d .dram).entries.any fun e => e.addr == a) = false →
      ∀ x : CeTable, (t.tableOf d .dram).enter { addr := a, state := .corrected, hits := if t.shaded (.die d) then 0 else 1, post := 0, bit := bit, last := now } = some x →
      exec (.memoryCorrected d .dram a bit) s = .next ((t.updTable d .dram fun _ => x).raise (dieSrc d 3)))) ∧
  (∀ (s : State) (d : DieIx) (a : BitVec 40) (g : RegionIx) (gran : Nat),
    let t := (s.updMem d fun m => { m with ueDram := satAdd 0xFFFF m.ueDram 1 }).updTable d .dram fun t => { t with uncorr := satAdd 0xFFFFFFFF t.uncorr 1 }
    let now := BitVec.ofNat 32 s.keeper.tk.opsec.toNat
    (t.shaded (.die d) = true → exec (.memoryUncorrectable d .dram a (.map g gran)) s = .next ((t.raise (dieSrc d 4)).reloadEntry g gran)) ∧
    (t.shaded (.die d) = false → ((t.tableOf d .dram).entries.any fun e => e.addr == a) = false →
      ∀ x : CeTable, (t.tableOf d .dram).enter { addr := a, state := .hard, hits := 0, post := 0, bit := 0xFF, last := now } = some x →
      exec (.memoryUncorrectable d .dram a (.map g gran)) s =
        .next (((t.updTable d .dram fun _ => x).raise (dieSrc d 4)).reloadEntry g gran) ∧
      (∀ (c : PoolClass) (i unit : Nat), (((((t.updTable d .dram fun _ => x).raise (dieSrc d 4)).dies[d].pool).find c i).isSome) = true →
        exec (.memoryUncorrectable d .dram a (.buffer c i unit)) s = .next (((t.updTable d .dram fun _ => x).raise (dieSrc d 4)).poisonBuf d c i unit)))) ∧
  (∀ (s : State) (d : DieIx) (a : BitVec 40) (e : CeEntry) (ch : Fin 4), (s.tableOf d .dram).entries.find? (fun e => e.addr == a) = some e →
    e.state = .hard → s.dies[d].mem.rowsLeft[ch] ≠ 0 → exec (.locationRetire d .dram a ch none) s =
      .next (((s.updMem d fun m => { m with rowsLeft := m.rowsLeft.set ch (m.rowsLeft[ch] - 1) }).updTable d .dram
        fun t => { t.setState a .retired with retired := satAdd 0xFFFF t.retired 1 }).raise (dieSrc d 5))) ∧
  (∀ (s : State) (d : DieIx) (w : Word), ∃ t, exec (.memTest d w true) s = .next t ∧ t.dies[d].mem.test.en = w.getLsbD 31 ∧
    (w.getLsbD 31 = true → t.dies[d].mem.test.resultCe = ((flips (w.extractLsb' 0 8)).length == 1) ∧
      t.dies[d].mem.test.resultUe = ((flips (w.extractLsb' 0 8)).length == 2)) ∧ t.free = s.free) ∧
  (∀ (s : State) (d : DieIx), exec (.memCtrlCntClr d) s = .next (s.updMem d fun m => { m with ceDram := 0, ceSram := 0, ueDram := 0, ueSram := 0 })) ∧
  (∀ (s : State) (d : DieIx), s.keeper.boot.stage = .memoryLanes → s.dies[d].mem.filling = true → (s.com d).outOfService = false →
    let t := (s.updMem d fun m => { m with filling := false, inService := true }).updPool d fun p => { p with inService := true }
    exec (.zeroFillComplete d) s = .next (if (List.finRange 2).all fun e => (t.com e).outOfService || !t.dies[e].mem.filling then t.stage .restore else t))

/-- R344 to R348, R352, R362, R461, R528, R533: supply. -/
def Obligations.SupplyEventsAct : Prop :=
  (∀ s : State, s.keeper.sup.vinOk = true →
    exec .vinFall s = .next s.vinGone ∧
    (∀ r : BoardRail, (s.com 0).inReset = true → exec (.railWindowTimeout r) s = .next (s.raiseRail (boardRail r) false)) ∧
    (∀ r : PkgRail, exec (.regulatorStartTimeout r) s =
      .next (((s.raiseRail (pkgRail r) false).updSup fun x => { x with regulatorFault := true }).railReaction r)) ∧
    (∀ above : Bool, exec (.boardRailOutOfWindow .vccq above) s = .next ((((s.updSup fun x => { x with vccqOk := false }).raiseRail .vccq above)).updRescue
      fun q => { q with run := q.run.map fun x => { x with railLost := true } })) ∧
    (∀ mv : Half, s.keeper.sup.overArmed = true → 5750 < mv.toNat →
      exec (.vinOvervoltage mv) s = .next ((s.raiseRail .vin true).updSup fun x => { x with overArmed := false, overGood := 0 })) ∧
    (∀ mv : Half, s.keeper.sup.warnArmed = true → mv.toNat < s.power.warn →
      exec (.vinBelowWarning mv) s = .next ((s.raise 360).updSup fun x => { x with warnArmed := false, warnGood := 0 }))) ∧
  (∀ (s : State) (mw cap : Nat), s.keeper.sup.vinOk = true → s.keeper.rescue.run = none → s.capMw = some cap →
    let t := s.updSup fun x => { x with inputMw := min mw 0xFFFF }
    (cap < mw → exec (.powerCapAverage mw) s = .next (t.updSup fun x => { capStepDown x s.hotterDie with lowMs := 0 })) ∧
    (mw ≤ cap →
      let n := if mw * 10 < cap * 9 then min 10 (s.keeper.sup.lowMs + 1) else 0
      let u := t.updSup fun x => { x with lowMs := n }
      (s.keeper.sup.capSteps ≠ [] → exec (.powerCapAverage mw) s = .next (if n < 10 then u else u.updSup capStepUp)) ∧
      (s.keeper.sup.capSteps = [] → mw < cap → s.keeper.sup.ps = 0 → exec (.powerCapAverage mw) s =
        .next (u.updSup fun x => { x with vcore := #v[vcoreDrift x.vcore[0] (s.com 0).temp, vcoreDrift x.vcore[1] (s.com 1).temp] })) ∧
      (s.keeper.sup.capSteps = [] → mw = cap ∨ s.keeper.sup.ps ≠ 0 → exec (.powerCapAverage mw) s = .next u))) ∧
  (∀ s : State, s.lossDetectable = true →
    exec .pwrLossNAssert s = .next s.onLoss ∧ (s.power.loss ≠ 0 → exec .vinBelowLossThreshold s = .next s.onLoss) ∧
    (s.keeper.rescue.run = none → s.keeper.sup.state ≠ .safe → s.onLoss = (s.raise 361).startRescue true false false)) ∧
  (∀ s : State,
    (s.keeper.sup.vauxOk = true →
      let t := s.updSup fun x => { x with vauxOk := false }
      exec .vauxLost s = .next (if !t.keeper.sup.vinOk then t.keeperDark else if t.power.vauxPresent then t.raise 367 else t)) ∧
    (s.keeper.sup.vauxOk = false →
      (s.keeper.sup.vinOk = true → exec .vauxRise s = .next (s.updSup fun x => { x with vauxOk := true })) ∧
      (s.keeper.sup.vinOk = false → ∃ t, exec .vauxRise s = .next t ∧ t.keeper.sup.vauxOk = true ∧ t.keeper.sup.vkeep = true ∧
        t.keeper.sup.state = .carapace ∧ t.keeper.mp.inService = true)))

/-- R353, R359 to R361, R366, R368, R461: the bank, thermistors and samples. -/
def Obligations.HoldupBankActs : Prop :=
  (∀ (s : State) (r : RescueRun) (n : Nat), s.keeper.rescue.run = some r → exec (.rescueComplete n) s = .next (s.finishRescue r n)) ∧
  (∀ s : State, s.keeper.rescue.isoRelease = true →
    let t := (s.updSup fun x => { x with huIso := false }).updRescue fun q => { q with isoRelease := false }
    (s.keeper.fc.safe = false → exec (.huIsoRelease true) s = .next t.beginStart) ∧ (s.keeper.fc.safe = true → exec (.huIsoRelease true) s = .next t) ∧ exec (.huIsoRelease false) s = .next t.vinGone) ∧
  (∀ s : State, s.power.cap ≠ 0 → s.keeper.hu.phase = .idle → s.keeper.sup.vinOk = true → s.keeper.rescue.run = none →
    let t := s.updHu fun h => { h with phase := .draining, mode := if h.mode = .window then .closedForMeasure else h.mode,
                                       cap := s.power.cap, target := s.power.target, testLoad := s.power.testLoad }
    exec .kprCtrlHuMeasure s = .next t ∧ exec .measurementIntervalExpiry s = .next t) ∧
  (∀ s : State, s.keeper.hu.phase = .draining → s.windowKib = 0 → exec .holdupWindowsEmpty s =
    .next ((s.updSup fun x => { x with huChgEn := false }).updHu fun h => { h with phase := .settling, charge := .off })) ∧
  (∀ (s : State) (v : Nat), s.keeper.hu.phase = .settling →
    (99 * s.keeper.hu.target ≤ 100 * v → 100 * v ≤ 101 * s.keeper.hu.target → exec (.holdupSettleExpiry v) s =
      .next (((s.updHu fun h => { h with bankMv := min v 0xFFFF }).updSup fun x => { x with huTest := true }).updHu fun h => { h with phase := .discharging v })) ∧
    (100 * v < 99 * s.keeper.hu.target → exec (.holdupSettleExpiry v) s = .next (s.updHu fun h => { h with bankMv := min v 0xFFFF }).measureFailed)) ∧
  (∀ (s : State) (v us : Nat), s.keeper.hu.phase = .discharging v →
    exec .holdupDischargeTimeout s = .next s.measureFailed ∧
    (let c := bankCapacitance us s.keeper.hu.testLoad
     9 * s.keeper.hu.cap ≤ 10 * c → energyHolds c s.keeper.hu.target s.power.rescueP (windowBytes s.power) = true →
      exec (.holdupDischargeCrossing us) s = .next (s.updHu fun h => { h with
        measured := min c 0xFFFF, usable := min (usableMj c h.target) 0xFFFF, measurements := h.measurements + 1,
        degraded := false, lastPass := true, mode := if h.mode = .closedAtStart then .closedAtStart else .closedForMeasure }).rechargeBank)) ∧
  (∀ (s : State) (v : Nat), s.keeper.hu.phase = .recharging → 99 * s.keeper.hu.target ≤ 100 * v → 100 * v ≤ 101 * s.keeper.hu.target →
    exec (.holdupRecharged v) s = .next (s.updHu fun h => { h with
      phase := .idle, charge := .atTarget, bankMv := min v 0xFFFF, mode := if h.degraded then .writeThrough else .window })) ∧
  (∀ s : State, s.power.cap ≠ 0 → s.keeper.hu.charge = .charging →
    exec .holdupChargeTimeout s = .next ((s.raise 365).updHu fun h => degradeBank { h with charge := .timeout, phase := .idle })) ∧
  (∀ (s : State) (n : Fin 4) (b : Bool) (t : ThermalRec), s.recs?.bind (·.thermal) = some t → t.present.getLsbD n.val = true → s.keeper.sup.vinOk = true →
    exec (.thermistorFault n b) s =
      .next ((s.updSup fun x => { x with adc := x.adc.set (8 + n.val) { x.adc[8 + n.val] with below := !b, above := b } }).raise (368 + n.val))) ∧
  (∀ (s : State) (c : Int), 125 < c → s.keeper.sup.vinOk = true → exec (.keeperTemperatureCritical c) s = .next (s.raise 372).enterSafe) ∧
  (∀ (s : State) (o : AdcSampleOp), s.keeper.sup.vinOk = true → o.channel.val ≠ 1 →
    ∃ t, exec (.adcSample o) s = .next t ∧ t.keeper.sup.adc[o.channel] = { valid := true, below := o.below, above := o.above, value := o.value } ∧
      ∀ k : Fin 13, k ≠ o.channel → t.keeper.sup.adc[k] = s.keeper.sup.adc[k])

/-- R345, R369 to R377, R384, R476: starts. -/
def Obligations.StartsAct : Prop :=
  (∀ (s : State) (o : ColdStartFindings), s.keeper.sup.vinOk = false → o.selfCheckOk = true →
    ∃ t, exec (.vinRise o) s = .next t ∧ t.keeper.sup.vinOk = true ∧ t.keeper.sup.vcore = #v[75, 75] ∧ t.keeper.sup.ps = 0 ∧ t.keeper.boot.lock = false ∧
      t.keeper.boot.stage = .inReset ∧ t.keeper.boot.starts = 1 ∧ t.keeper.tk.pcycles = satAdd 0xFFFFFF s.keeper.tk.pcycles 1 ∧ t.store.ready = true ∧
      t.store.array = s.store.array ∧ t.keeper.prot = s.keeper.prot) ∧
  (∀ s : State, s.keeper.sup.vinOk = true → s.keeper.fc.safe = false → s.keeper.rescue.run = none →
    exec (.packageRestart .afterHostWork) s = .next (s.takePending.startRescue false false true) ∧
    (s.keeper.boot.stage ≠ .serving → exec (.packageRestart .beforeHostWork) s = .next s.resetBothDies.beginStart)) ∧
  (∀ (s : State) (f : StartFindings), s.keeper.sup.vinOk = true → s.keeper.sup.vccqOk = true → s.keeper.sup.vddqOk = true → s.keeper.sup.vdd2hOk = true →
    s.keeper.sup.regulatorFault = false → s.keeper.fc.safe = false → (s.com 0).inReset = true → s.keeper.boot.stage ≠ .heldInReset →
    s.keeper.rescue.run = none → (s.com 0).outOfService = false →
    let t := ((s.updBoot fun b => { b with
      mode := f.bootMode, slotId := f.slotId, lock := false, byKeeper := false, stage := .bootWindow, protRepaired := false }).updCommon 0
      fun c => { c with inReset := false }).updStore fun x => { x with hashPort := true }
    let u := if f.bootMode = 2 ∧ t.keeper.boot.factoryFuse = false then t.raise 376 else t
    (f.locks = false → exec (.d0Release f) s = .next u) ∧
    (f.locks = true → (u.protectionCheck f).2 = false → exec (.d0Release f) s = .next (u.protectionCheck f).1) ∧
    (f.locks = true → (u.protectionCheck f).2 = true → f.bootMode ≠ 1 → f.bootMode ≠ 3 →
      let c := ((u.protectionCheck f).1.stage .slotCheck).chooseSlot
      (c.2 = none → exec (.d0Release f) s = .next (c.1.enterRecovery false)) ∧
      (∀ i : FwImage, c.2 = some i → exec (.d0Release f) s = .next (c.1.mainFirmware f i)))) ∧
  (∀ s : State, s.windowOpen = true →
    let t := (((s.updBoot fun b => { b with lock := true, byKeeper := true, windowTimeouts := b.windowTimeouts + 1 }).raise 375).noteBootFail 2 0).resetDie 0
    (s.keeper.boot.windowTimeouts = 0 → exec .bootWindowTimeout s = .next ((t.stage .inReset).updBoot fun b => { b with starts := satAdd 255 b.starts 1 }).resumeAtStart) ∧
    (1 ≤ s.keeper.boot.windowTimeouts → exec .bootWindowTimeout s = .next (t.stage .heldInReset)))

/-- R427 to R432: command sequences. -/
def Obligations.StoreSequencesAct : Prop :=
  (∀ (s : State) (req : Requester), s.storeFree →
    (∀ (a : Nat) (w v : Word), a % 8 = 0 → a < arrayBytes →
      let bytes := wordBytes w ++ wordBytes v
      let run := exec (.program64BitWord req [(a, w), (a + 4, v)]) s
      (∀ r, s.storeRefusal req [sectorOf a] true = some r → run = .next (s.refuseStore 0x10 r [sectorOf a] req)) ∧
      (s.storeRefusal req [sectorOf a] true = none →
        (bitRise s.store.array a bytes = true → run = .next (s.refuseStore 0x10 .bitRise [sectorOf a] req)) ∧
        (bitRise s.store.array a bytes = false → run = .next (s.updStore fun x =>
          { (x.setCmd 0x10 .running (sectorOf a) req x.cmdCount) with prog := some { requester := req, offset := a, bytes := bytes } })))) ∧
    (∀ (a : Nat) (ws : List (Nat × Word)), a % 256 = 0 → a < arrayBytes → ws.length = 64 → (ws.headD (0, 0)).1 = a → ascending ws = true →
      let bytes := ws.flatMap fun w => wordBytes w.2
      let run := exec (.program256ByteLine req ws) s
      (∀ r, s.storeRefusal req [sectorOf a] true = some r → run = .next (s.refuseStore 0x20 r [sectorOf a] req)) ∧
      (s.storeRefusal req [sectorOf a] true = none →
        (bitRise s.store.array a bytes = true → run = .next (s.refuseStore 0x20 .bitRise [sectorOf a] req)) ∧
        (bitRise s.store.array a bytes = false → run = .next (s.updStore fun x =>
          { (x.setCmd 0x20 .running (sectorOf a) req x.cmdCount) with prog := some { requester := req, offset := a, bytes := bytes } })))) ∧
    (∀ (a : Nat) (offs : List Nat), offs.length < 8 → (∀ b ∈ a :: offs, b < arrayBytes) → ((a :: offs).map sectorOf).Nodup →
      (∀ b ∈ offs, sectorBank (sectorOf b) = sectorBank (sectorOf a)) →
      let t := s.updStore fun x => { x with seq := some { owner := req, step := .operands 0x30 ((a :: offs).map fun b => (b, 0x30)) } }
      let ns := (a :: offs).map sectorOf
      exec (.eraseSector req (a :: offs)) s = .next t ∧
      (∀ r, s.storeRefusal req ns false = some r → exec .storeEraseStart t = .next (s.refuseStore 0x30 r ns req)) ∧
      (s.storeRefusal req ns false = none → exec .storeEraseStart t = .next (s.updStore fun x =>
        { (x.setCmd 0x30 .running (sectorOf a) req ns.length) with
          rows := ns.foldl (fun rows n => setRow rows { rowOf rows n with intent := true }) x.rows
          erase := some { requester := req, sectors := ns, susp := .running, runTime := 0, fromIntent := false } }))) ∧
    (∀ (m : Word),
      (m.toNat ≤ 2 → exec (.marginMode req m) s = .next (s.updStore fun x => { (x.setCmd 0x40 .completed x.cmdSector req x.cmdCount) with margin := m.toNat })) ∧
      (2 < m.toNat → exec (.marginMode req m) s = .next (s.updStore fun x => x.setCmd 0x40 .badOperand 0 req x.cmdCount))) ∧
    (∀ a, a < arrayBytes → exec (.readEraseCounter req a) s = .next (s.updStore fun x =>
      { (x.setCmd 0x50 .completed (sectorOf a) req x.cmdCount) with result := BitVec.ofNat 32 (min 0xFFFFFFFF (rowOf x.rows (sectorOf a)).counter) })) ∧
    exec (.returnToRead req) s = .next (s.updStore fun x => { (x.setCmd 0xF0 .completed x.cmdSector req x.cmdCount) with margin := 0 })) ∧
  (∀ (s : State) (req : Requester) (us : Nat), s.storeFree →
    (∀ e, s.store.erase = some e → s.store.prog = none → e.susp = .running →
      (50 ≤ max e.runTime us → exec (.eraseSuspend req us) s = .next (s.updStore fun x =>
        { (x.setCmd 0x31 .completed (e.sectors.headD 0) req x.cmdCount) with erase := some { e with susp := .explicit, runTime := max e.runTime us } })) ∧
      (max e.runTime us < 50 → exec (.eraseSuspend req us) s = .next ((s.updStore fun x =>
        { (x.setCmd 0x31 .suspendDenied x.cmdSector req x.cmdCount) with erase := some { e with runTime := max e.runTime us } }).raise 500))) ∧
    (s.store.erase = none → exec (.eraseSuspend req us) s =
      .next ((s.updStore fun x => x.setCmd 0x31 .suspendDenied x.cmdSector req x.cmdCount).raise 500)) ∧
    (∀ e, s.store.erase = some e → s.store.prog.isSome = true → e.susp ≠ .autoSuspended → exec (.eraseSuspend req us) s = .next ((s.updStore fun x =>
      { (x.setCmd 0x31 .suspendDenied x.cmdSector req x.cmdCount) with erase := some { e with runTime := max e.runTime us } }).raise 500)) ∧
    (∀ e, s.store.erase = some e → e.susp = .autoSuspended → exec (.eraseSuspend req us) s = .next (s.updStore fun x =>
      { (x.setCmd 0x31 .completed (e.sectors.headD 0) req x.cmdCount) with erase := some { e with susp := .explicit, runTime := max e.runTime us } })) ∧
    (s.store.erase = none → exec (.eraseResume req) s = .next (s.updStore fun x => x.setCmd 0x32 .completed x.cmdSector req x.cmdCount)) ∧
    (∀ e, s.store.erase = some e → e.susp ≠ .running → exec (.eraseResume req) s = .next (s.updStore fun x =>
      { (x.setCmd 0x32 .completed x.cmdSector req x.cmdCount) with
        erase := some { e with susp := if x.prog.isSome then .autoSuspended else .running, runTime := 0 } }))) ∧
  (∀ (s : State) (o : OpenSeq), s.store.seq = some o → s.store.waiting = [] →
    exec .storeSequenceTimeout s = .next (s.updStore Store.abandon) ∧ s.store.abandon.seq = none ∧ s.store.abandon.cmdResult = .abandoned ∧
    s.store.abandon.array = s.store.array ∧ s.store.abandon.prog = s.store.prog)

/-- R429 to R433, R435, R437, R438, R440: how programs and erases end, and array reads. -/
def Obligations.StoreRunsAndReadsAct : Prop :=
  (∀ (s : State) (p : StoreProgram), s.store.prog = some p →
    let n := sectorOf p.offset
    exec (.storeProgramComplete true) s = .next (s.updStore fun x =>
      { (x.setCmd x.cmdCode .completed n p.requester x.cmdCount) with
        array := programBytes x.array p.offset p.bytes, prog := none, readWaits := x.readWaits.set (sectorBank n) 0 }) ∧
    ∃ t, exec (.storeProgramComplete false) s = .next t ∧ t.store.cmdResult = .programFail ∧ t.store.prog = none ∧
      t.store.array = programBytes s.store.array p.offset (failedBytes s.free p.bytes) ∧ t.store.faultCount = satAdd 0xFFFF s.store.faultCount 1 ∧
      (s.store.faultCause = 0 → t.store.faultCause = 1 ∧ t.store.faultSector = n)) ∧
  (∀ (s : State) (e : StoreErase), s.store.erase = some e →
    (e.susp = .running → s.store.intentPending = [] →
      exec (.storeEraseComplete 0) s = .next ((e.sectors.foldl State.sectorErased s).updStore fun x =>
        { (x.setCmd 0x30 .completed (e.sectors.headD 0) e.requester e.sectors.length) with erase := none })) ∧
    (∃ t : State, exec .storeEraseTimeout s = .next t.nextIntents ∧ t.store.cmdResult = .eraseFail ∧ t.store.erase = none ∧ t.store.array = s.store.array ∧
      t.store.rows = e.sectors.foldl (fun rows m => setRow rows { rowOf rows m with bad := true }) s.store.rows ∧
      t.store.intentPending = s.store.intentPending.filter fun m => !e.sectors.contains m)) ∧
  (∀ s : State, (s.store.intentPending = [] → s.nextIntents = s) ∧ (∀ n rest, s.store.intentPending = n :: rest →
    let next := ((n :: rest).filter fun m => sectorBank m == sectorBank n).take 8
    s.nextIntents = s.updStore fun x => { x with
      erase := some { requester := .keeper, sectors := next, susp := .running, runTime := 0, fromIntent := true } })) ∧
  (∀ (s : State) (n : Nat),
    (s.sectorErased n).store.array = memEraseSector s.store.array n ∧
    (s.sectorErased n).store.rows =
      setRow s.store.rows { rowOf s.store.rows n with counter := satAdd 0xFFFFFFFF (rowOf s.store.rows n).counter 1, intent := false }) ∧
  (∀ (s : State) (a : Nat) (core : Option DieIx), s.storeUp = true → a < arrayBytes →
    (∀ kind differs, bankBusy s.store (sectorBank (sectorOf a)) = true →
      exec (.storeArrayRead kind a core differs) s =
        .next (s.updStore fun x => { x with readWaits := x.readWaits.set (sectorBank (sectorOf a)) (x.readWaits[sectorBank (sectorOf a)] + 1) })) ∧
    (bankBusy s.store (sectorBank (sectorOf a)) = false →
      let word (z : Bool) : State := s.afterRead a (if z then 0 else s.readWord a)
      (∀ differs, exec (.storeArrayRead .fetch a core differs) s = .next (word (underErase s.store (sectorOf a)))) ∧
      (s.xoOver (sectorOf a) = none → s.store.margin = 0 →
        exec (.storeArrayRead .data a core false) s = .next (word (underErase s.store (sectorOf a))) ∧
        ∀ differs, exec (.storeArrayRead .hashing a core differs) s = .next (word (!s.store.hashPort || underErase s.store (sectorOf a)))) ∧
      (∀ x differs, s.xoOver (sectorOf a) = some x →
        (∃ t, exec (.storeArrayRead .data a none differs) s = .next t ∧ t = (s.updStore fun y => { y with lastRead := 0 }).raise2 501 (BitVec.ofNat 32 (sectorOf a)) 0) ∧
        exec (.storeArrayRead .hashing a core differs) s = .next (word (!(s.store.hashPort && x.hashPort) || underErase s.store (sectorOf a)))))) ∧
  (∀ (s : State) (a : Nat), (sectorOf a = 448 ∧ s.opt.staging.next = 0 ∧ s.opt.staging.image = none) ∨ 781 ≤ sectorOf a ∧ sectorOf a ≤ 1023 ∨ 1921 ≤ sectorOf a ∧ sectorOf a ≤ 2031 →
    s.arrayByte a = some (memRead s.store.array a)) ∧
  (∀ (s : State) (i : Nat) (r : EventRecord) (o : Nat), i < 1048576 → o < 32 → s.keeper.ev.log.find? (fun p => p.1 == i) = some (i, r) →
    s.arrayByte (0x5810000 + 32 * i + o) = some (fieldByte (recordFields r) o)) ∧
  (∀ (s : State) (o : Nat), o < 0x10000 → s.arrayByte (0x1D00000 + o) = some (protByte s.store.protCopies[0] o) ∧
    s.arrayByte (0x5800000 + o) = some (protByte s.store.protCopies[1] o)) ∧
  (∀ (s : State) (a : Nat) (w : Word), s.store.margin = 0 → s.arrayWord a = some w → s.readWord a = w ∧ s.afterRead a w = s.updStore fun x => { x with lastRead := w }) ∧
  (∀ (x : Store) (b : Fin 2),
    (∀ p, x.prog = some p → sectorBank (sectorOf p.offset) = b → bankBusy x b = true) ∧
    (∀ e, x.erase = some e → e.susp = .running → sectorBank (e.sectors.headD 0) = b → bankBusy x b = true)) ∧
  (∀ (s : State) (e : StoreErase), s.store.erase = some e →
    let b := sectorBank (e.sectors.headD 0)
    (e.susp = .running → s.store.readWaits[b] ≠ 0 → exec .storeEraseAutoSuspend s = .next (s.updStore fun x =>
      { x with erase := some { e with susp := .autoSuspended, runTime := max e.runTime 50 }, readWaits := x.readWaits.set b 0 })) ∧
    (s.keeper.rescue.run = none → e.susp = .autoSuspended → s.store.prog = none → s.store.readWaits[b] = 0 → exec .storeEraseAutoResume s = .next (s.updStore fun x =>
      { x with erase := some { e with susp := .running, runTime := 0 } })))

/-- R386, R444 to R452: firmware commands. -/
def Obligations.FirmwareCommandsAct : Prop :=
  (∀ (s : State) (ref : CmdRef) (len : Nat) (last : Bool) (img : FwImage), s.admits .fwDownload ref →
    let t := s.targetSlot
    (len ≠ 0 → len % 4096 = 0 ∨ last = true → exec (.firmwareImageDownload ref 0 len last img) s =
      .next (((((s.countErases (slotSector t) 384).noteSlot t fun _ => { emptySlot with state := .downloading, image := some img }).updFw fun x =>
        { x with pendingSlot := if x.pendingSlot = some t then none else x.pendingSlot, download := some (ref.ctrl.val, len) })).complete ref stOk 0)) ∧
    (∀ (off c next : Nat), off ≠ 0 → s.fw.download = some (c, next) →
      (c ≠ ref.ctrl.val → exec (.firmwareImageDownload ref off len last img) s = .next (s.complete ref stSequenceError 0)) ∧
      (c = ref.ctrl.val → off = next → len ≠ 0 → len % 4096 = 0 ∨ last = true → exec (.firmwareImageDownload ref off len last img) s =
        .next (((s.updSlot t fun x => { x with image := some img }).updFw fun x => { x with download := some (c, next + len) }).complete ref stOk 0)) ∧
      (c = ref.ctrl.val → off ≠ next → exec (.firmwareImageDownload ref off len last img) s =
        .next (((s.noteSlot t fun _ => emptySlot).updFw fun x => { x with download := none }).complete ref stInvalidField 0)))) ∧
  (∀ (s : State) (ref : CmdRef) (n : Nat), s.admits .fwCommit ref →
    exec (.firmwareCommitReplace ref n) s = .next ((s.replace ref n).1.complete ref (s.replace ref n).2 0) ∧
    ((s.replace ref n).2 = stOk → exec (.firmwareCommitReplaceActivate ref n) s =
      .next ((((s.replace ref n).1.updFw fun x => { x with pendingSlot := s.commitSlot n }).keeperLine 2).complete ref stFwPending 0)) ∧
    ((s.replace ref n).2 ≠ stOk → exec (.firmwareCommitReplaceActivate ref n) s = .next ((s.replace ref n).1.complete ref (s.replace ref n).2 0)) ∧
    exec (.firmwareCommitBootPartition ref) s = .next (s.complete ref stInvalidField 0)) ∧
  (∀ (s : State) (ref : CmdRef) (n : Nat) (k : Fin 2) (i : FwImage) (c bytes : Nat), s.commitSlot n = some k → s.inRecovery = false →
    (s.fw.running = some k → s.replace ref n = (s, stInvalidSlot)) ∧
    (s.fw.running ≠ some k → s.fw.slots[k].image = some i → s.fw.download = some (c, bytes) →
      (i.deferred = true ∨ s.headerCheck i bytes = true → s.replace ref n = (s.acceptCommit ref k i, stOk)) ∧
      (i.deferred = false → s.headerCheck i bytes = false →
        s.replace ref n = ((s.noteSlot k fun _ => emptySlot).updFw fun x => { x with download := none }, stInvalidImage)))) ∧
  (∀ (s : State) (ref : CmdRef) (n : Nat) (k : Fin 2), s.admits .fwCommit ref → s.commitSlot n = some k →
    (s.fw.running = some k → exec (.firmwareCommitActivateAtReset ref n) s =
      .next ((((s.updFw fun x => { x with pendingSlot := none }).keeperLine 2).raiseAt ref.ctrl 471 0 0).complete ref stOk 0)) ∧
    (s.fw.running ≠ some k → activatable s.fw.slots[k].state = true → exec (.firmwareCommitActivateAtReset ref n) s =
      .next ((((s.updFw fun x => { x with pendingSlot := some k }).keeperLine 2).raiseAt ref.ctrl 471 0 0).complete ref stFwPending 0)) ∧
    (s.fw.running ≠ some k → activatable s.fw.slots[k].state = false → exec (.firmwareCommitActivateAtReset ref n) s =
      .next (s.complete ref stInvalidImage 0)) ∧
    (∀ i, s.inRecovery = false → s.sanitizing = false → s.preparing = false → s.diapauseReady = false → s.fw.running ≠ some k →
        activatable s.fw.slots[k].state = true → s.fw.slots[k].image = some i →
      (i.deferred = true ∨ s.headerCheck i (i.bodyLen + 4096) = true →
        (s.liveActivatable i = true → exec (.firmwareCommitActivateNow ref n) s =
          .next ((((s.raiseAt ref.ctrl 471 0 0).updFw fun x => { x with activating := some k }).hostPauseFetch).complete ref stOk 0)) ∧
        (s.liveActivatable i = false → exec (.firmwareCommitActivateNow ref n) s =
          .next ((((s.raiseAt ref.ctrl 471 0 0).updFw fun x => { x with pendingSlot := some k }).keeperLine 2).complete ref stFwPending 0))) ∧
      (i.deferred = false → s.headerCheck i (i.bodyLen + 4096) = false → exec (.firmwareCommitActivateNow ref n) s =
        .next ((s.noteSlot k fun _ => emptySlot).complete ref stInvalidImage 0)))) ∧
  (∀ (s : State) (k : Fin 2), s.fw.activating = some k → s.opt.barrier = none →
    ((List.finRange 24).any fun l => s.lanes[l].ctxs.any (·.isSome)) = false →
    let t := (((s.raise 472).updFw fun x => { x with active := k, pendingSlot := none, running := some k, activating := none }).keeperLine 2).updBoot fun b =>
      { b with active := BitVec.ofNat 2 (k.val + 1) }
    exec (.firmwareActivation true (Vector.replicate 4 true)) s = .next (t.reloadPatches.hostResumeFetch.raise 473).slotServes)

/-- R458, R462 to R464, R470, R471, R473, R476, R479: collector and recorder. -/
def Obligations.CollectorAndRecorderAct : Prop :=
  (∀ (s : State) (i : Nat) (t : EventToken) (cls : EventClass), s.keeper.fc.tokens[i]? = some t → classOf t.source = some cls →
    let u := s.updFc fun f => { f with tokens := f.tokens.eraseIdx i }
    let r := s.recordOf t cls
    let v := u.updFc fun f => { f with pend := f.pend ||| BitVec.ofNat 512 (2 ^ t.source) }
    (isSerious cls = false ∨ t.cause.isSome = true → exec (.eventToken i) s = .next (u.recordEvent r)) ∧
    (isSerious cls = true → t.cause = none →
      (s.keeper.fc.latch = none → exec (.eventToken i) s = .next
        ((v.updFc fun f => { f with latch := some { r with first := true }, irq := f.irq.set 0 }).recordEvent { r with first := true })) ∧
      (∀ l, s.keeper.fc.latch = some l →
        let w := v.updFc fun f => { f with overflow := true, overflowRaised := true, irq := f.irq.set 1, second := some (f.second.getD t.source) }
        exec (.eventToken i) s = .next ((if s.keeper.fc.overflowRaised then w else w.raise 379).recordEvent { r with first := false })))) ∧
  (∀ s : State,
    exec .kprEvCtrlFlush s = .next s.startFlush ∧
    (s.keeper.ev.flushing = false → s.keeper.ev.full = false → s.keeper.ev.buf ≠ [] →
      s.startFlush = s.updEv fun e => { e with flushing := true, buf := e.buf.map fun b => { b with flushing := true } }) ∧
    (s.keeper.ev.flushing = true →
      let w := writeSlots s.keeper.ev.log s.keeper.ev.next ((s.keeper.ev.buf.filter (·.flushing)).map (·.record))
      let rest := s.keeper.ev.buf.filter (!·.flushing)
      let t := s.updEv fun e => { e with buf := rest, log := w.1, next := w.2, flushing := false, again := false, irq := e.irq.set 1 }
      (w.2 < logLast → exec .eventFlushComplete s = .next (if s.keeper.ev.again || decide (48 ≤ rest.length) then t.startFlush else t)) ∧
      (logLast ≤ w.2 → ∃ u, exec .eventFlushComplete s = .next u ∧ u.keeper.ev.full = true ∧ u.keeper.ev.buf = [] ∧
        ∃ r, u.keeper.ev.log = w.1 ++ [(logLast, r)] ∧ r.source = 380)) ∧
    exec .kprFcFirstClear s = .next (s.updFc fun f => { f with latch := none, overflow := false, second := none, overflowRaised := false }) ∧
    (∀ (k : Fin 16) (mask : Word), ∃ t, exec (.kprFcPendClear k mask) s = .next t ∧
      t = s.updFc (fun f => { f with pend := t.keeper.fc.pend }) ∧
      ∀ i : Nat, i < 512 → t.keeper.fc.pend.getLsbD i = (s.keeper.fc.pend.getLsbD i && !(decide (i / 32 = k.val) && mask.getLsbD (i % 32))))) ∧
  (∀ (s : State) (src : BitVec 9),
    (s.factoryMode = false → exec (.kprFcInjectGo src) s = .next (s.raise 376)) ∧
    (s.factoryMode = true → (classOf src.toNat).isSome = true →
      let t := s.updFc fun f => { f with injectSource := src }
      let d0 := t.keeper.fc.injectData
      exec (.kprFcInjectGo src) s =
        .next (((t.setIrq src.toNat).sendToken (blockOf src.toNat) src.toNat d0 0 true).injectedReaction src.toNat d0))) ∧
  (∀ s : State, exec (.collectorParityScan true) s = .next s ∧
    (s.keeper.sup.vkeep = true → ∃ t : State, exec (.collectorParityScan false) s = .next t.enterSafe ∧
      t.keeper.fc.pend = BitVec.ofNat 512 (2 ^ 373) ||| BitVec.ofNat 512 (2 ^ 378) ∧ (∃ l, t.keeper.fc.latch = some l ∧ l.source = 373 ∧ l.first = true) ∧
      t.keeper.fc.overflow = false ∧ t.keeper.fc.second = none))

/-- R461, R465 to R468: watchdogs, temperatures, the end of a shadow. -/
def Obligations.WatchdogsAndTemperaturesAct : Prop :=
  (∀ (s : State) (g : RegionIx), (s.com (dieOfRegion g)).inService = true →
    let d := dieOfRegion g
    let t := s.raise2 (dieSrc d 24) (BitVec.ofNat 32 g.val) 0
    (s.shaded (.die d) = true → exec (.regionCoreWatchdog g) s = .next t) ∧
    (s.shaded (.die d) = false →
      let u := (t.updCommon d fun c => { c with regionDog := c.regionDog.set (g.val % 2) (some t.keeper.tk.opsec.toNat) (by omega) }).openShadow d (dieSrc d 24)
        (.regionDependents g) (.die d)
      exec (.regionCoreWatchdog g) s = .next (if withinHour t.keeper.tk.opsec ((t.com d).regionDog[g.val % 2]'(by omega)) then u.regionOut g else u))) ∧
  (∀ (s : State) (d : DieIx), (s.com d).inService = true →
    let t := s.raise (dieSrc d 25)
    let u := t.updCommon d fun c => { c with coreDog := some t.keeper.tk.opsec.toNat }
    let again := withinHour t.keeper.tk.opsec (t.com d).coreDog
    (s.shaded (.die d) = true → exec (.dieCoreWatchdog d) s = .next t) ∧
    (s.shaded (.die d) = false →
      (d = 0 →
        let v := u.openShadow 0 321 .bothDies (.die 0)
        exec (.dieCoreWatchdog d) s = .next (if again then v.enterSafe else if (v.com 0).shadows.any fun x => x.source == 321 then v.hostPauseFetch else v)) ∧
      (d = 1 →
        let v := u.openShadow 1 353 (.dieAndBridge 1) (.die 1)
        exec (.dieCoreWatchdog d) s = .next (if again then v.takeOut 1 353 else v)))) ∧
  (∀ (s : State) (d : DieIx) (i : Nat) (sh : Shadow), (s.com d).shadows[i]? = some sh →
    let t := s.updCommon d fun c => { c with shadows := c.shadows.eraseIdx i }
    let u := ((if sh.source = 321 then t.hostResumeFetch else t).reevaluate sh 0).reevaluate sh 1
    exec (.shadowClose (some d) i []) s = .next u ∧
    ∀ p, scopeCovers sh.scope (blockOf p.source) = true → exec (.shadowClose (some d) i [p]) s = .next (u.raise2 p.source p.data0 p.data1)) ∧
  (∀ (s : State) (d : DieIx) (x : Int),
    let t := s.updCommon d fun c => { c with temp := x, tempMax := max c.tempMax x }
    (x > gradeMax ∨ x < gradeMin → (t.com d).warned = false →
      exec (.dieTemperatureWarning d x) s = .next ((t.updCommon d fun c => { c with warned := true }).raise (dieSrc d 18))) ∧
    ((x ≤ gradeMax ∧ gradeMin ≤ x) ∨ (t.com d).warned = true → exec (.dieTemperatureWarning d x) s = .next t) ∧
    (x > gradeMax + 10 → (t.com d).critical = false →
      let u := (t.updCommon d fun c => { c with critical := true }).raise (dieSrc d 19)
      exec (.dieTemperatureCritical d x) s = .next (if u.shaded (.die d) then u else u.updSup fun y => { y with capHeld := true })) ∧
    (x ≤ gradeMax + 10 ∨ (t.com d).critical = true → exec (.dieTemperatureCritical d x) s = .next t) ∧
    (∃ u, exec (.dieTemperatureBackInRange d x) s = .next u ∧ (u.com d).temp = x ∧
      (x ≤ gradeMax → (u.com d).critical = false ∧ ((s.com ⟨1 - d.val, by omega⟩).critical = false → u.keeper.sup.capHeld = false)) ∧
      (x ≤ gradeMax - 5 → gradeMin + 5 ≤ x → (u.com d).warned = false)))

/-- R488, R489, R495: packets and control messages of the management port. -/
def Obligations.MctpMessagesAct : Prop :=
  ∀ (s : State) (tag : Half), s.keeper.mp.inService = true →
    let took (e : Byte) : State := (s.updMp fun m => { m with eid := e, eidValid := true }).miAnswer tag 0 [fld 0 1 0, fld 1 1 e.toNat, fld 2 1 0]
    let refused : Out := .next (s.miAnswer tag 2 [])
    exec (.mctpPacket true) s = .next s ∧
    exec (.mctpPacket false) s = .next (s.updMp fun m => { m with pecDiscards := m.pecDiscards + 1, irq := m.irq.set 1 }) ∧
    (∀ e : Byte,
      (8 ≤ e.toNat → e.toNat ≤ 254 → exec (.setEndpointId tag .set e) s = .next (took e) ∧ exec (.setEndpointId tag .force e) s = .next (took e)) ∧
      (e.toNat < 8 ∨ 254 < e.toNat → exec (.setEndpointId tag .set e) s = refused ∧ exec (.setEndpointId tag .force e) s = refused) ∧
      (s.mpEid ≠ 0 → exec (.setEndpointId tag .reset e) s = .next (took s.mpEid)) ∧ (s.mpEid = 0 → exec (.setEndpointId tag .reset e) s = refused) ∧
      exec (.setEndpointId tag .discovered e) s = refused) ∧
    (s.keeper.mp.eidValid = true → s.mpEid = 0 → exec (.getEndpointId tag) s =
      .next (s.miAnswer tag 0 [fld 0 1 s.keeper.mp.eid.toNat, fld 1 1 0, fld 2 1 0])) ∧
    (s.keeper.mp.eidValid = true → s.mpEid ≠ 0 → exec (.getEndpointId tag) s =
      .next (s.miAnswer tag 0 [fld 0 1 s.keeper.mp.eid.toNat, fld 1 1 (if s.keeper.mp.eid = s.mpEid then 2 else 3), fld 2 1 0])) ∧
    (s.keeper.mp.eidValid = false → ∃ k, exec (.getEndpointId tag) s = .next (s.miAnswer tag 0 [fld 0 1 0, fld 1 1 k, fld 2 1 0])) ∧
    exec (.getEndpointUuid tag) s = .next (s.miAnswer tag 0 [fld 0 16 Config.endpointUuid.toNat]) ∧
    (∀ m : Byte,
      (m = 0xFF ∨ m = 0x00 ∨ m = 0x04 → exec (.getMctpVersionSupport tag m) s =
        .next (s.miAnswer tag 0 [fld 0 1 1, fld 1 4 (Config.mctpVersion m.toNat).toNat])) ∧
      (m ≠ 0xFF → m ≠ 0x00 → m ≠ 0x04 → exec (.getMctpVersionSupport tag m) s = .next (s.miAnswer tag 0x80 []))) ∧
    exec (.getMessageTypeSupport tag) s = .next (s.miAnswer tag 0 [fld 0 1 1, fld 1 1 0x04]) ∧
    (∀ code data, (s.miAnswer tag code data) = s.updMp fun m => { m with out := m.out ++ [{ tag := tag, code := code, data := data }] })

/-- R11, R12, R489 to R491: NVMe-MI commands, the tunnel, register writes. -/
def Obligations.NvmeMiCommandsAct : Prop :=
  (∀ (s : State) (tag : Half), s.keeper.mp.inService = true →
    let say (code : Nat) (d : List DataField) : State := s.miAnswer tag code d
    (∀ port ctrl,
      exec (.readNvmeMiDataStructure tag 0 port ctrl) s = .next (say 0 [fld 0 1 2, fld 1 1 1, fld 2 1 2]) ∧
      (port < 2 → exec (.readNvmeMiDataStructure tag 1 port ctrl) s = .next (say 0 [fld 0 1 1, fld 2 2 64, fld 4 4 0])) ∧
      (port = 2 → exec (.readNvmeMiDataStructure tag 1 port ctrl) s =
        .next (say 0 [fld 0 1 2, fld 2 2 64, fld 4 4 0, fld 10 1 (s.keeper.mp.addr.toNat * 2), fld 11 1 3, fld 12 1 1])) ∧
      (2 < port → exec (.readNvmeMiDataStructure tag 1 port ctrl) s = .next (say 4 [])) ∧
      (let ids := s.liveControllers.filter fun c => decide (ctrl ≤ c)
       exec (.readNvmeMiDataStructure tag 2 port ctrl) s = .next (say 0 (fld 0 2 ids.length :: idList 2 2 ids))) ∧
      (ctrl ∈ s.liveControllers → exec (.readNvmeMiDataStructure tag 3 port ctrl) s =
        .next (say 0 [fld 0 1 (ctrl - 1), fld 8 2 0x1E9C, fld 10 2 0x0512, fld 12 2 s.subsystemIds.1, fld 14 2 s.subsystemIds.2])) ∧
      (ctrl ∉ s.liveControllers → exec (.readNvmeMiDataStructure tag 3 port ctrl) s = .next (say 4 [])) ∧
      exec (.readNvmeMiDataStructure tag 4 port ctrl) s = .next (say 0 [fld 0 2 0])) ∧
    (∃ n v w : Nat, exec (.nvmSubsystemHealthStatusPoll tag) s = .next (({ s with free := s.free + 1 } : State).miAnswer tag 0
      [fld 0 1 n, fld 1 1 v, fld 2 1 s.miComposite, fld 3 1 (100 - s.availableSpare), fld 4 2 w]) ∧ v = 255 - s.miWarning.toNat) ∧
    (∀ start max all, ∃ n d, exec (.controllerHealthStatusPoll tag start max all) s =
      .next (({ s with free := s.free + 3 } : State).miAnswer tag 0 (fld 0 1 n :: d)) ∧ n ≤ max + 1 ∧ (all = true → n = min (max + 1)
        (s.liveControllers.filter fun c => decide (start ≤ c)).length)) ∧
    (∀ id port,
      exec (.configurationGet tag 2 port) s = .next (say 0 []) ∧
      (port ≠ 2 → id ≠ 2 → exec (.configurationGet tag id port) s = .next (say 4 [])) ∧
      exec (.configurationGet tag 1 2) s = .next (say 0 [fld 0 1 (s.keeper.mp.speed.toNat + 1)]) ∧
      exec (.configurationGet tag 3 2) s = .next (say 0 [fld 0 2 64]) ∧
      ∀ v, (id = 2 → exec (.configurationSet tag id port v) s = .next (say 0 [])) ∧
        (id ≠ 2 → port ≠ 2 → exec (.configurationSet tag id port v) s = .next (say 4 [])) ∧
        (1 ≤ v → v ≤ 3 → exec (.configurationSet tag 1 2 v) s =
          .next ((s.updMp fun m => { m with speed := BitVec.ofNat 2 (v - 1) }).miAnswer tag 0 [])) ∧
        (v = 0 ∨ 3 < v → exec (.configurationSet tag 1 2 v) s = .next (say 4 [])) ∧
        exec (.configurationSet tag 3 2 v) s = .next (say (if v = 64 then 0 else 4) [])) ∧
    (∃ flags, exec (.basicManagementCommand tag 0) s =
      .next (say 0 [fld 0 1 6, fld 1 1 flags, fld 2 1 (255 - s.miWarning.toNat), fld 3 1 s.miComposite, fld 4 1 (100 - s.availableSpare), fld 5 2 0])) ∧
    exec (.basicManagementCommand tag 8) s = .next (say 0 ([fld 0 1 22, fld 1 1 0x1E, fld 2 1 0x9C] ++
      (List.range 16).map fun i => fld (3 + i) 1 (factoryArea (8 + i)).toNat)) ∧
    exec (.miUnsupportedCommand tag) s = .next (say 3 [])) ∧
  (∀ (s : State) (c : Nat) (cid : Half), s.keeper.mp.inService = true →
    let ref : CmdRef := { ctrl := ⟨(c - 1) % 2, by omega⟩, qid := 0, cid := cid, viaMi := true }
    (∀ cmd, s.keeperOnly = true → exec (.adminCommandTunnel c cid cmd) s = .next (s.complete ref (stMi 3) 0)) ∧
    (∀ cmd, s.keeperOnly = false → c = 0 ∨ 2 < c → exec (.adminCommandTunnel c cid cmd) s = .next (s.complete ref (stMi 4) 0)) ∧
    (s.keeperOnly = false → 1 ≤ c → c ≤ 2 → (s.com (refDie ref)).outOfService = false → s.inRecovery = false →
      (∀ cns nsid cntid, exec (.adminCommandTunnel c cid (.identify cns nsid cntid)) s = execIdentify ref cns nsid cntid s) ∧
      (∀ lid nsid lsi lpo len rae, exec (.adminCommandTunnel c cid (.getLogPage lid nsid lsi lpo len rae)) s = execGetLogPage ref lid nsid lsi lpo len rae s) ∧
      (∀ fid dw, exec (.adminCommandTunnel c cid (.getFeatures fid dw)) s = execGetFeatures ref fid dw s) ∧
      (∀ off len last img, exec (.adminCommandTunnel c cid (.download off len last img)) s = exec (.firmwareImageDownload ref off len last img) s) ∧
      (∀ n, exec (.adminCommandTunnel c cid (.commit n .replace)) s = exec (.firmwareCommitReplace ref n) s) ∧
      exec (.adminCommandTunnel c cid .other) s = .next (s.complete ref stInvalidOpcode 0))) ∧
  (∀ (s : State) (addr v : Word) (b : RegBlock) (o : Nat), blockAt addr.toNat = some (b, o) → b ≠ .array → s.blockLive b = true →
    exec (.registerWrite addr v) s = .next (s.writeReg b o v))

/-- The step: the front command with the queue's rest. The empty queue is log entry 49. -/
def Obligations.StepRunsTheFrontCommand : Prop :=
  (∀ (c : Instr) (s : State) (rest : List Instr), step { s with pending := c :: rest } = exec c { s with pending := rest }) ∧
  (∀ s : State, s.pending = [] →
    step s = .next (((((((s.settleShutdown 0).settleShutdown 1).settleErase).settleSanitize).settleApply).settleWarnings).settleWork).tick) ∧
  (∀ (s : State) (nbits w : Nat), Sys2Proof.decodeTableWord nbits w = none ∧ s.withFetchWord nbits w = s)

/-- No command of this block stops it. -/
def Obligations.EveryCommandAnswers : Prop :=
  (∀ (i : Instr) (s : State), ∃ t, exec i s = .next t) ∧ ∀ s : State, ∃ t, step s = .next t

/-- First in, first out: only the step takes a command, and it takes the front one. -/
def Obligations.CommandsKeepTheQueue : Prop :=
  (∀ (i : Instr) (s t : State), exec i s = .next t → t.pending = s.pending) ∧
  ∀ s t : State, step s = .next t → t.pending = s.pending.tail

/-- R422 to R424, R429, R431, R432, R437: the store die's invariant over every step. -/
def Obligations.StoreInvariantKept : Prop :=
  (∀ (i : Instr) (s t : State), s.storeKept → exec i s = .next t → t.storeKept) ∧
  ∀ s t : State, s.storeKept → step s = .next t → t.storeKept

/-- R423, R424, R427, R429, R431, R436, R437: frame of the array, and the factory area cannot be programmed or erased in the field. -/
def Obligations.ArrayChangesOnlyByProgramsAndErases : Prop :=
  (∀ (i : Instr) (s t : State) (a : Nat), exec i s = .next t → (∀ ok, i ≠ .storeProgramComplete ok) → (∀ n, i ≠ .storeEraseComplete n) →
    memRead t.store.array a = memRead s.store.array a ∨ (525 ≤ sectorOf a ∧ sectorOf a ≤ 780 ∧ memRead t.store.array a = 0xFF)) ∧
  (∀ (ok : Bool) (s t : State) (p : StoreProgram), s.store.prog = some p → exec (.storeProgramComplete ok) s = .next t → ∀ a : Nat,
    (a < p.offset ∨ p.offset + p.bytes.length ≤ a → memRead t.store.array a = memRead s.store.array a) ∧
    memRead t.store.array a &&& ~~~(memRead s.store.array a) = 0) ∧
  (∀ (n : Nat) (s t : State) (e : StoreErase), s.store.erase = some e → e.susp = .running → e.sectors ≠ [] →
    exec (.storeEraseComplete n) s = .next t → ∀ a : Nat,
      (sectorOf a ∉ e.sectors → memRead t.store.array a = memRead s.store.array a) ∧ (sectorOf a ∈ e.sectors → memRead t.store.array a = 0xFF)) ∧
  (∀ (i : Instr) (s t : State) (a : Nat), s.storeKept → 0x7F00000 ≤ a → exec i s = .next t →
    memRead t.store.array a = memRead s.store.array a ∧ t.arrayByte a = s.arrayByte a) ∧
  ∀ (s t : State) (a : Nat), s.storeKept → 0x7F00000 ≤ a → step s = .next t →
    memRead t.store.array a = memRead s.store.array a ∧ t.arrayByte a = s.arrayByte a

/-- R432. -/
def Obligations.ProgramsAreNeverSuspended : Prop :=
  (∀ (i : Instr) (s t : State) (p : StoreProgram), s.keeper.sup.vinOk = true → s.store.prog = some p → exec i s = .next t →
    t.store.prog = some p ∨ (∃ ok, i = .storeProgramComplete ok) ∨ t.store.ready = false) ∧
  (∀ (s : State) (req : Requester) (e : StoreErase) (a : Nat) (w v : Word), s.storeFree → s.store.prog = none → s.store.erase = some e → e.susp ≠ .running →
    a % 8 = 0 → a < arrayBytes → sectorOf a ∉ e.sectors → isFactory (sectorOf a) = false → isEventLog (sectorOf a) = false →
    isProtection (sectorOf a) = false → s.store.intentPending.contains (sectorOf a) = false → (rowOf s.store.rows (sectorOf a)).intent = false →
    bitRise s.store.array a (wordBytes w ++ wordBytes v) = false →
    ∃ t, exec (.program64BitWord req [(a, w), (a + 4, v)]) s = .next t ∧
      t.store.prog = some { requester := req, offset := a, bytes := wordBytes w ++ wordBytes v } ∧ t.store.erase = some e) ∧
  (∀ (i : Instr) (s t : State) (p : StoreProgram) (e : StoreErase), s.storeKept → exec i s = .next t → t.store.prog = some p → t.store.erase = some e →
    e.susp ≠ .running)

/-- R466. -/
def Obligations.ShadowsHeldAreFewEverywhere : Prop :=
  (∀ (i : Instr) (s t : State), s.shadowsKept → exec i s = .next t → t.shadowsKept) ∧
  (∀ s t : State, s.shadowsKept → step s = .next t → t.shadowsKept) ∧
  (∀ (s t : State) (i : Instr), (∀ sh, s.keeper.fc.shadow = some sh → sh.source = 378) → exec i s = .next t →
    ∀ sh, t.keeper.fc.shadow = some sh → sh.source = 378) ∧
  (∀ (s : State) (d : DieIx) (source : Nat) (scope : ShadowScope) (own : Block), s.shaded own = false →
    ((s.com d).shadows.length = 4 → s.openShadow d source scope own = s.raise (if d = 0 then 323 else 355)) ∧
    ((s.com d).shadows.length < 4 → ∃ sh, ((s.openShadow d source scope own).com d).shadows = (s.com d).shadows ++ [sh] ∧
      sh.source = source ∧ sh.scope = scope ∧ sh.own = own))

/-- R371: once LOCK is set no code can write either. -/
def Obligations.ProtectionHoldsUnderLock : Prop :=
  ∀ (i : Instr) (s t : State), s.keeper.boot.lock = true → (∀ f, i ≠ .d0Release f) → exec i s = .next t →
    t.keeper.prot = s.keeper.prot ∧ t.store.protCopies = s.store.protCopies

/-- R477: the safe state lasts until VIN is removed. -/
def Obligations.SafeStateLastsUntilVinGoes : Prop :=
  ∀ (i : Instr) (s t : State), s.keeper.fc.safe = true → exec i s = .next t → t.keeper.fc.safe = true ∨ t.keeper.sup.vinOk = false

/-- R454. -/
def Obligations.ReservedSourcesAreNeverRaised : Prop :=
  (∀ (src : Nat), (isSerious <$> classOf src) ≠ none ∨ classOf src = none) ∧
  (∀ (s : State) (b : Block) (src : Nat) (x y : Word), classOf src = none → s.raiseFrom b src x y = s) ∧
  (∀ (s : State) (i : Nat) (t : EventToken), s.keeper.fc.tokens[i]? = some t → classOf t.source = none →
    exec (.eventToken i) s = .next (s.updFc fun f => { f with tokens := f.tokens.eraseIdx i })) ∧
  (∀ (s : State) (src : BitVec 9), s.factoryMode = true → classOf src.toNat = none →
    exec (.kprFcInjectGo src) s = .next (s.updFc fun f => { f with injectSource := src }))

/-- R63, R458 to R460: what raising an event does. -/
def Obligations.EventsReportAndNothingElse : Prop :=
  (∀ (s : State) (b : Block) (src : Nat) (x y : Word), (classOf src).isSome = true →
    let t := s.raiseFrom b src x y
    t.mute = s.mute ∧
    (blockDie b = some 1 → s.bridgeUp = false → t.keeper.fc.tokens = s.keeper.fc.tokens) ∧
    (blockDie b ≠ some 1 ∨ s.bridgeUp = true → t.keeper.fc.tokens = s.keeper.fc.tokens ++
      [{ source := src, data0 := x, data1 := y, cause := s.causeOf b, injected := false, fromD1 := blockDie b == some 1 }])) ∧
  (∀ (s : State) (b : Block) (x y : Word) (l : LaneIx) (k : Fin 8), ((s.raiseFrom b (8 * l.val + k.val) x y).lanes[l]).irq = (s.lanes[l]).irq.set k.val) ∧
  (∀ (s : State) (b : Block) (x y : Word) (c : ClusterIx) (k : Fin 6),
    ((s.raiseFrom b (192 + 6 * c.val + k.val) x y).clusters[c]).irq = (s.clusters[c]).irq.set k.val) ∧
  (∀ (s : State) (b : Block) (x y : Word) (g : RegionIx) (k : Fin 8),
    ((s.raiseFrom b (264 + 8 * g.val + k.val) x y).regions[g]).irq = (s.regions[g]).irq.set k.val) ∧
  (∀ (s : State) (d : DieIx), s.coreIrq d = true ↔ ∃ b ∈ coreBlocks d, ∃ i : Irq × Word, s.irqOf b = some i ∧ i.1.pend &&& i.1.en ≠ 0) ∧
  (∀ (s : State) (b : Block) (x y : Word) (l : LaneIx) (k : Fin 8), (s.lanes[l]).irq.en.getLsbD k.val = true →
    (s.raiseFrom b (8 * l.val + k.val) x y).coreIrq (dieOfLane l) = true)

/-- R178. -/
def Obligations.ParityPositionsRotate : Prop :=
  ∀ (geo : GeometryRec) (b : Nat), 3 ≤ geoW geo →
    let w := geoW geo
    let j := bandSlot geo b
    let p := parityPos geo b
    p.1 = (j + w - 2) % w ∧ p.2 = (j + w - 1) % w ∧ p.1 ≠ p.2 ∧ p.1 < w ∧ p.2 < w ∧
    (dataPos geo b).length = w - 2 ∧ (dataPos geo b).Pairwise (· < ·) ∧ (∀ u, u ∈ dataPos geo b ↔ u < w ∧ u ≠ p.1 ∧ u ≠ p.2) ∧
    (0 < geo.sets → (parityPos geo (b + geo.sets)).1 = (p.1 + 1) % w ∧ (parityPos geo (b + geo.sets)).2 = (p.2 + 1) % w)

/-- Reset columns of R64, R121, R152, R276, R303, R324, R325, R341, R367, R388, R440, R460, R481, R482, R495. -/
def Obligations.ResetLeavesTheResetColumn : Prop :=
  (∀ l : LaneIx, ∀ e ∈ [(0x0, 0xC000000), (0x4, 0x0), (0x8, 0xFF), (0x10, 0x0), (0x14, 0x84000), (0x18, 0xC0C81F4), (0x20, 0x0), (0x24, 0x0), (0x30, 0x0), 
      (0x34, 0x0)], State.reset.readReg (.lane l) e.1 = e.2) ∧
  (∀ c : ClusterIx, ∀ e ∈ [(0x0, 0x3E000000), (0x4, 0x0), (0x8, 0x3F), (0x10, 0x0), (0x14, 0x0), (0x18, 0x0), (0x1C, 0x0)], State.reset.readReg (.cluster c) e.1 = e.2) ∧
  (∀ g : RegionIx, ∀ e ∈ [(0x0, 0x10000000), (0x4, 0x0), (0x8, 0xFF), (0x10, 0x0), (0x14, 0x0), (0x18, 0x0), (0x1C, 0x0), (0x20, 0x0), (0x24, 0x0), 
      (0x28, 0x0), (0x2C, 0x0), (0x30, 0x0), (0x34, 0x0), (0x38, 0x0), (0x3C, 0x0)], State.reset.readReg (.region g) e.1 = e.2) ∧
  (∀ d : DieIx, ∀ e ∈ [(RegBlock.host, 0x4, 0x0), (RegBlock.host, 0x8, 0x3FFFFF), (RegBlock.host, 0xC, 0x0), (RegBlock.mem, 0x4, 0x0), 
      (RegBlock.mem, 0x8, 0x3F), (RegBlock.mem, 0x10, 0x0), (RegBlock.mem, 0x14, 0x0), (RegBlock.mem, 0x18, 0x0), 
      (RegBlock.mem, 0x1C, 0x800100), (RegBlock.mem, 0x20, 0x0), (RegBlock.pool, 0x0, 0x0), (RegBlock.pool, 0x4, 0x0), 
      (RegBlock.pool, 0x8, 0x7), (RegBlock.pool, 0x10, 0x2000FFF), (RegBlock.pool, 0x14, 0x80060), (RegBlock.pool, 0x1C, 0x0), 
      (RegBlock.pool, 0x20, 0x0), (RegBlock.cipher, 0x0, 0x0), (RegBlock.cipher, 0x4, 0x0), (RegBlock.cipher, 0x8, 0x7), 
      (RegBlock.cipher, 0x10, 0x0), (RegBlock.cipher, 0x14, 0x0), (RegBlock.cipher, 0x18, 0x0), (RegBlock.cipher, 0x24, 0x0), 
      (RegBlock.swarm, 0x0, 0x0), (RegBlock.swarm, 0x4, 0x0), (RegBlock.swarm, 0x8, 0x3FFFFF), (RegBlock.swarm, 0x10, 0x0), 
      (RegBlock.swarm, 0x18, 0x0), (RegBlock.swarm, 0x1C, 0x0), (RegBlock.swarm, 0x20, 0x0), (RegBlock.common, 0x0, 0x0), 
      (RegBlock.common, 0x4, 0x0), (RegBlock.common, 0x8, 0xFFFFFFF)], State.reset.readReg (e.1 d) e.2.1 = e.2.2) ∧
  (∀ e ∈ [(RegBlock.power, 0x0, 0x2000000), (RegBlock.power, 0x4, 0x0), (RegBlock.power, 0x8, 0xFFFFFF), (RegBlock.power, 0x10, 0x0), 
      (RegBlock.power, 0x14, 0x40000000), (RegBlock.power, 0x24, 0x4B004B), (RegBlock.power, 0x28, 0x2AF80000), (RegBlock.fc, 0x0, 0x0), 
      (RegBlock.fc, 0x4, 0x0), (RegBlock.fc, 0x8, 0x7), (RegBlock.fc, 0x10, 0x0), (RegBlock.fc, 0x14, 0x0), (RegBlock.fc, 0x18, 0x0), 
      (RegBlock.fc, 0x1C, 0x0), (RegBlock.fc, 0xF0, 0x0), (RegBlock.fc, 0xF4, 0x0), (RegBlock.ev, 0x4, 0x0), (RegBlock.ev, 0x8, 0x3), 
      (RegBlock.ev, 0x10, 0x0), (RegBlock.tk, 0x20, 0x0), (RegBlock.tk, 0x24, 0x0), (RegBlock.prot, 0x0, 0x0), (RegBlock.prot, 0x8, 0x0), 
      (RegBlock.prot, 0xC, 0x0), (RegBlock.mp, 0x4, 0x0), (RegBlock.mp, 0x8, 0x3), (RegBlock.store, 0x0, 0x0), 
      (RegBlock.store, 0x4, 0x0), (RegBlock.store, 0x8, 0x7FF), (RegBlock.store, 0x10, 0x0), (RegBlock.store, 0x14, 0x0), 
      (RegBlock.store, 0x18, 0x0), (RegBlock.store, 0x1C, 0x0), (RegBlock.store, 0x20, 0x0), (RegBlock.store, 0x24, 0x0)], State.reset.readReg e.1 e.2.1 = e.2.2) ∧
  (∀ d : DieIx, State.reset.blockLive (.host d) = false ∧ State.reset.resetReg (.host d) 0 = 0 ∧
    State.reset.blockLive (.mem d) = false ∧ State.reset.resetReg (.mem d) 0 = 0x200000) ∧
  State.reset.storeKept ∧ State.reset.shadowsKept

/-- Worked cases of the manual. -/
def Obligations.WorkedCasesHold : Prop :=
  (dieOfLane 17 = 1 ∧ regionOfLane 17 = 2 ∧ clusterOfLane 17 = 8 ∧ blockAt 0x21320000 = some (.lane 17, 0) ∧ blockOf 136 = .lane 17) ∧
  (granRegion 0x4A6F3 = 3 ∧ dieOfRegion 3 = 1) ∧
  (∀ (p : MediaProfile) (e : DensityEntry) (geo : GeometryRec), p.planes = 4 → p.pageBytes = 18432 → p.wordlines = 768 → p.density[4]? = some e →
    e.parity = 1024 → geo.w = 0 → framesPerRow p .hlc = 85 ∧ bandDataSlots geo p 85 = 4047360) ∧
  (∀ n : NamespaceRec, n.lbaf = 1 → n.base = 2 → granOfLba n 0x12345677 = 101520797 ∧ figOfLba n 0x12345677 = 12) ∧
  (granRegion 101520797 = 1 ∧ granLocal 101520797 = 25380199 ∧ granSegment 101520797 = 8) ∧
  (∀ geo : GeometryRec, geo.w = 64 → geo.sets = 2 → parityPos geo 67 = (31, 32) ∧ bandSet geo 67 = 1 ∧ (dataPos geo 67)[31]? = some 33 ∧
    frameIndex geo 85 10 33 7 = 57212 ∧ frameIndex geo 85 10 31 7 = 57042) ∧
  (gfMul 0x08 0xF1 = 0xDB ∧ gfMul 0xDF (gfInv 0x0A) = 0x35 ∧ gfInv 0x80 = 0x1B ∧ gfMul 0x1B 0x35 = 0x9D ∧ gfPow 1 = 0x02 ∧ gfPow 3 = 0x08 ∧
    gfMul (0x04 ^^^ gfMul (gfPow 3) 0xF1) (gfInv (gfPow 1 ^^^ gfPow 3)) = 0x35 ∧ stripeSum 0 0xC4 0 0x35 = 0x59) ∧
  xtsTweak 3 0x12345677 = 0x0300000012345677 ∧
  (encodePtr .c2 37 0x2040 = 0x40252040 ∧ encodePtr .dram 1500 0x81000 = 0x97720400) ∧
  (requiredMj 160 50331648 ≤ usableMj 750 5500 ∧ usableMj 750 5500 = 819) ∧ sparePct 4 48 = 8 ∧
  (retentionClass 4950 = 13 ∧ retentionClass 19768 = 17 ∧ roundAway ((31 - 52) * -24) 64 = 8 ∧ roundAway ((40 - 52) * -24) 64 = 5 ∧ median [1, 2, 2, 3] = 2) ∧
  (ageFactor 19 = 384 ∧ ageFactor 12 = 256 ∧ ageFactor 2 = 128)

/-- R179, R184, R214: what the parities of a row and of a stripe recover. -/
def Obligations.ParityRecoversWhatIsErased : Prop :=
  (∀ d : List Byte, d.length ≤ 62 →
    (∀ a b : Nat, a < b → b < d.length →
      bandSolve (((d.map some).set a none).set b none) (some (bandP0 d)) (some (bandP1 d)) = some d) ∧
    (∀ a : Nat, a < d.length → (∀ p : Option Byte, bandSolve ((d.map some).set a none) (some (bandP0 d)) p = some d) ∧
      bandSolve ((d.map some).set a none) none (some (bandP1 d)) = some d) ∧
    ∀ p q : Option Byte, bandSolve (d.map some) p q = some d) ∧
  (∀ (i j k : Nat) (p x y : Byte), stripeSum i (stripeSum i p j x) j x = p ∧
    stripeSum i (stripeSum i p j x) k y = stripeSum i (stripeSum i p k y) j x)

/-- R191, R193, R194: reads of a lost position. -/
def Obligations.UnrebuiltPositionsAreReadByStepFive : Prop :=
  ∀ (s : State) (r : FrameReq) (geo : GeometryRec), s.geo? r.region = some geo →
    let f := s.rowFrames r.region (s.band r.region r.band).density
    let t := (s.regions[r.region]).tab
    let w := s.reqRow r / geoW geo
    let u := s.reqRow r % geoW geo
    let lun := lunAt geo t.adoptions (bandSet geo r.band) u
    f ≠ 0 →
    (∀ (a : Adoption) (n : Nat), t.adoptions.find? (fun a => a.set == bandSet geo r.band && a.position == u) = some a →
      (∀ a' ∈ t.adoptions, a'.set = bandSet geo r.band → a'.position = u → a' = a) →
      (∀ x ∈ a.left, x.1 = r.band → x.2 = n) → (∃ x ∈ a.left, x.1 = r.band) →
      lun = a.spare ∧
      (s.lunQuarantined lun = false → t.slotsLost.contains (r.band, frameIndex geo f w u (r.frame % f)) = false → w < n → s.frameErased r = false) ∧
      (n ≤ w → s.frameErased r = true)) ∧
    (s.lunQuarantined lun = true → s.frameErased r = true) ∧
    (s.frameErased r = true →
      (s.clusters[reqCluster r].climbs.any (sameFrame { r with id := s.sub.nextReq }) = false → r.lost = false →
        s.wantFrame r = s.freshId.addClimb (reqCluster r) { newClimb { r with id := s.sub.nextReq } with phase := .failed }) ∧
      ∀ k : Climb, k.req = r → k.step < 5 → k.darkWait = none → s.nextStep k = 5 ∧
        (∀ (c : ClusterIx) (id : Nat) (unread : List Nat) (crcOk : Bool), s.climb? c id = some k → k.phase = .failed → 5 ≤ s.climbLast k → s.awaitsResync r = false →
          let k' := { k with step := 5, darkWait := none }
          exec (.retryLadderStep c id (.row unread crcOk)) s =
            .next (((s.updClimb c id fun _ => k').reconstruct c k' (.row unread crcOk)).copyTurns r.region)))

/-- R508, R509: ball states. -/
def Obligations.BallsFollowThePackage : Prop :=
  (∀ s : State, s.keeper.sup.vinOk = true → ∃ t, exec .vinFall s = .next t ∧
    (∀ (l : LaneIx) (n : Fin 8), t.ball (.nandCe l n) = .highZ ∧ t.ball (.nandWp l) = .highZ ∧ t.ball (.nandStrobe l) = .highZ ∧
      t.ball (.nandLatch l) = .highZ ∧ t.ball (.nandData l) = .highZ) ∧
    (∀ d : DieIx, t.ball (.dramCommand d) = .highZ ∧ t.ball (.dramData d) = .highZ ∧ t.ball (.dramResetN d) = .highZ ∧ t.ball (.hostTx d) = .highZ ∧
      t.ball (.hostClkreqN d) = .highZ ∧ t.ball (.swarmTx d) = .highZ) ∧
    t.ball .huIso = .highZ ∧ t.ball .huChgEn = .highZ ∧ t.ball .huTest = .highZ ∧ t.ball .faultN = .highZ ∧ t.ball .xtal25 = .stopped) ∧
  (∀ (s : State) (l : LaneIx) (n : Fin 8), s.lanes[l].quarantined = true → s.ballCond (dieOfLane l) = .running →
    s.ball (.nandCe l n) = .high ∧ s.ball (.nandWp l) = .low) ∧
  (∀ s : State, s.keeper.sup.vkeep = true → s.keeper.sup.vinOk = true → s.keeper.sup.state = .safe →
    (∀ (l : LaneIx) (n : Fin 8), s.ball (.nandCe l n) = .high ∧ s.ball (.nandWp l) = .low) ∧ s.ball .faultN = .low)

/-- R136 to R138, R163, R196, R234: journal records and frames as bytes. -/
def Obligations.JournalReadsBackWhatItHolds : Prop :=
  (∀ x : JSlot, (slotBytes x).length = 16 ∧ slotOfBytes (slotBytes x) = x) ∧
  (∀ (x : JRec) (acc : List JRec), recFits x → (recSlots x).foldl readSlot acc = acc ++ [x]) ∧
  (∀ (f : JFrame) (g : RegionIx), (∀ x ∈ f.recs, recFits x) → f.used ≤ 254 → f.num < 2 ^ 40 → f.lowSeq < 2 ^ 64 →
    (f.slots g).length = 256 ∧ (f.bytes g).length = 4096 ∧ readSlots (f.slots g) = f.recs ∧
    (∃ h q rest, f.slots g = h :: q :: rest ∧ h.type = 0x01 ∧ bitsAt h.key.toNat 0 16 = 2 + f.used ∧ bitsAt h.key.toNat 16 2 = g.val ∧ h.value.toNat = f.num ∧
      q.type = 0x02 ∧ q.key.toNat + bitsAt q.value.toNat 0 24 * 2 ^ 40 = f.lowSeq)) ∧
  (∀ (r : RegionSt) (x : JRec), recSize x ≤ 254 → (∀ f ∈ r.journal.tail, f.used ≤ 254) → (r.journal.tail.map (·.num)).Nodup →
    (∀ f ∈ (r.append x).journal.tail, f.used ≤ 254) ∧ ∃ f ∈ (r.append x).journal.tail, x ∈ f.recs)
end

