-- ==== Sys2Proof/Laws/State.lean ====
section
/-! SUPPORT. What each update of one part of the state gives, field by field: true by unfolding, so that no later proof unfolds an update. -/

namespace Sys2Proof.Machine

/-! `updSup` -/

@[simp] theorem State.updSup_sup (s : State) (f : Supply → Supply) : (s.updSup f).keeper.sup = f s.keeper.sup := rfl
@[simp] theorem State.updSup_hu (s : State) (f : Supply → Supply) : (s.updSup f).keeper.hu = s.keeper.hu := rfl
@[simp] theorem State.updSup_rescue (s : State) (f : Supply → Supply) : (s.updSup f).keeper.rescue = s.keeper.rescue := rfl
@[simp] theorem State.updSup_tk (s : State) (f : Supply → Supply) : (s.updSup f).keeper.tk = s.keeper.tk := rfl
@[simp] theorem State.updSup_boot (s : State) (f : Supply → Supply) : (s.updSup f).keeper.boot = s.keeper.boot := rfl
@[simp] theorem State.updSup_prot (s : State) (f : Supply → Supply) : (s.updSup f).keeper.prot = s.keeper.prot := rfl
@[simp] theorem State.updSup_fc (s : State) (f : Supply → Supply) : (s.updSup f).keeper.fc = s.keeper.fc := rfl
@[simp] theorem State.updSup_ev (s : State) (f : Supply → Supply) : (s.updSup f).keeper.ev = s.keeper.ev := rfl
@[simp] theorem State.updSup_mp (s : State) (f : Supply → Supply) : (s.updSup f).keeper.mp = s.keeper.mp := rfl
@[simp] theorem State.updSup_store (s : State) (f : Supply → Supply) : (s.updSup f).store = s.store := rfl
@[simp] theorem State.updSup_opt (s : State) (f : Supply → Supply) : (s.updSup f).opt = s.opt := rfl
@[simp] theorem State.updSup_fw (s : State) (f : Supply → Supply) : (s.updSup f).fw = s.fw := rfl
@[simp] theorem State.updSup_dies (s : State) (f : Supply → Supply) : (s.updSup f).dies = s.dies := rfl
@[simp] theorem State.updSup_regions (s : State) (f : Supply → Supply) : (s.updSup f).regions = s.regions := rfl
@[simp] theorem State.updSup_clusters (s : State) (f : Supply → Supply) : (s.updSup f).clusters = s.clusters := rfl
@[simp] theorem State.updSup_lanes (s : State) (f : Supply → Supply) : (s.updSup f).lanes = s.lanes := rfl
@[simp] theorem State.updSup_sub (s : State) (f : Supply → Supply) : (s.updSup f).sub = s.sub := rfl
@[simp] theorem State.updSup_swarm (s : State) (f : Supply → Supply) : (s.updSup f).swarm = s.swarm := rfl
@[simp] theorem State.updSup_bridgeUp (s : State) (f : Supply → Supply) : (s.updSup f).bridgeUp = s.bridgeUp := rfl
@[simp] theorem State.updSup_pending (s : State) (f : Supply → Supply) : (s.updSup f).pending = s.pending := rfl
@[simp] theorem State.updSup_free (s : State) (f : Supply → Supply) : (s.updSup f).free = s.free := rfl

/-! `updHu` -/

@[simp] theorem State.updHu_sup (s : State) (f : HoldUp → HoldUp) : (s.updHu f).keeper.sup = s.keeper.sup := rfl
@[simp] theorem State.updHu_hu (s : State) (f : HoldUp → HoldUp) : (s.updHu f).keeper.hu = f s.keeper.hu := rfl
@[simp] theorem State.updHu_rescue (s : State) (f : HoldUp → HoldUp) : (s.updHu f).keeper.rescue = s.keeper.rescue := rfl
@[simp] theorem State.updHu_tk (s : State) (f : HoldUp → HoldUp) : (s.updHu f).keeper.tk = s.keeper.tk := rfl
@[simp] theorem State.updHu_boot (s : State) (f : HoldUp → HoldUp) : (s.updHu f).keeper.boot = s.keeper.boot := rfl
@[simp] theorem State.updHu_prot (s : State) (f : HoldUp → HoldUp) : (s.updHu f).keeper.prot = s.keeper.prot := rfl
@[simp] theorem State.updHu_fc (s : State) (f : HoldUp → HoldUp) : (s.updHu f).keeper.fc = s.keeper.fc := rfl
@[simp] theorem State.updHu_ev (s : State) (f : HoldUp → HoldUp) : (s.updHu f).keeper.ev = s.keeper.ev := rfl
@[simp] theorem State.updHu_mp (s : State) (f : HoldUp → HoldUp) : (s.updHu f).keeper.mp = s.keeper.mp := rfl
@[simp] theorem State.updHu_store (s : State) (f : HoldUp → HoldUp) : (s.updHu f).store = s.store := rfl
@[simp] theorem State.updHu_opt (s : State) (f : HoldUp → HoldUp) : (s.updHu f).opt = s.opt := rfl
@[simp] theorem State.updHu_fw (s : State) (f : HoldUp → HoldUp) : (s.updHu f).fw = s.fw := rfl
@[simp] theorem State.updHu_dies (s : State) (f : HoldUp → HoldUp) : (s.updHu f).dies = s.dies := rfl
@[simp] theorem State.updHu_regions (s : State) (f : HoldUp → HoldUp) : (s.updHu f).regions = s.regions := rfl
@[simp] theorem State.updHu_clusters (s : State) (f : HoldUp → HoldUp) : (s.updHu f).clusters = s.clusters := rfl
@[simp] theorem State.updHu_lanes (s : State) (f : HoldUp → HoldUp) : (s.updHu f).lanes = s.lanes := rfl
@[simp] theorem State.updHu_sub (s : State) (f : HoldUp → HoldUp) : (s.updHu f).sub = s.sub := rfl
@[simp] theorem State.updHu_swarm (s : State) (f : HoldUp → HoldUp) : (s.updHu f).swarm = s.swarm := rfl
@[simp] theorem State.updHu_bridgeUp (s : State) (f : HoldUp → HoldUp) : (s.updHu f).bridgeUp = s.bridgeUp := rfl
@[simp] theorem State.updHu_pending (s : State) (f : HoldUp → HoldUp) : (s.updHu f).pending = s.pending := rfl
@[simp] theorem State.updHu_free (s : State) (f : HoldUp → HoldUp) : (s.updHu f).free = s.free := rfl

/-! `updRescue` -/

@[simp] theorem State.updRescue_sup (s : State) (f : Rescue → Rescue) : (s.updRescue f).keeper.sup = s.keeper.sup := rfl
@[simp] theorem State.updRescue_hu (s : State) (f : Rescue → Rescue) : (s.updRescue f).keeper.hu = s.keeper.hu := rfl
@[simp] theorem State.updRescue_rescue (s : State) (f : Rescue → Rescue) :
    (s.updRescue f).keeper.rescue = f s.keeper.rescue := rfl
@[simp] theorem State.updRescue_tk (s : State) (f : Rescue → Rescue) : (s.updRescue f).keeper.tk = s.keeper.tk := rfl
@[simp] theorem State.updRescue_boot (s : State) (f : Rescue → Rescue) : (s.updRescue f).keeper.boot = s.keeper.boot := rfl
@[simp] theorem State.updRescue_prot (s : State) (f : Rescue → Rescue) : (s.updRescue f).keeper.prot = s.keeper.prot := rfl
@[simp] theorem State.updRescue_fc (s : State) (f : Rescue → Rescue) : (s.updRescue f).keeper.fc = s.keeper.fc := rfl
@[simp] theorem State.updRescue_ev (s : State) (f : Rescue → Rescue) : (s.updRescue f).keeper.ev = s.keeper.ev := rfl
@[simp] theorem State.updRescue_mp (s : State) (f : Rescue → Rescue) : (s.updRescue f).keeper.mp = s.keeper.mp := rfl
@[simp] theorem State.updRescue_store (s : State) (f : Rescue → Rescue) : (s.updRescue f).store = s.store := rfl
@[simp] theorem State.updRescue_opt (s : State) (f : Rescue → Rescue) : (s.updRescue f).opt = s.opt := rfl
@[simp] theorem State.updRescue_fw (s : State) (f : Rescue → Rescue) : (s.updRescue f).fw = s.fw := rfl
@[simp] theorem State.updRescue_dies (s : State) (f : Rescue → Rescue) : (s.updRescue f).dies = s.dies := rfl
@[simp] theorem State.updRescue_regions (s : State) (f : Rescue → Rescue) : (s.updRescue f).regions = s.regions := rfl
@[simp] theorem State.updRescue_clusters (s : State) (f : Rescue → Rescue) : (s.updRescue f).clusters = s.clusters := rfl
@[simp] theorem State.updRescue_lanes (s : State) (f : Rescue → Rescue) : (s.updRescue f).lanes = s.lanes := rfl
@[simp] theorem State.updRescue_sub (s : State) (f : Rescue → Rescue) : (s.updRescue f).sub = s.sub := rfl
@[simp] theorem State.updRescue_swarm (s : State) (f : Rescue → Rescue) : (s.updRescue f).swarm = s.swarm := rfl
@[simp] theorem State.updRescue_bridgeUp (s : State) (f : Rescue → Rescue) : (s.updRescue f).bridgeUp = s.bridgeUp := rfl
@[simp] theorem State.updRescue_pending (s : State) (f : Rescue → Rescue) : (s.updRescue f).pending = s.pending := rfl
@[simp] theorem State.updRescue_free (s : State) (f : Rescue → Rescue) : (s.updRescue f).free = s.free := rfl

/-! `updTk` -/

@[simp] theorem State.updTk_sup (s : State) (f : TimeKeeping → TimeKeeping) : (s.updTk f).keeper.sup = s.keeper.sup := rfl
@[simp] theorem State.updTk_hu (s : State) (f : TimeKeeping → TimeKeeping) : (s.updTk f).keeper.hu = s.keeper.hu := rfl
@[simp] theorem State.updTk_rescue (s : State) (f : TimeKeeping → TimeKeeping) :
    (s.updTk f).keeper.rescue = s.keeper.rescue := rfl
@[simp] theorem State.updTk_tk (s : State) (f : TimeKeeping → TimeKeeping) : (s.updTk f).keeper.tk = f s.keeper.tk := rfl
@[simp] theorem State.updTk_boot (s : State) (f : TimeKeeping → TimeKeeping) :
    (s.updTk f).keeper.boot = s.keeper.boot := rfl
@[simp] theorem State.updTk_prot (s : State) (f : TimeKeeping → TimeKeeping) :
    (s.updTk f).keeper.prot = s.keeper.prot := rfl
@[simp] theorem State.updTk_fc (s : State) (f : TimeKeeping → TimeKeeping) : (s.updTk f).keeper.fc = s.keeper.fc := rfl
@[simp] theorem State.updTk_ev (s : State) (f : TimeKeeping → TimeKeeping) : (s.updTk f).keeper.ev = s.keeper.ev := rfl
@[simp] theorem State.updTk_mp (s : State) (f : TimeKeeping → TimeKeeping) : (s.updTk f).keeper.mp = s.keeper.mp := rfl
@[simp] theorem State.updTk_store (s : State) (f : TimeKeeping → TimeKeeping) : (s.updTk f).store = s.store := rfl
@[simp] theorem State.updTk_opt (s : State) (f : TimeKeeping → TimeKeeping) : (s.updTk f).opt = s.opt := rfl
@[simp] theorem State.updTk_fw (s : State) (f : TimeKeeping → TimeKeeping) : (s.updTk f).fw = s.fw := rfl
@[simp] theorem State.updTk_dies (s : State) (f : TimeKeeping → TimeKeeping) : (s.updTk f).dies = s.dies := rfl
@[simp] theorem State.updTk_regions (s : State) (f : TimeKeeping → TimeKeeping) : (s.updTk f).regions = s.regions := rfl
@[simp] theorem State.updTk_clusters (s : State) (f : TimeKeeping → TimeKeeping) : (s.updTk f).clusters = s.clusters := rfl
@[simp] theorem State.updTk_lanes (s : State) (f : TimeKeeping → TimeKeeping) : (s.updTk f).lanes = s.lanes := rfl
@[simp] theorem State.updTk_sub (s : State) (f : TimeKeeping → TimeKeeping) : (s.updTk f).sub = s.sub := rfl
@[simp] theorem State.updTk_swarm (s : State) (f : TimeKeeping → TimeKeeping) : (s.updTk f).swarm = s.swarm := rfl
@[simp] theorem State.updTk_bridgeUp (s : State) (f : TimeKeeping → TimeKeeping) : (s.updTk f).bridgeUp = s.bridgeUp := rfl
@[simp] theorem State.updTk_pending (s : State) (f : TimeKeeping → TimeKeeping) : (s.updTk f).pending = s.pending := rfl
@[simp] theorem State.updTk_free (s : State) (f : TimeKeeping → TimeKeeping) : (s.updTk f).free = s.free := rfl

/-! `updBoot` -/

@[simp] theorem State.updBoot_sup (s : State) (f : Boot → Boot) : (s.updBoot f).keeper.sup = s.keeper.sup := rfl
@[simp] theorem State.updBoot_hu (s : State) (f : Boot → Boot) : (s.updBoot f).keeper.hu = s.keeper.hu := rfl
@[simp] theorem State.updBoot_rescue (s : State) (f : Boot → Boot) : (s.updBoot f).keeper.rescue = s.keeper.rescue := rfl
@[simp] theorem State.updBoot_tk (s : State) (f : Boot → Boot) : (s.updBoot f).keeper.tk = s.keeper.tk := rfl
@[simp] theorem State.updBoot_boot (s : State) (f : Boot → Boot) : (s.updBoot f).keeper.boot = f s.keeper.boot := rfl
@[simp] theorem State.updBoot_prot (s : State) (f : Boot → Boot) : (s.updBoot f).keeper.prot = s.keeper.prot := rfl
@[simp] theorem State.updBoot_fc (s : State) (f : Boot → Boot) : (s.updBoot f).keeper.fc = s.keeper.fc := rfl
@[simp] theorem State.updBoot_ev (s : State) (f : Boot → Boot) : (s.updBoot f).keeper.ev = s.keeper.ev := rfl
@[simp] theorem State.updBoot_mp (s : State) (f : Boot → Boot) : (s.updBoot f).keeper.mp = s.keeper.mp := rfl
@[simp] theorem State.updBoot_store (s : State) (f : Boot → Boot) : (s.updBoot f).store = s.store := rfl
@[simp] theorem State.updBoot_opt (s : State) (f : Boot → Boot) : (s.updBoot f).opt = s.opt := rfl
@[simp] theorem State.updBoot_fw (s : State) (f : Boot → Boot) : (s.updBoot f).fw = s.fw := rfl
@[simp] theorem State.updBoot_dies (s : State) (f : Boot → Boot) : (s.updBoot f).dies = s.dies := rfl
@[simp] theorem State.updBoot_regions (s : State) (f : Boot → Boot) : (s.updBoot f).regions = s.regions := rfl
@[simp] theorem State.updBoot_clusters (s : State) (f : Boot → Boot) : (s.updBoot f).clusters = s.clusters := rfl
@[simp] theorem State.updBoot_lanes (s : State) (f : Boot → Boot) : (s.updBoot f).lanes = s.lanes := rfl
@[simp] theorem State.updBoot_sub (s : State) (f : Boot → Boot) : (s.updBoot f).sub = s.sub := rfl
@[simp] theorem State.updBoot_swarm (s : State) (f : Boot → Boot) : (s.updBoot f).swarm = s.swarm := rfl
@[simp] theorem State.updBoot_bridgeUp (s : State) (f : Boot → Boot) : (s.updBoot f).bridgeUp = s.bridgeUp := rfl
@[simp] theorem State.updBoot_pending (s : State) (f : Boot → Boot) : (s.updBoot f).pending = s.pending := rfl
@[simp] theorem State.updBoot_free (s : State) (f : Boot → Boot) : (s.updBoot f).free = s.free := rfl

/-! `updFc` -/

@[simp] theorem State.updFc_sup (s : State) (f : Collector → Collector) : (s.updFc f).keeper.sup = s.keeper.sup := rfl
@[simp] theorem State.updFc_hu (s : State) (f : Collector → Collector) : (s.updFc f).keeper.hu = s.keeper.hu := rfl
@[simp] theorem State.updFc_rescue (s : State) (f : Collector → Collector) :
    (s.updFc f).keeper.rescue = s.keeper.rescue := rfl
@[simp] theorem State.updFc_tk (s : State) (f : Collector → Collector) : (s.updFc f).keeper.tk = s.keeper.tk := rfl
@[simp] theorem State.updFc_boot (s : State) (f : Collector → Collector) : (s.updFc f).keeper.boot = s.keeper.boot := rfl
@[simp] theorem State.updFc_prot (s : State) (f : Collector → Collector) : (s.updFc f).keeper.prot = s.keeper.prot := rfl
@[simp] theorem State.updFc_fc (s : State) (f : Collector → Collector) : (s.updFc f).keeper.fc = f s.keeper.fc := rfl
@[simp] theorem State.updFc_ev (s : State) (f : Collector → Collector) : (s.updFc f).keeper.ev = s.keeper.ev := rfl
@[simp] theorem State.updFc_mp (s : State) (f : Collector → Collector) : (s.updFc f).keeper.mp = s.keeper.mp := rfl
@[simp] theorem State.updFc_store (s : State) (f : Collector → Collector) : (s.updFc f).store = s.store := rfl
@[simp] theorem State.updFc_opt (s : State) (f : Collector → Collector) : (s.updFc f).opt = s.opt := rfl
@[simp] theorem State.updFc_fw (s : State) (f : Collector → Collector) : (s.updFc f).fw = s.fw := rfl
@[simp] theorem State.updFc_dies (s : State) (f : Collector → Collector) : (s.updFc f).dies = s.dies := rfl
@[simp] theorem State.updFc_regions (s : State) (f : Collector → Collector) : (s.updFc f).regions = s.regions := rfl
@[simp] theorem State.updFc_clusters (s : State) (f : Collector → Collector) : (s.updFc f).clusters = s.clusters := rfl
@[simp] theorem State.updFc_lanes (s : State) (f : Collector → Collector) : (s.updFc f).lanes = s.lanes := rfl
@[simp] theorem State.updFc_sub (s : State) (f : Collector → Collector) : (s.updFc f).sub = s.sub := rfl
@[simp] theorem State.updFc_swarm (s : State) (f : Collector → Collector) : (s.updFc f).swarm = s.swarm := rfl
@[simp] theorem State.updFc_bridgeUp (s : State) (f : Collector → Collector) : (s.updFc f).bridgeUp = s.bridgeUp := rfl
@[simp] theorem State.updFc_pending (s : State) (f : Collector → Collector) : (s.updFc f).pending = s.pending := rfl
@[simp] theorem State.updFc_free (s : State) (f : Collector → Collector) : (s.updFc f).free = s.free := rfl

/-! `updEv` -/

@[simp] theorem State.updEv_sup (s : State) (f : Recorder → Recorder) : (s.updEv f).keeper.sup = s.keeper.sup := rfl
@[simp] theorem State.updEv_hu (s : State) (f : Recorder → Recorder) : (s.updEv f).keeper.hu = s.keeper.hu := rfl
@[simp] theorem State.updEv_rescue (s : State) (f : Recorder → Recorder) :
    (s.updEv f).keeper.rescue = s.keeper.rescue := rfl
@[simp] theorem State.updEv_tk (s : State) (f : Recorder → Recorder) : (s.updEv f).keeper.tk = s.keeper.tk := rfl
@[simp] theorem State.updEv_boot (s : State) (f : Recorder → Recorder) : (s.updEv f).keeper.boot = s.keeper.boot := rfl
@[simp] theorem State.updEv_prot (s : State) (f : Recorder → Recorder) : (s.updEv f).keeper.prot = s.keeper.prot := rfl
@[simp] theorem State.updEv_fc (s : State) (f : Recorder → Recorder) : (s.updEv f).keeper.fc = s.keeper.fc := rfl
@[simp] theorem State.updEv_ev (s : State) (f : Recorder → Recorder) : (s.updEv f).keeper.ev = f s.keeper.ev := rfl
@[simp] theorem State.updEv_mp (s : State) (f : Recorder → Recorder) : (s.updEv f).keeper.mp = s.keeper.mp := rfl
@[simp] theorem State.updEv_store (s : State) (f : Recorder → Recorder) : (s.updEv f).store = s.store := rfl
@[simp] theorem State.updEv_opt (s : State) (f : Recorder → Recorder) : (s.updEv f).opt = s.opt := rfl
@[simp] theorem State.updEv_fw (s : State) (f : Recorder → Recorder) : (s.updEv f).fw = s.fw := rfl
@[simp] theorem State.updEv_dies (s : State) (f : Recorder → Recorder) : (s.updEv f).dies = s.dies := rfl
@[simp] theorem State.updEv_regions (s : State) (f : Recorder → Recorder) : (s.updEv f).regions = s.regions := rfl
@[simp] theorem State.updEv_clusters (s : State) (f : Recorder → Recorder) : (s.updEv f).clusters = s.clusters := rfl
@[simp] theorem State.updEv_lanes (s : State) (f : Recorder → Recorder) : (s.updEv f).lanes = s.lanes := rfl
@[simp] theorem State.updEv_sub (s : State) (f : Recorder → Recorder) : (s.updEv f).sub = s.sub := rfl
@[simp] theorem State.updEv_swarm (s : State) (f : Recorder → Recorder) : (s.updEv f).swarm = s.swarm := rfl
@[simp] theorem State.updEv_bridgeUp (s : State) (f : Recorder → Recorder) : (s.updEv f).bridgeUp = s.bridgeUp := rfl
@[simp] theorem State.updEv_pending (s : State) (f : Recorder → Recorder) : (s.updEv f).pending = s.pending := rfl
@[simp] theorem State.updEv_free (s : State) (f : Recorder → Recorder) : (s.updEv f).free = s.free := rfl

/-! `updMp` -/

@[simp] theorem State.updMp_sup (s : State) (f : MgmtPort → MgmtPort) : (s.updMp f).keeper.sup = s.keeper.sup := rfl
@[simp] theorem State.updMp_hu (s : State) (f : MgmtPort → MgmtPort) : (s.updMp f).keeper.hu = s.keeper.hu := rfl
@[simp] theorem State.updMp_rescue (s : State) (f : MgmtPort → MgmtPort) :
    (s.updMp f).keeper.rescue = s.keeper.rescue := rfl
@[simp] theorem State.updMp_tk (s : State) (f : MgmtPort → MgmtPort) : (s.updMp f).keeper.tk = s.keeper.tk := rfl
@[simp] theorem State.updMp_boot (s : State) (f : MgmtPort → MgmtPort) : (s.updMp f).keeper.boot = s.keeper.boot := rfl
@[simp] theorem State.updMp_prot (s : State) (f : MgmtPort → MgmtPort) : (s.updMp f).keeper.prot = s.keeper.prot := rfl
@[simp] theorem State.updMp_fc (s : State) (f : MgmtPort → MgmtPort) : (s.updMp f).keeper.fc = s.keeper.fc := rfl
@[simp] theorem State.updMp_ev (s : State) (f : MgmtPort → MgmtPort) : (s.updMp f).keeper.ev = s.keeper.ev := rfl
@[simp] theorem State.updMp_mp (s : State) (f : MgmtPort → MgmtPort) : (s.updMp f).keeper.mp = f s.keeper.mp := rfl
@[simp] theorem State.updMp_store (s : State) (f : MgmtPort → MgmtPort) : (s.updMp f).store = s.store := rfl
@[simp] theorem State.updMp_opt (s : State) (f : MgmtPort → MgmtPort) : (s.updMp f).opt = s.opt := rfl
@[simp] theorem State.updMp_fw (s : State) (f : MgmtPort → MgmtPort) : (s.updMp f).fw = s.fw := rfl
@[simp] theorem State.updMp_dies (s : State) (f : MgmtPort → MgmtPort) : (s.updMp f).dies = s.dies := rfl
@[simp] theorem State.updMp_regions (s : State) (f : MgmtPort → MgmtPort) : (s.updMp f).regions = s.regions := rfl
@[simp] theorem State.updMp_clusters (s : State) (f : MgmtPort → MgmtPort) : (s.updMp f).clusters = s.clusters := rfl
@[simp] theorem State.updMp_lanes (s : State) (f : MgmtPort → MgmtPort) : (s.updMp f).lanes = s.lanes := rfl
@[simp] theorem State.updMp_sub (s : State) (f : MgmtPort → MgmtPort) : (s.updMp f).sub = s.sub := rfl
@[simp] theorem State.updMp_swarm (s : State) (f : MgmtPort → MgmtPort) : (s.updMp f).swarm = s.swarm := rfl
@[simp] theorem State.updMp_bridgeUp (s : State) (f : MgmtPort → MgmtPort) : (s.updMp f).bridgeUp = s.bridgeUp := rfl
@[simp] theorem State.updMp_pending (s : State) (f : MgmtPort → MgmtPort) : (s.updMp f).pending = s.pending := rfl
@[simp] theorem State.updMp_free (s : State) (f : MgmtPort → MgmtPort) : (s.updMp f).free = s.free := rfl

/-! `updStore` -/

@[simp] theorem State.updStore_keeper (s : State) (f : Store → Store) : (s.updStore f).keeper = s.keeper := rfl
@[simp] theorem State.updStore_store (s : State) (f : Store → Store) : (s.updStore f).store = f s.store := rfl
@[simp] theorem State.updStore_opt (s : State) (f : Store → Store) : (s.updStore f).opt = s.opt := rfl
@[simp] theorem State.updStore_fw (s : State) (f : Store → Store) : (s.updStore f).fw = s.fw := rfl
@[simp] theorem State.updStore_dies (s : State) (f : Store → Store) : (s.updStore f).dies = s.dies := rfl
@[simp] theorem State.updStore_regions (s : State) (f : Store → Store) : (s.updStore f).regions = s.regions := rfl
@[simp] theorem State.updStore_clusters (s : State) (f : Store → Store) : (s.updStore f).clusters = s.clusters := rfl
@[simp] theorem State.updStore_lanes (s : State) (f : Store → Store) : (s.updStore f).lanes = s.lanes := rfl
@[simp] theorem State.updStore_sub (s : State) (f : Store → Store) : (s.updStore f).sub = s.sub := rfl
@[simp] theorem State.updStore_swarm (s : State) (f : Store → Store) : (s.updStore f).swarm = s.swarm := rfl
@[simp] theorem State.updStore_bridgeUp (s : State) (f : Store → Store) : (s.updStore f).bridgeUp = s.bridgeUp := rfl
@[simp] theorem State.updStore_pending (s : State) (f : Store → Store) : (s.updStore f).pending = s.pending := rfl
@[simp] theorem State.updStore_free (s : State) (f : Store → Store) : (s.updStore f).free = s.free := rfl

/-! `updOpt` -/

@[simp] theorem State.updOpt_keeper (s : State) (f : OptionArea → OptionArea) : (s.updOpt f).keeper = s.keeper := rfl
@[simp] theorem State.updOpt_store (s : State) (f : OptionArea → OptionArea) : (s.updOpt f).store = s.store := rfl
@[simp] theorem State.updOpt_opt (s : State) (f : OptionArea → OptionArea) : (s.updOpt f).opt = f s.opt := rfl
@[simp] theorem State.updOpt_fw (s : State) (f : OptionArea → OptionArea) : (s.updOpt f).fw = s.fw := rfl
@[simp] theorem State.updOpt_dies (s : State) (f : OptionArea → OptionArea) : (s.updOpt f).dies = s.dies := rfl
@[simp] theorem State.updOpt_regions (s : State) (f : OptionArea → OptionArea) : (s.updOpt f).regions = s.regions := rfl
@[simp] theorem State.updOpt_clusters (s : State) (f : OptionArea → OptionArea) : (s.updOpt f).clusters = s.clusters := rfl
@[simp] theorem State.updOpt_lanes (s : State) (f : OptionArea → OptionArea) : (s.updOpt f).lanes = s.lanes := rfl
@[simp] theorem State.updOpt_sub (s : State) (f : OptionArea → OptionArea) : (s.updOpt f).sub = s.sub := rfl
@[simp] theorem State.updOpt_swarm (s : State) (f : OptionArea → OptionArea) : (s.updOpt f).swarm = s.swarm := rfl
@[simp] theorem State.updOpt_bridgeUp (s : State) (f : OptionArea → OptionArea) : (s.updOpt f).bridgeUp = s.bridgeUp := rfl
@[simp] theorem State.updOpt_pending (s : State) (f : OptionArea → OptionArea) : (s.updOpt f).pending = s.pending := rfl
@[simp] theorem State.updOpt_free (s : State) (f : OptionArea → OptionArea) : (s.updOpt f).free = s.free := rfl

/-! `updFw` -/

@[simp] theorem State.updFw_keeper (s : State) (f : Firmware → Firmware) : (s.updFw f).keeper = s.keeper := rfl
@[simp] theorem State.updFw_store (s : State) (f : Firmware → Firmware) : (s.updFw f).store = s.store := rfl
@[simp] theorem State.updFw_opt (s : State) (f : Firmware → Firmware) : (s.updFw f).opt = s.opt := rfl
@[simp] theorem State.updFw_fw (s : State) (f : Firmware → Firmware) : (s.updFw f).fw = f s.fw := rfl
@[simp] theorem State.updFw_dies (s : State) (f : Firmware → Firmware) : (s.updFw f).dies = s.dies := rfl
@[simp] theorem State.updFw_regions (s : State) (f : Firmware → Firmware) : (s.updFw f).regions = s.regions := rfl
@[simp] theorem State.updFw_clusters (s : State) (f : Firmware → Firmware) : (s.updFw f).clusters = s.clusters := rfl
@[simp] theorem State.updFw_lanes (s : State) (f : Firmware → Firmware) : (s.updFw f).lanes = s.lanes := rfl
@[simp] theorem State.updFw_sub (s : State) (f : Firmware → Firmware) : (s.updFw f).sub = s.sub := rfl
@[simp] theorem State.updFw_swarm (s : State) (f : Firmware → Firmware) : (s.updFw f).swarm = s.swarm := rfl
@[simp] theorem State.updFw_bridgeUp (s : State) (f : Firmware → Firmware) : (s.updFw f).bridgeUp = s.bridgeUp := rfl
@[simp] theorem State.updFw_pending (s : State) (f : Firmware → Firmware) : (s.updFw f).pending = s.pending := rfl
@[simp] theorem State.updFw_free (s : State) (f : Firmware → Firmware) : (s.updFw f).free = s.free := rfl

/-! `updSub` -/

@[simp] theorem State.updSub_keeper (s : State) (f : Subsys → Subsys) : (s.updSub f).keeper = s.keeper := rfl
@[simp] theorem State.updSub_store (s : State) (f : Subsys → Subsys) : (s.updSub f).store = s.store := rfl
@[simp] theorem State.updSub_opt (s : State) (f : Subsys → Subsys) : (s.updSub f).opt = s.opt := rfl
@[simp] theorem State.updSub_fw (s : State) (f : Subsys → Subsys) : (s.updSub f).fw = s.fw := rfl
@[simp] theorem State.updSub_dies (s : State) (f : Subsys → Subsys) : (s.updSub f).dies = s.dies := rfl
@[simp] theorem State.updSub_regions (s : State) (f : Subsys → Subsys) : (s.updSub f).regions = s.regions := rfl
@[simp] theorem State.updSub_clusters (s : State) (f : Subsys → Subsys) : (s.updSub f).clusters = s.clusters := rfl
@[simp] theorem State.updSub_lanes (s : State) (f : Subsys → Subsys) : (s.updSub f).lanes = s.lanes := rfl
@[simp] theorem State.updSub_sub (s : State) (f : Subsys → Subsys) : (s.updSub f).sub = f s.sub := rfl
@[simp] theorem State.updSub_swarm (s : State) (f : Subsys → Subsys) : (s.updSub f).swarm = s.swarm := rfl
@[simp] theorem State.updSub_bridgeUp (s : State) (f : Subsys → Subsys) : (s.updSub f).bridgeUp = s.bridgeUp := rfl
@[simp] theorem State.updSub_pending (s : State) (f : Subsys → Subsys) : (s.updSub f).pending = s.pending := rfl
@[simp] theorem State.updSub_free (s : State) (f : Subsys → Subsys) : (s.updSub f).free = s.free := rfl

/-! `updSwarm` -/

@[simp] theorem State.updSwarm_keeper (s : State) (f : SwarmSt → SwarmSt) : (s.updSwarm f).keeper = s.keeper := rfl
@[simp] theorem State.updSwarm_store (s : State) (f : SwarmSt → SwarmSt) : (s.updSwarm f).store = s.store := rfl
@[simp] theorem State.updSwarm_opt (s : State) (f : SwarmSt → SwarmSt) : (s.updSwarm f).opt = s.opt := rfl
@[simp] theorem State.updSwarm_fw (s : State) (f : SwarmSt → SwarmSt) : (s.updSwarm f).fw = s.fw := rfl
@[simp] theorem State.updSwarm_dies (s : State) (f : SwarmSt → SwarmSt) : (s.updSwarm f).dies = s.dies := rfl
@[simp] theorem State.updSwarm_regions (s : State) (f : SwarmSt → SwarmSt) : (s.updSwarm f).regions = s.regions := rfl
@[simp] theorem State.updSwarm_clusters (s : State) (f : SwarmSt → SwarmSt) : (s.updSwarm f).clusters = s.clusters := rfl
@[simp] theorem State.updSwarm_lanes (s : State) (f : SwarmSt → SwarmSt) : (s.updSwarm f).lanes = s.lanes := rfl
@[simp] theorem State.updSwarm_sub (s : State) (f : SwarmSt → SwarmSt) : (s.updSwarm f).sub = s.sub := rfl
@[simp] theorem State.updSwarm_swarm (s : State) (f : SwarmSt → SwarmSt) : (s.updSwarm f).swarm = f s.swarm := rfl
@[simp] theorem State.updSwarm_bridgeUp (s : State) (f : SwarmSt → SwarmSt) : (s.updSwarm f).bridgeUp = s.bridgeUp := rfl
@[simp] theorem State.updSwarm_pending (s : State) (f : SwarmSt → SwarmSt) : (s.updSwarm f).pending = s.pending := rfl
@[simp] theorem State.updSwarm_free (s : State) (f : SwarmSt → SwarmSt) : (s.updSwarm f).free = s.free := rfl

/-! `updDie` -/

@[simp] theorem State.updDie_keeper (s : State) (i : DieIx) (f : DieSt → DieSt) : (s.updDie i f).keeper = s.keeper := rfl
@[simp] theorem State.updDie_store (s : State) (i : DieIx) (f : DieSt → DieSt) : (s.updDie i f).store = s.store := rfl
@[simp] theorem State.updDie_opt (s : State) (i : DieIx) (f : DieSt → DieSt) : (s.updDie i f).opt = s.opt := rfl
@[simp] theorem State.updDie_fw (s : State) (i : DieIx) (f : DieSt → DieSt) : (s.updDie i f).fw = s.fw := rfl
@[simp] theorem State.updDie_dies (s : State) (i : DieIx) (f : DieSt → DieSt) :
    (s.updDie i f).dies = s.dies.set i (f s.dies[i]) := rfl
@[simp] theorem State.updDie_regions (s : State) (i : DieIx) (f : DieSt → DieSt) :
    (s.updDie i f).regions = s.regions := rfl
@[simp] theorem State.updDie_clusters (s : State) (i : DieIx) (f : DieSt → DieSt) :
    (s.updDie i f).clusters = s.clusters := rfl
@[simp] theorem State.updDie_lanes (s : State) (i : DieIx) (f : DieSt → DieSt) : (s.updDie i f).lanes = s.lanes := rfl
@[simp] theorem State.updDie_sub (s : State) (i : DieIx) (f : DieSt → DieSt) : (s.updDie i f).sub = s.sub := rfl
@[simp] theorem State.updDie_swarm (s : State) (i : DieIx) (f : DieSt → DieSt) : (s.updDie i f).swarm = s.swarm := rfl
@[simp] theorem State.updDie_bridgeUp (s : State) (i : DieIx) (f : DieSt → DieSt) :
    (s.updDie i f).bridgeUp = s.bridgeUp := rfl
@[simp] theorem State.updDie_pending (s : State) (i : DieIx) (f : DieSt → DieSt) :
    (s.updDie i f).pending = s.pending := rfl
@[simp] theorem State.updDie_free (s : State) (i : DieIx) (f : DieSt → DieSt) : (s.updDie i f).free = s.free := rfl

/-! `updRegion` -/

@[simp] theorem State.updRegion_keeper (s : State) (i : RegionIx) (f : RegionSt → RegionSt) :
    (s.updRegion i f).keeper = s.keeper := rfl
@[simp] theorem State.updRegion_store (s : State) (i : RegionIx) (f : RegionSt → RegionSt) :
    (s.updRegion i f).store = s.store := rfl
@[simp] theorem State.updRegion_opt (s : State) (i : RegionIx) (f : RegionSt → RegionSt) :
    (s.updRegion i f).opt = s.opt := rfl
@[simp] theorem State.updRegion_fw (s : State) (i : RegionIx) (f : RegionSt → RegionSt) :
    (s.updRegion i f).fw = s.fw := rfl
@[simp] theorem State.updRegion_dies (s : State) (i : RegionIx) (f : RegionSt → RegionSt) :
    (s.updRegion i f).dies = s.dies := rfl
@[simp] theorem State.updRegion_regions (s : State) (i : RegionIx) (f : RegionSt → RegionSt) :
    (s.updRegion i f).regions = s.regions.set i (f s.regions[i]) := rfl
@[simp] theorem State.updRegion_clusters (s : State) (i : RegionIx) (f : RegionSt → RegionSt) :
    (s.updRegion i f).clusters = s.clusters := rfl
@[simp] theorem State.updRegion_lanes (s : State) (i : RegionIx) (f : RegionSt → RegionSt) :
    (s.updRegion i f).lanes = s.lanes := rfl
@[simp] theorem State.updRegion_sub (s : State) (i : RegionIx) (f : RegionSt → RegionSt) :
    (s.updRegion i f).sub = s.sub := rfl
@[simp] theorem State.updRegion_swarm (s : State) (i : RegionIx) (f : RegionSt → RegionSt) :
    (s.updRegion i f).swarm = s.swarm := rfl
@[simp] theorem State.updRegion_bridgeUp (s : State) (i : RegionIx) (f : RegionSt → RegionSt) :
    (s.updRegion i f).bridgeUp = s.bridgeUp := rfl
@[simp] theorem State.updRegion_pending (s : State) (i : RegionIx) (f : RegionSt → RegionSt) :
    (s.updRegion i f).pending = s.pending := rfl
@[simp] theorem State.updRegion_free (s : State) (i : RegionIx) (f : RegionSt → RegionSt) :
    (s.updRegion i f).free = s.free := rfl

/-! `updCluster` -/

@[simp] theorem State.updCluster_keeper (s : State) (i : ClusterIx) (f : ClusterSt → ClusterSt) :
    (s.updCluster i f).keeper = s.keeper := rfl
@[simp] theorem State.updCluster_store (s : State) (i : ClusterIx) (f : ClusterSt → ClusterSt) :
    (s.updCluster i f).store = s.store := rfl
@[simp] theorem State.updCluster_opt (s : State) (i : ClusterIx) (f : ClusterSt → ClusterSt) :
    (s.updCluster i f).opt = s.opt := rfl
@[simp] theorem State.updCluster_fw (s : State) (i : ClusterIx) (f : ClusterSt → ClusterSt) :
    (s.updCluster i f).fw = s.fw := rfl
@[simp] theorem State.updCluster_dies (s : State) (i : ClusterIx) (f : ClusterSt → ClusterSt) :
    (s.updCluster i f).dies = s.dies := rfl
@[simp] theorem State.updCluster_regions (s : State) (i : ClusterIx) (f : ClusterSt → ClusterSt) :
    (s.updCluster i f).regions = s.regions := rfl
@[simp] theorem State.updCluster_clusters (s : State) (i : ClusterIx) (f : ClusterSt → ClusterSt) :
    (s.updCluster i f).clusters = s.clusters.set i (f s.clusters[i]) := rfl
@[simp] theorem State.updCluster_lanes (s : State) (i : ClusterIx) (f : ClusterSt → ClusterSt) :
    (s.updCluster i f).lanes = s.lanes := rfl
@[simp] theorem State.updCluster_sub (s : State) (i : ClusterIx) (f : ClusterSt → ClusterSt) :
    (s.updCluster i f).sub = s.sub := rfl
@[simp] theorem State.updCluster_swarm (s : State) (i : ClusterIx) (f : ClusterSt → ClusterSt) :
    (s.updCluster i f).swarm = s.swarm := rfl
@[simp] theorem State.updCluster_bridgeUp (s : State) (i : ClusterIx) (f : ClusterSt → ClusterSt) :
    (s.updCluster i f).bridgeUp = s.bridgeUp := rfl
@[simp] theorem State.updCluster_pending (s : State) (i : ClusterIx) (f : ClusterSt → ClusterSt) :
    (s.updCluster i f).pending = s.pending := rfl
@[simp] theorem State.updCluster_free (s : State) (i : ClusterIx) (f : ClusterSt → ClusterSt) :
    (s.updCluster i f).free = s.free := rfl

/-! `updLane` -/

@[simp] theorem State.updLane_keeper (s : State) (i : LaneIx) (f : LaneSt → LaneSt) :
    (s.updLane i f).keeper = s.keeper := rfl
@[simp] theorem State.updLane_store (s : State) (i : LaneIx) (f : LaneSt → LaneSt) : (s.updLane i f).store = s.store := rfl
@[simp] theorem State.updLane_opt (s : State) (i : LaneIx) (f : LaneSt → LaneSt) : (s.updLane i f).opt = s.opt := rfl
@[simp] theorem State.updLane_fw (s : State) (i : LaneIx) (f : LaneSt → LaneSt) : (s.updLane i f).fw = s.fw := rfl
@[simp] theorem State.updLane_dies (s : State) (i : LaneIx) (f : LaneSt → LaneSt) : (s.updLane i f).dies = s.dies := rfl
@[simp] theorem State.updLane_regions (s : State) (i : LaneIx) (f : LaneSt → LaneSt) :
    (s.updLane i f).regions = s.regions := rfl
@[simp] theorem State.updLane_clusters (s : State) (i : LaneIx) (f : LaneSt → LaneSt) :
    (s.updLane i f).clusters = s.clusters := rfl
@[simp] theorem State.updLane_lanes (s : State) (i : LaneIx) (f : LaneSt → LaneSt) :
    (s.updLane i f).lanes = s.lanes.set i (f s.lanes[i]) := rfl
@[simp] theorem State.updLane_sub (s : State) (i : LaneIx) (f : LaneSt → LaneSt) : (s.updLane i f).sub = s.sub := rfl
@[simp] theorem State.updLane_swarm (s : State) (i : LaneIx) (f : LaneSt → LaneSt) : (s.updLane i f).swarm = s.swarm := rfl
@[simp] theorem State.updLane_bridgeUp (s : State) (i : LaneIx) (f : LaneSt → LaneSt) :
    (s.updLane i f).bridgeUp = s.bridgeUp := rfl
@[simp] theorem State.updLane_pending (s : State) (i : LaneIx) (f : LaneSt → LaneSt) :
    (s.updLane i f).pending = s.pending := rfl
@[simp] theorem State.updLane_free (s : State) (i : LaneIx) (f : LaneSt → LaneSt) : (s.updLane i f).free = s.free := rfl

/-! `updCommon` -/

@[simp] theorem State.updCommon_keeper (s : State) (i : DieIx) (f : DieCommon → DieCommon) :
    (s.updCommon i f).keeper = s.keeper := rfl
@[simp] theorem State.updCommon_store (s : State) (i : DieIx) (f : DieCommon → DieCommon) :
    (s.updCommon i f).store = s.store := rfl
@[simp] theorem State.updCommon_opt (s : State) (i : DieIx) (f : DieCommon → DieCommon) :
    (s.updCommon i f).opt = s.opt := rfl
@[simp] theorem State.updCommon_fw (s : State) (i : DieIx) (f : DieCommon → DieCommon) : (s.updCommon i f).fw = s.fw := rfl
@[simp] theorem State.updCommon_dies (s : State) (i : DieIx) (f : DieCommon → DieCommon) :
    (s.updCommon i f).dies = s.dies.set i { s.dies[i] with common := f s.dies[i].common } := rfl
@[simp] theorem State.updCommon_regions (s : State) (i : DieIx) (f : DieCommon → DieCommon) :
    (s.updCommon i f).regions = s.regions := rfl
@[simp] theorem State.updCommon_clusters (s : State) (i : DieIx) (f : DieCommon → DieCommon) :
    (s.updCommon i f).clusters = s.clusters := rfl
@[simp] theorem State.updCommon_lanes (s : State) (i : DieIx) (f : DieCommon → DieCommon) :
    (s.updCommon i f).lanes = s.lanes := rfl
@[simp] theorem State.updCommon_sub (s : State) (i : DieIx) (f : DieCommon → DieCommon) :
    (s.updCommon i f).sub = s.sub := rfl
@[simp] theorem State.updCommon_swarm (s : State) (i : DieIx) (f : DieCommon → DieCommon) :
    (s.updCommon i f).swarm = s.swarm := rfl
@[simp] theorem State.updCommon_bridgeUp (s : State) (i : DieIx) (f : DieCommon → DieCommon) :
    (s.updCommon i f).bridgeUp = s.bridgeUp := rfl
@[simp] theorem State.updCommon_pending (s : State) (i : DieIx) (f : DieCommon → DieCommon) :
    (s.updCommon i f).pending = s.pending := rfl
@[simp] theorem State.updCommon_free (s : State) (i : DieIx) (f : DieCommon → DieCommon) :
    (s.updCommon i f).free = s.free := rfl

/-! `updPool` -/

@[simp] theorem State.updPool_keeper (s : State) (i : DieIx) (f : Pool → Pool) : (s.updPool i f).keeper = s.keeper := rfl
@[simp] theorem State.updPool_store (s : State) (i : DieIx) (f : Pool → Pool) : (s.updPool i f).store = s.store := rfl
@[simp] theorem State.updPool_opt (s : State) (i : DieIx) (f : Pool → Pool) : (s.updPool i f).opt = s.opt := rfl
@[simp] theorem State.updPool_fw (s : State) (i : DieIx) (f : Pool → Pool) : (s.updPool i f).fw = s.fw := rfl
@[simp] theorem State.updPool_dies (s : State) (i : DieIx) (f : Pool → Pool) :
    (s.updPool i f).dies = s.dies.set i { s.dies[i] with pool := f s.dies[i].pool } := rfl
@[simp] theorem State.updPool_regions (s : State) (i : DieIx) (f : Pool → Pool) :
    (s.updPool i f).regions = s.regions := rfl
@[simp] theorem State.updPool_clusters (s : State) (i : DieIx) (f : Pool → Pool) :
    (s.updPool i f).clusters = s.clusters := rfl
@[simp] theorem State.updPool_lanes (s : State) (i : DieIx) (f : Pool → Pool) : (s.updPool i f).lanes = s.lanes := rfl
@[simp] theorem State.updPool_sub (s : State) (i : DieIx) (f : Pool → Pool) : (s.updPool i f).sub = s.sub := rfl
@[simp] theorem State.updPool_swarm (s : State) (i : DieIx) (f : Pool → Pool) : (s.updPool i f).swarm = s.swarm := rfl
@[simp] theorem State.updPool_bridgeUp (s : State) (i : DieIx) (f : Pool → Pool) :
    (s.updPool i f).bridgeUp = s.bridgeUp := rfl
@[simp] theorem State.updPool_pending (s : State) (i : DieIx) (f : Pool → Pool) :
    (s.updPool i f).pending = s.pending := rfl
@[simp] theorem State.updPool_free (s : State) (i : DieIx) (f : Pool → Pool) : (s.updPool i f).free = s.free := rfl

/-! `updMem` -/

@[simp] theorem State.updMem_keeper (s : State) (i : DieIx) (f : MemCtl → MemCtl) : (s.updMem i f).keeper = s.keeper := rfl
@[simp] theorem State.updMem_store (s : State) (i : DieIx) (f : MemCtl → MemCtl) : (s.updMem i f).store = s.store := rfl
@[simp] theorem State.updMem_opt (s : State) (i : DieIx) (f : MemCtl → MemCtl) : (s.updMem i f).opt = s.opt := rfl
@[simp] theorem State.updMem_fw (s : State) (i : DieIx) (f : MemCtl → MemCtl) : (s.updMem i f).fw = s.fw := rfl
@[simp] theorem State.updMem_dies (s : State) (i : DieIx) (f : MemCtl → MemCtl) :
    (s.updMem i f).dies = s.dies.set i { s.dies[i] with mem := f s.dies[i].mem } := rfl
@[simp] theorem State.updMem_regions (s : State) (i : DieIx) (f : MemCtl → MemCtl) :
    (s.updMem i f).regions = s.regions := rfl
@[simp] theorem State.updMem_clusters (s : State) (i : DieIx) (f : MemCtl → MemCtl) :
    (s.updMem i f).clusters = s.clusters := rfl
@[simp] theorem State.updMem_lanes (s : State) (i : DieIx) (f : MemCtl → MemCtl) : (s.updMem i f).lanes = s.lanes := rfl
@[simp] theorem State.updMem_sub (s : State) (i : DieIx) (f : MemCtl → MemCtl) : (s.updMem i f).sub = s.sub := rfl
@[simp] theorem State.updMem_swarm (s : State) (i : DieIx) (f : MemCtl → MemCtl) : (s.updMem i f).swarm = s.swarm := rfl
@[simp] theorem State.updMem_bridgeUp (s : State) (i : DieIx) (f : MemCtl → MemCtl) :
    (s.updMem i f).bridgeUp = s.bridgeUp := rfl
@[simp] theorem State.updMem_pending (s : State) (i : DieIx) (f : MemCtl → MemCtl) :
    (s.updMem i f).pending = s.pending := rfl
@[simp] theorem State.updMem_free (s : State) (i : DieIx) (f : MemCtl → MemCtl) : (s.updMem i f).free = s.free := rfl

/-! `updCipher` -/

@[simp] theorem State.updCipher_keeper (s : State) (i : DieIx) (f : Cipher → Cipher) :
    (s.updCipher i f).keeper = s.keeper := rfl
@[simp] theorem State.updCipher_store (s : State) (i : DieIx) (f : Cipher → Cipher) :
    (s.updCipher i f).store = s.store := rfl
@[simp] theorem State.updCipher_opt (s : State) (i : DieIx) (f : Cipher → Cipher) : (s.updCipher i f).opt = s.opt := rfl
@[simp] theorem State.updCipher_fw (s : State) (i : DieIx) (f : Cipher → Cipher) : (s.updCipher i f).fw = s.fw := rfl
@[simp] theorem State.updCipher_dies (s : State) (i : DieIx) (f : Cipher → Cipher) :
    (s.updCipher i f).dies = s.dies.set i { s.dies[i] with cipher := f s.dies[i].cipher } := rfl
@[simp] theorem State.updCipher_regions (s : State) (i : DieIx) (f : Cipher → Cipher) :
    (s.updCipher i f).regions = s.regions := rfl
@[simp] theorem State.updCipher_clusters (s : State) (i : DieIx) (f : Cipher → Cipher) :
    (s.updCipher i f).clusters = s.clusters := rfl
@[simp] theorem State.updCipher_lanes (s : State) (i : DieIx) (f : Cipher → Cipher) :
    (s.updCipher i f).lanes = s.lanes := rfl
@[simp] theorem State.updCipher_sub (s : State) (i : DieIx) (f : Cipher → Cipher) : (s.updCipher i f).sub = s.sub := rfl
@[simp] theorem State.updCipher_swarm (s : State) (i : DieIx) (f : Cipher → Cipher) :
    (s.updCipher i f).swarm = s.swarm := rfl
@[simp] theorem State.updCipher_bridgeUp (s : State) (i : DieIx) (f : Cipher → Cipher) :
    (s.updCipher i f).bridgeUp = s.bridgeUp := rfl
@[simp] theorem State.updCipher_pending (s : State) (i : DieIx) (f : Cipher → Cipher) :
    (s.updCipher i f).pending = s.pending := rfl
@[simp] theorem State.updCipher_free (s : State) (i : DieIx) (f : Cipher → Cipher) : (s.updCipher i f).free = s.free := rfl

/-! `updHost` -/

@[simp] theorem State.updHost_keeper (s : State) (i : DieIx) (f : HostPort → HostPort) :
    (s.updHost i f).keeper = s.keeper := rfl
@[simp] theorem State.updHost_store (s : State) (i : DieIx) (f : HostPort → HostPort) :
    (s.updHost i f).store = s.store := rfl
@[simp] theorem State.updHost_opt (s : State) (i : DieIx) (f : HostPort → HostPort) : (s.updHost i f).opt = s.opt := rfl
@[simp] theorem State.updHost_fw (s : State) (i : DieIx) (f : HostPort → HostPort) : (s.updHost i f).fw = s.fw := rfl
@[simp] theorem State.updHost_dies (s : State) (i : DieIx) (f : HostPort → HostPort) :
    (s.updHost i f).dies = s.dies.set i { s.dies[i] with host := f s.dies[i].host } := rfl
@[simp] theorem State.updHost_regions (s : State) (i : DieIx) (f : HostPort → HostPort) :
    (s.updHost i f).regions = s.regions := rfl
@[simp] theorem State.updHost_clusters (s : State) (i : DieIx) (f : HostPort → HostPort) :
    (s.updHost i f).clusters = s.clusters := rfl
@[simp] theorem State.updHost_lanes (s : State) (i : DieIx) (f : HostPort → HostPort) :
    (s.updHost i f).lanes = s.lanes := rfl
@[simp] theorem State.updHost_sub (s : State) (i : DieIx) (f : HostPort → HostPort) : (s.updHost i f).sub = s.sub := rfl
@[simp] theorem State.updHost_swarm (s : State) (i : DieIx) (f : HostPort → HostPort) :
    (s.updHost i f).swarm = s.swarm := rfl
@[simp] theorem State.updHost_bridgeUp (s : State) (i : DieIx) (f : HostPort → HostPort) :
    (s.updHost i f).bridgeUp = s.bridgeUp := rfl
@[simp] theorem State.updHost_pending (s : State) (i : DieIx) (f : HostPort → HostPort) :
    (s.updHost i f).pending = s.pending := rfl
@[simp] theorem State.updHost_free (s : State) (i : DieIx) (f : HostPort → HostPort) : (s.updHost i f).free = s.free := rfl

/-! `updTab` -/

@[simp] theorem State.updTab_keeper (s : State) (i : RegionIx) (f : RegionTables → RegionTables) :
    (s.updTab i f).keeper = s.keeper := rfl
@[simp] theorem State.updTab_store (s : State) (i : RegionIx) (f : RegionTables → RegionTables) :
    (s.updTab i f).store = s.store := rfl
@[simp] theorem State.updTab_opt (s : State) (i : RegionIx) (f : RegionTables → RegionTables) :
    (s.updTab i f).opt = s.opt := rfl
@[simp] theorem State.updTab_fw (s : State) (i : RegionIx) (f : RegionTables → RegionTables) :
    (s.updTab i f).fw = s.fw := rfl
@[simp] theorem State.updTab_dies (s : State) (i : RegionIx) (f : RegionTables → RegionTables) :
    (s.updTab i f).dies = s.dies := rfl
@[simp] theorem State.updTab_regions (s : State) (i : RegionIx) (f : RegionTables → RegionTables) :
    (s.updTab i f).regions = s.regions.set i { s.regions[i] with tab := f s.regions[i].tab } := rfl
@[simp] theorem State.updTab_clusters (s : State) (i : RegionIx) (f : RegionTables → RegionTables) :
    (s.updTab i f).clusters = s.clusters := rfl
@[simp] theorem State.updTab_lanes (s : State) (i : RegionIx) (f : RegionTables → RegionTables) :
    (s.updTab i f).lanes = s.lanes := rfl
@[simp] theorem State.updTab_sub (s : State) (i : RegionIx) (f : RegionTables → RegionTables) :
    (s.updTab i f).sub = s.sub := rfl
@[simp] theorem State.updTab_swarm (s : State) (i : RegionIx) (f : RegionTables → RegionTables) :
    (s.updTab i f).swarm = s.swarm := rfl
@[simp] theorem State.updTab_bridgeUp (s : State) (i : RegionIx) (f : RegionTables → RegionTables) :
    (s.updTab i f).bridgeUp = s.bridgeUp := rfl
@[simp] theorem State.updTab_pending (s : State) (i : RegionIx) (f : RegionTables → RegionTables) :
    (s.updTab i f).pending = s.pending := rfl
@[simp] theorem State.updTab_free (s : State) (i : RegionIx) (f : RegionTables → RegionTables) :
    (s.updTab i f).free = s.free := rfl

/-! `updJrn` -/

@[simp] theorem State.updJrn_keeper (s : State) (i : RegionIx) (f : Journal → Journal) :
    (s.updJrn i f).keeper = s.keeper := rfl
@[simp] theorem State.updJrn_store (s : State) (i : RegionIx) (f : Journal → Journal) :
    (s.updJrn i f).store = s.store := rfl
@[simp] theorem State.updJrn_opt (s : State) (i : RegionIx) (f : Journal → Journal) : (s.updJrn i f).opt = s.opt := rfl
@[simp] theorem State.updJrn_fw (s : State) (i : RegionIx) (f : Journal → Journal) : (s.updJrn i f).fw = s.fw := rfl
@[simp] theorem State.updJrn_dies (s : State) (i : RegionIx) (f : Journal → Journal) : (s.updJrn i f).dies = s.dies := rfl
@[simp] theorem State.updJrn_regions (s : State) (i : RegionIx) (f : Journal → Journal) :
    (s.updJrn i f).regions = s.regions.set i { s.regions[i] with journal := f s.regions[i].journal } := rfl
@[simp] theorem State.updJrn_clusters (s : State) (i : RegionIx) (f : Journal → Journal) :
    (s.updJrn i f).clusters = s.clusters := rfl
@[simp] theorem State.updJrn_lanes (s : State) (i : RegionIx) (f : Journal → Journal) :
    (s.updJrn i f).lanes = s.lanes := rfl
@[simp] theorem State.updJrn_sub (s : State) (i : RegionIx) (f : Journal → Journal) : (s.updJrn i f).sub = s.sub := rfl
@[simp] theorem State.updJrn_swarm (s : State) (i : RegionIx) (f : Journal → Journal) :
    (s.updJrn i f).swarm = s.swarm := rfl
@[simp] theorem State.updJrn_bridgeUp (s : State) (i : RegionIx) (f : Journal → Journal) :
    (s.updJrn i f).bridgeUp = s.bridgeUp := rfl
@[simp] theorem State.updJrn_pending (s : State) (i : RegionIx) (f : Journal → Journal) :
    (s.updJrn i f).pending = s.pending := rfl
@[simp] theorem State.updJrn_free (s : State) (i : RegionIx) (f : Journal → Journal) : (s.updJrn i f).free = s.free := rfl

end Sys2Proof.Machine
end

