-- ==== Sys2Proof/Laws/Admin.lean ====
section
/-! SUPPORT. What the gate of an admin command can do (R285, R369 to R386). -/

namespace Sys2Proof.Machine

/-- An admin command that the present state admits runs its action. -/
theorem adminThen_admits {s : State} {k : AdminKind} {ref : CmdRef} {f : State → Out} (h : s.admits k ref) : s.adminThen k ref f = f s := by
  simp only [State.adminThen, h.1, h.2.1, h.2.2]; rfl

/-- One that it refuses completes with the status of the refusal. -/
theorem adminThen_refused {s : State} {k : AdminKind} {ref : CmdRef} {f : State → Out} {st : Status} (h : s.adminBusy k ref = false)
    (h2 : s.tokensHeld ref = false) (h' : s.adminGate k ref = some st) : s.adminThen k ref f = .next (s.complete ref st 0) := by
  simp only [State.adminThen, h, h2, h']; rfl

/-- One behind an earlier admin command waits. -/
theorem adminThen_busy {s : State} {k : AdminKind} {ref : CmdRef} {f : State → Out} (h : s.adminBusy k ref = true) :
    s.adminThen k ref f = .next s := by
  simp only [State.adminThen, h]; rfl

/-- As `adminThen_admits`, for the commands whose action always goes on. -/
theorem admin_admits {s : State} {k : AdminKind} {ref : CmdRef} {f : State → State} (h : s.admits k ref) : s.admin k ref f = .next (f s) :=
  adminThen_admits h

end Sys2Proof.Machine
end

