-- ==== Sys2Proof/Machine/BallMap.lean ====
section
/-! DEFINITION. Where the 1,444 balls lie and which signal each carries (R497 to R506). Rows are counted from 1 by their index of R497. -/

namespace Sys2Proof.Machine

/-- Signals of a lane block (R500). -/
inductive LanePin where
  | ceN (n : Fin 8) | wpN | ale | cle | weN | dq (n : Fin 8) | dqsT | dqsC | reT | reC | vss | vccq
  deriving DecidableEq, Repr

/-- Signals of a memory channel block (R502). -/
inductive DramPin where
  | dq (n : Fin 16) | dmi (n : Fin 2) | rdqsT (n : Fin 2) | rdqsC (n : Fin 2) | wckT (n : Fin 2) | wckC (n : Fin 2)
  | ca (n : Fin 7) | cs (n : Fin 2) | ckT | ckC | vss | vddq | vdd2h
  deriving DecidableEq, Repr

/-- Signals of a host port block (R503). -/
inductive HostPin where
  | txP (n : Fin 4) | txN (n : Fin 4) | rxP (n : Fin 4) | rxN (n : Fin 4) | refclkP | refclkN | perstN | clkreqN | vss
  deriving DecidableEq, Repr

/-- Signals of a swarm port block (R504). -/
inductive SwarmPin where
  | txP (n : Fin 2) | txN (n : Fin 2) | rxP (n : Fin 2) | rxN (n : Fin 2) | vss
  deriving DecidableEq, Repr

/-- Signals outside the blocks (R498, R505). -/
inductive LoneSignal where
  | memResetN (d : DieIx) | memZq (d : DieIx) | nandZq (d : DieIx)
  | xtal25In | xtal25Out | xtal32kIn | xtal32kOut
  | bootMode (n : Fin 2) | slotId (n : Fin 8)
  | pwrLossN | huIso | huChgEn | huTest | hubSense | faultN | th (n : Fin 4)
  | mpScl | mpSda | tp (n : Fin 4)
  | swmRefclkP | swmRefclkN
  | vin | vaux | vccq | vss
  deriving DecidableEq, Repr

/-- What a ball carries. -/
inductive Signal where
  | lane (l : LaneIx) (p : LanePin)
  | dram (d : DieIx) (ch : Fin 4) (p : DramPin)
  | host (p : DieIx) (x : HostPin)
  | swarm (p : DieIx) (x : SwarmPin)
  | lone (x : LoneSignal)
  deriving DecidableEq, Repr

/-- The pattern of a lane block, row by row (R500). -/
def lanePattern : List (List LanePin) :=
  [[.ceN 0, .ceN 1, .ceN 2, .ceN 3, .ceN 4, .ceN 5],
   [.ceN 6, .ceN 7, .wpN, .ale, .cle, .weN],
   [.vss, .dq 0, .dq 1, .dqsT, .dqsC, .vccq],
   [.dq 2, .dq 3, .vss, .reT, .reC, .dq 4],
   [.vccq, .dq 5, .dq 6, .dq 7, .vss, .vccq]]

/-- The pattern of a memory channel block (R502). -/
def dramPattern : List (List DramPin) :=
  [[.dq 0, .dq 1, .dq 2, .dq 3, .dq 4, .dq 5],
   [.dq 6, .dq 7, .dmi 0, .rdqsT 0, .rdqsC 0, .vss],
   [.wckT 0, .wckC 0, .vss, .vddq, .vss, .vddq],
   [.ca 0, .ca 1, .ca 2, .ca 3, .ca 4, .ca 5],
   [.ca 6, .cs 0, .cs 1, .ckT, .ckC, .vss],
   [.vdd2h, .vss, .vddq, .vdd2h, .vss, .vddq],
   [.wckT 1, .wckC 1, .vss, .vddq, .vss, .vddq],
   [.dq 8, .dq 9, .dq 10, .dq 11, .dq 12, .dq 13],
   [.dq 14, .dq 15, .dmi 1, .rdqsT 1, .rdqsC 1, .vss]]

/-- The pattern of a host port block (R503). -/
def hostPattern : List (List HostPin) :=
  [[.txP 0, .txN 0, .vss, .txP 1, .txN 1, .vss],
   List.replicate 6 .vss,
   [.rxP 0, .rxN 0, .vss, .rxP 1, .rxN 1, .vss],
   [.txP 2, .txN 2, .vss, .txP 3, .txN 3, .vss],
   [.rxP 2, .rxN 2, .vss, .rxP 3, .rxN 3, .vss],
   [.refclkP, .refclkN, .vss, .perstN, .clkreqN, .vss]]

/-- The pattern of a swarm port block (R504). -/
def swarmPattern : List (List SwarmPin) :=
  [[.txP 0, .txN 0, .vss, .txP 1, .txN 1, .vss], List.replicate 6 .vss, [.rxP 0, .rxN 0, .vss, .rxP 1, .rxN 1, .vss]]

/-- The signal of a pattern at a row and column offset from its first ball (R497). -/
def patternAt {α : Type} (p : List (List α)) (r c : Nat) : Option α := p[r]?.bind (·[c]?)

/-- A block whose pattern starts at (r0, c0), seen from the ball (r, c). -/
def blockSignal {α : Type} (p : List (List α)) (r0 c0 r c : Nat) : Option α :=
  if r0 ≤ r ∧ c0 ≤ c then patternAt p (r - r0) (c - c0) else none

/-- First ball of a lane block (R501): twelve lanes of each die, three a row of blocks, four rows of blocks. -/
def laneFirst (l : LaneIx) : Nat × Nat :=
  let k := l.val % 12
  ([1, 6, 29, 34].getD (k / 3) 0, (if l.val < 12 then 1 else 21) + 6 * (k % 3))

/-- First ball of a memory channel block (R502). -/
def dramFirst (d : DieIx) (ch : Fin 4) : Nat × Nat :=
  (if ch.val < 2 then 11 else 20, (if d = 0 then 1 else 27) + 6 * (ch.val % 2))

/-- First balls of the host and the swarm port blocks (R503, R504). -/
def hostFirst (p : DieIx) : Nat × Nat := (11, if p = 0 then 13 else 21)
def swarmFirst (p : DieIx) : Nat × Nat := (17, if p = 0 then 13 else 21)

/-- The balls of R505 by row index and column, the VIN spine apart. -/
def loneTable : List ((Nat × Nat) × LoneSignal) :=
  [((20, 13), .memResetN 0), ((20, 15), .memZq 0), ((20, 17), .nandZq 0), ((22, 13), .xtal25In), ((22, 14), .xtal25Out),
   ((24, 13), .xtal32kIn), ((24, 14), .xtal32kOut), ((26, 13), .bootMode 0), ((26, 15), .bootMode 1), ((26, 17), .tp 0), ((26, 18), .tp 1),
   ((20, 22), .memResetN 1), ((20, 24), .memZq 1), ((20, 26), .nandZq 1), ((21, 21), .pwrLossN), ((21, 22), .huIso), ((21, 23), .huChgEn),
   ((21, 24), .huTest), ((21, 25), .hubSense), ((22, 21), .faultN), ((22, 23), .mpScl), ((22, 24), .mpSda)] ++
  [((23, 21), .vaux), ((23, 22), .vaux), ((23, 23), .th 0), ((23, 24), .th 1), ((23, 25), .th 2), ((23, 26), .th 3),
   ((25, 21), .slotId 0), ((25, 22), .slotId 1), ((25, 23), .slotId 2), ((25, 24), .slotId 3), ((25, 25), .slotId 4), ((25, 26), .slotId 5),
   ((26, 21), .slotId 6), ((26, 22), .slotId 7), ((26, 25), .tp 2), ((26, 26), .tp 3), ((27, 19), .swmRefclkP), ((27, 20), .swmRefclkN)]

/-- The balls outside the blocks (R499, R505, R506): VCCQ and VSS beside the lane blocks, the VIN spine, the table, and VSS elsewhere. -/
def loneAt (r c : Nat) : Option LoneSignal :=
  if r < 11 ∨ 29 ≤ r then (if c = 19 then some .vccq else if c = 20 then some .vss else none)
  else if c < 13 ∨ 26 < c then none
  else if 11 ≤ r ∧ r ≤ 26 ∧ (c = 19 ∨ c = 20) then some .vin
  else match loneTable.find? (fun p => p.1 == (r, c)) with
    | some p => some p.2
    | none => some .vss

/-- The signal of the ball at row index r and column c, each from 1 to 38 (R497 to R506). -/
def signalAt (r c : Nat) : Option Signal :=
  if r = 0 ∨ 38 < r ∨ c = 0 ∨ 38 < c then none
  else
    ((List.finRange 24).findSome? fun l => (blockSignal lanePattern (laneFirst l).1 (laneFirst l).2 r c).map (Signal.lane l)) <|>
    ((List.finRange 2).findSome? fun d => (List.finRange 4).findSome? fun ch =>
      (blockSignal dramPattern (dramFirst d ch).1 (dramFirst d ch).2 r c).map (Signal.dram d ch)) <|>
    ((List.finRange 2).findSome? fun p => (blockSignal hostPattern (hostFirst p).1 (hostFirst p).2 r c).map (Signal.host p)) <|>
    ((List.finRange 2).findSome? fun p => (blockSignal swarmPattern (swarmFirst p).1 (swarmFirst p).2 r c).map (Signal.swarm p)) <|>
    (loneAt r c).map .lone

/-- Row letters in the order of R497. -/
def rowLetters : List String :=
  ["A", "B", "C", "D", "E", "F", "G", "H", "J", "K", "L", "M", "N", "P", "T", "U", "V", "W", "Y",
   "AA", "AB", "AC", "AD", "AE", "AF", "AG", "AH", "AJ", "AK", "AL", "AM", "AN", "AP", "AT", "AU", "AV", "AW", "AY"]

/-- The name of a ball (R497). -/
def ballName (r c : Nat) : String := rowLetters.getD (r - 1) "" ++ toString c

/-- The supply group of a ball, for the power balls (R506). -/
inductive PowerGroup where
  | vin | vaux | vccq | vddq | vdd2h | vss
  deriving DecidableEq, Repr

/-- The supply group that a ball belongs to (R506). -/
def Signal.power : Signal → Option PowerGroup
  | .lane _ .vss | .dram _ _ .vss | .host _ .vss | .swarm _ .vss | .lone .vss => some .vss
  | .lane _ .vccq | .lone .vccq => some .vccq
  | .dram _ _ .vddq => some .vddq
  | .dram _ _ .vdd2h => some .vdd2h
  | .lone .vin => some .vin
  | .lone .vaux => some .vaux
  | _ => none

/-- The row of R508 that a signal's ball falls under; supplies, inputs and the balls that R508 does not name have none. -/
def Signal.ball? : Signal → Option Ball
  | .lane l p => match p with
    | .ceN n => some (.nandCe l n)
    | .wpN => some (.nandWp l)
    | .weN | .reT => some (.nandStrobe l)
    | .ale | .cle => some (.nandLatch l)
    | .dq _ | .dqsT | .dqsC => some (.nandData l)
    | .reC | .vss | .vccq => none
  | .dram d _ p => match p with
    | .ca _ | .cs _ | .ckT | .ckC => some (.dramCommand d)
    | .dq _ | .dmi _ | .rdqsT _ | .rdqsC _ | .wckT _ | .wckC _ => some (.dramData d)
    | .vss | .vddq | .vdd2h => none
  | .host p x => match x with
    | .txP _ | .txN _ => some (.hostTx p)
    | .clkreqN => some (.hostClkreqN p)
    | .rxP _ | .rxN _ | .refclkP | .refclkN | .perstN | .vss => none
  | .swarm p x => match x with
    | .txP _ | .txN _ => some (.swarmTx p)
    | .rxP _ | .rxN _ | .vss => none
  | .lone x => match x with
    | .memResetN d => some (.dramResetN d)
    | .huIso => some .huIso
    | .huChgEn => some .huChgEn
    | .huTest => some .huTest
    | .faultN => some .faultN
    | .mpScl | .mpSda => some .managementPort
    | .xtal25In | .xtal25Out => some .xtal25
    | .xtal32kIn | .xtal32kOut => some .xtal32k
    | .memZq _ | .nandZq _ | .bootMode _ | .slotId _ | .pwrLossN | .hubSense | .th _ | .tp _ | .swmRefclkP | .swmRefclkN
    | .vin | .vaux | .vccq | .vss => none

/-- What the ball at a place shows, where R508 says. -/
def State.levelAt (s : State) (r c : Nat) : Option BallLevel := ((signalAt r c).bind Signal.ball?).map s.ball

end Sys2Proof.Machine
end

