-- ==== Sys2Proof/Laws/BallMap.lean ====
section
/-! SUPPORT. The worked cases of R501 to R503 and counts of R498 and R506. -/

namespace Sys2Proof.Machine

/-- Balls of a row that satisfy p. -/
def rowCount (p : Signal → Bool) (r : Nat) : Nat := (List.range 38).countP fun c => (signalAt r (c + 1)).any p

/-- Balls of a supply group. -/
def powerCount (g : PowerGroup) : Nat := ((List.range 38).map fun r => rowCount (fun x => x.power == some g) (r + 1)).sum

theorem vss_balls : powerCount .vss = 288 := by decide +kernel
theorem vccq_balls : powerCount .vccq = 92 := by decide +kernel
theorem ball_dqs_of_lane17 : signalAt 8 36 = some (.lane 17 .dqsT) ∧ rowLetters[8 - 1]? = some "H" := by decide +kernel
theorem ball_wp_of_lane17 : signalAt 7 35 = some (.lane 17 .wpN) ∧ rowLetters[7 - 1]? = some "G" := by decide +kernel
theorem ball_dq7_of_lane21 : signalAt 38 24 = some (.lane 21 (.dq 7)) ∧ rowLetters[38 - 1]? = some "AY" := by decide +kernel
theorem ball_ck_of_channel3 : signalAt 24 36 = some (.dram 1 3 .ckT) ∧ rowLetters[24 - 1]? = some "AE" := by decide +kernel
theorem ball_perst_of_host1 : signalAt 16 24 = some (.host 1 .perstN) ∧ rowLetters[16 - 1]? = some "U" := by decide +kernel

end Sys2Proof.Machine
end

