-- ==== Sys2Proof/Laws/Ops.lean ====
section
/-! SUPPORT. What reporting an event can do (R458): it leaves all of the state but the event bits and the tokens as it was. -/

namespace Sys2Proof.Machine

/-- Writing an element that looks the same through a map leaves the map as it was. -/
theorem map_set_same {α β : Type} {n : Nat} (v : Vector α n) (i : Nat) (h : i < n) (x : α) (g : α → β) (hx : g x = g v[i]) :
    (v.set i x).map g = v.map g := by
  ext k hk
  simp only [Vector.getElem_map, Vector.getElem_set]
  split
  · subst_vars; exact hx
  · rfl

theorem State.updDie_mute (s : State) (d : DieIx) (f : DieSt → DieSt) (h : ∀ x, (f x).mute = x.mute) : (s.updDie d f).mute = s.mute := by
  simp only [State.mute, State.updDie]; congr 1; exact map_set_same _ _ _ _ _ (h _)
theorem State.updRegion_mute (s : State) (g : RegionIx) (f : RegionSt → RegionSt) (h : ∀ x, (f x).mute = x.mute) :
    (s.updRegion g f).mute = s.mute := by
  simp only [State.mute, State.updRegion]; congr 1; exact map_set_same _ _ _ _ _ (h _)
theorem State.updCluster_mute (s : State) (c : ClusterIx) (f : ClusterSt → ClusterSt) (h : ∀ x, (f x).mute = x.mute) :
    (s.updCluster c f).mute = s.mute := by
  simp only [State.mute, State.updCluster]; congr 1; exact map_set_same _ _ _ _ _ (h _)
theorem State.updLane_mute (s : State) (l : LaneIx) (f : LaneSt → LaneSt) (h : ∀ x, (f x).mute = x.mute) : (s.updLane l f).mute = s.mute := by
  simp only [State.mute, State.updLane]; congr 1; exact map_set_same _ _ _ _ _ (h _)

/-- The event bit touches nothing but pending bits of IRQ registers. -/
theorem State.setIrq_mute (s : State) (src : Nat) : (s.setIrq src).mute = s.mute := by
  unfold State.setIrq
  split
  · exact s.updLane_mute _ _ fun _ => rfl
  split
  · exact s.updCluster_mute _ _ fun _ => rfl
  split
  · exact s.updRegion_mute _ _ fun _ => rfl
  split
  · apply State.updDie_mute
    intro x
    simp only
    repeat' split
    all_goals rfl
  split
  · rfl
  split
  · simp only; rw [State.updDie_mute, State.updDie_mute] <;> exact fun _ => rfl
  split
  · simp only; rw [State.updDie_mute, State.updDie_mute] <;> exact fun _ => rfl
  · rfl

/-- The token touches the collector's list of tokens only. -/
theorem State.sendToken_mute (s : State) (b : Block) (src : Nat) (d0 d1 : Word) (i : Bool) : (s.sendToken b src d0 d1 i).mute = s.mute := by
  simp only [State.sendToken]
  split <;> rfl

/-- Reporting an event leaves all but the event bits and the tokens as it was. -/
theorem State.raiseFrom_mute (s : State) (b : Block) (src : Nat) (d0 d1 : Word) : (s.raiseFrom b src d0 d1).mute = s.mute := by
  unfold State.raiseFrom
  split
  · rfl
  · rw [State.sendToken_mute, State.setIrq_mute]

/-! The three ways to report an event are one. -/

@[simp] theorem State.raise2_eq (s : State) (src : Nat) (d0 d1 : Word) : s.raise2 src d0 d1 = s.raiseFrom (blockOf src) src d0 d1 := rfl
@[simp] theorem State.raise_eq (s : State) (src : Nat) : s.raise src = s.raiseFrom (blockOf src) src 0 0 := rfl
@[simp] theorem State.raiseAt_eq (s : State) (d : DieIx) (src : Nat) (d0 d1 : Word) : s.raiseAt d src d0 d1 = s.raiseFrom (.die d) src d0 d1 := rfl

/-! Part by part: what a report leaves alone. -/

@[simp] theorem State.raiseFrom_opt (s : State) (b : Block) (src : Nat) (d0 d1 : Word) : (s.raiseFrom b src d0 d1).opt = s.opt :=
  congrArg (·.opt) (s.raiseFrom_mute b src d0 d1)
@[simp] theorem State.raiseFrom_fw (s : State) (b : Block) (src : Nat) (d0 d1 : Word) : (s.raiseFrom b src d0 d1).fw = s.fw :=
  congrArg (·.fw) (s.raiseFrom_mute b src d0 d1)
@[simp] theorem State.raiseFrom_sub (s : State) (b : Block) (src : Nat) (d0 d1 : Word) : (s.raiseFrom b src d0 d1).sub = s.sub :=
  congrArg (·.sub) (s.raiseFrom_mute b src d0 d1)
@[simp] theorem State.raiseFrom_swarm (s : State) (b : Block) (src : Nat) (d0 d1 : Word) : (s.raiseFrom b src d0 d1).swarm = s.swarm :=
  congrArg (·.swarm) (s.raiseFrom_mute b src d0 d1)
@[simp] theorem State.raiseFrom_bridgeUp (s : State) (b : Block) (src : Nat) (d0 d1 : Word) : (s.raiseFrom b src d0 d1).bridgeUp = s.bridgeUp :=
  congrArg (·.bridgeUp) (s.raiseFrom_mute b src d0 d1)
@[simp] theorem State.raiseFrom_pending (s : State) (b : Block) (src : Nat) (d0 d1 : Word) : (s.raiseFrom b src d0 d1).pending = s.pending :=
  congrArg (·.pending) (s.raiseFrom_mute b src d0 d1)
@[simp] theorem State.raiseFrom_free (s : State) (b : Block) (src : Nat) (d0 d1 : Word) : (s.raiseFrom b src d0 d1).free = s.free :=
  congrArg (·.free) (s.raiseFrom_mute b src d0 d1)
@[simp] theorem State.raiseFrom_hu (s : State) (b : Block) (src : Nat) (d0 d1 : Word) : (s.raiseFrom b src d0 d1).keeper.hu = s.keeper.hu :=
  congrArg (·.keeper.hu) (s.raiseFrom_mute b src d0 d1)
@[simp] theorem State.raiseFrom_rescue (s : State) (b : Block) (src : Nat) (d0 d1 : Word) : (s.raiseFrom b src d0 d1).keeper.rescue = s.keeper.rescue :=
  congrArg (·.keeper.rescue) (s.raiseFrom_mute b src d0 d1)
@[simp] theorem State.raiseFrom_tk (s : State) (b : Block) (src : Nat) (d0 d1 : Word) : (s.raiseFrom b src d0 d1).keeper.tk = s.keeper.tk :=
  congrArg (·.keeper.tk) (s.raiseFrom_mute b src d0 d1)
@[simp] theorem State.raiseFrom_boot (s : State) (b : Block) (src : Nat) (d0 d1 : Word) : (s.raiseFrom b src d0 d1).keeper.boot = s.keeper.boot :=
  congrArg (·.keeper.boot) (s.raiseFrom_mute b src d0 d1)
@[simp] theorem State.raiseFrom_prot (s : State) (b : Block) (src : Nat) (d0 d1 : Word) : (s.raiseFrom b src d0 d1).keeper.prot = s.keeper.prot :=
  congrArg (·.keeper.prot) (s.raiseFrom_mute b src d0 d1)
@[simp] theorem State.raiseFrom_ev (s : State) (b : Block) (src : Nat) (d0 d1 : Word) : (s.raiseFrom b src d0 d1).keeper.ev = s.keeper.ev :=
  congrArg (·.keeper.ev) (s.raiseFrom_mute b src d0 d1)
@[simp] theorem State.raiseFrom_mp (s : State) (b : Block) (src : Nat) (d0 d1 : Word) : (s.raiseFrom b src d0 d1).keeper.mp = s.keeper.mp :=
  congrArg (·.keeper.mp) (s.raiseFrom_mute b src d0 d1)
@[simp] theorem State.raiseFrom_fc_pend (s : State) (b : Block) (src : Nat) (d0 d1 : Word) : (s.raiseFrom b src d0 d1).keeper.fc.pend = s.keeper.fc.pend :=
  congrArg (·.keeper.fc.pend) (s.raiseFrom_mute b src d0 d1)
@[simp] theorem State.raiseFrom_fc_latch (s : State) (b : Block) (src : Nat) (d0 d1 : Word) : (s.raiseFrom b src d0 d1).keeper.fc.latch = s.keeper.fc.latch :=
  congrArg (·.keeper.fc.latch) (s.raiseFrom_mute b src d0 d1)
@[simp] theorem State.raiseFrom_fc_shadow (s : State) (b : Block) (src : Nat) (d0 d1 : Word) : (s.raiseFrom b src d0 d1).keeper.fc.shadow = s.keeper.fc.shadow :=
  congrArg (·.keeper.fc.shadow) (s.raiseFrom_mute b src d0 d1)
@[simp] theorem State.raiseFrom_fc_shadowSeq (s : State) (b : Block) (src : Nat) (d0 d1 : Word) : (s.raiseFrom b src d0 d1).keeper.fc.shadowSeq = s.keeper.fc.shadowSeq :=
  congrArg (·.keeper.fc.shadowSeq) (s.raiseFrom_mute b src d0 d1)
@[simp] theorem State.raiseFrom_fc_irq (s : State) (b : Block) (src : Nat) (d0 d1 : Word) : (s.raiseFrom b src d0 d1).keeper.fc.irq = s.keeper.fc.irq :=
  congrArg (·.keeper.fc.irq) (s.raiseFrom_mute b src d0 d1)
@[simp] theorem State.raiseFrom_fc_overflow (s : State) (b : Block) (src : Nat) (d0 d1 : Word) : (s.raiseFrom b src d0 d1).keeper.fc.overflow = s.keeper.fc.overflow :=
  congrArg (·.keeper.fc.overflow) (s.raiseFrom_mute b src d0 d1)
@[simp] theorem State.raiseFrom_fc_second (s : State) (b : Block) (src : Nat) (d0 d1 : Word) : (s.raiseFrom b src d0 d1).keeper.fc.second = s.keeper.fc.second :=
  congrArg (·.keeper.fc.second) (s.raiseFrom_mute b src d0 d1)
@[simp] theorem State.raiseFrom_fc_safe (s : State) (b : Block) (src : Nat) (d0 d1 : Word) : (s.raiseFrom b src d0 d1).keeper.fc.safe = s.keeper.fc.safe :=
  congrArg (·.keeper.fc.safe) (s.raiseFrom_mute b src d0 d1)
@[simp] theorem State.raiseFrom_sup_vinOk (s : State) (b : Block) (src : Nat) (d0 d1 : Word) : (s.raiseFrom b src d0 d1).keeper.sup.vinOk = s.keeper.sup.vinOk :=
  congrArg (·.keeper.sup.vinOk) (s.raiseFrom_mute b src d0 d1)
@[simp] theorem State.raiseFrom_sup_vauxOk (s : State) (b : Block) (src : Nat) (d0 d1 : Word) : (s.raiseFrom b src d0 d1).keeper.sup.vauxOk = s.keeper.sup.vauxOk :=
  congrArg (·.keeper.sup.vauxOk) (s.raiseFrom_mute b src d0 d1)
@[simp] theorem State.raiseFrom_sup_vccqOk (s : State) (b : Block) (src : Nat) (d0 d1 : Word) : (s.raiseFrom b src d0 d1).keeper.sup.vccqOk = s.keeper.sup.vccqOk :=
  congrArg (·.keeper.sup.vccqOk) (s.raiseFrom_mute b src d0 d1)
@[simp] theorem State.raiseFrom_sup_vddqOk (s : State) (b : Block) (src : Nat) (d0 d1 : Word) : (s.raiseFrom b src d0 d1).keeper.sup.vddqOk = s.keeper.sup.vddqOk :=
  congrArg (·.keeper.sup.vddqOk) (s.raiseFrom_mute b src d0 d1)
@[simp] theorem State.raiseFrom_sup_vdd2hOk (s : State) (b : Block) (src : Nat) (d0 d1 : Word) : (s.raiseFrom b src d0 d1).keeper.sup.vdd2hOk = s.keeper.sup.vdd2hOk :=
  congrArg (·.keeper.sup.vdd2hOk) (s.raiseFrom_mute b src d0 d1)
@[simp] theorem State.raiseFrom_sup_vkeep (s : State) (b : Block) (src : Nat) (d0 d1 : Word) : (s.raiseFrom b src d0 d1).keeper.sup.vkeep = s.keeper.sup.vkeep :=
  congrArg (·.keeper.sup.vkeep) (s.raiseFrom_mute b src d0 d1)
@[simp] theorem State.raiseFrom_sup_vio18 (s : State) (b : Block) (src : Nat) (d0 d1 : Word) : (s.raiseFrom b src d0 d1).keeper.sup.vio18 = s.keeper.sup.vio18 :=
  congrArg (·.keeper.sup.vio18) (s.raiseFrom_mute b src d0 d1)
@[simp] theorem State.raiseFrom_sup_vpll (s : State) (b : Block) (src : Nat) (d0 d1 : Word) : (s.raiseFrom b src d0 d1).keeper.sup.vpll = s.keeper.sup.vpll :=
  congrArg (·.keeper.sup.vpll) (s.raiseFrom_mute b src d0 d1)
@[simp] theorem State.raiseFrom_sup_vphy (s : State) (b : Block) (src : Nat) (d0 d1 : Word) : (s.raiseFrom b src d0 d1).keeper.sup.vphy = s.keeper.sup.vphy :=
  congrArg (·.keeper.sup.vphy) (s.raiseFrom_mute b src d0 d1)
@[simp] theorem State.raiseFrom_sup_regulatorFault (s : State) (b : Block) (src : Nat) (d0 d1 : Word) : (s.raiseFrom b src d0 d1).keeper.sup.regulatorFault = s.keeper.sup.regulatorFault :=
  congrArg (·.keeper.sup.regulatorFault) (s.raiseFrom_mute b src d0 d1)
@[simp] theorem State.raiseFrom_sup_state (s : State) (b : Block) (src : Nat) (d0 d1 : Word) : (s.raiseFrom b src d0 d1).keeper.sup.state = s.keeper.sup.state :=
  congrArg (·.keeper.sup.state) (s.raiseFrom_mute b src d0 d1)
@[simp] theorem State.raiseFrom_sup_ps (s : State) (b : Block) (src : Nat) (d0 d1 : Word) : (s.raiseFrom b src d0 d1).keeper.sup.ps = s.keeper.sup.ps :=
  congrArg (·.keeper.sup.ps) (s.raiseFrom_mute b src d0 d1)
@[simp] theorem State.raiseFrom_sup_vcore (s : State) (b : Block) (src : Nat) (d0 d1 : Word) : (s.raiseFrom b src d0 d1).keeper.sup.vcore = s.keeper.sup.vcore :=
  congrArg (·.keeper.sup.vcore) (s.raiseFrom_mute b src d0 d1)
@[simp] theorem State.raiseFrom_sup_vcoreUp (s : State) (b : Block) (src : Nat) (d0 d1 : Word) : (s.raiseFrom b src d0 d1).keeper.sup.vcoreUp = s.keeper.sup.vcoreUp :=
  congrArg (·.keeper.sup.vcoreUp) (s.raiseFrom_mute b src d0 d1)
@[simp] theorem State.raiseFrom_sup_inputMw (s : State) (b : Block) (src : Nat) (d0 d1 : Word) : (s.raiseFrom b src d0 d1).keeper.sup.inputMw = s.keeper.sup.inputMw :=
  congrArg (·.keeper.sup.inputMw) (s.raiseFrom_mute b src d0 d1)
@[simp] theorem State.raiseFrom_sup_capHeld (s : State) (b : Block) (src : Nat) (d0 d1 : Word) : (s.raiseFrom b src d0 d1).keeper.sup.capHeld = s.keeper.sup.capHeld :=
  congrArg (·.keeper.sup.capHeld) (s.raiseFrom_mute b src d0 d1)
@[simp] theorem State.raiseFrom_sup_capSteps (s : State) (b : Block) (src : Nat) (d0 d1 : Word) : (s.raiseFrom b src d0 d1).keeper.sup.capSteps = s.keeper.sup.capSteps :=
  congrArg (·.keeper.sup.capSteps) (s.raiseFrom_mute b src d0 d1)
@[simp] theorem State.raiseFrom_sup_lowMs (s : State) (b : Block) (src : Nat) (d0 d1 : Word) : (s.raiseFrom b src d0 d1).keeper.sup.lowMs = s.keeper.sup.lowMs :=
  congrArg (·.keeper.sup.lowMs) (s.raiseFrom_mute b src d0 d1)
@[simp] theorem State.raiseFrom_sup_warnArmed (s : State) (b : Block) (src : Nat) (d0 d1 : Word) : (s.raiseFrom b src d0 d1).keeper.sup.warnArmed = s.keeper.sup.warnArmed :=
  congrArg (·.keeper.sup.warnArmed) (s.raiseFrom_mute b src d0 d1)
@[simp] theorem State.raiseFrom_sup_warnGood (s : State) (b : Block) (src : Nat) (d0 d1 : Word) : (s.raiseFrom b src d0 d1).keeper.sup.warnGood = s.keeper.sup.warnGood :=
  congrArg (·.keeper.sup.warnGood) (s.raiseFrom_mute b src d0 d1)
@[simp] theorem State.raiseFrom_sup_overArmed (s : State) (b : Block) (src : Nat) (d0 d1 : Word) : (s.raiseFrom b src d0 d1).keeper.sup.overArmed = s.keeper.sup.overArmed :=
  congrArg (·.keeper.sup.overArmed) (s.raiseFrom_mute b src d0 d1)
@[simp] theorem State.raiseFrom_sup_overGood (s : State) (b : Block) (src : Nat) (d0 d1 : Word) : (s.raiseFrom b src d0 d1).keeper.sup.overGood = s.keeper.sup.overGood :=
  congrArg (·.keeper.sup.overGood) (s.raiseFrom_mute b src d0 d1)
@[simp] theorem State.raiseFrom_sup_xtal25 (s : State) (b : Block) (src : Nat) (d0 d1 : Word) : (s.raiseFrom b src d0 d1).keeper.sup.xtal25 = s.keeper.sup.xtal25 :=
  congrArg (·.keeper.sup.xtal25) (s.raiseFrom_mute b src d0 d1)
@[simp] theorem State.raiseFrom_sup_xtal32k (s : State) (b : Block) (src : Nat) (d0 d1 : Word) : (s.raiseFrom b src d0 d1).keeper.sup.xtal32k = s.keeper.sup.xtal32k :=
  congrArg (·.keeper.sup.xtal32k) (s.raiseFrom_mute b src d0 d1)
@[simp] theorem State.raiseFrom_sup_huIso (s : State) (b : Block) (src : Nat) (d0 d1 : Word) : (s.raiseFrom b src d0 d1).keeper.sup.huIso = s.keeper.sup.huIso :=
  congrArg (·.keeper.sup.huIso) (s.raiseFrom_mute b src d0 d1)
@[simp] theorem State.raiseFrom_sup_huChgEn (s : State) (b : Block) (src : Nat) (d0 d1 : Word) : (s.raiseFrom b src d0 d1).keeper.sup.huChgEn = s.keeper.sup.huChgEn :=
  congrArg (·.keeper.sup.huChgEn) (s.raiseFrom_mute b src d0 d1)
@[simp] theorem State.raiseFrom_sup_huTest (s : State) (b : Block) (src : Nat) (d0 d1 : Word) : (s.raiseFrom b src d0 d1).keeper.sup.huTest = s.keeper.sup.huTest :=
  congrArg (·.keeper.sup.huTest) (s.raiseFrom_mute b src d0 d1)
@[simp] theorem State.raiseFrom_sup_adc (s : State) (b : Block) (src : Nat) (d0 d1 : Word) : (s.raiseFrom b src d0 d1).keeper.sup.adc = s.keeper.sup.adc :=
  congrArg (·.keeper.sup.adc) (s.raiseFrom_mute b src d0 d1)
@[simp] theorem State.raiseFrom_store_ready (s : State) (b : Block) (src : Nat) (d0 d1 : Word) : (s.raiseFrom b src d0 d1).store.ready = s.store.ready :=
  congrArg (·.store.ready) (s.raiseFrom_mute b src d0 d1)
@[simp] theorem State.raiseFrom_store_array (s : State) (b : Block) (src : Nat) (d0 d1 : Word) : (s.raiseFrom b src d0 d1).store.array = s.store.array :=
  congrArg (·.store.array) (s.raiseFrom_mute b src d0 d1)
@[simp] theorem State.raiseFrom_store_rows (s : State) (b : Block) (src : Nat) (d0 d1 : Word) : (s.raiseFrom b src d0 d1).store.rows = s.store.rows :=
  congrArg (·.store.rows) (s.raiseFrom_mute b src d0 d1)
@[simp] theorem State.raiseFrom_store_seq (s : State) (b : Block) (src : Nat) (d0 d1 : Word) : (s.raiseFrom b src d0 d1).store.seq = s.store.seq :=
  congrArg (·.store.seq) (s.raiseFrom_mute b src d0 d1)
@[simp] theorem State.raiseFrom_store_waiting (s : State) (b : Block) (src : Nat) (d0 d1 : Word) : (s.raiseFrom b src d0 d1).store.waiting = s.store.waiting :=
  congrArg (·.store.waiting) (s.raiseFrom_mute b src d0 d1)
@[simp] theorem State.raiseFrom_store_prog (s : State) (b : Block) (src : Nat) (d0 d1 : Word) : (s.raiseFrom b src d0 d1).store.prog = s.store.prog :=
  congrArg (·.store.prog) (s.raiseFrom_mute b src d0 d1)
@[simp] theorem State.raiseFrom_store_erase (s : State) (b : Block) (src : Nat) (d0 d1 : Word) : (s.raiseFrom b src d0 d1).store.erase = s.store.erase :=
  congrArg (·.store.erase) (s.raiseFrom_mute b src d0 d1)
@[simp] theorem State.raiseFrom_store_intentPending (s : State) (b : Block) (src : Nat) (d0 d1 : Word) : (s.raiseFrom b src d0 d1).store.intentPending = s.store.intentPending :=
  congrArg (·.store.intentPending) (s.raiseFrom_mute b src d0 d1)
@[simp] theorem State.raiseFrom_store_intentFound (s : State) (b : Block) (src : Nat) (d0 d1 : Word) : (s.raiseFrom b src d0 d1).store.intentFound = s.store.intentFound :=
  congrArg (·.store.intentFound) (s.raiseFrom_mute b src d0 d1)
@[simp] theorem State.raiseFrom_store_margin (s : State) (b : Block) (src : Nat) (d0 d1 : Word) : (s.raiseFrom b src d0 d1).store.margin = s.store.margin :=
  congrArg (·.store.margin) (s.raiseFrom_mute b src d0 d1)
@[simp] theorem State.raiseFrom_store_lastRead (s : State) (b : Block) (src : Nat) (d0 d1 : Word) : (s.raiseFrom b src d0 d1).store.lastRead = s.store.lastRead :=
  congrArg (·.store.lastRead) (s.raiseFrom_mute b src d0 d1)
@[simp] theorem State.raiseFrom_store_hashPort (s : State) (b : Block) (src : Nat) (d0 d1 : Word) : (s.raiseFrom b src d0 d1).store.hashPort = s.store.hashPort :=
  congrArg (·.store.hashPort) (s.raiseFrom_mute b src d0 d1)
@[simp] theorem State.raiseFrom_store_readWaits (s : State) (b : Block) (src : Nat) (d0 d1 : Word) : (s.raiseFrom b src d0 d1).store.readWaits = s.store.readWaits :=
  congrArg (·.store.readWaits) (s.raiseFrom_mute b src d0 d1)
@[simp] theorem State.raiseFrom_store_cmdCode (s : State) (b : Block) (src : Nat) (d0 d1 : Word) : (s.raiseFrom b src d0 d1).store.cmdCode = s.store.cmdCode :=
  congrArg (·.store.cmdCode) (s.raiseFrom_mute b src d0 d1)
@[simp] theorem State.raiseFrom_store_cmdResult (s : State) (b : Block) (src : Nat) (d0 d1 : Word) : (s.raiseFrom b src d0 d1).store.cmdResult = s.store.cmdResult :=
  congrArg (·.store.cmdResult) (s.raiseFrom_mute b src d0 d1)
@[simp] theorem State.raiseFrom_store_cmdSector (s : State) (b : Block) (src : Nat) (d0 d1 : Word) : (s.raiseFrom b src d0 d1).store.cmdSector = s.store.cmdSector :=
  congrArg (·.store.cmdSector) (s.raiseFrom_mute b src d0 d1)
@[simp] theorem State.raiseFrom_store_cmdRequester (s : State) (b : Block) (src : Nat) (d0 d1 : Word) : (s.raiseFrom b src d0 d1).store.cmdRequester = s.store.cmdRequester :=
  congrArg (·.store.cmdRequester) (s.raiseFrom_mute b src d0 d1)
@[simp] theorem State.raiseFrom_store_cmdCount (s : State) (b : Block) (src : Nat) (d0 d1 : Word) : (s.raiseFrom b src d0 d1).store.cmdCount = s.store.cmdCount :=
  congrArg (·.store.cmdCount) (s.raiseFrom_mute b src d0 d1)
@[simp] theorem State.raiseFrom_store_result (s : State) (b : Block) (src : Nat) (d0 d1 : Word) : (s.raiseFrom b src d0 d1).store.result = s.store.result :=
  congrArg (·.store.result) (s.raiseFrom_mute b src d0 d1)
@[simp] theorem State.raiseFrom_store_faultCause (s : State) (b : Block) (src : Nat) (d0 d1 : Word) : (s.raiseFrom b src d0 d1).store.faultCause = s.store.faultCause :=
  congrArg (·.store.faultCause) (s.raiseFrom_mute b src d0 d1)
@[simp] theorem State.raiseFrom_store_faultSector (s : State) (b : Block) (src : Nat) (d0 d1 : Word) : (s.raiseFrom b src d0 d1).store.faultSector = s.store.faultSector :=
  congrArg (·.store.faultSector) (s.raiseFrom_mute b src d0 d1)
@[simp] theorem State.raiseFrom_store_faultCount (s : State) (b : Block) (src : Nat) (d0 d1 : Word) : (s.raiseFrom b src d0 d1).store.faultCount = s.store.faultCount :=
  congrArg (·.store.faultCount) (s.raiseFrom_mute b src d0 d1)
@[simp] theorem State.raiseFrom_store_ckptHead (s : State) (b : Block) (src : Nat) (d0 d1 : Word) : (s.raiseFrom b src d0 d1).store.ckptHead = s.store.ckptHead :=
  congrArg (·.store.ckptHead) (s.raiseFrom_mute b src d0 d1)
@[simp] theorem State.raiseFrom_store_ckptTail (s : State) (b : Block) (src : Nat) (d0 d1 : Word) : (s.raiseFrom b src d0 d1).store.ckptTail = s.store.ckptTail :=
  congrArg (·.store.ckptTail) (s.raiseFrom_mute b src d0 d1)
@[simp] theorem State.raiseFrom_store_ckptErased (s : State) (b : Block) (src : Nat) (d0 d1 : Word) : (s.raiseFrom b src d0 d1).store.ckptErased = s.store.ckptErased :=
  congrArg (·.store.ckptErased) (s.raiseFrom_mute b src d0 d1)
@[simp] theorem State.raiseFrom_store_wseq (s : State) (b : Block) (src : Nat) (d0 d1 : Word) : (s.raiseFrom b src d0 d1).store.wseq = s.store.wseq :=
  congrArg (·.store.wseq) (s.raiseFrom_mute b src d0 d1)
@[simp] theorem State.raiseFrom_store_index (s : State) (b : Block) (src : Nat) (d0 d1 : Word) : (s.raiseFrom b src d0 d1).store.index = s.store.index :=
  congrArg (·.store.index) (s.raiseFrom_mute b src d0 d1)
@[simp] theorem State.raiseFrom_store_protCopies (s : State) (b : Block) (src : Nat) (d0 d1 : Word) : (s.raiseFrom b src d0 d1).store.protCopies = s.store.protCopies :=
  congrArg (·.store.protCopies) (s.raiseFrom_mute b src d0 d1)
theorem State.raiseFrom_dies (s : State) (b : Block) (src : Nat) (d0 d1 : Word) (i : Nat) (h : i < 2) :
    (s.raiseFrom b src d0 d1).dies[i].mute = s.dies[i].mute := by
  simpa [State.mute] using congrArg (fun t : State => t.dies[i]) (s.raiseFrom_mute b src d0 d1)
@[simp] theorem State.raiseFrom_dies_host (s : State) (b : Block) (src : Nat) (d0 d1 : Word) (i : Nat) (h : i < 2) :
    (s.raiseFrom b src d0 d1).dies[i].host = s.dies[i].host := congrArg (·.host) (s.raiseFrom_dies b src d0 d1 i h)
@[simp] theorem State.raiseFrom_dies_pool (s : State) (b : Block) (src : Nat) (d0 d1 : Word) (i : Nat) (h : i < 2) :
    (s.raiseFrom b src d0 d1).dies[i].pool = s.dies[i].pool := congrArg (·.pool) (s.raiseFrom_dies b src d0 d1 i h)
@[simp] theorem State.raiseFrom_dies_mem (s : State) (b : Block) (src : Nat) (d0 d1 : Word) (i : Nat) (h : i < 2) :
    (s.raiseFrom b src d0 d1).dies[i].mem = s.dies[i].mem := congrArg (·.mem) (s.raiseFrom_dies b src d0 d1 i h)
@[simp] theorem State.raiseFrom_dies_cipher (s : State) (b : Block) (src : Nat) (d0 d1 : Word) (i : Nat) (h : i < 2) :
    (s.raiseFrom b src d0 d1).dies[i].cipher = s.dies[i].cipher := congrArg (·.cipher) (s.raiseFrom_dies b src d0 d1 i h)
@[simp] theorem State.raiseFrom_dies_common_inService (s : State) (b : Block) (src : Nat) (d0 d1 : Word) (i : Nat) (h : i < 2) :
    (s.raiseFrom b src d0 d1).dies[i].common.inService = s.dies[i].common.inService := congrArg (·.common.inService) (s.raiseFrom_dies b src d0 d1 i h)
@[simp] theorem State.raiseFrom_dies_common_inReset (s : State) (b : Block) (src : Nat) (d0 d1 : Word) (i : Nat) (h : i < 2) :
    (s.raiseFrom b src d0 d1).dies[i].common.inReset = s.dies[i].common.inReset := congrArg (·.common.inReset) (s.raiseFrom_dies b src d0 d1 i h)
@[simp] theorem State.raiseFrom_dies_common_outOfService (s : State) (b : Block) (src : Nat) (d0 d1 : Word) (i : Nat) (h : i < 2) :
    (s.raiseFrom b src d0 d1).dies[i].common.outOfService = s.dies[i].common.outOfService := congrArg (·.common.outOfService) (s.raiseFrom_dies b src d0 d1 i h)
@[simp] theorem State.raiseFrom_dies_common_tokensPaused (s : State) (b : Block) (src : Nat) (d0 d1 : Word) (i : Nat) (h : i < 2) :
    (s.raiseFrom b src d0 d1).dies[i].common.tokensPaused = s.dies[i].common.tokensPaused := congrArg (·.common.tokensPaused) (s.raiseFrom_dies b src d0 d1 i h)
@[simp] theorem State.raiseFrom_dies_common_vcoreBad (s : State) (b : Block) (src : Nat) (d0 d1 : Word) (i : Nat) (h : i < 2) :
    (s.raiseFrom b src d0 d1).dies[i].common.vcoreBad = s.dies[i].common.vcoreBad := congrArg (·.common.vcoreBad) (s.raiseFrom_dies b src d0 d1 i h)
@[simp] theorem State.raiseFrom_dies_common_temp (s : State) (b : Block) (src : Nat) (d0 d1 : Word) (i : Nat) (h : i < 2) :
    (s.raiseFrom b src d0 d1).dies[i].common.temp = s.dies[i].common.temp := congrArg (·.common.temp) (s.raiseFrom_dies b src d0 d1 i h)
@[simp] theorem State.raiseFrom_dies_common_tempMax (s : State) (b : Block) (src : Nat) (d0 d1 : Word) (i : Nat) (h : i < 2) :
    (s.raiseFrom b src d0 d1).dies[i].common.tempMax = s.dies[i].common.tempMax := congrArg (·.common.tempMax) (s.raiseFrom_dies b src d0 d1 i h)
@[simp] theorem State.raiseFrom_dies_common_warned (s : State) (b : Block) (src : Nat) (d0 d1 : Word) (i : Nat) (h : i < 2) :
    (s.raiseFrom b src d0 d1).dies[i].common.warned = s.dies[i].common.warned := congrArg (·.common.warned) (s.raiseFrom_dies b src d0 d1 i h)
@[simp] theorem State.raiseFrom_dies_common_critical (s : State) (b : Block) (src : Nat) (d0 d1 : Word) (i : Nat) (h : i < 2) :
    (s.raiseFrom b src d0 d1).dies[i].common.critical = s.dies[i].common.critical := congrArg (·.common.critical) (s.raiseFrom_dies b src d0 d1 i h)
@[simp] theorem State.raiseFrom_dies_common_vcoreMeas (s : State) (b : Block) (src : Nat) (d0 d1 : Word) (i : Nat) (h : i < 2) :
    (s.raiseFrom b src d0 d1).dies[i].common.vcoreMeas = s.dies[i].common.vcoreMeas := congrArg (·.common.vcoreMeas) (s.raiseFrom_dies b src d0 d1 i h)
@[simp] theorem State.raiseFrom_dies_common_shadows (s : State) (b : Block) (src : Nat) (d0 d1 : Word) (i : Nat) (h : i < 2) :
    (s.raiseFrom b src d0 d1).dies[i].common.shadows = s.dies[i].common.shadows := congrArg (·.common.shadows) (s.raiseFrom_dies b src d0 d1 i h)
@[simp] theorem State.raiseFrom_dies_common_usec (s : State) (b : Block) (src : Nat) (d0 d1 : Word) (i : Nat) (h : i < 2) :
    (s.raiseFrom b src d0 d1).dies[i].common.usec = s.dies[i].common.usec := congrArg (·.common.usec) (s.raiseFrom_dies b src d0 d1 i h)
@[simp] theorem State.raiseFrom_dies_common_tick (s : State) (b : Block) (src : Nat) (d0 d1 : Word) (i : Nat) (h : i < 2) :
    (s.raiseFrom b src d0 d1).dies[i].common.tick = s.dies[i].common.tick := congrArg (·.common.tick) (s.raiseFrom_dies b src d0 d1 i h)
@[simp] theorem State.raiseFrom_dies_common_bridge (s : State) (b : Block) (src : Nat) (d0 d1 : Word) (i : Nat) (h : i < 2) :
    (s.raiseFrom b src d0 d1).dies[i].common.bridge = s.dies[i].common.bridge := congrArg (·.common.bridge) (s.raiseFrom_dies b src d0 d1 i h)
@[simp] theorem State.raiseFrom_dies_common_pcie (s : State) (b : Block) (src : Nat) (d0 d1 : Word) (i : Nat) (h : i < 2) :
    (s.raiseFrom b src d0 d1).dies[i].common.pcie = s.dies[i].common.pcie := congrArg (·.common.pcie) (s.raiseFrom_dies b src d0 d1 i h)
@[simp] theorem State.raiseFrom_dies_common_lpddr (s : State) (b : Block) (src : Nat) (d0 d1 : Word) (i : Nat) (h : i < 2) :
    (s.raiseFrom b src d0 d1).dies[i].common.lpddr = s.dies[i].common.lpddr := congrArg (·.common.lpddr) (s.raiseFrom_dies b src d0 d1 i h)
@[simp] theorem State.raiseFrom_dies_common_swarmX (s : State) (b : Block) (src : Nat) (d0 d1 : Word) (i : Nat) (h : i < 2) :
    (s.raiseFrom b src d0 d1).dies[i].common.swarmX = s.dies[i].common.swarmX := congrArg (·.common.swarmX) (s.raiseFrom_dies b src d0 d1 i h)
@[simp] theorem State.raiseFrom_dies_common_coreDog (s : State) (b : Block) (src : Nat) (d0 d1 : Word) (i : Nat) (h : i < 2) :
    (s.raiseFrom b src d0 d1).dies[i].common.coreDog = s.dies[i].common.coreDog := congrArg (·.common.coreDog) (s.raiseFrom_dies b src d0 d1 i h)
@[simp] theorem State.raiseFrom_dies_common_regionDog (s : State) (b : Block) (src : Nat) (d0 d1 : Word) (i : Nat) (h : i < 2) :
    (s.raiseFrom b src d0 d1).dies[i].common.regionDog = s.dies[i].common.regionDog := congrArg (·.common.regionDog) (s.raiseFrom_dies b src d0 d1 i h)
@[simp] theorem State.raiseFrom_dies_common_coreUp (s : State) (b : Block) (src : Nat) (d0 d1 : Word) (i : Nat) (h : i < 2) :
    (s.raiseFrom b src d0 d1).dies[i].common.coreUp = s.dies[i].common.coreUp := congrArg (·.common.coreUp) (s.raiseFrom_dies b src d0 d1 i h)
theorem State.raiseFrom_regions (s : State) (b : Block) (src : Nat) (d0 d1 : Word) (i : Nat) (h : i < 4) :
    (s.raiseFrom b src d0 d1).regions[i].mute = s.regions[i].mute := by
  simpa [State.mute] using congrArg (fun t : State => t.regions[i]) (s.raiseFrom_mute b src d0 d1)
@[simp] theorem State.raiseFrom_regions_inService (s : State) (b : Block) (src : Nat) (d0 d1 : Word) (i : Nat) (h : i < 4) :
    (s.raiseFrom b src d0 d1).regions[i].inService = s.regions[i].inService := congrArg (·.inService) (s.raiseFrom_regions b src d0 d1 i h)
@[simp] theorem State.raiseFrom_regions_coreUp (s : State) (b : Block) (src : Nat) (d0 d1 : Word) (i : Nat) (h : i < 4) :
    (s.raiseFrom b src d0 d1).regions[i].coreUp = s.regions[i].coreUp := congrArg (·.coreUp) (s.raiseFrom_regions b src d0 d1 i h)
@[simp] theorem State.raiseFrom_regions_restoring (s : State) (b : Block) (src : Nat) (d0 d1 : Word) (i : Nat) (h : i < 4) :
    (s.raiseFrom b src d0 d1).regions[i].restoring = s.regions[i].restoring := congrArg (·.restoring) (s.raiseFrom_regions b src d0 d1 i h)
@[simp] theorem State.raiseFrom_regions_tab (s : State) (b : Block) (src : Nat) (d0 d1 : Word) (i : Nat) (h : i < 4) :
    (s.raiseFrom b src d0 d1).regions[i].tab = s.regions[i].tab := congrArg (·.tab) (s.raiseFrom_regions b src d0 d1 i h)
@[simp] theorem State.raiseFrom_regions_map (s : State) (b : Block) (src : Nat) (d0 d1 : Word) (i : Nat) (h : i < 4) :
    (s.raiseFrom b src d0 d1).regions[i].map = s.regions[i].map := congrArg (·.map) (s.raiseFrom_regions b src d0 d1 i h)
@[simp] theorem State.raiseFrom_regions_overlay (s : State) (b : Block) (src : Nat) (d0 d1 : Word) (i : Nat) (h : i < 4) :
    (s.raiseFrom b src d0 d1).regions[i].overlay = s.regions[i].overlay := congrArg (·.overlay) (s.raiseFrom_regions b src d0 d1 i h)
@[simp] theorem State.raiseFrom_regions_adopting (s : State) (b : Block) (src : Nat) (d0 d1 : Word) (i : Nat) (h : i < 4) :
    (s.raiseFrom b src d0 d1).regions[i].adopting = s.regions[i].adopting := congrArg (·.adopting) (s.raiseFrom_regions b src d0 d1 i h)
@[simp] theorem State.raiseFrom_regions_resident (s : State) (b : Block) (src : Nat) (d0 d1 : Word) (i : Nat) (h : i < 4) :
    (s.raiseFrom b src d0 d1).regions[i].resident = s.regions[i].resident := congrArg (·.resident) (s.raiseFrom_regions b src d0 d1 i h)
@[simp] theorem State.raiseFrom_regions_adoptedSegs (s : State) (b : Block) (src : Nat) (d0 d1 : Word) (i : Nat) (h : i < 4) :
    (s.raiseFrom b src d0 d1).regions[i].adoptedSegs = s.regions[i].adoptedSegs := congrArg (·.adoptedSegs) (s.raiseFrom_regions b src d0 d1 i h)
@[simp] theorem State.raiseFrom_regions_pend (s : State) (b : Block) (src : Nat) (d0 d1 : Word) (i : Nat) (h : i < 4) :
    (s.raiseFrom b src d0 d1).regions[i].pend = s.regions[i].pend := congrArg (·.pend) (s.raiseFrom_regions b src d0 d1 i h)
@[simp] theorem State.raiseFrom_regions_rescued (s : State) (b : Block) (src : Nat) (d0 d1 : Word) (i : Nat) (h : i < 4) :
    (s.raiseFrom b src d0 d1).regions[i].rescued = s.regions[i].rescued := congrArg (·.rescued) (s.raiseFrom_regions b src d0 d1 i h)
@[simp] theorem State.raiseFrom_regions_journal (s : State) (b : Block) (src : Nat) (d0 d1 : Word) (i : Nat) (h : i < 4) :
    (s.raiseFrom b src d0 d1).regions[i].journal = s.regions[i].journal := congrArg (·.journal) (s.raiseFrom_regions b src d0 d1 i h)
@[simp] theorem State.raiseFrom_regions_images (s : State) (b : Block) (src : Nat) (d0 d1 : Word) (i : Nat) (h : i < 4) :
    (s.raiseFrom b src d0 d1).regions[i].images = s.regions[i].images := congrArg (·.images) (s.raiseFrom_regions b src d0 d1 i h)
@[simp] theorem State.raiseFrom_regions_ckptSeq (s : State) (b : Block) (src : Nat) (d0 d1 : Word) (i : Nat) (h : i < 4) :
    (s.raiseFrom b src d0 d1).regions[i].ckptSeq = s.regions[i].ckptSeq := congrArg (·.ckptSeq) (s.raiseFrom_regions b src d0 d1 i h)
@[simp] theorem State.raiseFrom_regions_nextImage (s : State) (b : Block) (src : Nat) (d0 d1 : Word) (i : Nat) (h : i < 4) :
    (s.raiseFrom b src d0 d1).regions[i].nextImage = s.regions[i].nextImage := congrArg (·.nextImage) (s.raiseFrom_regions b src d0 d1 i h)
@[simp] theorem State.raiseFrom_regions_lookups (s : State) (b : Block) (src : Nat) (d0 d1 : Word) (i : Nat) (h : i < 4) :
    (s.raiseFrom b src d0 d1).regions[i].lookups = s.regions[i].lookups := congrArg (·.lookups) (s.raiseFrom_regions b src d0 d1 i h)
@[simp] theorem State.raiseFrom_regions_lookupWaiting (s : State) (b : Block) (src : Nat) (d0 d1 : Word) (i : Nat) (h : i < 4) :
    (s.raiseFrom b src d0 d1).regions[i].lookupWaiting = s.regions[i].lookupWaiting := congrArg (·.lookupWaiting) (s.raiseFrom_regions b src d0 d1 i h)
@[simp] theorem State.raiseFrom_regions_foldBand (s : State) (b : Block) (src : Nat) (d0 d1 : Word) (i : Nat) (h : i < 4) :
    (s.raiseFrom b src d0 d1).regions[i].foldBand = s.regions[i].foldBand := congrArg (·.foldBand) (s.raiseFrom_regions b src d0 d1 i h)
@[simp] theorem State.raiseFrom_regions_folding (s : State) (b : Block) (src : Nat) (d0 d1 : Word) (i : Nat) (h : i < 4) :
    (s.raiseFrom b src d0 d1).regions[i].folding = s.regions[i].folding := congrArg (·.folding) (s.raiseFrom_regions b src d0 d1 i h)
@[simp] theorem State.raiseFrom_regions_stagingStopped (s : State) (b : Block) (src : Nat) (d0 d1 : Word) (i : Nat) (h : i < 4) :
    (s.raiseFrom b src d0 d1).regions[i].stagingStopped = s.regions[i].stagingStopped := congrArg (·.stagingStopped) (s.raiseFrom_regions b src d0 d1 i h)
@[simp] theorem State.raiseFrom_regions_slots (s : State) (b : Block) (src : Nat) (d0 d1 : Word) (i : Nat) (h : i < 4) :
    (s.raiseFrom b src d0 d1).regions[i].slots = s.regions[i].slots := congrArg (·.slots) (s.raiseFrom_regions b src d0 d1 i h)
@[simp] theorem State.raiseFrom_regions_copies (s : State) (b : Block) (src : Nat) (d0 d1 : Word) (i : Nat) (h : i < 4) :
    (s.raiseFrom b src d0 d1).regions[i].copies = s.regions[i].copies := congrArg (·.copies) (s.raiseFrom_regions b src d0 d1 i h)
@[simp] theorem State.raiseFrom_regions_wearOver (s : State) (b : Block) (src : Nat) (d0 d1 : Word) (i : Nat) (h : i < 4) :
    (s.raiseFrom b src d0 d1).regions[i].wearOver = s.regions[i].wearOver := congrArg (·.wearOver) (s.raiseFrom_regions b src d0 d1 i h)
@[simp] theorem State.raiseFrom_regions_freeLow (s : State) (b : Block) (src : Nat) (d0 d1 : Word) (i : Nat) (h : i < 4) :
    (s.raiseFrom b src d0 d1).regions[i].freeLow = s.regions[i].freeLow := congrArg (·.freeLow) (s.raiseFrom_regions b src d0 d1 i h)
@[simp] theorem State.raiseFrom_regions_foldStopped (s : State) (b : Block) (src : Nat) (d0 d1 : Word) (i : Nat) (h : i < 4) :
    (s.raiseFrom b src d0 d1).regions[i].foldStopped = s.regions[i].foldStopped := congrArg (·.foldStopped) (s.raiseFrom_regions b src d0 d1 i h)
@[simp] theorem State.raiseFrom_regions_watch (s : State) (b : Block) (src : Nat) (d0 d1 : Word) (i : Nat) (h : i < 4) :
    (s.raiseFrom b src d0 d1).regions[i].watch = s.regions[i].watch := congrArg (·.watch) (s.raiseFrom_regions b src d0 d1 i h)
@[simp] theorem State.raiseFrom_regions_relocNow (s : State) (b : Block) (src : Nat) (d0 d1 : Word) (i : Nat) (h : i < 4) :
    (s.raiseFrom b src d0 d1).regions[i].relocNow = s.regions[i].relocNow := congrArg (·.relocNow) (s.raiseFrom_regions b src d0 d1 i h)
@[simp] theorem State.raiseFrom_regions_darkGrans (s : State) (b : Block) (src : Nat) (d0 d1 : Word) (i : Nat) (h : i < 4) :
    (s.raiseFrom b src d0 d1).regions[i].darkGrans = s.regions[i].darkGrans := congrArg (·.darkGrans) (s.raiseFrom_regions b src d0 d1 i h)
@[simp] theorem State.raiseFrom_regions_antWaiting (s : State) (b : Block) (src : Nat) (d0 d1 : Word) (i : Nat) (h : i < 4) :
    (s.raiseFrom b src d0 d1).regions[i].antWaiting = s.regions[i].antWaiting := congrArg (·.antWaiting) (s.raiseFrom_regions b src d0 d1 i h)
@[simp] theorem State.raiseFrom_regions_patrols (s : State) (b : Block) (src : Nat) (d0 d1 : Word) (i : Nat) (h : i < 4) :
    (s.raiseFrom b src d0 d1).regions[i].patrols = s.regions[i].patrols := congrArg (·.patrols) (s.raiseFrom_regions b src d0 d1 i h)
@[simp] theorem State.raiseFrom_regions_sealSeq (s : State) (b : Block) (src : Nat) (d0 d1 : Word) (i : Nat) (h : i < 4) :
    (s.raiseFrom b src d0 d1).regions[i].sealSeq = s.regions[i].sealSeq := congrArg (·.sealSeq) (s.raiseFrom_regions b src d0 d1 i h)
@[simp] theorem State.raiseFrom_regions_lunTimeouts (s : State) (b : Block) (src : Nat) (d0 d1 : Word) (i : Nat) (h : i < 4) :
    (s.raiseFrom b src d0 d1).regions[i].lunTimeouts = s.regions[i].lunTimeouts := congrArg (·.lunTimeouts) (s.raiseFrom_regions b src d0 d1 i h)
@[simp] theorem State.raiseFrom_regions_lunStep4 (s : State) (b : Block) (src : Nat) (d0 d1 : Word) (i : Nat) (h : i < 4) :
    (s.raiseFrom b src d0 d1).regions[i].lunStep4 = s.regions[i].lunStep4 := congrArg (·.lunStep4) (s.raiseFrom_regions b src d0 d1 i h)
@[simp] theorem State.raiseFrom_regions_resync (s : State) (b : Block) (src : Nat) (d0 d1 : Word) (i : Nat) (h : i < 4) :
    (s.raiseFrom b src d0 d1).regions[i].resync = s.regions[i].resync := congrArg (·.resync) (s.raiseFrom_regions b src d0 d1 i h)
@[simp] theorem State.raiseFrom_regions_lostSegs (s : State) (b : Block) (src : Nat) (d0 d1 : Word) (i : Nat) (h : i < 4) :
    (s.raiseFrom b src d0 d1).regions[i].lostSegs = s.regions[i].lostSegs := congrArg (·.lostSegs) (s.raiseFrom_regions b src d0 d1 i h)
@[simp] theorem State.raiseFrom_regions_integrity (s : State) (b : Block) (src : Nat) (d0 d1 : Word) (i : Nat) (h : i < 4) :
    (s.raiseFrom b src d0 d1).regions[i].integrity = s.regions[i].integrity := congrArg (·.integrity) (s.raiseFrom_regions b src d0 d1 i h)
@[simp] theorem State.raiseFrom_regions_repaired (s : State) (b : Block) (src : Nat) (d0 d1 : Word) (i : Nat) (h : i < 4) :
    (s.raiseFrom b src d0 d1).regions[i].repaired = s.regions[i].repaired := congrArg (·.repaired) (s.raiseFrom_regions b src d0 d1 i h)
@[simp] theorem State.raiseFrom_regions_poisonedCnt (s : State) (b : Block) (src : Nat) (d0 d1 : Word) (i : Nat) (h : i < 4) :
    (s.raiseFrom b src d0 d1).regions[i].poisonedCnt = s.regions[i].poisonedCnt := congrArg (·.poisonedCnt) (s.raiseFrom_regions b src d0 d1 i h)
@[simp] theorem State.raiseFrom_regions_queryLo (s : State) (b : Block) (src : Nat) (d0 d1 : Word) (i : Nat) (h : i < 4) :
    (s.raiseFrom b src d0 d1).regions[i].queryLo = s.regions[i].queryLo := congrArg (·.queryLo) (s.raiseFrom_regions b src d0 d1 i h)
@[simp] theorem State.raiseFrom_regions_queryHi (s : State) (b : Block) (src : Nat) (d0 d1 : Word) (i : Nat) (h : i < 4) :
    (s.raiseFrom b src d0 d1).regions[i].queryHi = s.regions[i].queryHi := congrArg (·.queryHi) (s.raiseFrom_regions b src d0 d1 i h)
@[simp] theorem State.raiseFrom_regions_result (s : State) (b : Block) (src : Nat) (d0 d1 : Word) (i : Nat) (h : i < 4) :
    (s.raiseFrom b src d0 d1).regions[i].result = s.regions[i].result := congrArg (·.result) (s.raiseFrom_regions b src d0 d1 i h)
theorem State.raiseFrom_clusters (s : State) (b : Block) (src : Nat) (d0 d1 : Word) (i : Nat) (h : i < 12) :
    (s.raiseFrom b src d0 d1).clusters[i].mute = s.clusters[i].mute := by
  simpa [State.mute] using congrArg (fun t : State => t.clusters[i]) (s.raiseFrom_mute b src d0 d1)
@[simp] theorem State.raiseFrom_clusters_inService (s : State) (b : Block) (src : Nat) (d0 d1 : Word) (i : Nat) (h : i < 12) :
    (s.raiseFrom b src d0 d1).clusters[i].inService = s.clusters[i].inService := congrArg (·.inService) (s.raiseFrom_clusters b src d0 d1 i h)
@[simp] theorem State.raiseFrom_clusters_engines (s : State) (b : Block) (src : Nat) (d0 d1 : Word) (i : Nat) (h : i < 12) :
    (s.raiseFrom b src d0 d1).clusters[i].engines = s.clusters[i].engines := congrArg (·.engines) (s.raiseFrom_clusters b src d0 d1 i h)
@[simp] theorem State.raiseFrom_clusters_faults (s : State) (b : Block) (src : Nat) (d0 d1 : Word) (i : Nat) (h : i < 12) :
    (s.raiseFrom b src d0 d1).clusters[i].faults = s.clusters[i].faults := congrArg (·.faults) (s.raiseFrom_clusters b src d0 d1 i h)
@[simp] theorem State.raiseFrom_clusters_queue (s : State) (b : Block) (src : Nat) (d0 d1 : Word) (i : Nat) (h : i < 12) :
    (s.raiseFrom b src d0 d1).clusters[i].queue = s.clusters[i].queue := congrArg (·.queue) (s.raiseFrom_clusters b src d0 d1 i h)
@[simp] theorem State.raiseFrom_clusters_climbs (s : State) (b : Block) (src : Nat) (d0 d1 : Word) (i : Nat) (h : i < 12) :
    (s.raiseFrom b src d0 d1).clusters[i].climbs = s.clusters[i].climbs := congrArg (·.climbs) (s.raiseFrom_clusters b src d0 d1 i h)
@[simp] theorem State.raiseFrom_clusters_results (s : State) (b : Block) (src : Nat) (d0 d1 : Word) (i : Nat) (h : i < 12) :
    (s.raiseFrom b src d0 d1).clusters[i].results = s.clusters[i].results := congrArg (·.results) (s.raiseFrom_clusters b src d0 d1 i h)
@[simp] theorem State.raiseFrom_clusters_antenna (s : State) (b : Block) (src : Nat) (d0 d1 : Word) (i : Nat) (h : i < 12) :
    (s.raiseFrom b src d0 d1).clusters[i].antenna = s.clusters[i].antenna := congrArg (·.antenna) (s.raiseFrom_clusters b src d0 d1 i h)
@[simp] theorem State.raiseFrom_clusters_antPending (s : State) (b : Block) (src : Nat) (d0 d1 : Word) (i : Nat) (h : i < 12) :
    (s.raiseFrom b src d0 d1).clusters[i].antPending = s.clusters[i].antPending := congrArg (·.antPending) (s.raiseFrom_clusters b src d0 d1 i h)
@[simp] theorem State.raiseFrom_clusters_stepCnt (s : State) (b : Block) (src : Nat) (d0 d1 : Word) (i : Nat) (h : i < 12) :
    (s.raiseFrom b src d0 d1).clusters[i].stepCnt = s.clusters[i].stepCnt := congrArg (·.stepCnt) (s.raiseFrom_clusters b src d0 d1 i h)
@[simp] theorem State.raiseFrom_clusters_crcCnt (s : State) (b : Block) (src : Nat) (d0 d1 : Word) (i : Nat) (h : i < 12) :
    (s.raiseFrom b src d0 d1).clusters[i].crcCnt = s.clusters[i].crcCnt := congrArg (·.crcCnt) (s.raiseFrom_clusters b src d0 d1 i h)
@[simp] theorem State.raiseFrom_clusters_accCorrected (s : State) (b : Block) (src : Nat) (d0 d1 : Word) (i : Nat) (h : i < 12) :
    (s.raiseFrom b src d0 d1).clusters[i].accCorrected = s.clusters[i].accCorrected := congrArg (·.accCorrected) (s.raiseFrom_clusters b src d0 d1 i h)
@[simp] theorem State.raiseFrom_clusters_accUncorr (s : State) (b : Block) (src : Nat) (d0 d1 : Word) (i : Nat) (h : i < 12) :
    (s.raiseFrom b src d0 d1).clusters[i].accUncorr = s.clusters[i].accUncorr := congrArg (·.accUncorr) (s.raiseFrom_clusters b src d0 d1 i h)
@[simp] theorem State.raiseFrom_clusters_accRows (s : State) (b : Block) (src : Nat) (d0 d1 : Word) (i : Nat) (h : i < 12) :
    (s.raiseFrom b src d0 d1).clusters[i].accRows = s.clusters[i].accRows := congrArg (·.accRows) (s.raiseFrom_clusters b src d0 d1 i h)
@[simp] theorem State.raiseFrom_clusters_accRebuild (s : State) (b : Block) (src : Nat) (d0 d1 : Word) (i : Nat) (h : i < 12) :
    (s.raiseFrom b src d0 d1).clusters[i].accRebuild = s.clusters[i].accRebuild := congrArg (·.accRebuild) (s.raiseFrom_clusters b src d0 d1 i h)
@[simp] theorem State.raiseFrom_clusters_decFault (s : State) (b : Block) (src : Nat) (d0 d1 : Word) (i : Nat) (h : i < 12) :
    (s.raiseFrom b src d0 d1).clusters[i].decFault = s.clusters[i].decFault := congrArg (·.decFault) (s.raiseFrom_clusters b src d0 d1 i h)
@[simp] theorem State.raiseFrom_clusters_decFaultCount (s : State) (b : Block) (src : Nat) (d0 d1 : Word) (i : Nat) (h : i < 12) :
    (s.raiseFrom b src d0 d1).clusters[i].decFaultCount = s.clusters[i].decFaultCount := congrArg (·.decFaultCount) (s.raiseFrom_clusters b src d0 d1 i h)
theorem State.raiseFrom_lanes (s : State) (b : Block) (src : Nat) (d0 d1 : Word) (i : Nat) (h : i < 24) :
    (s.raiseFrom b src d0 d1).lanes[i].mute = s.lanes[i].mute := by
  simpa [State.mute] using congrArg (fun t : State => t.lanes[i]) (s.raiseFrom_mute b src d0 d1)
@[simp] theorem State.raiseFrom_lanes_crossing (s : State) (b : Block) (src : Nat) (d0 d1 : Word) (i : Nat) (h : i < 24) :
    (s.raiseFrom b src d0 d1).lanes[i].crossing = s.lanes[i].crossing := congrArg (·.crossing) (s.raiseFrom_lanes b src d0 d1 i h)
@[simp] theorem State.raiseFrom_lanes_queue (s : State) (b : Block) (src : Nat) (d0 d1 : Word) (i : Nat) (h : i < 24) :
    (s.raiseFrom b src d0 d1).lanes[i].queue = s.lanes[i].queue := congrArg (·.queue) (s.raiseFrom_lanes b src d0 d1 i h)
@[simp] theorem State.raiseFrom_lanes_waiting (s : State) (b : Block) (src : Nat) (d0 d1 : Word) (i : Nat) (h : i < 24) :
    (s.raiseFrom b src d0 d1).lanes[i].waiting = s.lanes[i].waiting := congrArg (·.waiting) (s.raiseFrom_lanes b src d0 d1 i h)
@[simp] theorem State.raiseFrom_lanes_ctxs (s : State) (b : Block) (src : Nat) (d0 d1 : Word) (i : Nat) (h : i < 24) :
    (s.raiseFrom b src d0 d1).lanes[i].ctxs = s.lanes[i].ctxs := congrArg (·.ctxs) (s.raiseFrom_lanes b src d0 d1 i h)
@[simp] theorem State.raiseFrom_lanes_owner (s : State) (b : Block) (src : Nat) (d0 d1 : Word) (i : Nat) (h : i < 24) :
    (s.raiseFrom b src d0 d1).lanes[i].owner = s.lanes[i].owner := congrArg (·.owner) (s.raiseFrom_lanes b src d0 d1 i h)
@[simp] theorem State.raiseFrom_lanes_ce (s : State) (b : Block) (src : Nat) (d0 d1 : Word) (i : Nat) (h : i < 24) :
    (s.raiseFrom b src d0 d1).lanes[i].ce = s.lanes[i].ce := congrArg (·.ce) (s.raiseFrom_lanes b src d0 d1 i h)
@[simp] theorem State.raiseFrom_lanes_erases (s : State) (b : Block) (src : Nat) (d0 d1 : Word) (i : Nat) (h : i < 24) :
    (s.raiseFrom b src d0 d1).lanes[i].erases = s.lanes[i].erases := congrArg (·.erases) (s.raiseFrom_lanes b src d0 d1 i h)
@[simp] theorem State.raiseFrom_lanes_completions (s : State) (b : Block) (src : Nat) (d0 d1 : Word) (i : Nat) (h : i < 24) :
    (s.raiseFrom b src d0 d1).lanes[i].completions = s.lanes[i].completions := congrArg (·.completions) (s.raiseFrom_lanes b src d0 d1 i h)
@[simp] theorem State.raiseFrom_lanes_bus (s : State) (b : Block) (src : Nat) (d0 d1 : Word) (i : Nat) (h : i < 24) :
    (s.raiseFrom b src d0 d1).lanes[i].bus = s.lanes[i].bus := congrArg (·.bus) (s.raiseFrom_lanes b src d0 d1 i h)
@[simp] theorem State.raiseFrom_lanes_inService (s : State) (b : Block) (src : Nat) (d0 d1 : Word) (i : Nat) (h : i < 24) :
    (s.raiseFrom b src d0 d1).lanes[i].inService = s.lanes[i].inService := congrArg (·.inService) (s.raiseFrom_lanes b src d0 d1 i h)
@[simp] theorem State.raiseFrom_lanes_quarantined (s : State) (b : Block) (src : Nat) (d0 d1 : Word) (i : Nat) (h : i < 24) :
    (s.raiseFrom b src d0 d1).lanes[i].quarantined = s.lanes[i].quarantined := congrArg (·.quarantined) (s.raiseFrom_lanes b src d0 d1 i h)
@[simp] theorem State.raiseFrom_lanes_quarLuns (s : State) (b : Block) (src : Nat) (d0 d1 : Word) (i : Nat) (h : i < 24) :
    (s.raiseFrom b src d0 d1).lanes[i].quarLuns = s.lanes[i].quarLuns := congrArg (·.quarLuns) (s.raiseFrom_lanes b src d0 d1 i h)
@[simp] theorem State.raiseFrom_lanes_iface (s : State) (b : Block) (src : Nat) (d0 d1 : Word) (i : Nat) (h : i < 24) :
    (s.raiseFrom b src d0 d1).lanes[i].iface = s.lanes[i].iface := congrArg (·.iface) (s.raiseFrom_lanes b src d0 d1 i h)
@[simp] theorem State.raiseFrom_lanes_features (s : State) (b : Block) (src : Nat) (d0 d1 : Word) (i : Nat) (h : i < 24) :
    (s.raiseFrom b src d0 d1).lanes[i].features = s.lanes[i].features := congrArg (·.features) (s.raiseFrom_lanes b src d0 d1 i h)
@[simp] theorem State.raiseFrom_lanes_train (s : State) (b : Block) (src : Nat) (d0 d1 : Word) (i : Nat) (h : i < 24) :
    (s.raiseFrom b src d0 d1).lanes[i].train = s.lanes[i].train := congrArg (·.train) (s.raiseFrom_lanes b src d0 d1 i h)
@[simp] theorem State.raiseFrom_lanes_err (s : State) (b : Block) (src : Nat) (d0 d1 : Word) (i : Nat) (h : i < 24) :
    (s.raiseFrom b src d0 d1).lanes[i].err = s.lanes[i].err := congrArg (·.err) (s.raiseFrom_lanes b src d0 d1 i h)
@[simp] theorem State.raiseFrom_lanes_suspLimit (s : State) (b : Block) (src : Nat) (d0 d1 : Word) (i : Nat) (h : i < 24) :
    (s.raiseFrom b src d0 d1).lanes[i].suspLimit = s.lanes[i].suspLimit := congrArg (·.suspLimit) (s.raiseFrom_lanes b src d0 d1 i h)
@[simp] theorem State.raiseFrom_lanes_minRun (s : State) (b : Block) (src : Nat) (d0 d1 : Word) (i : Nat) (h : i < 24) :
    (s.raiseFrom b src d0 d1).lanes[i].minRun = s.lanes[i].minRun := congrArg (·.minRun) (s.raiseFrom_lanes b src d0 d1 i h)
@[simp] theorem State.raiseFrom_lanes_maxSusp (s : State) (b : Block) (src : Nat) (d0 d1 : Word) (i : Nat) (h : i < 24) :
    (s.raiseFrom b src d0 d1).lanes[i].maxSusp = s.lanes[i].maxSusp := congrArg (·.maxSusp) (s.raiseFrom_lanes b src d0 d1 i h)
@[simp] theorem State.raiseFrom_lanes_barPrograms (s : State) (b : Block) (src : Nat) (d0 d1 : Word) (i : Nat) (h : i < 24) :
    (s.raiseFrom b src d0 d1).lanes[i].barPrograms = s.lanes[i].barPrograms := congrArg (·.barPrograms) (s.raiseFrom_lanes b src d0 d1 i h)
@[simp] theorem State.raiseFrom_lanes_patch (s : State) (b : Block) (src : Nat) (d0 d1 : Word) (i : Nat) (h : i < 24) :
    (s.raiseFrom b src d0 d1).lanes[i].patch = s.lanes[i].patch := congrArg (·.patch) (s.raiseFrom_lanes b src d0 d1 i h)
@[simp] theorem State.raiseFrom_lanes_ucodeFault (s : State) (b : Block) (src : Nat) (d0 d1 : Word) (i : Nat) (h : i < 24) :
    (s.raiseFrom b src d0 d1).lanes[i].ucodeFault = s.lanes[i].ucodeFault := congrArg (·.ucodeFault) (s.raiseFrom_lanes b src d0 d1 i h)

end Sys2Proof.Machine
end

