-- ==== Sys2Proof/Laws/Clocks.lean ====
section
/-! SUPPORT. What the shared operations of timekeeping can do (R27, R78, R79): they touch the timekeeping block and the dies' counts, and
these lemmas say once what they leave there. -/

namespace Sys2Proof.Machine

/-- `t` differs from `s` in the timekeeping block and in the counts of the dies alone. -/
structure OnlyTime (s t : State) : Prop where
  sup : t.keeper.sup = s.keeper.sup
  hu : t.keeper.hu = s.keeper.hu
  store : t.store = s.store
  opt : t.opt = s.opt
  regions : t.regions = s.regions
  clusters : t.clusters = s.clusters
  lanes : t.lanes = s.lanes
  sub : t.sub = s.sub
  swarm : t.swarm = s.swarm

theorem OnlyTime.trans {s t u : State} (a : OnlyTime s t) (b : OnlyTime t u) : OnlyTime s u :=
  ⟨b.sup.trans a.sup, b.hu.trans a.hu, b.store.trans a.store, b.opt.trans a.opt, b.regions.trans a.regions, b.clusters.trans a.clusters,
   b.lanes.trans a.lanes, b.sub.trans a.sub, b.swarm.trans a.swarm⟩

theorem onlyTime_updTk (s : State) (f : TimeKeeping → TimeKeeping) : OnlyTime s (s.updTk f) := ⟨rfl, rfl, rfl, rfl, rfl, rfl, rfl, rfl, rfl⟩

theorem onlyTime_ticks (s : State) (n u : Nat) : OnlyTime s (s.ticks n u) := ⟨rfl, rfl, rfl, rfl, rfl, rfl, rfl, rfl, rfl⟩

/-- The media temperature is read again; nothing else of what age is counted from changes (R78). -/
theorem refreshMedia_spec (s : State) : OnlyTime s s.refreshMedia ∧ s.refreshMedia.dies = s.dies ∧ s.refreshMedia.eaOf = s.eaOf ∧
    s.refreshMedia.keeper.tk.mediaTemp = s.mediaReading.2 ∧ s.refreshMedia.keeper.tk.acc = s.keeper.tk.acc ∧
    s.refreshMedia.keeper.tk.opsec = s.keeper.tk.opsec ∧ s.refreshMedia.keeper.tk.usec = s.keeper.tk.usec ∧
    s.refreshMedia.keeper.tk.part = s.keeper.tk.part := by
  refine ⟨?_, rfl, rfl, rfl, rfl, rfl, rfl, rfl⟩
  unfold State.refreshMedia; exact onlyTime_updTk s _

/-- Age added: each accumulator with a profile rises by its acceleration factor times the seconds and saturates (R78, R79). -/
theorem addAge_spec (s : State) (temp : Int) (n : Nat) : OnlyTime s (s.addAge temp n) ∧ (s.addAge temp n).dies = s.dies ∧
    (∀ k : Fin 4, (s.addAge temp n).keeper.tk.acc[k] = match s.eaOf k.val with
      | some ea => min (2 ^ 64 - 1) (s.keeper.tk.acc[k] + afEntry ea temp * n)
      | none => s.keeper.tk.acc[k]) ∧
    (s.addAge temp n).keeper.tk.opsec = s.keeper.tk.opsec ∧ (s.addAge temp n).keeper.tk.usec = s.keeper.tk.usec ∧
    (s.addAge temp n).keeper.tk.part = s.keeper.tk.part ∧ (s.addAge temp n).keeper.tk.mediaTemp = s.keeper.tk.mediaTemp := by
  refine ⟨?_, rfl, ?_, rfl, rfl, rfl, rfl⟩
  · unfold State.addAge; exact onlyTime_updTk s _
  · intro k; exact Vector.getElem_ofFn k.isLt

/-- Minutes counted into the histogram of media temperatures touch no count of age or of time. -/
theorem addMinutes_spec (s : State) (n : Nat) : OnlyTime s (s.addMinutes n) ∧ (s.addMinutes n).dies = s.dies ∧
    (s.addMinutes n).keeper.tk.acc = s.keeper.tk.acc ∧ (s.addMinutes n).keeper.tk.opsec = s.keeper.tk.opsec ∧
    (s.addMinutes n).keeper.tk.usec = s.keeper.tk.usec ∧ (s.addMinutes n).keeper.tk.part = s.keeper.tk.part := by
  refine ⟨?_, rfl, rfl, rfl, rfl, rfl⟩
  unfold State.addMinutes; exact onlyTime_updTk s _

theorem minutePassed_spec (s : State) : OnlyTime s s.minutePassed ∧ s.minutePassed.dies = s.dies ∧
    s.minutePassed.keeper.tk.acc = s.keeper.tk.acc ∧ s.minutePassed.keeper.tk.opsec = s.keeper.tk.opsec ∧
    s.minutePassed.keeper.tk.usec = s.keeper.tk.usec ∧ s.minutePassed.keeper.tk.part = s.keeper.tk.part := by
  refine ⟨?_, rfl, rfl, rfl, rfl, rfl⟩
  unfold State.minutePassed; exact (addMinutes_spec s 1).1.trans (onlyTime_updTk _ _)

/-- Ticks of the real-time counts: the Carapace's and each running die's rise, a die in reset counts nothing (R27). -/
theorem ticks_spec (s : State) (n u : Nat) : OnlyTime s (s.ticks n u) ∧ (s.ticks n u).keeper.tk.acc = s.keeper.tk.acc ∧
    (s.ticks n u).keeper.tk.opsec = s.keeper.tk.opsec ∧ (s.ticks n u).keeper.tk.usec = s.keeper.tk.usec + u ∧
    (s.ticks n u).keeper.tk.part = s.keeper.tk.part ∧
    ∀ d : DieIx, (s.ticks n u).dies[d].common.usec = if s.dies[d].common.inReset then s.dies[d].common.usec
      else s.dies[d].common.usec + BitVec.ofNat 48 u := by
  refine ⟨onlyTime_ticks s n u, rfl, rfl, rfl, rfl, ?_⟩
  intro d
  rcases d with ⟨_ | _ | k, h⟩
  · simp only [State.ticks]; simp; split <;> simp_all
  · simp only [State.ticks]; simp; split <;> simp_all
  · omega

end Sys2Proof.Machine
end

