-- ==== Sys2Proof/Laws/Complete.lean ====
section
/-! SUPPORT. What completing a command can do (R281, R293): it answers at a host port, frees a slot and its lookups, and may wake the package.
The lemmas here say once what it leaves alone. -/

namespace Sys2Proof.Machine

/-- `t` has the persistent records and the package's work of `s`. -/
structure KeepsWork (s t : State) : Prop where
  opt : t.opt = s.opt
  fw : t.fw = s.fw
  swarm : t.swarm = s.swarm
  diapause : t.sub.diapause = s.sub.diapause
  rescue : t.keeper.rescue = s.keeper.rescue
  boot : t.keeper.boot = s.keeper.boot

theorem KeepsWork.refl (s : State) : KeepsWork s s := ⟨rfl, rfl, rfl, rfl, rfl, rfl⟩

theorem KeepsWork.trans {s t u : State} (a : KeepsWork s t) (b : KeepsWork t u) : KeepsWork s u :=
  ⟨b.opt.trans a.opt, b.fw.trans a.fw, b.swarm.trans a.swarm, b.diapause.trans a.diapause, b.rescue.trans a.rescue, b.boot.trans a.boot⟩

/-- A fold of steps that each keep the work keeps it. -/
theorem KeepsWork.foldl {α : Type} {f : State → α → State} (h : ∀ s x, KeepsWork s (f s x)) (l : List α) (s : State) :
    KeepsWork s (l.foldl f s) := by
  induction l generalizing s with
  | nil => exact .refl s
  | cons x l ih => exact (h s x).trans (ih _)

theorem keepsWork_updDie (s : State) (d : DieIx) (f : DieSt → DieSt) : KeepsWork s (s.updDie d f) := ⟨rfl, rfl, rfl, rfl, rfl, rfl⟩
theorem keepsWork_updHost (s : State) (d : DieIx) (f : HostPort → HostPort) : KeepsWork s (s.updHost d f) := ⟨rfl, rfl, rfl, rfl, rfl, rfl⟩
theorem keepsWork_updSup (s : State) (f : Supply → Supply) : KeepsWork s (s.updSup f) := ⟨rfl, rfl, rfl, rfl, rfl, rfl⟩
theorem keepsWork_updRegion (s : State) (g : RegionIx) (f : RegionSt → RegionSt) : KeepsWork s (s.updRegion g f) := ⟨rfl, rfl, rfl, rfl, rfl, rfl⟩

theorem keepsWork_updCrossing (s : State) (x : CrossingId) (f : Crossing → Crossing) : KeepsWork s (s.updCrossing x f) := by
  cases x <;> exact ⟨rfl, rfl, rfl, rfl, rfl, rfl⟩

theorem keepsWork_clockOrder (s : State) (on : Bool) (xs : List CrossingId) : KeepsWork s (s.clockOrder on xs) :=
  .foldl (fun s x => keepsWork_updCrossing s x _) xs s

theorem keepsWork_raise (s : State) (src : Nat) : KeepsWork s (s.raise src) := by
  constructor <;> simp [State.raise]

theorem keepsWork_setPower (s : State) (ps : Nat) : KeepsWork s (s.setPower ps) := by
  simp only [State.setPower]; split
  · exact .refl s
  · have a := (keepsWork_clockOrder s true ((stoppedIn s.keeper.sup.ps).filter fun x => !(stoppedIn ps).contains x)).trans
      (keepsWork_clockOrder _ false (stoppedIn ps))
    split
    · refine .trans (a.trans ?_) (keepsWork_raise _ _); exact ⟨rfl, rfl, rfl, rfl, rfl, rfl⟩
    · exact a.trans ((keepsWork_updSup _ _).trans (keepsWork_raise _ _))

theorem keepsWork_wake (s : State) : KeepsWork s s.wake := by
  simp only [State.wake]; split
  · exact keepsWork_setPower _ _
  · exact .refl s

theorem keepsWork_grantLookup (s : State) (g : RegionIx) : KeepsWork s (s.grantLookup g) := by
  simp only [State.grantLookup]; split
  · exact .refl s
  · split
    · exact .refl s
    · exact ⟨rfl, rfl, rfl, rfl, rfl, rfl⟩

theorem keepsWork_endLooks (s : State) (x : SlotCmd) : KeepsWork s (s.endLooks x) :=
  .foldl (fun s g => by split; exact .refl s; exact (keepsWork_updRegion s g _).trans (keepsWork_grantLookup _ g)) _ s

theorem completeWith_spec (s : State) (ref : CmdRef) (st : Status) (w : Word) (d : Returned) : KeepsWork s (s.completeWith ref st w d) := by
  unfold State.completeWith
  extract_lets c bad s1 s2
  have a : KeepsWork s s1 := by
    simp only [s1]; split
    · exact (keepsWork_updHost s _ _).trans (keepsWork_endLooks _ _)
    · split; exact .refl s; exact keepsWork_wake s
  have b : KeepsWork s1 s2 := by simp only [s2]; split; exact .refl s1; simp only [State.carry]; exact keepsWork_updCrossing _ _ _
  exact (a.trans b).trans ⟨rfl, rfl, rfl, rfl, rfl, rfl⟩

/-- A completion answers the command and leaves the package's work as it is. -/
theorem complete_spec (s : State) (ref : CmdRef) (st : Status) (w : Word) : KeepsWork s (s.complete ref st w) := completeWith_spec s ref st w .none

theorem keepsWork_hostResumeFetch (s : State) : KeepsWork s s.hostResumeFetch := by
  simp only [State.hostResumeFetch]; split; exact .refl s; exact ⟨rfl, rfl, rfl, rfl, rfl, rfl⟩

end Sys2Proof.Machine
end

