-- ==== Sys2Proof/Laws/Dispatch.lean ====
section
/-! SUPPORT. One equation for each command: what `exec` does with it is its meaning. Later proofs cite these and never split the match of `exec`. -/

namespace Sys2Proof.Machine

@[simp] theorem exec_vcoreOutOfWindow (d : _) (mv : _) (s : State) :
    exec (.vcoreOutOfWindow d mv) s = execVcoreOutOfWindow d mv s := rfl
@[simp] theorem exec_vcoreWindowRestored (d : _) (mv : _) (s : State) :
    exec (.vcoreWindowRestored d mv) s = execVcoreWindowRestored d mv s := rfl
@[simp] theorem exec_xtal25Stop (s : State) :
    exec (.xtal25Stop) s = execXtal25Stop s := rfl
@[simp] theorem exec_xtal32kStop (s : State) :
    exec (.xtal32kStop) s = execXtal32kStop s := rfl
@[simp] theorem exec_dieBridgeTransfer (toward : _) (tag : _) (crcOk : _) (s : State) :
    exec (.dieBridgeTransfer toward tag crcOk) s = execDieBridgeTransfer toward tag crcOk s := rfl
@[simp] theorem exec_dieBridgeHandshakeTimeout (s : State) :
    exec (.dieBridgeHandshakeTimeout) s = execDieBridgeHandshakeTimeout s := rfl
@[simp] theorem exec_crossingReset (x : _) (phySide : _) (s : State) :
    exec (.crossingReset x phySide) s = execCrossingReset x phySide s := rfl
@[simp] theorem exec_crossingReadyHandshake (x : _) (s : State) :
    exec (.crossingReadyHandshake x) s = execCrossingReadyHandshake x s := rfl
@[simp] theorem exec_phyWakeRequest (x : _) (stopGrantedFirst : _) (s : State) :
    exec (.phyWakeRequest x stopGrantedFirst) s = execPhyWakeRequest x stopGrantedFirst s := rfl
@[simp] theorem exec_phyIdleTimerExpiry (l : _) (wakeGrantedFirst : _) (s : State) :
    exec (.phyIdleTimerExpiry l wakeGrantedFirst) s = execPhyIdleTimerExpiry l wakeGrantedFirst s := rfl
@[simp] theorem exec_resourceSlotFree (r : _) (s : State) :
    exec (.resourceSlotFree r) s = execResourceSlotFree r s := rfl
@[simp] theorem exec_descriptorSubmit (l : _) (d : _) (p : _) (s : State) :
    exec (.descriptorSubmit l d p) s = execDescriptorSubmit l d p s := rfl
@[simp] theorem exec_readPage (l : _) (s : State) :
    exec (.readPage l) s = execReadPage l s := rfl
@[simp] theorem exec_readSoft (l : _) (s : State) :
    exec (.readSoft l) s = execReadSoft l s := rfl
@[simp] theorem exec_marginRead (l : _) (s : State) :
    exec (.marginRead l) s = execMarginRead l s := rfl
@[simp] theorem exec_offsetSweep (l : _) (s : State) :
    exec (.offsetSweep l) s = execOffsetSweep l s := rfl
@[simp] theorem exec_programPage (l : _) (s : State) :
    exec (.programPage l) s = execProgramPage l s := rfl
@[simp] theorem exec_programPass (l : _) (s : State) :
    exec (.programPass l) s = execProgramPass l s := rfl
@[simp] theorem exec_eraseBlock (l : _) (s : State) :
    exec (.eraseBlock l) s = execEraseBlock l s := rfl
@[simp] theorem exec_suspend (l : _) (s : State) :
    exec (.suspend l) s = execSuspend l s := rfl
@[simp] theorem exec_resume (l : _) (s : State) :
    exec (.resume l) s = execResume l s := rfl
@[simp] theorem exec_setFeature (l : _) (s : State) :
    exec (.setFeature l) s = execSetFeature l s := rfl
@[simp] theorem exec_getFeature (l : _) (s : State) :
    exec (.getFeature l) s = execGetFeature l s := rfl
@[simp] theorem exec_readStatus (l : _) (s : State) :
    exec (.readStatus l) s = execReadStatus l s := rfl
@[simp] theorem exec_train (l : _) (tries : _) (s : State) :
    exec (.train l tries) s = execTrain l tries s := rfl
@[simp] theorem exec_lunReady (l : _) (tag : _) (st : _) (reply : _) (s : State) :
    exec (.lunReady l tag st reply) s = execLunReady l tag st reply s := rfl
@[simp] theorem exec_statusTimeout (l : _) (tag : _) (s : State) :
    exec (.statusTimeout l tag) s = execStatusTimeout l tag s := rfl
@[simp] theorem exec_minEraseRunTimeExpiry (l : _) (u : _) (s : State) :
    exec (.minEraseRunTimeExpiry l u) s = execMinEraseRunTimeExpiry l u s := rfl
@[simp] theorem exec_maxSuspendedTimeExpiry (l : _) (u : _) (s : State) :
    exec (.maxSuspendedTimeExpiry l u) s = execMaxSuspendedTimeExpiry l u s := rfl
@[simp] theorem exec_laneReset (l : _) (results : _) (s : State) :
    exec (.laneReset l results) s = execLaneReset l results s := rfl
@[simp] theorem exec_dqsDriftTrack (l : _) (drift : _) (s : State) :
    exec (.dqsDriftTrack l drift) s = execDqsDriftTrack l drift s := rfl
@[simp] theorem exec_zqShortCalibration (l : _) (s : State) :
    exec (.zqShortCalibration l) s = execZqShortCalibration l s := rfl
@[simp] theorem exec_laneRetrain (l : _) (tries : _) (s : State) :
    exec (.laneRetrain l tries) s = execLaneRetrain l tries s := rfl
@[simp] theorem exec_retrainIdleTimeout (l : _) (tries : _) (s : State) :
    exec (.retrainIdleTimeout l tries) s = execRetrainIdleTimeout l tries s := rfl
@[simp] theorem exec_lneCtrlRetrain (l : _) (s : State) :
    exec (.lneCtrlRetrain l) s = execLneCtrlRetrain l s := rfl
@[simp] theorem exec_lneCtrlCntClr (l : _) (s : State) :
    exec (.lneCtrlCntClr l) s = execLneCtrlCntClr l s := rfl
@[simp] theorem exec_patchLoad (l : _) (words : _) (s : State) :
    exec (.patchLoad l words) s = execPatchLoad l words s := rfl
@[simp] theorem exec_nop (l : _) (c : _) (s : State) :
    exec (.nop l c) s = execNop l c s := rfl
@[simp] theorem exec_jmp (l : _) (c : _) (t : _) (s : State) :
    exec (.jmp l c t) s = execJmp l c t s := rfl
@[simp] theorem exec_brc (l : _) (c : _) (cond : _) (t : _) (s : State) :
    exec (.brc l c cond t) s = execBrc l c cond t s := rfl
@[simp] theorem exec_call (l : _) (c : _) (t : _) (s : State) :
    exec (.call l c t) s = execCall l c t s := rfl
@[simp] theorem exec_ret (l : _) (c : _) (s : State) :
    exec (.ret l c) s = execRet l c s := rfl
@[simp] theorem exec_ldi (l : _) (c : _) (d : _) (v : _) (s : State) :
    exec (.ldi l c d v) s = execLdi l c d v s := rfl
@[simp] theorem exec_ldu (l : _) (c : _) (d : _) (v : _) (s : State) :
    exec (.ldu l c d v) s = execLdu l c d v s := rfl
@[simp] theorem exec_ldd (l : _) (c : _) (d : _) (word : _) (s : State) :
    exec (.ldd l c d word) s = execLdd l c d word s := rfl
@[simp] theorem exec_addi (l : _) (c : _) (d : _) (a : _) (v : _) (s : State) :
    exec (.addi l c d a v) s = execAddi l c d a v s := rfl
@[simp] theorem exec_alu (l : _) (c : _) (d : _) (a : _) (b : _) (f : _) (s : State) :
    exec (.alu l c d a b f) s = execAlu l c d a b f s := rfl
@[simp] theorem exec_cmp (l : _) (c : _) (a : _) (b : _) (s : State) :
    exec (.cmp l c a b) s = execCmp l c a b s := rfl
@[simp] theorem exec_tbl (l : _) (c : _) (d : _) (t : _) (ix : _) (s : State) :
    exec (.tbl l c d t ix) s = execTbl l c d t ix s := rfl
@[simp] theorem exec_sync (l : _) (c : _) (s : State) :
    exec (.sync l c) s = execSync l c s := rfl
@[simp] theorem exec_yld (l : _) (c : _) (s : State) :
    exec (.yld l c) s = execYld l c s := rfl
@[simp] theorem exec_cen (l : _) (c : _) (n : _) (s : State) :
    exec (.cen l c n) s = execCen l c n s := rfl
@[simp] theorem exec_cmd (l : _) (c : _) (fromProfile : _) (v : _) (s : State) :
    exec (.cmd l c fromProfile v) s = execCmd l c fromProfile v s := rfl
@[simp] theorem exec_adr (l : _) (c : _) (a : _) (n : _) (s : State) :
    exec (.adr l c a n) s = execAdr l c a n s := rfl
@[simp] theorem exec_adx (l : _) (c : _) (a : _) (n : _) (s : State) :
    exec (.adx l c a n) s = execAdx l c a n s := rfl
@[simp] theorem exec_dout (l : _) (c : _) (a : _) (b : _) (s : State) :
    exec (.dout l c a b) s = execDout l c a b s := rfl
@[simp] theorem exec_din (l : _) (c : _) (a : _) (b : _) (toDecoder : _) (s : State) :
    exec (.din l c a b toDecoder) s = execDin l c a b toDecoder s := rfl
@[simp] theorem exec_stat (l : _) (c : _) (d : _) (enhanced : _) (st : _) (s : State) :
    exec (.stat l c d enhanced st) s = execStat l c d enhanced st s := rfl
@[simp] theorem exec_wrdy (l : _) (c : _) (a : _) (st : _) (s : State) :
    exec (.wrdy l c a st) s = execWrdy l c a st s := rfl
@[simp] theorem exec_tim (l : _) (c : _) (ix : _) (s : State) :
    exec (.tim l c ix) s = execTim l c ix s := rfl
@[simp] theorem exec_wait (l : _) (c : _) (a : _) (s : State) :
    exec (.wait l c a) s = execWait l c a s := rfl
@[simp] theorem exec_lvl (l : _) (c : _) (d : _) (a : _) (b : _) (s : State) :
    exec (.lvl l c d a b) s = execLvl l c d a b s := rfl
@[simp] theorem exec_phy (l : _) (c : _) (step : _) (s : State) :
    exec (.phy l c step) s = execPhy l c step s := rfl
@[simp] theorem exec_loop (l : _) (c : _) (d : _) (t : _) (s : State) :
    exec (.loop l c d t) s = execLoop l c d t s := rfl
@[simp] theorem exec_susp (l : _) (c : _) (s : State) :
    exec (.susp l c) s = execSusp l c s := rfl
@[simp] theorem exec_sto (l : _) (c : _) (a : _) (word : _) (s : State) :
    exec (.sto l c a word) s = execSto l c a word s := rfl
@[simp] theorem exec_evt (l : _) (c : _) (n : _) (s : State) :
    exec (.evt l c n) s = execEvt l c n s := rfl
@[simp] theorem exec_done (l : _) (c : _) (status : _) (s : State) :
    exec (.done l c status) s = execDone l c status s := rfl
@[simp] theorem exec_trap (l : _) (c : _) (code : _) (s : State) :
    exec (.trap l c code) s = execTrap l c code s := rfl
@[simp] theorem exec_foldIdleTimer (g : _) (s : State) :
    exec (.foldIdleTimer g) s = execFoldIdleTimer g s := rfl
@[simp] theorem exec_thermalAgeAccumulate (s : State) :
    exec (.thermalAgeAccumulate) s = execThermalAgeAccumulate s := rfl
@[simp] theorem exec_carapaceTemperatureSample (s : State) :
    exec (.carapaceTemperatureSample) s = execCarapaceTemperatureSample s := rfl
@[simp] theorem exec_timekeepingRecordWrite (s : State) :
    exec (.timekeepingRecordWrite) s = execTimekeepingRecordWrite s := rfl
@[simp] theorem exec_setFeaturesTimestamp (ref : _) (ms : _) (s : State) :
    exec (.setFeaturesTimestamp ref ms) s = execSetFeaturesTimestamp ref ms s := rfl
@[simp] theorem exec_gapTimeout (s : State) :
    exec (.gapTimeout) s = execGapTimeout s := rfl
@[simp] theorem exec_antennaRunStart (c : _) (s : State) :
    exec (.antennaRunStart c) s = execAntennaRunStart c s := rfl
@[simp] theorem exec_antennaRunComplete (c : _) (s : State) :
    exec (.antennaRunComplete c) s = execAntennaRunComplete c s := rfl
@[simp] theorem exec_patrolStart (g : _) (s : State) :
    exec (.patrolStart g) s = execPatrolStart g s := rfl
@[simp] theorem exec_patrolComplete (g : _) (b : _) (s : State) :
    exec (.patrolComplete g b) s = execPatrolComplete g b s := rfl
@[simp] theorem exec_stagingRowTimeout (g : _) (b : _) (s : State) :
    exec (.stagingRowTimeout g b) s = execStagingRowTimeout g b s := rfl
@[simp] theorem exec_frameDecode (c : _) (e : _) (src : _) (s : State) :
    exec (.frameDecode c e src) s = execFrameDecode c e src s := rfl
@[simp] theorem exec_decodeComplete (c : _) (e : _) (res : _) (s : State) :
    exec (.decodeComplete c e res) s = execDecodeComplete c e res s := rfl
@[simp] theorem exec_decoderCompletionTimeout (c : _) (e : _) (s : State) :
    exec (.decoderCompletionTimeout c e) s = execDecoderCompletionTimeout c e s := rfl
@[simp] theorem exec_retryLadderStep (c : _) (id : _) (facts : _) (s : State) :
    exec (.retryLadderStep c id facts) s = execRetryLadderStep c id facts s := rfl
@[simp] theorem exec_parityAccumulatorMemoryError (c : _) (corrected : _) (band : _) (row : _) (s : State) :
    exec (.parityAccumulatorMemoryError c corrected band row) s = execParityAccumulatorMemoryError c corrected band row s := rfl
@[simp] theorem exec_cluCtrlCntClr (c : _) (s : State) :
    exec (.cluCtrlCntClr c) s = execCluCtrlCntClr c s := rfl
@[simp] theorem exec_pendingUpdateApply (g : _) (gran : _) (s : State) :
    exec (.pendingUpdateApply g gran) s = execPendingUpdateApply g gran s := rfl
@[simp] theorem exec_journalFrameTimer (g : _) (s : State) :
    exec (.journalFrameTimer g) s = execJournalFrameTimer g s := rfl
@[simp] theorem exec_journalFrameDurable (g : _) (s : State) :
    exec (.journalFrameDurable g) s = execJournalFrameDurable g s := rfl
@[simp] theorem exec_checkpointCapture (g : _) (s : State) :
    exec (.checkpointCapture g) s = execCheckpointCapture g s := rfl
@[simp] theorem exec_checkpointIndexWrite (g : _) (ckptSeq : _) (s : State) :
    exec (.checkpointIndexWrite g ckptSeq) s = execCheckpointIndexWrite g ckptSeq s := rfl
@[simp] theorem exec_mapSegmentLoad (g : _) (seg : _) (s : State) :
    exec (.mapSegmentLoad g seg) s = execMapSegmentLoad g seg s := rfl
@[simp] theorem exec_hostFetchStart (facts : _) (ms : _) (s : State) :
    exec (.hostFetchStart facts ms) s = execHostFetchStart facts ms s := rfl
@[simp] theorem exec_rgnQuery (g : _) (hi : _) (s : State) :
    exec (.rgnQuery g hi) s = execRgnQuery g hi s := rfl
@[simp] theorem exec_rgnCtrlCntClr (g : _) (s : State) :
    exec (.rgnCtrlCntClr g) s = execRgnCtrlCntClr g s := rfl
@[simp] theorem exec_reclaimStart (g : _) (k : _) (s : State) :
    exec (.reclaimStart g k) s = execReclaimStart g k s := rfl
@[simp] theorem exec_granuleRelocate (g : _) (gran : _) (s : State) :
    exec (.granuleRelocate g gran) s = execGranuleRelocate g gran s := rfl
@[simp] theorem exec_bandResync (g : _) (b : _) (unreadable : _) (s : State) :
    exec (.bandResync g b unreadable) s = execBandResync g b unreadable s := rfl
@[simp] theorem exec_bandRebuild (g : _) (spare : _) (lost : _) (failed : _) (s : State) :
    exec (.bandRebuild g spare lost failed) s = execBandRebuild g spare lost failed s := rfl
@[simp] theorem exec_membershipStageStage (ref : _) (offset : _) (len : _) (last : _) (table : _) (s : State) :
    exec (.membershipStageStage ref offset len last table) s = execMembershipStageStage ref offset len last table s := rfl
@[simp] theorem exec_membershipStageApply (ref : _) (s : State) :
    exec (.membershipStageApply ref) s = execMembershipStageApply ref s := rfl
@[simp] theorem exec_membershipStageReadMemberKey (ref : _) (s : State) :
    exec (.membershipStageReadMemberKey ref) s = execMembershipStageReadMemberKey ref s := rfl
@[simp] theorem exec_membershipStageReadTableHeader (ref : _) (s : State) :
    exec (.membershipStageReadTableHeader ref) s = execMembershipStageReadTableHeader ref s := rfl
@[simp] theorem exec_membershipStageDiscard (ref : _) (s : State) :
    exec (.membershipStageDiscard ref) s = execMembershipStageDiscard ref s := rfl
@[simp] theorem exec_epochAnnounce (hdr : _) (epoch : _) (hash : _) (s : State) :
    exec (.epochAnnounce hdr epoch hash) s = execEpochAnnounce hdr epoch hash s := rfl
@[simp] theorem exec_trailingEpochTimeout (s : State) :
    exec (.trailingEpochTimeout) s = execTrailingEpochTimeout s := rfl
@[simp] theorem exec_heldMessageTimeout (ix : _) (s : State) :
    exec (.heldMessageTimeout ix) s = execHeldMessageTimeout ix s := rfl
@[simp] theorem exec_sealNotice (hdr : _) (region : _) (seg : _) (band : _) (s : State) :
    exec (.sealNotice hdr region seg band) s = execSealNotice hdr region seg band s := rfl
@[simp] theorem exec_sealNoticeTimeout (g : _) (b : _) (u : _) (s : State) :
    exec (.sealNoticeTimeout g b u) s = execSealNoticeTimeout g b u s := rfl
@[simp] theorem exec_sealNoticeRetry (g : _) (b : _) (u : _) (s : State) :
    exec (.sealNoticeRetry g b u) s = execSealNoticeRetry g b u s := rfl
@[simp] theorem exec_slotAssign (hdr : _) (stripe : _) (position : _) (m : _) (version : _) (holders : _) (s : State) :
    exec (.slotAssign hdr stripe position m version holders) s = execSlotAssign hdr stripe position m version holders s := rfl
@[simp] theorem exec_stripeRecord (hdr : _) (restore : _) (r : _) (s : State) :
    exec (.stripeRecord hdr restore r) s = execStripeRecord hdr restore r s := rfl
@[simp] theorem exec_stripeRecordAck (hdr : _) (stripe : _) (version : _) (s : State) :
    exec (.stripeRecordAck hdr stripe version) s = execStripeRecordAck hdr stripe version s := rfl
@[simp] theorem exec_stripeShortTimeout (stripe : _) (s : State) :
    exec (.stripeShortTimeout stripe) s = execStripeShortTimeout stripe s := rfl
@[simp] theorem exec_contribData (hdr : _) (stripe : _) (position : _) (index : _) (first : _) (count : _) (s : State) :
    exec (.contribData hdr stripe position index first count) s = execContribData hdr stripe position index first count s := rfl
@[simp] theorem exec_contribDone (hdr : _) (stripe : _) (position : _) (index : _) (crcOk : _) (s : State) :
    exec (.contribDone hdr stripe position index crcOk) s = execContribDone hdr stripe position index crcOk s := rfl
@[simp] theorem exec_retract (hdr : _) (stripe : _) (position : _) (index : _) (first : _) (count : _) (neverSent : _) (release : _) (last : _) (behalf : _) (crcOk : _) (s : State) :
    exec (.retract hdr stripe position index first count neverSent release last behalf crcOk) s = execRetract hdr stripe position index first count neverSent release last behalf crcOk s := rfl
@[simp] theorem exec_contribRetry (stripe : _) (position : _) (index : _) (s : State) :
    exec (.contribRetry stripe position index) s = execContribRetry stripe position index s := rfl
@[simp] theorem exec_contribBusyRetry (stripe : _) (position : _) (index : _) (s : State) :
    exec (.contribBusyRetry stripe position index) s = execContribBusyRetry stripe position index s := rfl
@[simp] theorem exec_peerLit (c : _) (s : State) :
    exec (.peerLit c) s = execPeerLit c s := rfl
@[simp] theorem exec_swarmLinkTraining (d : _) (partner : _) (s : State) :
    exec (.swarmLinkTraining d partner) s = execSwarmLinkTraining d partner s := rfl
@[simp] theorem exec_swarmPortLinkDown (d : _) (s : State) :
    exec (.swarmPortLinkDown d) s = execSwarmPortLinkDown d s := rfl
@[simp] theorem exec_neighborSolicitation (d : _) (target : _) (s : State) :
    exec (.neighborSolicitation d target) s = execNeighborSolicitation d target s := rfl
@[simp] theorem exec_arpRequest (d : _) (target : _) (s : State) :
    exec (.arpRequest d target) s = execArpRequest d target s := rfl
@[simp] theorem exec_echoRequest (d : _) (target : _) (s : State) :
    exec (.echoRequest d target) s = execEchoRequest d target s := rfl
@[simp] theorem exec_lenosPacket (d : _) (p : _) (s : State) :
    exec (.lenosPacket d p) s = execLenosPacket d p s := rfl
@[simp] theorem exec_hello (d : _) (m : _) (s : State) :
    exec (.hello d m) s = execHello d m s := rfl
@[simp] theorem exec_helloAttemptTimeout (peer : _) (s : State) :
    exec (.helloAttemptTimeout peer) s = execHelloAttemptTimeout peer s := rfl
@[simp] theorem exec_helloRetryTimer (peer : _) (s : State) :
    exec (.helloRetryTimer peer) s = execHelloRetryTimer peer s := rfl
@[simp] theorem exec_sessionRekey (peer : _) (s : State) :
    exec (.sessionRekey peer) s = execSessionRekey peer s := rfl
@[simp] theorem exec_oldSessionErase (peer : _) (s : State) :
    exec (.oldSessionErase peer) s = execOldSessionErase peer s := rfl
@[simp] theorem exec_ackTimer (peer : _) (half : _) (s : State) :
    exec (.ackTimer peer half) s = execAckTimer peer half s := rfl
@[simp] theorem exec_retransmissionTimeout (peer : _) (half : _) (ctr : _) (s : State) :
    exec (.retransmissionTimeout peer half ctr) s = execRetransmissionTimeout peer half ctr s := rfl
@[simp] theorem exec_pathProgressTimeout (peer : _) (half : _) (s : State) :
    exec (.pathProgressTimeout peer half) s = execPathProgressTimeout peer half s := rfl
@[simp] theorem exec_livenessTimeout (peer : _) (s : State) :
    exec (.livenessTimeout peer) s = execLivenessTimeout peer s := rfl
@[simp] theorem exec_peerUnreachable (peer : _) (s : State) :
    exec (.peerUnreachable peer) s = execPeerUnreachable peer s := rfl
@[simp] theorem exec_heartbeatSendTimer (peer : _) (s : State) :
    exec (.heartbeatSendTimer peer) s = execHeartbeatSendTimer peer s := rfl
@[simp] theorem exec_heartbeat (peer : _) (status : _) (applied : _) (s : State) :
    exec (.heartbeat peer status applied) s = execHeartbeat peer status applied s := rfl
@[simp] theorem exec_requestAnswerTimeout (peer : _) (opid : _) (s : State) :
    exec (.requestAnswerTimeout peer opid) s = execRequestAnswerTimeout peer opid s := rfl
@[simp] theorem exec_rebuildRead (hdr : _) (stripe : _) (what : _) (index : _) (first : _) (count : _) (rows : _) (stepFive : _) (s : State) :
    exec (.rebuildRead hdr stripe what index first count rows stepFive) s = execRebuildRead hdr stripe what index first count rows stepFive s := rfl
@[simp] theorem exec_rebuildData (hdr : _) (stripe : _) (what : _) (index : _) (first : _) (count : _) (last : _) (push : _) (reply : _) (crcOk : _) (bad : _) (record : _) (grans : _) (s : State) :
    exec (.rebuildData hdr stripe what index first count last push reply crcOk bad record grans) s = execRebuildData hdr stripe what index first count last push reply crcOk bad record grans s := rfl
@[simp] theorem exec_lightRequest (peer : _) (r : _) (cancel : _) (s : State) :
    exec (.lightRequest peer r cancel) s = execLightRequest peer r cancel s := rfl
@[simp] theorem exec_nak (hdr : _) (reason : _) (refused : _) (detail : _) (s : State) :
    exec (.nak hdr reason refused detail) s = execNak hdr reason refused detail s := rfl
@[simp] theorem exec_rebuildTaskStart (rows : _) (dark : _) (applied : _) (s : State) :
    exec (.rebuildTaskStart rows dark applied) s = execRebuildTaskStart rows dark applied s := rfl
@[simp] theorem exec_pushBusyRetry (stripe : _) (data : _) (index : _) (s : State) :
    exec (.pushBusyRetry stripe data index) s = execPushBusyRetry stripe data index s := rfl
@[simp] theorem exec_pushNoNamespaceRetry (stripe : _) (data : _) (index : _) (s : State) :
    exec (.pushNoNamespaceRetry stripe data index) s = execPushNoNamespaceRetry stripe data index s := rfl
@[simp] theorem exec_darkWaitExpiry (ref : _) (s : State) :
    exec (.darkWaitExpiry ref) s = execDarkWaitExpiry ref s := rfl
@[simp] theorem exec_swmCtrlCntClr (d : _) (s : State) :
    exec (.swmCtrlCntClr d) s = execSwmCtrlCntClr d s := rfl
@[simp] theorem exec_pcieLinkTraining (d : _) (gen : _) (lanes : _) (s : State) :
    exec (.pcieLinkTraining d gen lanes) s = execPcieLinkTraining d gen lanes s := rfl
@[simp] theorem exec_hostLinkDown (d : _) (s : State) :
    exec (.hostLinkDown d) s = execHostLinkDown d s := rfl
@[simp] theorem exec_perstNAssert (d : _) (s : State) :
    exec (.perstNAssert d) s = execPerstNAssert d s := rfl
@[simp] theorem exec_functionLevelReset (d : _) (s : State) :
    exec (.functionLevelReset d) s = execFunctionLevelReset d s := rfl
@[simp] theorem exec_configRequest (d : _) (s : State) :
    exec (.configRequest d) s = execConfigRequest d s := rfl
@[simp] theorem exec_controllerEnable (d : _) (asqs : _) (acqs : _) (s : State) :
    exec (.controllerEnable d asqs acqs) s = execControllerEnable d asqs acqs s := rfl
@[simp] theorem exec_controllerReset (d : _) (s : State) :
    exec (.controllerReset d) s = execControllerReset d s := rfl
@[simp] theorem exec_normalShutdown (d : _) (s : State) :
    exec (.normalShutdown d) s = execNormalShutdown d s := rfl
@[simp] theorem exec_abruptShutdown (d : _) (s : State) :
    exec (.abruptShutdown d) s = execAbruptShutdown d s := rfl
@[simp] theorem exec_nvmSubsystemReset (d : _) (value : _) (s : State) :
    exec (.nvmSubsystemReset d value) s = execNvmSubsystemReset d value s := rfl
@[simp] theorem exec_submissionQueueDoorbell (d : _) (qid : _) (tail : _) (s : State) :
    exec (.submissionQueueDoorbell d qid tail) s = execSubmissionQueueDoorbell d qid tail s := rfl
@[simp] theorem exec_completionQueueDoorbell (d : _) (qid : _) (head : _) (s : State) :
    exec (.completionQueueDoorbell d qid head) s = execCompletionQueueDoorbell d qid head s := rfl
@[simp] theorem exec_createIoSubmissionQueue (ref : _) (qid : _) (entries : _) (cqid : _) (contiguous : _) (s : State) :
    exec (.createIoSubmissionQueue ref qid entries cqid contiguous) s = execCreateIoSubmissionQueue ref qid entries cqid contiguous s := rfl
@[simp] theorem exec_deleteIoSubmissionQueue (ref : _) (qid : _) (s : State) :
    exec (.deleteIoSubmissionQueue ref qid) s = execDeleteIoSubmissionQueue ref qid s := rfl
@[simp] theorem exec_createIoCompletionQueue (ref : _) (qid : _) (entries : _) (contiguous : _) (irqEn : _) (vector : _) (s : State) :
    exec (.createIoCompletionQueue ref qid entries contiguous irqEn vector) s = execCreateIoCompletionQueue ref qid entries contiguous irqEn vector s := rfl
@[simp] theorem exec_deleteIoCompletionQueue (ref : _) (qid : _) (s : State) :
    exec (.deleteIoCompletionQueue ref qid) s = execDeleteIoCompletionQueue ref qid s := rfl
@[simp] theorem exec_getLogPage (ref : _) (lid : _) (nsid : _) (lsi : _) (lpo : _) (len : _) (rae : _) (s : State) :
    exec (.getLogPage ref lid nsid lsi lpo len rae) s = execGetLogPage ref lid nsid lsi lpo len rae s := rfl
@[simp] theorem exec_identify (ref : _) (cns : _) (nsid : _) (cntid : _) (s : State) :
    exec (.identify ref cns nsid cntid) s = execIdentify ref cns nsid cntid s := rfl
@[simp] theorem exec_abort (ref : _) (sqid : _) (cid : _) (s : State) :
    exec (.abort ref sqid cid) s = execAbort ref sqid cid s := rfl
@[simp] theorem exec_getFeatures (ref : _) (fid : _) (dw11 : _) (s : State) :
    exec (.getFeatures ref fid dw11) s = execGetFeatures ref fid dw11 s := rfl
@[simp] theorem exec_setFeaturesArbitration (ref : _) (dw11 : _) (s : State) :
    exec (.setFeaturesArbitration ref dw11) s = execSetFeaturesArbitration ref dw11 s := rfl
@[simp] theorem exec_setFeaturesPowerManagement (ref : _) (ps : _) (s : State) :
    exec (.setFeaturesPowerManagement ref ps) s = execSetFeaturesPowerManagement ref ps s := rfl
@[simp] theorem exec_setFeaturesTemperatureThreshold (ref : _) (kelvin : _) (sel : _) (under : _) (s : State) :
    exec (.setFeaturesTemperatureThreshold ref kelvin sel under) s = execSetFeaturesTemperatureThreshold ref kelvin sel under s := rfl
@[simp] theorem exec_setFeaturesErrorRecovery (ref : _) (dw11 : _) (s : State) :
    exec (.setFeaturesErrorRecovery ref dw11) s = execSetFeaturesErrorRecovery ref dw11 s := rfl
@[simp] theorem exec_setFeaturesNumberOfQueues (ref : _) (nsq : _) (ncq : _) (s : State) :
    exec (.setFeaturesNumberOfQueues ref nsq ncq) s = execSetFeaturesNumberOfQueues ref nsq ncq s := rfl
@[simp] theorem exec_setFeaturesInterruptCoalescing (ref : _) (dw11 : _) (s : State) :
    exec (.setFeaturesInterruptCoalescing ref dw11) s = execSetFeaturesInterruptCoalescing ref dw11 s := rfl
@[simp] theorem exec_setFeaturesInterruptVectorConfig (ref : _) (vector : _) (disable : _) (s : State) :
    exec (.setFeaturesInterruptVectorConfig ref vector disable) s = execSetFeaturesInterruptVectorConfig ref vector disable s := rfl
@[simp] theorem exec_setFeaturesAsyncEventConfiguration (ref : _) (dw11 : _) (s : State) :
    exec (.setFeaturesAsyncEventConfiguration ref dw11) s = execSetFeaturesAsyncEventConfiguration ref dw11 s := rfl
@[simp] theorem exec_setFeaturesApst (ref : _) (enable : _) (table : _) (s : State) :
    exec (.setFeaturesApst ref enable table) s = execSetFeaturesApst ref enable table s := rfl
@[simp] theorem exec_setFeaturesFdp (ref : _) (endgid : _) (index : _) (enable : _) (s : State) :
    exec (.setFeaturesFdp ref endgid index enable) s = execSetFeaturesFdp ref endgid index enable s := rfl
@[simp] theorem exec_setFeaturesFdpEvents (ref : _) (handle : _) (types : _) (enable : _) (s : State) :
    exec (.setFeaturesFdpEvents ref handle types enable) s = execSetFeaturesFdpEvents ref handle types enable s := rfl
@[simp] theorem exec_asynchronousEventRequest (ref : _) (s : State) :
    exec (.asynchronousEventRequest ref) s = execAsynchronousEventRequest ref s := rfl
@[simp] theorem exec_namespaceManagementCreate (ref : _) (nsze : _) (ncap : _) (lbaf : _) (phandles : _) (drbgOk : _) (s : State) :
    exec (.namespaceManagementCreate ref nsze ncap lbaf phandles drbgOk) s = execNamespaceManagementCreate ref nsze ncap lbaf phandles drbgOk s := rfl
@[simp] theorem exec_namespaceManagementDelete (ref : _) (nsid : _) (s : State) :
    exec (.namespaceManagementDelete ref nsid) s = execNamespaceManagementDelete ref nsid s := rfl
@[simp] theorem exec_namespaceAttachment (ref : _) (nsid : _) (attach : _) (ctrls : _) (s : State) :
    exec (.namespaceAttachment ref nsid attach ctrls) s = execNamespaceAttachment ref nsid attach ctrls s := rfl
@[simp] theorem exec_formatNvm (ref : _) (nsid : _) (lbaf : _) (s : State) :
    exec (.formatNvm ref nsid lbaf) s = execFormatNvm ref nsid lbaf s := rfl
@[simp] theorem exec_formatNvmCryptoErase (ref : _) (nsid : _) (lbaf : _) (drbgOk : _) (s : State) :
    exec (.formatNvmCryptoErase ref nsid lbaf drbgOk) s = execFormatNvmCryptoErase ref nsid lbaf drbgOk s := rfl
@[simp] theorem exec_securitySendKek (ref : _) (b : _) (s : State) :
    exec (.securitySendKek ref b) s = execSecuritySendKek ref b s := rfl
@[simp] theorem exec_securitySendNamespaceKey (ref : _) (nsid : _) (b : _) (s : State) :
    exec (.securitySendNamespaceKey ref nsid b) s = execSecuritySendNamespaceKey ref nsid b s := rfl
@[simp] theorem exec_securitySendLock (ref : _) (s : State) :
    exec (.securitySendLock ref) s = execSecuritySendLock ref s := rfl
@[simp] theorem exec_securityReceiveKeyStatus (ref : _) (s : State) :
    exec (.securityReceiveKeyStatus ref) s = execSecurityReceiveKeyStatus ref s := rfl
@[simp] theorem exec_securityReceiveProtocolList (ref : _) (s : State) :
    exec (.securityReceiveProtocolList ref) s = execSecurityReceiveProtocolList ref s := rfl
@[simp] theorem exec_sanitizeCryptoErase (ref : _) (drbgOk : _) (s : State) :
    exec (.sanitizeCryptoErase ref drbgOk) s = execSanitizeCryptoErase ref drbgOk s := rfl
@[simp] theorem exec_sanitizeBlockErase (ref : _) (drbgOk : _) (s : State) :
    exec (.sanitizeBlockErase ref drbgOk) s = execSanitizeBlockErase ref drbgOk s := rfl
@[simp] theorem exec_sanitizeOverwrite (ref : _) (s : State) :
    exec (.sanitizeOverwrite ref) s = execSanitizeOverwrite ref s := rfl
@[simp] theorem exec_sanitizeExitFailureMode (ref : _) (s : State) :
    exec (.sanitizeExitFailureMode ref) s = execSanitizeExitFailureMode ref s := rfl
@[simp] theorem exec_optionStage (ref : _) (offset : _) (len : _) (last : _) (image : _) (s : State) :
    exec (.optionStage ref offset len last image) s = execOptionStage ref offset len last image s := rfl
@[simp] theorem exec_optionCheck (ref : _) (s : State) :
    exec (.optionCheck ref) s = execOptionCheck ref s := rfl
@[simp] theorem exec_optionApplyAtStart (ref : _) (s : State) :
    exec (.optionApplyAtStart ref) s = execOptionApplyAtStart ref s := rfl
@[simp] theorem exec_optionApplyLive (ref : _) (s : State) :
    exec (.optionApplyLive ref) s = execOptionApplyLive ref s := rfl
@[simp] theorem exec_managementRead (ref : _) (addr : _) (numd : _) (s : State) :
    exec (.managementRead ref addr numd) s = execManagementRead ref addr numd s := rfl
@[simp] theorem exec_managementWrite (ref : _) (addr : _) (values : _) (s : State) :
    exec (.managementWrite ref addr values) s = execManagementWrite ref addr values s := rfl
@[simp] theorem exec_diapausePrepare (ref : _) (s : State) :
    exec (.diapausePrepare ref) s = execDiapausePrepare ref s := rfl
@[simp] theorem exec_diapauseReady (s : State) :
    exec (.diapauseReady) s = execDiapauseReady s := rfl
@[simp] theorem exec_diapauseStatus (ref : _) (s : State) :
    exec (.diapauseStatus ref) s = execDiapauseStatus ref s := rfl
@[simp] theorem exec_unsupportedCommand (ref : _) (s : State) :
    exec (.unsupportedCommand ref) s = execUnsupportedCommand ref s := rfl
@[simp] theorem exec_read (ref : _) (nsid : _) (slba : _) (nlb : _) (s : State) :
    exec (.read ref nsid slba nlb) s = execRead ref nsid slba nlb s := rfl
@[simp] theorem exec_write (ref : _) (nsid : _) (slba : _) (nlb : _) (dtype : _) (dspec : _) (data : _) (s : State) :
    exec (.write ref nsid slba nlb dtype dspec data) s = execWrite ref nsid slba nlb dtype dspec data s := rfl
@[simp] theorem exec_windowAdmit (d : _) (s : State) :
    exec (.windowAdmit d) s = execWindowAdmit d s := rfl
@[simp] theorem exec_xtsEncrypt (g : _) (gran : _) (seq : _) (refused : _) (s : State) :
    exec (.xtsEncrypt g gran seq refused) s = execXtsEncrypt g gran seq refused s := rfl
@[simp] theorem exec_flush (ref : _) (nsid : _) (s : State) :
    exec (.flush ref nsid) s = execFlush ref nsid s := rfl
@[simp] theorem exec_writeZeroes (ref : _) (nsid : _) (slba : _) (nlb : _) (s : State) :
    exec (.writeZeroes ref nsid slba nlb) s = execWriteZeroes ref nsid slba nlb s := rfl
@[simp] theorem exec_datasetManagement (ref : _) (nsid : _) (deallocate : _) (ranges : _) (s : State) :
    exec (.datasetManagement ref nsid deallocate ranges) s = execDatasetManagement ref nsid deallocate ranges s := rfl
@[simp] theorem exec_verify (ref : _) (nsid : _) (slba : _) (nlb : _) (s : State) :
    exec (.verify ref nsid slba nlb) s = execVerify ref nsid slba nlb s := rfl
@[simp] theorem exec_copy (ref : _) (nsid : _) (sdlba : _) (src : _) (s : State) :
    exec (.copy ref nsid sdlba src) s = execCopy ref nsid sdlba src s := rfl
@[simp] theorem exec_apstIdleTimer (d : _) (s : State) :
    exec (.apstIdleTimer d) s = execApstIdleTimer d s := rfl
@[simp] theorem exec_bufferAllocate (d : _) (bytes : _) (dram : _) (kind : _) (s : State) :
    exec (.bufferAllocate d bytes dram kind) s = execBufferAllocate d bytes dram kind s := rfl
@[simp] theorem exec_bufferReferenceTake (d : _) (ptr : _) (user : _) (s : State) :
    exec (.bufferReferenceTake d ptr user) s = execBufferReferenceTake d ptr user s := rfl
@[simp] theorem exec_bufferReferenceDrop (d : _) (ptr : _) (user : _) (s : State) :
    exec (.bufferReferenceDrop d ptr user) s = execBufferReferenceDrop d ptr user s := rfl
@[simp] theorem exec_bufferZeroed (d : _) (c : _) (ix : _) (s : State) :
    exec (.bufferZeroed d c ix) s = execBufferZeroed d c ix s := rfl
@[simp] theorem exec_dramOscillatorRead (d : _) (value : _) (driftPs : _) (s : State) :
    exec (.dramOscillatorRead d value driftPs) s = execDramOscillatorRead d value driftPs s := rfl
@[simp] theorem exec_dramZqLatch (d : _) (value : _) (s : State) :
    exec (.dramZqLatch d value) s = execDramZqLatch d value s := rfl
@[simp] theorem exec_dramRetrain (d : _) (byRate : _) (tries : _) (s : State) :
    exec (.dramRetrain d byRate tries) s = execDramRetrain d byRate tries s := rfl
@[simp] theorem exec_memoryCorrected (d : _) (k : _) (addr : _) (bit : _) (s : State) :
    exec (.memoryCorrected d k addr bit) s = execMemoryCorrected d k addr bit s := rfl
@[simp] theorem exec_memoryUncorrectable (d : _) (k : _) (addr : _) (target : _) (s : State) :
    exec (.memoryUncorrectable d k addr target) s = execMemoryUncorrectable d k addr target s := rfl
@[simp] theorem exec_locationRetire (d : _) (k : _) (addr : _) (channel : _) (inBuffer : _) (s : State) :
    exec (.locationRetire d k addr channel inBuffer) s = execLocationRetire d k addr channel inBuffer s := rfl
@[simp] theorem exec_memTest (d : _) (w : _) (checkOk : _) (s : State) :
    exec (.memTest d w checkOk) s = execMemTest d w checkOk s := rfl
@[simp] theorem exec_memCtrlCntClr (d : _) (s : State) :
    exec (.memCtrlCntClr d) s = execMemCtrlCntClr d s := rfl
@[simp] theorem exec_cphCtrlCntClr (d : _) (s : State) :
    exec (.cphCtrlCntClr d) s = execCphCtrlCntClr d s := rfl
@[simp] theorem exec_vinRise (o : _) (s : State) :
    exec (.vinRise o) s = execVinRise o s := rfl
@[simp] theorem exec_vinFall (s : State) :
    exec (.vinFall) s = execVinFall s := rfl
@[simp] theorem exec_railWindowTimeout (r : _) (s : State) :
    exec (.railWindowTimeout r) s = execRailWindowTimeout r s := rfl
@[simp] theorem exec_regulatorStartTimeout (r : _) (s : State) :
    exec (.regulatorStartTimeout r) s = execRegulatorStartTimeout r s := rfl
@[simp] theorem exec_boardRailOutOfWindow (r : _) (above : _) (s : State) :
    exec (.boardRailOutOfWindow r above) s = execBoardRailOutOfWindow r above s := rfl
@[simp] theorem exec_vinOvervoltage (mv : _) (s : State) :
    exec (.vinOvervoltage mv) s = execVinOvervoltage mv s := rfl
@[simp] theorem exec_powerCapAverage (mw : _) (s : State) :
    exec (.powerCapAverage mw) s = execPowerCapAverage mw s := rfl
@[simp] theorem exec_pwrLossNAssert (s : State) :
    exec (.pwrLossNAssert) s = execPwrLossNAssert s := rfl
@[simp] theorem exec_vinBelowLossThreshold (s : State) :
    exec (.vinBelowLossThreshold) s = execVinBelowLossThreshold s := rfl
@[simp] theorem exec_rescueComplete (tenUs : _) (s : State) :
    exec (.rescueComplete tenUs) s = execRescueComplete tenUs s := rfl
@[simp] theorem exec_huIsoRelease (inputPresent : _) (s : State) :
    exec (.huIsoRelease inputPresent) s = execHuIsoRelease inputPresent s := rfl
@[simp] theorem exec_vinBelowWarning (mv : _) (s : State) :
    exec (.vinBelowWarning mv) s = execVinBelowWarning mv s := rfl
@[simp] theorem exec_kprCtrlHuMeasure (s : State) :
    exec (.kprCtrlHuMeasure) s = execKprCtrlHuMeasure s := rfl
@[simp] theorem exec_measurementIntervalExpiry (s : State) :
    exec (.measurementIntervalExpiry) s = execMeasurementIntervalExpiry s := rfl
@[simp] theorem exec_holdupWindowsEmpty (s : State) :
    exec (.holdupWindowsEmpty) s = execHoldupWindowsEmpty s := rfl
@[simp] theorem exec_holdupSettleExpiry (v1 : _) (s : State) :
    exec (.holdupSettleExpiry v1) s = execHoldupSettleExpiry v1 s := rfl
@[simp] theorem exec_holdupDischargeCrossing (us : _) (s : State) :
    exec (.holdupDischargeCrossing us) s = execHoldupDischargeCrossing us s := rfl
@[simp] theorem exec_holdupDischargeTimeout (s : State) :
    exec (.holdupDischargeTimeout) s = execHoldupDischargeTimeout s := rfl
@[simp] theorem exec_holdupRecharged (mv : _) (s : State) :
    exec (.holdupRecharged mv) s = execHoldupRecharged mv s := rfl
@[simp] theorem exec_holdupChargeTimeout (s : State) :
    exec (.holdupChargeTimeout) s = execHoldupChargeTimeout s := rfl
@[simp] theorem exec_vauxLost (s : State) :
    exec (.vauxLost) s = execVauxLost s := rfl
@[simp] theorem exec_thermistorFault (n : _) (shorted : _) (s : State) :
    exec (.thermistorFault n shorted) s = execThermistorFault n shorted s := rfl
@[simp] theorem exec_keeperTemperatureCritical (t : _) (s : State) :
    exec (.keeperTemperatureCritical t) s = execKeeperTemperatureCritical t s := rfl
@[simp] theorem exec_adcSample (x : _) (s : State) :
    exec (.adcSample x) s = execAdcSample x s := rfl
@[simp] theorem exec_packageRestart (cause : _) (s : State) :
    exec (.packageRestart cause) s = execPackageRestart cause s := rfl
@[simp] theorem exec_d0Release (f : _) (s : State) :
    exec (.d0Release f) s = execD0Release f s := rfl
@[simp] theorem exec_bootWindowTimeout (s : State) :
    exec (.bootWindowTimeout) s = execBootWindowTimeout s := rfl
@[simp] theorem exec_program64BitWord (req : _) (writes : _) (s : State) :
    exec (.program64BitWord req writes) s = execProgram64BitWord req writes s := rfl
@[simp] theorem exec_program256ByteLine (req : _) (writes : _) (s : State) :
    exec (.program256ByteLine req writes) s = execProgram256ByteLine req writes s := rfl
@[simp] theorem exec_eraseSector (req : _) (offsets : _) (s : State) :
    exec (.eraseSector req offsets) s = execEraseSector req offsets s := rfl
@[simp] theorem exec_eraseSuspend (req : _) (runTime : _) (s : State) :
    exec (.eraseSuspend req runTime) s = execEraseSuspend req runTime s := rfl
@[simp] theorem exec_eraseResume (req : _) (s : State) :
    exec (.eraseResume req) s = execEraseResume req s := rfl
@[simp] theorem exec_marginMode (req : _) (mode : _) (s : State) :
    exec (.marginMode req mode) s = execMarginMode req mode s := rfl
@[simp] theorem exec_readEraseCounter (req : _) (offset : _) (s : State) :
    exec (.readEraseCounter req offset) s = execReadEraseCounter req offset s := rfl
@[simp] theorem exec_returnToRead (req : _) (s : State) :
    exec (.returnToRead req) s = execReturnToRead req s := rfl
@[simp] theorem exec_storeEraseStart (s : State) :
    exec (.storeEraseStart) s = execStoreEraseStart s := rfl
@[simp] theorem exec_storeSequenceTimeout (s : State) :
    exec (.storeSequenceTimeout) s = execStoreSequenceTimeout s := rfl
@[simp] theorem exec_storeProgramComplete (ok : _) (s : State) :
    exec (.storeProgramComplete ok) s = execStoreProgramComplete ok s := rfl
@[simp] theorem exec_storeEraseComplete (marginFailures : _) (s : State) :
    exec (.storeEraseComplete marginFailures) s = execStoreEraseComplete marginFailures s := rfl
@[simp] theorem exec_storeEraseTimeout (s : State) :
    exec (.storeEraseTimeout) s = execStoreEraseTimeout s := rfl
@[simp] theorem exec_storeArrayRead (kind : _) (offset : _) (byCore : _) (differs : _) (s : State) :
    exec (.storeArrayRead kind offset byCore differs) s = execStoreArrayRead kind offset byCore differs s := rfl
@[simp] theorem exec_storeEraseAutoSuspend (s : State) :
    exec (.storeEraseAutoSuspend) s = execStoreEraseAutoSuspend s := rfl
@[simp] theorem exec_storeEraseAutoResume (s : State) :
    exec (.storeEraseAutoResume) s = execStoreEraseAutoResume s := rfl
@[simp] theorem exec_firmwareImageDownload (ref : _) (offset : _) (len : _) (last : _) (image : _) (s : State) :
    exec (.firmwareImageDownload ref offset len last image) s = execFirmwareImageDownload ref offset len last image s := rfl
@[simp] theorem exec_firmwareCommitReplace (ref : _) (slot : _) (s : State) :
    exec (.firmwareCommitReplace ref slot) s = execFirmwareCommitReplace ref slot s := rfl
@[simp] theorem exec_firmwareCommitReplaceActivate (ref : _) (slot : _) (s : State) :
    exec (.firmwareCommitReplaceActivate ref slot) s = execFirmwareCommitReplaceActivate ref slot s := rfl
@[simp] theorem exec_firmwareCommitActivateAtReset (ref : _) (slot : _) (s : State) :
    exec (.firmwareCommitActivateAtReset ref slot) s = execFirmwareCommitActivateAtReset ref slot s := rfl
@[simp] theorem exec_firmwareCommitActivateNow (ref : _) (slot : _) (s : State) :
    exec (.firmwareCommitActivateNow ref slot) s = execFirmwareCommitActivateNow ref slot s := rfl
@[simp] theorem exec_firmwareCommitBootPartition (ref : _) (s : State) :
    exec (.firmwareCommitBootPartition ref) s = execFirmwareCommitBootPartition ref s := rfl
@[simp] theorem exec_firmwareActivation (d1CoreOk : _) (regionCoreOk : _) (s : State) :
    exec (.firmwareActivation d1CoreOk regionCoreOk) s = execFirmwareActivation d1CoreOk regionCoreOk s := rfl
@[simp] theorem exec_eventToken (ix : _) (s : State) :
    exec (.eventToken ix) s = execEventToken ix s := rfl
@[simp] theorem exec_eventFlushComplete (s : State) :
    exec (.eventFlushComplete) s = execEventFlushComplete s := rfl
@[simp] theorem exec_kprEvCtrlFlush (s : State) :
    exec (.kprEvCtrlFlush) s = execKprEvCtrlFlush s := rfl
@[simp] theorem exec_kprFcFirstClear (s : State) :
    exec (.kprFcFirstClear) s = execKprFcFirstClear s := rfl
@[simp] theorem exec_kprFcPendClear (k : _) (mask : _) (s : State) :
    exec (.kprFcPendClear k mask) s = execKprFcPendClear k mask s := rfl
@[simp] theorem exec_kprFcInjectGo (source : _) (s : State) :
    exec (.kprFcInjectGo source) s = execKprFcInjectGo source s := rfl
@[simp] theorem exec_regionCoreWatchdog (g : _) (s : State) :
    exec (.regionCoreWatchdog g) s = execRegionCoreWatchdog g s := rfl
@[simp] theorem exec_dieCoreWatchdog (d : _) (s : State) :
    exec (.dieCoreWatchdog d) s = execDieCoreWatchdog d s := rfl
@[simp] theorem exec_shadowClose (holder : _) (ix : _) (persisting : _) (s : State) :
    exec (.shadowClose holder ix persisting) s = execShadowClose holder ix persisting s := rfl
@[simp] theorem exec_collectorParityScan (ok : _) (s : State) :
    exec (.collectorParityScan ok) s = execCollectorParityScan ok s := rfl
@[simp] theorem exec_dieTemperatureWarning (d : _) (t : _) (s : State) :
    exec (.dieTemperatureWarning d t) s = execDieTemperatureWarning d t s := rfl
@[simp] theorem exec_dieTemperatureCritical (d : _) (t : _) (s : State) :
    exec (.dieTemperatureCritical d t) s = execDieTemperatureCritical d t s := rfl
@[simp] theorem exec_mctpPacket (pecOk : _) (s : State) :
    exec (.mctpPacket pecOk) s = execMctpPacket pecOk s := rfl
@[simp] theorem exec_setEndpointId (tag : _) (op : _) (eid : _) (s : State) :
    exec (.setEndpointId tag op eid) s = execSetEndpointId tag op eid s := rfl
@[simp] theorem exec_getEndpointId (tag : _) (s : State) :
    exec (.getEndpointId tag) s = execGetEndpointId tag s := rfl
@[simp] theorem exec_getEndpointUuid (tag : _) (s : State) :
    exec (.getEndpointUuid tag) s = execGetEndpointUuid tag s := rfl
@[simp] theorem exec_getMctpVersionSupport (tag : _) (msgType : _) (s : State) :
    exec (.getMctpVersionSupport tag msgType) s = execGetMctpVersionSupport tag msgType s := rfl
@[simp] theorem exec_getMessageTypeSupport (tag : _) (s : State) :
    exec (.getMessageTypeSupport tag) s = execGetMessageTypeSupport tag s := rfl
@[simp] theorem exec_readNvmeMiDataStructure (tag : _) (dtyp : _) (port : _) (ctrl : _) (s : State) :
    exec (.readNvmeMiDataStructure tag dtyp port ctrl) s = execReadNvmeMiDataStructure tag dtyp port ctrl s := rfl
@[simp] theorem exec_nvmSubsystemHealthStatusPoll (tag : _) (s : State) :
    exec (.nvmSubsystemHealthStatusPoll tag) s = execNvmSubsystemHealthStatusPoll tag s := rfl
@[simp] theorem exec_controllerHealthStatusPoll (tag : _) (start : _) (maxEntries : _) (all : _) (s : State) :
    exec (.controllerHealthStatusPoll tag start maxEntries all) s = execControllerHealthStatusPoll tag start maxEntries all s := rfl
@[simp] theorem exec_configurationGet (tag : _) (id : _) (port : _) (s : State) :
    exec (.configurationGet tag id port) s = execConfigurationGet tag id port s := rfl
@[simp] theorem exec_configurationSet (tag : _) (id : _) (port : _) (value : _) (s : State) :
    exec (.configurationSet tag id port value) s = execConfigurationSet tag id port value s := rfl
@[simp] theorem exec_basicManagementCommand (tag : _) (code : _) (s : State) :
    exec (.basicManagementCommand tag code) s = execBasicManagementCommand tag code s := rfl
@[simp] theorem exec_adminCommandTunnel (ctrl : _) (cid : _) (cmd : _) (s : State) :
    exec (.adminCommandTunnel ctrl cid cmd) s = execAdminCommandTunnel ctrl cid cmd s := rfl
@[simp] theorem exec_miUnsupportedCommand (tag : _) (s : State) :
    exec (.miUnsupportedCommand tag) s = execMiUnsupportedCommand tag s := rfl
@[simp] theorem exec_registerWrite (addr : _) (value : _) (s : State) :
    exec (.registerWrite addr value) s = execRegisterWrite addr value s := rfl
@[simp] theorem exec_epochAheadRetry (peer : _) (opid : _) (s : State) :
    exec (.epochAheadRetry peer opid) s = execEpochAheadRetry peer opid s := rfl
@[simp] theorem exec_contribDoneReply (hdr : _) (stripe : _) (position : _) (index : _) (s : State) :
    exec (.contribDoneReply hdr stripe position index) s = execContribDoneReply hdr stripe position index s := rfl
@[simp] theorem exec_retractReply (hdr : _) (stripe : _) (position : _) (index : _) (s : State) :
    exec (.retractReply hdr stripe position index) s = execRetractReply hdr stripe position index s := rfl
@[simp] theorem exec_otherInboundPacket (d : _) (s : State) :
    exec (.otherInboundPacket d) s = execOtherInboundPacket d s := rfl
@[simp] theorem exec_perstNRelease (d : _) (s : State) :
    exec (.perstNRelease d) s = execPerstNRelease d s := rfl
@[simp] theorem exec_vauxRise (s : State) :
    exec (.vauxRise) s = execVauxRise s := rfl
@[simp] theorem exec_dieTemperatureBackInRange (d : _) (t : _) (s : State) :
    exec (.dieTemperatureBackInRange d t) s = execDieTemperatureBackInRange d t s := rfl
@[simp] theorem exec_zeroFillComplete (d : _) (s : State) :
    exec (.zeroFillComplete d) s = execZeroFillComplete d s := rfl
@[simp] theorem exec_pcieL12Entry (d : _) (s : State) :
    exec (.pcieL12Entry d) s = execPcieL12Entry d s := rfl
@[simp] theorem exec_pcieL12Exit (d : _) (s : State) :
    exec (.pcieL12Exit d) s = execPcieL12Exit d s := rfl

end Sys2Proof.Machine
end

