-- ==== Sys2Proof/Laws/HostIo.lean ====
section
/-! SUPPORT. What the arrival of an I/O command can do (R31, R281, R285). -/

namespace Sys2Proof.Machine

/-- An I/O command that nothing refuses or holds is fetched and carried out. -/
theorem ioThen_runs {s : State} {c : SlotCmd} {f : State → State} (h : s.runsIo c) : s.ioThen c f = .next (f (s.begun c)) := by
  obtain ⟨h1, h2, h3, h4, h6⟩ := h
  have h5 : (s.fetched c.ref || s.mayFetch c) = true := by rcases h2 with h2 | h2 <;> simp [h2]
  simp only [State.ioThen, h1, h3, h4, h5, h6]; rfl

/-- One that is refused completes with the status of the refusal. -/
theorem ioThen_refused {s : State} {c : SlotCmd} {f : State → State} {st : Status} (h1 : s.queueLive c.ref = true)
    (h2 : s.fetched c.ref = true ∨ s.mayFetch c = true) (h3 : (s.fetch c).ioFault c = some st) :
    s.ioThen c f = .next (((s.fetch c).endReads c.ref).complete c.ref st 0) := by
  have h5 : (s.fetched c.ref || s.mayFetch c) = true := by rcases h2 with h2 | h2 <;> simp [h2]
  simp only [State.ioThen, h1, h3, h5]; rfl

/-- One that an earlier command holds keeps its slot. -/
theorem ioThen_held {s : State} {c : SlotCmd} {f : State → State} (h1 : s.queueLive c.ref = true)
    (h2 : s.fetched c.ref = true ∨ s.mayFetch c = true) (h3 : (s.fetch c).ioFault c = none) (h4 : (s.fetch c).ioWaits c = true) :
    s.ioThen c f = .next (s.fetch c) := by
  have h5 : (s.fetched c.ref || s.mayFetch c) = true := by rcases h2 with h2 | h2 <;> simp [h2]
  simp only [State.ioThen, h1, h3, h4, h5]; rfl

/-- One that a region without a free lookup holds keeps its slot and waits (R31). -/
theorem ioThen_lookHeld {s : State} {c : SlotCmd} {f : State → State} {g : RegionIx} (h1 : s.queueLive c.ref = true)
    (h2 : s.fetched c.ref = true ∨ s.mayFetch c = true) (h3 : (s.fetch c).ioFault c = none) (h4 : (s.fetch c).ioWaits c = false)
    (h6 : (s.fetch c).lookBlocked c = some g) : s.ioThen c f = .next ((s.fetch c).lookHeld c g) := by
  have h5 : (s.fetched c.ref || s.mayFetch c) = true := by rcases h2 with h2 | h2 <;> simp [h2]
  simp only [State.ioThen, h1, h3, h4, h5, h6]; rfl

end Sys2Proof.Machine
end

