-- ==== Sys2Proof/Laws/Lane.lean ====
section
/-! SUPPORT. What the shared operations of a lane can do: completing a descriptor (R41) and one microword (R58 to R60). -/

namespace Sys2Proof.Machine

/-- The shadows of a die decide whether a block is shaded, and nothing else of its common block does (R467). -/
theorem shaded_updCommon (s : State) (d : DieIx) (b : Block) (f : DieCommon → DieCommon) (hf : ∀ c, (f c).shadows = c.shadows) :
    (s.updCommon d f).shaded b = s.shaded b := by
  have : (s.updCommon d f).shadows = s.shadows := by
    simp only [State.shadows, State.com, State.updCommon_dies, State.updCommon_keeper]
    congr 2
    · rcases d with ⟨_|_|n, h⟩ <;> simp [hf]
    · rcases d with ⟨_|_|n, h⟩ <;> simp [hf]
  simp [State.shaded, State.causeOf, this]


/-- Completing an entry that is bound to a context (R41, R42): its result goes upward, the context is free, one record is returned. -/
theorem finishDesc_spec (s : State) (l : LaneIx) (e : QEntry) (st : LaneStatus) (nand : Byte) (addr : BitVec 14) (value : Word) (c : CtxIx)
    (he : e.ctx = some c) :
    (s.finishDesc l e st nand addr value).2 = ⟨l, e.desc, e.purpose, st⟩ ∧
    (s.finishDesc l e st nand addr value).1.lanes[l].ctxs = s.lanes[l].ctxs.set c none ∧
    (s.finishDesc l e st nand addr value).1.lanes[l].bus = s.lanes[l].bus ∧
    (s.finishDesc l e st nand addr value).1.lanes[l].ucodeFault = s.lanes[l].ucodeFault ∧
    ∃ r, (s.finishDesc l e st nand addr value).1.lanes[l].completions = s.lanes[l].completions ++ [r] ∧
      r.tag = e.desc.tag ∧ r.status = st ∧ (st = .ucodeFault → r.ucodeAddr = addr.setWidth 16) := by
  simp only [State.finishDesc, he, Option.bind_some]
  refine ⟨trivial, by simp [LaneSt.post], by simp [LaneSt.post], by simp [LaneSt.post], ?_⟩
  simp only [LaneSt.post]
  refine ⟨_, by simp; rfl, ?_, ?_, ?_⟩
  all_goals split <;> simp_all [completionOf]

/-- A microword that is fetched, in range and asks for no channel takes its action. -/
theorem micro_go {s : State} {l : LaneIx} {c : CtxIx} {word : BitVec 24} {e : QEntry} {k : Ctx} {inR : Bool} {nc : Bool} {go : State → QEntry → Ctx → State}
    (h : s.fetches l c word e k) (hr : inR = true) (hc : nc = false) : s.micro l c word inR nc go = .next (go s e k) := by
  obtain ⟨h1, h2, hw, h3⟩ := h
  obtain ⟨k0, hk0, hk⟩ := Option.map_eq_some_iff.mp h1
  subst hr hc
  simp only [State.micro, hk0, h2]
  subst hk
  have a1 : ¬ (0x2000 ≤ (s.lanes[l].fetchAt k0.pc).toNat ∧ (0x2400 ≤ (s.lanes[l].fetchAt k0.pc).toNat ∨ s.lanes[l].patch.words.length ≤ (s.lanes[l].fetchAt k0.pc).toNat - 0x2000)) := by
    simp only at h3; omega
  have a2 : ¬ (0x2000 ≤ (s.lanes[l].fetchAt k0.pc).toNat ∧ s.lanes[l].patch.words.getD ((s.lanes[l].fetchAt k0.pc).toNat - 0x2000) 0 ≠ word) := by
    simp only at h3
    rcases h3 with h3 | ⟨h3, h4, h5⟩
    · omega
    · simp only [h5]; simp
  have hw' : k0.waits = false := hw
  simp only [hw', if_neg a1, if_neg a2]; rfl

/-- With the channel owned, a channel cycle takes its action. -/
theorem micro_goN {s : State} {l : LaneIx} {c : CtxIx} {word : BitVec 24} {e : QEntry} {k : Ctx} {inR : Bool} {go : State → QEntry → Ctx → State}
    (h : s.fetches l c word e k) (hr : inR = true) (hc : s.lanes[l].owner = some c) : s.micro l c word inR true go = .next (go s e k) := by
  rw [← micro_go (nc := false) (go := go) h hr rfl]
  simp only [State.micro, hc]; simp

/-- An operand out of range is a microcode fault. -/
theorem micro_bad {s : State} {l : LaneIx} {c : CtxIx} {word : BitVec 24} {e : QEntry} {k : Ctx} {inR : Bool} {nc : Bool} {go : State → QEntry → Ctx → State}
    (h : s.fetches l c word e k) (hr : inR = false) : s.micro l c word inR nc go = .next (s.microFault l c e k.pc 6) := by
  have := micro_go (inR := true) (nc := false) (go := fun s e k => s.microFault l c e k.pc 6) h rfl rfl
  rw [← this]; subst hr
  simp only [State.micro]; split
  · split
    · rfl
    split
    · rfl
    split
    · rfl
    rename_i a b
    simp at *
  · rfl
/-- A channel cycle without the channel is a microcode fault. -/
theorem micro_own {s : State} {l : LaneIx} {c : CtxIx} {word : BitVec 24} {e : QEntry} {k : Ctx} {inR : Bool} {go : State → QEntry → Ctx → State}
    (h : s.fetches l c word e k) (hr : inR = true) (hc : s.lanes[l].owner ≠ some c) : s.micro l c word inR true go = .next (s.microFault l c e k.pc 7) := by
  have := micro_go (inR := true) (nc := false) (go := fun s e k => s.microFault l c e k.pc 7) h rfl rfl
  rw [← this]; subst hr
  have h2 : (s.lanes[l].owner != some c) = true := by simpa using hc
  simp only [State.micro, h2]; split
  · split
    · rfl
    split
    · rfl
    split
    · rfl
    simp
  · rfl

/-- A change of a die's common block is read back from it. -/
theorem com_updCommon_self (s : State) (d : DieIx) (f : DieCommon → DieCommon) : (s.updCommon d f).com d = f (s.com d) := by
  simp [State.updCommon, State.updDie, State.com]
/-- It leaves the other die. -/
theorem com_updCommon_other (s : State) (d e : DieIx) (h : d ≠ e) (f : DieCommon → DieCommon) : (s.updCommon d f).com e = s.com e := by
  have : d.val ≠ e.val := fun h' => h (Fin.ext h')
  simp [State.updCommon, State.updDie, State.com, this]
/-- A change of the supply leaves the dies. -/
@[simp] theorem com_updSup (s : State) (f : Supply → Supply) (d : DieIx) : (s.updSup f).com d = s.com d := rfl
/-- Raising an event opens and closes no shadow (R458, R467). -/
theorem shaded_raiseFrom (s : State) (b c : Block) (n : Nat) (d0 d1 : Word) : (s.raiseFrom b n d0 d1).shaded c = s.shaded c := by
  have : (s.raiseFrom b n d0 d1).shadows = s.shadows := by
    simp only [State.shadows, State.raiseFrom_fc_shadow]
    congr 1; congr 1
    · exact State.raiseFrom_dies_common_shadows s b n d0 d1 0 (by omega)
    · exact State.raiseFrom_dies_common_shadows s b n d0 d1 1 (by omega)
  simp only [State.shaded, State.causeOf, this]

end Sys2Proof.Machine
end

