-- ==== Sys2Proof/Laws/Memory.lean ====
section
/-! SUPPORT. Laws of the store die's array: reading after a write, the canonical form, and erases (R422, R429). -/

namespace Sys2Proof.Machine

@[simp] theorem memRead_nil (a : Nat) : memRead [] a = erasedByte := rfl

/-- Reading back the byte written, in a canonical array. -/
theorem memRead_memWrite_self (m : List Host.Cell) (a : Nat) (v : Byte) (h : m.Pairwise fun x y => x.1 < y.1) : memRead (memWrite m a v) a = v := by
  induction m with
  | nil => by_cases hv : v = erasedByte <;> simp [memWrite, memRead, hv]
  | cons c r ih =>
    obtain ⟨b, w⟩ := c
    obtain ⟨h1, h2⟩ := List.pairwise_cons.1 h
    have past : ∀ q : List Host.Cell, (∀ y ∈ q, a < y.1) → memRead q a = erasedByte := by
      intro q
      induction q with
      | nil => intro _; rfl
      | cons y q ihq =>
        intro hq
        have hy : a ≠ y.1 := by have := hq y (by simp); omega
        simp only [memRead, if_neg hy]
        exact ihq fun z hz => hq z (by simp [hz])
    by_cases hlt : a < b
    · by_cases hv : v = erasedByte
      · have := past ((b, w) :: r) (by
          intro y hy
          rcases List.mem_cons.1 hy with rfl | hy
          · exact hlt
          · have := h1 y hy; simp only at this; omega)
        simp [memWrite, hlt, hv, this]
      · simp [memWrite, memRead, hlt, hv]
    · by_cases heq : a = b
      · subst heq
        by_cases hv : v = erasedByte
        · have := past r fun y hy => h1 y hy
          simp [memWrite, hv, this]
        · simp [memWrite, memRead, hv]
      · simp only [memWrite, if_neg hlt, if_neg heq, memRead]
        exact ih h2

/-- A write leaves every other byte as it was. -/
theorem memRead_memWrite_other (m : List Host.Cell) (a b : Nat) (v : Byte) (h : b ≠ a) : memRead (memWrite m a v) b = memRead m b := by
  induction m with
  | nil => by_cases hv : v = erasedByte <;> simp [memWrite, memRead, hv, h]
  | cons c r ih =>
    obtain ⟨d, w⟩ := c
    simp only [memWrite]
    by_cases hlt : a < d
    · by_cases hv : v = erasedByte <;> simp [memRead, hlt, hv, h]
    · by_cases heq : a = d
      · subst heq
        by_cases hv : v = erasedByte <;> simp [memRead, hv, h]
      · simp [memRead, hlt, heq, ih]

/-- The canonical form: addresses strictly rising, inside the array, no listed byte erased. -/
theorem memWf_iff (m : List Host.Cell) :
    memWf m = true ↔ m.Pairwise (fun x y => x.1 < y.1) ∧ ∀ c ∈ m, c.1 < arrayBytes ∧ c.2 ≠ erasedByte := by
  induction m with
  | nil => simp [memWf]
  | cons c r ih =>
    obtain ⟨a, v⟩ := c
    cases r with
    | nil => simp [memWf]
    | cons d r =>
      obtain ⟨b, w⟩ := d
      simp only [memWf, Bool.and_eq_true, decide_eq_true_eq, bne_iff_ne, ne_eq, ih, List.pairwise_cons, List.mem_cons, forall_eq_or_imp]
      constructor
      · rintro ⟨⟨h1, h2⟩, ⟨h3, h4⟩, h5, h6⟩
        exact ⟨⟨⟨h1, fun y hy => by have := h3 y hy; omega⟩, h3, h4⟩, ⟨by omega, h2⟩, h5, h6⟩
      · rintro ⟨⟨⟨h1, _⟩, h3, h4⟩, ⟨_, h2⟩, h5, h6⟩
        exact ⟨⟨h1, h2⟩, ⟨h3, h4⟩, h5, h6⟩

/-- Entries of a written array are entries of the array before, or the byte written. -/
theorem mem_memWrite (m : List Host.Cell) (a : Nat) (v : Byte) : ∀ c ∈ memWrite m a v, c ∈ m ∨ (c = (a, v) ∧ v ≠ erasedByte) := by
  induction m with
  | nil => intro c hc; by_cases hv : v = erasedByte <;> simp [memWrite, hv] at hc ⊢; exact hc
  | cons d r ih =>
    obtain ⟨b, w⟩ := d
    intro c hc
    simp only [memWrite] at hc
    split at hc
    · split at hc
      · exact Or.inl hc
      · rcases List.mem_cons.1 hc with rfl | hc
        · next hv => exact Or.inr ⟨rfl, hv⟩
        · exact Or.inl hc
    · split at hc
      · split at hc
        · exact Or.inl (List.mem_cons_of_mem _ hc)
        · next hv =>
          rcases List.mem_cons.1 hc with rfl | hc
          · exact Or.inr ⟨rfl, hv⟩
          · exact Or.inl (List.mem_cons_of_mem _ hc)
      · rcases List.mem_cons.1 hc with rfl | hc
        · exact Or.inl (by simp)
        · rcases ih c hc with h | h
          · exact Or.inl (List.mem_cons_of_mem _ h)
          · exact Or.inr h

/-- A write inside the array keeps the canonical form. -/
theorem memWf_memWrite (m : List Host.Cell) (a : Nat) (v : Byte) (h : memWf m = true) (ha : a < arrayBytes) : memWf (memWrite m a v) = true := by
  rw [memWf_iff] at h ⊢
  obtain ⟨h1, h2⟩ := h
  refine ⟨?_, ?_⟩
  · clear h2
    induction m with
    | nil => by_cases hv : v = erasedByte <;> simp [memWrite, hv]
    | cons d r ih =>
      obtain ⟨b, w⟩ := d
      obtain ⟨p, q⟩ := List.pairwise_cons.1 h1
      simp only [memWrite]
      split
      · split
        · exact h1
        · next hlt _ =>
          refine List.pairwise_cons.2 ⟨?_, h1⟩
          intro y hy
          rcases List.mem_cons.1 hy with rfl | hy
          · exact hlt
          · have := p y hy; simp only at this ⊢; omega
      · split
        · next heq =>
          split
          · exact q
          · exact List.pairwise_cons.2 ⟨fun y hy => by have := p y hy; simp only at this ⊢; omega, q⟩
        · next hlt heq =>
          refine List.pairwise_cons.2 ⟨?_, ih q⟩
          intro y hy
          rcases mem_memWrite r a v y hy with hy | ⟨rfl, _⟩
          · exact p y hy
          · simp only; omega
  · intro c hc
    rcases mem_memWrite m a v c hc with hc | ⟨rfl, hv⟩
    · exact h2 c hc
    · exact ⟨ha, hv⟩

/-- An erase keeps the canonical form. -/
theorem memWf_memEraseSector (m : List Host.Cell) (n : Nat) (h : memWf m = true) : memWf (memEraseSector m n) = true := by
  rw [memWf_iff] at h ⊢
  exact ⟨h.1.filter _, fun c hc => h.2 c (List.mem_filter.1 hc).1⟩

/-- Every byte of an erased sector reads erased, and every other one as before. -/
theorem memRead_memEraseSector (m : List Host.Cell) (n a : Nat) :
    memRead (memEraseSector m n) a = if a / 0x10000 = n then erasedByte else memRead m a := by
  induction m with
  | nil => simp [memEraseSector]
  | cons c r ih =>
    obtain ⟨b, w⟩ := c
    simp only [memEraseSector, List.filter_cons] at ih ⊢
    by_cases hb : b / 0x10000 = n
    · simp only [hb, bne_self_eq_false, Bool.false_eq_true, if_false, ih, memRead]
      by_cases ha : a / 0x10000 = n
      · simp [ha]
      · have : a ≠ b := by rintro rfl; exact ha hb
        simp [ha, this]
    · rw [if_pos (by simpa using hb)]
      simp only [memRead, ih]
      by_cases hab : a = b
      · subst hab; simp [hb]
      · simp [hab]

/-- The array of reset is in canonical form, with nothing listed. -/
theorem memWf_nil : memWf [] = true := rfl

end Sys2Proof.Machine
end

