-- ==== Sys2Proof/Machine/Speed.lean ====
section
/-! DEFINITION. Typical speed of the clockless logic at a VCORE and a die temperature (R24, R25, R522, R524, R525). No command reads it:
the figures are typical and bound nothing (R4, R5). -/

namespace Sys2Proof.Machine

/-- Linear interpolation in a table of rising points, its end values beyond its ends. -/
def interpolate : List (ℚ × ℚ) → ℚ → ℚ
  | [], _ => 1
  | [p], _ => p.2
  | p :: q :: l, x =>
    if x ≤ p.1 then p.2
    else if x ≤ q.1 then p.2 + (q.2 - p.2) * (x - p.1) / (q.1 - p.1)
    else interpolate (q :: l) x

/-- Relative throughput at a VCORE in volts (R24). -/
def speedA (v : ℚ) : ℚ := interpolate [(0.55, 0.45), (0.65, 0.75), (0.75, 1), (0.85, 1.18)] v

/-- The factor of R25 at a VCORE and a temperature in °C: interpolated in VCORE, then in temperature (R524). -/
def speedB (v t : ℚ) : ℚ :=
  let col (a b c d : ℚ) : ℚ := interpolate [(0.55, a), (0.65, b), (0.75, c), (0.85, d)] v
  interpolate [(-40, col 0.86 0.93 0.99 1.03), (0, col 0.93 0.97 1 1.01), (55, col 1 1 1 1), (95, col 1.04 1.02 1 0.98), (105, col 1.05 1.02 1 0.97)] t

/-- The product of both factors of a die. -/
def speed (v t : ℚ) : ℚ := speedA v * speedB v t

/-- The time of an operation whose typical time is `total`, of which `scaled` is spent in clockless logic (R524). -/
def typicalTime (total scaled v t : ℚ) : ℚ := (total - scaled) + scaled / speed v t

/-- A die bridge crossing, in µs (R524). -/
def crossingTime (v t : ℚ) : ℚ := 0.4 / speed v t

/-- Operations of R525 whose parts it states, in µs: typical time and its scaled part. -/
inductive TimedOp where
  | randomRead | stagingRead | windowWrite | throughWrite | flush | ladder3 | ladder4 | ladder5 | phyWake | activation
  deriving DecidableEq, Repr

/-- The typical time and its scaled part (R525). -/
def TimedOp.times : TimedOp → ℚ × ℚ
  | .randomRead => (320, 25)
  | .stagingRead => (95, 14)
  | .windowWrite => (18, 9)
  | .throughWrite => (350, 20)
  | .flush => (3, 2)
  | .ladder3 => (900, 36)
  | .ladder4 => (1500, 83)
  | .ladder5 => (600, 120)
  | .phyWake => (2.5, 0.1)
  | .activation => (350000, 140000)

/-- The paths of R522. -/
inductive RatePath where
  | host | hardDecode | xts | gcm | bridge | zeroing | nand | staging | fold | dram | swarm
  deriving DecidableEq, Repr

/-- Typical throughput in GB/s at standard conditions, and whether it scales with the factors of R24 and R25 (R522). -/
def RatePath.rate : RatePath → ℚ × Bool
  | .host => (28, false)
  | .hardDecode => (33.6, true)
  | .xts => (24, true)
  | .gcm => (28, true)
  | .bridge => (32, true)
  | .zeroing => (8, true)
  | .nand => (86.4, false)
  | .staging => (6, false)
  | .fold => (2.4, false)
  | .dram => (55, false)
  | .swarm => (25, false)

/-- The throughput of a path at a VCORE and a temperature (R522). -/
def RatePath.at (p : RatePath) (v t : ℚ) : ℚ := if p.rate.2 then p.rate.1 * speed v t else p.rate.1

/-- Host reads run at the lower of the host ports and hard decode (R522). -/
def hostReadRate (v t : ℚ) : ℚ := min (RatePath.host.at v t) (RatePath.hardDecode.at v t)

/-- Host writes are bound by the host ports and by both dies' XTS pipelines (R522). -/
def hostWriteRate (v t : ℚ) : ℚ := min (RatePath.host.at v t) (2 * RatePath.xts.at v t)

end Sys2Proof.Machine
end

