-- ==== Sys2Proof/Laws/Speed.lean ====
section
/-! SUPPORT. The worked cases of R522 and R525. -/

namespace Sys2Proof.Machine

theorem speed_cold : speed 0.60 (-40) = 0.537 := by norm_num [speed, speedA, speedB, interpolate]
theorem hostReadRate_low : hostReadRate 0.65 55 = 25.2 := by norm_num [hostReadRate, RatePath.at, RatePath.rate, speed, speedA, speedB, interpolate]
theorem read_time_cold : typicalTime 320 25 0.60 (-40) = 295 + 25 / 0.537 := by rw [typicalTime, speed_cold]; norm_num

end Sys2Proof.Machine
end

