-- ==== Sys2Proof/Laws/Store.lean ====
section
/-! SUPPORT. What the store die's sequences, programs and erases can do (R426 to R432). -/

namespace Sys2Proof.Machine

/-! A record line reaches its pair of sectors, its row of the information sector and the event bits only (R425, R437). -/

/-- The line is counted in its pair; the other sector may be erased ahead, which counts. -/
theorem State.keeperLine_cases (s : State) (k : Fin 3) : ∃ p n, s.keeperLine k = s.updStore (fun x => { x with pairs := x.pairs.set k p }) ∨
    s.keeperLine k = (s.updStore fun x => { x with pairs := x.pairs.set k p }).countErase n := by
  simp only [State.keeperLine]
  exact ⟨_, _, (ite_eq_or_eq _ _ _).symm⟩
@[simp] theorem State.countErase_vinOk (s : State) (n : Nat) : (s.countErase n).keeper.sup.vinOk = s.keeper.sup.vinOk := by
  simp only [State.countErase]; split <;> simp
@[simp] theorem State.keeperLine_vinOk (s : State) (k : Fin 3) : (s.keeperLine k).keeper.sup.vinOk = s.keeper.sup.vinOk := by
  obtain ⟨p, n, h | h⟩ := s.keeperLine_cases k <;> simp [h]
@[simp] theorem State.countErase_vcore (s : State) (n : Nat) : (s.countErase n).keeper.sup.vcore = s.keeper.sup.vcore := by
  simp only [State.countErase]; split <;> simp
@[simp] theorem State.keeperLine_vcore (s : State) (k : Fin 3) : (s.keeperLine k).keeper.sup.vcore = s.keeper.sup.vcore := by
  obtain ⟨p, n, h | h⟩ := s.keeperLine_cases k <;> simp [h]
@[simp] theorem State.countErase_ps (s : State) (n : Nat) : (s.countErase n).keeper.sup.ps = s.keeper.sup.ps := by
  simp only [State.countErase]; split <;> simp
@[simp] theorem State.keeperLine_ps (s : State) (k : Fin 3) : (s.keeperLine k).keeper.sup.ps = s.keeper.sup.ps := by
  obtain ⟨p, n, h | h⟩ := s.keeperLine_cases k <;> simp [h]
@[simp] theorem State.countErase_boot (s : State) (n : Nat) : (s.countErase n).keeper.boot = s.keeper.boot := by
  simp only [State.countErase]; split <;> simp
@[simp] theorem State.keeperLine_boot (s : State) (k : Fin 3) : (s.keeperLine k).keeper.boot = s.keeper.boot := by
  obtain ⟨p, n, h | h⟩ := s.keeperLine_cases k <;> simp [h]
@[simp] theorem State.countErase_tk (s : State) (n : Nat) : (s.countErase n).keeper.tk = s.keeper.tk := by
  simp only [State.countErase]; split <;> simp
@[simp] theorem State.keeperLine_tk (s : State) (k : Fin 3) : (s.keeperLine k).keeper.tk = s.keeper.tk := by
  obtain ⟨p, n, h | h⟩ := s.keeperLine_cases k <;> simp [h]
@[simp] theorem State.countErase_prot (s : State) (n : Nat) : (s.countErase n).keeper.prot = s.keeper.prot := by
  simp only [State.countErase]; split <;> simp
@[simp] theorem State.keeperLine_prot (s : State) (k : Fin 3) : (s.keeperLine k).keeper.prot = s.keeper.prot := by
  obtain ⟨p, n, h | h⟩ := s.keeperLine_cases k <;> simp [h]
@[simp] theorem State.countErase_rescue (s : State) (n : Nat) : (s.countErase n).keeper.rescue = s.keeper.rescue := by
  simp only [State.countErase]; split <;> simp
@[simp] theorem State.keeperLine_rescue (s : State) (k : Fin 3) : (s.keeperLine k).keeper.rescue = s.keeper.rescue := by
  obtain ⟨p, n, h | h⟩ := s.keeperLine_cases k <;> simp [h]
@[simp] theorem State.countErase_fw (s : State) (n : Nat) : (s.countErase n).fw = s.fw := by
  simp only [State.countErase]; split <;> simp
@[simp] theorem State.keeperLine_fw (s : State) (k : Fin 3) : (s.keeperLine k).fw = s.fw := by
  obtain ⟨p, n, h | h⟩ := s.keeperLine_cases k <;> simp [h]
@[simp] theorem State.countErase_opt (s : State) (n : Nat) : (s.countErase n).opt = s.opt := by
  simp only [State.countErase]; split <;> simp
@[simp] theorem State.keeperLine_opt (s : State) (k : Fin 3) : (s.keeperLine k).opt = s.opt := by
  obtain ⟨p, n, h | h⟩ := s.keeperLine_cases k <;> simp [h]
@[simp] theorem State.countErase_pending (s : State) (n : Nat) : (s.countErase n).pending = s.pending := by
  simp only [State.countErase]; split <;> simp
@[simp] theorem State.keeperLine_pending (s : State) (k : Fin 3) : (s.keeperLine k).pending = s.pending := by
  obtain ⟨p, n, h | h⟩ := s.keeperLine_cases k <;> simp [h]
@[simp] theorem State.countErase_store_array (s : State) (n : Nat) : (s.countErase n).store.array = s.store.array := by
  simp only [State.countErase]; split <;> simp
@[simp] theorem State.keeperLine_store_array (s : State) (k : Fin 3) : (s.keeperLine k).store.array = s.store.array := by
  obtain ⟨p, n, h | h⟩ := s.keeperLine_cases k <;> simp [h]
@[simp] theorem State.countErase_store_ready (s : State) (n : Nat) : (s.countErase n).store.ready = s.store.ready := by
  simp only [State.countErase]; split <;> simp
@[simp] theorem State.keeperLine_store_ready (s : State) (k : Fin 3) : (s.keeperLine k).store.ready = s.store.ready := by
  obtain ⟨p, n, h | h⟩ := s.keeperLine_cases k <;> simp [h]

/-! Programs in the array. -/

/-- A program leaves every byte outside its own as it was. -/
theorem memRead_programBytes_other (bs : List Byte) (m : List Host.Cell) (o a : Nat) (h : a < o ∨ o + bs.length ≤ a) :
    memRead (programBytes m o bs) a = memRead m a := by
  induction bs generalizing m o with
  | nil => rfl
  | cons b bs ih =>
    simp only [List.length_cons] at h
    simp only [programBytes]
    rw [ih _ _ (by omega), memRead_memWrite_other _ _ _ _ (by omega)]

/-- A program inside the array keeps the canonical form. -/
theorem memWf_programBytes (bs : List Byte) (m : List Host.Cell) (o : Nat) (h : memWf m = true) (ho : o + bs.length ≤ arrayBytes) :
    memWf (programBytes m o bs) = true := by
  induction bs generalizing m o with
  | nil => exact h
  | cons b bs ih =>
    simp only [List.length_cons] at ho
    exact ih _ _ (memWf_memWrite m o _ h (by omega)) (by omega)

/-- What a failed program leaves is as long as its data. -/
@[simp] theorem failedBytes_length (k : Nat) (bs : List Byte) : (failedBytes k bs).length = bs.length := by
  induction bs generalizing k with
  | nil => rfl
  | cons b bs ih => simp [failedBytes, ih]

/-! Command sequences. -/

/-- A cycle of the requester whose sequence is open is its own (R428). -/
theorem storeCycle_own (s : State) (req : Requester) (off : Nat) (w : Word) (st : SeqStep) (h : s.store.seq = some ⟨req, st⟩) (hw : s.store.waiting = [])
    (hk : (s.ownCycle req off w).store.waiting = []) : s.storeCycle req off w = s.ownCycle req off w := by
  simp only [State.storeCycle, h, hw, bne_self_eq_false, hk]; rfl
/-- So is a first cycle with no sequence open. -/
theorem storeCycle_first (s : State) (req : Requester) (off : Nat) (w : Word) (h : s.store.seq = none)
    (hk : (s.ownCycle req off w).store.waiting = []) : s.storeCycle req off w = s.ownCycle req off w := by
  simp only [State.storeCycle, h, hk]; rfl

/-- The state with a sequence of a requester at a step. -/
def openSequence (s : State) (req : Requester) (st : SeqStep) : State := s.updStore fun x => { x with seq := some { owner := req, step := st } }

/-- The two unlock cycles of a command bring a free controller to the code cycle (R426). -/
theorem storeCommand_unlocked (s : State) (req : Requester) (code : Word) (ws : List (Nat × Word)) (h : s.storeFree) :
    s.storeCommand req code ws = ws.foldl (fun s w => s.storeCycle req w.1 w.2) ((openSequence s req .unlocked2).storeCycle req 0xAA8 code) := by
  obtain ⟨-, h1, h2⟩ := h
  have a1 : s.storeCycle req 0xAA8 0x9C = openSequence s req .unlocked1 := by
    rw [storeCycle_first _ _ _ _ h1]
    · simp only [State.ownCycle, h1]; rfl
    · simp only [State.ownCycle, h1]; simpa using h2
  have a2 : (openSequence s req .unlocked1).storeCycle req 0x554 0x63 = openSequence s req .unlocked2 := by
    rw [storeCycle_own _ _ _ _ .unlocked1 rfl (by simpa [openSequence] using h2)]
    · simp only [State.ownCycle, openSequence, State.updStore]; rfl
    · simp only [State.ownCycle, openSequence, State.updStore]; simpa using h2
  simp only [State.storeCommand, List.cons_append, List.nil_append, List.foldl_cons, a1, a2]

/-- A code with operands opens the sequence for them (R427). -/
theorem storeCycle_code (s : State) (req : Requester) (code : Word) (c : Byte) (h : s.storeFree) (hcc : code.setWidth 8 = c) (hc : code = 0x10 ∨ code = 0x20 ∨ code = 0x30 ∨ code = 0x40 ∨ code = 0x50) :
    (openSequence s req .unlocked2).storeCycle req 0xAA8 code = openSequence s req (.operands c []) := by
  subst hcc
  obtain ⟨-, h1, h2⟩ := h
  have e : (openSequence s req .unlocked2).ownCycle req 0xAA8 code = openSequence s req (.operands (code.setWidth 8) []) := by
    rcases hc with rfl | rfl | rfl | rfl | rfl <;> simp only [State.ownCycle, openSequence, State.updStore, State.codeWrite] <;> rfl
  rw [storeCycle_own _ _ _ _ .unlocked2 rfl (by simpa [openSequence] using h2) (by rw [e]; simpa [openSequence] using h2), e]

/-- An operand cycle of the open sequence takes effect as `operandWrite` says. -/
theorem storeCycle_operand (s : State) (req : Requester) (code : Byte) (acc : List (Nat × Word)) (off : Nat) (w : Word) (h : s.storeFree)
    (t : State) (ht : (openSequence s req (.operands code acc)).operandWrite req code (acc ++ [(off, w)]) = t) (htw : t.store.waiting = []) :
    (openSequence s req (.operands code acc)).storeCycle req off w = t := by
  obtain ⟨-, h1, h2⟩ := h
  have e : (openSequence s req (.operands code acc)).ownCycle req off w = t := by
    rw [← ht]; simp only [State.ownCycle, openSequence, State.updStore]
  rw [storeCycle_own _ _ _ _ _ rfl (by simpa [openSequence] using h2) (by rw [e]; exact htw), e]

/-- Operand cycles that the sequence holds only collect. -/
theorem storeCycles_held (s : State) (req : Requester) (code : Byte) (h : s.storeFree) (ok : List (Nat × Word) → Prop)
    (hok : ∀ l, ok l → (openSequence s req (.operands code l)).operandWrite req code l = openSequence s req (.operands code l))
    (hop : ∀ acc w, ok (acc ++ [w]) → (openSequence s req (.operands code acc)).operandWrite req code (acc ++ [w]) = openSequence s req (.operands code (acc ++ [w]))) :
    ∀ (ws acc : List (Nat × Word)), (∀ k, 0 < k → k ≤ ws.length → ok (acc ++ ws.take k)) →
      ws.foldl (fun s w => s.storeCycle req w.1 w.2) (openSequence s req (.operands code acc)) = openSequence s req (.operands code (acc ++ ws))
  | [], acc, _ => by simp
  | w :: ws, acc, hk => by
    have h1 : ok (acc ++ [w]) := by have := hk 1 (by omega) (by simp); simpa using this
    rw [List.foldl_cons, storeCycle_operand s req code acc w.1 w.2 h _ (hop acc w h1) (by simpa [openSequence] using h.2.2)]
    rw [storeCycles_held s req code h ok hok hop ws (acc ++ [w])]
    · simp
    · intro k hk0 hk1; have := hk (k+1) (by omega) (by simp; omega); simpa using this
/-- Closing an opened sequence gives the free controller back. -/
theorem openAt_closed (s : State) (h : s.storeFree) (req : Requester) (st : SeqStep) : (openSequence s req st).updStore (fun x => { x with seq := none }) = s := by
  obtain ⟨-, h1, h2⟩ := h
  simp only [openSequence, State.updStore]
  have : ({ s.store with seq := none } : Store) = s.store := by
    cases hs : s.store; simp only [hs] at h1; subst h1; rfl
  simp only [this]


/-- A refusal leaves the cycles that wait. -/
theorem refuseStore_waiting (s : State) (code : Byte) (r : StoResult) (ns : List Nat) (req : Requester) : (s.refuseStore code r ns req).store.waiting = s.store.waiting := by
  unfold State.refuseStore; dsimp only; split <;> simp [Store.setCmd]
/-- A program leaves the cycles that wait. -/
theorem startProgram_waiting (s : State) (code : Byte) (req : Requester) (a : Nat) (bs : List Byte) : (s.startProgram code req a bs).store.waiting = s.store.waiting := by
  unfold State.startProgram; dsimp only; split
  · exact refuseStore_waiting ..
  · split
    · exact refuseStore_waiting ..
    · rfl
/-- An erase leaves the cycles that wait. -/
theorem startErase_waiting (s : State) (req : Requester) (ns : List Nat) (b : Bool) : (s.startErase req ns b).store.waiting = s.store.waiting := by
  unfold State.startErase; split
  · exact refuseStore_waiting ..
  · rfl

/-- PROGRAM_64_BIT_WORD with its two operands is `startProgram` (R427). -/
theorem exec_program64 (s : State) (req : Requester) (h : s.storeFree) (a : Nat) (w v : Word) (h1 : a % 8 = 0) (h2 : a < arrayBytes) :
    exec (.program64BitWord req [(a, w), (a + 4, v)]) s = .next (s.startProgram 0x10 req a (wordBytes w ++ wordBytes v)) := by
  simp only [exec_program64BitWord, execProgram64BitWord, State.storeRun, h.1]
  rw [storeCommand_unlocked s req _ _ h, storeCycle_code s req _ 0x10 h rfl (by simp)]
  simp only [List.foldl_cons, List.foldl_nil]
  rw [storeCycle_operand s req 0x10 [] a w h (openSequence s req (.operands 0x10 [(a, w)])) _ (by simpa [openSequence] using h.2.2)]
  · rw [storeCycle_operand s req 0x10 [(a, w)] (a + 4) v h (s.startProgram 0x10 req a (wordBytes w ++ wordBytes v)) _ (by rw [startProgram_waiting]; exact h.2.2)]
    · rfl
    · simp only [State.operandWrite, openAt_closed s h]
      simp [h1, Nat.not_le.mpr h2, ascending]
  · simp only [State.operandWrite]
    simp [h1, Nat.not_le.mpr h2, ascending, openSequence, State.updStore]

/-- A part of an ascending list of operand writes ascends. -/
theorem ascending_of_append : ∀ (l : List (Nat × Word)) (w : Nat × Word), ascending (l ++ [w]) = true → ascending l = true
  | [], _, _ => rfl
  | [x], _, _ => rfl
  | x :: y :: r, w, h => by
    simp only [List.cons_append, ascending, Bool.and_eq_true] at h ⊢
    exact ⟨h.1, ascending_of_append (y :: r) w h.2⟩
/-- So does a front part. -/
theorem ascending_take : ∀ (l : List (Nat × Word)) (k : Nat), ascending l = true → ascending (l.take k) = true
  | [], k, _ => by simp [ascending]
  | [x], k, _ => by cases k <;> simp [ascending]
  | x :: y :: r, 0, _ => rfl
  | x :: y :: r, 1, _ => rfl
  | x :: y :: r, k + 2, h => by
    simp only [ascending, Bool.and_eq_true] at h
    have := ascending_take (y :: r) (k + 1) h.2
    simp only [List.take_succ_cons] at this ⊢
    simp only [ascending, Bool.and_eq_true]; exact ⟨h.1, this⟩

/-- PROGRAM_256_BYTE_LINE with its 64 operands is `startProgram` (R427). -/
theorem exec_program256 (s : State) (req : Requester) (h : s.storeFree) (a : Nat) (ws : List (Nat × Word)) (h1 : a % 256 = 0) (h2 : a < arrayBytes)
    (hl : ws.length = 64) (hh : (ws.headD (0,0)).1 = a) (ha : ascending ws = true) :
    exec (.program256ByteLine req ws) s = .next (s.startProgram 0x20 req a (ws.flatMap fun w => wordBytes w.2)) := by
  simp only [exec_program256ByteLine, execProgram256ByteLine, State.storeRun, h.1]
  rw [storeCommand_unlocked s req _ _ h, storeCycle_code s req _ 0x20 h rfl (by simp)]
  obtain ⟨i, l, rfl⟩ : ∃ i l, ws = i ++ [l] := ⟨ws.dropLast, ws.getLast (by intro e; simp [e] at hl), (List.dropLast_append_getLast _).symm⟩
  have hi : i.length = 63 := by simpa using hl
  rw [List.foldl_append]
  let ok (l : List (Nat × Word)) : Prop := (l.headD (0,0)).1 = a ∧ ascending l = true ∧ l.length < 64
  rw [storeCycles_held s req 0x20 h ok]
  · simp only [List.foldl_cons, List.foldl_nil, List.nil_append]
    rw [storeCycle_operand s req _ i l.1 l.2 h (s.startProgram 0x20 req a ((i ++ [l]).flatMap fun w => wordBytes w.2)) _ (by rw [startProgram_waiting]; exact h.2.2)]
    · rfl
    · simp only [State.operandWrite, openAt_closed s h]
      rw [show ((i ++ [(l.1, l.2)]).headD (0,0)).1 = a from hh]
      simp [ha, h1, hi, Nat.not_le.mpr h2]
  · rintro l ⟨p, q, r⟩
    simp only [State.operandWrite, p, q]; simp [h1, Nat.not_le.mpr h2, r, openSequence, State.updStore]
  · rintro acc w ⟨p, q, r⟩
    simp only [State.operandWrite, p, q]; simp [h1, Nat.not_le.mpr h2, openSequence, State.updStore]; simp at r; omega
  · intro k k0 k1
    refine ⟨?_, ?_, ?_⟩
    · rw [← hh]; cases i with
      | nil => simp at hi
      | cons x xs => obtain ⟨k, rfl⟩ := Nat.exists_eq_succ_of_ne_zero (by omega : k ≠ 0); simp
    · have := ascending_take (i ++ [l]) k ha; rw [List.take_append_of_le_length k1] at this; simpa using this
    · simp; omega

/-- All that `startProgram` can do (R429, R431). -/
theorem startProgram_cases (s : State) (code : Byte) (req : Requester) (a : Nat) (bytes : List Byte) :
   (∀ r, s.storeRefusal req [sectorOf a] true = some r → s.startProgram code req a bytes = (s.refuseStore code r [sectorOf a] req)) ∧
   (s.storeRefusal req [sectorOf a] true = none →
        (bitRise s.store.array a bytes = true → s.startProgram code req a bytes = (s.refuseStore code .bitRise [sectorOf a] req)) ∧
        (bitRise s.store.array a bytes = false → s.startProgram code req a bytes = (s.updStore fun x =>
          { (x.setCmd code .running (sectorOf a) req x.cmdCount) with prog := some { requester := req, offset := a, bytes := bytes } }))) := by
  refine ⟨?_, ?_⟩
  · intro r h; simp only [State.startProgram, h]
  · intro h; refine ⟨?_, ?_⟩ <;> intro hb <;> simp only [State.startProgram, h, hb] <;> rfl
/-- All that `startErase` can do (R431, R437). -/
theorem startErase_cases (s : State) (req : Requester) (ns : List Nat) (b : Bool) :
   (∀ r, s.storeRefusal req ns false = some r → s.startErase req ns b = (s.refuseStore 0x30 r ns req)) ∧
   (s.storeRefusal req ns false = none → s.startErase req ns b = (s.updStore fun x =>
    { (x.setCmd 0x30 .running (ns.headD 0) req ns.length) with
      rows := ns.foldl (fun rows n => setRow rows { rowOf rows n with intent := true }) x.rows
      erase := some { requester := req, sectors := ns, susp := .running, runTime := 0, fromIntent := b } })) := by
  refine ⟨?_, ?_⟩
  · intro r h; simp only [State.startErase, h]
  · intro h; simp only [State.startErase, h]

/-- ERASE_SECTOR with 1 to 8 sectors of one bank stands open for more (R427). -/
theorem exec_eraseSector_opens (s : State) (req : Requester) (h : s.storeFree) (a : Nat) (offs : List Nat) (h1 : offs.length < 8)
   (h2 : ∀ b ∈ a :: offs, b < arrayBytes) (h3 : ((a :: offs).map sectorOf).Nodup) (h4 : ∀ b ∈ offs, sectorBank (sectorOf b) = sectorBank (sectorOf a)) :
   exec (.eraseSector req (a :: offs)) s = .next (openSequence s req (.operands 0x30 ((a :: offs).map fun b => (b, 0x30)))) := by
  simp only [exec_eraseSector, execEraseSector, State.storeRun, h.1]
  rw [storeCommand_unlocked s req _ _ h, storeCycle_code s req _ 0x30 h rfl (by simp)]
  let ok (l : List (Nat × Word)) : Prop := ∃ k, 0 < k ∧ k ≤ (a :: offs).length ∧ l = ((a :: offs).map fun b => (b, (0x30 : Word))).take k
  have key : ∀ l acc, ok l → (openSequence s req (.operands 0x30 acc)).operandWrite req 0x30 l = openSequence s req (.operands 0x30 l) := by
    rintro l acc ⟨k, k0, k1, rfl⟩
    obtain ⟨k, rfl⟩ := Nat.exists_eq_succ_of_ne_zero (by omega : k ≠ 0)
    rw [← List.map_take]
    have m1 : ∀ x ∈ (a :: offs).take (k+1), x < arrayBytes := fun x hx => h2 x (List.mem_of_mem_take hx)
    have m2 : (((a :: offs).take (k+1)).map sectorOf).Nodup := by rw [List.map_take]; exact h3.sublist (List.take_sublist ..)
    have m3 : ∀ x ∈ (a :: offs).take (k+1), sectorBank (sectorOf x) = sectorBank (sectorOf a) := by
      intro x hx; rcases List.mem_cons.1 (List.mem_of_mem_take hx) with rfl | hm
      · rfl
      · exact h4 x hm
    have mh : ((((a :: offs).take (k+1)).map fun b => (b, (0x30 : Word))).headD (0,0)).1 = a := by simp
    have ml : ((a :: offs).take (k+1)).length ≤ 8 := by simp; omega
    generalize (a :: offs).take (k+1) = q at *
    simp only [State.operandWrite, mh, List.map_map, List.length_map]
    rw [if_neg (by decide), if_neg (by decide), if_pos (by decide)]
    have e1 : (q.map fun b => (b, (0x30 : Word))).any (fun w => w.2 != 0x30) = false := by simp
    have e2 : (q.map fun b => (b, (0x30 : Word))).any (fun w => decide (arrayBytes ≤ w.1)) = false := by simpa using m1
    have e3 : (q.map fun b => (b, (0x30 : Word))).any (fun w => sectorBank (sectorOf w.1) != sectorBank (sectorOf a)) = false := by simpa using m3
    have e4 : ((q.map ((fun w : Nat × Word => sectorOf w.1) ∘ fun b => (b, (0x30 : Word)))).Nodup) := m2
    rw [e1, e2, e3, if_neg (by simp; omega), if_neg (by simp only [e4]; simp)]
    rfl
  rw [storeCycles_held s req 0x30 h ok]
  · simp
  · intro l hl; exact key l l hl
  · intro acc w hl; exact key _ _ hl
  · intro k k0 k1; exact ⟨k, k0, by simpa using k1, by simp⟩
/-- 50 µs later its erase starts or is refused (R427). -/
theorem exec_eraseStart_starts (s : State) (req : Requester) (h : s.storeFree) (a : Nat) (offs : List Nat) :
   exec .storeEraseStart (openSequence s req (.operands 0x30 ((a :: offs).map fun b => (b, 0x30)))) = .next (s.startErase req ((a :: offs).map sectorOf) false) := by
  simp only [exec_storeEraseStart, execStoreEraseStart]
  have e : (openSequence s req (.operands 0x30 ((a :: offs).map fun b => (b, 0x30)))).store.seq = some ⟨req, .operands 0x30 ((a :: offs).map fun b => (b, 0x30))⟩ := rfl
  simp only [e]
  rw [if_pos (by simp), openAt_closed s h]
  simp only [List.map_map, Function.comp_def, startErase_waiting, h.2.2, List.length_nil, State.drainWaiting]

end Sys2Proof.Machine
end

