-- ==== Sys2Proof/Laws/Swarm.lean ====
section
/-! SUPPORT. What sealing on a half of a session can do (R250, R253, R331). -/

namespace Sys2Proof.Machine

/-- A session read back after an update that keeps its peer. -/
theorem State.session?_updSession (s : State) (c : Nat) (f : Session → Session) (hf : ∀ x, (f x).peer = x.peer) :
    (s.updSession c f).session? c = (s.session? c).map f := by
  simp only [State.session?, State.updSession, State.updSwarm]
  induction s.swarm.sessions with
  | nil => rfl
  | cons x xs ih =>
    by_cases h : x.peer = c
    · simp [h, hf]
    · rw [List.map_cons, if_neg (by simp [h]), List.find?_cons_of_neg (by simp [h]), List.find?_cons_of_neg (by simp [h])]
      exact ih

/-- Two updates of one session in a row. -/
theorem State.updSession_updSession (s : State) (c : Nat) (f g : Session → Session) (hf : ∀ x, (f x).peer = x.peer) :
    (s.updSession c f).updSession c g = s.updSession c fun x => g (f x) := by
  have e : (fun x : Session => if (x.peer == c) = true then g x else x) ∘ (fun x => if (x.peer == c) = true then f x else x)
      = fun x => if (x.peer == c) = true then g (f x) else x := by
    funext x
    by_cases h : x.peer = c <;> simp [h, hf]
  simp only [State.updSession, State.updSwarm, List.map_map, e]

/-- Sealing reports nothing while the refusal stays as it was. -/
theorem State.sealWith_quiet (s : State) (c : Nat) (k : DieIx) (f : HalfTx → HalfTx) (x : Session) (h : s.session? c = some x)
    (hf : (f x.tx[k]).refused = x.tx[k].refused) :
    s.sealWith c k f = s.updSession c fun x => { x with tx := x.tx.set k (f x.tx[k]) } := by
  have e := State.session?_updSession s c (fun x => { x with tx := x.tx.set k (f x.tx[k]) }) (fun _ => rfl)
  simp only [State.sealWith, e, h, Option.map_some, Option.getD_some]
  rw [if_neg]
  simp only [Fin.getElem_fin] at hf ⊢
  simp [hf]

/-- The first refusal under a key raises Cipher counter exhausted at the die of the half (R331). -/
theorem State.sealWith_refused (s : State) (c : Nat) (k : DieIx) (f : HalfTx → HalfTx) (x : Session) (h : s.session? c = some x)
    (h0 : x.tx[k].refused = false) (h1 : (f x.tx[k]).refused = true) :
    s.sealWith c k f = (s.updSession c fun x => { x with tx := x.tx.set k (f x.tx[k]) }).raise (dieSrc k 12) := by
  have e := State.session?_updSession s c (fun x => { x with tx := x.tx.set k (f x.tx[k]) }) (fun _ => rfl)
  simp only [State.sealWith, e, h, Option.map_some, Option.getD_some, h0]
  rw [if_pos]
  simp only [Fin.getElem_fin] at h1 ⊢
  simp [h1]

end Sys2Proof.Machine
end

