-- ==== Sys2Proof/Machine/RowBytes.lean ====
section
/-! DEFINITION. The payload bytes of frame rows, and what the accumulators and the parity frames of a band hold over them (R97, R179 to R184). State holds
units by identity; these functions give the bytes that follow from it (log entry 68). -/

namespace Sys2Proof.Machine

/-- Bytes of a payload (R97). -/
def payloadBytes : Nat := 4128

/-- The 4,096 bytes of user data of a unit as its frame holds them. -/
def unitBytes (u : Unit4K) : List Byte := (List.range 4096).map (Config.unitByte u.plain u.key)

/-- The payload at slot k of data position u in band row w: user data and header of the frame of a granule; zero where the slot is pad (R180). -/
def State.payloadAt (s : State) (geo : GeometryRec) (g : RegionIx) (b w u k : Nat) : List Byte :=
  let x := s.band g b
  let f := s.rowFrames g x.density
  let frame := frameIndex geo f w u k
  if slotPadded geo f x w u k then List.replicate payloadBytes 0
  else match s.frameAt g b frame with
    | some (pl, i) => framePayload (unitBytes pl.units[i]) (pl.header i)
    | none => (List.range payloadBytes).map (Config.otherByte g.val b frame)

/-- Byte t of frame row (w, k), by data index (R179). -/
def State.rowColumn (s : State) (geo : GeometryRec) (g : RegionIx) (b w k t : Nat) : List Byte :=
  (dataPos geo b).map fun u => (s.payloadAt geo g b w u k).getD t 0

/-- Byte t of parity frame i of a frame row, as its programmed page row holds it (R179, R183). -/
def State.parityByte (s : State) (geo : GeometryRec) (g : RegionIx) (b w k t : Nat) (i : Fin 2) : Byte :=
  let d := s.rowColumn geo g b w k t
  if i = 0 then bandP0 d else bandP1 d

/-- Byte t of the partial P0 or P1 that a cluster holds of a frame row: over the data positions that it has taken in (R182). -/
def State.partialByte (s : State) (geo : GeometryRec) (g : RegionIx) (a : AccRow) (k t : Nat) (i : Fin 2) : Byte :=
  let d := (dataPos geo a.band).map fun u => if a.positions.contains u then (s.payloadAt geo g a.band a.row u k).getD t 0 else 0
  if i = 0 then bandP0 d else bandP1 d

/-- Byte t of the parity payload that the cluster of a parity position forms from the partials sent to it (R183). -/
def State.combinedByte (s : State) (geo : GeometryRec) (g : RegionIx) (rows : List AccRow) (k t : Nat) (i : Fin 2) : Byte :=
  (rows.map fun a => s.partialByte geo g a k t i).foldr (· ^^^ ·) 0

/-- Byte t of every data index of a frame row with some positions unknown, solved from the parities that can be read (R184). -/
def State.solvedColumn (s : State) (geo : GeometryRec) (g : RegionIx) (b w k t : Nat) (unknown : List Nat) (parity : Fin 2 → Bool) : Option (List Byte) :=
  bandSolve (((dataPos geo b).zip (s.rowColumn geo g b w k t)).map fun x => if unknown.contains x.1 then none else some x.2)
    (if parity 0 then some (s.parityByte geo g b w k t 0) else none) (if parity 1 then some (s.parityByte geo g b w k t 1) else none)

end Sys2Proof.Machine
end

