-- ==== Sys2Proof/WellFormed.lean ====
section
/-! DEFINITION. Which commands are well formed: every operand that a command, a message or a queue entry carries as a number fits the field that
carries it (R121 to R126, R199 to R220, R241 to R258, R281 to R294, R489; the field widths of the base specifications for queue entries). -/

namespace Sys2Proof

/-- A number fits a field of that many bits. -/
def fits (bits n : Nat) : Bool := decide (n < 2 ^ bits)

/-- A number lies in a range. -/
def within (lo hi n : Nat) : Bool := decide (lo ≤ n) && decide (n ≤ hi)

/-- A message header (R243): member ID, EPOCH and OPID. -/
def hdrOk (h : MsgHdr) : Bool := fits 14 h.peer && fits 32 h.epoch && fits 64 h.opid

/-- Ranges of Dataset Management and Copy: at most 256, with 64-bit addresses and 32-bit lengths. -/
def rangesOk (l : List LbaRange) : Bool := within 0 256 l.length && l.all fun r => fits 64 r.slba && fits 32 r.nlb

/-- Every operand of the command fits its field. -/
def Instr.wf : Instr → Bool
  | .vcoreOutOfWindow _ mv => fits 16 mv
  | .vcoreWindowRestored _ mv => fits 16 mv
  | .xtal25Stop => true
  | .xtal32kStop => true
  | .dieBridgeTransfer _ _ _ => true
  | .dieBridgeHandshakeTimeout => true
  | .crossingReset _ _ => true
  | .crossingReadyHandshake _ => true
  | .phyWakeRequest _ _ => true
  | .phyIdleTimerExpiry _ _ => true
  | .resourceSlotFree _ => true
  | .descriptorSubmit _ _ _ => true
  | .readPage _ => true
  | .readSoft _ => true
  | .marginRead _ => true
  | .offsetSweep _ => true
  | .programPage _ => true
  | .programPass _ => true
  | .eraseBlock _ => true
  | .suspend _ => true
  | .resume _ => true
  | .setFeature _ => true
  | .getFeature _ => true
  | .readStatus _ => true
  | .train _ _ => true
  | .lunReady _ _ _ _ => true
  | .statusTimeout _ _ => true
  | .minEraseRunTimeExpiry _ _ => true
  | .maxSuspendedTimeExpiry _ _ => true
  | .laneReset _ _ => true
  | .dqsDriftTrack _ _ => true
  | .zqShortCalibration _ => true
  | .laneRetrain _ _ => true
  | .retrainIdleTimeout _ _ => true
  | .lneCtrlRetrain _ => true
  | .lneCtrlCntClr _ => true
  | .patchLoad _ _ => true
  | .nop _ _ => true
  | .jmp _ _ _ => true
  | .brc _ _ _ _ => true
  | .call _ _ _ => true
  | .ret _ _ => true
  | .ldi _ _ _ _ => true
  | .ldu _ _ _ _ => true
  | .ldd _ _ _ _ => true
  | .addi _ _ _ _ _ => true
  | .alu _ _ _ _ _ _ => true
  | .cmp _ _ _ _ => true
  | .tbl _ _ _ _ _ => true
  | .sync _ _ => true
  | .yld _ _ => true
  | .cen _ _ _ => true
  | .cmd _ _ _ _ => true
  | .adr _ _ _ _ => true
  | .adx _ _ _ _ => true
  | .dout _ _ _ _ => true
  | .din _ _ _ _ _ => true
  | .stat _ _ _ _ _ => true
  | .wrdy _ _ _ _ => true
  | .tim _ _ _ => true
  | .wait _ _ _ => true
  | .lvl _ _ _ _ _ => true
  | .phy _ _ _ => true
  | .loop _ _ _ _ => true
  | .susp _ _ => true
  | .sto _ _ _ _ => true
  | .evt _ _ _ => true
  | .done _ _ _ => true
  | .trap _ _ _ => true
  | .foldIdleTimer _ => true
  | .thermalAgeAccumulate => true
  | .carapaceTemperatureSample => true
  | .timekeepingRecordWrite => true
  | .setFeaturesTimestamp ref _ => fits 16 ref.qid
  | .gapTimeout => true
  | .antennaRunStart _ => true
  | .antennaRunComplete _ => true
  | .patrolStart _ => true
  | .patrolComplete _ b => fits 15 b
  | .stagingRowTimeout _ b => fits 15 b
  | .frameDecode _ _ _ => true
  | .decodeComplete _ _ _ => true
  | .decoderCompletionTimeout _ _ => true
  | .retryLadderStep _ _ _ => true
  | .parityAccumulatorMemoryError _ _ band _ => fits 15 band
  | .cluCtrlCntClr _ => true
  | .pendingUpdateApply _ gran => fits 40 gran
  | .journalFrameTimer _ => true
  | .journalFrameDurable _ => true
  | .checkpointCapture _ => true
  | .checkpointIndexWrite _ _ => true
  | .mapSegmentLoad _ seg => fits 16 seg
  | .hostFetchStart _ _ => true
  | .rgnQuery _ _ => true
  | .rgnCtrlCntClr _ => true
  | .reclaimStart _ _ => true
  | .granuleRelocate _ gran => fits 40 gran
  | .bandResync _ b _ => fits 15 b
  | .bandRebuild _ spare _ _ => fits 10 spare
  | .membershipStageStage ref offset len _ _ => fits 16 ref.qid && fits 32 offset && fits 32 len
  | .membershipStageApply ref => fits 16 ref.qid
  | .membershipStageReadMemberKey ref => fits 16 ref.qid
  | .membershipStageReadTableHeader ref => fits 16 ref.qid
  | .membershipStageDiscard ref => fits 16 ref.qid
  | .epochAnnounce hdr epoch _ => hdrOk hdr && fits 32 epoch
  | .trailingEpochTimeout => true
  | .heldMessageTimeout _ => true
  | .sealNotice hdr _ _ band => hdrOk hdr && fits 15 band
  | .sealNoticeTimeout _ b _ => fits 15 b
  | .sealNoticeRetry _ b _ => fits 15 b
  | .slotAssign hdr stripe position m version holders => hdrOk hdr && fits 48 stripe && fits 5 position && fits 3 m && fits 16 version && holders.all (fits 16)
  | .stripeRecord hdr _ _ => hdrOk hdr
  | .stripeRecordAck hdr stripe version => hdrOk hdr && fits 48 stripe && fits 16 version
  | .stripeShortTimeout stripe => fits 48 stripe
  | .contribData hdr stripe position index first count => hdrOk hdr && fits 48 stripe && fits 5 position && fits 2 index && fits 18 first && fits 2 count
  | .contribDone hdr stripe position index _ => hdrOk hdr && fits 48 stripe && fits 5 position && fits 2 index
  | .retract hdr stripe position index first count _ _ _ _ _ => hdrOk hdr && fits 48 stripe && fits 5 position && fits 2 index && fits 18 first && fits 2 count
  | .contribRetry stripe position index => fits 48 stripe && fits 5 position && fits 2 index
  | .contribBusyRetry stripe position index => fits 48 stripe && fits 5 position && fits 2 index
  | .peerLit c => fits 14 c
  | .swarmLinkTraining _ _ => true
  | .swarmPortLinkDown _ => true
  | .neighborSolicitation _ _ => true
  | .arpRequest _ _ => true
  | .echoRequest _ _ => true
  | .lenosPacket _ _ => true
  | .hello _ _ => true
  | .helloAttemptTimeout peer => fits 14 peer
  | .helloRetryTimer peer => fits 14 peer
  | .sessionRekey peer => fits 14 peer
  | .oldSessionErase peer => fits 14 peer
  | .ackTimer peer _ => fits 14 peer
  | .retransmissionTimeout peer _ ctr => fits 14 peer && fits 64 ctr
  | .pathProgressTimeout peer _ => fits 14 peer
  | .livenessTimeout peer => fits 14 peer
  | .peerUnreachable peer => fits 14 peer
  | .heartbeatSendTimer peer => fits 14 peer
  | .heartbeat peer _ applied => fits 14 peer && fits 32 applied
  | .requestAnswerTimeout peer opid => fits 14 peer && fits 64 opid
  | .rebuildRead hdr stripe what index first count _ _ => hdrOk hdr && fits 48 stripe && fits 2 what && fits 5 index && fits 18 first && fits 19 count
  | .rebuildData hdr stripe what index first count _ _ _ _ _ _ _ => hdrOk hdr && fits 48 stripe && fits 2 what && fits 5 index && fits 18 first && fits 19 count
  | .lightRequest peer _ _ => fits 14 peer
  | .nak hdr reason refused _ => hdrOk hdr && fits 8 reason && fits 8 refused
  | .rebuildTaskStart _ _ _ => true
  | .pushBusyRetry stripe _ index => fits 48 stripe && fits 5 index
  | .pushNoNamespaceRetry stripe _ index => fits 48 stripe && fits 5 index
  | .darkWaitExpiry ref => fits 16 ref.qid
  | .swmCtrlCntClr _ => true
  | .pcieLinkTraining _ _ _ => true
  | .hostLinkDown _ => true
  | .perstNAssert _ => true
  | .functionLevelReset _ => true
  | .configRequest _ => true
  | .controllerEnable _ asqs acqs => within 1 4096 asqs && within 1 4096 acqs
  | .controllerReset _ => true
  | .normalShutdown _ => true
  | .abruptShutdown _ => true
  | .nvmSubsystemReset _ _ => true
  | .submissionQueueDoorbell _ qid tail => fits 16 qid && fits 16 tail
  | .completionQueueDoorbell _ qid head => fits 16 qid && fits 16 head
  | .createIoSubmissionQueue ref qid entries cqid _ => fits 16 ref.qid && fits 16 qid && within 1 65536 entries && fits 16 cqid
  | .deleteIoSubmissionQueue ref qid => fits 16 ref.qid && fits 16 qid
  | .createIoCompletionQueue ref qid entries _ _ vector => fits 16 ref.qid && fits 16 qid && within 1 65536 entries && fits 16 vector
  | .deleteIoCompletionQueue ref qid => fits 16 ref.qid && fits 16 qid
  | .getLogPage ref _ nsid lsi lpo len _ => fits 16 ref.qid && fits 32 nsid && fits 16 lsi && fits 64 lpo && fits 32 len
  | .identify ref _ nsid cntid => fits 16 ref.qid && fits 32 nsid && fits 16 cntid
  | .abort ref sqid _ => fits 16 ref.qid && fits 16 sqid
  | .getFeatures ref _ _ => fits 16 ref.qid
  | .setFeaturesArbitration ref _ => fits 16 ref.qid
  | .setFeaturesPowerManagement ref ps => fits 16 ref.qid && fits 5 ps
  | .setFeaturesTemperatureThreshold ref _ sel _ => fits 16 ref.qid && fits 4 sel
  | .setFeaturesErrorRecovery ref _ => fits 16 ref.qid
  | .setFeaturesNumberOfQueues ref _ _ => fits 16 ref.qid
  | .setFeaturesInterruptCoalescing ref _ => fits 16 ref.qid
  | .setFeaturesInterruptVectorConfig ref _ _ => fits 16 ref.qid
  | .setFeaturesAsyncEventConfiguration ref _ => fits 16 ref.qid
  | .setFeaturesApst ref _ _ => fits 16 ref.qid
  | .setFeaturesFdp ref _ _ _ => fits 16 ref.qid
  | .setFeaturesFdpEvents ref _ _ _ => fits 16 ref.qid
  | .asynchronousEventRequest ref => fits 16 ref.qid
  | .namespaceManagementCreate ref nsze ncap lbaf phandles _ => fits 16 ref.qid && fits 64 nsze && fits 64 ncap && fits 6 lbaf && phandles.all (fits 16)
  | .namespaceManagementDelete ref nsid => fits 16 ref.qid && fits 32 nsid
  | .namespaceAttachment ref nsid _ _ => fits 16 ref.qid && fits 32 nsid
  | .formatNvm ref nsid lbaf => fits 16 ref.qid && fits 32 nsid && fits 6 lbaf
  | .formatNvmCryptoErase ref nsid lbaf _ => fits 16 ref.qid && fits 32 nsid && fits 6 lbaf
  | .securitySendKek ref _ => fits 16 ref.qid
  | .securitySendNamespaceKey ref nsid _ => fits 16 ref.qid && fits 32 nsid
  | .securitySendLock ref => fits 16 ref.qid
  | .securityReceiveKeyStatus ref => fits 16 ref.qid
  | .securityReceiveProtocolList ref => fits 16 ref.qid
  | .sanitizeCryptoErase ref _ => fits 16 ref.qid
  | .sanitizeBlockErase ref _ => fits 16 ref.qid
  | .sanitizeOverwrite ref => fits 16 ref.qid
  | .sanitizeExitFailureMode ref => fits 16 ref.qid
  | .optionStage ref offset len _ _ => fits 16 ref.qid && fits 32 offset && fits 32 len
  | .optionCheck ref => fits 16 ref.qid
  | .optionApplyAtStart ref => fits 16 ref.qid
  | .optionApplyLive ref => fits 16 ref.qid
  | .managementRead ref _ numd => fits 16 ref.qid && fits 32 numd
  | .managementWrite ref _ _ => fits 16 ref.qid
  | .diapausePrepare ref => fits 16 ref.qid
  | .diapauseReady => true
  | .diapauseStatus ref => fits 16 ref.qid
  | .unsupportedCommand ref => fits 16 ref.qid
  | .read ref nsid slba nlb => fits 16 ref.qid && fits 32 nsid && fits 64 slba && within 1 65536 nlb
  | .write ref nsid slba nlb dtype dspec _ => fits 16 ref.qid && fits 32 nsid && fits 64 slba && within 1 65536 nlb && fits 8 dtype && fits 16 dspec
  | .windowAdmit _ => true
  | .xtsEncrypt _ gran seq _ => fits 40 gran && fits 64 seq
  | .flush ref nsid => fits 16 ref.qid && fits 32 nsid
  | .writeZeroes ref nsid slba nlb => fits 16 ref.qid && fits 32 nsid && fits 64 slba && within 1 65536 nlb
  | .datasetManagement ref nsid _ ranges => fits 16 ref.qid && fits 32 nsid && rangesOk ranges
  | .verify ref nsid slba nlb => fits 16 ref.qid && fits 32 nsid && fits 64 slba && within 1 65536 nlb
  | .copy ref nsid sdlba src => fits 16 ref.qid && fits 32 nsid && fits 64 sdlba && rangesOk src
  | .apstIdleTimer _ => true
  | .bufferAllocate _ _ _ _ => true
  | .bufferReferenceTake _ _ _ => true
  | .bufferReferenceDrop _ _ _ => true
  | .bufferZeroed _ _ _ => true
  | .dramOscillatorRead _ _ _ => true
  | .dramZqLatch _ _ => true
  | .dramRetrain _ _ _ => true
  | .memoryCorrected _ _ _ _ => true
  | .memoryUncorrectable _ _ _ _ => true
  | .locationRetire _ _ _ _ _ => true
  | .memTest _ _ _ => true
  | .memCtrlCntClr _ => true
  | .cphCtrlCntClr _ => true
  | .vinRise _ => true
  | .vinFall => true
  | .railWindowTimeout _ => true
  | .regulatorStartTimeout _ => true
  | .boardRailOutOfWindow _ _ => true
  | .vinOvervoltage _ => true
  | .powerCapAverage _ => true
  | .pwrLossNAssert => true
  | .vinBelowLossThreshold => true
  | .rescueComplete _ => true
  | .huIsoRelease _ => true
  | .vinBelowWarning _ => true
  | .kprCtrlHuMeasure => true
  | .measurementIntervalExpiry => true
  | .holdupWindowsEmpty => true
  | .holdupSettleExpiry _ => true
  | .holdupDischargeCrossing _ => true
  | .holdupDischargeTimeout => true
  | .holdupRecharged mv => fits 16 mv
  | .holdupChargeTimeout => true
  | .vauxLost => true
  | .thermistorFault _ _ => true
  | .keeperTemperatureCritical _ => true
  | .adcSample _ => true
  | .packageRestart _ => true
  | .d0Release _ => true
  | .bootWindowTimeout => true
  | .program64BitWord _ _ => true
  | .program256ByteLine _ _ => true
  | .eraseSector _ _ => true
  | .eraseSuspend _ runTime => fits 16 runTime
  | .eraseResume _ => true
  | .marginMode _ _ => true
  | .readEraseCounter _ offset => fits 32 offset
  | .returnToRead _ => true
  | .storeEraseStart => true
  | .storeSequenceTimeout => true
  | .storeProgramComplete _ => true
  | .storeEraseComplete _ => true
  | .storeEraseTimeout => true
  | .storeArrayRead _ offset _ _ => fits 32 offset
  | .storeEraseAutoSuspend => true
  | .storeEraseAutoResume => true
  | .firmwareImageDownload ref offset len _ _ => fits 16 ref.qid && fits 32 offset && fits 32 len
  | .firmwareCommitReplace ref slot => fits 16 ref.qid && fits 3 slot
  | .firmwareCommitReplaceActivate ref slot => fits 16 ref.qid && fits 3 slot
  | .firmwareCommitActivateAtReset ref slot => fits 16 ref.qid && fits 3 slot
  | .firmwareCommitActivateNow ref slot => fits 16 ref.qid && fits 3 slot
  | .firmwareCommitBootPartition ref => fits 16 ref.qid
  | .firmwareActivation _ _ => true
  | .eventToken _ => true
  | .eventFlushComplete => true
  | .kprEvCtrlFlush => true
  | .kprFcFirstClear => true
  | .kprFcPendClear _ _ => true
  | .kprFcInjectGo _ => true
  | .regionCoreWatchdog _ => true
  | .dieCoreWatchdog _ => true
  | .shadowClose _ _ _ => true
  | .collectorParityScan _ => true
  | .dieTemperatureWarning _ _ => true
  | .dieTemperatureCritical _ _ => true
  | .mctpPacket _ => true
  | .setEndpointId _ _ _ => true
  | .getEndpointId _ => true
  | .getEndpointUuid _ => true
  | .getMctpVersionSupport _ _ => true
  | .getMessageTypeSupport _ => true
  | .readNvmeMiDataStructure _ dtyp port ctrl => fits 8 dtyp && fits 8 port && fits 16 ctrl
  | .nvmSubsystemHealthStatusPoll _ => true
  | .controllerHealthStatusPoll _ start maxEntries _ => fits 16 start && fits 8 maxEntries
  | .configurationGet _ id port => fits 8 id && fits 8 port
  | .configurationSet _ id port value => fits 8 id && fits 8 port && fits 32 value
  | .basicManagementCommand _ code => fits 8 code
  | .adminCommandTunnel ctrl _ _ => fits 16 ctrl
  | .miUnsupportedCommand _ => true
  | .registerWrite _ _ => true
  | .epochAheadRetry peer opid => fits 14 peer && fits 64 opid
  | .contribDoneReply hdr stripe position index => hdrOk hdr && fits 48 stripe && fits 5 position && fits 2 index
  | .retractReply hdr stripe position index => hdrOk hdr && fits 48 stripe && fits 5 position && fits 2 index
  | .otherInboundPacket _ => true
  | .perstNRelease _ => true
  | .vauxRise => true
  | .dieTemperatureBackInRange _ _ => true
  | .zeroFillComplete _ => true
  | .pcieL12Entry _ => true
  | .pcieL12Exit _ => true

end Sys2Proof
end

