-- ==== Sys2Proof/Tests/Slice0.lean ====
section
/-! SUPPORT. Witnesses that the hypotheses of the statements can be met, the check of ill-formed terms, and small tests of single steps. -/

set_option Elab.async false

namespace Sys2Proof.Tests

open Sys2Proof Sys2Proof.Machine

/-! States to witness with. -/

/-- A package with its supply, crystals, bridge and host links up, in service. -/
def live : State :=
  let s := State.reset.updSup fun x => { x with
    vinOk := true, vccqOk := true, vddqOk := true, vdd2hOk := true, vkeep := true,
    vio18 := true, vpll := true, vphy := true, state := .lit, vcoreUp := #v[true, true], xtal25 := true, xtal32k := true }
  let s := s.updBoot fun b => { b with lock := true, stage := .serving, active := 1 }
  let up (s : State) (d : DieIx) : State :=
    ((s.updMem d fun m => { m with capacity := 9663676416 }).updCommon d fun c => { c with inService := true, coreUp := true, inReset := false }).updHost d fun h => { h with
      speed := 3, width := 4, enabled := true, ready := true }
  let s := s.updStore fun x => { x with ready := true }
  { up (up s 0) 1 with bridgeUp := true }

/-- D0 stands in the shadow of the safe state. -/
def shadedState : State := live.updFc fun f => { f with shadow := some { source := 378, scope := .allButKeeper, own := .keeper, order := 0 } }

/-- A media profile with every density of 128-byte-step parities. -/
def profile0 : MediaProfile :=
  let e : DensityEntry := { parity := 256, passes := 1, lag := 0, sweepStep := 2, refresh := 0, passRoutine := 0, softDelta := 4 }
  { iface := 1, maxRate := 3600, densities := [.slc, .tlc, .qlc, .plc, .hlc], planes := 2, wordlines := 16, blocks := 200, pageBytes := 18432,
    patchId := 1, idMatch := [0x2C], ea := 0, density := [e, e, e, e, e], minRun := 0, maxSusp := 0, suspLimit := 0, programsBarred := false,
    defaults := List.replicate 13 { routine := 0, timeout := 100 }, routines := List.replicate 64 0, opcodes := List.replicate 256 0x30,
    timings := List.replicate 256 10, odt := [], levels := [], xrows := [], featuresOk := true }

/-- One set of 18 LUNs in each region: three LUNs of each of its lanes, and one spare. -/
def geometryOf (g : Nat) : GeometryRec :=
  { w := 18, sets := 1, spares := 1, slcSlots := 40, rb := 20, retireLimit := 0, op := 0, resRescue := 0, resJournal := 0, resStaging := 0,
    resRetract := 0, resRelocation := 0, markStart := 0, markUrgent := 0, markLow := 0, bandsStaging := 8, bandsJournal := 4, bandsCheckpoint := 4,
    bandsAccum := 4, setLuns := [(List.range 18).map fun i => (6 * g + i / 3) * 32 + i % 3], spareLuns := [6 * g * 32 + 3] }

/-- An option image of the part: every lane populated, four regions, one namespace, a bank of 20 mF. -/
def image0 : OptImage :=
  { headerOk := true, schema := 1, seq := 1, baseSeq := 0, length := 4096, reservedBad := [], shapeBad := [],
    records := {
      identity := none, profiles := [some profile0, none, none, none],
      lanes := some (List.replicate 24 { profile := some 0, ceMask := 1, lunMask := 0xF, idleUs := 0 }),
      density := none, geometry := (List.range 4).map fun g => some (geometryOf g), hostPorts := none,
      namespaces := some [{ nsid := 1, lbaf := 0, nsze := 16384, nguid := 0, base := 0, phandles := [] }], ordered := none,
      power := some { vinNom := 3300, loss := 0, warn := 0, cap := 200, target := 5500, testLoad := 100, rescueP := 160, window := 64,
                      interval := 24, chgTimeout := 10, vauxPresent := true },
      thermal := none, darkWait := none, filters := none, cipher := none, mgmt := none } }

/-- The package with that image applied and in force. -/
def configured : State :=
  let s := live.updOpt fun o => { o with slotA := some image0, inForce := some image0 }
  let s := [0, 1, 2, 3].foldl (fun s g => s.updRegion g fun r => { r with inService := true, coreUp := true }) s
  (List.finRange 24).foldl (fun s l => s.updLane l fun x => { x with iface := 1, inService := true, train := { x.train with rate := some 0 } }) s

/-- A descriptor with every field zero, its check word right. -/
def descNop : Descriptor :=
  { opcode := 0, flags := 0, tag := 0, lun := 160, planes := 1, density := 1, block := 0, wordline := 0, page := 0, pass := 0, column := 0,
    rsv18 := 0, length := 4096, buf0 := 0, buf1 := 0, routine := 0xFF, soft := 3, softDelta := 1, level := 1, offsets := 0, sweepStart := 0,
    sweepStep := 1, sweepCount := 1, feature := 0, rsv45 := 0, featureData := 0, timeout := 0, waitTag := 0, rsv58 := 0, crc := 0 }
/-- A descriptor of an operation with its CRC. -/
def descOf (op : LaneOp) : Descriptor :=
  let d := { descNop with opcode := op.code }
  { d with crc := crc32c ((d.words.toList.take 15).flatMap descBytes) }

/-- A session with member 6. -/
def session0 : Session :=
  { peer := 6, ownId := 10, peerId := 20, tx := Vector.replicate 2 { ctr := 0, msn := 0, queue := [], unacked := [], credit := 512, rtoUs := 100000, path := 0, refused := false },
    rx := Vector.replicate 2 { top := 0, seen := [], nextMsn := 0, held := [], ackDue := false }, lit := false,
    txKey := { key := [1], salt := [2] }, rxKey := { key := [3], salt := [4] }, old := none, oldKey := none }

/-- The reference of an admin command on controller 1. -/
def adm : CmdRef := { ctrl := 0, qid := 0, cid := 9, viaMi := false }

/-- A table that fails its form. -/
def table0 : MemTable := { formOk := false, epoch := 5, swarmId := 1, authKey := 1, authHash := 0, issued := 0, bodyHash := 0, signature := 0, verified := true, headerHash := 7, groups := [], members := [] }
/-- A package with a session, a staged table, a trailing epoch, a held message and a request to retry. -/
def swarmState : State := configured.updSwarm fun w => { w with
  applied := some { table0 with epoch := 4 }, staged := some table0, trailing := some 3, sessions := [session0],
  heldMsgs := [(⟨6, 9, 1⟩, .stripeRecordAck 1 1)], aheadRetry := [{ hdr := ⟨6, 4, 2⟩, msg := .stripeRecordAck 1 1 }] }

/-- The identity of member 2 with both ports configured, its certificate good. -/
def ident0 : IdentityRec :=
  { swarmId := 1, member := 2, cert := some { signed := true, swarmId := 1, member := 2, fromEpoch := 1, toEpoch := 9, keyId := 0 },
    udpPort := 0, dscp := 0, gw0 := 0, gw1 := 0, prefix0 := 64, prefix1 := 64, authHash := 0, port0 := true, port1 := true, addr0 := 1, addr1 := 2 }

/-- An image that passes every check where its identity fits. -/
def image1 : OptImage :=
  let geo (g : Nat) : GeometryRec := { geometryOf g with spareLuns := (List.range 6).map fun k => (6 * g + k) * 32 + 3 }
  { image0 with
    baseSeq := 1
    records := { image0.records with
      identity := some ident0, profiles := [some { profile0 with patchId := 0 }, none, none, none]
      geometry := (List.range 4).map fun g => some (geo g)
      hostPorts := some { ssvid := 0x1E9C, ssid := 1, subnqn := [] }
      namespaces := some [{ nsid := 1, lbaf := 0, nsze := 16384, nguid := 5, base := 0, phandles := [0] }]
      power := some { vinNom := 3300, loss := 0, warn := 0, cap := 500, target := 5500, testLoad := 100, rescueP := 160, window := 64,
                      interval := 24, chgTimeout := 10, vauxPresent := true } } }
/-- A firmware image that takes schema 1. -/
def fwImage0 : FwImage :=
  { deferred := false, actLive := true, raiseArb := false, raisePatchArb := false, formOk := true, targetOk := true, fr := [], arbLevel := 0, patchArbLevel := 0,
    schemaMin := 1, schemaMax := 1, bodyLen := 4096, signed := true, bodyHashOk := true, keyOk := true, patches := [] }
/-- The package with `image1` applied, run by firmware of schema 1. -/
def ready : State :=
  (configured.updOpt fun o => { o with slotA := some image1, inForce := some image1 }).updFw fun f => { f with
    running := some 0, slots := f.slots.map fun x => { x with state := .served, image := some fwImage0 } }

/-- A member that leads stripe 2 of sequence 5, and one that holds the parity of index 1 of stripe 7 of sequence 5. -/
def leadRec : StripeRec :=
  { stripe := 5 * 16384 + 2, k := 4, m := 2, state := .opened, filled := 1, group := 1, epoch := 4, opened := 0, mypos := 0, applying := none, newthru := 0,
    holders := [⟨2, true⟩, ⟨9, false⟩], data := [⟨8, false, false⟩], cur := none, new := none, version := 3 }
def heldRec : StripeRec := { leadRec with stripe := 5 * 16384 + 7, state := .closed, mypos := 1, holders := [⟨7, true⟩, ⟨2, true⟩], data := [⟨6, false, false⟩, ⟨8, true, false⟩] }
def member0 (c : Nat) : MemberEntry :=
  { member := c, group := 1, rack := c, shelf := 1, slot := 1, state := .active, addr0 := none, addr1 := none, adopter := none, reservedSet := false }
def msgState : State :=
  ((ready.updSwarm fun w => { w with
    applied := some { table0 with epoch := 4, groups := [{ group := 1, k := 4, m := 2, shelfLocal := false, shortTimeout := 60 }],
                                  members := [member0 2, member0 6, { member0 3 with group := 2 }] }
    sessions := [session0, { session0 with peer := 3 }]
    notices := [{ region := 0, band := 2, seg := 1, opids := [3], tried := [6], exhausted := false }]
    work := [{ region := 0, band := 2, seg := 1, stripe := 9, position := 0, index := 1, holder := 6, item := .contrib, running := true, refused := none, deferred := false },
      { region := 0, band := 2, seg := 2, stripe := 10, position := 0, index := 1, holder := 6, item := .retract, running := true, refused := none, deferred := false }] }).updTab 0
    fun t => { (t.setBand { freshBand 2 with phase := .closed }) with segs := [{ band := 2, seg := 1, state := .noticed, position := 0, stripe := 6, done := 0, retracted := 0 }] }).updTab 1
    fun t => { t with stripes := [leadRec, heldRec] }
/-- A table that passes every check of R203 at `ready`. -/
def tableOk : MemTable := { table0 with
  formOk := true, epoch := 9, groups := [{ group := 1, k := 4, m := 1, shelfLocal := true, shortTimeout := 60 }]
  members := (List.range 5).map fun i => { member0 (i + 2) with slot := 0 } }

/-- A die out of its VCORE window, one with the window back, and a live package meet the hypotheses of `FabricEventsAct`. -/
theorem witness_FabricEventsAct :
    State.reset.shaded (.die 0) = false ∧ shadedState.shaded (.die 0) = true ∧
    live.keeper.sup.vinOk = true ∧ live.keeper.sup.xtal25 = true ∧ live.keeper.sup.xtal32k = true ∧
    (live.updSup fun x => { x with vinOk := false }).keeper.sup.xtal32k = true ∧ live.hostLinkUp 1 = true := by decide +kernel
/-- Bridge states, crossing states and an idle lane that meet the hypotheses of `FabricEventsAct`, clause by clause. -/
theorem witness_FabricEventsAct_crossings :
    let b := live.updCommon 0 fun c => { c with bridge := { c.bridge with out := [⟨7, 7, .request ⟨0, 1, 1, false⟩, .read⟩] } }
    let full := live.updCommon 1 fun c => { c with bridge := { c.bridge with out := (List.range 256).map fun i => ⟨i, 0, .other, .read⟩ } }
    let run := live.updCrossing (.nand 3) fun c => { c with running := true, clockOn := true }
    let held := live.updCommon 0 fun c => { c with tokensPaused := true }
    b.bridgeUp = true ∧ (b.com 0).tokensPaused = false ∧ ((b.com 0).bridge.out.find? (·.tag == 7)).isSome = true ∧ (b.com 0).bridge.waiting = [] ∧
    (held.com 0).tokensPaused = true ∧ live.clocksRun = true ∧ (∀ x ∈ (b.com 0).bridge.out, x.fails < 8) ∧
    (live.com 1).bridge.out.length < 256 ∧ full.bridgeUp = true ∧ (full.com 1).bridge.out.any (·.tag == 256) = false ∧
    256 ≤ (full.com 1).bridge.out.length ∧ (b.com 0).bridge.out ≠ [] ∧ (run.crossing (.nand 3)).running = true ∧
    (live.crossing (.pcie 0)).running = false ∧ run.lanes[(3 : LaneIx)].crossing.clockOn = true ∧ run.laneIdle 3 = true := by decide +kernel

/-- A lane whose first entry asks for an operation. -/
def laneWith (op : LaneOp) (more : LaneSt → LaneSt) : State :=
  live.updLane 5 fun x => more { x with
    iface := 1, inService := true, queue := [{ desc := { descNop with opcode := op.code }, purpose := .plain, slot := .general, ctx := none }] }
/-- The entry of that lane. -/
def entryOf (op : LaneOp) : QEntry := { desc := { descNop with opcode := op.code }, purpose := .plain, slot := .general, ctx := none }
/-- A running or suspended erase of LUN 0. -/
def eraseAt (p : ErasePhase) (x : LaneSt) : LaneSt := { x with suspLimit := 4, erases := [⟨9, 0, p, false, 0, false, true, false⟩] }

/-- Each operation starts on some lane, with and without an erase on its LUN, below the limit and at it. -/
theorem witness_LaneOperationsStart :
    let full (x : LaneSt) : LaneSt := { x with suspLimit := 4, erases := [⟨9, 0, .running, false, 4, false, true, false⟩] }
    let er (f : LaneSt → LaneSt) := ((laneWith .suspend f).startBind 5 0 (entryOf .suspend) .suspend).lanes[(5 : LaneIx)]
    (laneWith .train id).patchAwaited 5 = false ∧ (laneWith .train id).lanes[(5 : LaneIx)].owner = none ∧
    (∀ op ∈ allLaneOps, (laneWith op id).starts 5 op (entryOf op) 0) ∧
    (er id).erases.find? (fun r => r.unit == 0) = none ∧
    (laneWith .suspend (eraseAt .running)).starts 5 .suspend (entryOf .suspend) 0 ∧
    (er (eraseAt .running)).erases.find? (fun r => r.unit == 0) = some ⟨9, 0, .running, false, 0, false, true, false⟩ ∧ 0 < (er (eraseAt .running)).suspLimit ∧
    (laneWith .suspend full).starts 5 .suspend (entryOf .suspend) 0 ∧ (entryOf .suspend).desc.critical = false ∧
    (er full).erases.find? (fun r => r.unit == 0) = some ⟨9, 0, .running, false, 4, false, true, false⟩ ∧ (er full).suspLimit ≤ 4 ∧
    (laneWith .resume (eraseAt .suspended)).starts 5 .resume (entryOf .resume) 0 ∧
    (suspendedOn ((laneWith .resume (eraseAt .suspended)).startBind 5 0 (entryOf .resume) .resume).lanes[(5 : LaneIx)] 0).isSome = true ∧
    suspendedOn ((laneWith .resume id).startBind 5 0 (entryOf .resume) .resume).lanes[(5 : LaneIx)] 0 = none ∧
    (((laneWith .train id).startBind 5 0 (entryOf .train) .train).fullTraining 5 .startOrTrain false 2 3 []).lanes[(5 : LaneIx)].queue.length = 1 := by
  decide +kernel

/-- A refused, a queued and two waiting descriptors, accumulator memory with and without room; a backlog, a lookup, a waiting transfer. -/
theorem witness_LaneQueueTakesDescriptors :
    let q := configured.updLane 5 fun x => { x with waiting := [(descOf .readPage, .plain)] }
    let c : SlotCmd := heldSlot ⟨0, 1, 5, false⟩ .flush 1
    let h := live.updHost 0 fun h => { h with backlog := [c] }
    let k := live.updHost 0 fun h => { h with slots := [{ c with looks := c.looks.set 1 2 }] }
    let b := (live.bridgeSend 1 (.request c.ref) .read).updCommon 1 fun c => { c with bridge := { c.bridge with waiting := c.bridge.out, out := [] } }
    let full := List.replicate 300 (entryOf .eraseBlock)
    live.descAccepted 5 descNop = false ∧ configured.descAccepted 5 (descOf .readPage) = true ∧
    (match configured.submission 5 (descOf .eraseBlock) .plain with | .notIt => true | _ => false) = true ∧
    (descOf .readPage).op = some .readPage ∧ configured.lanes[(5 : LaneIx)].waiting = [] ∧ q.lanes[(5 : LaneIx)].waiting ≠ [] ∧
    slotFor configured.lanes[(5 : LaneIx)].queue (descOf .readPage) = some .general ∧
    slotFor full (descOf .eraseBlock) = none ∧ slotFor q.lanes[(5 : LaneIx)].queue (descOf .readPage) = some .general ∧
    bestWaiting q.lanes[(5 : LaneIx)].queue q.lanes[(5 : LaneIx)].waiting = some (descOf .readPage, .plain) ∧
    (q.updLane 5 fun x => { x with waiting := x.waiting.erase (descOf .readPage, .plain) }).descAccepted 5 (descOf .readPage) = true ∧
    (let row := (configured.updTab 0 fun t => t.setBand { freshBand 3 with kind := .data, density := .slc })
     let full := row.updCluster 2 fun x => { x with accRows := (List.range 200).map fun k => AccRow.mk 3 (k + 1) [] }
     (row.band 0 3).carriesParity = true ∧ (descOf .programPage).pass = 0 ∧
     row.clusters[clusterOfLane 5].accRows.any (fun r => r.band == 3 && r.row == (descOf .programPage).wordline.toNat) = false ∧
     row.accUsed (clusterOfLane 5) + row.accRowBytes 0 3 ≤ accMemory ∧
     full.clusters[clusterOfLane 5].accRows.any (fun r => r.band == 3 && r.row == (descOf .programPage).wordline.toNat) = false ∧
     accMemory < full.accUsed (clusterOfLane 5) + full.accRowBytes 0 3) ∧
    h.dies[(0 : DieIx)].host.backlog.length = 1 ∧ h.dies[(0 : DieIx)].host.slots.length < 1024 ∧
    ((k.dies[0].host.slots ++ k.dies[1].host.slots).find? fun x => x.looks[(1 : RegionIx)] != 0).isSome = true ∧
    (firstRanked (fun x => workRank x.kind) (b.com 1).bridge.waiting).isSome = true ∧ (b.com 1).bridge.out.length < 256 := by decide +kernel

/-- Entries bound to context 0, erases in each phase, a busy LUN, a trained idle lane with a trigger, and a good patch. -/
theorem witness_LaneResultsAndTimers :
    let run (op : LaneOp) (f : LaneSt → LaneSt) := laneWith op fun x => f { x with queue := [{ entryOf op with ctx := some 0 }] }
    let er (p : ErasePhase) (x : LaneSt) := { x with erases := [EraseRun.mk 0 0 p false 0 false true false] }
    let idle := (configured.updCommon 0 fun c => { c with temp := 60 })
    let both := (laneWith .readPage fun x => { x with
      queue := [{ entryOf .readPage with ctx := some 1 }, { entryOf .eraseBlock with desc := { (entryOf .eraseBlock).desc with tag := 7 }, ctx := some 0 }]
      erases := [EraseRun.mk 7 0 .suspended false 0 false true false] })
    let blob : PatchBlob := { patchId := 1, iface := 1, words := [0], arb := 0, verified := true, redirect := [], crc := crc32c (patchBytes [0]) }
    let fw := configured.updFw fun f => { f with running := some 0, slots := f.slots.map fun x => { x with patches := [blob] } }
    (run .programPage id).lanes[(5 : LaneIx)].queue.find? (fun e => e.desc.tag == 0) = some { entryOf .programPage with ctx := some 0 } ∧
    (entryOf .programPage).desc.op = some .programPage ∧
    (run .programPage id).lanes[(5 : LaneIx)].erases.find? (fun r => r.tag == 0) = none ∧
    (run .eraseBlock (er .running)).lanes[(5 : LaneIx)].queue.find? (fun e => e.desc.tag == 0) = some { entryOf .eraseBlock with ctx := some 0 } ∧
    (run .eraseBlock (er .running)).lanes[(5 : LaneIx)].erases.find? (fun r => r.tag == 0) = some (EraseRun.mk 0 0 .running false 0 false true false) ∧
    (run .eraseBlock (er .suspending)).lanes[(5 : LaneIx)].erases.find? (fun r => r.tag == 0) = some (EraseRun.mk 0 0 .suspending false 0 false true false) ∧
    (run .eraseBlock (er .running)).lanes[(5 : LaneIx)].erases.any (fun r => r.tag == 0 && r.phase == .suspended) = false ∧
    (runningOn (run .eraseBlock (er .running)).lanes[(5 : LaneIx)] 0).isSome = true ∧
    suspendedOn (run .eraseBlock (er .suspended)).lanes[(5 : LaneIx)] 0 = some (EraseRun.mk 0 0 .suspended false 0 false true false) ∧
    lunBusy (run .eraseBlock (er .suspended)).lanes[(5 : LaneIx)] 0 = false ∧ lunBusy both.lanes[(5 : LaneIx)] 0 = true ∧
    (suspendedOn both.lanes[(5 : LaneIx)] 0).isSome = true ∧
    idle.lanes[(0 : LaneIx)].train.rate.isSome = true ∧ idleSlot idle.lanes[(0 : LaneIx)] = true ∧ idle.retrainCause 0 = some .temperature ∧
    idle.lanes[(0 : LaneIx)].inService = true ∧ fw.keeper.boot.lock = true ∧ fw.lanes[(0 : LaneIx)].iface ≠ 0 ∧
    (fw.laneProfile 0).map (·.patchId) = some 1 ∧ fw.lanes[(0 : LaneIx)].patch.active = false ∧ fw.lanes[(0 : LaneIx)].patch.rejections < 2 ∧
    fw.lanes[(0 : LaneIx)].ctxs.any (·.isSome) = false ∧ fw.patchBlob 0 = some blob ∧ fw.keeper.prot.patchArb.toNat ≤ blob.arb ∧
    configured.patchBlob 0 = none ∧ patchOk [0] blob.crc (Vector.ofFn fun i => blob.redirect.getD i.val 0) = true := by decide +kernel

/-- A read behind an accepted erase of its block ranks first, for each read-class operation. -/
theorem witness_ReadOnErasingBlockReturnsPending :
    ∀ op ∈ [LaneOp.readPage, .readSoft, .marginRead, .offsetSweep],
      let x := (laneWith op fun x => { x with queue :=
        [{ entryOf .eraseBlock with desc := { (entryOf .eraseBlock).desc with tag := 3 }, ctx := some 1 }, entryOf op] }).lanes[(5 : LaneIx)]
      x.nextStart = some (entryOf op) ∧ onErasing (x.queue.takeWhile fun q => q.desc.tag != 0) (entryOf op) = true := by decide +kernel

/-- A lane whose context 0 stands at a ROM address with two words on its stack. -/
def ctx0 : Ctx := { freshCtx (descOf .readPage) 64 0 with stack := [5, 6] }
def microState : State := configured.updLane 5 fun x => { x with
  queue := [{ desc := descOf .readPage, purpose := .plain, slot := .general, ctx := some 0 }], ctxs := x.ctxs.set 0 (some ctx0), owner := some 0 }

/-- The entry of that context. -/
def microEntry : QEntry := { desc := descOf .readPage, purpose := .plain, slot := .general, ctx := some 0 }

/-- The context stands in ROM, where it fetches whatever word the routine holds. -/
theorem microState_fetches (word : BitVec 24) : microState.fetches 5 0 word microEntry ctx0 :=
  ⟨by decide +kernel, by decide +kernel, by decide +kernel, .inl (by decide +kernel)⟩

/-- Every word is fetched from ROM; the side conditions hold there. -/
theorem witness_MicrocodeComputes :
    (∀ word, microState.fetches 5 0 word microEntry ctx0) ∧ microState.condition 5 microEntry ctx0 2 = some true ∧
    ctx0.stack.length < 4 ∧ ctx0.stack = [5, 6] ∧ aluResult 5 3 31 = some (0x80000000#32) ∧ aluResult 0 3 1 = some (4#32) ∧
    (1 : BitVec 3).toNat < 5 ∧ microState.laneProfile 5 = some profile0 ∧ tableEntry profile0 1 7 = some (10#32) ∧ 1 ≤ (1 : Fin 4).val :=
  ⟨microState_fetches, by decide +kernel⟩

/-- That context with a rate in W0. -/
def phyAt (v : Word) : State := microState.updLane 5 fun x => { x with ctxs := x.ctxs.set 0 (some { ctx0 with w := ctx0.w.set 0 v }) }

/-- The context owns the channel or another does, its entry is found by tag, the buffer pointers pass their check, registers and the offsets
field hold what each word asks for. -/
theorem witness_MicrocodeActsOnChannel :
    let other := microState.updLane 5 fun x => { x with owner := some 3 }
    let pool := microState.updPool 0 fun p => { p with bufs := [⟨.c1, 2, 1, false, false, [], none, []⟩] }
    let k : Ctx := { ctx0 with w := (ctx0.w.set 1 63).set 2 (encodePtr .c1 2 0) }
    let e : QEntry := { microEntry with desc := { descOf .readPage with offsets := encodePtr .c1 2 0 } }
    let lv := pool.updLane 5 fun x => { x with queue := [e], ctxs := x.ctxs.set 0 (some k) }
    (∀ word, microState.fetches 5 0 word microEntry ctx0) ∧ (microState.lanes[(5 : LaneIx)].owner = some 0 ∧
    other.fetches 5 0 (microword 0x0C 0) microEntry ctx0 ∧ other.lanes[(5 : LaneIx)].owner = some 3 ∧ (3 : CtxIx) ≠ 0 ∧
    (microState.updLane 5 fun x => { x with owner := none }).fetches 5 0 (microword 0x0C 0) microEntry ctx0 ∧
    microState.laneProfile 5 = some profile0 ∧ profile0.opcodes[(7 : Byte).toNat]? = some 0x30 ∧
    pool.ptrCheck 0 (encodePtr .c1 2 0) 4096 true = none ∧ dieOfLane 5 = 0 ∧
    microState.lanes[(5 : LaneIx)].queue.find? (fun x => x.desc.tag == microEntry.desc.tag) = some microEntry) ∧
    (lv.fetches 5 0 (microword 0x18 (0 * 2 ^ 15 + 1 * 2 ^ 11)) e k ∧ lv.lanes[(5 : LaneIx)].owner = some 0 ∧
    (k.w[(1 : Fin 16)]).toNat = 63 ∧ e.desc.offsets ≠ 0 ∧ lv.ptrCheck 0 e.desc.offsets 64 false = none ∧
    lv.fetches 5 0 (microword 0x12 (1 * 2 ^ 15 + 2 * 2 ^ 11)) e k ∧ lv.ptrCheck 0 k.w[(2 : Fin 16)] (k.w[(1 : Fin 16)]).toNat false = none ∧
    lv.fetches 5 0 (microword 0x13 (1 * 2 ^ 15 + 2 * 2 ^ 11 + 1)) e k ∧ lv.ptrCheck 0 k.w[(2 : Fin 16)] (k.w[(1 : Fin 16)]).toNat true = none) ∧
    ((microState.updLane 5 fun x => { x with ctxs := x.ctxs.set 0 (some { ctx0 with w := ctx0.w.set 1 63 }) }).fetches 5 0 (microword 0x18 (1 * 2 ^ 11))
      microEntry { ctx0 with w := ctx0.w.set 1 63 } ∧ microEntry.desc.offsets = 0 ∧
    (phyAt 0).fetches 5 0 (microword 0x19 5) microEntry { ctx0 with w := ctx0.w.set 0 0 } ∧
    (phyAt 3).fetches 5 0 (microword 0x19 5) microEntry { ctx0 with w := ctx0.w.set 0 3 } ∧
    (phyAt 4).fetches 5 0 (microword 0x19 5) microEntry { ctx0 with w := ctx0.w.set 0 4 } ∧
    (microState.programFailed 5 microEntry.desc).lanes[(5 : LaneIx)].queue.find? (fun x => x.desc.tag == microEntry.desc.tag) = some microEntry ∧
    (microState.eraseFailed 5 microEntry.desc).lanes[(5 : LaneIx)].queue.find? (fun x => x.desc.tag == microEntry.desc.tag) = some microEntry ∧
    laneStatusOf (8 : Byte).toNat = some .phyFault) :=
  ⟨microState_fetches, by decide +kernel, by decide +kernel, by decide +kernel⟩

/-- A context that stands in unmapped space, one with a full stack, an empty one, and one without the channel. -/
theorem witness_MicrocodeFaultStopsOneContext :
    let e : QEntry := microEntry
    let at_ (k : Ctx) := microState.updLane 5 fun x => { x with ctxs := x.ctxs.set 0 (some k), owner := none }
    0x2400 ≤ ((at_ { ctx0 with pc := 0x3FFF }).lanes[(5 : LaneIx)].fetchAt 0x3FFF).toNat ∧
    (at_ { ctx0 with pc := 0x3FFF }).lanes[(5 : LaneIx)].queue.find? (fun e => e.ctx == some 0) = some e ∧ microOf (.nop 5 0) = some (5, 0) ∧
    (at_ { ctx0 with stack := [1, 2, 3, 4] }).fetches 5 0 (microword 0x03 7) e { ctx0 with stack := [1, 2, 3, 4] } ∧
    (at_ { ctx0 with stack := [] }).fetches 5 0 (microword 0x04 0) e { ctx0 with stack := [] } ∧ (at_ ctx0).lanes[(5 : LaneIx)].owner ≠ some 0 ∧
    (at_ ctx0).fetches 5 0 (microword 0x0F 7) e ctx0 ∧ ctx0.waits = false ∧ 5 < (6 : Fin 16).val ∧ e.ctx = some 0 ∧
    (at_ ctx0).fetches 5 0 (microword 0x02 (12 * 2 ^ 14)) e ctx0 ∧ (at_ ctx0).fetches 5 0 (microword 0x0E 8) e ctx0 ∧
    (at_ ctx0).lanes[(5 : LaneIx)].ctxs[(0 : CtxIx)] = some ctx0 := by decide +kernel

/-- A lit package, one on Carapace only, one with a pending gap. -/
theorem witness_TimekeepingCountsAndAges :
    live.keeper.sup.vinOk = true ∧ live.keeper.sup.xtal25 = true ∧
    (live.updSup fun x => { x with vinOk := false }).keeper.sup.vkeep = true ∧ (live.updSup fun x => { x with vinOk := false }).keeper.sup.xtal32k = true ∧
    (live.updTk fun t => { t with gapPending := true }).keeper.tk.gapPending = true ∧
    (live.updTk fun t => { t with gapPending := true }).keeper.tk.gapReported = false ∧ configured.hostWork = false ∧ (configured.regions[(2 : RegionIx)]).inService = true := by decide +kernel

/-- Frames of every kind at cluster 2: queued, read, in an engine with its climb; and a part-filled staging row. -/
def req0 : FrameReq := { id := 3, region := 0, band := 2, frame := 0, lun := 160, gran := 0, fig := 0, who := .host, base := 0, lost := false, ref := none }
theorem witness_ClusterDecodersAct :
    let j : EngineJob := { req := req0, step := 1, avoid := none }
    let at_ (n : Nat) (p : ClimbPhase) (r : FrameReq) := configured.updCluster 2 fun x => { x with
      inService := true, queue := [j], engines := x.engines.set 1 (some { j with req := r, step := n }), climbs := [{ newClimb r with phase := p, step := n }] }
    let d := at_ 1 .decoding req0
    let b := configured.updBand 0 2 fun x => { x with phase := .opened, use := .staging, nextSlot := 3 }
    (d.clusters[(2 : ClusterIx)].queue.find? (fun j => j.req.id == 3) = some j ∧ engineIdle d.clusters[(2 : ClusterIx)] 0 = true ∧
    softStep j.step = ((0 : Fin 5) == 4) ∧ avoided d.clusters[(2 : ClusterIx)] 0 j = false ∧
    (at_ 1 .arrived req0).climb? 2 3 = some { newClimb req0 with phase := .arrived } ∧ engineIdle (at_ 1 .arrived req0).clusters[(2 : ClusterIx)] 1 = false ∧
    d.clusters[(2 : ClusterIx)].engines[(1 : Fin 5)] = some j ∧ reqCluster req0 = 2 ∧ lunLane req0.lun = some 5 ∧
    (d.updCluster 2 fun x => { x with engines := x.engines.set 1 none }).climb? 2 3 = some { newClimb req0 with phase := .decoding } ∧
    0 ≤ d.frameLimit req0 ∧ lunLane { req0 with lun := 768 }.lun = none ∧
    (at_ 1 .decoding { req0 with lun := 768 }).clusters[(2 : ClusterIx)].engines[(1 : Fin 5)] = some { j with req := { req0 with lun := 768 } } ∧
    reqCluster { req0 with lun := 768 } = 0 ∧ (at_ 4 .decoding req0).clusters[(2 : ClusterIx)].engines[(1 : Fin 5)] = some { j with step := 4 }) ∧
    b.geo? 0 = some (geometryOf 0) ∧ (b.band 0 2).phase = .opened ∧ (b.band 0 2).use = .staging ∧ b.rowFrames 0 (b.band 0 2).density ≠ 0 ∧
    (b.band 0 2).nextSlot % b.rowFrames 0 (b.band 0 2).density ≠ 0 := by decide +kernel

/-- A climb that stands at each place of the ladder, of a frame whose row is readable, in an MLC band; pending and running Antenna runs; bands due for
and under patrol. -/
def ladderAt (n : Nat) (more : State → State) (f : Climb → Climb) : State :=
  more (configured.updCluster 2 fun x => { x with inService := true, climbs := [f { newClimb req0 with phase := .failed, step := n }] })
theorem witness_LadderAntennaAndPatrolAct :
    let k (n : Nat) : Climb := { newClimb req0 with phase := .failed, step := n }
    let known (s : State) : State := s.updBand 0 2 fun x => { x with kind := .data, density := .slc, phase := .closed, rowsOk := [(0, 0)] }
    let s (n : Nat) := ladderAt n known id
    let run : AntRun := { id := 1, region := 0, band := 2, rank := 1, failedRow := none, plan := [], abandoned := false }
    let a := configured.updCluster 2 fun x => { x with inService := true, antPending := [run] }
    let on (r : AntRun) := configured.updCluster 2 fun x => { x with antenna := some r }
    let p := configured.updBand 0 2 fun x => { x with phase := .closed, kind := .data }
    let pr : PatrolRun := { band := 2, run := false, noValley := false, left := 0, frames := 1, correctedSum := 9, maxStep := 1 }
    ((s 1).climb? 2 3 = some (k 1) ∧ (s 7).climbLast (k 7) < (s 7).nextStep (k 7) ∧ (s 1).nextStep (k 1) = 2 ∧ 2 ≤ (s 1).climbLast (k 1) ∧
    (s 2).nextStep (k 2) = 3 ∧ (s 3).nextStep (k 3) = 4 ∧ (s 4).nextStep (k 4) = 5 ∧ 5 ≤ (s 4).climbLast (k 4)) ∧
    ((s 4).awaitsResync req0 = false ∧ (ladderAt 4 (fun s => ((known s).updBand 0 2 fun x => { x with dirty := [0] }).updRegion 0 fun r => { r with resync := [2] }) id).awaitsResync req0 = true ∧
    bestRun a.clusters[(2 : ClusterIx)].antPending = some run ∧ a.clusters[(2 : ClusterIx)].antenna = none ∧ a.clusters[(2 : ClusterIx)].inService = true ∧
    (on run).clusters[(2 : ClusterIx)].antenna = some run ∧ run.allSwept = true ∧ run.abandoned = false ∧ { run with abandoned := true }.abandoned = true ∧
    ((on run).band (regionOfCluster 2) 2).phase = .erased) ∧
    (p.backgroundOk = true ∧ (p.band 0 2).phase = .closed ∧ (p.band 0 2).corr = none ∧ (p.regions[(0 : RegionIx)]).inService = true ∧
    ((p.updRegion 0 fun r => { r with patrols := [pr] }).regions[(0 : RegionIx)]).patrols.find? (fun p => p.band == 2) = some pr) := by
  decide +kernel
/-- A climb that has failed step 5 in a segment of a stripe: not complete, of a leader that is lost, lit or dark. -/
theorem witness_LadderAntennaAndPatrolAct_six :
    let k : Climb := { newClimb req0 with phase := .failed, step := 5 }
    let at_ (lit : Bool) (stripe : Nat) (done : BitVec 4) : State :=
      (((msgState.updSwarm fun w => { w with holderMap := [(stripe, [6, 9])], sessions := [{ session0 with lit := lit }] }).updTab 0 fun t => { t with
        segs := [{ band := 2, seg := 0, state := .assigned, position := 0, stripe := stripe, done := done, retracted := 0 }] }).updCluster 2
        fun x => { x with climbs := [k] }).updClimb 2 3 fun _ => { k with step := 6 }
    let ok (s : State) : Bool := s.stripeComplete (s.reqSeg req0)
    (msgState.updCluster 2 fun x => { x with climbs := [k] }).nextStep k = 6 ∧ 6 ≤ msgState.climbLast k ∧
    ok (at_ true (5 * 16384 + 6) 1) = false ∧ ok (at_ true (5 * 16384 + 99) 3) = true ∧ (at_ true (5 * 16384 + 99) 3).sixLeader (5 * 16384 + 99) = none ∧
    ok (at_ true (5 * 16384 + 6) 3) = true ∧ (at_ true (5 * 16384 + 6) 3).sixLeader (5 * 16384 + 6) = some 6 ∧ (at_ true (5 * 16384 + 6) 3).isLit 6 = true ∧
    (at_ false (5 * 16384 + 6) 3).isLit 6 = false := by decide +kernel

/-- An encrypted host write of one unit that waits. -/
def pend0 : PendUpd :=
  {
    gran := 0, nsid := 1, stream := 0,
    kind := .write ((Vector.replicate 16 none).set 0 (some { plain := 7, key := 4, poisoned := false })),
    seq := 1, encrypted := true, cipher := none, win := none, at_ := none }
/-- Region 0 with an extent, a resident segment, pending a deallocation, a write and a zero of granules 4 and 8 that are not mapped and a write of one
that is, and a due capture. -/
def mapState : State :=
  let s := configured.updTab 0 fun t => { t with extents := [(1, 0, 1)] }
  s.updRegion 0 fun r => { r with
    resident := [0], map := [(12, { state := .mapped, band := 2, frame := 0 })]
    pend := [{ pend0 with gran := 0, kind := .deallocate }, { pend0 with gran := 4 }, { pend0 with gran := 8, kind := .zero [1] }, { pend0 with gran := 12 }],
    journal := { r.journal with sinceCapture := 128 } }
/-- The write of granule 4 covers its first unit, the zero of granule 8 its second. -/
def cover4 (i : Fin 16) : Option Unit4K := ((Vector.replicate 16 none).set 0 (some { plain := 7, key := 4, poisoned := false }))[i]
def cover8 (i : Fin 16) : Option Unit4K := if [1].contains i.val then some (zeroUnit (mapState.nsKey 1)) else none
theorem witness_MapAndJournalCommandsAct :
    let loads := mapState.updRegion 0 fun r => { r with resident := [] }
    let adopts := mapState.updRegion 0 fun r => { r with adopting := true }
    let w := (mapState.updSwarm fun w => { w with seqWaits := [(⟨1, 1, 1⟩, .stripeRecordAck 1 1)] }).updTab 0 fun t => { t with stripeReserve := some 65536 }
    ((mapState.regions[(0 : RegionIx)]).nextUpdate 0 = some { pend0 with gran := 0, kind := .deallocate } ∧
    (mapState.regions[(0 : RegionIx)]).nextUpdate 4 = some { pend0 with gran := 4 } ∧
    (mapState.regions[(0 : RegionIx)]).nextUpdate 8 = some { pend0 with gran := 8, kind := .zero [1] } ∧ pend0.encrypted = true ∧
    (mapState.regions[(0 : RegionIx)]).nextUpdate 12 = some { pend0 with gran := 12 } ∧
    mapState.server 0 = 0 ∧ mapState.server 4 = 0 ∧ mapState.server 8 = 0 ∧ mapState.server 12 = 0 ∧
    (mapState.regions[(0 : RegionIx)]).isResident 0 0 = true ∧ (mapState.regions[(0 : RegionIx)]).isResident 0 4 = true ∧
    (mapState.regions[(0 : RegionIx)]).isResident 0 8 = true ∧ (mapState.regions[(0 : RegionIx)]).isResident 0 12 = true ∧
    (mapState.regions[(0 : RegionIx)]).journal.full = false ∧ (mapState.regions[(0 : RegionIx)]).stagingStopped = false) ∧
    (((mapState.mergeReads 4 cover4).any fun i => !mapState.askedFor 4 i .host none) = false ∧
    ((mapState.mergeReads 4 cover4).any fun i => (mapState.delivered? 4 i .host none).isNone) = false ∧
    ((mapState.mergeReads 8 cover8).any fun i => !mapState.askedFor 8 i .host none) = false ∧
    ((mapState.mergeReads 12 cover4).any fun i => !mapState.askedFor 12 i .host none) = true ∧
    ((mapState.bandFor 0 .staging .slc 0).2).isSome = true ∧
    (∀ b ∈ (mapState.bandFor 0 .staging .slc 0).2, (((mapState.bandFor 0 .staging .slc 0).1.placeIn 0 b fun k f =>
      Placed.mk 4 1 0 1 k f 0 0 (Vector.replicate 16 (zeroUnit 0)) false none).2).isSome = true)) ∧
    ((w.journalDurable 0).swarm.seqWaits ≠ [] ∧ (w.journalDurable 0).stripeReserved = true ∧ (mapState.journalDurable 0).swarm.seqWaits = []) ∧
    ((loads.regions[(0 : RegionIx)]).segments.contains 0 = true ∧ (loads.regions[(0 : RegionIx)]).resident.contains 0 = false ∧
    (loads.regions[(0 : RegionIx)]).segments = [0] ∧ (adopts.regions[(0 : RegionIx)]).adoptedSegs.contains 0 = false ∧
    (adopts.regions[(0 : RegionIx)]).resident.contains 0 = true ∧ (extentOf (mapState.regions[(0 : RegionIx)]).tab.extents 0).isSome = true ∧
    128 ≤ (mapState.regions[(0 : RegionIx)]).journal.sinceCapture ∧
    ((mapState.regions[(0 : RegionIx)]).imageList.find? fun i => i == 0 || (mapState.regions[(0 : RegionIx)]).resident.contains (i - 1)) = some 0) := by decide +kernel

/-- The restore stage, reclaimable bands of each kind, wanted and lost granules, bands to resync and an adopted position. -/
theorem witness_RestoreReclaimAndParityAct :
    let r := configured.updBoot fun b => { b with stage := .restore }
    let closed := configured.updBand 0 2 fun x => { x with phase := .closed, kind := .data, use := .staging }
    let e : MapEntry := { state := .mapped, band := 2, frame := 0 }
    let m := (configured.updBand 0 2 fun x => { x with phase := .closed, kind := .data, refreshDue := true }).updRegion 0 fun r => { r with
      map := [(4, e)], resident := [0], relocNow := [4] }
    let par := m.updBand 0 2 fun x => { x with kind := .swarmParity }
    let gone := m.updRegion 0 fun r => { r with map := [(4, { e with state := .lost })] }
    let sync (u : BandUse) := (m.updRegion 0 fun r => { r with resync := [2] }).updBand 0 2 fun x => { x with use := u, rowsOk := [(0, 0)], dirty := [0] }
    let a : Adoption := { spare := 3, set := 0, position := 1, lost := 7, left := [(2, 0)], done := false }
    let ad := m.updTab 0 fun t => { t with adoptions := [a] }
    (r.keeper.boot.stage = .restore ∧ r.keeper.rescue.run = none ∧ r.keeper.fc.safe = false ∧
    closed.scarabRuns 0 = true ∧ (closed.regions[(0 : RegionIx)]).slots[(0 : Fin 2)] = none ∧ (closed.regions[(0 : RegionIx)]).resync = [] ∧
    (closed.pickReclaim 0 0).map (·.1) = some 2 ∧ (closed.regions[(0 : RegionIx)]).valid 2 = 0 ∧
    (m.pickReclaim 0 0).map (·.1) = some 2 ∧ (m.regions[(0 : RegionIx)]).valid 2 ≠ 0 ∧ (m.band 0 2).kind ≠ .swarmParity ∧ m.scarabRuns 0 = true ∧
    (par.pickReclaim 0 0).map (·.1) = some 2 ∧ (par.regions[(0 : RegionIx)]).valid 2 ≠ 0 ∧ (par.band 0 2).kind = .swarmParity) ∧
    (m.server 4 = 0 ∧ m.copiesRun = true ∧ (m.regions[(0 : RegionIx)]).isResident 0 4 = true ∧ (m.regions[(0 : RegionIx)]).isDark 4 = false ∧
    (m.entryOf 4).state = .mapped ∧ (m.regions[(0 : RegionIx)]).relocNow.contains 4 = true ∧ (m.regions[(0 : RegionIx)]).singles < 16 ∧
    (m.regions[(0 : RegionIx)]).copies.any (fun c => c.gran == 4) = false ∧ (gone.entryOf 4).state = .lost ∧
    ((gone.regions[(0 : RegionIx)]).tab.bands.any fun x => x.placed.any fun pl => pl.gran == 4 && pl.src.isSome) = false) ∧
    ((sync .staging).geo? 0 = some (geometryOf 0) ∧ (sync .staging).regionProf? 0 = some profile0 ∧
    ((sync .staging).regions[(0 : RegionIx)]).resync.contains 2 = true ∧ ((sync .staging).band 0 2).use ≠ .fold ∧ ((sync .fold).band 0 2).use = .fold ∧
    (((coveredRows profile0 (framesPerRow profile0 ((sync .staging).band 0 2).density) ((sync .staging).band 0 2)).filter fun w =>
      !parityWhole ((sync .staging).band 0 2) w).all ([] : List Nat).contains) = false ∧
    (((coveredRows profile0 (framesPerRow profile0 ((sync .staging).band 0 2).density) ((sync .staging).band 0 2)).filter fun w =>
      !parityWhole ((sync .staging).band 0 2) w).all (List.range 16).contains) = true) ∧
    ((ad.regions[(0 : RegionIx)]).tab.adoptions.find? (fun a => a.spare == 3) = some a ∧ ad.regionProf? 0 = some profile0 ∧
    (ad.regions[(0 : RegionIx)]).durable (.spareAdopt 3 0 1 7) = true ∧ (ad.regions[(0 : RegionIx)]).nextRebuild a = some (2, 0) ∧
    ((ad.updBand 0 2 fun x => { x with mappedDurable := true }).regions[(0 : RegionIx)]).nextRebuild a = none) := by
  decide +kernel

/-- A package with a session, a staged table, a trailing epoch, a held message and a request to retry; a table that fails and one that passes. -/
theorem witness_MembershipCommandsAct :
    let s := swarmState.updSwarm fun w => { w with stageNext := 4096 }
    (s.admits .membershipStage adm ∧ s.tableFault (stagedTable table0 (0 + 4096)) = some 1 ∧ ready.tableFault (stagedTable tableOk (0 + 768)) = none ∧ ready.admits .membershipStage adm ∧ adm.viaMi = false ∧
    s.swarm.staged = some table0 ∧ (8192 : Nat) ≠ 0 ∧ (8192 : Nat) ≠ s.swarm.stageNext ∧ (0 : Nat) + 4096 ≤ 1048576 ∧
    configured.swarm.staged = none ∧ configured.admits .membershipStage adm) ∧
    ((s.session? 6).isSome = true ∧ (1 : BitVec 384) ≠ table0.headerHash ∧ s.swarm.trailing = some 3 ∧
    s.swarm.heldMsgs[0]? = some (⟨6, 9, 1⟩, .stripeRecordAck 1 1) ∧
    (s.swarm.aheadRetry.find? (fun q => q.hdr.peer == 6 && q.hdr.opid == 2)).isSome = true) := by decide +kernel

/-- A message of the epoch in force, one answered before, a stale one, an early one, and one more than can be held. -/
theorem witness_SwarmMessagesAreTaken :
    let b : RxBody := .stripeRecordAck 1 1
    let c : RxBody := .sealNotice 0 0 0
    let a := swarmState.updSwarm fun w => { w with answered := [(⟨6, 4, 3⟩, .stripeRecordAck 1 1)] }
    let full := swarmState.updSwarm fun w => { w with heldMsgs := List.replicate 256 (⟨6, 9, 1⟩, b) }
    rxOf (.stripeRecordAck ⟨6, 4, 3⟩ 1 1) = some (⟨6, 4, 3⟩, b) ∧ rxOf (.sealNotice ⟨6, 4, 3⟩ 0 0 0) = some (⟨6, 4, 3⟩, c) ∧
    configured.hears 6 = false ∧ swarmState.takesMsg ⟨6, 4, 3⟩ b ∧ swarmState.takesMsg ⟨6, 4, 3⟩ c ∧ rxReply c = false ∧
    (a.swarm.answered.find? (fun a => a.1.peer == 6 && a.1.opid == 3)).isSome = true ∧
    2 < swarmState.epoch ∧ some 2 ≠ swarmState.swarm.trailing ∧ swarmState.epoch < 9 ∧
    (swarmState.swarm.heldMsgs.filter fun x => x.1.peer == 6).length < 256 ∧
    256 ≤ (full.swarm.heldMsgs.filter fun x => x.1.peer == 6).length ∧ full.hears 6 = true := by decide +kernel

/-- A noticed and a sealed segment, an open stripe that the package leads, work refused toward a lit holder with each reason, requests that wait,
a light request, a dark read, and peers lit and dark. -/
theorem witness_SwarmTimersAndPeersAct :
    let w0 : SegWork := { region := 0, band := 2, seg := 1, stripe := 9, position := 0, index := 1, holder := 6, item := .contrib, running := false,
                          refused := some nakNoRecord, deferred := false }
    let n0 : Notice := { region := 0, band := 2, seg := 1, opids := [], tried := [], exhausted := true }
    let q0 : PendReq := { hdr := ⟨6, 4, 8⟩, msg := .stripeRecordAck 1 1 }
    let q1 : PendReq := { hdr := ⟨6, 4, 9⟩, msg := .stripeRecord true leadRec }
    let r0 : LightReq := { origin := 6, rack := 1, shelf := 1, reason := 0, request := 1, waiting := 1, posted := 0 }
    let s := msgState.updSwarm fun w => { w with
      sessions := [{ session0 with lit := true }, { session0 with peer := 3 }], work := [w0, { w0 with index := 2, refused := some nakBusy }]
      notices := [n0], waits := [q0, q1], light := [r0], darkReads := [{ ref := adm, group := 1, shelf := (1, 1) }] }
    let late : State := { s with keeper := { s.keeper with tk := { s.keeper.tk with opsec := 60 } } }
    let sl := s.updTab 0 fun t => { t with segs := [{ band := 2, seg := 1, state := .sealed, position := 0, stripe := 6, done := 0, retracted := 0 }] }
    ((s.seg 0 2 1).state = .noticed ∧ s.isLit (s.seg 0 2 1).stripe = true ∧
    sl.noticeOf 0 2 1 = some n0 ∧ n0.exhausted = true ∧ (sl.seg 0 2 1).state = .sealed ∧
    s.stripe? leadRec.stripe = some leadRec ∧ leadRec.state = .opened ∧ s.leads leadRec = true ∧ s.swarm.fenced = false ∧ late.shortDue leadRec = true ∧ late.stripe? leadRec.stripe = some leadRec ∧ late.leads leadRec = true ∧
    s.workOf 9 0 1 = some w0 ∧ s.isLit w0.holder = true ∧ w0.refused = some nakNoRecord ∧ (s.workOf 9 0 2).map (·.refused) = some (some nakBusy)) ∧
    ((s.session? 3).isSome = true ∧ s.isLit 3 = false ∧ s.hears 6 = true ∧ (s.session? 6).isSome = true ∧ s.keeper.sup.ps < 3 ∧
    s.waitOf ⟨6, s.epoch, 8⟩ = some q0 ∧ s.waitOf ⟨6, s.epoch, 9⟩ = some q1 ∧
    s.swarm.light.any (fun x => x.origin == r0.origin && x.request == r0.request) = true ∧
    s.swarm.light.any (fun x => x.origin == 6 && x.request == 2) = false ∧ (s.swarm.darkReads.any fun d => d.ref == adm) = true) := by decide +kernel

/-- Every clause's hypotheses hold together in one of these states. -/
theorem witness_StripeMessagesHaveTheirEffect :
    let h : MsgHdr := ⟨6, 4, 3⟩
    let s := msgState
    s.takesMsg h (.sealNotice 0 0 0) ∧ s.takesMsg ⟨3, 4, 1⟩ (.sealNotice 0 0 0) ∧ (s.ownGroup.map (·.group)) = some 1 ∧ s.ownEntry = some (member0 2) ∧
    s.memberEntry 6 = some (member0 6) ∧ ((s.memberEntry 3).map (·.group)) = some 2 ∧ s.readOnlyNow = false ∧ s.swarm.leadClosed = false ∧
    oldestStripe (s.openStripes.filter fun r => s.fits r 6) = some leadRec ∧
    ((s.answeredBy h).swarm.notices.find? (fun n => n.opids.contains 3)).isSome = true ∧ (s.answeredBy h).swarm.notices.find? (fun n => n.opids.contains 4) = none ∧
    ((s.answeredBy h).seg 0 2 1).state = .noticed ∧ (s.answeredBy h).underReclaim 0 2 = false ∧
    s.stripe? heldRec.stripe = some heldRec ∧ (2 : Nat) < heldRec.version ∧ s.stripe? (5 * 16384 + 8) = none ∧ s.tableFull (5 * 16384 + 8) = false ∧
    (s.answeredBy h).stripe? leadRec.stripe = some leadRec := by decide +kernel

/-- The clauses over runs, replies and rebuild messages. -/
theorem witness_StripeMessagesHaveTheirEffect_runs :
    let h : MsgHdr := ⟨6, 4, 3⟩
    let s := msgState
    let rx (n : Nat) (d : Bool) (ap : Option (Nat × Bool)) : State := (s.updSwarm fun w => { w with rxRuns := [{ stripe := 5 * 16384 + 7, hdr := h, next := n }] }).updTab 1
      fun t => { t with stripes := [leadRec, { heldRec with applying := ap, data := [⟨6, d, false⟩] }] }
    let big := (s.updTab 1 fun t => { t with reserved := 2097152 }).updOpt fun o => { o with inForce := o.inForce.map fun im => { im with records := { im.records with
      profiles := [some { profile0 with patchId := 0, wordlines := 16384 }, none, none, none] } } }
    let framed (res : List Nat) := (s.updBand 0 2 fun x => { x with slots := 16, placed := [Placed.mk 4 1 0 1 0 0 0 0 (Vector.replicate 16 (zeroUnit 0)) false none] }).updRegion 0
      fun r => { r with resident := res, tab := { r.tab with segs := [{ band := 2, seg := 0, state := .assigned, position := 0, stripe := 9, done := 0, retracted := 0 }] } }
    let gran : PushGran := { gran := 1, nsid := 9, stream := 0, seq := 1, wtime := 0, wtemp := 0, key := 0, units := Vector.replicate 16 none }
    s.unrestored heldRec = false ∧ heldRec.applying = none ∧ ((big.takeRun (big.stripeRegion heldRec.stripe) .accumulation .slc).2).isSome = true ∧ big.takesMsg h (.contribData heldRec.stripe 0 1 0 2) ∧
    ((rx 2 false (some (1, false))).stripe? heldRec.stripe).isSome = true ∧ ((rx 2 false none).rxRun? heldRec.stripe).isSome = true ∧
    (rx 2 false none).takesMsg h (.contribData heldRec.stripe 0 1 2 2) ∧ (rx 4094 false none).takesMsg h (.contribData heldRec.stripe 0 1 4094 2) ∧
    (rx 262144 false (some (0, false))).takesMsg h (.contribDone heldRec.stripe 0 1 true) ∧
    (rx 262144 true (some (0, true))).takesMsg h (.retract heldRec.stripe 0 1 0 0 false false true false true) ∧
    ((s.answeredBy h).workOf 9 0 1).isSome = true ∧ ((s.answeredBy h).workOf 10 0 1).isSome = true ∧ s.takesMsg h (.retractReply 10 0 1) ∧
    (s.segmentAt 9 0).isNone = true ∧ ((s.updTab 0 fun t => { t with segs := [{ band := 2, seg := 1, state := .assigned, position := 0, stripe := 9, done := 0, retracted := 0 }] }).segmentAt 9 0).isSome = true ∧
    s.framesLoaded 0 2 1 0 1 = true ∧ (framed []).framesLoaded 0 2 0 0 4096 = false ∧ (framed []).segmentAt 9 0 = some (0, { (framed []).seg 0 2 0 with state := .assigned, stripe := 9 }) ∧
    s.leads leadRec = true ∧ s.stripe? leadRec.stripe = some leadRec ∧
    s.swarm.openPushes = [] ∧ [gran].any (fun p => !s.nsids.contains p.nsid) = true ∧ [{ gran with nsid := 1 }].any (fun p => !s.nsids.contains p.nsid) = false ∧
    (s.updSwarm fun w => { w with adopted := some (8, false) }).swarm.adopted.isNone = false := by decide +kernel

/-- A configured member with its port up. -/
def linkState : State :=
  let e (n : Nat) : MemberEntry := { member := n, state := .active, group := 1, rack := n, shelf := 1, slot := 0, addr0 := some 1, addr1 := none, adopter := none, reservedSet := false }
  let s := swarmState.updOpt fun o => { o with inForce := some { image0 with records := { image0.records with identity := some ident0 } } }
  (s.updSwarm fun w => { w with applied := some { table0 with members := [e 2, e 6, e 7] } }).updPort 0 fun p => { p with speed := 2, inService := true }
/-- A HELLO of member 7, and the package's own attempt toward it. -/
def hello7 : HelloMsg :=
  { src := 7, dst := 2, reply := false, epoch := 4, opid := 1, phase := 1, status := 0, sessionId := 5, applied := 4, nonce := 1, ephKey := some (1, 1),
    cert := some { signed := true, swarmId := 1, member := 7, fromEpoch := 1, toEpoch := 9, keyId := 0 }, sig := 0, reservedBad := false, sigOk := true }
def try7 : HelloTry := { peer := 7, initiator := true, phase := 1, ownId := 3, peerId := 0, rekey := false, scalar := 1, first := hello7, second := some hello7 }
theorem witness_LenosPortsAndSessionsAct :
    let at_ (h : HelloTry) := linkState.updSwarm fun w => { w with
      hellos := [h], retryHello := [6], sessions := [{ session0 with old := some (3, session0.rx) }, { session0 with peer := 1 }] }
    let s := at_ try7
    let m (n st : Nat) (sig : Bool) : HelloMsg := { hello7 with reply := n == 2, phase := n, status := st, sigOk := sig }
    let m3 (sig : Bool) : HelloMsg := { m 3 0 sig with sessionId := 0, nonce := 0, ephKey := none, cert := none }
    (linkState.portAddr 0 = some 1 ∧ (linkState.com 0).inService = true ∧ linkState.clocksRun = true ∧ linkState.swarm.ports[(0 : DieIx)].speed ≠ 0 ∧
    linkState.portTakes 0 = true ∧ linkState.swarm.applied.isSome = true ∧ hello7.dst = linkState.actingMember ∧
    helloMalformed { hello7 with reservedBad := true } = true ∧ helloMalformed { m 2 0 true with reservedBad := true } = true ∧ (m 2 0 true).reply = true ∧
    hello7.reply = false ∧ linkState.swarm.hellos.find? (fun h => h.peer == 7) = none) ∧
    (helloMalformed hello7 = false ∧ linkState.helloStatus hello7 = 0 ∧ linkState.ownCertOk = true ∧
    linkState.helloStatus (m 1 0 false) = 3 ∧ linkState.helloStatus { hello7 with src := 9 } = 2 ∧ helloMalformed (m 1 0 false) = false ∧
    s.swarm.hellos.find? (fun h => h.peer == hello7.src) = some try7 ∧ helloMalformed (m 2 1 true) = false ∧ helloMalformed (m 2 0 true) = false ∧
    (((m 2 0 true).cert.map fun c => s.certOk 7 c).getD false && true) = true ∧ helloMalformed (m 2 0 false) = false ∧
    helloMalformed (m3 true) = false ∧ helloMalformed (m3 false) = false ∧
    (at_ { try7 with initiator := false }).swarm.hellos.find? (fun h => h.peer == 7) = some { try7 with initiator := false }) ∧
    (s.session? 7 = none ∧ try7.initiator = true ∧ { try7 with initiator := false }.initiator = false ∧ sharedX try7.scalar (1, 1) = sharedX try7.scalar (1, 1) ∧
    s.swarm.retryHello.contains 6 = true ∧ (s.session? 6).isSome = true ∧ s.actingMember < 6 ∧ (s.session? 1).isSome = true ∧ 1 ≤ s.actingMember ∧
    (s.session? 6).all (fun x => x.old.isSome) = true) := by decide +kernel

/-- A trained port whose session has an unacknowledged record on its first and on its last path, a due acknowledgement; a dark peer. -/
theorem witness_LenosDeliveryActs :
    let t (n : Fin 4) : HalfTx := { session0.tx[0] with unacked := [SentRec.mk 4 [] 0], path := n }
    let x (n : Fin 4) : Session := { session0 with tx := #v[t n, t n], rx := session0.rx.map fun r => { r with ackDue := true, seen := [1] } }
    let s (n : Fin 4) := (configured.updSwarm fun w => { w with sessions := [x n], peers := [{ member := 6, status := 0, applied := 0, reported := false, rebuildClear := false, deferred := false }] }).updPort 0
      fun p => { p with speed := 2 }
    (s 0).portTakes 0 = true ∧ (x 0).rxKey = session0.rxKey ∧ ((s 0).sessionAt 6 10).isSome = true ∧ (x 0).rx[(0 : Fin 2)].fresh 1 = false ∧ (x 0).rx[(0 : Fin 2)].fresh 2 = true ∧
    ((s 0).sessionAt 6 10).all (fun y => y.2) = true ∧ (x 0).rx[(1 : Fin 2)].ackDue = true ∧ (s 0).swarm.fenced = false ∧ (x 0).tx[(1 : Fin 2)].ctr < 2 ^ 33 ∧
    (((s 0).updSession 6 fun y => { y with tx := y.tx.map fun t => { t with ctr := 2 ^ 33 } }).session? 6).all (fun y => decide (2 ^ 33 ≤ y.tx[(1 : Fin 2)].ctr) &&
      !y.tx[(1 : Fin 2)].refused && y.rx[(1 : Fin 2)].ackDue) = true ∧
    (((s 0).updSession 6 fun y => { y with tx := y.tx.map fun t => { t with ctr := 2 ^ 33, refused := true } }).session? 6).all (fun y =>
      y.tx[(1 : Fin 2)].refused && y.rx[(1 : Fin 2)].ackDue) = true ∧ ((s 0).session? 6).isSome = true ∧
    (((s 0).session? 6).bind fun x => x.tx[(0 : Fin 2)].unacked.find? fun r => r.ctr == 4).isSome = true ∧
    (x 0).tx[(0 : Fin 2)].unacked ≠ [] ∧ (x 0).tx[(0 : Fin 2)].path.val < 3 ∧ (x 3).tx[(0 : Fin 2)].path = 3 ∧
    (s 0).isLit 6 = false ∧ ((s 0).peer 6).reported = false ∧ (s 0).peerFlag 6 hbDiapause = false ∧
    ((s 0).swarm.peers.any fun p => p.member == 6) = true := by decide +kernel

/-- Lists of one task: a parity task with a lit and with a dark target, a data task without one, one of index 0 whose run fits, and refused pushes. -/
theorem witness_RebuildTasksStartAndRetry :
    let t : RebuildTask := { stripe := 9, data := false, index := 1, target := some 6, running := false, refused := none, aside := false, done := false, lostRows := [] }
    let big := ((ready.updTab 1 fun t => { t with reserved := 2097152 }).updTab (ready.stripeRegion 9) fun t => { t with reserved := 2097152 }).updOpt fun o => { o with inForce := o.inForce.map fun im => { im with
      records := { im.records with profiles := [some { profile0 with patchId := 0, wordlines := 16384 }, none, none, none] } } }
    let s (t : RebuildTask) := big.updSwarm fun w => { w with tasks := [t], sessions := [session0] }
    let lit (t : RebuildTask) := (s t).updSwarm fun w => { w with sessions := [{ session0 with lit := true }] }
    let t0 : RebuildTask := { t with target := none, index := 0 }
    let r : StripeRec := { stripe := 9, k := 4, m := 2, state := .opened, filled := 0, group := 1, epoch := 4, opened := 0, mypos := 0, applying := none, newthru := 0, holders := [], data := [], cur := none, new := none, version := 1 }
    let s0 := (s t0).putStripe r
    let refusedBy (n : Nat) : RebuildTask := { t with refused := some n }
    ((s t).swarm.fenced = false ∧ (s t).backgroundOk = true ∧ ((s t).swarm.tasks.filter (·.running)).length < 4 ∧ (s t).nextTask = some t ∧
    (s t).isLit 6 = false ∧ (lit t).isLit 6 = true ∧ (lit t).nextTask = some t ∧ (s { t with target := none }).nextTask = some { t with target := none } ∧
    (s { t with target := none, data := true }).nextTask = some { t with target := none, data := true } ∧ ([] : List RowFacts).filter (rowLost 1) = []) ∧
    (s0.nextTask = some t0 ∧ s0.swarm.fenced = false ∧ s0.backgroundOk = true ∧ s0.stripe? 9 = some r ∧
    (((s0.updTask t0 fun x => { x with lostRows := [] }).takeRun ((s0.updTask t0 fun x => { x with lostRows := [] }).stripeRegion 9) .accumulation .slc).2).isSome = true) ∧
    ((s (refusedBy nakBusy)).swarm.tasks.find? (fun t => t.stripe == 9 && t.data == false && t.index == 1 && t.refused == some nakBusy) = some (refusedBy nakBusy) ∧
    (s (refusedBy nakNoNamespace)).swarm.tasks.find? (fun t => t.stripe == 9 && t.data == false && t.index == 1 && t.refused == some nakNoNamespace) =
      some (refusedBy nakNoNamespace) ∧ (refusedBy nakBusy).target = some 6 ∧ (s (refusedBy nakBusy)).isLit 6 = false ∧ (lit (refusedBy nakBusy)).isLit 6 = true ∧
    (lit (refusedBy nakNoNamespace)).isLit 6 = true) := by decide +kernel

/-- Ports that are up and down, controllers enabled and not, with their admin queues; an activation pending. -/
theorem witness_HostPortCommandsAct :
    let q := live.updHost 0 fun h => { h with subs := [SubQueue.mk 0 0 32 0], cpls := [CplQueue.mk 0 32 0 0 true] }
    let off := live.updHost 1 fun h => { h with enabled := false }
    live.configInit 0 = true ∧ live.clocksRun = true ∧ live.keeper.sup.vinOk = true ∧ live.dies[(0 : DieIx)].host.perst = false ∧ live.dies[(0 : DieIx)].host.speed ≠ 0 ∧ live.hostLinkUp 1 = true ∧
    live.portDead = false ∧ (live.updBoot fun b => { b with stage := .recovery, recoveryCommitted := true }).hostLinkUp 0 = true ∧
    (live.updBoot fun b => { b with stage := .recovery, recoveryCommitted := true }).portDead = false ∧
    ((((live.hostReset 0).updHost 0 fun h => { h with cfs := live.keeper.fc.safe }).raiseAt 0 465 0 0).keeper.boot.stage ≠ .recovery) ∧
    ((live.raiseAt 0 466 0 0).keeper.boot.stage ≠ .recovery) ∧ q.hostLinkUp 0 = true ∧ off.dies[(1 : DieIx)].host.enabled = false ∧ off.hostLinkUp 1 = true ∧ off.configInit 1 = true ∧
    (live.updBoot fun b => { b with stage := .recovery, recoveryCommitted := true }).recoveryEnds = true ∧ live.recoveryEnds = false ∧
    live.dies[(0 : DieIx)].host.enabled = true ∧ live.dies[(0 : DieIx)].host.shst = 0 ∧ live.fw.pendingSlot = none ∧
    (live.updFw fun f => { f with pendingSlot := some 2 }).fw.pendingSlot ≠ none ∧ q.dies[(0 : DieIx)].host.enabled = true ∧
    q.dies[(0 : DieIx)].host.subs.find? (fun q => q.id == 0) = some (SubQueue.mk 0 0 32 0) ∧
    q.dies[(0 : DieIx)].host.cpls.find? (fun q => q.id == 0) = some (CplQueue.mk 0 32 0 0 true) := by decide +kernel

/-- A controller with one I/O queue pair, a command in a slot and a waiting event. -/
theorem witness_QueueAndAbortCommandsAct :
    let x : SlotCmd := { heldSlot { adm with qid := 1, cid := 4 } .read 1 with committed := false }
    let s := live.updHost 0 fun h => { h with
      subs := [SubQueue.mk 0 0 32 0, SubQueue.mk 1 1 32 0]
      cpls := [CplQueue.mk 0 32 0 0 true, CplQueue.mk 1 32 0 0 true]
      slots := [x], events := [.firmwareLog] }
    live.admits .queueWork adm ∧ live.admits .abort adm ∧ live.admits .asyncEvent adm ∧ s.admits .queueWork adm ∧ s.admits .abort adm ∧ s.admits .asyncEvent adm ∧
    queueFault (s.dies[refDie adm].host.cpls.map (·.id)) 2 64 true = none ∧ queueFault (s.dies[refDie adm].host.subs.map (·.id)) 2 64 true = none ∧
    (s.dies[refDie adm].host.cpls.any fun q => q.id == 1) = true ∧ (s.dies[refDie adm].host.subs.any fun q => q.id == 1) = true ∧
    (s.dies[refDie adm].host.subs.any fun q => q.cq == 1) = true ∧
    ((s.updHost 0 fun h => { h with subs := [] }).dies[refDie adm].host.subs.any fun q => q.cq == 1) = false ∧
    (s.dies[refDie adm].host.slots.find? (fun x => x.ref.qid == 1 && x.ref.cid == 4 && !x.ref.viaMi && catchable x)).isSome = true ∧
    s.keeper.boot.fallbackEvent = false ∧ s.dies[refDie adm].host.events = [.firmwareLog] ∧ live.dies[refDie adm].host.events = [] ∧
    9 ≤ ((live.updHost 0 fun h => { h with aers := List.replicate 9 1 }).dies[refDie adm].host.aers.length) := by decide +kernel

/-- An admitted Set Features on a controller with its admin queue alone. -/
theorem witness_SetFeaturesAct :
    live.admits .setFeatures adm ∧ (live.dies[refDie adm].host.subs.any fun q => q.id != 0) = false ∧
    (live.dies[refDie adm].host.cpls.any fun q => q.id != 0) = false ∧ (0 : Half) ≠ 0xFFFF ∧ (8 : Nat) ≤ 8 ∧ (8 < 9 ∧ 9 ≠ 15) := by decide +kernel

/-- A supported and an unsupported feature, page and structure, and an idle controller with an entry to PS3. -/
theorem witness_ReadsOfTheControllerAct :
    let a := live.updHost 0 fun h => { h with feat := { h.feat with apste := true, apst := Vector.replicate 32 0x6418 } }
    live.admits .getFeatures adm ∧ (live.featureValue adm 0x02 0).isSome = true ∧ live.featureValue adm 0x42 0 = none ∧
    live.admits (.getLog 0xC2) adm ∧ (live.logPage (refDie adm) 0xC2).isSome = true ∧ live.admits (.getLog 0x42) adm ∧ live.logPage (refDie adm) 0x42 = none ∧
    live.admits (.identify 1) adm ∧ (match live.identifyData adm 1 0 0 with | .inr _ => true | .inl _ => false) = true ∧
    (match live.identifyData adm 0x77 0 0 with | .inr _ => false | .inl _ => true) = true ∧ live.admits (.identify 0x77) adm ∧
    adm.qid = 0 ∧ live.adminBusy .other adm = false ∧ live.tokensHeld adm = false ∧ a.hostIdle = true ∧ a.portDead = false ∧
    apstMs (a.dies[(0 : DieIx)].host.feat.apst[a.keeper.sup.ps % 32]'(Nat.mod_lt _ (by decide))) = 100 ∧
    apstTarget (a.dies[(0 : DieIx)].host.feat.apst[a.keeper.sup.ps % 32]'(Nat.mod_lt _ (by decide))) = 3 ∧ a.keeper.sup.ps < 3 := by decide +kernel

/-- The package with one namespace, the same with an update of it pending, and one without a namespace. -/
theorem witness_NamespaceCommandsAct :
    let u : PendUpd := { gran := 3, nsid := 1, stream := 0, kind := .deallocate, seq := 1, encrypted := false, cipher := none, win := none, at_ := none }
    let busy := configured.updRegion 0 fun r => { r with pend := [u] }
    let none' := configured.updOpt fun o => { o with inForce := some { image0 with records := { image0.records with namespaces := none } } }
    let e := configured.updSub fun x => { x with eraseRef := some adm }
    configured.admits .namespaceWork adm ∧ configured.preparing = false ∧ configured.opt.barrier = none ∧ none'.opt.barrier = none ∧ configured.createFault 16384 (configured.newNamespace 16384 0 []) = none ∧
    (configured.createFault 1 (configured.newNamespace 16384 0 [])).isSome = true ∧ configured.extentBusy [] = false ∧ 1 ∈ configured.nsids ∧
    configured.extentBusy (configured.named 1) = false ∧ busy.extentBusy (busy.named 1) = true ∧ busy.admits .namespaceWork adm ∧ busy.preparing = false ∧
    configured.admits .formatNvm adm ∧ configured.formatFault 1 1 = none ∧ configured.named 1 ≠ [] ∧ e.extentBusy (configured.named 1) = false ∧
    e.preparing = false ∧ e.cancelReady.openErase? = none ∧ configured.admits .sanitize adm ∧ configured.sanitizing = false ∧
    none'.admits .sanitize adm ∧ none'.nsids = [] ∧ none'.sanitizing = false ∧ configured.nsids ≠ [] ∧ e.extentBusy configured.nsids = false := by
  decide +kernel

/-- The package with a transport key and a key-encryption key in the slots of each die, and the same with namespace 1 written. -/
def keyed : State :=
  let fill (c : Cipher) : Cipher := { c with slots := (c.slots.set 34 (some transportKey)).set 32 (some 9), kekId := 3 }
  (configured.updCipher 0 fill).updCipher 1 fill
/-- A blob of either kind, made under the wrapping key of the die that takes it. -/
def blob0 : KeyBlob := { unwraps := #v[true, true], ephKey := (1, 2), wrappedBy := transportWrapKey (1, 2), wlenOk := true, kekId := 3, key := 7 }
def blob1 : KeyBlob := { blob0 with wrappedBy := Config.keyBytes 9 }

theorem keyed_wraps (x : DieIx) : keyed.wrapKeyAt x blob0 true = some blob0.wrappedBy ∧ keyed.wrapKeyAt x blob1 false = some blob1.wrappedBy := by
  have h : ∀ x : DieIx, keyed.dies[x].cipher.slots[34] = some transportKey ∧ keyed.dies[x].cipher.slots[32] = some 9 := by decide +kernel
  simp only [State.wrapKeyAt, h x, blob0, blob1, if_true, Bool.false_eq_true, if_false, Option.map_some, and_self]

theorem unwraps_of {s : State} {b : KeyBlob} {kek idOk : Bool} (d : DieIx) (h : ∀ x : DieIx, b.unwraps[x] = true) (h1 : b.wlenOk = true)
    (h2 : idOk = true) (h3 : ∀ x : DieIx, s.wrapKeyAt x b kek = some b.wrappedBy) : s.unwrapCheck d b kek idOk = none := by
  simp [State.unwrapCheck, h, h1, h2, h3]

theorem keyed_unwraps : keyed.unwrapCheck (refDie adm) blob0 true (blob0.kekId != 0) = none ∧
    keyed.unwrapCheck (refDie adm) blob1 false (blob1.kekId.toNat == keyed.kekId) = none :=
  ⟨unwraps_of _ (by decide) rfl (by decide) fun x => (keyed_wraps x).1, unwraps_of _ (by decide) rfl (by decide +kernel) fun x => (keyed_wraps x).2⟩

/-- Key installation unlocked and locked, blobs that unwrap at both dies and one that does not, and a namespace before and after a write. -/
theorem witness_KeyCommandsAct :
    let locked := keyed.updCipher 0 fun c => { c with locked := true }
    let w := keyed.updSub fun x => { x with written := [1] }
    let bad : KeyBlob := { blob0 with unwraps := #v[false, true] }
    (keyed.admits .securitySend adm ∧ keyed.dies[refDie adm].cipher.locked = false ∧ locked.admits .securitySend adm ∧
    locked.dies[refDie adm].cipher.locked = true ∧ keyed.unwrapCheck (refDie adm) bad true (bad.kekId != 0) = some 0 ∧
    keyed.unwrapCheck (refDie adm) bad false (bad.kekId.toNat == keyed.kekId) = some 0 ∧ keyed.nsids.contains 1 = true ∧ w.admits .securitySend adm ∧
    w.sub.written.contains 1 = true ∧ w.dies[refDie adm].cipher.locked = false ∧ keyed.sub.written.contains 1 = false ∧
    keyed.nsids.contains 9 = false ∧ keyed.admits .securityReceive adm) ∧
    keyed.unwrapCheck (refDie adm) blob0 true (blob0.kekId != 0) = none ∧
    keyed.unwrapCheck (refDie adm) blob1 false (blob1.kekId.toNat == keyed.kekId) = none :=
  ⟨by decide +kernel, keyed_unwraps⟩

/-- Nothing staged, an image staged that fails its check and one that passes, a package being prepared and drained. -/
theorem witness_OptionCommandsAct :
    let img := { image1 with records := { image1.records with thermal := some { present := 0, media := 0, darkTemp := 20 } } }
    let st (i : OptImage) := ready.updOpt fun o => { o with staging := { noStaging with next := 4096, image := some i } }
    let bar (i : OptImage) := (st i).updOpt fun o => { o with barrier := some adm }
    let part := configured.updOpt fun o => { o with staging := { noStaging with next := 4096 } }
    let p := configured.updSub fun x => { x with diapause := .preparing adm }
    configured.admits .optionStage adm ∧ adm.viaMi = false ∧ configured.opt.barrier = none ∧ part.admits .optionStage adm ∧
    part.opt.staging.next = 4096 ∧ part.opt.staging.image = none ∧ configured.admits .optionCheck adm ∧ (st img).admits .optionCheck adm ∧
    (st img).optionCheck img = none ∧ ((st img).optionCheck { img with headerOk := false }).isSome = true ∧ (st img).admits .optionApply adm ∧
    (st img).fw.activating = none ∧ ((st img).updFw fun f => { f with activating := some 1 }).admits .optionApply adm ∧
    ((st img).updSub fun x => { x with diapause := .preparing adm }).admits .optionApply adm ∧ (bar img).admits .optionApply adm ∧
    (bar img).opt.barrier = some adm ∧ (bar img).keeper.boot.stage = .serving ∧ (bar img).keeper.rescue.run = none ∧ (bar img).keeper.fc.safe = false ∧
    (st img).preparing = false ∧ (appliedOf (st img).opt).isSome = true ∧ startOnlyChange image1.records img.records = false ∧
    startOnlyChange image1.records { img.records with hostPorts := none } = true ∧
    configured.admits .diapausePrepare adm ∧ p.preparing = true ∧ p.diapauseDrained = true ∧ p.keeper.rescue.run = none ∧
    configured.admits .diapauseStatus adm := by decide +kernel

/-- A readable register, the array with a busy bank, a refused address, a writable register. -/
theorem witness_ManagementAccessActs :
    let busy := configured.updStore fun x => { x with prog := some { requester := .management, offset := 0, bytes := [] } }
    configured.admits .mgmtRead adm ∧ configured.admits .mgmtWrite adm ∧ configured.mgmtRefused false false 0x10 = false ∧
    configured.mgmtRefused false false 0x8000 = true ∧ configured.mgmtRefused false true 0x3004 = false ∧ configured.mgmtRefused false true 0x5100 = true ∧
    configured.keeper.boot.lock = true ∧ configured.busyBank 0x10 = none ∧ busy.admits .mgmtRead adm ∧ busy.mgmtRefused false false 0x1000000 = false ∧
    (busy.busyBank 0x1000000).isSome = true ∧ blockAt 0x3004 = some (.ev, 4) ∧ configured.blockLive .ev = true := by decide +kernel

/-- The package with a namespace and an I/O queue pair; a command of the queue. -/
def io : CmdRef := { adm with qid := 1 }
def hostReady : State := ready.updHost 0 fun h => { h with
  subs := [SubQueue.mk 0 0 32 0, SubQueue.mk 1 1 32 0]
  cpls := [CplQueue.mk 0 32 0 0 true, CplQueue.mk 1 32 0 0 true] }
/-- The segment that holds the granules of the first range is resident: reads of unwritten granules are answered at once. -/
def hostResident : State := (List.finRange 4).foldl (fun s g => s.updRegion g fun r => { r with resident := List.range 8 }) hostReady
/-- The command is carried out. -/
def ioRuns (s : State) (k : CmdKind) (rs : List LbaRange) : Bool := decide (s.runsIo (slotOf io k 1 rs))
/-- How the ranges of a command of namespace 1 are answered: 0 it waits, 1 for a dark member, 2 with units. -/
def readEnd (s : State) (k : CmdKind) (rs src : List LbaRange) : Nat :=
  let c := slotOf io k 1 rs
  match ((s.begun c).readRanges c { nsid := 1, lbaf := 0, nsze := 16384, nguid := 5, base := 0, phandles := [0] } src).2 with
  | .waits => 0 | .dark _ => 1 | .units _ => 2
/-- Nothing is resident, so that reads wait; or everything is, and they are answered. -/
theorem witness_IoCommandsAct :
    let n : NamespaceRec := { nsid := 1, lbaf := 0, nsze := 16384, nguid := 5, base := 0, phandles := [0] }
    let r : LbaRange := LbaRange.mk 3 2
    let sl (k : CmdKind) (rs : List LbaRange) : SlotCmd := slotOf io k 1 rs
    let at_ (k : CmdKind) (rs : List LbaRange) : State := hostReady.begun (sl k rs)
    let job : WriteJob := { ref := io, nsid := 1, stream := 0xFF, data := true, orphan := false, pieces := [] }
    let had := hostReady.updHost 0 fun h => { h with writes := [job] }
    (ioRuns hostReady .read [r] = true ∧ ioRuns hostResident .read [r] = true ∧ (at_ .read [r]).nsRec? 1 = some n ∧ overMdts n r = false ∧
      readEnd hostReady .read [r] [r] = 0 ∧ readEnd hostResident .read [r] [r] = 2) ∧
    (readEnd hostReady .verify [r] [r] = 0 ∧ readEnd hostResident .verify [r] [r] = 2 ∧
      readEnd hostReady .copy [r, r] [r] = 0 ∧ readEnd hostResident .copy [r, r] [r] = 2) ∧
    (ioRuns hostReady .verify [r] = true ∧ ioRuns hostReady .flush [] = true ∧ ioRuns hostReady .write [r] = true ∧
      ioRuns hostReady .writeZeroes [r] = true ∧ ioRuns hostReady .deallocate [r] = true ∧ ioRuns hostReady .copy [r, r] = true) ∧
    ((at_ .write [r]).hasJob io = false ∧ streamOf n 0 0 = some 0xFF ∧ (at_ .write [r]).readOnlyNow = false ∧ 2 = 2 * unitsPerLba n ∧
      (at_ .copy [r, r]).hasJob io = false ∧ (at_ .copy [r, r]).readOnlyNow = false ∧ ioRuns had .write [r] = true ∧ (had.begun (sl .write [r])).hasJob io = true) ∧
    (overCopy n [r] = false ∧ hostReady.queueLive io = true ∧ hostReady.mayFetch (sl .read [LbaRange.mk 16384 1]) = true ∧
    ((hostReady.fetch (sl .read [LbaRange.mk 16384 1])).ioFault (sl .read [LbaRange.mk 16384 1])).isSome = true) := by decide +kernel

/-- A pending write of the window and one written through with its job; buffers there, and none of their class. -/
theorem witness_AdmissionAndEncryptionAct :
    let u (w : Option (DieIx × Nat)) : PendUpd := { gran := 3, nsid := 1, stream := 0xFF, kind := .write (Vector.replicate 16 (some (zeroUnit 0))), seq := 7, encrypted := false, cipher := none, win := w, at_ := none }
    let piece : WritePiece := { gran := 3, upd := .write (Vector.replicate 16 none), buf := none, at_ := .through 7 }
    let job : WriteJob := { ref := io, nsid := 1, stream := 0xFF, data := true, orphan := false, pieces := [piece] }
    let s (w : Option (DieIx × Nat)) := (ready.updRegion 0 fun r => { r with pend := [u w] }).updHost 0 fun h => { h with writes := [job] }
    let x := s none
    let y := s (some (0, 1))
    let taken (s : State) (w : Option (DieIx × Nat)) := s.takeCipher (s.updDieOf 0 (u w)) (u w)
    let short := y.updPool 0 fun p => { p with zeroing := (List.range 84).map fun i => (.c2, i) }
    ((x.regions[(0 : RegionIx)]).pend.find? (fun u => u.gran == 3 && u.seq == 7 && !u.encrypted) = some (u none) ∧
    (y.regions[(0 : RegionIx)]).pend.find? (fun u => u.gran == 3 && u.seq == 7 && !u.encrypted) = some (u (some (0, 1)))) ∧
    ((taken x none).2.isSome = true ∧ (taken y (some (0, 1))).2.isSome = true ∧ (taken short (some (0, 1))).2 = none ∧
      (((taken x none).1.nsRec? 1).map unitsPerLba).getD 1 = ((x.nsRec? 1).map unitsPerLba).getD 1 ∧
      (((taken y (some (0, 1))).1.nsRec? 1).map unitsPerLba).getD 1 = ((y.nsRec? 1).map unitsPerLba).getD 1) ∧
    ((taken x none).1.throughJob 3 7 = some (0, job) ∧ job.orphan = false) := by decide +kernel

/-- A pool in service with one buffer in use, with one at its limit of references, one being zeroed, and a class with nothing free. -/
theorem witness_BufferPoolCommandsAct :
    let buf (n : Nat) : Buf := { cls := .c1, index := 3, refs := n, pinned := false, window := false, poison := [], remap := none, held := [] }
    let s (n : Nat) := ready.updPool 0 fun p => { p with inService := true, bufs := [buf n], zeroing := [(.c1, 5)] }
    let full := ready.updPool 0 fun p => { p with inService := true, zeroing := (List.range 8).map fun i => (.c3, i) }
    let none' := full.updPool 0 fun p => { p with zeroing := (List.range 1024).map fun i => (.dram, i) }
    let at_ : Word := 0x2000C000
    ((s 1).dies[(0 : DieIx)].pool.inService = true ∧ classFor 4096 = some .c0 ∧ (s 1).mayTake 0 .c0 .read = true ∧ (s 1).lowestFree 0 .c0 = some 1 ∧
    (s 1).mayTake 0 .dram .fold = true ∧ (s 1).lowestFree 0 .dram = some 0 ∧ classFor 262144 = some .c3 ∧ full.dies[(0 : DieIx)].pool.inService = true ∧
    full.mayTake 0 .c3 .read = false ∧ none'.mayTake 0 .dram .fold = false ∧ none'.dies[(0 : DieIx)].pool.inService = true) ∧
    ((s 1).ptrCheck 0 0xA0000000 0 false = some 1 ∧ (s 1).ptrCheck 0 0x20010000 0 false = some 4 ∧ (s 1).ptrCheck 0 at_ 0 false = none ∧
    (s 255).ptrCheck 0 at_ 0 false = none ∧ decodePtr at_ = (some .c1, true, 3, 0) ∧ ((s 1).dies[(0 : DieIx)].pool).find .c1 3 = some (buf 1) ∧
    ((s 255).dies[(0 : DieIx)].pool).find .c1 3 = some (buf 255) ∧ (s 1).dies[(0 : DieIx)].pool.zeroing.contains (.c1, 5) = true) := by decide +kernel

/-- A die whose DRAM serves with a drift, an empty and a filled error table, a buffer in use, a HARD location, and the last zero fill. -/
theorem witness_MemoryCommandsAct :
    let buf : Buf := { cls := .c1, index := 3, refs := 1, pinned := false, window := false, poison := [], remap := none, held := [] }
    let s := (ready.updMem 0 fun m => { m with inService := true, rate := some 0, retrainDue := true, rowsLeft := Vector.replicate 4 2 }).updPool 0 fun p => { p with bufs := [buf] }
    let e : CeEntry := { addr := 0x40, state := .hard, hits := 8, post := 2, bit := 1, last := 0 }
    let u := s.updTable 0 .dram fun t => { t with entries := [e] }
    let z := (ready.updBoot fun b => { b with stage := .memoryLanes }).updMem 1 fun m => { m with filling := true }
    (s.dramServes 0 = true ∧ s.dies[(0 : DieIx)].mem.rate = some 0 ∧ s.dies[(0 : DieIx)].mem.retrainDue = true ∧ s.keeper.rescue.run = none ∧
    trainDram 2 [] = some 2 ∧ trainDram 2 (List.replicate 6 false) = none) ∧
    (((s.tableOf 0 .dram).entries.any fun e => e.addr == 0x40) = false ∧ ((u.tableOf 0 .dram).entries.any fun e => e.addr == 0x40) = true ∧
    ((s.tableOf 0 .dram).enter e).isSome = true ∧ ((s.dies[(0 : DieIx)].pool).find .c1 3).isSome = true ∧
    (u.tableOf 0 .dram).entries.find? (fun e => e.addr == 0x40) = some e ∧ e.state = .hard ∧
    u.dies[(0 : DieIx)].mem.rowsLeft[(1 : Fin 4)] ≠ 0 ∧ z.keeper.boot.stage = .memoryLanes ∧ z.dies[(1 : DieIx)].mem.filling = true ∧
    (z.com 1).outOfService = false ∧ s.shaded (.die 0) = false ∧
    (s.updCommon 0 fun c => { c with shadows := [{ source := 383, scope := .dieAndBridge 0, own := .keeper, order := 0 }] }).shaded (.die 0) = true) := by decide +kernel

/-- VIN present with each fault armed, a cap with steps taken, a detectable loss; VAUX with and without VIN. -/
theorem witness_SupplyEventsAct :
    let s := ready.updSup fun x => { x with overArmed := true, warnArmed := true, capSteps := [.halve11], lowMs := 9 }
    let reset1 := s.updCommon 0 fun c => { c with inReset := true }
    let off := s.updSup fun x => { x with vinOk := false, vauxOk := false }
    s.keeper.sup.vinOk = true ∧ (reset1.com 0).inReset = true ∧ s.keeper.sup.overArmed = true ∧ 3000 < s.power.warn ∧ s.keeper.rescue.run = none ∧
    s.capMw = some 11000 ∧ s.keeper.sup.capSteps ≠ [] ∧ ready.keeper.sup.capSteps = [] ∧ ready.keeper.sup.ps = 0 ∧ ready.capMw = some 11000 ∧ s.lossDetectable = true ∧
    s.power.loss ≠ 0 ∧ s.keeper.sup.state ≠ .safe ∧ (ready.updSup fun x => { x with vauxOk := true }).keeper.sup.vauxOk = true ∧
    off.keeper.sup.vauxOk = false ∧ off.keeper.sup.vinOk = false := by decide +kernel

/-- A running rescue, its end, a bank in each phase of a measurement, a fitted thermistor. -/
theorem witness_HoldupBankActs :
    let h (f : HoldUp → HoldUp) := ready.updHu fun x => f { x with cap := 500, target := 5500, testLoad := 100 }
    let th := ready.updOpt fun o => { o with inForce := some { image1 with records := { image1.records with thermal := some { present := 3, media := 0, darkTemp := 20 } } } }
    (ready.updRescue fun q => { q with isoRelease := true }).keeper.rescue.isoRelease = true ∧ ready.keeper.fc.safe = false ∧
    ((ready.updRescue fun q => { q with isoRelease := true }).updFc fun f => { f with safe := true }).keeper.fc.safe = true ∧
    (ready.updRescue fun q => { q with run := some { onBank := false, safeState := false, thenRestart := true, railLost := false, windowKib := 0 } }).keeper.rescue.run.isSome = true ∧
    ready.power.cap ≠ 0 ∧ (h fun x => { x with phase := .idle }).keeper.hu.phase = .idle ∧ ready.keeper.sup.vinOk = true ∧ ready.keeper.rescue.run = none ∧
    (h fun x => { x with phase := .draining }).keeper.hu.phase = .draining ∧ ready.windowKib = 0 ∧ 99 * 5500 ≤ 100 * 5450 ∧ 100 * 5000 < 99 * 5500 ∧
    (let s := h fun x => { x with phase := .discharging 5450 }
     9 * s.keeper.hu.cap ≤ 10 * bankCapacitance 40000 s.keeper.hu.testLoad ∧
     energyHolds (bankCapacitance 40000 s.keeper.hu.testLoad) s.keeper.hu.target s.power.rescueP (windowBytes s.power) = true) ∧
    ((h fun x => { x with phase := .settling }).keeper.hu.phase = .settling ∧ (h fun x => { x with phase := .recharging }).keeper.hu.phase = .recharging ∧
     (h fun x => { x with phase := .recharging }).keeper.hu.target = 5500 ∧ 100 * 5450 ≤ 101 * 5500) ∧
    (h fun x => { x with charge := .charging }).keeper.hu.charge = .charging ∧ (th.recs?.bind (·.thermal)).isSome = true := by decide +kernel

/-- A start without VIN, a running package, D0 held with the rails up, an open boot window. -/
def findings0 : StartFindings :=
  { bootMode := 0, slotId := 0, locks := true, lockMs := 5, prot0Ok := true, prot1Ok := true, optAOk := true, optBOk := true, d1CoreOk := true,
    regionCoreOk := #v[true, true, true, true], lunsAnswering := [], dramOk := #v[true, true], checkerOk := #v[true, true], dramGiB := #v[9, 9], dramRate := #v[0, 0] }
theorem witness_StartsAct :
    let held := (ready.updCommon 0 fun c => { c with inReset := true }).updBoot fun b => { b with stage := .inReset, lock := false }
    let w := (ready.updBoot fun b => { b with stage := .bootWindow, lock := false })
    let late := w.updBoot fun b => { b with windowTimeouts := 1 }
    let bare := ready.updFw fun f => { f with slots := f.slots.map fun x => { x with state := .empty, image := none } }
    (late.windowOpen = true ∧ 1 ≤ late.keeper.boot.windowTimeouts ∧ (bare.protectionCheck findings0).2 = true ∧
      (((bare.protectionCheck findings0).1).stage .slotCheck).chooseSlot.2 = none) ∧
    State.reset.keeper.sup.vinOk = false ∧ ready.keeper.sup.vinOk = true ∧ ready.keeper.fc.safe = false ∧ ready.keeper.rescue.run = none ∧
    held.keeper.boot.stage ≠ .serving ∧ held.keeper.boot.stage ≠ .heldInReset ∧ held.keeper.sup.vccqOk = true ∧ held.keeper.sup.regulatorFault = false ∧
    (held.com 0).inReset = true ∧ (held.com 0).outOfService = false ∧ (ready.protectionCheck findings0).2 = true ∧
    (ready.protectionCheck { findings0 with prot0Ok := false, prot1Ok := false }).2 = false ∧
    ((((ready.protectionCheck findings0).1).stage .slotCheck).chooseSlot.2).isSome = true ∧ w.windowOpen = true ∧ w.keeper.boot.windowTimeouts = 0 := by decide +kernel

/-- The store up with nothing under way; an erase that ran 600 us; a suspended one; an open sequence. -/
theorem witness_StoreSequencesAct :
    let ops : List (Nat × Word) := (List.range 64).map fun k => (0x10000 + 4 * k, 0)
    let e : StoreErase := { requester := .keeper, sectors := [1], susp := .running, runTime := 60, fromIntent := false }
    let run := ready.updStore fun x => { x with erase := some e }
    let held := ready.updStore fun x => { x with erase := some { e with susp := .explicit } }
    let both := run.updStore fun x => { x with prog := some { requester := .keeper, offset := 0, bytes := [0] } }
    let open_ := ready.updStore fun x => { x with seq := some { owner := .keeper, step := .unlocked1 } }
    ready.storeFree ∧ 0x10000 % 256 = 0 ∧ 0x10000 < arrayBytes ∧ ops.length = 64 ∧ (ops.headD (0, 0)).1 = 0x10000 ∧ ascending ops = true ∧
    ready.storeRefusal .keeper [1] true = none ∧ ready.storeRefusal .keeper [2047] true = some .readOnly ∧ ready.storeRefusal .keeper [1, 2] false = none ∧
    bitRise ready.store.array 0x10000 [0] = false ∧
    bitRise (memWrite ready.store.array 0x10000 0) 0x10000 [1] = true ∧ (([0x10000, 0x20000] : List Nat).map sectorOf).Nodup ∧
    sectorBank 2 = sectorBank 1 ∧ run.storeFree ∧ run.store.erase = some e ∧ run.store.prog = none ∧ held.storeFree ∧ both.storeFree ∧ both.store.prog.isSome = true ∧ open_.store.seq.isSome = true := by
  decide +kernel

/-- A program and an erase that run, a suspended erase, a bank with a read waiting, and an execute-only range. -/
theorem witness_StoreRunsAndReadsAct :
    let p : StoreProgram := { requester := .keeper, offset := 0x10000, bytes := [0] }
    let e : StoreErase := { requester := .keeper, sectors := [1], susp := .running, runTime := 60, fromIntent := false }
    let prog := ready.updStore fun x => { x with prog := some p }
    let run := ready.updStore fun x => { x with erase := some e, readWaits := #v[1, 0] }
    let held := ready.updStore fun x => { x with erase := some { e with susp := .autoSuspended } }
    let xo : XoDesc := { en := true, hashPort := false, first := 1, count := 1 }
    let hidden := { ready with keeper := { ready.keeper with prot := { ready.keeper.prot with xo := ready.keeper.prot.xo.set 0 xo } } }
    prog.store.prog = some p ∧ run.store.erase = some e ∧ run.store.intentPending = [] ∧ run.storeUp = true ∧ 0x10000 < arrayBytes ∧
    bankBusy run.store (sectorBank (sectorOf 0x10000)) = true ∧ bankBusy ready.store (sectorBank (sectorOf 0x10000)) = false ∧ ready.storeUp = true ∧
    ready.xoOver 1 = none ∧ ready.store.margin = 0 ∧ hidden.xoOver 1 = some xo ∧ run.store.readWaits[sectorBank 1] ≠ 0 ∧
    held.store.erase.isSome = true ∧ held.keeper.rescue.run = none ∧ held.store.readWaits[sectorBank 1] = 0 := by decide +kernel

/-- An image downloaded into the slot that does not run, complete; a committed slot; an activation that waits. -/
theorem witness_FirmwareCommandsAct :
    let img : FwImage := { fwImage0 with bodyLen := 4096 }
    let down := ready.updFw fun f => { f with slots := f.slots.set 1 { emptySlot with state := .downloading, image := some img }, download := some (0, 8192) }
    let bad := ready.updFw fun f => { f with slots := f.slots.set 1 { emptySlot with state := .downloading, image := some { img with signed := false } }, download := some (0, 8192) }
    let done := ready.updFw fun f => { f with slots := f.slots.set 1 { emptySlot with state := .committed, image := some img } }
    let soon := ready.updFw fun f => { f with activating := some 1 }
    ready.admits .fwDownload adm ∧ down.admits .fwDownload adm ∧ down.fw.download = some (0, 8192) ∧ adm.ctrl.val = 0 ∧ down.admits .fwCommit adm ∧
    (down.replace adm 0).2 = stOk ∧ (bad.replace adm 0).2 ≠ stOk ∧ bad.admits .fwCommit adm ∧ down.commitSlot 0 = some 1 ∧ down.inRecovery = false ∧
    down.fw.running = some 0 ∧ down.headerCheck img 8192 = true ∧ bad.headerCheck { img with signed := false } 8192 = false ∧ ready.commitSlot 1 = some 0 ∧
    done.admits .fwCommit adm ∧ activatable done.fw.slots[(1 : Fin 2)].state = true ∧ activatable ready.fw.slots[(1 : Fin 2)].state = true ∧
    activatable down.fw.slots[(1 : Fin 2)].state = false ∧ done.sanitizing = false ∧ done.preparing = false ∧ done.diapauseReady = false ∧
    done.headerCheck img (img.bodyLen + 4096) = true ∧ done.headerCheck { img with signed := false } (img.bodyLen + 4096) = false ∧ done.liveActivatable img = true ∧ done.liveActivatable { img with actLive := false } = false ∧ soon.fw.activating = some 1 ∧ soon.opt.barrier = none ∧
    ((List.finRange 24).any fun l => soon.lanes[l].ctxs.any (·.isSome)) = false := by decide +kernel

/-- Tokens of a serious event with an empty and a full latch, one of a notice, records to flush, a log at its end, factory test mode. -/
theorem witness_CollectorAndRecorderAct :
    let tok (n : Nat) : EventToken := { source := n, data0 := 0, data1 := 0, cause := none, injected := false, fromD1 := false }
    let one := ready.updFc fun f => { f with tokens := [tok 376] }
    let note := ready.updFc fun f => { f with tokens := [tok 471] }
    let rec_ := ready.recordOf (tok 376) .severe
    let full := one.updFc fun f => { f with latch := some rec_ }
    let held := ready.updEv fun e => { e with buf := [{ record := rec_, flushing := false }] }
    let run := ready.updEv fun e => { e with buf := [{ record := rec_, flushing := true }], flushing := true }
    let end_ := run.updEv fun e => { e with next := logLast - 1 }
    let fac := ready.updBoot fun b => { b with mode := 2, factoryFuse := true }
    let done (s : State) : Nat := (writeSlots s.keeper.ev.log s.keeper.ev.next ((s.keeper.ev.buf.filter (·.flushing)).map (·.record))).2
    one.keeper.fc.tokens[0]? = some (tok 376) ∧ classOf 376 = some .severe ∧ one.keeper.fc.latch = none ∧ full.keeper.fc.tokens[0]? = some (tok 376) ∧
    full.keeper.fc.latch = some rec_ ∧ note.keeper.fc.tokens[0]? = some (tok 471) ∧ classOf 471 = some .notice ∧
    held.keeper.ev.flushing = false ∧ held.keeper.ev.full = false ∧ held.keeper.ev.buf ≠ [] ∧ run.keeper.ev.flushing = true ∧ done run < logLast ∧
    logLast ≤ done end_ ∧ ready.factoryMode = false ∧ fac.factoryMode = true ∧ (classOf 372).isSome = true ∧ ready.keeper.sup.vkeep = true := by
  decide +kernel

/-- Dies in service without a shadow, in one, and after an earlier watchdog; a die that has warned. -/
theorem witness_WatchdogsAndTemperaturesAct :
    let again := ready.updCommon 0 fun c => { c with coreDog := some 0 }
    let inside := ready.updCommon 0 fun c => { c with shadows := [{ source := 321, scope := .bothDies, own := .die 0, order := 0 }] }
    let warm := ready.updCommon 0 fun c => { c with warned := true, critical := true }
    (ready.com (dieOfRegion 0)).inService = true ∧ (ready.com 1).inService = true ∧ ready.shaded (.die (dieOfRegion 0)) = false ∧
    inside.shaded (.die 1) = true ∧ (inside.com (dieOfRegion 0)).inService = true ∧ (inside.com 0).shadows[0]?.isSome = true ∧
    scopeCovers .bothDies (blockOf (dieSrc 1 18)) = true ∧ withinHour again.keeper.tk.opsec (again.com 0).coreDog = true ∧
    (warm.com 0).warned = true ∧ (ready.com 0).critical = false ∧ (ready.com 0).warned = false := by decide +kernel

/-- The port answers with and without an identifier, and with a static one. -/
theorem witness_MctpMessagesAct :
    let s := ready.updMp fun m => { m with inService := true, eidValid := true, eid := 9 }
    let st := s.updOpt fun o => { o with inForce := o.inForce.map fun i => { i with records := { i.records with mgmt := some { addr := 0x1D, speed := 0, eid := 9, writePermitted := false } } } }
    st.mpEid ≠ 0 ∧ st.keeper.mp.inService = true ∧ st.keeper.mp.eidValid = true ∧ ready.keeper.mp.eidValid = false ∧ s.keeper.mp.inService = true ∧ s.mpEid = 0 ∧ s.keeper.mp.eidValid = true := by decide +kernel

/-- The port answers with both controllers in service, in the safe state, and with a live block. -/
theorem witness_NvmeMiCommandsAct :
    let s := ready.updMp fun m => { m with inService := true }
    let alone := s.updFc fun f => { f with safe := true }
    let ref (c : Fin 2) : CmdRef := { ctrl := c, qid := 0, cid := 9, viaMi := true }
    s.keeper.mp.inService = true ∧ 1 ∈ s.liveControllers ∧ 3 ∉ s.liveControllers ∧ alone.keeper.mp.inService = true ∧ alone.keeperOnly = true ∧
    s.keeperOnly = false ∧ (s.com (refDie (ref 0))).outOfService = false ∧ s.inRecovery = false ∧
    (match blockAt 0x00000000 with | some (b, _) => b != .array && s.blockLive b | none => false) = true := by decide +kernel

/-- A state with a command in front, and the empty queue of reset. -/
theorem witness_StepRunsTheFrontCommand :
    State.reset.pending = [] ∧ ({ State.reset with pending := [.vinFall] } : State).pending = [.vinFall] := by decide +kernel

/-- A step that answers a next state, with a command waiting. -/
theorem witness_CommandsKeepTheQueue :
    (match step { ready with pending := [.kprFcFirstClear, .vinFall] } with | .next t => t.pending == [.vinFall] | _ => false) = true := by decide +kernel

/-- Reset, a program that runs and an erase that runs are sound. -/
theorem witness_StoreInvariantKept :
    let p : StoreProgram := { requester := .keeper, offset := 0x10000, bytes := [0, 0, 0, 0, 0, 0, 0, 0] }
    let e : StoreErase := { requester := .keeper, sectors := [1], susp := .running, runTime := 60, fromIntent := false }
    State.reset.storeKept ∧ (ready.updStore fun x => { x with prog := some p }).storeKept ∧ (ready.updStore fun x => { x with erase := some e }).storeKept := by decide +kernel

/-- A program and an erase that end. -/
theorem witness_ArrayChangesOnlyByProgramsAndErases :
    let p : StoreProgram := { requester := .keeper, offset := 0x10000, bytes := [0] }
    let e : StoreErase := { requester := .keeper, sectors := [1], susp := .running, runTime := 60, fromIntent := false }
    let run := ready.updStore fun x => { x with prog := some p }
    let er := ready.updStore fun x => { x with erase := some e, array := [(0x10000, 0)] }
    run.store.prog = some p ∧ (∃ t, exec (.storeProgramComplete true) run = .next t ∧ t.store.array = [(0x10000, 0)]) ∧
    er.store.erase = some e ∧ (∃ t, exec (.storeEraseComplete 0) er = .next t ∧ t.store.array = []) ∧
    ready.storeKept ∧ 0x7F00000 ≤ 0x7F00008 ∧ isFactory (sectorOf 0x7F00008) = true :=
  ⟨rfl, ⟨_, rfl, by decide +kernel⟩, rfl, ⟨_, rfl, by decide +kernel⟩, by decide +kernel, by decide +kernel, by decide +kernel⟩

/-- A program that runs beside a suspended erase, and one that may start there. -/
theorem witness_ProgramsAreNeverSuspended :
    let p : StoreProgram := { requester := .keeper, offset := 0x10000, bytes := [0] }
    let e : StoreErase := { requester := .keeper, sectors := [2], susp := .explicit, runTime := 60, fromIntent := false }
    let run := ready.updStore fun x => { x with prog := some p, erase := some e }
    let held := ready.updStore fun x => { x with erase := some e }
    run.keeper.sup.vinOk = true ∧ run.store.prog = some p ∧ held.storeFree ∧ held.store.prog = none ∧ held.store.erase = some e ∧ sectorOf 0x10000 ∉ e.sectors ∧
    isFactory 1 = false ∧ isEventLog 1 = false ∧ isProtection 1 = false ∧ held.store.intentPending.contains 1 = false ∧
    (rowOf held.store.rows 1).intent = false ∧ bitRise held.store.array 0x10000 (wordBytes 0 ++ wordBytes 0) = false ∧
    sectorOf 0x10000 = 1 ∧ run.storeKept := by decide +kernel

/-- A die with four shadows and one with none; a command that runs; the safe state's shadow. -/
theorem witness_ShadowsHeldAreFewEverywhere :
    let sh : Shadow := { source := 312, scope := .bothDies, own := .region 0, order := 0 }
    let full := ready.updCommon 0 fun c => { c with shadows := [sh, sh, sh, sh] }
    ready.shadowsKept ∧ full.shadowsKept ∧ full.shaded .keeper = false ∧ (full.com 0).shadows.length = 4 ∧ (ready.com 0).shadows.length < 4 ∧
    ready.shaded .keeper = false ∧ (shadedState.keeper.fc.shadow.map (·.source)) = some 378 := by decide +kernel

/-- LOCK is set while the package serves, and a write of the mirror then runs. -/
theorem witness_ProtectionHoldsUnderLock :
    ready.keeper.boot.lock = true ∧ (∃ t, exec (.registerWrite 0x5118 7) ready = .next t ∧ t.keeper.prot.fwArb = ready.keeper.prot.fwArb) :=
  ⟨by decide +kernel, _, rfl, by decide +kernel⟩

/-- The safe state with a command that runs in it. -/
theorem witness_SafeStateLastsUntilVinGoes :
    (ready.updFc fun f => { f with safe := true }).keeper.fc.safe = true ∧
    (match exec .vinFall (ready.updFc fun f => { f with safe := true }) with | .next t => t.keeper.sup.vinOk == false | _ => false) = true := by
  decide +kernel

/-- A reserved source, factory test mode, a token of one. -/
theorem witness_ReservedSourcesAreNeverRaised :
    let fac := ready.updBoot fun b => { b with mode := 2, factoryFuse := true }
    let tok : EventToken := { source := 507, data0 := 0, data1 := 0, cause := none, injected := false, fromD1 := false }
    classOf 507 = none ∧ fac.factoryMode = true ∧ ((ready.updFc fun f => { f with tokens := [tok] }).keeper.fc.tokens[0]?) = some tok := by decide +kernel

/-- A defined source with the bridge up and lost. -/
theorem witness_EventsReportAndNothingElse :
    (classOf 497).isSome = true ∧ blockDie (.die 1) = some 1 ∧ blockDie (.die 0) ≠ some 1 ∧ ready.bridgeUp = true ∧ shadedState.bridgeUp = true ∧
    ({ ready with bridgeUp := false } : State).bridgeUp = false ∧ (ready.lanes[(5 : LaneIx)]).irq.en.getLsbD 3 = true ∧ ready.coreIrq 0 = false := by decide +kernel

/-- A set of 18 LUNs. -/
theorem witness_ParityPositionsRotate : 3 ≤ geoW (geometryOf 0) ∧ 0 < (geometryOf 0).sets ∧ (dataPos (geometryOf 0) 5).length = 16 := by decide +kernel

/-- A profile, a geometry and a namespace record of those worked cases. -/
theorem witness_WorkedCasesHold :
    let e : DensityEntry := { parity := 1024, passes := 3, lag := 0, sweepStep := 2, refresh := 0, passRoutine := 0, softDelta := 4 }
    let p : MediaProfile := { profile0 with planes := 4, wordlines := 768, density := [e, e, e, e, e] }
    let geo : GeometryRec := { geometryOf 0 with w := 64, sets := 2 }
    p.planes = 4 ∧ p.pageBytes = 18432 ∧ p.wordlines = 768 ∧ p.density[4]? = some e ∧ ({ geo with w := 0 } : GeometryRec).w = 0 ∧ geo.w = 64 ∧ geo.sets = 2 ∧
    (NamespaceRec.mk 3 1 0 0 2 []).lbaf = 1 ∧ (NamespaceRec.mk 3 1 0 0 2 []).base = 2 := by decide +kernel

/-- A row of four bytes with two of them erased, and with one. -/
theorem witness_ParityRecoversWhatIsErased :
    ([0x35, 0x10, 0xC4, 0xFF] : List Byte).length ≤ 62 ∧
    bandSolve [some 0x35, none, some 0xC4, none] (some (bandP0 [0x35, 0x10, 0xC4, 0xFF])) (some (bandP1 [0x35, 0x10, 0xC4, 0xFF])) =
      some [0x35, 0x10, 0xC4, 0xFF] ∧
    bandSolve [some 0x35, none, some 0xC4, some 0xFF] none (some (bandP1 [0x35, 0x10, 0xC4, 0xFF])) = some [0x35, 0x10, 0xC4, 0xFF] := by decide +kernel

/-- A position adopted by a spare with 5 rows of band 2 rebuilt, a quarantined one, and a request in each part. -/
theorem witness_UnrebuiltPositionsAreReadByStepFive :
    let geo := geometryOf 0
    let f := configured.rowFrames 0 (configured.band 0 2).density
    let r (w : Nat) : FrameReq := { id := 3, region := 0, band := 2, frame := w * geoW geo * f, lun := 160, gran := 0, fig := 0, base := 0, lost := false, who := .host, ref := none }
    let ad : Adoption := { spare := 191, set := bandSet geo 2, position := 0, lost := 160, left := [(2, 5)], done := false }
    let s := (configured.updTab 0 fun t => { t with adoptions := [ad] }).updCluster 2 fun x => { x with inService := true }
    let q := configured.updTab 0 fun t => { t with quarantined := [(lunAt geo [] (bandSet geo 2) 0, 1)] }
    let k : Climb := { newClimb (r 5) with phase := .failed }
    let held := s.updCluster 0 fun x => { x with climbs := [k] }
    (held.climb? 0 3 = some k ∧ k.step < 5 ∧ k.darkWait = none ∧ k.phase = .failed ∧ 5 ≤ held.climbLast k ∧ held.awaitsResync (r 5) = false ∧ held.frameErased (r 5) = true) ∧
    s.geo? 0 = some geo ∧ f ≠ 0 ∧ s.reqRow (r 4) / geoW geo = 4 ∧ s.reqRow (r 5) / geoW geo = 5 ∧ s.reqRow (r 4) % geoW geo = 0 ∧ s.reqRow (r 5) % geoW geo = 0 ∧
    s.lunQuarantined 191 = false ∧ (s.regions[(0 : RegionIx)]).tab.slotsLost = [] ∧ s.frameErased (r 4) = false ∧ s.frameErased (r 5) = true ∧
    s.clusters[reqCluster (r 5)].climbs = [] ∧ (r 5).lost = false ∧ q.frameErased (r 4) = true := by decide +kernel

/-- A package with VIN, a quarantined lane of a running die, and the safe state. -/
theorem witness_BallsFollowThePackage :
    let q := ready.updLane 5 fun x => { x with quarantined := true }
    let f := ready.updSup fun x => { x with state := .safe }
    ready.keeper.sup.vinOk = true ∧ q.lanes[(5 : LaneIx)].quarantined = true ∧ (q.updCommon 0 fun c => { c with inReset := false }).ballCond (dieOfLane 5) = .running ∧
    f.keeper.sup.vkeep = true ∧ f.keeper.sup.vinOk = true ∧ f.keeper.sup.state = .safe := by decide +kernel

/-- Records of several types, a stripe record among them, fit, and a frame of them fits its 254 records. -/
theorem witness_JournalReadsBackWhatItHolds :
    let r : StripeRec := {
      stripe := 0x123456789ABC, k := 12, m := 3, state := .complete, filled := 2, group := 7, epoch := 99, opened := 1234, mypos := 2,
      applying := some (5, true), newthru := 64, holders := [⟨1, true⟩, ⟨16383, false⟩], data := [⟨3, true, false⟩, ⟨4, false, true⟩],
      cur := some (32767, 4194303), new := none, version := 65535 }
    let f : JFrame := { openFrame 9 with recs := [.seqReserve (2 ^ 64 - 1), .bandEighth 32767 7 0xFFFFFFFF (-40), .stripeRec r, .unknown 0x77] }
    recSize (.stripeRec r) = 8 ∧ f.used = 11 ∧ f.num < 2 ^ 40 ∧ f.lowSeq < 2 ^ 64 ∧ readSlots (f.slots 3) = f.recs ∧
    recFits (.seqReserve (2 ^ 64 - 1)) ∧ recFits (.bandEighth 32767 7 0xFFFFFFFF (-40)) ∧ recFits (.unknown 0x77) ∧ r.data.length ≤ 32 ∧
    (State.reset.regions[(0 : RegionIx)]).journal.tail = [] := by
  refine ⟨by decide +kernel, by decide +kernel, by decide +kernel, by decide +kernel, by decide +kernel, ?_, ?_, ?_, by decide +kernel, by decide +kernel⟩ <;> simp [recFits]

/-- R410's worked case: a read level and a cross-temperature coefficient at their offsets in a media profile's body. -/
theorem test_level_offsets : 1696 + levelStart .hlc + 17 * levelCount .hlc + 40 - 1 = 4534 ∧ 5440 + xrowStart .hlc + 40 - 1 = 5533 := by decide +kernel

/-! Ill-formed commands: one for each operand that has a field, that operand too wide and the others in range; and the same commands with every
operand in range (the field widths are those of the rules that `Instr.wf` cites). -/

/-- An opened stripe record without holders. -/
def stripe0 : StripeRec :=
  { stripe := 9, k := 4, m := 2, state := .opened, filled := 0, group := 1, epoch := 4, opened := 0, mypos := 0, applying := none, newthru := 0,
    holders := [], data := [], cur := none, new := none, version := 1 }

theorem test_wellFormed1 : ([.vcoreOutOfWindow 0 1, .vcoreWindowRestored 0 1, .setFeaturesTimestamp adm 0, .patrolComplete 0 1, .stagingRowTimeout 0 1,
   .parityAccumulatorMemoryError 0 false 1 1, .pendingUpdateApply 0 1, .mapSegmentLoad 0 1, .granuleRelocate 0 1, .bandResync 0 1 [],
   .bandRebuild 0 1 [] false, .membershipStageStage adm 1 1 false table0, .membershipStageApply adm, .membershipStageReadMemberKey adm,
   .membershipStageReadTableHeader adm, .membershipStageDiscard adm, .epochAnnounce ⟨1, 1, 1⟩ 1 0, .sealNotice ⟨1, 1, 1⟩ 0 0 1,
   .sealNoticeTimeout 0 1 0, .sealNoticeRetry 0 1 0, .slotAssign ⟨1, 1, 1⟩ 1 1 1 1 [], .stripeRecord ⟨1, 1, 1⟩ false stripe0,
   .stripeRecordAck ⟨1, 1, 1⟩ 1 1, .stripeShortTimeout 1, .contribData ⟨1, 1, 1⟩ 1 1 1 1 1, .contribDone ⟨1, 1, 1⟩ 1 1 1 false,
   .retract ⟨1, 1, 1⟩ 1 1 1 1 1 false false false false false, .contribRetry 1 1 1, .contribBusyRetry 1 1 1, .peerLit 1,
   .helloAttemptTimeout 1, .helloRetryTimer 1, .sessionRekey 1, .oldSessionErase 1, .ackTimer 1 0, .retransmissionTimeout 1 0 1,
   .pathProgressTimeout 1 0, .livenessTimeout 1, .peerUnreachable 1, .heartbeatSendTimer 1] : List Instr).all (Instr.wf ·) = true := by decide +kernel

theorem test_wellFormed2 : ([.heartbeat 1 0 1, .requestAnswerTimeout 1 1, .rebuildRead ⟨1, 1, 1⟩ 1 1 1 1 1 [] [],
   .rebuildData ⟨1, 1, 1⟩ 1 1 1 1 1 false false false false [] none [], .lightRequest 1 ⟨1, 0, 0, 0, 1, 0, 0⟩ false, .nak ⟨1, 1, 1⟩ 1 1 1,
   .pushBusyRetry 1 false 1, .pushNoNamespaceRetry 1 false 1, .darkWaitExpiry adm, .controllerEnable 0 1 1, .submissionQueueDoorbell 0 1 1,
   .completionQueueDoorbell 0 1 1, .createIoSubmissionQueue adm 1 1 1 false, .deleteIoSubmissionQueue adm 1,
   .createIoCompletionQueue adm 1 1 false false 1, .deleteIoCompletionQueue adm 1, .getLogPage adm 0 1 1 1 1 false, .identify adm 0 1 1,
   .abort adm 1 0, .getFeatures adm 0 0, .setFeaturesArbitration adm 0, .setFeaturesPowerManagement adm 1,
   .setFeaturesTemperatureThreshold adm 0 1 false, .setFeaturesErrorRecovery adm 0, .setFeaturesNumberOfQueues adm 0 0,
   .setFeaturesInterruptCoalescing adm 0, .setFeaturesInterruptVectorConfig adm 0 false, .setFeaturesAsyncEventConfiguration adm 0,
   .setFeaturesApst adm false (Vector.replicate 32 0), .setFeaturesFdp adm 0 0 false, .setFeaturesFdpEvents adm 0 [] false,
   .asynchronousEventRequest adm, .namespaceManagementCreate adm 1 1 1 [] false, .namespaceManagementDelete adm 1,
   .namespaceAttachment adm 1 false [], .formatNvm adm 1 1, .formatNvmCryptoErase adm 1 1 false, .securitySendKek adm blob0,
   .securitySendNamespaceKey adm 1 blob0, .securitySendLock adm] : List Instr).all (Instr.wf ·) = true := by decide +kernel

theorem test_wellFormed3 : ([.securityReceiveKeyStatus adm, .securityReceiveProtocolList adm, .sanitizeCryptoErase adm false, .sanitizeBlockErase adm false,
   .sanitizeOverwrite adm, .sanitizeExitFailureMode adm, .optionStage adm 1 1 false image0, .optionCheck adm, .optionApplyAtStart adm,
   .optionApplyLive adm, .managementRead adm 0 1, .managementWrite adm 0 [], .diapausePrepare adm, .diapauseStatus adm,
   .unsupportedCommand adm, .read adm 1 1 1, .write adm 1 1 1 1 1 [], .xtsEncrypt 0 1 1 [], .flush adm 1, .writeZeroes adm 1 1 1,
   .datasetManagement adm 1 false [LbaRange.mk 0 1], .verify adm 1 1 1, .copy adm 1 1 [LbaRange.mk 0 1], .holdupRecharged 1,
   .eraseSuspend .keeper 1, .readEraseCounter .keeper 1, .storeArrayRead .data 1 none false, .firmwareImageDownload adm 1 1 false fwImage0,
   .firmwareCommitReplace adm 1, .firmwareCommitReplaceActivate adm 1, .firmwareCommitActivateAtReset adm 1,
   .firmwareCommitActivateNow adm 1, .firmwareCommitBootPartition adm, .readNvmeMiDataStructure 0 1 1 1,
   .controllerHealthStatusPoll 0 1 1 false, .configurationGet 0 1 1, .configurationSet 0 1 1 1, .basicManagementCommand 0 1,
   .adminCommandTunnel 1 0 .other, .epochAheadRetry 1 1] : List Instr).all (Instr.wf ·) = true := by decide +kernel

theorem test_wellFormed4 : ([.contribDoneReply ⟨1, 1, 1⟩ 1 1 1, .retractReply ⟨1, 1, 1⟩ 1 1 1] : List Instr).all (Instr.wf ·) = true := by decide +kernel

theorem test_illFormed1 : ([.vcoreOutOfWindow 0 65536, .vcoreWindowRestored 0 65536, .setFeaturesTimestamp { adm with qid := 65536 } 0, .patrolComplete 0 32768,
   .stagingRowTimeout 0 32768, .parityAccumulatorMemoryError 0 false 32768 1, .pendingUpdateApply 0 1099511627776, .mapSegmentLoad 0 65536,
   .granuleRelocate 0 1099511627776, .bandResync 0 32768 [], .bandRebuild 0 1024 [] false,
   .membershipStageStage { adm with qid := 65536 } 1 1 false table0, .membershipStageStage adm 4294967296 1 false table0,
   .membershipStageStage adm 1 4294967296 false table0, .membershipStageApply { adm with qid := 65536 },
   .membershipStageReadMemberKey { adm with qid := 65536 }, .membershipStageReadTableHeader { adm with qid := 65536 },
   .membershipStageDiscard { adm with qid := 65536 }, .epochAnnounce ⟨16384, 1, 1⟩ 1 0, .epochAnnounce ⟨1, 1, 1⟩ 4294967296 0,
   .sealNotice ⟨16384, 1, 1⟩ 0 0 1, .sealNotice ⟨1, 1, 1⟩ 0 0 32768, .sealNoticeTimeout 0 32768 0, .sealNoticeRetry 0 32768 0,
   .slotAssign ⟨16384, 1, 1⟩ 1 1 1 1 [], .slotAssign ⟨1, 1, 1⟩ 281474976710656 1 1 1 [], .slotAssign ⟨1, 1, 1⟩ 1 32 1 1 [],
   .slotAssign ⟨1, 1, 1⟩ 1 1 8 1 [], .slotAssign ⟨1, 1, 1⟩ 1 1 1 65536 [], .slotAssign ⟨1, 1, 1⟩ 1 1 1 1 [65536],
   .stripeRecord ⟨16384, 1, 1⟩ false stripe0, .stripeRecordAck ⟨16384, 1, 1⟩ 1 1, .stripeRecordAck ⟨1, 1, 1⟩ 281474976710656 1,
   .stripeRecordAck ⟨1, 1, 1⟩ 1 65536, .stripeShortTimeout 281474976710656, .contribData ⟨16384, 1, 1⟩ 1 1 1 1 1,
   .contribData ⟨1, 1, 1⟩ 281474976710656 1 1 1 1, .contribData ⟨1, 1, 1⟩ 1 32 1 1 1, .contribData ⟨1, 1, 1⟩ 1 1 4 1 1,
   .contribData ⟨1, 1, 1⟩ 1 1 1 262144 1] : List Instr).all (!Instr.wf ·) = true := by decide +kernel

theorem test_illFormed2 : ([.contribData ⟨1, 1, 1⟩ 1 1 1 1 4, .contribDone ⟨16384, 1, 1⟩ 1 1 1 false, .contribDone ⟨1, 1, 1⟩ 281474976710656 1 1 false,
   .contribDone ⟨1, 1, 1⟩ 1 32 1 false, .contribDone ⟨1, 1, 1⟩ 1 1 4 false, .retract ⟨16384, 1, 1⟩ 1 1 1 1 1 false false false false false,
   .retract ⟨1, 1, 1⟩ 281474976710656 1 1 1 1 false false false false false, .retract ⟨1, 1, 1⟩ 1 32 1 1 1 false false false false false,
   .retract ⟨1, 1, 1⟩ 1 1 4 1 1 false false false false false, .retract ⟨1, 1, 1⟩ 1 1 1 262144 1 false false false false false,
   .retract ⟨1, 1, 1⟩ 1 1 1 1 4 false false false false false, .contribRetry 281474976710656 1 1, .contribRetry 1 32 1,
   .contribRetry 1 1 4, .contribBusyRetry 281474976710656 1 1, .contribBusyRetry 1 32 1, .contribBusyRetry 1 1 4, .peerLit 16384,
   .helloAttemptTimeout 16384, .helloRetryTimer 16384, .sessionRekey 16384, .oldSessionErase 16384, .ackTimer 16384 0,
   .retransmissionTimeout 16384 0 1, .retransmissionTimeout 1 0 18446744073709551616, .pathProgressTimeout 16384 0, .livenessTimeout 16384,
   .peerUnreachable 16384, .heartbeatSendTimer 16384, .heartbeat 16384 0 1, .heartbeat 1 0 4294967296, .requestAnswerTimeout 16384 1,
   .requestAnswerTimeout 1 18446744073709551616, .rebuildRead ⟨16384, 1, 1⟩ 1 1 1 1 1 [] [],
   .rebuildRead ⟨1, 1, 1⟩ 281474976710656 1 1 1 1 [] [], .rebuildRead ⟨1, 1, 1⟩ 1 4 1 1 1 [] [], .rebuildRead ⟨1, 1, 1⟩ 1 1 32 1 1 [] [],
   .rebuildRead ⟨1, 1, 1⟩ 1 1 1 262144 1 [] [], .rebuildRead ⟨1, 1, 1⟩ 1 1 1 1 524288 [] [],
   .rebuildData ⟨16384, 1, 1⟩ 1 1 1 1 1 false false false false [] none []] : List Instr).all (!Instr.wf ·) = true := by decide +kernel

theorem test_illFormed3 : ([.rebuildData ⟨1, 1, 1⟩ 281474976710656 1 1 1 1 false false false false [] none [],
   .rebuildData ⟨1, 1, 1⟩ 1 4 1 1 1 false false false false [] none [],
   .rebuildData ⟨1, 1, 1⟩ 1 1 32 1 1 false false false false [] none [],
   .rebuildData ⟨1, 1, 1⟩ 1 1 1 262144 1 false false false false [] none [],
   .rebuildData ⟨1, 1, 1⟩ 1 1 1 1 524288 false false false false [] none [], .lightRequest 16384 ⟨1, 0, 0, 0, 1, 0, 0⟩ false,
   .nak ⟨16384, 1, 1⟩ 1 1 1, .nak ⟨1, 1, 1⟩ 256 1 1, .nak ⟨1, 1, 1⟩ 1 256 1, .pushBusyRetry 281474976710656 false 1,
   .pushBusyRetry 1 false 32, .pushNoNamespaceRetry 281474976710656 false 1, .pushNoNamespaceRetry 1 false 32,
   .darkWaitExpiry { adm with qid := 65536 }, .controllerEnable 0 0 1, .controllerEnable 0 1 0, .submissionQueueDoorbell 0 65536 1,
   .submissionQueueDoorbell 0 1 65536, .completionQueueDoorbell 0 65536 1, .completionQueueDoorbell 0 1 65536,
   .createIoSubmissionQueue { adm with qid := 65536 } 1 1 1 false, .createIoSubmissionQueue adm 65536 1 1 false,
   .createIoSubmissionQueue adm 1 0 1 false, .createIoSubmissionQueue adm 1 1 65536 false,
   .deleteIoSubmissionQueue { adm with qid := 65536 } 1, .deleteIoSubmissionQueue adm 65536,
   .createIoCompletionQueue { adm with qid := 65536 } 1 1 false false 1, .createIoCompletionQueue adm 65536 1 false false 1,
   .createIoCompletionQueue adm 1 0 false false 1, .createIoCompletionQueue adm 1 1 false false 65536,
   .deleteIoCompletionQueue { adm with qid := 65536 } 1, .deleteIoCompletionQueue adm 65536,
   .getLogPage { adm with qid := 65536 } 0 1 1 1 1 false, .getLogPage adm 0 4294967296 1 1 1 false, .getLogPage adm 0 1 65536 1 1 false,
   .getLogPage adm 0 1 1 18446744073709551616 1 false, .getLogPage adm 0 1 1 1 4294967296 false, .identify { adm with qid := 65536 } 0 1 1,
   .identify adm 0 4294967296 1, .identify adm 0 1 65536] : List Instr).all (!Instr.wf ·) = true := by decide +kernel

theorem test_illFormed4 : ([.abort { adm with qid := 65536 } 1 0, .abort adm 65536 0, .getFeatures { adm with qid := 65536 } 0 0,
   .setFeaturesArbitration { adm with qid := 65536 } 0, .setFeaturesPowerManagement { adm with qid := 65536 } 1,
   .setFeaturesPowerManagement adm 32, .setFeaturesTemperatureThreshold { adm with qid := 65536 } 0 1 false,
   .setFeaturesTemperatureThreshold adm 0 16 false, .setFeaturesErrorRecovery { adm with qid := 65536 } 0,
   .setFeaturesNumberOfQueues { adm with qid := 65536 } 0 0, .setFeaturesInterruptCoalescing { adm with qid := 65536 } 0,
   .setFeaturesInterruptVectorConfig { adm with qid := 65536 } 0 false, .setFeaturesAsyncEventConfiguration { adm with qid := 65536 } 0,
   .setFeaturesApst { adm with qid := 65536 } false (Vector.replicate 32 0), .setFeaturesFdp { adm with qid := 65536 } 0 0 false,
   .setFeaturesFdpEvents { adm with qid := 65536 } 0 [] false, .asynchronousEventRequest { adm with qid := 65536 },
   .namespaceManagementCreate { adm with qid := 65536 } 1 1 1 [] false, .namespaceManagementCreate adm 18446744073709551616 1 1 [] false,
   .namespaceManagementCreate adm 1 18446744073709551616 1 [] false, .namespaceManagementCreate adm 1 1 64 [] false,
   .namespaceManagementCreate adm 1 1 1 [65536] false, .namespaceManagementDelete { adm with qid := 65536 } 1,
   .namespaceManagementDelete adm 4294967296, .namespaceAttachment { adm with qid := 65536 } 1 false [],
   .namespaceAttachment adm 4294967296 false [], .formatNvm { adm with qid := 65536 } 1 1, .formatNvm adm 4294967296 1,
   .formatNvm adm 1 64, .formatNvmCryptoErase { adm with qid := 65536 } 1 1 false, .formatNvmCryptoErase adm 4294967296 1 false,
   .formatNvmCryptoErase adm 1 64 false, .securitySendKek { adm with qid := 65536 } blob0,
   .securitySendNamespaceKey { adm with qid := 65536 } 1 blob0, .securitySendNamespaceKey adm 4294967296 blob0,
   .securitySendLock { adm with qid := 65536 }, .securityReceiveKeyStatus { adm with qid := 65536 },
   .securityReceiveProtocolList { adm with qid := 65536 }, .sanitizeCryptoErase { adm with qid := 65536 } false,
   .sanitizeBlockErase { adm with qid := 65536 } false] : List Instr).all (!Instr.wf ·) = true := by decide +kernel

theorem test_illFormed5 : ([.sanitizeOverwrite { adm with qid := 65536 }, .sanitizeExitFailureMode { adm with qid := 65536 },
   .optionStage { adm with qid := 65536 } 1 1 false image0, .optionStage adm 4294967296 1 false image0,
   .optionStage adm 1 4294967296 false image0, .optionCheck { adm with qid := 65536 }, .optionApplyAtStart { adm with qid := 65536 },
   .optionApplyLive { adm with qid := 65536 }, .managementRead { adm with qid := 65536 } 0 1, .managementRead adm 0 4294967296,
   .managementWrite { adm with qid := 65536 } 0 [], .diapausePrepare { adm with qid := 65536 }, .diapauseStatus { adm with qid := 65536 },
   .unsupportedCommand { adm with qid := 65536 }, .read { adm with qid := 65536 } 1 1 1, .read adm 4294967296 1 1,
   .read adm 1 18446744073709551616 1, .read adm 1 1 0, .write { adm with qid := 65536 } 1 1 1 1 1 [], .write adm 4294967296 1 1 1 1 [],
   .write adm 1 18446744073709551616 1 1 1 [], .write adm 1 1 0 1 1 [], .write adm 1 1 1 256 1 [], .write adm 1 1 1 1 65536 [],
   .xtsEncrypt 0 1099511627776 1 [], .xtsEncrypt 0 1 18446744073709551616 [], .flush { adm with qid := 65536 } 1, .flush adm 4294967296,
   .writeZeroes { adm with qid := 65536 } 1 1 1, .writeZeroes adm 4294967296 1 1, .writeZeroes adm 1 18446744073709551616 1,
   .writeZeroes adm 1 1 0, .datasetManagement { adm with qid := 65536 } 1 false [LbaRange.mk 0 1],
   .datasetManagement adm 4294967296 false [LbaRange.mk 0 1], .datasetManagement adm 1 false [LbaRange.mk 0 4294967296],
   .verify { adm with qid := 65536 } 1 1 1, .verify adm 4294967296 1 1, .verify adm 1 18446744073709551616 1, .verify adm 1 1 0,
   .copy { adm with qid := 65536 } 1 1 [LbaRange.mk 0 1]] : List Instr).all (!Instr.wf ·) = true := by decide +kernel

theorem test_illFormed6 : ([.copy adm 4294967296 1 [LbaRange.mk 0 1], .copy adm 1 18446744073709551616 [LbaRange.mk 0 1], .copy adm 1 1 [LbaRange.mk 0 4294967296],
   .holdupRecharged 65536, .eraseSuspend .keeper 65536, .readEraseCounter .keeper 4294967296, .storeArrayRead .data 4294967296 none false,
   .firmwareImageDownload { adm with qid := 65536 } 1 1 false fwImage0, .firmwareImageDownload adm 4294967296 1 false fwImage0,
   .firmwareImageDownload adm 1 4294967296 false fwImage0, .firmwareCommitReplace { adm with qid := 65536 } 1,
   .firmwareCommitReplace adm 8, .firmwareCommitReplaceActivate { adm with qid := 65536 } 1, .firmwareCommitReplaceActivate adm 8,
   .firmwareCommitActivateAtReset { adm with qid := 65536 } 1, .firmwareCommitActivateAtReset adm 8,
   .firmwareCommitActivateNow { adm with qid := 65536 } 1, .firmwareCommitActivateNow adm 8,
   .firmwareCommitBootPartition { adm with qid := 65536 }, .readNvmeMiDataStructure 0 256 1 1, .readNvmeMiDataStructure 0 1 256 1,
   .readNvmeMiDataStructure 0 1 1 65536, .controllerHealthStatusPoll 0 65536 1 false, .controllerHealthStatusPoll 0 1 256 false,
   .configurationGet 0 256 1, .configurationGet 0 1 256, .configurationSet 0 256 1 1, .configurationSet 0 1 256 1,
   .configurationSet 0 1 1 4294967296, .basicManagementCommand 0 256, .adminCommandTunnel 65536 0 .other, .epochAheadRetry 16384 1,
   .epochAheadRetry 1 18446744073709551616, .contribDoneReply ⟨16384, 1, 1⟩ 1 1 1, .contribDoneReply ⟨1, 1, 1⟩ 281474976710656 1 1,
   .contribDoneReply ⟨1, 1, 1⟩ 1 32 1, .contribDoneReply ⟨1, 1, 1⟩ 1 1 4, .retractReply ⟨16384, 1, 1⟩ 1 1 1,
   .retractReply ⟨1, 1, 1⟩ 281474976710656 1 1, .retractReply ⟨1, 1, 1⟩ 1 32 1] : List Instr).all (!Instr.wf ·) = true := by decide +kernel

theorem test_illFormed7 : ([.retractReply ⟨1, 1, 1⟩ 1 1 4] : List Instr).all (!Instr.wf ·) = true := by decide +kernel


end Sys2Proof.Tests
end

