-- ==== Sys2Proof/Proofs/Reset.lean ====
section
/-! What the registers and the store die hold right after reset (R383). -/

namespace Sys2Proof.Machine

/-! The units of one kind are alike after reset, so the Reset column of one unit is that of all. -/

theorem reset_lanes (l : LaneIx) : State.reset.lanes[l] = freshLane := Vector.getElem_replicate l.isLt
theorem reset_clusters (c : ClusterIx) : State.reset.clusters[c] = freshCluster := Vector.getElem_replicate c.isLt
theorem reset_regions (g : RegionIx) : State.reset.regions[g] = freshRegion := Vector.getElem_replicate g.isLt
theorem reset_dies (d : DieIx) : State.reset.dies[d] = freshDie := by
  match d with
  | 0 => rfl
  | 1 => rfl

theorem reset_readReg_lane (l : LaneIx) (o : Nat) : State.reset.readReg (.lane l) o = State.reset.readReg (.lane 0) o := by
  simp only [State.readReg, State.irqOf, State.readLane, reset_lanes]

theorem reset_readReg_cluster (c : ClusterIx) (o : Nat) : State.reset.readReg (.cluster c) o = State.reset.readReg (.cluster 0) o := by
  simp only [State.readReg, State.irqOf, State.readCluster, reset_clusters]

theorem reset_readReg_region (g : RegionIx) (o : Nat) : State.reset.readReg (.region g) o = State.reset.readReg (.region 0) o := by
  simp only [State.readReg, State.irqOf, State.readRegion, reset_regions]

/-! Both dies are held in reset, with no shadow open. -/

theorem reset_com (d : DieIx) : State.reset.com d = freshCommon := by
  rw [State.com, reset_dies]; rfl

theorem reset_dieRuns (d : DieIx) : State.reset.dieRuns d = false := by
  rw [State.dieRuns, reset_com]; rfl

theorem reset_shadowsKept : State.reset.shadowsKept := fun d => by
  rw [reset_com]
  exact Nat.zero_le 4

/-- The array is blank, and no program, erase, intent or open sequence stands. -/
theorem reset_storeKept : State.reset.storeKept := ⟨rfl, nofun, nofun, nofun, nofun, nofun⟩

/-! The Reset values that a block out of service answers with (R303, R325). -/

theorem reset_host_status (d : DieIx) : State.reset.blockLive (.host d) = false ∧ State.reset.resetReg (.host d) 0 = 0 :=
  ⟨by simp only [State.blockLive, reset_dieRuns, Bool.false_and], rfl⟩

theorem reset_mem_status (d : DieIx) : State.reset.blockLive (.mem d) = false ∧ State.reset.resetReg (.mem d) 0 = 0x200000 :=
  ⟨by simp only [State.blockLive, reset_dieRuns, Bool.false_and], rfl⟩

/-- Settles O55: the state after reset is a literal, so the column of one lane, one cluster, one region, each die and the keeper with the store
die is evaluated, and the other units of the kind read as that one. -/
theorem resetLeavesTheResetColumn : Obligations.ResetLeavesTheResetColumn := by
  unfold Obligations.ResetLeavesTheResetColumn
  refine ⟨fun l => ?lane, fun c => ?cluster, fun g => ?region, ?dies, ?keeperAndStore, fun d => ?outOfService, reset_storeKept, reset_shadowsKept⟩
  case lane => simp only [reset_readReg_lane l]; decide
  case cluster => simp only [reset_readReg_cluster c]; decide
  case region => simp only [reset_readReg_region g]; decide
  case dies => decide
  case keeperAndStore => decide +kernel -- KPR_FC_STATUS counts the 512 pending bits, beyond the elaborator's recursion depth
  case outOfService =>
    obtain ⟨hostOut, hostStatus⟩ := reset_host_status d
    obtain ⟨memOut, memStatus⟩ := reset_mem_status d
    exact ⟨hostOut, hostStatus, memOut, memStatus⟩

end Sys2Proof.Machine
end

