-- ==== Sys2Proof/Proofs/JournalRecords.lean ====
section
/-! A journal record and its sixteen bytes, and the changes that are journaled in one record (R137, R138, R163, R196). -/

namespace Sys2Proof.Machine

/-! Sixteen bytes (R8, R137). -/

theorem leBytes_succ (n v : Nat) : leBytes (n + 1) v = BitVec.ofNat 8 v :: leBytes n (v / 256) := by
  simp [leBytes, List.range_succ_eq_map, Nat.pow_succ', Nat.div_div_eq_div_mul]

@[simp] theorem length_leBytes (n v : Nat) : (leBytes n v).length = n := by simp [leBytes]

theorem leNum_leBytes (n v : Nat) : leNum (leBytes n v) = v % 256 ^ n := by
  induction n generalizing v with
  | zero => simp [leBytes, leNum, Nat.mod_one]
  | succ n ih =>
    have step : leNum (leBytes (n + 1) v) = v % 256 + 256 * leNum (leBytes n (v / 256)) := by
      simp [leBytes_succ, leNum]
    rw [step, ih, Nat.pow_succ', Nat.mod_mul]

theorem ofNat_leNum_leBytes (n : Nat) {w} (v : BitVec w) (h : w = 8 * n) : BitVec.ofNat w (leNum (leBytes n v.toNat)) = v := by
  subst h
  rw [leNum_leBytes, Nat.mod_eq_of_lt, BitVec.ofNat_toNat, BitVec.setWidth_eq]
  rw [show 256 = 2 ^ 8 from rfl, ← Nat.pow_mul]
  exact v.isLt

theorem length_slotBytes (x : JSlot) : (slotBytes x).length = 16 := by simp [slotBytes]

theorem slotOfBytes_slotBytes (x : JSlot) : slotOfBytes (slotBytes x) = x := by
  have key : ((slotBytes x).drop 2).take 5 = leBytes 5 x.key.toNat := by simp [slotBytes]
  have value : ((slotBytes x).drop 7).take 5 = leBytes 5 x.value.toNat := by simp [slotBytes]
  have aux : ((slotBytes x).drop 12).take 4 = leBytes 4 x.aux.toNat := by simp [slotBytes, List.drop_append, List.drop_eq_nil_of_le]
  rw [slotOfBytes, key, value, aux, ofNat_leNum_leBytes 5 _ rfl, ofNat_leNum_leBytes 5 _ rfl, ofNat_leNum_leBytes 4 _ rfl]
  rfl

/-! The fields of a record as it is written. -/

@[simp] theorem jslot_type (t k v a : Nat) : (jslot t k v a).type = BitVec.ofNat 8 t := rfl
@[simp] theorem jslot_rflags (t k v a : Nat) : (jslot t k v a).rflags = 0 := rfl
@[simp] theorem jslot_key (t k v a : Nat) : (jslot t k v a).key.toNat = k % 2 ^ 40 := BitVec.toNat_ofNat k 40
@[simp] theorem jslot_value (t k v a : Nat) : (jslot t k v a).value.toNat = v % 2 ^ 40 := BitVec.toNat_ofNat v 40
@[simp] theorem jslot_aux (t k v a : Nat) : (jslot t k v a).aux = BitVec.ofNat 32 a := rfl

/-- The types of records that are a change by themselves: not EMPTY, JHDR, JSEQ or a part of a stripe record. -/
def IsChange (t : Byte) : Prop := t.toNat ∉ [0x00, 0x01, 0x02, 0x71, 0x72, 0x73, 0x74]

theorem readSlot_of_isChange {x : JSlot} (acc : List JRec) (h : IsChange x.type) : readSlot acc x = acc ++ [slotRec x] := by
  simp only [IsChange, List.mem_cons, not_or] at h
  obtain ⟨h0, h1, h2, h3, h4, h5, h6, -⟩ := h
  unfold readSlot
  split
  case h_8 => rfl
  all_goals contradiction

/-! A code names its value again. -/

@[simp] theorem ofCode_densityBits (d : Density) : ofCode allDensities densityBits (densityBits d) = some d := by cases d <;> rfl
@[simp] theorem ofCode_bandKindCode (k : BandKind) : ofCode allBandKinds bandKindCode (bandKindCode k) = some k := by cases k <;> rfl
@[simp] theorem ofCode_reclaimCode (r : ReclaimReason) : ofCode allReclaimReasons reclaimCode (reclaimCode r) = some r := by cases r <;> rfl
@[simp] theorem ofCode_readOnlyCode (c : ReadOnlyCause) : ofCode allReadOnlyCauses readOnlyCode (readOnlyCode c) = some c := by cases c <;> rfl
@[simp] theorem ofCode_segStateCode (t : SegState) : ofCode allSegStates segStateCode (segStateCode t) = some t := by cases t <;> rfl
@[simp] theorem ofCode_stripeStateCode (t : StripeState) : ofCode allStripeStates stripeStateCode (stripeStateCode t) = some t := by cases t <;> rfl

theorem densityBits_lt (d : Density) : densityBits d < 8 := by cases d <;> decide
theorem bandKindCode_lt (k : BandKind) : bandKindCode k < 8 := by cases k <;> decide
theorem reclaimCode_lt (r : ReclaimReason) : reclaimCode r < 8 := by cases r <;> decide
theorem readOnlyCode_lt (c : ReadOnlyCause) : readOnlyCode c < 8 := by cases c <;> decide
theorem segStateCode_lt (t : SegState) : segStateCode t < 8 := by cases t <;> decide
theorem stripeStateCode_lt (t : StripeState) : stripeStateCode t < 8 := by cases t <;> decide

/-! A map entry in its 40 bits (R126). -/

theorem mapEntry_bits_toNat (e : MapEntry) : e.bits.toNat = e.frame.toNat + e.band.toNat * 2 ^ 22 + e.state.code.toNat * 2 ^ 37 := by
  rw [MapEntry.bits, BitVec.toNat_append, BitVec.toNat_append, ← Nat.shiftLeft_add_eq_or_of_lt e.band.isLt,
    ← Nat.shiftLeft_add_eq_or_of_lt e.frame.isLt, Nat.shiftLeft_eq, Nat.shiftLeft_eq]
  ring

theorem entryOfBits_state {v : Nat} (t : EntryState) (h : bitsAt v 37 3 = t.code.toNat) : (entryOfBits v).state = t := by
  simp only [entryOfBits, h]
  cases t with
  | reserved c =>
    obtain rfl | rfl : c = 0 ∨ c = 1 := by omega
    · rfl
    · rfl
  | _ => rfl

theorem entryOfBits_bits (e : MapEntry) : entryOfBits e.bits.toNat = e := by
  have hframe := e.frame.isLt
  have hband := e.band.isLt
  have hcode := e.state.code.isLt
  have state : (entryOfBits e.bits.toNat).state = e.state := entryOfBits_state _ (by rw [mapEntry_bits_toNat, bitsAt]; omega)
  have band : bitsAt e.bits.toNat 22 15 = e.band.toNat := by rw [mapEntry_bits_toNat, bitsAt]; omega
  have frame : bitsAt e.bits.toNat 0 22 = e.frame.toNat := by rw [mapEntry_bits_toNat, bitsAt]; omega
  calc entryOfBits e.bits.toNat
      = ⟨(entryOfBits e.bits.toNat).state, BitVec.ofNat 15 (bitsAt e.bits.toNat 22 15), BitVec.ofNat 22 (bitsAt e.bits.toNat 0 22)⟩ := rfl
    _ = e := by simp only [state, band, frame, BitVec.ofNat_toNat, BitVec.setWidth_eq]

/-! Changes of one record. -/

/-- The change is journaled in one record, which is read as the change. -/
def OneSlot (x : JRec) : Prop := ∃ s, recSlots x = [s] ∧ IsChange s.type ∧ slotRec s = x

theorem oneSlot_map {gran : Nat} {e : MapEntry} {cas om : Bool} {ob : Nat} (h : recFits (.map gran e cas om ob)) : OneSlot (.map gran e cas om ob) := by
  obtain ⟨hgran, hob⟩ := h
  have key : gran % 2 ^ 40 = gran := Nat.mod_eq_of_lt hgran
  have value : e.bits.toNat % 2 ^ 40 = e.bits.toNat := Nat.mod_eq_of_lt e.bits.isLt
  have mapped : (bitsAt ((ob + if om then 2 ^ 15 else 0) % 2 ^ 32) 15 1 == 1) = om := by
    cases om
    · simp only [bitsAt, Bool.false_eq_true, if_false, beq_eq_false_iff_ne]; omega
    · simp only [bitsAt, if_true, beq_iff_eq]; omega
  have band : bitsAt ((ob + if om then 2 ^ 15 else 0) % 2 ^ 32) 0 15 = ob := by rw [bitsAt]; split <;> omega
  refine ⟨_, rfl, by simp [IsChange], ?_⟩
  cases cas <;> simp [slotRec, key, value, mapped, band, entryOfBits_bits, -Nat.reducePow]

theorem oneSlot_bandOpen {b : Nat} {d : Density} {p : Nat} {st : Byte} {op : Nat} {k : BandKind} (h : recFits (.bandOpen b d p st op k)) :
    OneSlot (.bandOpen b d p st op k) := by
  obtain ⟨hb, hp, hop⟩ := h
  have hst := st.isLt
  have hd := densityBits_lt d
  have hk := bandKindCode_lt k
  refine ⟨_, rfl, by simp [IsChange], ?_⟩
  generalize hkey : b + densityBits d * 2 ^ 16 + p * 2 ^ 24 + st.toNat * 2 ^ 32 = key
  have band : bitsAt (key % 2 ^ 40) 0 15 = b := by rw [bitsAt]; omega
  have density : bitsAt (key % 2 ^ 40) 16 8 = densityBits d := by rw [bitsAt]; omega
  have profile : bitsAt (key % 2 ^ 40) 24 8 = p := by rw [bitsAt]; omega
  have stream : bitsAt (key % 2 ^ 40) 32 8 = st.toNat := by rw [bitsAt]; omega
  have kind : bitsAt (bandKindCode k % 2 ^ 32) 0 4 = bandKindCode k := by rw [bitsAt]; omega
  simp [slotRec, band, density, profile, stream, kind, Nat.mod_eq_of_lt hop, -Nat.reducePow]

theorem toInt_ofNat_emod {t : Int} (hlo : -128 ≤ t) (hhi : t ≤ 127) : (BitVec.ofNat 8 (t % 256).toNat).toInt = t := by
  rw [BitVec.toInt_ofNat', Int.bmod]; omega

theorem oneSlot_bandEighth {b k : Nat} {tage : Word} {temp : Int} (h : recFits (.bandEighth b k tage temp)) : OneSlot (.bandEighth b k tage temp) := by
  obtain ⟨hb, hk, hlo, hhi⟩ := h
  have htage := tage.isLt
  have band : bitsAt ((b + k * 2 ^ 16) % 2 ^ 40) 0 15 = b := by rw [bitsAt]; omega
  have eighth : bitsAt ((b + k * 2 ^ 16) % 2 ^ 40) 16 3 = k := by rw [bitsAt]; omega
  have age : bitsAt ((tage.toNat + (temp % 256).toNat * 2 ^ 32) % 2 ^ 40) 0 32 = tage.toNat := by rw [bitsAt]; omega
  have signed : bitsAt ((tage.toNat + (temp % 256).toNat * 2 ^ 32) % 2 ^ 40) 32 8 = (temp % 256).toNat := by rw [bitsAt]; omega
  refine ⟨_, rfl, by simp [IsChange], ?_⟩
  simp [slotRec, band, eighth, age, signed, toInt_ofNat_emod hlo hhi, -Nat.reducePow]

theorem oneSlot_bandState {b : Nat} {fl : Byte} {age : Word} (h : recFits (.bandState b fl age)) : OneSlot (.bandState b fl age) := by
  simp only [recFits] at h
  have hfl := fl.isLt
  have band : bitsAt (b % 2 ^ 40) 0 15 = b := by rw [bitsAt]; omega
  have flags : bitsAt fl.toNat 0 8 = fl.toNat := by rw [bitsAt]; omega
  refine ⟨_, rfl, by simp [IsChange], ?_⟩
  simp [slotRec, band, flags, -Nat.reducePow]

theorem oneSlot_dirty {b k : Nat} {on : Bool} (h : recFits (.dirty b k on)) : OneSlot (.dirty b k on) := by
  obtain ⟨hb, hk⟩ := h
  have band : bitsAt ((b + k * 2 ^ 16) % 2 ^ 40) 0 15 = b := by rw [bitsAt]; omega
  have bit : bitsAt ((b + k * 2 ^ 16) % 2 ^ 40) 16 14 = k := by rw [bitsAt]; omega
  refine ⟨_, rfl, by simp [IsChange], ?_⟩
  cases on <;> simp [slotRec, band, bit, -Nat.reducePow]

theorem oneSlot_reclaimStart {b : Nat} {r : ReclaimReason} {n : Nat} {rel : Option Nat} (h : recFits (.reclaimStart b r n rel)) :
    OneSlot (.reclaimStart b r n rel) := by
  obtain ⟨hb, hn, hrel⟩ := h
  have hr := reclaimCode_lt r
  have band : bitsAt ((b + reclaimCode r * 2 ^ 16) % 2 ^ 40) 0 15 = b := by rw [bitsAt]; omega
  have reason : bitsAt ((b + reclaimCode r * 2 ^ 16) % 2 ^ 40) 16 3 = reclaimCode r := by rw [bitsAt]; omega
  have score : bitsAt (n % 2 ^ 40) 0 32 = n := by rw [bitsAt]; omega
  refine ⟨_, rfl, by simp [IsChange], ?_⟩
  cases rel with
  | none =>
    have target : bitsAt (0x7FFF % 2 ^ 32) 0 15 = 0x7FFF := by decide
    simp [slotRec, band, reason, score, target, -Nat.reducePow]
  | some m =>
    have hm := hrel m rfl
    have target : bitsAt (m % 2 ^ 32) 0 15 = m := by rw [bitsAt]; omega
    simp [slotRec, band, reason, score, target, hm.ne, -Nat.reducePow]

theorem oneSlot_readOnly (c : ReadOnlyCause) : OneSlot (.readOnly c) := by
  have hc := readOnlyCode_lt c
  have cause : bitsAt (readOnlyCode c % 2 ^ 40) 0 3 = readOnlyCode c := by rw [bitsAt]; omega
  refine ⟨_, rfl, by simp [IsChange], ?_⟩
  simp [slotRec, cause, -Nat.reducePow]

theorem oneSlot_segState {e : SegEntry} (h : recFits (.segState e)) : OneSlot (.segState e) := by
  obtain ⟨band, seg, st, pos, stripe, done, ret⟩ := e
  simp only [recFits] at h
  have hdone := done.isLt
  have hret := ret.isLt
  have hst := segStateCode_lt st
  refine ⟨_, rfl, by simp [IsChange], ?_⟩
  generalize haux : stripe / 2 ^ 40 + pos * 2 ^ 8 + segStateCode st * 2 ^ 13 + done.toNat * 2 ^ 16 + ret.toNat * 2 ^ 20 = a
  have bandBits : bitsAt ((band + seg * 2 ^ 15) % 2 ^ 40) 0 15 = band := by rw [bitsAt]; omega
  have segBits : bitsAt ((band + seg * 2 ^ 15) % 2 ^ 40) 15 4 = seg := by rw [bitsAt]; omega
  have stripeBits : stripe % 2 ^ 40 + bitsAt (a % 2 ^ 32) 0 8 * 2 ^ 40 = stripe := by rw [bitsAt]; omega
  have posBits : bitsAt (a % 2 ^ 32) 8 5 = pos := by rw [bitsAt]; omega
  have stateBits : bitsAt (a % 2 ^ 32) 13 3 = segStateCode st := by rw [bitsAt]; omega
  have doneBits : bitsAt (a % 2 ^ 32) 16 4 = done.toNat := by rw [bitsAt]; omega
  have retractedBits : bitsAt (a % 2 ^ 32) 20 4 = ret.toNat := by rw [bitsAt]; omega
  simp [slotRec, bandBits, segBits, stripeBits, posBits, stateBits, doneBits, retractedBits, -Nat.reducePow]

theorem oneSlot_unknown {t : Byte} (h : recFits (.unknown t)) : OneSlot (.unknown t) := by
  simp only [recFits] at h
  refine ⟨_, rfl, ?_, ?_⟩
  · simp only [jslot_type, BitVec.ofNat_toNat, BitVec.setWidth_eq, IsChange, List.mem_cons, List.not_mem_nil, or_false]; omega
  · simp only [slotRec, jslot_type, BitVec.ofNat_toNat, BitVec.setWidth_eq]
    split
    case h_28 => rfl
    all_goals omega

/-- The one record of a change other than a stripe record is read as the change. -/
theorem oneSlot_of_recFits {x : JRec} (h : recFits x) (hx : ∀ r, x ≠ .stripeRec r) : OneSlot x := by
  cases x
  case stripeRec r => exact absurd rfl (hx r)
  case map => exact oneSlot_map h
  case bandOpen => exact oneSlot_bandOpen h
  case bandEighth => exact oneSlot_bandEighth h
  case bandState => exact oneSlot_bandState h
  case dirty => exact oneSlot_dirty h
  case reclaimStart => exact oneSlot_reclaimStart h
  case readOnly => exact oneSlot_readOnly _
  case segState => exact oneSlot_segState h
  case unknown => exact oneSlot_unknown h
  -- The other layouts hold numbers only.
  all_goals
    refine ⟨_, rfl, by simp [IsChange], ?_⟩
    simp only [recFits] at h
    simp only [slotRec, jslot_type, jslot_key, jslot_value, jslot_aux, BitVec.toNat_ofNat, bitsAt]
    congr 1 <;> omega

end Sys2Proof.Machine
end

