-- ==== Sys2Proof/Proofs/JournalStripes.lean ====
section
/-! A stripe record and the journal records that it is written in (R220, R234). -/

namespace Sys2Proof.Machine

/-- The types of the records that complete a stripe record. -/
def IsPart (t : Byte) : Prop := t.toNat ∈ [0x72, 0x73, 0x74]

theorem readSlot_header {x : JSlot} (acc : List JRec) (h : x.type.toNat = 0x71) : readSlot acc x = acc ++ [.stripeRec (stripeHead x)] := by
  simp only [readSlot, h]

theorem readSlot_of_isPart {x : JSlot} (acc : List JRec) (r : StripeRec) (h : IsPart x.type) :
    readSlot (acc ++ [.stripeRec r]) x = acc ++ [.stripeRec (stripePart r x)] := by
  simp only [IsPart, List.mem_cons, List.not_mem_nil, or_false] at h
  obtain h | h | h := h <;> simp [readSlot, h]

theorem foldl_readSlot_parts {l : List JSlot} (h : ∀ x ∈ l, IsPart x.type) (acc : List JRec) (r : StripeRec) :
    l.foldl readSlot (acc ++ [.stripeRec r]) = acc ++ [.stripeRec (l.foldl stripePart r)] := by
  induction l generalizing r with
  | nil => rfl
  | cons x l ih =>
    obtain ⟨hx, hl⟩ := List.forall_mem_cons.1 h
    rw [List.foldl_cons, readSlot_of_isPart acc r hx, ih hl, List.foldl_cons]

/-- The STRIPE_MEMBER record of entry number k, whose two bytes are given: DATA below 32, HOLDERS from there on. -/
def memberSlot (stripe k code : Nat) : JSlot := jslot 0x73 (stripe % 2 ^ 40) (stripe / 2 ^ 40 + (k * 2 ^ 8 + code * 2 ^ 16)) 0

theorem memberSlot_number {stripe k code : Nat} (hs : stripe < 2 ^ 48) (hk : k < 64) :
    bitsAt (memberSlot stripe k code).value.toNat 8 6 = k := by
  rw [memberSlot, jslot_value, bitsAt]; omega

theorem memberSlot_entry {stripe k code : Nat} (hs : stripe < 2 ^ 48) (hk : k < 64) (hc : code < 2 ^ 16) :
    bitsAt (memberSlot stripe k code).value.toNat 16 16 = code := by
  rw [memberSlot, jslot_value, bitsAt]; omega

theorem dataCode_lt {d : DataPos} (h : d.member < 2 ^ 14) : dataCode d < 2 ^ 16 := by
  rw [dataCode]; split <;> split <;> omega

theorem holderCode_lt {d : HolderPos} (h : d.member < 2 ^ 14) : holderCode d < 2 ^ 16 := by
  rw [holderCode]; split <;> omega

theorem dataOf_dataCode {d : DataPos} (h : d.member < 2 ^ 14) : dataOf (dataCode d) = d := by
  obtain ⟨m, ap, re⟩ := d
  change m < 2 ^ 14 at h
  cases ap <;> cases re <;> simp [dataOf, dataCode, bitsAt] <;> omega

theorem holderOf_holderCode {d : HolderPos} (h : d.member < 2 ^ 14) : holderOf (holderCode d) = d := by
  obtain ⟨m, ac⟩ := d
  change m < 2 ^ 14 at h
  cases ac <;> simp [holderOf, holderCode, bitsAt] <;> omega

theorem stripePart_data {stripe k : Nat} {d : DataPos} (r : StripeRec) (hs : stripe < 2 ^ 48) (hk : k < 32) (hd : d.member < 2 ^ 14) :
    stripePart r (memberSlot stripe k (dataCode d)) = { r with data := r.data ++ [d] } := by
  have hc := dataCode_lt hd
  have hk' : k < 64 := by omega
  have type : (memberSlot stripe k (dataCode d)).type.toNat = 0x73 := rfl
  simp only [stripePart, type, memberSlot_number hs hk', memberSlot_entry hs hk' hc, if_pos hk, dataOf_dataCode hd]

theorem stripePart_holder {stripe k : Nat} {d : HolderPos} (r : StripeRec) (hs : stripe < 2 ^ 48) (hk : k < 32) (hd : d.member < 2 ^ 14) :
    stripePart r (memberSlot stripe (32 + k) (holderCode d)) = { r with holders := r.holders ++ [d] } := by
  have hc := holderCode_lt hd
  have hk' : 32 + k < 64 := by omega
  have hge : ¬ 32 + k < 32 := by omega
  have type : (memberSlot stripe (32 + k) (holderCode d)).type.toNat = 0x73 := rfl
  simp only [stripePart, type, memberSlot_number hs hk', memberSlot_entry hs hk' hc, if_neg hge, holderOf_holderCode hd]

/-- A run of STRIPE_MEMBER records adds the entries that each of them adds, in order. -/
theorem foldl_stripePart_zipIdx {α : Type} {slot : α × Nat → JSlot} {add : StripeRec → List α → StripeRec} {l : List α} (nil : ∀ r, add r [] = r)
    (step : ∀ d ∈ l, ∀ k < 32, ∀ r ds, add (stripePart r (slot (d, k))) ds = add r (d :: ds)) {n : Nat} (hl : n + l.length ≤ 32) (r : StripeRec) :
    ((l.zipIdx n).map slot).foldl stripePart r = add r l := by
  induction l generalizing n r with
  | nil => exact (nil r).symm
  | cons d l ih =>
    rw [List.length_cons] at hl
    obtain ⟨hd, htail⟩ := List.forall_mem_cons.1 step
    rw [List.zipIdx_cons, List.map_cons, List.foldl_cons, ih htail (by omega), hd n (by omega)]

theorem foldl_stripePart_data {stripe : Nat} (hs : stripe < 2 ^ 48) {l : List DataPos} (hl : l.length ≤ 32) (hm : ∀ d ∈ l, d.member < 2 ^ 14)
    (r : StripeRec) :
    (l.zipIdx.map fun x => memberSlot stripe x.2 (dataCode x.1)).foldl stripePart r = { r with data := r.data ++ l } := by
  refine foldl_stripePart_zipIdx (add := fun r l => { r with data := r.data ++ l }) (fun r => by simp) (fun d hd k hk r ds => ?_) (by omega) r
  simp [stripePart_data r hs hk (hm d hd)]

theorem foldl_stripePart_holders {stripe : Nat} (hs : stripe < 2 ^ 48) {l : List HolderPos} (hl : l.length ≤ 32) (hm : ∀ d ∈ l, d.member < 2 ^ 14)
    (r : StripeRec) :
    (l.zipIdx.map fun x => memberSlot stripe (32 + x.2) (holderCode x.1)).foldl stripePart r = { r with holders := r.holders ++ l } := by
  refine foldl_stripePart_zipIdx (add := fun r l => { r with holders := r.holders ++ l }) (fun r => by simp) (fun d hd k hk r ds => ?_) (by omega) r
  simp [stripePart_holder r hs hk (hm d hd)]

/-- The STRIPE_HDR record. -/
def headSlot (r : StripeRec) : JSlot :=
  jslot 0x71 (r.stripe % 2 ^ 40) (r.stripe / 2 ^ 40 + (r.k * 2 ^ 8 + r.m * 2 ^ 16 + stripeStateCode r.state * 2 ^ 24 + r.filled * 2 ^ 32))
    (r.group + r.mypos * 2 ^ 8 + r.version * 2 ^ 16)

/-- The STRIPE_TIME record. -/
def timeSlot (r : StripeRec) : JSlot := jslot 0x72 (r.stripe % 2 ^ 40) (r.stripe / 2 ^ 40 + r.opened * 2 ^ 8) r.epoch

/-- A STRIPE_LOC record: of CUR, or of NEW. -/
def locSlot (r : StripeRec) (x : Option (Nat × Nat)) (isNew : Nat) : JSlot :=
  jslot 0x74 (r.stripe % 2 ^ 40) (locCode x) (r.stripe / 2 ^ 40 + isNew * 2 ^ 8 + r.newthru * 2 ^ 9 + applyingCode r.applying * 2 ^ 16)

/-- The records behind STRIPE_HDR. -/
def stripeParts (r : StripeRec) : List JSlot :=
  timeSlot r :: ((r.data.zipIdx.map fun x => memberSlot r.stripe x.2 (dataCode x.1)) ++
    ((r.holders.zipIdx.map fun x => memberSlot r.stripe (32 + x.2) (holderCode x.1)) ++ [locSlot r r.cur 0, locSlot r r.new 1]))

theorem stripeSlots_eq (r : StripeRec) : stripeSlots r = headSlot r :: stripeParts r := by
  simp [stripeSlots, stripeParts, headSlot, timeSlot, memberSlot, locSlot]

theorem isPart_of_mem_stripeParts {r : StripeRec} {x : JSlot} (h : x ∈ stripeParts r) : IsPart x.type := by
  simp only [stripeParts, List.mem_cons, List.mem_append, List.mem_map, List.not_mem_nil, or_false] at h
  obtain rfl | ⟨_, _, rfl⟩ | ⟨_, _, rfl⟩ | rfl | rfl := h <;> simp [IsPart, timeSlot, memberSlot, locSlot]

theorem stripeHead_headSlot {r : StripeRec} (h : stripeFits r) :
    stripeHead (headSlot r) = { r with epoch := 0, opened := 0, applying := none, newthru := 0, holders := [], data := [], cur := none, new := none } := by
  obtain ⟨hs, hk, hm, hf, hg, -, -, hp, hv, -⟩ := h
  have hst := stripeStateCode_lt r.state
  generalize hval : r.stripe / 2 ^ 40 + (r.k * 2 ^ 8 + r.m * 2 ^ 16 + stripeStateCode r.state * 2 ^ 24 + r.filled * 2 ^ 32) = v
  generalize haux : r.group + r.mypos * 2 ^ 8 + r.version * 2 ^ 16 = a
  have stripe : r.stripe % 2 ^ 40 + bitsAt (v % 2 ^ 40) 0 8 * 2 ^ 40 = r.stripe := by rw [bitsAt]; omega
  have k : bitsAt (v % 2 ^ 40) 8 8 = r.k := by rw [bitsAt]; omega
  have m : bitsAt (v % 2 ^ 40) 16 8 = r.m := by rw [bitsAt]; omega
  have state : bitsAt (v % 2 ^ 40) 24 8 = stripeStateCode r.state := by rw [bitsAt]; omega
  have filled : bitsAt (v % 2 ^ 40) 32 8 = r.filled := by rw [bitsAt]; omega
  have group : bitsAt (a % 2 ^ 32) 0 8 = r.group := by rw [bitsAt]; omega
  have mypos : bitsAt (a % 2 ^ 32) 8 8 = r.mypos := by rw [bitsAt]; omega
  have version : bitsAt (a % 2 ^ 32) 16 16 = r.version := by rw [bitsAt]; omega
  simp [stripeHead, headSlot, hval, haux, stripe, k, m, state, filled, group, mypos, version, -Nat.reducePow]

theorem stripePart_timeSlot {r : StripeRec} (h : stripeFits r) (q : StripeRec) :
    stripePart q (timeSlot r) = { q with opened := r.opened, epoch := r.epoch } := by
  obtain ⟨hs, -, -, -, -, he, ho, -⟩ := h
  have opened : bitsAt ((r.stripe / 2 ^ 40 + r.opened * 2 ^ 8) % 2 ^ 40) 8 32 = r.opened := by rw [bitsAt]; omega
  have epoch : r.epoch % 2 ^ 32 = r.epoch := Nat.mod_eq_of_lt he
  simp [stripePart, timeSlot, opened, epoch, -Nat.reducePow]

theorem locCode_lt {x : Option (Nat × Nat)} (h : ∀ p, x = some p → p.1 < 2 ^ 15 ∧ p.2 < 2 ^ 22) : locCode x < 2 ^ 40 := by
  cases x with
  | none => decide
  | some p =>
    obtain ⟨hb, hf⟩ := h p rfl
    simp only [locCode]; omega

theorem locOf_locCode {x : Option (Nat × Nat)} (h : ∀ p, x = some p → p.1 < 2 ^ 15 ∧ p.2 < 2 ^ 22) : locOf (locCode x) = x := by
  cases x with
  | none => rfl
  | some p =>
    obtain ⟨hb, hf⟩ := h p rfl
    rw [locOf, locCode, if_neg (by omega), Option.some_inj, Prod.ext_iff]
    simp only [bitsAt]
    omega

theorem applyingCode_lt {x : Option (Nat × Bool)} (h : ∀ p, x = some p → p.1 < 64) : applyingCode x < 2 ^ 8 := by
  cases x with
  | none => decide
  | some p =>
    have hp := h p rfl
    simp only [applyingCode]; split <;> omega

theorem applyingOf_applyingCode {x : Option (Nat × Bool)} (h : ∀ p, x = some p → p.1 < 64) : applyingOf (applyingCode x) = x := by
  cases x with
  | none => rfl
  | some p =>
    obtain ⟨p, retract⟩ := p
    have hp := h _ rfl
    cases retract <;> simp [applyingOf, applyingCode, bitsAt] <;> omega

/-- What both STRIPE_LOC records give: NEWTHRU and APPLYING, and the location under its name. -/
theorem stripePart_locSlot {r : StripeRec} (h : stripeFits r) (q : StripeRec) {x : Option (Nat × Nat)} (hx : ∀ p, x = some p → p.1 < 2 ^ 15 ∧ p.2 < 2 ^ 22)
    {isNew : Nat} (hn : isNew < 2) :
    stripePart q (locSlot r x isNew) =
      if isNew = 1 then { q with newthru := r.newthru, applying := r.applying, new := x } else { q with newthru := r.newthru, applying := r.applying, cur := x } := by
  obtain ⟨hs, -, -, -, -, -, -, -, -, hthru, hap, -⟩ := h
  have hcode := applyingCode_lt hap
  have hloc : locCode x % 2 ^ 40 = locCode x := Nat.mod_eq_of_lt (locCode_lt hx)
  generalize haux : r.stripe / 2 ^ 40 + isNew * 2 ^ 8 + r.newthru * 2 ^ 9 + applyingCode r.applying * 2 ^ 16 = a
  have flag : bitsAt (a % 2 ^ 32) 8 1 = isNew := by rw [bitsAt]; omega
  have thru : bitsAt (a % 2 ^ 32) 9 7 = r.newthru := by rw [bitsAt]; omega
  have code : bitsAt (a % 2 ^ 32) 16 8 = applyingCode r.applying := by rw [bitsAt]; omega
  simp [stripePart, locSlot, haux, flag, thru, code, hloc, locOf_locCode hx, applyingOf_applyingCode hap, -Nat.reducePow]

theorem foldl_stripePart_stripeParts {r : StripeRec} (h : stripeFits r) : (stripeParts r).foldl stripePart (stripeHead (headSlot r)) = r := by
  have hfits := h
  obtain ⟨hs, -, -, -, -, -, -, -, -, -, -, hdata, hholders, hdm, hhm, hcur, hnew⟩ := hfits
  rw [stripeParts, stripeHead_headSlot h, List.foldl_cons, stripePart_timeSlot h, List.foldl_append, foldl_stripePart_data hs hdata hdm,
    List.foldl_append, foldl_stripePart_holders hs (by omega) hhm, List.foldl_cons, List.foldl_cons, List.foldl_nil,
    stripePart_locSlot h _ hcur (by decide), stripePart_locSlot h _ hnew (by decide)]
  rfl

theorem foldl_readSlot_stripeSlots {r : StripeRec} (h : stripeFits r) (acc : List JRec) : (stripeSlots r).foldl readSlot acc = acc ++ [.stripeRec r] := by
  rw [stripeSlots_eq, List.foldl_cons, readSlot_header acc rfl, foldl_readSlot_parts (fun _ => isPart_of_mem_stripeParts), foldl_stripePart_stripeParts h]

theorem foldl_readSlot_recSlots {x : JRec} (h : recFits x) (acc : List JRec) : (recSlots x).foldl readSlot acc = acc ++ [x] := by
  by_cases hx : ∃ r, x = .stripeRec r
  · obtain ⟨r, rfl⟩ := hx
    exact foldl_readSlot_stripeSlots h acc
  · obtain ⟨s, hslots, htype, hread⟩ := oneSlot_of_recFits h (not_exists.1 hx)
    rw [hslots, List.foldl_cons, List.foldl_nil, readSlot_of_isChange acc htype, hread]

end Sys2Proof.Machine
end

