-- ==== Sys2Proof/Proofs/JournalFrames.lean ====
section
/-! Journal frames, and the tail that changes are appended to (R136 to R139). -/

namespace Sys2Proof.Machine

/-! Frames. -/

theorem length_flatMap_recSlots (l : List JRec) : (l.flatMap recSlots).length = (l.map recSize).sum := List.length_flatMap

theorem foldl_readSlot_flatMap {l : List JRec} (h : ∀ x ∈ l, recFits x) (acc : List JRec) : (l.flatMap recSlots).foldl readSlot acc = acc ++ l := by
  induction l generalizing acc with
  | nil => simp
  | cons x l ih =>
    obtain ⟨hx, hl⟩ := List.forall_mem_cons.1 h
    rw [List.flatMap_cons, List.foldl_append, foldl_readSlot_recSlots hx, ih hl, List.append_assoc, List.singleton_append]

theorem foldl_readSlot_empty (n : Nat) (acc : List JRec) : (List.replicate n (jslot 0 0 0 0)).foldl readSlot acc = acc := by
  induction n with
  | zero => rfl
  | succ n ih => exact ih

/-- The JHDR record of a frame. -/
def jhdrSlot (f : JFrame) (g : RegionIx) : JSlot := jslot 0x01 (2 + f.used + g.val * 2 ^ 16) f.num 0

/-- The JSEQ record of a frame. -/
def jseqSlot (f : JFrame) : JSlot := jslot 0x02 (f.lowSeq % 2 ^ 40) (f.lowSeq / 2 ^ 40) 0

theorem slots_eq (f : JFrame) (g : RegionIx) :
    f.slots g = jhdrSlot f g :: jseqSlot f :: (f.recs.flatMap recSlots ++ List.replicate (254 - f.used) (jslot 0 0 0 0)) := by
  simp only [JFrame.slots, jhdrSlot, jseqSlot, JFrame.used, length_flatMap_recSlots, List.cons_append, List.nil_append]

theorem length_slots {f : JFrame} (g : RegionIx) (h : f.used ≤ 254) : (f.slots g).length = 256 := by
  have body : (f.recs.flatMap recSlots).length = f.used := length_flatMap_recSlots f.recs
  rw [slots_eq, List.length_cons, List.length_cons, List.length_append, body, List.length_replicate]
  omega

theorem length_flatMap_slotBytes (l : List JSlot) : (l.flatMap slotBytes).length = 16 * l.length := by
  simp [List.length_flatMap, length_slotBytes, Nat.mul_comm]

theorem length_bytes {f : JFrame} (g : RegionIx) (h : f.used ≤ 254) : (f.bytes g).length = 4096 := by
  rw [JFrame.bytes, length_flatMap_slotBytes, length_slots g h]

theorem readSlots_slots {f : JFrame} (g : RegionIx) (h : ∀ x ∈ f.recs, recFits x) : readSlots (f.slots g) = f.recs := by
  rw [readSlots, slots_eq]
  calc (jhdrSlot f g :: jseqSlot f :: (f.recs.flatMap recSlots ++ List.replicate (254 - f.used) (jslot 0 0 0 0))).foldl readSlot []
      = (f.recs.flatMap recSlots ++ List.replicate (254 - f.used) (jslot 0 0 0 0)).foldl readSlot [] := rfl
    _ = f.recs := by rw [List.foldl_append, foldl_readSlot_flatMap h, foldl_readSlot_empty, List.nil_append]

theorem jhdrSlot_fields {f : JFrame} (g : RegionIx) (hu : f.used ≤ 254) (hn : f.num < 2 ^ 40) :
    bitsAt (jhdrSlot f g).key.toNat 0 16 = 2 + f.used ∧ bitsAt (jhdrSlot f g).key.toNat 16 2 = g.val ∧ (jhdrSlot f g).value.toNat = f.num := by
  have hg := g.isLt
  rw [jhdrSlot, jslot_key, jslot_value, bitsAt, bitsAt]
  omega

theorem jseqSlot_lowSeq {f : JFrame} (h : f.lowSeq < 2 ^ 64) :
    (jseqSlot f).key.toNat + bitsAt (jseqSlot f).value.toNat 0 24 * 2 ^ 40 = f.lowSeq := by
  rw [jseqSlot, jslot_key, jslot_value, bitsAt]
  omega

/-! The tail of the journal. -/

/-- What the frames of a region's tail hold, oldest first. -/
def tailRecs (r : RegionSt) : List (List JRec) := r.journal.tail.map (·.recs)

theorem tailRecs_closeTail (r : RegionSt) : tailRecs r.closeTail = tailRecs r := by
  rw [tailRecs, RegionSt.closeTail, List.map_map, tailRecs, List.map_inj_left]
  intro f _
  rw [Function.comp_apply]
  split <;> rfl

/-- A new open frame with the change. -/
def freshFrame (r : RegionSt) (x : JRec) : RegionSt :=
  { r with journal := { r.journal with
    tail := r.journal.tail ++ [{ openFrame r.journal.next with recs := [x] }], next := r.journal.next + 1, sinceCapture := r.journal.sinceCapture + 1 } }

/-- The change behind those of the open frame f. -/
def addTo (r : RegionSt) (f : JFrame) (x : JRec) : RegionSt :=
  { r with journal := { r.journal with tail := r.journal.tail.map fun (y : JFrame) => if y.num == f.num then { y with recs := y.recs ++ [x] } else y } }

/-- The first half of an append: the change finds its frame. -/
def placeRec (r : RegionSt) (x : JRec) : RegionSt :=
  match r.journal.tail.getLast? with
  | some f => if f.closed then freshFrame r x else if 254 < f.used + recSize x then freshFrame r.closeTail x else addTo r f x
  | none => freshFrame r x

/-- The second half: a frame that is full closes. -/
def closeFull (r : RegionSt) : RegionSt :=
  match r.journal.tail.getLast? with
  | some f => if 254 ≤ f.used then r.closeTail else r
  | none => r

theorem append_eq (r : RegionSt) (x : JRec) : r.append x = closeFull (placeRec r x) := rfl

theorem tailRecs_closeFull (r : RegionSt) : tailRecs (closeFull r) = tailRecs r := by
  unfold closeFull
  split
  · split
    · exact tailRecs_closeTail r
    · rfl
  · rfl

theorem tailRecs_freshFrame (r : RegionSt) (x : JRec) : tailRecs (freshFrame r x) = tailRecs r ++ [[x]] := List.map_append

theorem tailRecs_addTo {r : RegionSt} {x : JRec} {init : List JFrame} {f : JFrame} (htail : r.journal.tail = init ++ [f])
    (hnum : (r.journal.tail.map (·.num)).Nodup) : tailRecs (addTo r f x) = init.map (·.recs) ++ [f.recs ++ [x]] := by
  have others : ∀ y ∈ init, y.num ≠ f.num := by
    rw [htail, List.map_append, List.nodup_append] at hnum
    obtain ⟨-, -, apart⟩ := hnum
    exact fun y hy => apart _ (List.mem_map_of_mem hy) _ (List.mem_singleton.2 rfl)
  simp only [tailRecs, addTo, htail, List.map_append, List.map_map, List.map_cons, List.map_nil, beq_self_eq_true, if_true, List.append_cancel_right_eq]
  rw [List.map_inj_left]
  intro y hy
  simp [others y hy]

/-- An append puts the change into a new frame at the end of the tail, or behind the changes of the last frame where that has room. -/
theorem tailRecs_append {r : RegionSt} (x : JRec) (hnum : (r.journal.tail.map (·.num)).Nodup) :
    tailRecs (r.append x) = tailRecs r ++ [[x]] ∨
    ∃ init f, r.journal.tail = init ++ [f] ∧ f.used + recSize x ≤ 254 ∧ tailRecs (r.append x) = init.map (·.recs) ++ [f.recs ++ [x]] := by
  rw [append_eq, tailRecs_closeFull, placeRec]
  split
  case h_1 f hlast =>
    split
    case isTrue => exact .inl (tailRecs_freshFrame r x)
    case isFalse =>
      split
      case isTrue => exact .inl (by rw [tailRecs_freshFrame, tailRecs_closeTail])
      case isFalse hroom =>
        obtain ⟨init, htail⟩ := List.getLast?_eq_some_iff.1 hlast
        exact .inr ⟨init, f, htail, Nat.not_lt.1 hroom, tailRecs_addTo htail hnum⟩
  case h_2 => exact .inl (tailRecs_freshFrame r x)

theorem tail_used_iff (r : RegionSt) : (∀ f ∈ r.journal.tail, f.used ≤ 254) ↔ ∀ l ∈ tailRecs r, (l.map recSize).sum ≤ 254 := by
  simp only [tailRecs, List.forall_mem_map, JFrame.used]

theorem tail_holds_iff (r : RegionSt) (x : JRec) : (∃ f ∈ r.journal.tail, x ∈ f.recs) ↔ ∃ l ∈ tailRecs r, x ∈ l := by
  simp [tailRecs]

theorem append_tail_used {r : RegionSt} {x : JRec} (hx : recSize x ≤ 254) (hr : ∀ f ∈ r.journal.tail, f.used ≤ 254)
    (hnum : (r.journal.tail.map (·.num)).Nodup) : ∀ f ∈ (r.append x).journal.tail, f.used ≤ 254 := by
  rw [tail_used_iff] at hr ⊢
  obtain happ | ⟨init, f, htail, hroom, happ⟩ := tailRecs_append x hnum
  · rw [happ, List.forall_mem_append]
    exact ⟨hr, by simpa using hx⟩
  · rw [tailRecs, htail, List.map_append, List.forall_mem_append] at hr
    obtain ⟨hinit, -⟩ := hr
    rw [happ, List.forall_mem_append]
    exact ⟨hinit, by simpa [JFrame.used] using hroom⟩

theorem append_tail_holds {r : RegionSt} (x : JRec) (hnum : (r.journal.tail.map (·.num)).Nodup) : ∃ f ∈ (r.append x).journal.tail, x ∈ f.recs := by
  rw [tail_holds_iff]
  obtain happ | ⟨init, f, -, -, happ⟩ := tailRecs_append x hnum <;> rw [happ]
  · exact ⟨[x], by simp, by simp⟩
  · exact ⟨f.recs ++ [x], by simp, by simp⟩

/-- Settles O60: a change reads back from its records, so a frame does by induction over its changes; an append keeps a frame within its 254 records,
as a change without room opens a new one. -/
theorem journalReadsBackWhatItHolds : Obligations.JournalReadsBackWhatItHolds := by
  unfold Obligations.JournalReadsBackWhatItHolds
  refine ⟨fun x => ⟨length_slotBytes x, slotOfBytes_slotBytes x⟩, fun x acc h => foldl_readSlot_recSlots h acc, fun f g hfits hused hnum hseq => ?frame,
    fun r x hx hr hnum => ⟨append_tail_used hx hr hnum, append_tail_holds x hnum⟩⟩
  case frame =>
    obtain ⟨hcount, hregion, hframe⟩ := jhdrSlot_fields g hused hnum
    exact ⟨length_slots g hused, length_bytes g hused, readSlots_slots g hfits,
      jhdrSlot f g, jseqSlot f, _, slots_eq f g, rfl, hcount, hregion, hframe, rfl, jseqSlot_lowSeq hseq⟩

end Sys2Proof.Machine
end

