-- ==== Sys2Proof/Proofs/WorkedCases.lean ====
section
/-! The manual's worked cases. -/

namespace Sys2Proof.Machine

/-! Granules, rows and bands (R103, R123, R181). -/

theorem geoW_default {geo : GeometryRec} (h : geo.w = 0) : geoW geo = 64 := by rw [geoW, h]; rfl
theorem geoW_of_ne_zero {geo : GeometryRec} (h : geo.w ≠ 0) : geoW geo = geo.w := by rw [geoW, dflt, if_neg h]

theorem framesPerRow_eq {p : MediaProfile} {d : Density} {e : DensityEntry} (h : p.density[(densityIdx d).val]? = some e) :
    framesPerRow p d = p.planes * densityBits d * p.pageBytes / (4128 + e.parity) := by simp only [framesPerRow, h]

theorem frames_of_hlc_row {p : MediaProfile} {e : DensityEntry} (hplanes : p.planes = 4) (hpage : p.pageBytes = 18432) (he : p.density[4]? = some e)
    (hparity : e.parity = 1024) : framesPerRow p .hlc = 85 := by
  have hd : p.density[(densityIdx .hlc).val]? = some e := he
  rw [framesPerRow_eq hd, hplanes, hpage, hparity]; rfl

theorem dataSlots_of_hlc_band {p : MediaProfile} {geo : GeometryRec} (hw : p.wordlines = 768) (hgeo : geo.w = 0) : bandDataSlots geo p 85 = 4047360 := by
  rw [bandDataSlots, geoW_default hgeo, hw]

theorem granule_of_r123 {n : NamespaceRec} (hlbaf : n.lbaf = 1) (hbase : n.base = 2) :
    granOfLba n 0x12345677 = 101520797 ∧ figOfLba n 0x12345677 = 12 := by
  rw [granOfLba, figOfLba, hlbaf, hbase]; decide

theorem parity_of_band67 {geo : GeometryRec} (hw : geo.w = 64) (hsets : geo.sets = 2) :
    parityPos geo 67 = (31, 32) ∧ bandSet geo 67 = 1 ∧ (dataPos geo 67)[31]? = some 33 ∧
    frameIndex geo 85 10 33 7 = 57212 ∧ frameIndex geo 85 10 31 7 = 57042 := by
  have hgeoW : geoW geo = 64 := by rw [geoW_of_ne_zero (by omega), hw]
  have hparity : parityPos geo 67 = (31, 32) := by rw [parityPos, bandSlot, hgeoW, hsets]
  refine ⟨hparity, ?set, ?position, ?dataIndex, ?parityIndex⟩
  case set => rw [bandSet, hsets]
  case position => rw [dataPos, hparity, hgeoW]; decide
  case dataIndex => rw [frameIndex, hgeoW]
  case parityIndex => rw [frameIndex, hgeoW]

/-! The Galois products of R184 and R214. -/

/-- The two inverses of the worked cases: a^254 is 254 products, beyond the elaborator's recursion depth. -/
theorem gfInv_of_worked_cases : gfInv 0x0A = 0xDD ∧ gfInv 0x80 = 0x1B := by decide +kernel

theorem row_solved : gfMul (0x04 ^^^ gfMul (gfPow 3) 0xF1) (gfInv (gfPow 1 ^^^ gfPow 3)) = 0x35 := by
  obtain ⟨hinv, -⟩ := gfInv_of_worked_cases
  have divisor : gfPow 1 ^^^ gfPow 3 = 0x0A := by decide
  rw [divisor, hinv]
  decide

theorem retract_from_holder0 : stripeSum 0 0xC4 0 0x35 = 0x59 := by
  obtain ⟨-, hinv⟩ := gfInv_of_worked_cases
  have coefficient : stripeCoef 0 0 = 0x1B := hinv
  rw [stripeSum, coefficient]
  decide

theorem galois_products : gfMul 0x08 0xF1 = 0xDB ∧ gfMul 0xDF (gfInv 0x0A) = 0x35 ∧ gfInv 0x80 = 0x1B ∧ gfMul 0x1B 0x35 = 0x9D ∧ gfPow 1 = 0x02 ∧
    gfPow 3 = 0x08 ∧ gfMul (0x04 ^^^ gfMul (gfPow 3) 0xF1) (gfInv (gfPow 1 ^^^ gfPow 3)) = 0x35 ∧ stripeSum 0 0xC4 0 0x35 = 0x59 := by
  obtain ⟨hinv, hcoef⟩ := gfInv_of_worked_cases
  have quotient : gfMul 0xDF (gfInv 0x0A) = 0x35 := by rw [hinv]; decide
  exact ⟨by decide, quotient, hcoef, by decide, by decide, by decide, row_solved, retract_from_holder0⟩

/-- Settles O56: the parts of a row and of a band are computed from the fields that the case gives; the rest are closed numbers. -/
theorem workedCasesHold : Obligations.WorkedCasesHold := by
  unfold Obligations.WorkedCasesHold
  refine ⟨?lane, ?write, ?row, ?lba, ?granule, ?band, galois_products, ?tweak, ?pointers, ?energy, ?spare, ?classes, ?age⟩
  case row => exact fun p e geo hplanes hpage hw he hparity hgeo => ⟨frames_of_hlc_row hplanes hpage he hparity, dataSlots_of_hlc_band hw hgeo⟩
  case lba => exact fun n => granule_of_r123
  case band => exact fun geo => parity_of_band67
  all_goals decide

end Sys2Proof.Machine
end

