-- ==== Sys2Proof/Proofs/BandParity.lean ====
section
/-! The parity and the data positions of a band (R178). -/

namespace Sys2Proof.Machine

/-! Parity 1 follows parity 0 around the set, and both follow the slot. -/

theorem parityPos_fst (geo : GeometryRec) (b : Nat) : (parityPos geo b).1 = (bandSlot geo b + geoW geo - 2) % geoW geo := rfl
theorem parityPos_snd (geo : GeometryRec) (b : Nat) : (parityPos geo b).2 = (bandSlot geo b + geoW geo - 1) % geoW geo := rfl

theorem parityPos_snd_eq_succ {geo : GeometryRec} (hw : 2 ≤ geoW geo) (b : Nat) :
    (parityPos geo b).2 = ((parityPos geo b).1 + 1) % geoW geo := by
  rw [parityPos_fst, parityPos_snd, Nat.mod_add_mod]
  congr 1
  omega

theorem parityPos_fst_lt {geo : GeometryRec} (hw : 2 ≤ geoW geo) (b : Nat) : (parityPos geo b).1 < geoW geo := Nat.mod_lt _ (by omega)
theorem parityPos_snd_lt {geo : GeometryRec} (hw : 2 ≤ geoW geo) (b : Nat) : (parityPos geo b).2 < geoW geo := Nat.mod_lt _ (by omega)

theorem parityPos_fst_ne_snd {geo : GeometryRec} (hw : 2 ≤ geoW geo) (b : Nat) : (parityPos geo b).1 ≠ (parityPos geo b).2 := by
  rw [parityPos_snd_eq_succ hw]
  have hnext : (parityPos geo b).1 + 1 ≤ geoW geo := parityPos_fst_lt hw b
  obtain hlast | hinner := Nat.eq_or_lt_of_le hnext
  · rw [hlast, Nat.mod_self]
    omega
  · rw [Nat.mod_eq_of_lt hinner]
    omega

theorem bandSlot_add_sets {geo : GeometryRec} (hsets : 0 < geo.sets) (b : Nat) : bandSlot geo (b + geo.sets) = bandSlot geo b + 1 :=
  Nat.add_div_right b hsets

theorem parityPos_fst_next_slot {geo : GeometryRec} (hw : 2 ≤ geoW geo) (hsets : 0 < geo.sets) (b : Nat) :
    (parityPos geo (b + geo.sets)).1 = ((parityPos geo b).1 + 1) % geoW geo := by
  rw [← parityPos_snd_eq_succ hw, parityPos_fst, parityPos_snd, bandSlot_add_sets hsets]
  congr 1
  omega

theorem parityPos_snd_next_slot {geo : GeometryRec} (hw : 2 ≤ geoW geo) (hsets : 0 < geo.sets) (b : Nat) :
    (parityPos geo (b + geo.sets)).2 = ((parityPos geo b).2 + 1) % geoW geo := by
  rw [parityPos_snd_eq_succ hw, parityPos_fst_next_slot hw hsets, ← parityPos_snd_eq_succ hw]

/-! The data positions are what the two parity positions leave of the set. -/

theorem mem_dataPos {geo : GeometryRec} {b u : Nat} :
    u ∈ dataPos geo b ↔ u < geoW geo ∧ u ≠ (parityPos geo b).1 ∧ u ≠ (parityPos geo b).2 := by
  simp [dataPos]

theorem dataPos_ascending (geo : GeometryRec) (b : Nat) : (dataPos geo b).Pairwise (· < ·) := List.pairwise_lt_range.filter _

theorem dataPos_eq_erase (geo : GeometryRec) (b : Nat) :
    dataPos geo b = ((List.range (geoW geo)).erase (parityPos geo b).2).erase (parityPos geo b).1 := by
  rw [(List.nodup_range.erase _).erase_eq_filter, List.nodup_range.erase_eq_filter, List.filter_filter, dataPos]

theorem length_dataPos {geo : GeometryRec} (hw : 2 ≤ geoW geo) (b : Nat) : (dataPos geo b).length = geoW geo - 2 := by
  have hsnd : (parityPos geo b).2 ∈ List.range (geoW geo) := List.mem_range.2 (parityPos_snd_lt hw b)
  have hfst : (parityPos geo b).1 ∈ (List.range (geoW geo)).erase (parityPos geo b).2 :=
    (List.mem_erase_of_ne (parityPos_fst_ne_snd hw b)).2 (List.mem_range.2 (parityPos_fst_lt hw b))
  rw [dataPos_eq_erase, List.length_erase_of_mem hfst, List.length_erase_of_mem hsnd, List.length_range, Nat.sub_sub]

/-- Settles O54: parity 1 stands one position after parity 0, the next slot's parity 0 where this slot's parity 1 stood, and the data positions are the
set's positions with those two erased. -/
theorem parityPositionsRotate : Obligations.ParityPositionsRotate := by
  unfold Obligations.ParityPositionsRotate
  intro geo b hwidth
  have hw : 2 ≤ geoW geo := by omega
  exact ⟨parityPos_fst geo b, parityPos_snd geo b, parityPos_fst_ne_snd hw b, parityPos_fst_lt hw b, parityPos_snd_lt hw b,
    length_dataPos hw b, dataPos_ascending geo b, fun _ => mem_dataPos,
    fun hsets => ⟨parityPos_fst_next_slot hw hsets b, parityPos_snd_next_slot hw hsets b⟩⟩

end Sys2Proof.Machine
end

