-- ==== Sys2Proof/Proofs/Protection.lean ====
section
/-! What leaves the protection set and its mirror alone (R371, R421): the update rules, and the operations that the meanings share. -/

namespace Sys2Proof.Machine

/-- The protection mirror and both copies of the protection set. An operation's lemma says that it leaves them alone. Where it does so by
unfolding, its proof is `(rfl)`: a bare `rfl` would make it a `dsimp` lemma, which `simp` does not use under a premise about a function. -/
def State.protSets (s : State) : ProtSet × Vector ProtSet 2 := (s.keeper.prot, s.store.protCopies)

/-- An outcome that goes on leaves the protection set and its mirror as `p`. -/
def LeavesProt (p : ProtSet × Vector ProtSet 2) (o : Out) : Prop := ∀ t, o = .next t → t.protSets = p
@[simp] theorem leavesProt_next {p} {t : State} : LeavesProt p (.next t) ↔ t.protSets = p :=
  ⟨fun h => h t rfl, fun h u e => by cases e; exact h⟩
@[simp] theorem leavesProt_unchanged {p} {s : State} : LeavesProt p (unchanged s) ↔ s.protSets = p := leavesProt_next
@[simp] theorem leavesProt_ite {p} {c : Prop} {_ : Decidable c} (a b : Out) :
    LeavesProt p (if c then a else b) ↔ if c then LeavesProt p a else LeavesProt p b := by split <;> rfl
@[simp] theorem protSets_ite {c : Prop} {_ : Decidable c} (a b : State) :
    (if c then a else b).protSets = if c then a.protSets else b.protSets := by split <;> rfl
@[simp] theorem protSets_dite {c : Prop} {_ : Decidable c} (a : c → State) (b : ¬ c → State) :
    (if h : c then a h else b h).protSets = if h : c then (a h).protSets else (b h).protSets := by split <;> rfl

@[simp] theorem protSets_foldl {α : Type} {f : State → α → State} (h : ∀ s x, (f s x).protSets = s.protSets) (l : List α) (s : State) :
    (l.foldl f s).protSets = s.protSets := by
  induction l generalizing s with
  | nil => rfl
  | cons x l ih => exact (ih _).trans (h s x)

@[simp] theorem protSets_mk (keeper : Keeper) (store : Store) (opt : OptionArea) (fw : Firmware) (dies : Vector DieSt 2) (regions : Vector RegionSt 4)
    (clusters : Vector ClusterSt 12) (lanes : Vector LaneSt 24) (sub : Subsys) (swarm : SwarmSt) (up : Bool) (pending : List Instr) (free : Nat) :
    (State.mk keeper store opt fw dies regions clusters lanes sub swarm up pending free).protSets = (keeper.prot, store.protCopies) := (rfl)

@[simp] theorem protSets_eta (s : State) : (s.keeper.prot, s.store.protCopies) = s.protSets := (rfl)
theorem protSets_ite_of {c : Prop} {_ : Decidable c} {a b : State} {p} (ha : a.protSets = p) (hb : b.protSets = p) :
    (if c then a else b).protSets = p := by split <;> assumption
theorem protSets_of_fst {α : Type} {p : State × α} {t : State} {x : α} (h : p = (t, x)) : t.protSets = p.1.protSets := by rw [h]
@[simp] theorem State.updStore_protSets {s : State} {f : Store → Store} (h : ∀ x, (f x).protCopies = x.protCopies) :
    (s.updStore f).protSets = s.protSets := congrArg (s.keeper.prot, ·) (h s.store)

/-! Parts of the state, events. -/

@[simp] theorem State.updSup_protSets (s : State) (f) : (s.updSup f).protSets = s.protSets := (rfl)
@[simp] theorem State.updHu_protSets (s : State) (f) : (s.updHu f).protSets = s.protSets := (rfl)
@[simp] theorem State.updRescue_protSets (s : State) (f) : (s.updRescue f).protSets = s.protSets := (rfl)
@[simp] theorem State.updTk_protSets (s : State) (f) : (s.updTk f).protSets = s.protSets := (rfl)
@[simp] theorem State.updBoot_protSets (s : State) (f) : (s.updBoot f).protSets = s.protSets := (rfl)
@[simp] theorem State.updFc_protSets (s : State) (f) : (s.updFc f).protSets = s.protSets := (rfl)
@[simp] theorem State.updEv_protSets (s : State) (f) : (s.updEv f).protSets = s.protSets := (rfl)
@[simp] theorem State.updMp_protSets (s : State) (f) : (s.updMp f).protSets = s.protSets := (rfl)
@[simp] theorem State.updOpt_protSets (s : State) (f) : (s.updOpt f).protSets = s.protSets := (rfl)
@[simp] theorem State.updFw_protSets (s : State) (f) : (s.updFw f).protSets = s.protSets := (rfl)
@[simp] theorem State.updDie_protSets (s : State) (d f) : (s.updDie d f).protSets = s.protSets := (rfl)
@[simp] theorem State.updCommon_protSets (s : State) (d f) : (s.updCommon d f).protSets = s.protSets := (rfl)
@[simp] theorem State.updRegion_protSets (s : State) (g f) : (s.updRegion g f).protSets = s.protSets := (rfl)
@[simp] theorem State.updCluster_protSets (s : State) (c f) : (s.updCluster c f).protSets = s.protSets := (rfl)
@[simp] theorem State.updLane_protSets (s : State) (l f) : (s.updLane l f).protSets = s.protSets := (rfl)
@[simp] theorem State.setIrq_protSets (s : State) (src) : (s.setIrq src).protSets = s.protSets := by simp [State.setIrq]
@[simp] theorem State.sendToken_protSets (s : State) (b src d0 d1 injected) : (s.sendToken b src d0 d1 injected).protSets = s.protSets := by
  simp [State.sendToken]
@[simp] theorem State.raiseFrom_protSets (s : State) (b src d0 d1) : (s.raiseFrom b src d0 d1).protSets = s.protSets := by simp [State.raiseFrom]
@[simp] theorem State.openShadow_protSets (s : State) (d source scope own) : (s.openShadow d source scope own).protSets = s.protSets := by
  simp [State.openShadow]

/-! The applied option image. -/

@[simp] theorem State.raiseRail_protSets (s : State) (r above) : (s.raiseRail r above).protSets = s.protSets := (rfl)

/-! A lane engine: slots, order, completion. -/

@[simp] theorem State.raiseLane_protSets (s : State) (l k d) : (s.raiseLane l k d).protSets = s.protSets := by simp [State.raiseLane]
@[simp] theorem State.raiseLaneAll_protSets (s : State) (l k) : (s.raiseLaneAll l k).protSets = s.protSets := by simp [State.raiseLaneAll]
@[simp] theorem State.finishDesc_protSets (s : State) (l e st nand addr value) :
    (s.finishDesc l e st nand addr value).1.protSets = s.protSets := (rfl)
@[simp] theorem State.bind_protSets (s : State) (l c e op) : (s.bind l c e op).protSets = s.protSets := (rfl)

@[simp] theorem State.suspendIfDue_protSets (s : State) (l u) : (s.suspendIfDue l u).protSets = s.protSets := by
  simp only [State.suspendIfDue]
  repeat' split
  all_goals simp

@[simp] theorem State.balanceErases_protSets (s : State) (l) : (s.balanceErases l).protSets = s.protSets := by simp [State.balanceErases]
@[simp] theorem State.turns_protSets (s : State) (l) : (s.turns l).protSets = s.protSets := by simp [State.turns]

@[simp] theorem State.finishAll_protSets (s : State) (l : LaneIx) (st : LaneStatus) (es : List QEntry) :
    (s.finishAll l st es).1.protSets = s.protSets := by
  induction es generalizing s with
  | nil => rfl
  | cons e es ih => simp only [State.finishAll, ih, State.finishDesc_protSets]

@[simp] theorem State.abandonErases_protSets (s : State) (l which) : (s.abandonErases l which).1.protSets = s.protSets := by
  simp [State.abandonErases]
@[simp] theorem State.laneQuarantine_protSets (s : State) (l mask) : (s.laneQuarantine l mask).1.protSets = s.protSets := by
  simp [State.laneQuarantine]
@[simp] theorem State.laneStop_protSets (s : State) (l) : (s.laneStop l).1.protSets = s.protSets := by simp [State.laneStop]
@[simp] theorem State.enqueue_protSets (s : State) (l d p k) : (s.enqueue l d p k).protSets = s.protSets := by simp [State.enqueue]
@[simp] theorem State.refuseDesc_protSets (s : State) (l d) : (s.refuseDesc l d).protSets = s.protSets := by simp [State.refuseDesc]
@[simp] theorem State.laneReissue_protSets (s : State) (l) : (s.laneReissue l).protSets = s.protSets := (rfl)

/-! Crossings. -/

@[simp] theorem State.updCrossing_protSets (s : State) (x f) : (s.updCrossing x f).protSets = s.protSets := by
  unfold State.updCrossing
  split <;> simp

@[simp] theorem State.carry_protSets (s : State) (x out bytes) : (s.carry x out bytes).protSets = s.protSets := by simp [State.carry]
@[simp] theorem State.clockOrder_protSets (s : State) (on xs) : (s.clockOrder on xs).protSets = s.protSets := by simp [State.clockOrder]
@[simp] theorem State.bridgeSend_protSets (s : State) (toward item kind) : (s.bridgeSend toward item kind).protSets = s.protSets := by
  simp [State.bridgeSend]
@[simp] theorem State.clearBridge_protSets (s : State) : s.clearBridge.protSets = s.protSets := (rfl)

/-! Buffer pools and memory tables. -/

@[simp] theorem State.updPool_protSets (s : State) (d f) : (s.updPool d f).protSets = s.protSets := (rfl)
@[simp] theorem State.updMem_protSets (s : State) (d f) : (s.updMem d f).protSets = s.protSets := (rfl)
@[simp] theorem State.updCipher_protSets (s : State) (d f) : (s.updCipher d f).protSets = s.protSets := (rfl)
@[simp] theorem State.updHost_protSets (s : State) (d f) : (s.updHost d f).protSets = s.protSets := (rfl)
@[simp] theorem State.updSub_protSets (s : State) (f) : (s.updSub f).protSets = s.protSets := (rfl)
@[simp] theorem State.allocBuf_protSets (s : State) (d c i) : (s.allocBuf d c i).protSets = s.protSets := (rfl)
@[simp] theorem State.waitFor_protSets (s : State) (d r) : (s.waitFor d r).protSets = s.protSets := by simp [State.waitFor]
@[simp] theorem State.waitBuf_protSets (s : State) (d c k ref) : (s.waitBuf d c k ref).protSets = s.protSets := by simp [State.waitBuf]
@[simp] theorem State.pointerFault_protSets (s : State) (d ptr cause user) : (s.pointerFault d ptr cause user).protSets = s.protSets := by
  simp [State.pointerFault]
@[simp] theorem State.refFault_protSets (s : State) (d) : (s.refFault d).protSets = s.protSets := by simp [State.refFault]
@[simp] theorem State.updTable_protSets (s : State) (d k f) : (s.updTable d k f).protSets = s.protSets := (rfl)
@[simp] theorem State.retireLine_protSets (s : State) (d addr) : (s.retireLine d addr).protSets = s.protSets := by simp [State.retireLine]

@[simp] theorem State.dropBuf_protSets (s : State) (d c i) : (s.dropBuf d c i).protSets = s.protSets := by
  unfold State.dropBuf
  repeat' split
  all_goals simp

@[simp] theorem State.enterWindow_protSets (s : State) (d c i) : (s.enterWindow d c i).1.protSets = s.protSets := (rfl)

@[simp] theorem State.releaseWindow_protSets (s : State) (d id) : (s.releaseWindow d id).protSets = s.protSets := by
  unfold State.releaseWindow
  split <;> simp

end Sys2Proof.Machine
end

