-- ==== Sys2Proof/Proofs/ProtectionRegion.lean ====
section
/-! Regions, clocks, swarm tables and clusters leave the protection set and its mirror alone. -/

namespace Sys2Proof.Machine

/-! A region: map, bands, journal. -/

@[simp] theorem State.updTab_protSets (s : State) (g f) : (s.updTab g f).protSets = s.protSets := (rfl)
@[simp] theorem State.updJrn_protSets (s : State) (g f) : (s.updJrn g f).protSets = s.protSets := (rfl)
@[simp] theorem State.setEntry_protSets (s : State) (gran e) : (s.setEntry gran e).protSets = s.protSets := (rfl)
@[simp] theorem State.updBand_protSets (s : State) (g b f) : (s.updBand g b f).protSets = s.protSets := (rfl)
@[simp] theorem State.jot_protSets (s : State) (g x) : (s.jot g x).protSets = s.protSets := (rfl)
@[simp] theorem State.jotNow_protSets (s : State) (g x) : (s.jotNow g x).protSets = s.protSets := (rfl)
@[simp] theorem State.enterReadOnly_protSets (s : State) (g c) : (s.enterReadOnly g c).protSets = s.protSets := by simp [State.enterReadOnly]

@[simp] theorem State.takeSeqs_protSets (s : State) (g n) : (s.takeSeqs g n).1.protSets = s.protSets := by
  simp only [State.takeSeqs]
  repeat' split
  all_goals simp

@[simp] theorem State.takeSeq_protSets (s : State) (g) : (s.takeSeq g).1.protSets = s.protSets := by simp [State.takeSeq]

@[simp] theorem State.replaceAt_protSets (s : State) (g geo p b u) : (s.replaceAt g geo p b u).protSets = s.protSets := by
  simp only [State.replaceAt]
  repeat' split
  all_goals simp

@[simp] theorem State.replaceBad_protSets (s : State) (g geo p b) : (s.replaceBad g geo p b).protSets = s.protSets := by simp [State.replaceBad]
@[simp] theorem State.checkFree_protSets (s : State) (g) : (s.checkFree g).protSets = s.protSets := by simp [State.checkFree]

@[simp] theorem State.openBand_protSets (s : State) (g kind use d stream) : (s.openBand g kind use d stream).1.protSets = s.protSets := by
  simp only [State.openBand]
  repeat' split
  all_goals simp

@[simp] theorem State.jotFlags_protSets (s : State) (g b) : (s.jotFlags g b).protSets = s.protSets := (rfl)

@[simp] theorem State.dropCopies_protSets (s : State) (g : RegionIx) (b : Nat) (which : Placed → Bool) :
    (s.dropCopies g b which).protSets = s.protSets := by
  unfold State.dropCopies
  refine (protSets_foldl (fun s pl => ?_) _ _).trans (State.updBand_protSets ..)
  split <;> simp

@[simp] theorem State.dropUnmappable_protSets (s : State) (g b) : (s.dropUnmappable g b).protSets = s.protSets := by
  unfold State.dropUnmappable
  split <;> simp

@[simp] theorem State.sealBand_protSets (s : State) (g b short) : (s.sealBand g b short).protSets = s.protSets := by simp [State.sealBand]
@[simp] theorem State.sealIfFull_protSets (s : State) (g b) : (s.sealIfFull g b).protSets = s.protSets := by simp [State.sealIfFull]
@[simp] theorem State.bandFor_protSets (s : State) (g use d stream) : (s.bandFor g use d stream).1.protSets = s.protSets := by simp [State.bandFor]

@[simp] theorem State.placeIn_protSets (s : State) (g b mk) : (s.placeIn g b mk).1.protSets = s.protSets := by
  unfold State.placeIn
  split <;> simp

@[simp] theorem State.padOut_protSets (s : State) (g b) : (s.padOut g b).protSets = s.protSets := by
  unfold State.padOut
  split <;> simp

@[simp] theorem State.throughRow_protSets (s : State) (g b stream) : (s.throughRow g b stream).protSets = s.protSets := by simp [State.throughRow]
@[simp] theorem State.checkSpare_protSets (s : State) (g) : (s.checkSpare g).protSets = s.protSets := by simp [State.checkSpare]
@[simp] theorem State.checkSpares_protSets (s : State) : s.checkSpares.protSets = s.protSets := by simp [State.checkSpares]
@[simp] theorem State.checkWear_protSets (s : State) (g) : (s.checkWear g).protSets = s.protSets := by simp [State.checkWear]

/-! Frames that are read. -/

@[simp] theorem State.placeRun_protSets (s : State) (run) : (s.placeRun run).protSets = s.protSets := by
  unfold State.placeRun
  split <;> simp

@[simp] theorem State.admitRuns_protSets (s : State) (g : RegionIx) (n : Nat) : (s.admitRuns g n).protSets = s.protSets := by
  induction n generalizing s with
  | zero => rfl
  | succ n ih =>
    simp only [State.admitRuns]
    split <;> simp [ih]

@[simp] theorem State.raiseRun_protSets (s : State) (g b rank) : (s.raiseRun g b rank).protSets = s.protSets := (rfl)
@[simp] theorem State.freshId_protSets (s : State) : s.freshId.protSets = s.protSets := (rfl)
@[simp] theorem State.requestRun_protSets (s : State) (g b rank failedRow) : (s.requestRun g b rank failedRow).protSets = s.protSets := by
  simp [State.requestRun]

@[simp] theorem State.backgroundRun_protSets (s : State) (g) : (s.backgroundRun g).protSets = s.protSets := by
  simp only [State.backgroundRun]
  split <;> simp

@[simp] theorem State.updClimb_protSets (s : State) (c id f) : (s.updClimb c id f).protSets = s.protSets := (rfl)
@[simp] theorem State.addClimb_protSets (s : State) (c k) : (s.addClimb c k).protSets = s.protSets := (rfl)
@[simp] theorem State.wantFrame_protSets (s : State) (r) : (s.wantFrame r).protSets = s.protSets := by simp [State.wantFrame]
@[simp] theorem State.failStep_protSets (s : State) (c k) : (s.failStep c k).protSets = s.protSets := by simp [State.failStep]
@[simp] theorem State.readsFailed_protSets (s : State) (c : ClusterIx) (ids : List Nat) : (s.readsFailed c ids).protSets = s.protSets :=
  protSets_foldl (fun s id => by split <;> simp) ids s
@[simp] theorem State.updSweep_protSets (s : State) (c run f) : (s.updSweep c run f).protSets = s.protSets := (rfl)

@[simp] theorem State.climbsFail_protSets (s : State) (lun) : (s.climbsFail lun).protSets = s.protSets := by
  unfold State.climbsFail
  split <;> simp

@[simp] theorem State.endAsks_protSets (s : State) (out) : (s.endAsks out).protSets = s.protSets := by simp [State.endAsks]
@[simp] theorem State.stopClimbs_protSets (s : State) (which) : (s.stopClimbs which).protSets = s.protSets := by simp [State.stopClimbs]

@[simp] theorem State.wantFigs_protSets (s : State) (gran figs who ref) : (s.wantFigs gran figs who ref).protSets = s.protSets := by
  unfold State.wantFigs
  split <;> simp

@[simp] theorem State.wantCopy_protSets (s : State) (gran who) : (s.wantCopy gran who).protSets = s.protSets := by simp [State.wantCopy]

/-! The results of a region's lanes. -/

@[simp] theorem State.remap_protSets (s : State) (g gran new cas) : (s.remap g gran new cas).protSets = s.protSets := (rfl)
@[simp] theorem State.compareAndSet_protSets (s : State) (g pl b src) : (s.compareAndSet g pl b src).protSets = s.protSets := by
  simp [State.compareAndSet]

@[simp] theorem State.checkReclaimed_protSets (s : State) (g b) : (s.checkReclaimed g b).protSets = s.protSets := by
  simp only [State.checkReclaimed]
  split <;> simp

@[simp] theorem State.stampEighth_protSets (s : State) (g b row) : (s.stampEighth g b row).protSets = s.protSets := by
  unfold State.stampEighth
  split <;> simp

@[simp] theorem State.mapUpdate_protSets (s : State) (g pl b) : (s.mapUpdate g pl b).protSets = s.protSets := by
  unfold State.mapUpdate
  repeat' split
  all_goals simp

@[simp] theorem State.rowDone_protSets (s : State) (g : RegionIx) (b w u : Nat) : (s.rowDone g b w u).protSets = s.protSets := by
  unfold State.rowDone
  split
  · refine (protSets_foldl (fun s pl => ?_) _ _).trans (by simp)
    split <;> simp
  · rfl

@[simp] theorem State.accFree_protSets (s : State) (g p) : (s.accFree g p).protSets = s.protSets := (rfl)

@[simp] theorem State.parityDone_protSets (s : State) (g b w k) : (s.parityDone g b w k).protSets = s.protSets := by
  unfold State.parityDone
  split <;> simp

@[simp] theorem State.releaseFold_protSets (s : State) (g b which) : (s.releaseFold g b which).protSets = s.protSets := by simp [State.releaseFold]

@[simp] theorem State.foldNext_protSets (s : State) (g) : (s.foldNext g).protSets = s.protSets := by
  unfold State.foldNext
  repeat' split
  all_goals simp

@[simp] theorem State.foldGo_protSets (s : State) (g) : (s.foldGo g).protSets = s.protSets := by
  unfold State.foldGo
  split <;> simp

@[simp] theorem State.foldStart_protSets (s : State) (g) : (s.foldStart g).protSets = s.protSets := by simp [State.foldStart]

@[simp] theorem State.reclaimNext_protSets (s : State) (g k) : (s.reclaimNext g k).protSets = s.protSets := by
  simp only [State.reclaimNext]
  repeat' split
  all_goals simp

@[simp] theorem State.checkStaging_protSets (s : State) (g) : (s.checkStaging g).protSets = s.protSets := by
  unfold State.checkStaging
  split <;> simp

@[simp] theorem State.bandForCopy_protSets (s : State) (g : RegionIx) (c : Copy) (stream : Byte) :
    (s.bandForCopy g c stream).1.protSets = s.protSets := by
  unfold State.bandForCopy
  cases c.kind
  case fold => simp
  all_goals
    dsimp only
    split
    · simp
    · split
      · next h => simp [protSets_of_fst h]
      · next h => simp [protSets_of_fst h]

@[simp] theorem State.finishCopy_protSets (s : State) (g : RegionIx) (c : Copy) : (s.finishCopy g c).protSets = s.protSets := by
  simp only [State.finishCopy]
  split
  · simp
  split
  · rfl
  split
  · next h => simp only [protSets_of_fst h, State.bandForCopy_protSets]
  · next h =>
    split
    · next h' => simp only [protSets_of_fst h', State.takeSeq_protSets, protSets_of_fst h, State.bandForCopy_protSets]
    · next h' =>
      split <;> simp [protSets_of_fst h', protSets_of_fst h]

@[simp] theorem State.copyFrame_protSets (s : State) (q u) : (s.copyFrame q u).protSets = s.protSets := by
  simp only [State.copyFrame]
  split <;> simp

@[simp] theorem State.endCopy_protSets (s : State) (g gran) : (s.endCopy g gran).protSets = s.protSets := by simp [State.endCopy]
@[simp] theorem State.copyTurns_protSets (s : State) (g) : (s.copyTurns g).protSets = s.protSets := by simp [State.copyTurns]
@[simp] theorem State.settleCopies_protSets (s : State) (g) : (s.settleCopies g).protSets = s.protSets := (rfl)

@[simp] theorem State.addJournalBand_protSets (s : State) (g : RegionIx) (c : Fin 2) : (s.addJournalBand g c).protSets = s.protSets := by
  simp only [State.addJournalBand, State.settleCopies_protSets]
  split
  · next h => simp [protSets_of_fst h]
  · next h => simp [protSets_of_fst h]

@[simp] theorem State.refillJournal_protSets (s : State) (side) : (s.refillJournal side).protSets = s.protSets := by simp [State.refillJournal]

@[simp] theorem State.nextJournalBand_protSets (s : State) (g c) : (s.nextJournalBand g c).protSets = s.protSets := by
  unfold State.nextJournalBand
  split <;> simp

@[simp] theorem State.journalLost_protSets (s : State) (g n c) : (s.journalLost g n c).protSets = s.protSets := by simp [State.journalLost]

@[simp] theorem State.losePosition_protSets (s : State) (g lun) : (s.losePosition g lun).protSets = s.protSets := by
  simp only [State.losePosition]
  repeat' split
  all_goals simp

@[simp] theorem State.closeRebuild_protSets (s : State) (g spare) : (s.closeRebuild g spare).protSets = s.protSets := by
  simp only [State.closeRebuild]
  repeat' split
  all_goals simp

@[simp] theorem State.dropRebuild_protSets (s : State) (g b) : (s.dropRebuild g b).protSets = s.protSets := by simp [State.dropRebuild]
@[simp] theorem State.runsReleased_protSets (s : State) (g b) : (s.runsReleased g b).protSets = s.protSets := (rfl)

@[simp] theorem State.bandErased_protSets (s : State) (g b) : (s.bandErased g b).protSets = s.protSets := by
  unfold State.bandErased
  split <;> simp

@[simp] theorem State.eraseTurn_protSets (s : State) (g b) : (s.eraseTurn g b).protSets = s.protSets := by simp [State.eraseTurn]
@[simp] theorem State.intend_protSets (s : State) (g b) : (s.intend g b).protSets = s.protSets := (rfl)
@[simp] theorem State.eraseIntent_protSets (s : State) (g b) : (s.eraseIntent g b).protSets = s.protSets := by simp [State.eraseIntent]

@[simp] theorem State.eraseBand_protSets (s : State) (g b) : (s.eraseBand g b).protSets = s.protSets := by
  unfold State.eraseBand
  split <;> simp

@[simp] theorem State.placeAgain_protSets (s : State) (g : RegionIx) (b : Nat) (pl : Placed) : (s.placeAgain g b pl).protSets = s.protSets := by
  simp only [State.placeAgain]
  split
  · next h => simp [protSets_of_fst h]
  · next h =>
    split
    · next h' => simp [protSets_of_fst h', protSets_of_fst h]
    · next h' => simp [protSets_of_fst h', protSets_of_fst h]

@[simp] theorem State.padRow_protSets (s : State) (g b u w) : (s.padRow g b u w).protSets = s.protSets := by
  unfold State.padRow
  split <;> simp

@[simp] theorem State.placeLost_protSets (s : State) (g b) : (s.placeLost g b).protSets = s.protSets := by
  unfold State.placeLost
  split <;> simp

@[simp] theorem State.completeRow_protSets (s : State) (g b w) : (s.completeRow g b w).protSets = s.protSets := by
  unfold State.completeRow
  split <;> simp

@[simp] theorem State.completeRows_protSets (s : State) (g b from_) : (s.completeRows g b from_).protSets = s.protSets := by simp [State.completeRows]

@[simp] theorem State.positionEnds_protSets (s : State) (g b w u) : (s.positionEnds g b w u).protSets = s.protSets := by
  unfold State.positionEnds
  split <;> simp

@[simp] theorem State.sealOnLun_protSets (s : State) (g : RegionIx) (lun : Nat) : (s.sealOnLun g lun).protSets = s.protSets := by
  simp only [State.sealOnLun]
  split
  · rfl
  · refine protSets_foldl (fun s x => ?_) _ _
    split
    · rfl
    · split <;> simp

@[simp] theorem State.erasesOff_protSets (s : State) (g lun) : (s.erasesOff g lun).protSets = s.protSets := by simp [State.erasesOff]

@[simp] theorem State.abandonedWork_protSets (s : State) (d) : (s.abandonedWork d).protSets = s.protSets := by
  unfold State.abandonedWork
  split <;> simp

@[simp] theorem State.quarantineLun_protSets (s : State) (lun cause) : (s.quarantineLun lun cause).protSets = s.protSets := by
  unfold State.quarantineLun
  split <;> simp

@[simp] theorem State.quarantineLane_protSets (s : State) (l) : (s.quarantineLane l).protSets = s.protSets := by simp [State.quarantineLane]
@[simp] theorem State.retireBlock_protSets (s : State) (g lun blk cause) : (s.retireBlock g lun blk cause).protSets = s.protSets := by
  simp [State.retireBlock]
@[simp] theorem State.programLost_protSets (s : State) (g b w u lun blk retire) : (s.programLost g b w u lun blk retire).protSets = s.protSets := by
  simp [State.programLost]

@[simp] theorem State.relocateRow_protSets (s : State) (g b w) : (s.relocateRow g b w).protSets = s.protSets := by
  unfold State.relocateRow
  split <;> simp

@[simp] theorem State.parityLost_protSets (s : State) (g b w lun blk retire) : (s.parityLost g b w lun blk retire).protSets = s.protSets := by
  simp [State.parityLost]
@[simp] theorem State.journalFail_protSets (s : State) (g n c lun blk retire) : (s.journalFail g n c lun blk retire).protSets = s.protSets := by
  simp [State.journalFail]

@[simp] theorem State.rebuildRowDone_protSets (s : State) (g b spare rows) : (s.rebuildRowDone g b spare rows).protSets = s.protSets := by
  unfold State.rebuildRowDone
  split <;> simp

@[simp] theorem State.rebuildAgain_protSets (s : State) (g b spare cause) : (s.rebuildAgain g b spare cause).protSets = s.protSets := by
  unfold State.rebuildAgain
  split <;> simp

/-! The areas of the store die. -/

@[simp] theorem State.countErase_protSets (s : State) (n) : (s.countErase n).protSets = s.protSets := by simp [State.countErase]
@[simp] theorem State.countErases_protSets (s : State) (first n) : (s.countErases first n).protSets = s.protSets := by simp [State.countErases]
@[simp] theorem State.keeperLine_protSets (s : State) (k) : (s.keeperLine k).protSets = s.protSets := by simp [State.keeperLine]

/-! Timekeeping. -/

@[simp] theorem State.refreshMedia_protSets (s : State) : s.refreshMedia.protSets = s.protSets := (rfl)
@[simp] theorem State.addAge_protSets (s : State) (temp secs) : (s.addAge temp secs).protSets = s.protSets := (rfl)
@[simp] theorem State.writeTkRecord_protSets (s : State) : s.writeTkRecord.protSets = s.protSets := by simp [State.writeTkRecord]
@[simp] theorem State.startClocks_protSets (s : State) (kept darkMs) : (s.startClocks kept darkMs).protSets = s.protSets := by
  simp [State.startClocks]
@[simp] theorem State.setTimestamp_protSets (s : State) (ms) : (s.setTimestamp ms).protSets = s.protSets := by simp [State.setTimestamp]
@[simp] theorem State.addMinutes_protSets (s : State) (n) : (s.addMinutes n).protSets = s.protSets := (rfl)
@[simp] theorem State.minutePassed_protSets (s : State) : s.minutePassed.protSets = s.protSets := (rfl)
@[simp] theorem State.ticks_protSets (s : State) (n usecs) : (s.ticks n usecs).protSets = s.protSets := (rfl)
@[simp] theorem execThermalAgeAccumulate_leavesProt (s : State) : LeavesProt s.protSets (execThermalAgeAccumulate s) := by
  simp [execThermalAgeAccumulate]
@[simp] theorem execCarapaceTemperatureSample_leavesProt (s : State) : LeavesProt s.protSets (execCarapaceTemperatureSample s) := by
  simp [execCarapaceTemperatureSample]
@[simp] theorem execTimekeepingRecordWrite_leavesProt (s : State) : LeavesProt s.protSets (execTimekeepingRecordWrite s) := by
  simp [execTimekeepingRecordWrite]
@[simp] theorem execGapTimeout_leavesProt (s : State) : LeavesProt s.protSets (execGapTimeout s) := by simp [execGapTimeout]

/-! Completions and asynchronous events. -/

@[simp] theorem State.postAsync_protSets (s : State) (e) : (s.postAsync e).protSets = s.protSets := (rfl)
@[simp] theorem State.setPower_protSets (s : State) (ps) : (s.setPower ps).protSets = s.protSets := by simp [State.setPower]
@[simp] theorem State.wake_protSets (s : State) : s.wake.protSets = s.protSets := by simp [State.wake]
@[simp] theorem State.updSlots_protSets (s : State) (f) : (s.updSlots f).protSets = s.protSets := (rfl)

@[simp] theorem State.grantLookup_protSets (s : State) (g) : (s.grantLookup g).protSets = s.protSets := by
  unfold State.grantLookup
  repeat' split
  all_goals simp

@[simp] theorem State.lookupDone_protSets (s : State) (g) : (s.lookupDone g).protSets = s.protSets := by
  unfold State.lookupDone
  split <;> simp

@[simp] theorem State.endLooks_protSets (s : State) (x) : (s.endLooks x).protSets = s.protSets := by simp [State.endLooks]

@[simp] theorem State.completeWith_protSets (s : State) (ref st dw0 data) : (s.completeWith ref st dw0 data).protSets = s.protSets := by
  unfold State.completeWith
  split <;> simp

@[simp] theorem State.complete_protSets (s : State) (ref st dw0) : (s.complete ref st dw0).protSets = s.protSets := by simp [State.complete]
@[simp] theorem State.cancelReady_protSets (s : State) : s.cancelReady.protSets = s.protSets := by simp [State.cancelReady]

@[simp] theorem State.adminThen_leavesProt {s : State} {k : AdminKind} {ref : CmdRef} {f : State → Out} (h : LeavesProt s.protSets (f s)) :
    LeavesProt s.protSets (s.adminThen k ref f) := by
  unfold State.adminThen
  split
  · simp
  · split
    · simp
    · exact h

/-! The swarm's tables and messages. -/

@[simp] theorem State.updSwarm_protSets (s : State) (f) : (s.updSwarm f).protSets = s.protSets := (rfl)
@[simp] theorem State.updSession_protSets (s : State) (c f) : (s.updSession c f).protSets = s.protSets := (rfl)
@[simp] theorem State.updPeer_protSets (s : State) (c f) : (s.updPeer c f).protSets = s.protSets := (rfl)
@[simp] theorem State.sealWith_protSets (s : State) (c k f) : (s.sealWith c k f).protSets = s.protSets := by simp [State.sealWith]
@[simp] theorem State.sendFrom_protSets (s : State) (d hdr m) : (s.sendFrom d hdr m).protSets = s.protSets := by simp [State.sendFrom]
@[simp] theorem State.send_protSets (s : State) (hdr m) : (s.send hdr m).protSets = s.protSets := by simp [State.send]
@[simp] theorem State.newHdr_protSets (s : State) (peer) : (s.newHdr peer).1.protSets = s.protSets := (rfl)
@[simp] theorem State.request_protSets (s : State) (d hdr m) : (s.request d hdr m).protSets = s.protSets := by simp [State.request]
@[simp] theorem State.answer_protSets (s : State) (hdr m) : (s.answer hdr m).protSets = s.protSets := by simp [State.answer]
@[simp] theorem State.nak_protSets (s : State) (hdr reason refused) : (s.nak hdr reason refused).protSets = s.protSets := by simp [State.nak]
@[simp] theorem State.answeredBy_protSets (s : State) (hdr) : (s.answeredBy hdr).protSets = s.protSets := (rfl)

@[simp] theorem State.sendDurable_protSets (s : State) (g hdr m isAnswer) : (s.sendDurable g hdr m isAnswer).protSets = s.protSets := by
  unfold State.sendDurable
  split <;> simp

@[simp] theorem State.updSeg_protSets (s : State) (g band seg f) : (s.updSeg g band seg f).protSets = s.protSets := (rfl)
@[simp] theorem State.putStripe_protSets (s : State) (r) : (s.putStripe r).protSets = s.protSets := (rfl)
@[simp] theorem State.freeStripe_protSets (s : State) (stripe) : (s.freeStripe stripe).protSets = s.protSets := (rfl)
@[simp] theorem State.checkParity_protSets (s : State) : s.checkParity.protSets = s.protSets := by simp [State.checkParity]

@[simp] theorem State.postLight_protSets (s : State) (member reason) : (s.postLight member reason).protSets = s.protSets := by
  unfold State.postLight
  split <;> simp

@[simp] theorem State.deferred_protSets (s : State) (holder) : (s.deferred holder).protSets = s.protSets := by
  unfold State.deferred
  split <;> simp

@[simp] theorem State.backlogFell_protSets (s : State) : s.backlogFell.protSets = s.protSets := by simp [State.backlogFell]
@[simp] theorem State.startWork_protSets (s : State) (w) : (s.startWork w).protSets = s.protSets := by simp [State.startWork]
@[simp] theorem State.endWork_protSets (s : State) (w) : (s.endWork w).protSets = s.protSets := (rfl)
@[simp] theorem State.checkRetracted_protSets (s : State) (g b) : (s.checkRetracted g b).protSets = s.protSets := by simp [State.checkRetracted]

/-! The retry ladder. -/

@[simp] theorem State.countErrors_protSets (s : State) (l mismatch step1) : (s.countErrors l mismatch step1).protSets = s.protSets := (rfl)

@[simp] theorem State.queueJob_protSets (s : State) (home j) : (s.queueJob home j).protSets = s.protSets := by
  unfold State.queueJob
  repeat' split
  all_goals simp

@[simp] theorem State.reroute_protSets (s : State) (c soft) : (s.reroute c soft).protSets = s.protSets := by simp [State.reroute]

@[simp] theorem State.ageCorrection_protSets (s : State) (r) : (s.ageCorrection r).protSets = s.protSets := by
  unfold State.ageCorrection
  split <;> simp

@[simp] theorem State.markRefresh_protSets (s : State) (g b) : (s.markRefresh g b).protSets = s.protSets := by simp [State.markRefresh]
@[simp] theorem State.relocateSoon_protSets (s : State) (g gran) : (s.relocateSoon g gran).protSets = s.protSets := (rfl)
@[simp] theorem State.contribBlocked_protSets (s : State) (g b seg) : (s.contribBlocked g b seg).protSets = s.protSets := by
  simp [State.contribBlocked]
@[simp] theorem State.holdBand_protSets (s : State) (g b cause) : (s.holdBand g b cause).protSets = s.protSets := by simp [State.holdBand]
@[simp] theorem State.sendBlocked_protSets (s : State) (g b frame) : (s.sendBlocked g b frame).protSets = s.protSets := by simp [State.sendBlocked]
@[simp] theorem State.patrolFrame_protSets (s : State) (q step corrected ok) : (s.patrolFrame q step corrected ok).protSets = s.protSets := by
  simp [State.patrolFrame]

@[simp] theorem State.accRead_protSets (s : State) (q) : (s.accRead q).protSets = s.protSets := by
  simp only [State.accRead]
  repeat' split
  all_goals simp

@[simp] theorem State.deliverTo_protSets (s : State) (k q step corrected byOther ok u) :
    (s.deliverTo k q step corrected byOther ok u).protSets = s.protSets := by
  simp only [State.deliverTo]
  split <;> simp

@[simp] theorem State.endClimb_protSets (s : State) (c k step corrected byOther ok u) :
    (s.endClimb c k step corrected byOther ok u).protSets = s.protSets := by
  simp only [State.endClimb]
  repeat' split
  all_goals simp

@[simp] theorem State.countLun_protSets (s : State) (lun step4Failed) : (s.countLun lun step4Failed).protSets = s.protSets := by simp [State.countLun]
@[simp] theorem State.integrityMet_protSets (s : State) (g) : (s.integrityMet g).protSets = s.protSets := (rfl)
@[simp] theorem State.integrityRepaired_protSets (s : State) (g gran e) : (s.integrityRepaired g gran e).protSets = s.protSets := (rfl)
@[simp] theorem State.integrityLost_protSets (s : State) (g gran) : (s.integrityLost g gran).protSets = s.protSets := (rfl)
@[simp] theorem State.meetIntegrity_protSets (s : State) (gran) : (s.meetIntegrity gran).protSets = s.protSets := by simp [State.meetIntegrity]
@[simp] theorem State.failIntegrity_protSets (s : State) (c k) : (s.failIntegrity c k).protSets = s.protSets := by simp [State.failIntegrity]

@[simp] theorem State.frameReadDone_protSets (s : State) (c : ClusterIx) (ids : List Nat) (st : LaneStatus) :
    (s.frameReadDone c ids st).protSets = s.protSets := by
  refine protSets_foldl (fun s id => ?_) ids s
  split <;> simp

/-! Key slots. -/

@[simp] theorem State.loadSlots_protSets (s : State) (d k) : (s.loadSlots d k).protSets = s.protSets := (rfl)
@[simp] theorem State.loadBoth_protSets (s : State) (k) : (s.loadBoth k).protSets = s.protSets := by simp [State.loadBoth]

@[simp] theorem State.settleSanitize_protSets (s : State) : s.settleSanitize.protSets = s.protSets := by
  unfold State.settleSanitize
  split <;> simp

@[simp] theorem State.settleErase_protSets (s : State) : s.settleErase.protSets = s.protSets := by
  simp only [State.settleErase]
  repeat' split
  all_goals simp

/-! Completions above the lane. -/

@[simp] theorem State.countTimeout_protSets (s : State) (lun) : (s.countTimeout lun).protSets = s.protSets := by simp [State.countTimeout]
@[simp] theorem State.countProgram_protSets (s : State) (d) : (s.countProgram d).protSets = s.protSets := by simp [State.countProgram]
@[simp] theorem State.passDone_protSets (s : State) (g b w u d) : (s.passDone g b w u d).protSets = s.protSets := by simp [State.passDone]

@[simp] theorem State.onDone_protSets (s : State) (d) : (s.onDone d).protSets = s.protSets := by
  unfold State.onDone
  split <;> simp

@[simp] theorem State.onDoneAll_protSets (s : State) (ds) : (s.onDoneAll ds).protSets = s.protSets := by simp [State.onDoneAll]

end Sys2Proof.Machine
end

