-- ==== Sys2Proof/Proofs/ProtectionLane.lean ====
section
/-! Lanes, the map, the journal and keys leave the protection set and its mirror alone. -/

namespace Sys2Proof.Machine

/-! Descriptors and their submission. -/

@[simp] theorem State.deposit_protSets (s : State) (d ptr v) : (s.deposit d ptr v).protSets = s.protSets := by
  unfold State.deposit
  split <;> simp

@[simp] theorem State.sendReads_protSets (s : State) (l d ids) : (s.sendReads l d ids).protSets = s.protSets := by simp [State.sendReads]

theorem State.accTake_protSets {s t : State} {l : LaneIx} {g : RegionIx} {b u : Nat} {d : Descriptor} (h : s.accTake l g b u d = some t) :
    t.protSets = s.protSets := by
  simp only [State.accTake] at h
  split at h
  · cases h; rfl
  split at h
  · cases h; rfl
  split at h
  · cases h
  · cases h; rfl

@[simp] theorem State.holdFold_protSets (s : State) (l g b w u d) : (s.holdFold l g b w u d).protSets = s.protSets := by
  unfold State.holdFold
  split <;> simp

@[simp] theorem State.placeOwn_protSets (s : State) (reqs) : (s.placeOwn reqs).protSets = s.protSets := by simp [State.placeOwn]

/-- A submission that goes ahead leaves the protection set as `p`. -/
def Submission.LeavesProt (p : ProtSet × Vector ProtSet 2) : Submission → Prop
  | .go t _ => t.protSets = p
  | .notIt | .held => True

@[simp] theorem Submission.leavesProt_go {p} {t : State} {q : Purpose} : (Submission.go t q).LeavesProt p ↔ t.protSets = p := .rfl
@[simp] theorem Submission.leavesProt_notIt {p} : Submission.notIt.LeavesProt p := trivial
@[simp] theorem Submission.leavesProt_ite {p} {c : Prop} {_ : Decidable c} (x y : Submission) :
    Submission.LeavesProt p (if c then x else y) ↔ if c then x.LeavesProt p else y.LeavesProt p := by split <;> rfl

theorem State.submitData_leavesProt (s : State) (l : LaneIx) (d : Descriptor) (g : RegionIx) (b : Nat) :
    (s.submitData l d g b).LeavesProt s.protSets := by
  unfold State.submitData
  split
  · simp only [Submission.leavesProt_ite]
    split
    · trivial
    · split
      · next h => simp [Submission.LeavesProt, State.accTake_protSets h]
      · trivial
  · trivial

theorem State.submitParity_leavesProt (s : State) (l : LaneIx) (d : Descriptor) (g : RegionIx) (b : Nat) :
    (s.submitParity l d g b).LeavesProt s.protSets := by
  unfold State.submitParity
  split
  · dsimp only
    split
    · trivial
    split
    · trivial
    split
    · simp [Submission.LeavesProt]
    · split
      · next h => simp [Submission.LeavesProt, protSets_of_fst h]
      · trivial
  · trivial

theorem State.submission_leavesProt (s : State) (l : LaneIx) (d : Descriptor) (p : Purpose) :
    (s.submission l d p).LeavesProt s.protSets := by
  cases p
  case dataRow g b => exact s.submitData_leavesProt l d g b
  case parityRow g b => exact s.submitParity_leavesProt l d g b
  case plain =>
    simp only [State.submission]
    split <;> simp
  case rescue =>
    simp only [State.submission]
    split <;> simp
  all_goals simp [State.submission]

/-! Lane commands. -/

@[simp] theorem State.grantSlot_protSets (s : State) (l) : (s.grantSlot l).protSets = s.protSets := by
  simp only [State.grantSlot]
  repeat' split
  all_goals simp

@[simp] theorem execResourceSlotFree_leavesProt (r) (s : State) : LeavesProt s.protSets (execResourceSlotFree r s) := by
  simp only [execResourceSlotFree]
  repeat' split
  all_goals simp

@[simp] theorem execDescriptorSubmit_leavesProt (l : LaneIx) (d : Descriptor) (p : Purpose) (s : State) :
    LeavesProt s.protSets (execDescriptorSubmit l d p s) := by
  have hsub := s.submission_leavesProt l d p
  simp only [execDescriptorSubmit, leavesProt_ite]
  split
  · simp
  split
  · simp
  · simp
  · next t q h =>
    have ht : t.protSets = s.protSets := by simpa [h, Submission.LeavesProt] using hsub
    split
    · split <;> simp [ht]
    · simp [ht]

@[simp] theorem State.markDirty_protSets (s : State) (xs) : (s.markDirty xs).protSets = s.protSets := by simp [State.markDirty]
@[simp] theorem State.settle_protSets (s : State) (l e st nand addr value) : (s.settle l e st nand addr value).protSets = s.protSets := by
  simp [State.settle]

@[simp] theorem State.startOp_leavesProt {s : State} {l : LaneIx} {op : LaneOp} {go : State → CtxIx → QEntry → State}
    (h : ∀ t c e, (go t c e).protSets = t.protSets) : LeavesProt s.protSets (s.startOp l op go) := by
  simp only [State.startOp]
  split
  · simp
  · simp only [leavesProt_ite]
    split
    · simp
    split
    · simp
    split
    · simp
    · split <;> simp [h]

@[simp] theorem execReadPage_leavesProt (l) (s : State) : LeavesProt s.protSets (execReadPage l s) := by simp [execReadPage]
@[simp] theorem execReadSoft_leavesProt (l) (s : State) : LeavesProt s.protSets (execReadSoft l s) := by simp [execReadSoft]
@[simp] theorem execMarginRead_leavesProt (l) (s : State) : LeavesProt s.protSets (execMarginRead l s) := by simp [execMarginRead]
@[simp] theorem execOffsetSweep_leavesProt (l) (s : State) : LeavesProt s.protSets (execOffsetSweep l s) := by simp [execOffsetSweep]
@[simp] theorem execProgramPage_leavesProt (l) (s : State) : LeavesProt s.protSets (execProgramPage l s) := by simp [execProgramPage]
@[simp] theorem execProgramPass_leavesProt (l) (s : State) : LeavesProt s.protSets (execProgramPass l s) := by simp [execProgramPass]
@[simp] theorem execSetFeature_leavesProt (l) (s : State) : LeavesProt s.protSets (execSetFeature l s) := by simp [execSetFeature]
@[simp] theorem execGetFeature_leavesProt (l) (s : State) : LeavesProt s.protSets (execGetFeature l s) := by simp [execGetFeature]
@[simp] theorem execReadStatus_leavesProt (l) (s : State) : LeavesProt s.protSets (execReadStatus l s) := by simp [execReadStatus]
@[simp] theorem execEraseBlock_leavesProt (l) (s : State) : LeavesProt s.protSets (execEraseBlock l s) := by simp [execEraseBlock]

@[simp] theorem execSuspend_leavesProt (l : LaneIx) (s : State) : LeavesProt s.protSets (execSuspend l s) := by
  refine State.startOp_leavesProt fun s _ e => ?_
  dsimp only
  split
  · simp
  split
  · simp
  · split <;> simp

@[simp] theorem execResume_leavesProt (l) (s : State) : LeavesProt s.protSets (execResume l s) := by
  unfold execResume
  refine State.startOp_leavesProt fun t _ e => ?_
  split <;> simp

@[simp] theorem State.microFault_protSets (s : State) (l c e addr cause) : (s.microFault l c e addr cause).protSets = s.protSets := by
  simp [State.microFault]
@[simp] theorem State.trained_protSets (s : State) (l cause stepped) : (s.trained l cause stepped).protSets = s.protSets := (rfl)
@[simp] theorem State.laneUntrainable_protSets (s : State) (l) : (s.laneUntrainable l).protSets = s.protSets := by simp [State.laneUntrainable]
@[simp] theorem State.trainingLeft_protSets (s : State) (l) : (s.trainingLeft l).protSets = s.protSets := (rfl)
@[simp] theorem State.calibrate_protSets (s : State) (l ces put) : (s.calibrate l ces put).protSets = s.protSets := by simp [State.calibrate]

@[simp] theorem State.trainStep_protSets (s : State) (l : LaneIx) (ces : List (Fin 8)) (rate : Fin 3) (k : TrainStep) :
    (s.trainStep l ces rate k).protSets = s.protSets := by
  cases k <;> simp [State.trainStep]

@[simp] theorem State.runSteps_protSets (s : State) (l rate steps) : (s.runSteps l rate steps).protSets = s.protSets := by simp [State.runSteps]

@[simp] theorem State.fullTraining_protSets (s : State) (l : LaneIx) (cause : TrainCause) (stepped : Bool) (rate : Fin 3) (fuel : Nat)
    (tries : List Bool) : (s.fullTraining l cause stepped rate fuel tries).protSets = s.protSets := by
  induction fuel generalizing s stepped rate tries with
  | zero => simp [State.fullTraining]
  | succ fuel ih => simp [State.fullTraining, ih]

@[simp] theorem execTrain_leavesProt (l : LaneIx) (tries : List Bool) (s : State) : LeavesProt s.protSets (execTrain l tries s) := by
  unfold execTrain
  split
  · simp
  · refine State.startOp_leavesProt fun s _ e => ?_
    dsimp only
    split <;> simp

@[simp] theorem State.retrain_protSets (s : State) (l tries cause) : (s.retrain l tries cause).protSets = s.protSets := by simp [State.retrain]

@[simp] theorem execLaneRetrain_leavesProt (l tries) (s : State) : LeavesProt s.protSets (execLaneRetrain l tries s) := by
  unfold execLaneRetrain
  split <;> simp

@[simp] theorem execRetrainIdleTimeout_leavesProt (l tries) (s : State) : LeavesProt s.protSets (execRetrainIdleTimeout l tries s) := by
  unfold execRetrainIdleTimeout
  split <;> simp

@[simp] theorem execLneCtrlRetrain_leavesProt (l) (s : State) : LeavesProt s.protSets (execLneCtrlRetrain l s) := by simp [execLneCtrlRetrain]
@[simp] theorem execLneCtrlCntClr_leavesProt (l) (s : State) : LeavesProt s.protSets (execLneCtrlCntClr l s) := by simp [execLneCtrlCntClr]
@[simp] theorem execDqsDriftTrack_leavesProt (l drift) (s : State) : LeavesProt s.protSets (execDqsDriftTrack l drift s) := by
  simp [execDqsDriftTrack]
@[simp] theorem execZqShortCalibration_leavesProt (l) (s : State) : LeavesProt s.protSets (execZqShortCalibration l s) := by
  simp [execZqShortCalibration]
@[simp] theorem State.suspendConfirmed_protSets (s : State) (l r nand) : (s.suspendConfirmed l r nand).protSets = s.protSets := by
  simp [State.suspendConfirmed]
@[simp] theorem State.programFailed_protSets (s : State) (l d) : (s.programFailed l d).protSets = s.protSets := by simp [State.programFailed]
@[simp] theorem State.eraseFailed_protSets (s : State) (l d) : (s.eraseFailed l d).protSets = s.protSets := by simp [State.eraseFailed]
@[simp] theorem State.statusSeen_protSets (s : State) (l e st) : (s.statusSeen l e st).protSets = s.protSets := (rfl)

@[simp] theorem State.arrayDone_protSets (s : State) (l e op st r) : (s.arrayDone l e op st r).protSets = s.protSets := by
  simp only [State.arrayDone]
  repeat' split
  all_goals simp

@[simp] theorem execLunReady_leavesProt (l tag st r) (s : State) : LeavesProt s.protSets (execLunReady l tag st r s) := by
  unfold execLunReady
  repeat' split
  all_goals simp

@[simp] theorem execStatusTimeout_leavesProt (l tag) (s : State) : LeavesProt s.protSets (execStatusTimeout l tag s) := by
  unfold execStatusTimeout
  split <;> simp

@[simp] theorem execMinEraseRunTimeExpiry_leavesProt (l u) (s : State) : LeavesProt s.protSets (execMinEraseRunTimeExpiry l u s) := by
  unfold execMinEraseRunTimeExpiry
  split <;> simp

@[simp] theorem execMaxSuspendedTimeExpiry_leavesProt (l u) (s : State) : LeavesProt s.protSets (execMaxSuspendedTimeExpiry l u s) := by
  unfold execMaxSuspendedTimeExpiry
  split <;> simp

@[simp] theorem execLaneReset_leavesProt (l results) (s : State) : LeavesProt s.protSets (execLaneReset l results s) := by simp [execLaneReset]
@[simp] theorem State.rejectPatch_protSets (s : State) (l) : (s.rejectPatch l).protSets = s.protSets := by simp [State.rejectPatch]

@[simp] theorem State.loadPatch_protSets (s : State) (l words) : (s.loadPatch l words).protSets = s.protSets := by
  unfold State.loadPatch
  split <;> simp

@[simp] theorem execPatchLoad_leavesProt (l words) (s : State) : LeavesProt s.protSets (execPatchLoad l words s) := by simp [execPatchLoad]

/-! Writes that complete once durable. -/

@[simp] theorem State.dropPiece_protSets (s : State) (d p) : (s.dropPiece d p).protSets = s.protSets := by
  unfold State.dropPiece
  split <;> simp

@[simp] theorem State.countWrite_protSets (s : State) (w) : (s.countWrite w).protSets = s.protSets := (rfl)
@[simp] theorem State.settleWrites_protSets (s : State) : s.settleWrites.protSets = s.protSets := by simp [State.settleWrites]

@[simp] theorem State.placeJournal_protSets (s : State) (g n c) : (s.placeJournal g n c).protSets = s.protSets := by
  unfold State.placeJournal
  split <;> simp

@[simp] theorem State.releaseBand_protSets (s : State) (g b) : (s.releaseBand g b).protSets = s.protSets := by simp [State.releaseBand]
@[simp] theorem State.releaseJournalBands_protSets (s : State) (g) : (s.releaseJournalBands g).protSets = s.protSets := by
  simp [State.releaseJournalBands]
@[simp] theorem State.releaseImageBands_protSets (s : State) (g) : (s.releaseImageBands g).protSets = s.protSets := by simp [State.releaseImageBands]

@[simp] theorem State.takeImageSlot_protSets (s : State) (g c) : (s.takeImageSlot g c).1.protSets = s.protSets := by
  simp only [State.takeImageSlot]
  split <;> simp

/-! Segments and runs of swarm parity. -/

@[simp] theorem State.putNotice_protSets (s : State) (n) : (s.putNotice n).protSets = s.protSets := (rfl)
@[simp] theorem State.dropNotice_protSets (s : State) (g b u) : (s.dropNotice g b u).protSets = s.protSets := (rfl)

@[simp] theorem State.sendNotice_protSets (s : State) (g b u) : (s.sendNotice g b u).protSets = s.protSets := by
  simp only [State.sendNotice]
  split <;> simp

@[simp] theorem State.offerBand_protSets (s : State) (g b) : (s.offerBand g b).protSets = s.protSets := by simp [State.offerBand]

@[simp] theorem State.retractSegment_protSets (s : State) (g b u) : (s.retractSegment g b u).protSets = s.protSets := by
  simp only [State.retractSegment]
  split <;> simp

@[simp] theorem State.startRetracts_protSets (s : State) (g b) : (s.startRetracts g b).protSets = s.protSets := by simp [State.startRetracts]

@[simp] theorem State.takeRun_protSets (s : State) (g : RegionIx) (use : BandUse) (d : Density) : (s.takeRun g use d).1.protSets = s.protSets := by
  unfold State.takeRun
  split
  · rfl
  extract_lets filled opened
  have hopened : opened.protSets = s.protSets := by simp [opened, filled]
  clear_value opened
  split
  · exact hopened
  split
  · exact hopened
  split
  · next h => simp [protSets_of_fst h, hopened]
  · next h => simp [protSets_of_fst h, hopened]

@[simp] theorem State.moveRuns_protSets (s : State) (g : RegionIx) (b : Nat) : (s.moveRuns g b).protSets = s.protSets := by
  refine protSets_foldl (fun s r => ?_) _ _
  split
  · next h => simp [protSets_of_fst h]
  · next h => simp [protSets_of_fst h]

@[simp] theorem State.runsMoved_protSets (s : State) (g b) : (s.runsMoved g b).protSets = s.protSets := by
  unfold State.runsMoved
  split <;> simp

@[simp] theorem State.runTurns_protSets (s : State) (g : RegionIx) : (s.runTurns g).protSets = s.protSets := by
  unfold State.runTurns
  split
  · rfl
  · refine protSets_foldl (fun s q => ?_) _ _
    split <;> simp

@[simp] theorem State.retractAll_protSets (s : State) : s.retractAll.protSets = s.protSets := by simp [State.retractAll]

/-! The map, the journal and the checkpoints. -/

@[simp] theorem State.applyMerge_leavesProt (s : State) (g : RegionIx) (gran : Nat) (u : PendUpd) (ready : Bool)
    (covered : Fin 16 → Option Unit4K) : LeavesProt s.protSets (s.applyMerge g gran u ready covered) := by
  simp only [State.applyMerge]
  split
  · simp
  split
  · simp
  split
  · simp
  split
  · next h => simp [protSets_of_fst h]
  · next h =>
    split
    · next h' => simp [protSets_of_fst h', protSets_of_fst h]
    · next h' => simp [protSets_of_fst h', protSets_of_fst h]

@[simp] theorem execPendingUpdateApply_leavesProt (g gran) (s : State) : LeavesProt s.protSets (execPendingUpdateApply g gran s) := by
  simp only [execPendingUpdateApply]
  repeat' split
  all_goals simp

@[simp] theorem execJournalFrameTimer_leavesProt (g) (s : State) : LeavesProt s.protSets (execJournalFrameTimer g s) := by
  simp [execJournalFrameTimer]
@[simp] theorem State.rescueDrained_protSets (s : State) (g) : (s.rescueDrained g).protSets = s.protSets := by simp [State.rescueDrained]
@[simp] theorem State.recDurable_protSets (s : State) (g : RegionIx) (r : JRec) : (s.recDurable g r).protSets = s.protSets := by
  cases r <;> simp [State.recDurable]
@[simp] theorem State.openGate_protSets (s : State) (g n) : (s.openGate g n).protSets = s.protSets := by simp [State.openGate]

@[simp] theorem State.journalDurable_protSets (s : State) (g) : (s.journalDurable g).protSets = s.protSets := by
  unfold State.journalDurable
  split <;> simp

@[simp] theorem State.captureImage_protSets (s : State) (g image) : (s.captureImage g image).protSets = s.protSets := by
  simp only [State.captureImage]
  repeat' split
  all_goals simp

@[simp] theorem execCheckpointCapture_leavesProt (g) (s : State) : LeavesProt s.protSets (execCheckpointCapture g s) := by
  simp only [execCheckpointCapture]
  repeat' split
  all_goals simp

@[simp] theorem State.placeIndex_protSets (s : State) (x : IndexRec) : (s.placeIndex x).protSets = s.protSets := by
  have hhead (t : State) : (t.updStore Store.indexHeadOn).protSets = t.protSets := rfl
  simp [State.placeIndex, hhead]

@[simp] theorem State.appendIndex_protSets (s : State) (x) : (s.appendIndex x).protSets = s.protSets := by simp [State.appendIndex]

@[simp] theorem State.indexImage_protSets (s : State) (g ckptSeq) : (s.indexImage g ckptSeq).protSets = s.protSets := by
  simp only [State.indexImage]
  split <;> simp

@[simp] theorem execCheckpointIndexWrite_leavesProt (g ckptSeq) (s : State) : LeavesProt s.protSets (execCheckpointIndexWrite g ckptSeq s) := by
  simp [execCheckpointIndexWrite]

@[simp] theorem State.loadAdopted_protSets (s : State) (g seg) : (s.loadAdopted g seg).protSets = s.protSets := by
  simp only [State.loadAdopted]
  repeat' split
  all_goals simp

@[simp] theorem execRgnQuery_leavesProt (g hi) (s : State) : LeavesProt s.protSets (execRgnQuery g hi s) := by simp [execRgnQuery]
@[simp] theorem execRgnCtrlCntClr_leavesProt (g) (s : State) : LeavesProt s.protSets (execRgnCtrlCntClr g s) := by simp [execRgnCtrlCntClr]

/-! Cipher engines and keys. -/

@[simp] theorem State.commitSet_protSets (s : State) (f) : (s.commitSet f).protSets = s.protSets := by
  unfold State.commitSet
  split <;> simp

@[simp] theorem State.drawKey_protSets (s : State) : s.drawKey.1.protSets = s.protSets := (rfl)

@[simp] theorem State.drawKeys_protSets (s : State) (ids : List Nat) : (s.drawKeys ids).1.protSets = s.protSets := by
  induction ids generalizing s with
  | nil => rfl
  | cons n ids ih => exact (ih _).trans s.drawKey_protSets

@[simp] theorem State.fitKeys_protSets (s : State) (ids) : (s.fitKeys ids).protSets = s.protSets := by
  unfold State.fitKeys
  split <;> simp

@[simp] theorem State.freshenRegion_protSets (s : State) (g nsid rec_) : (s.freshenRegion g nsid rec_).protSets = s.protSets := by
  simp [State.freshenRegion]
@[simp] theorem State.formatExtent_protSets (s : State) (nsid) : (s.formatExtent nsid).protSets = s.protSets := by simp [State.formatExtent]

@[simp] theorem State.beginErase_protSets (s : State) (ids ref) : (s.beginErase ids ref).protSets = s.protSets := by
  unfold State.beginErase
  split <;> simp

@[simp] theorem State.createExtent_protSets (s : State) (n) : (s.createExtent n).protSets = s.protSets := by simp [State.createExtent]
@[simp] theorem State.deleteExtent_protSets (s : State) (nsid) : (s.deleteExtent nsid).protSets = s.protSets := by simp [State.deleteExtent]
@[simp] theorem State.applyNamespaces_protSets (s : State) (old new) : (s.applyNamespaces old new).protSets = s.protSets := by
  simp [State.applyNamespaces]
@[simp] theorem State.hostChangedNs_protSets (s : State) : s.hostChangedNs.protSets = s.protSets := by simp [State.hostChangedNs]
@[simp] theorem State.unwrapFail_protSets (s : State) (d wlenOk) : (s.unwrapFail d wlenOk).protSets = s.protSets := by simp [State.unwrapFail]

@[simp] theorem State.installKey_protSets (s : State) (ref refused kek idOk b f) : (s.installKey ref refused kek idOk b f).protSets = s.protSets := by
  simp only [State.installKey]
  repeat' split
  all_goals simp

@[simp] theorem execSecuritySendKek_leavesProt (ref b) (s : State) : LeavesProt s.protSets (execSecuritySendKek ref b s) := by
  simp [execSecuritySendKek]

@[simp] theorem execSecuritySendNamespaceKey_leavesProt (ref nsid b) (s : State) :
    LeavesProt s.protSets (execSecuritySendNamespaceKey ref nsid b s) := by
  simp [execSecuritySendNamespaceKey]

@[simp] theorem execSecuritySendLock_leavesProt (ref) (s : State) : LeavesProt s.protSets (execSecuritySendLock ref s) := by
  simp [execSecuritySendLock]
@[simp] theorem execSecurityReceiveKeyStatus_leavesProt (ref) (s : State) : LeavesProt s.protSets (execSecurityReceiveKeyStatus ref s) := by
  simp [execSecurityReceiveKeyStatus]
@[simp] theorem execSecurityReceiveProtocolList_leavesProt (ref) (s : State) : LeavesProt s.protSets (execSecurityReceiveProtocolList ref s) := by
  simp [execSecurityReceiveProtocolList]
@[simp] theorem execCphCtrlCntClr_leavesProt (d) (s : State) : LeavesProt s.protSets (execCphCtrlCntClr d s) := by simp [execCphCtrlCntClr]

/-! Critical Warning. -/

@[simp] theorem State.settleWarnings_protSets (s : State) : s.settleWarnings.protSets = s.protSets := by simp [State.settleWarnings]

/-! Host ports. -/

@[simp] theorem State.endHostWork_protSets (s : State) (d) : (s.endHostWork d).protSets = s.protSets := by simp [State.endHostWork]
@[simp] theorem State.clearSlots_protSets (s : State) (d) : (s.clearSlots d).protSets = s.protSets := by simp [State.clearSlots]
@[simp] theorem State.hostReset_protSets (s : State) (d) : (s.hostReset d).protSets = s.protSets := by simp [State.hostReset]
@[simp] theorem State.hostLinkLost_protSets (s : State) (d) : (s.hostLinkLost d).protSets = s.protSets := by simp [State.hostLinkLost]
@[simp] theorem State.hostStopForGood_protSets (s : State) (ds) : (s.hostStopForGood ds).protSets = s.protSets := by simp [State.hostStopForGood]
@[simp] theorem State.hostPauseFetch_protSets (s : State) : s.hostPauseFetch.protSets = s.protSets := (rfl)
@[simp] theorem State.hostResumeFetch_protSets (s : State) : s.hostResumeFetch.protSets = s.protSets := by simp [State.hostResumeFetch]
@[simp] theorem State.hostFatal_protSets (s : State) : s.hostFatal.protSets = s.protSets := (rfl)

/-! HELLO packets. -/

@[simp] theorem State.putHello_protSets (s : State) (m) : (s.putHello m).protSets = s.protSets := (rfl)

end Sys2Proof.Machine
end

