-- ==== Sys2Proof/Proofs/ProtectionSwarm.lean ====
section
/-! Clusters, the swarm and its link leave the protection set and its mirror alone. -/

namespace Sys2Proof.Machine

/-! Cluster commands. -/

@[simp] theorem execFoldIdleTimer_leavesProt (g) (s : State) : LeavesProt s.protSets (execFoldIdleTimer g s) := by simp [execFoldIdleTimer]
@[simp] theorem State.takeJob_protSets (s : State) (c e j) : (s.takeJob c e j).protSets = s.protSets := (rfl)

@[simp] theorem execFrameDecode_leavesProt (c e src) (s : State) : LeavesProt s.protSets (execFrameDecode c e src s) := by
  simp only [execFrameDecode]
  repeat' split
  all_goals simp

@[simp] theorem State.engineFault_protSets (s : State) (c e cause j) : (s.engineFault c e cause j).protSets = s.protSets := by
  simp [State.engineFault]

@[simp] theorem State.decoded_protSets (s : State) (c home k step corrected) : (s.decoded c home k step corrected).protSets = s.protSets := by
  simp only [State.decoded]
  split <;> simp

@[simp] theorem State.judge_protSets (s : State) (c home k step corrected converged crcOk) :
    (s.judge c home k step corrected converged crcOk).protSets = s.protSets := by
  simp only [State.judge]
  repeat' split
  all_goals simp

@[simp] theorem State.jobDone_protSets (s : State) (c j corrected converged crcOk) :
    (s.jobDone c j corrected converged crcOk).protSets = s.protSets := by
  simp only [State.jobDone]
  split <;> simp

@[simp] theorem execDecodeComplete_leavesProt (c e res) (s : State) : LeavesProt s.protSets (execDecodeComplete c e res s) := by
  unfold execDecodeComplete
  repeat' split
  all_goals simp

@[simp] theorem execDecoderCompletionTimeout_leavesProt (c e) (s : State) : LeavesProt s.protSets (execDecoderCompletionTimeout c e s) := by
  unfold execDecoderCompletionTimeout
  split <;> simp

@[simp] theorem State.entriesLost_protSets (s : State) (k) : (s.entriesLost k).protSets = s.protSets := by simp [State.entriesLost]
@[simp] theorem State.climbOver_protSets (s : State) (c k) : (s.climbOver c k).protSets = s.protSets := by simp [State.climbOver]
@[simp] theorem State.copyDark_protSets (s : State) (member r) : (s.copyDark member r).protSets = s.protSets := by simp [State.copyDark]

@[simp] theorem State.ladderDark_protSets (s : State) (c k member) : (s.ladderDark c k member).protSets = s.protSets := by
  simp only [State.ladderDark]
  split <;> simp

@[simp] theorem State.stepLost_protSets (s : State) (c k n) : (s.stepLost c k n).protSets = s.protSets := by simp [State.stepLost]
@[simp] theorem State.rebuilt_protSets (s : State) (c k n crcOk) : (s.rebuilt c k n crcOk).protSets = s.protSets := by simp [State.rebuilt]
@[simp] theorem State.askMember_protSets (s : State) (c k member m) : (s.askMember c k member m).protSets = s.protSets := by simp [State.askMember]

@[simp] theorem State.searchRecord_protSets (s : State) (c k past) : (s.searchRecord c k past).protSets = s.protSets := by
  simp only [State.searchRecord]
  repeat' split
  all_goals simp

@[simp] theorem State.stepSix_protSets (s : State) (c k) : (s.stepSix c k).protSets = s.protSets := by
  simp only [State.stepSix]
  repeat' split
  all_goals simp

@[simp] theorem State.sixAnswered_protSets (s : State) (stripe position slot rowOk) :
    (s.sixAnswered stripe position slot rowOk).protSets = s.protSets := by
  simp [State.sixAnswered]

@[simp] theorem State.recordSeen_protSets (s : State) (r) : (s.recordSeen r).protSets = s.protSets := by simp [State.recordSeen]
@[simp] theorem State.sixRefused_protSets (s : State) (stripe past) : (s.sixRefused stripe past).protSets = s.protSets := by simp [State.sixRefused]
@[simp] theorem State.askAnew_protSets (s : State) (stripe) : (s.askAnew stripe).protSets = s.protSets := by simp [State.askAnew]

@[simp] theorem State.reconstruct_protSets (s : State) (c k facts) : (s.reconstruct c k facts).protSets = s.protSets := by
  unfold State.reconstruct
  split <;> simp

@[simp] theorem State.readStep_protSets (s : State) (c k) : (s.readStep c k).protSets = s.protSets := by simp [State.readStep]
@[simp] theorem State.serveRepaired_protSets (s : State) (c k e) : (s.serveRepaired c k e).protSets = s.protSets := by simp [State.serveRepaired]

@[simp] theorem execRetryLadderStep_leavesProt (c id facts) (s : State) : LeavesProt s.protSets (execRetryLadderStep c id facts s) := by
  unfold execRetryLadderStep
  repeat' split
  all_goals simp

@[simp] theorem State.patrolRead_protSets (s : State) (g b noValley) : (s.patrolRead g b noValley).protSets = s.protSets := by
  unfold State.patrolRead
  split <;> simp

@[simp] theorem execPatrolStart_leavesProt (g) (s : State) : LeavesProt s.protSets (execPatrolStart g s) := by
  unfold execPatrolStart
  repeat' split
  all_goals simp

@[simp] theorem execPatrolComplete_leavesProt (g b) (s : State) : LeavesProt s.protSets (execPatrolComplete g b s) := by
  unfold execPatrolComplete
  split <;> simp

@[simp] theorem execAntennaRunStart_leavesProt (c) (s : State) : LeavesProt s.protSets (execAntennaRunStart c s) := by
  simp only [execAntennaRunStart]
  repeat' split
  all_goals simp

@[simp] theorem State.releaseWaits_protSets (s : State) (g b noValley) : (s.releaseWaits g b noValley).protSets = s.protSets := by
  simp [State.releaseWaits]

@[simp] theorem execAntennaRunComplete_leavesProt (c) (s : State) : LeavesProt s.protSets (execAntennaRunComplete c s) := by
  unfold execAntennaRunComplete
  split <;> simp

@[simp] theorem execStagingRowTimeout_leavesProt (g b) (s : State) : LeavesProt s.protSets (execStagingRowTimeout g b s) := by
  simp [execStagingRowTimeout]

@[simp] theorem State.accReadBack_protSets (s : State) (c band row back) : (s.accReadBack c band row back).protSets = s.protSets := by
  simp only [State.accReadBack]
  split <;> simp

@[simp] theorem State.accDiscard_protSets (s : State) (c band row) : (s.accDiscard c band row).protSets = s.protSets := by simp [State.accDiscard]

@[simp] theorem execParityAccumulatorMemoryError_leavesProt (c corrected band row) (s : State) :
    LeavesProt s.protSets (execParityAccumulatorMemoryError c corrected band row s) := by
  simp [execParityAccumulatorMemoryError]

@[simp] theorem execCluCtrlCntClr_leavesProt (c) (s : State) : LeavesProt s.protSets (execCluCtrlCntClr c s) := by simp [execCluCtrlCntClr]

/-! Reclamation and rebuild of bands. -/

@[simp] theorem execReclaimStart_leavesProt (g k) (s : State) : LeavesProt s.protSets (execReclaimStart g k s) := by
  unfold execReclaimStart
  repeat' split
  all_goals simp

@[simp] theorem State.copyAlone_protSets (s : State) (g gran) : (s.copyAlone g gran).protSets = s.protSets := by simp [State.copyAlone]
@[simp] theorem execGranuleRelocate_leavesProt (g gran) (s : State) : LeavesProt s.protSets (execGranuleRelocate g gran s) := by
  simp [execGranuleRelocate]
@[simp] theorem State.resyncRow_protSets (s : State) (geo g b w) : (s.resyncRow geo g b w).protSets = s.protSets := by simp [State.resyncRow]
@[simp] theorem State.resyncEnds_protSets (s : State) (g b gone) : (s.resyncEnds g b gone).protSets = s.protSets := by simp [State.resyncEnds]

@[simp] theorem execBandResync_leavesProt (g b unreadable) (s : State) : LeavesProt s.protSets (execBandResync g b unreadable s) := by
  unfold execBandResync
  split <;> simp

@[simp] theorem State.loseSlot_protSets (s : State) (g b frame served) : (s.loseSlot g b frame served).protSets = s.protSets := by
  simp only [State.loseSlot]
  split <;> simp

@[simp] theorem execBandRebuild_leavesProt (g spare lost failed) (s : State) : LeavesProt s.protSets (execBandRebuild g spare lost failed s) := by
  simp only [execBandRebuild]
  repeat' split
  all_goals simp

/-! Leaders and holders of stripes. -/

@[simp] theorem State.foldParity_protSets (s : State) (stripe : Nat) : (s.foldParity stripe).protSets = s.protSets := by
  simp only [State.foldParity]
  split
  · rfl
  split
  · rfl
  split
  · rfl
  · split
    · next h => simp [protSets_of_fst h]
    · next h => simp [protSets_of_fst h]

@[simp] theorem State.advanceStripe_protSets (s : State) (stripe) : (s.advanceStripe stripe).protSets = s.protSets := by
  unfold State.advanceStripe
  split <;> simp

@[simp] theorem State.sendRecord_protSets (s : State) (r i) : (s.sendRecord r i).protSets = s.protSets := by
  unfold State.sendRecord
  split <;> simp

@[simp] theorem State.replicate_protSets (s : State) (r) : (s.replicate r).protSets = s.protSets := by simp [State.replicate]

@[simp] theorem State.sendAssign_protSets (s : State) (a) : (s.sendAssign a).protSets = s.protSets := by
  simp only [State.sendAssign]
  split <;> simp

@[simp] theorem State.settleAssigns_protSets (s : State) : s.settleAssigns.protSets = s.protSets := by simp [State.settleAssigns]
@[simp] theorem State.assignFreed_protSets (s : State) (stripe member) : (s.assignFreed stripe member).protSets = s.protSets := by
  simp [State.assignFreed]
@[simp] theorem State.closeStripe_protSets (s : State) (r) : (s.closeStripe r).protSets = s.protSets := by simp [State.closeStripe]

@[simp] theorem State.reserveStripes_protSets (s : State) : s.reserveStripes.protSets = s.protSets := by
  simp only [State.reserveStripes]
  split <;> simp

@[simp] theorem State.assignPosition_protSets (s : State) (hdr r) : (s.assignPosition hdr r).protSets = s.protSets := by simp [State.assignPosition]

@[simp] theorem State.onSealNotice_protSets (s : State) (hdr region seg band) : (s.onSealNotice hdr region seg band).protSets = s.protSets := by
  simp only [State.onSealNotice]
  repeat' split
  all_goals simp

@[simp] theorem State.emptyPosition_protSets (s : State) (stripe position) : (s.emptyPosition stripe position).protSets = s.protSets := by
  unfold State.emptyPosition
  split <;> simp

@[simp] theorem State.replaceHolder_protSets (s : State) (stripe member) : (s.replaceHolder stripe member).protSets = s.protSets := by
  unfold State.replaceHolder
  repeat' split
  all_goals simp

@[simp] theorem State.pushParity_protSets (s : State) (r i dest) : (s.pushParity r i dest).protSets = s.protSets := by simp [State.pushParity]

@[simp] theorem State.onStripeRecord_protSets (s : State) (hdr restore m) : (s.onStripeRecord hdr restore m).protSets = s.protSets := by
  unfold State.onStripeRecord
  repeat' split
  all_goals simp

@[simp] theorem State.onStripeAck_protSets (s : State) (hdr stripe version) : (s.onStripeAck hdr stripe version).protSets = s.protSets := by
  simp only [State.onStripeAck]
  split <;> simp

@[simp] theorem State.dropRx_protSets (s : State) (stripe) : (s.dropRx stripe).protSets = s.protSets := (rfl)

@[simp] theorem State.abandonRun_protSets (s : State) (stripe) : (s.abandonRun stripe).protSets = s.protSets := by
  simp only [State.abandonRun]
  split <;> simp

@[simp] theorem State.takePayload_protSets (s : State) (hdr : MsgHdr) (type stripe position index first count : Nat) (isRetract : Bool) :
    (s.takePayload hdr type stripe position index first count isRetract).protSets = s.protSets := by
  unfold State.takePayload
  split
  · simp
  split
  · simp
  split
  · simp
  split
  · simp
  split
  · rfl
  split
  · extract_lets busy g
    split
    · simp
    · split
      · next h => simp [protSets_of_fst h]
      · next h => simp [protSets_of_fst h]
  · split <;> simp

@[simp] theorem State.switchRun_protSets (s : State) (r position isRetract) : (s.switchRun r position isRetract).protSets = s.protSets := by
  simp [State.switchRun]

@[simp] theorem State.onContribDone_protSets (s : State) (hdr stripe position index crcOk) :
    (s.onContribDone hdr stripe position index crcOk).protSets = s.protSets := by
  unfold State.onContribDone
  repeat' split
  all_goals simp

@[simp] theorem State.onRetract_protSets (s : State) (hdr stripe position index first count neverSent release last behalf crcOk) :
    (s.onRetract hdr stripe position index first count neverSent release last behalf crcOk).protSets = s.protSets := by
  simp only [State.onRetract]
  repeat' split
  all_goals simp

/-! Rebuild and adoption. -/

@[simp] theorem State.relocateFrames_protSets (s : State) (g : RegionIx) (e : SegEntry) (slots : List Nat) :
    (s.relocateFrames g e slots).protSets = s.protSets := protSets_foldl (fun s n => by split <;> simp) slots s

@[simp] theorem State.onRebuildRead_protSets (s : State) (hdr stripe what index first count rows stepFive) :
    (s.onRebuildRead hdr stripe what index first count rows stepFive).protSets = s.protSets := by
  unfold State.onRebuildRead
  repeat' split
  all_goals simp

@[simp] theorem State.stripeTasks_protSets (s : State) (old : Option MemTable) (stripe : Nat) : (s.stripeTasks old stripe).protSets = s.protSets := by
  unfold State.stripeTasks
  split
  · rfl
  · refine protSets_foldl (fun s i => ?_) _ _
    split
    · rfl
    split
    · rfl
    · split
      · rfl
      split
      · simp
      · simp only [State.updSwarm_protSets]
        split <;> simp

@[simp] theorem State.buildTasks_protSets (s : State) (old) : (s.buildTasks old).protSets = s.protSets := by simp [State.buildTasks]
@[simp] theorem State.checkTasks_protSets (s : State) : s.checkTasks.protSets = s.protSets := by simp [State.checkTasks]
@[simp] theorem State.updTask_protSets (s : State) (t f) : (s.updTask t f).protSets = s.protSets := (rfl)

@[simp] theorem State.retractBehalf_protSets (s : State) (t) : (s.retractBehalf t).protSets = s.protSets := by
  simp only [State.retractBehalf]
  split <;> simp

@[simp] theorem State.sendPush_protSets (s : State) (t dest) : (s.sendPush t dest).protSets = s.protSets := by simp [State.sendPush]

@[simp] theorem execRebuildTaskStart_leavesProt (rows : List RowFacts) (dark : Option Nat) (applied : List Nat) (s : State) :
    LeavesProt s.protSets (execRebuildTaskStart rows dark applied s) := by
  simp only [execRebuildTaskStart]
  split
  · simp
  split
  · simp
  split
  · simp
  split
  · simp
  split
  · simp
  split
  · simp
  split
  · simp
  · split
    · next h => simp [protSets_of_fst h]
    · next h => simp [protSets_of_fst h]

@[simp] theorem State.offerPush_protSets (s : State) (reason stripe data index) : (s.offerPush reason stripe data index).protSets = s.protSets := by
  unfold State.offerPush
  repeat' split
  all_goals simp

@[simp] theorem execPushBusyRetry_leavesProt (stripe data index) (s : State) : LeavesProt s.protSets (execPushBusyRetry stripe data index s) := by
  simp [execPushBusyRetry]

@[simp] theorem execPushNoNamespaceRetry_leavesProt (stripe data index) (s : State) :
    LeavesProt s.protSets (execPushNoNamespaceRetry stripe data index s) := by
  simp [execPushNoNamespaceRetry]

@[simp] theorem State.checkLeave_protSets (s : State) : s.checkLeave.protSets = s.protSets := by simp [State.checkLeave]
@[simp] theorem State.setInaccessible_protSets (s : State) (l) : (s.setInaccessible l).protSets = s.protSets := by simp [State.setInaccessible]

@[simp] theorem State.restoreGran_protSets (s : State) (p : PushGran) : (s.restoreGran p).protSets = s.protSets := by
  simp only [State.restoreGran]
  split
  · rfl
  split
  · next h => simp [protSets_of_fst h]
  · next h =>
    split
    · next h' => simp [protSets_of_fst h', protSets_of_fst h]
    · next h' => simp [protSets_of_fst h', protSets_of_fst h]

@[simp] theorem State.checkRestored_protSets (s : State) : s.checkRestored.protSets = s.protSets := by
  unfold State.checkRestored
  split <;> simp

@[simp] theorem State.onPush_protSets (s : State) (hdr : MsgHdr) (stripe what index first count : Nat) (last crcOk : Bool)
    (record : Option StripeRec) (grans : List PushGran) :
    (s.onPush hdr stripe what index first count last crcOk record grans).protSets = s.protSets := by
  unfold State.onPush
  extract_lets open? next drop opened stored closed src applied pushed counted g
  have hdrop (t : State) : (drop t).protSets = t.protSets := State.updSwarm_protSets ..
  clear_value drop
  have hstored : stored.protSets = s.protSets := by simp [stored, opened, hdrop]
  have happlied : applied.protSets = s.protSets := by
    simp only [applied, closed]
    split
    · split
      · simp [hdrop, hstored]
      · split
        · next h => simp [protSets_of_fst h, hdrop, hstored]
        · next h => simp [protSets_of_fst h, hdrop, hstored]
    · simp [hdrop, hstored]
  have hcounted : counted.protSets = s.protSets := by
    simp only [counted]
    split <;> simp [pushed, happlied]
  clear_value counted stored
  simp [hdrop, hstored, hcounted]

@[simp] theorem State.retryBlocked_protSets (s : State) (w) : (s.retryBlocked w).protSets = s.protSets := by simp [State.retryBlocked]
@[simp] theorem State.takeRecord_protSets (s : State) (r) : (s.takeRecord r).protSets = s.protSets := by simp [State.takeRecord]

@[simp] theorem State.onRebuildReply_protSets (s : State) (hdr stripe what index first bad record) :
    (s.onRebuildReply hdr stripe what index first bad record).protSets = s.protSets := by
  simp only [State.onRebuildReply]
  repeat' split
  all_goals simp

@[simp] theorem State.onRebuildData_protSets (s : State) (hdr stripe what index first count last push reply crcOk bad record grans) :
    (s.onRebuildData hdr stripe what index first count last push reply crcOk bad record grans).protSets = s.protSets := by
  unfold State.onRebuildData
  repeat' split
  all_goals simp

/-! Epochs and the messages of swarm operations. -/

@[simp] theorem State.onSlotAssign_protSets (s : State) (hdr stripe position m holders) :
    (s.onSlotAssign hdr stripe position m holders).protSets = s.protSets := by
  simp only [State.onSlotAssign]
  split <;> simp

@[simp] theorem State.onContribReply_protSets (s : State) (hdr stripe position index) :
    (s.onContribReply hdr stripe position index).protSets = s.protSets := by
  simp only [State.onContribReply]
  split <;> simp

@[simp] theorem State.onRetractReply_protSets (s : State) (hdr stripe position index) :
    (s.onRetractReply hdr stripe position index).protSets = s.protSets := by
  simp only [State.onRetractReply]
  split <;> simp

@[simp] theorem State.repeatNotice_protSets (s : State) (n) : (s.repeatNotice n).protSets = s.protSets := by simp [State.repeatNotice]

@[simp] theorem State.restart_protSets (s : State) (q) : (s.restart q).protSets = s.protSets := by
  unfold State.restart
  repeat' split
  all_goals simp

@[simp] theorem State.refusedWork_protSets (s : State) (q reason) : (s.refusedWork q reason).protSets = s.protSets := by
  unfold State.refusedWork
  split <;> simp

@[simp] theorem State.onNak_protSets (s : State) (hdr reason refused) : (s.onNak hdr reason refused).protSets = s.protSets := by
  unfold State.onNak
  repeat' split
  all_goals simp

@[simp] theorem State.handle_protSets (s : State) (hdr : MsgHdr) (b : RxBody) : (s.handle hdr b).protSets = s.protSets := by
  cases b <;> simp [State.handle]

@[simp] theorem State.receive_protSets (s : State) (hdr b) : (s.receive hdr b).protSets = s.protSets := by
  unfold State.receive
  repeat' split
  all_goals simp

@[simp] theorem State.startHello_protSets (s : State) (peer rekey) : (s.startHello peer rekey).protSets = s.protSets := by simp [State.startHello]
@[simp] theorem State.startHellos_protSets (s : State) : s.startHellos.protSets = s.protSets := by simp [State.startHellos]
@[simp] theorem State.announce_protSets (s : State) (t) : (s.announce t).protSets = s.protSets := by simp [State.announce]
@[simp] theorem State.setFence_protSets (s : State) (t) : (s.setFence t).protSets = s.protSets := by simp [State.setFence]
@[simp] theorem State.takeOver_protSets (s : State) (before) : (s.takeOver before).protSets = s.protSets := by simp [State.takeOver]

@[simp] theorem State.startAdoption_protSets (s : State) (t) : (s.startAdoption t).protSets = s.protSets := by
  unfold State.startAdoption
  split <;> simp

@[simp] theorem State.sendRestores_protSets (s : State) (lost) : (s.sendRestores lost).protSets = s.protSets := by simp [State.sendRestores]

@[simp] theorem State.replaceLeaving_protSets (s : State) (c : Nat) : (s.replaceLeaving c).protSets = s.protSets := by
  refine protSets_foldl (fun s r => ?_) _ _
  split
  · rfl
  split
  · rfl
  · dsimp only
    split
    · simp
    · split <;> simp

@[simp] theorem State.applyLeaving_protSets (s : State) (t) : (s.applyLeaving t).protSets = s.protSets := by simp [State.applyLeaving]
@[simp] theorem State.takeHeld_protSets (s : State) : s.takeHeld.protSets = s.protSets := by simp [State.takeHeld]

@[simp] theorem State.applyTable_protSets (s : State) : s.applyTable.protSets = s.protSets := by
  unfold State.applyTable
  split <;> simp

@[simp] theorem State.settleEpoch_protSets (s : State) : s.settleEpoch.protSets = s.protSets := by
  simp only [State.settleEpoch]
  repeat' split
  all_goals simp

@[simp] theorem State.requestApply_protSets (s : State) : s.requestApply.protSets = s.protSets := by simp [State.requestApply]

@[simp] theorem execMembershipStageStage_leavesProt (ref offset len last table) (s : State) :
    LeavesProt s.protSets (execMembershipStageStage ref offset len last table s) := by
  unfold execMembershipStageStage
  refine State.adminThen_leavesProt ?_
  dsimp only
  repeat' split
  all_goals simp

@[simp] theorem execMembershipStageApply_leavesProt (ref) (s : State) : LeavesProt s.protSets (execMembershipStageApply ref s) := by
  unfold execMembershipStageApply
  refine State.adminThen_leavesProt ?_
  split <;> simp

@[simp] theorem execMembershipStageReadMemberKey_leavesProt (ref) (s : State) : LeavesProt s.protSets (execMembershipStageReadMemberKey ref s) := by
  simp [execMembershipStageReadMemberKey]

@[simp] theorem execMembershipStageReadTableHeader_leavesProt (ref) (s : State) :
    LeavesProt s.protSets (execMembershipStageReadTableHeader ref s) := by
  simp [execMembershipStageReadTableHeader]

@[simp] theorem execMembershipStageDiscard_leavesProt (ref) (s : State) : LeavesProt s.protSets (execMembershipStageDiscard ref s) := by
  simp [execMembershipStageDiscard]

@[simp] theorem execEpochAnnounce_leavesProt (hdr epoch hash) (s : State) : LeavesProt s.protSets (execEpochAnnounce hdr epoch hash s) := by
  unfold execEpochAnnounce
  repeat' split
  all_goals simp

@[simp] theorem execTrailingEpochTimeout_leavesProt (s : State) : LeavesProt s.protSets (execTrailingEpochTimeout s) := by
  unfold execTrailingEpochTimeout
  split <;> simp

@[simp] theorem execHeldMessageTimeout_leavesProt (i) (s : State) : LeavesProt s.protSets (execHeldMessageTimeout i s) := by
  unfold execHeldMessageTimeout
  split <;> simp

@[simp] theorem execEpochAheadRetry_leavesProt (peer opid) (s : State) : LeavesProt s.protSets (execEpochAheadRetry peer opid s) := by
  unfold execEpochAheadRetry
  split <;> simp

@[simp] theorem execSealNotice_leavesProt (hdr region seg band) (s : State) : LeavesProt s.protSets (execSealNotice hdr region seg band s) := by
  simp [execSealNotice]

@[simp] theorem execSlotAssign_leavesProt (hdr stripe position m version holders) (s : State) :
    LeavesProt s.protSets (execSlotAssign hdr stripe position m version holders s) := by
  simp [execSlotAssign]

@[simp] theorem execStripeRecord_leavesProt (hdr restore r) (s : State) : LeavesProt s.protSets (execStripeRecord hdr restore r s) := by
  simp [execStripeRecord]

@[simp] theorem execStripeRecordAck_leavesProt (hdr stripe version) (s : State) :
    LeavesProt s.protSets (execStripeRecordAck hdr stripe version s) := by
  simp [execStripeRecordAck]

@[simp] theorem execContribData_leavesProt (hdr stripe position index first count) (s : State) :
    LeavesProt s.protSets (execContribData hdr stripe position index first count s) := by
  simp [execContribData]

@[simp] theorem execContribDone_leavesProt (hdr stripe position index crcOk) (s : State) :
    LeavesProt s.protSets (execContribDone hdr stripe position index crcOk s) := by
  simp [execContribDone]

@[simp] theorem execContribDoneReply_leavesProt (hdr stripe position index) (s : State) :
    LeavesProt s.protSets (execContribDoneReply hdr stripe position index s) := by
  simp [execContribDoneReply]

@[simp] theorem execRetract_leavesProt (hdr stripe position index first count neverSent release last behalf crcOk) (s : State) :
    LeavesProt s.protSets (execRetract hdr stripe position index first count neverSent release last behalf crcOk s) := by
  simp [execRetract]

@[simp] theorem execRetractReply_leavesProt (hdr stripe position index) (s : State) :
    LeavesProt s.protSets (execRetractReply hdr stripe position index s) := by
  simp [execRetractReply]

@[simp] theorem execRebuildRead_leavesProt (hdr stripe what index first count rows stepFive) (s : State) :
    LeavesProt s.protSets (execRebuildRead hdr stripe what index first count rows stepFive s) := by
  simp [execRebuildRead]

@[simp] theorem execRebuildData_leavesProt (hdr stripe what index first count last push reply crcOk bad record grans) (s : State) :
    LeavesProt s.protSets (execRebuildData hdr stripe what index first count last push reply crcOk bad record grans s) := by
  simp [execRebuildData]

@[simp] theorem execNak_leavesProt (hdr reason refused _detail) (s : State) : LeavesProt s.protSets (execNak hdr reason refused _detail s) := by
  simp [execNak]
@[simp] theorem execSealNoticeTimeout_leavesProt (g b u) (s : State) : LeavesProt s.protSets (execSealNoticeTimeout g b u s) := by
  simp [execSealNoticeTimeout]

@[simp] theorem execSealNoticeRetry_leavesProt (g b u) (s : State) : LeavesProt s.protSets (execSealNoticeRetry g b u s) := by
  unfold execSealNoticeRetry
  split <;> simp

@[simp] theorem execStripeShortTimeout_leavesProt (stripe) (s : State) : LeavesProt s.protSets (execStripeShortTimeout stripe s) := by
  unfold execStripeShortTimeout
  split <;> simp

@[simp] theorem State.retryWork_protSets (s : State) (stripe position index reason) :
    (s.retryWork stripe position index reason).protSets = s.protSets := by
  unfold State.retryWork
  split <;> simp

@[simp] theorem execContribRetry_leavesProt (stripe position index) (s : State) :
    LeavesProt s.protSets (execContribRetry stripe position index s) := by
  simp [execContribRetry]

@[simp] theorem execContribBusyRetry_leavesProt (stripe position index) (s : State) :
    LeavesProt s.protSets (execContribBusyRetry stripe position index s) := by
  simp [execContribBusyRetry]

@[simp] theorem execRequestAnswerTimeout_leavesProt (peer opid) (s : State) : LeavesProt s.protSets (execRequestAnswerTimeout peer opid s) := by
  unfold execRequestAnswerTimeout
  repeat' split
  all_goals simp

@[simp] theorem execJournalFrameDurable_leavesProt (g) (s : State) : LeavesProt s.protSets (execJournalFrameDurable g s) := by
  simp [execJournalFrameDurable]

@[simp] theorem State.lightSatisfied_protSets (s : State) (c) : (s.lightSatisfied c).protSets = s.protSets := by
  unfold State.lightSatisfied
  split <;> simp

@[simp] theorem State.darkOver_protSets (s : State) (c g) : (s.darkOver c g).protSets = s.protSets := by simp [State.darkOver]

@[simp] theorem State.askRecord_protSets (s : State) (w) : (s.askRecord w).protSets = s.protSets := by
  unfold State.askRecord
  split <;> simp

@[simp] theorem State.retryHolds_protSets (s : State) (c) : (s.retryHolds c).protSets = s.protSets := by simp [State.retryHolds]
@[simp] theorem State.peerLights_protSets (s : State) (c) : (s.peerLights c).protSets = s.protSets := by simp [State.peerLights]
@[simp] theorem execPeerLit_leavesProt (c) (s : State) : LeavesProt s.protSets (execPeerLit c s) := by simp [execPeerLit]
@[simp] theorem execHeartbeat_leavesProt (peer status applied) (s : State) : LeavesProt s.protSets (execHeartbeat peer status applied s) := by
  simp [execHeartbeat]
@[simp] theorem execHeartbeatSendTimer_leavesProt (peer) (s : State) : LeavesProt s.protSets (execHeartbeatSendTimer peer s) := by
  simp [execHeartbeatSendTimer]
@[simp] theorem execLightRequest_leavesProt (peer r cancel) (s : State) : LeavesProt s.protSets (execLightRequest peer r cancel s) := by
  simp [execLightRequest]
@[simp] theorem execDarkWaitExpiry_leavesProt (ref) (s : State) : LeavesProt s.protSets (execDarkWaitExpiry ref s) := by simp [execDarkWaitExpiry]

/-! The Lenos link. -/

@[simp] theorem State.updPort_protSets (s : State) (d f) : (s.updPort d f).protSets = s.protSets := (rfl)

@[simp] theorem execSwarmLinkTraining_leavesProt (d partner) (s : State) : LeavesProt s.protSets (execSwarmLinkTraining d partner s) := by
  unfold execSwarmLinkTraining
  repeat' split
  all_goals simp

@[simp] theorem State.swarmPortDown_protSets (s : State) (d) : (s.swarmPortDown d).protSets = s.protSets := by simp [State.swarmPortDown]
@[simp] theorem execSwarmPortLinkDown_leavesProt (d) (s : State) : LeavesProt s.protSets (execSwarmPortLinkDown d s) := by
  simp [execSwarmPortLinkDown]
@[simp] theorem State.portAnswer_protSets (s : State) (d kind target) : (s.portAnswer d kind target).protSets = s.protSets := by
  simp [State.portAnswer]
@[simp] theorem execNeighborSolicitation_leavesProt (d target) (s : State) : LeavesProt s.protSets (execNeighborSolicitation d target s) := by
  simp [execNeighborSolicitation]
@[simp] theorem execArpRequest_leavesProt (d target) (s : State) : LeavesProt s.protSets (execArpRequest d target s) := by simp [execArpRequest]
@[simp] theorem execEchoRequest_leavesProt (d target) (s : State) : LeavesProt s.protSets (execEchoRequest d target s) := by simp [execEchoRequest]
@[simp] theorem execOtherInboundPacket_leavesProt (d) (s : State) : LeavesProt s.protSets (execOtherInboundPacket d s) := by
  simp [execOtherInboundPacket]
@[simp] theorem execSwmCtrlCntClr_leavesProt (d) (s : State) : LeavesProt s.protSets (execSwmCtrlCntClr d s) := by simp [execSwmCtrlCntClr]

@[simp] theorem execLenosPacket_leavesProt (d p) (s : State) : LeavesProt s.protSets (execLenosPacket d p s) := by
  unfold execLenosPacket
  repeat' split
  all_goals simp

@[simp] theorem State.establish_protSets (s : State) (h) : (s.establish h).protSets = s.protSets := by
  simp only [State.establish]
  split <;> simp

@[simp] theorem State.abandonHello_protSets (s : State) (peer) : (s.abandonHello peer).protSets = s.protSets := (rfl)
@[simp] theorem State.authFail_protSets (s : State) (d peer) : (s.authFail d peer).protSets = s.protSets := by simp [State.authFail]
@[simp] theorem State.answerHello_protSets (s : State) (m) : (s.answerHello m).protSets = s.protSets := (rfl)
@[simp] theorem State.refuseHello_protSets (s : State) (m status) : (s.refuseHello m status).protSets = s.protSets := (rfl)

@[simp] theorem execHello_leavesProt (d m) (s : State) : LeavesProt s.protSets (execHello d m s) := by
  simp only [execHello]
  repeat' split
  all_goals simp

@[simp] theorem execHelloAttemptTimeout_leavesProt (peer) (s : State) : LeavesProt s.protSets (execHelloAttemptTimeout peer s) := by
  simp [execHelloAttemptTimeout]
@[simp] theorem execHelloRetryTimer_leavesProt (peer) (s : State) : LeavesProt s.protSets (execHelloRetryTimer peer s) := by
  simp [execHelloRetryTimer]
@[simp] theorem execSessionRekey_leavesProt (peer) (s : State) : LeavesProt s.protSets (execSessionRekey peer s) := by simp [execSessionRekey]

@[simp] theorem execOldSessionErase_leavesProt (peer) (s : State) : LeavesProt s.protSets (execOldSessionErase peer s) := by
  unfold execOldSessionErase
  split <;> simp

@[simp] theorem execAckTimer_leavesProt (peer half) (s : State) : LeavesProt s.protSets (execAckTimer peer half s) := by
  unfold execAckTimer
  split <;> simp

@[simp] theorem execRetransmissionTimeout_leavesProt (peer half ctr) (s : State) :
    LeavesProt s.protSets (execRetransmissionTimeout peer half ctr s) := by
  unfold execRetransmissionTimeout
  split <;> simp

@[simp] theorem State.sessionLost_protSets (s : State) (peer) : (s.sessionLost peer).protSets = s.protSets := by simp [State.sessionLost]

@[simp] theorem execPathProgressTimeout_leavesProt (peer half) (s : State) : LeavesProt s.protSets (execPathProgressTimeout peer half s) := by
  unfold execPathProgressTimeout
  repeat' split
  all_goals simp

@[simp] theorem execLivenessTimeout_leavesProt (peer) (s : State) : LeavesProt s.protSets (execLivenessTimeout peer s) := by
  simp [execLivenessTimeout]
@[simp] theorem execPeerUnreachable_leavesProt (peer) (s : State) : LeavesProt s.protSets (execPeerUnreachable peer s) := by
  simp [execPeerUnreachable]
@[simp] theorem State.swarmDark_protSets (s : State) : s.swarmDark.protSets = s.protSets := (rfl)

@[simp] theorem State.swarmResume_protSets (s : State) : s.swarmResume.protSets = s.protSets := by
  unfold State.swarmResume
  extract_lets g seated settled
  have hsettled : settled.protSets = s.protSets := by simp [settled, seated]
  clear_value settled
  split
  · exact hsettled
  · next t _ =>
    extract_lets fenced resumed tasked hidden
    have hresumed : resumed.protSets = s.protSets := by
      refine (protSets_foldl (fun s g => protSets_foldl (fun s e => ?_) _ _) _ _).trans (by simp [fenced, hsettled])
      split <;> simp
    clear_value resumed
    simp [hidden, tasked, hresumed, fenced, hsettled]

end Sys2Proof.Machine
end

