-- ==== Sys2Proof/Proofs/ProtectionPackage.lean ====
section
/-! Reactions, firmware, options and the store die leave the protection set and its mirror alone; of the start, all but the release of D0 does. -/

namespace Sys2Proof.Machine

/-! The reset of a die. -/

@[simp] theorem State.resetDieVolatile_protSets (s : State) (d) : (s.resetDieVolatile d).protSets = s.protSets := by simp [State.resetDieVolatile]

/-! Reactions in lanes, windows and regions. -/

@[simp] theorem State.lanesStop_protSets (s : State) (ds) : (s.lanesStop ds).protSets = s.protSets := by simp [State.lanesStop]
@[simp] theorem State.swarmLinkLost_protSets (s : State) (d) : (s.swarmLinkLost d).protSets = s.protSets := by simp [State.swarmLinkLost]
@[simp] theorem State.swarmStop_protSets (s : State) (d) : (s.swarmStop d).protSets = s.protSets := (rfl)
@[simp] theorem State.swarmFaultNotice_protSets (s : State) : s.swarmFaultNotice.protSets = s.protSets := by simp [State.swarmFaultNotice]
@[simp] theorem State.keepWindow_protSets (s : State) (d) : (s.keepWindow d).protSets = s.protSets := (rfl)

@[simp] theorem State.padRescue_protSets (s : State) (g) : (s.padRescue g).protSets = s.protSets := by
  unfold State.padRescue
  split <;> simp

@[simp] theorem State.persistWindows_protSets (s : State) (ds : List DieIx) : (s.persistWindows ds).protSets = s.protSets := by
  unfold State.persistWindows
  split <;> simp

@[simp] theorem State.persistJournal_protSets (s : State) (g) : (s.persistJournal g).protSets = s.protSets := by simp [State.persistJournal]
@[simp] theorem State.persistJournals_protSets (s : State) : s.persistJournals.protSets = s.protSets := by simp [State.persistJournals]
@[simp] theorem State.regionOut_protSets (s : State) (g) : (s.regionOut g).protSets = s.protSets := by simp [State.regionOut]

/-! The fault collector. -/

@[simp] theorem State.loseRecords_protSets (s : State) (n) : (s.loseRecords n).protSets = s.protSets := (rfl)
@[simp] theorem State.startFlush_protSets (s : State) : s.startFlush.protSets = s.protSets := by simp [State.startFlush]

@[simp] theorem State.recordEvent_protSets (s : State) (r) : (s.recordEvent r).protSets = s.protSets := by
  unfold State.recordEvent
  repeat' split
  all_goals simp

@[simp] theorem State.latchRecord_protSets (s : State) (r) : (s.latchRecord r).1.protSets = s.protSets := by
  unfold State.latchRecord
  split <;> simp

@[simp] theorem State.collect_protSets (s : State) (t) : (s.collect t).protSets = s.protSets := by
  unfold State.collect
  split <;> simp

@[simp] theorem execEventToken_leavesProt (i) (s : State) : LeavesProt s.protSets (execEventToken i s) := by
  unfold execEventToken
  split <;> simp

@[simp] theorem State.finishFlush_protSets (s : State) : s.finishFlush.protSets = s.protSets := by simp [State.finishFlush]
@[simp] theorem State.flushNow_protSets (s : State) : s.flushNow.protSets = s.protSets := by simp [State.flushNow]
@[simp] theorem execEventFlushComplete_leavesProt (s : State) : LeavesProt s.protSets (execEventFlushComplete s) := by simp [execEventFlushComplete]
@[simp] theorem State.skipLogLine_protSets (s : State) : s.skipLogLine.protSets = s.protSets := (rfl)
@[simp] theorem execKprEvCtrlFlush_leavesProt (s : State) : LeavesProt s.protSets (execKprEvCtrlFlush s) := by simp [execKprEvCtrlFlush]
@[simp] theorem execKprFcFirstClear_leavesProt (s : State) : LeavesProt s.protSets (execKprFcFirstClear s) := by simp [execKprFcFirstClear]
@[simp] theorem execKprFcPendClear_leavesProt (k mask) (s : State) : LeavesProt s.protSets (execKprFcPendClear k mask s) := by
  simp [execKprFcPendClear]

/-! Reactions of the package. -/

@[simp] theorem State.startRescue_protSets (s : State) (bank safe restart) : (s.startRescue bank safe restart).protSets = s.protSets := by
  simp [State.startRescue]
@[simp] theorem State.resetDie_protSets (s : State) (d) : (s.resetDie d).protSets = s.protSets := by simp [State.resetDie]
@[simp] theorem State.resetBothDies_protSets (s : State) : s.resetBothDies.protSets = s.protSets := (rfl)
@[simp] theorem State.eraseForRescue_protSets (s : State) : s.eraseForRescue.protSets = s.protSets := (rfl)
@[simp] theorem State.resumeAtStart_protSets (s : State) : s.resumeAtStart.protSets = s.protSets := (rfl)
@[simp] theorem State.beginStart_protSets (s : State) : s.beginStart.protSets = s.protSets := (rfl)
@[simp] theorem State.finishRescue_protSets (s : State) (r tenUs) : (s.finishRescue r tenUs).protSets = s.protSets := by simp [State.finishRescue]

@[simp] theorem State.enterSafe_protSets (s : State) : s.enterSafe.protSets = s.protSets := by
  simp only [State.enterSafe]
  repeat' split
  all_goals simp

@[simp] theorem State.takeOut_protSets (s : State) (d source) : (s.takeOut d source).protSets = s.protSets := by simp [State.takeOut]
@[simp] theorem State.bridgeLost_protSets (s : State) : s.bridgeLost.protSets = s.protSets := by simp [State.bridgeLost]

@[simp] theorem State.railReaction_protSets (s : State) (r) : (s.railReaction r).protSets = s.protSets := by
  unfold State.railReaction
  split <;> simp

@[simp] theorem State.keeperDark_protSets (s : State) : s.keeperDark.protSets = s.protSets := (rfl)

/-! Firmware. -/

@[simp] theorem State.updSlot_protSets (s : State) (k f) : (s.updSlot k f).protSets = s.protSets := (rfl)
@[simp] theorem State.noteSlot_protSets (s : State) (k f) : (s.noteSlot k f).protSets = s.protSets := by simp [State.noteSlot]

@[simp] theorem execFirmwareImageDownload_leavesProt (ref offset len last image) (s : State) :
    LeavesProt s.protSets (execFirmwareImageDownload ref offset len last image s) := by
  unfold execFirmwareImageDownload
  refine State.adminThen_leavesProt ?_
  repeat' split
  all_goals simp

@[simp] theorem State.acceptCommit_protSets (s : State) (ref k i) : (s.acceptCommit ref k i).protSets = s.protSets := by simp [State.acceptCommit]

@[simp] theorem State.replace_protSets (s : State) (ref n) : (s.replace ref n).1.protSets = s.protSets := by
  unfold State.replace
  repeat' split
  all_goals simp

@[simp] theorem State.fwGate_leavesProt {s : State} {ref : CmdRef} {f : State → State × Status} (h : (f s).1.protSets = s.protSets) :
    LeavesProt s.protSets (s.fwGate ref f) := State.adminThen_leavesProt (by simpa using h)
@[simp] theorem execFirmwareCommitReplace_leavesProt (ref slot) (s : State) : LeavesProt s.protSets (execFirmwareCommitReplace ref slot s) := by
  simp [execFirmwareCommitReplace]

@[simp] theorem execFirmwareCommitReplaceActivate_leavesProt (ref slot) (s : State) :
    LeavesProt s.protSets (execFirmwareCommitReplaceActivate ref slot s) := by
  unfold execFirmwareCommitReplaceActivate
  refine State.adminThen_leavesProt ?_
  dsimp only
  split <;> simp

@[simp] theorem execFirmwareCommitActivateAtReset_leavesProt (ref slot) (s : State) :
    LeavesProt s.protSets (execFirmwareCommitActivateAtReset ref slot s) := by
  unfold execFirmwareCommitActivateAtReset
  refine State.adminThen_leavesProt ?_
  dsimp only
  repeat' split
  all_goals simp

@[simp] theorem State.recommit_protSets (s : State) (ref slot k i) : (s.recommit ref slot k i).1.protSets = s.protSets := by
  unfold State.recommit
  repeat' split
  all_goals simp

@[simp] theorem execFirmwareCommitActivateNow_leavesProt (ref slot) (s : State) :
    LeavesProt s.protSets (execFirmwareCommitActivateNow ref slot s) := by
  unfold execFirmwareCommitActivateNow
  refine State.fwGate_leavesProt ?_
  dsimp only
  repeat' split
  all_goals simp

@[simp] theorem execFirmwareCommitBootPartition_leavesProt (ref) (s : State) : LeavesProt s.protSets (execFirmwareCommitBootPartition ref s) := by
  simp [execFirmwareCommitBootPartition]

@[simp] theorem State.slotServes_protSets (s : State) : s.slotServes.protSets = s.protSets := by
  unfold State.slotServes
  repeat' split
  all_goals simp

@[simp] theorem State.reloadPatches_protSets (s : State) : s.reloadPatches.protSets = s.protSets := by simp [State.reloadPatches]

@[simp] theorem execFirmwareActivation_leavesProt (d1CoreOk regionCoreOk) (s : State) :
    LeavesProt s.protSets (execFirmwareActivation d1CoreOk regionCoreOk s) := by
  unfold execFirmwareActivation
  split <;> simp

/-! Option images. -/

@[simp] theorem State.installImage_protSets (s : State) (img) : (s.installImage img).protSets = s.protSets := by simp [State.installImage]

@[simp] theorem execOptionStage_leavesProt (ref offset len last image) (s : State) :
    LeavesProt s.protSets (execOptionStage ref offset len last image s) := by
  simp [execOptionStage]

@[simp] theorem execOptionCheck_leavesProt (ref) (s : State) : LeavesProt s.protSets (execOptionCheck ref s) := by
  unfold execOptionCheck
  refine State.adminThen_leavesProt ?_
  repeat' split
  all_goals simp

theorem State.applyCheck_protSets {s t : State} {ref : CmdRef} (h : s.applyCheck ref = .inr t) : t.protSets = s.protSets := by
  simp only [State.applyCheck] at h
  split at h
  · cases h; simp
  split at h
  · cases h; simp
  split at h
  · cases h; simp
  · cases h

@[simp] theorem execOptionApplyAtStart_leavesProt (ref : CmdRef) (s : State) : LeavesProt s.protSets (execOptionApplyAtStart ref s) := by
  refine State.adminThen_leavesProt ?_
  dsimp only
  split
  · next h => simp [State.applyCheck_protSets h]
  · simp

@[simp] theorem execOptionApplyLive_leavesProt (ref : CmdRef) (s : State) : LeavesProt s.protSets (execOptionApplyLive ref s) := by
  refine State.adminThen_leavesProt ?_
  dsimp only
  split
  · next h => simp [State.applyCheck_protSets h]
  split
  · simp
  split
  · simp
  · split <;> simp

@[simp] theorem State.packageImage_protSets (s : State) (ns) : (s.packageImage ns).protSets = s.protSets := by
  unfold State.packageImage
  split <;> simp

/-! The store die's controller. -/

@[simp] theorem Store.setCmd_protCopies (x : Store) (code : Byte) (r : StoResult) (sector : Nat) (req : Requester) (count : Nat) :
    (x.setCmd code r sector req count).protCopies = x.protCopies := (rfl)
@[simp] theorem State.refuseStore_protSets (s : State) (code r sectors req) : (s.refuseStore code r sectors req).protSets = s.protSets := by
  simp [State.refuseStore]

@[simp] theorem State.startProgram_protSets (s : State) (code req offset bytes) : (s.startProgram code req offset bytes).protSets = s.protSets := by
  simp only [State.startProgram]
  split <;> simp

@[simp] theorem State.startErase_protSets (s : State) (req sectors fromIntent) : (s.startErase req sectors fromIntent).protSets = s.protSets := by
  unfold State.startErase
  split <;> simp

@[simp] theorem State.eraseSuspend_protSets (s : State) (req) : (s.eraseSuspend req).protSets = s.protSets := by
  unfold State.eraseSuspend
  repeat' split
  all_goals simp

@[simp] theorem State.eraseResume_protSets (s : State) (req : Requester) : (s.eraseResume req).protSets = s.protSets := by
  refine State.updStore_protSets fun x => ?_
  dsimp only
  split
  · split <;> simp
  · simp

@[simp] theorem Store.abandon_protCopies (x : Store) : x.abandon.protCopies = x.protCopies := by
  unfold Store.abandon
  split <;> simp

@[simp] theorem Store.toRead_protCopies (x : Store) (req : Requester) : (x.toRead req).protCopies = x.protCopies := (rfl)

@[simp] theorem State.operandWrite_protSets (s : State) (req : Requester) (code : Byte) (ws : List (Nat × Word)) :
    (s.operandWrite req code ws).protSets = s.protSets := by
  simp only [State.operandWrite]
  split
  · simp
  split
  · simp
  split
  · simp
  split
  · split
    · simp
    · split <;> simp
  split
  · split <;> simp
  · simp

@[simp] theorem State.codeWrite_protSets (s : State) (req w) : (s.codeWrite req w).protSets = s.protSets := by simp [State.codeWrite]

@[simp] theorem State.ownCycle_protSets (s : State) (req offset w) : (s.ownCycle req offset w).protSets = s.protSets := by
  unfold State.ownCycle
  repeat' split
  all_goals simp

@[simp] theorem State.drainWaiting_protSets (s : State) (n : Nat) : (s.drainWaiting n).protSets = s.protSets := by
  induction n generalizing s with
  | zero => rfl
  | succ n ih =>
    simp only [State.drainWaiting]
    split
    · rfl
    · split <;> simp [ih]

@[simp] theorem State.storeCycle_protSets (s : State) (req offset w) : (s.storeCycle req offset w).protSets = s.protSets := by simp [State.storeCycle]
@[simp] theorem State.storeCommand_protSets (s : State) (req code writes) : (s.storeCommand req code writes).protSets = s.protSets := by
  simp [State.storeCommand]

@[simp] theorem State.storeRun_leavesProt {s : State} {req : Requester} {code : Word} {writes : List (Nat × Word)} {p} (h : s.protSets = p) :
    LeavesProt p (s.storeRun req code writes) := by
  simp [State.storeRun, h]

@[simp] theorem execProgram64BitWord_leavesProt (req writes) (s : State) : LeavesProt s.protSets (execProgram64BitWord req writes s) := by
  simp [execProgram64BitWord]
@[simp] theorem execProgram256ByteLine_leavesProt (req writes) (s : State) : LeavesProt s.protSets (execProgram256ByteLine req writes s) := by
  simp [execProgram256ByteLine]
@[simp] theorem execEraseSector_leavesProt (req offsets) (s : State) : LeavesProt s.protSets (execEraseSector req offsets s) := by
  simp [execEraseSector]
@[simp] theorem execEraseSuspend_leavesProt (req runTime) (s : State) : LeavesProt s.protSets (execEraseSuspend req runTime s) := by
  simp [execEraseSuspend]
@[simp] theorem execEraseResume_leavesProt (req) (s : State) : LeavesProt s.protSets (execEraseResume req s) := by simp [execEraseResume]
@[simp] theorem execMarginMode_leavesProt (req mode) (s : State) : LeavesProt s.protSets (execMarginMode req mode s) := by simp [execMarginMode]
@[simp] theorem execReadEraseCounter_leavesProt (req offset) (s : State) : LeavesProt s.protSets (execReadEraseCounter req offset s) := by
  simp [execReadEraseCounter]
@[simp] theorem execReturnToRead_leavesProt (req) (s : State) : LeavesProt s.protSets (execReturnToRead req s) := by simp [execReturnToRead]

@[simp] theorem execStoreSequenceTimeout_leavesProt (s : State) : LeavesProt s.protSets (execStoreSequenceTimeout s) := by
  unfold execStoreSequenceTimeout
  split <;> simp

@[simp] theorem execStoreEraseStart_leavesProt (s : State) : LeavesProt s.protSets (execStoreEraseStart s) := by
  unfold execStoreEraseStart
  split <;> simp

@[simp] theorem Store.noteFault_protCopies (x : Store) (cause sector : Nat) : (x.noteFault cause sector).protCopies = x.protCopies := (rfl)

@[simp] theorem execStoreProgramComplete_leavesProt (ok : Bool) (s : State) : LeavesProt s.protSets (execStoreProgramComplete ok s) := by
  simp only [execStoreProgramComplete]
  split
  · simp
  · split <;> simp

@[simp] theorem State.areaErased_protSets (s : State) (n) : (s.areaErased n).protSets = s.protSets := by simp [State.areaErased]
@[simp] theorem State.sectorErased_protSets (s : State) (n) : (s.sectorErased n).protSets = s.protSets := by simp [State.sectorErased]
@[simp] theorem State.nextIntents_protSets (s : State) : s.nextIntents.protSets = s.protSets := by simp [State.nextIntents]

@[simp] theorem execStoreEraseComplete_leavesProt (marginFailures) (s : State) : LeavesProt s.protSets (execStoreEraseComplete marginFailures s) := by
  unfold execStoreEraseComplete
  split <;> simp

@[simp] theorem execStoreEraseTimeout_leavesProt (s : State) : LeavesProt s.protSets (execStoreEraseTimeout s) := by
  unfold execStoreEraseTimeout
  split <;> simp

@[simp] theorem State.afterRead_protSets (s : State) (offset w) : (s.afterRead offset w).protSets = s.protSets := (rfl)

@[simp] theorem execStoreArrayRead_leavesProt (kind offset byCore differs) (s : State) :
    LeavesProt s.protSets (execStoreArrayRead kind offset byCore differs s) := by
  simp only [execStoreArrayRead]
  repeat' split
  all_goals simp

@[simp] theorem execStoreEraseAutoSuspend_leavesProt (s : State) : LeavesProt s.protSets (execStoreEraseAutoSuspend s) := by
  unfold execStoreEraseAutoSuspend
  split <;> simp

@[simp] theorem execStoreEraseAutoResume_leavesProt (s : State) : LeavesProt s.protSets (execStoreEraseAutoResume s) := by
  unfold execStoreEraseAutoResume
  split <;> simp

/-! Watchdogs and shadows. -/

@[simp] theorem State.regionDogReaction_protSets (s : State) (g) : (s.regionDogReaction g).protSets = s.protSets := by simp [State.regionDogReaction]
@[simp] theorem execRegionCoreWatchdog_leavesProt (g) (s : State) : LeavesProt s.protSets (execRegionCoreWatchdog g s) := by
  simp [execRegionCoreWatchdog]
@[simp] theorem State.dieDogReaction_protSets (s : State) (d) : (s.dieDogReaction d).protSets = s.protSets := by simp [State.dieDogReaction]
@[simp] theorem execDieCoreWatchdog_leavesProt (d) (s : State) : LeavesProt s.protSets (execDieCoreWatchdog d s) := by simp [execDieCoreWatchdog]

@[simp] theorem State.reevaluate_protSets (s : State) (sh d) : (s.reevaluate sh d).protSets = s.protSets := by
  simp only [State.reevaluate]
  repeat' split
  all_goals simp

@[simp] theorem execShadowClose_leavesProt (holder i persisting) (s : State) : LeavesProt s.protSets (execShadowClose holder i persisting s) := by
  unfold execShadowClose
  repeat' split
  all_goals simp

@[simp] theorem State.collectorFailed_protSets (s : State) : s.collectorFailed.protSets = s.protSets :=
  (State.enterSafe_protSets _).trans (State.recordEvent_protSets ..)
@[simp] theorem execCollectorParityScan_leavesProt (ok) (s : State) : LeavesProt s.protSets (execCollectorParityScan ok s) := by
  simp [execCollectorParityScan]
@[simp] theorem execDieTemperatureWarning_leavesProt (d t) (s : State) : LeavesProt s.protSets (execDieTemperatureWarning d t s) := by
  simp [execDieTemperatureWarning]

@[simp] theorem execDieTemperatureCritical_leavesProt (d t) (s : State) : LeavesProt s.protSets (execDieTemperatureCritical d t s) := by
  simp only [execDieTemperatureCritical]
  repeat' split
  all_goals simp

@[simp] theorem execDieTemperatureBackInRange_leavesProt (d t) (s : State) : LeavesProt s.protSets (execDieTemperatureBackInRange d t s) := by
  simp [execDieTemperatureBackInRange]

@[simp] theorem State.injectedReaction_protSets (s : State) (src : Nat) (d0 : Word) : (s.injectedReaction src d0).protSets = s.protSets := by
  unfold State.injectedReaction
  iterate 4 refine protSets_ite_of (by simp) ?_
  refine protSets_ite_of ?region ?rest
  case region => split <;> simp
  iterate 5 refine protSets_ite_of (by simp) ?_
  refine protSets_ite_of ?rail (by simp)
  split <;> simp

@[simp] theorem execKprFcInjectGo_leavesProt (source) (s : State) : LeavesProt s.protSets (execKprFcInjectGo source s) := by simp [execKprFcInjectGo]

/-! Start. -/

@[simp] theorem State.noteBootFail_protSets (s : State) (cause slot) : (s.noteBootFail cause slot).protSets = s.protSets := (rfl)
@[simp] theorem State.stage_protSets (s : State) (x) : (s.stage x).protSets = s.protSets := (rfl)
@[simp] theorem State.findIntents_protSets (s : State) : s.findIntents.protSets = s.protSets := by simp [State.findIntents]

@[simp] theorem State.readRescueRecord_protSets (s : State) : s.readRescueRecord.protSets = s.protSets := by
  unfold State.readRescueRecord
  split <;> simp

@[simp] theorem State.takePending_protSets (s : State) : s.takePending.protSets = s.protSets := by
  unfold State.takePending
  split <;> simp

@[simp] theorem execVinRise_leavesProt (o) (s : State) : LeavesProt s.protSets (execVinRise o s) := by simp [execVinRise]
@[simp] theorem State.restartNow_protSets (s : State) : s.restartNow.protSets = s.protSets := (rfl)

@[simp] theorem execPackageRestart_leavesProt (cause) (s : State) : LeavesProt s.protSets (execPackageRestart cause s) := by
  unfold execPackageRestart
  repeat' split
  all_goals simp

@[simp] theorem execBootWindowTimeout_leavesProt (s : State) : LeavesProt s.protSets (execBootWindowTimeout s) := by simp [execBootWindowTimeout]

end Sys2Proof.Machine
end

