-- ==== Sys2Proof/Proofs/ProtectionHost.lean ====
section
/-! Host and management commands leave the protection set and its mirror alone. -/

namespace Sys2Proof.Machine

/-! Buffer and memory commands. -/

@[simp] theorem State.takeBuf_protSets (s : State) (d c k) : (s.takeBuf d c k).1.protSets = s.protSets := by
  unfold State.takeBuf
  repeat' split
  all_goals simp

@[simp] theorem execBufferAllocate_leavesProt (d bytes dram kind) (s : State) : LeavesProt s.protSets (execBufferAllocate d bytes dram kind s) := by
  unfold execBufferAllocate
  repeat' split
  all_goals simp

@[simp] theorem execBufferReferenceTake_leavesProt (d ptr user) (s : State) : LeavesProt s.protSets (execBufferReferenceTake d ptr user s) := by
  unfold execBufferReferenceTake
  repeat' split
  all_goals simp

@[simp] theorem execBufferReferenceDrop_leavesProt (d ptr user) (s : State) : LeavesProt s.protSets (execBufferReferenceDrop d ptr user s) := by
  unfold execBufferReferenceDrop
  split <;> simp

@[simp] theorem State.serveWaiting_protSets (s : State) (d c) : (s.serveWaiting d c).protSets = s.protSets := by
  unfold State.serveWaiting
  repeat' split
  all_goals simp

@[simp] theorem execBufferZeroed_leavesProt (d c i) (s : State) : LeavesProt s.protSets (execBufferZeroed d c i s) := by simp [execBufferZeroed]

@[simp] theorem execDramOscillatorRead_leavesProt (d value driftPs) (s : State) :
    LeavesProt s.protSets (execDramOscillatorRead d value driftPs s) := by
  simp [execDramOscillatorRead]

@[simp] theorem execDramZqLatch_leavesProt (d value) (s : State) : LeavesProt s.protSets (execDramZqLatch d value s) := by simp [execDramZqLatch]

@[simp] theorem execDramRetrain_leavesProt (d byRate tries) (s : State) : LeavesProt s.protSets (execDramRetrain d byRate tries s) := by
  simp only [execDramRetrain]
  repeat' split
  all_goals simp

@[simp] theorem execMemoryCorrected_leavesProt (d k addr bit) (s : State) : LeavesProt s.protSets (execMemoryCorrected d k addr bit s) := by
  simp only [execMemoryCorrected]
  repeat' split
  all_goals simp

@[simp] theorem State.poisonPlaced_protSets (s : State) (g b which) : (s.poisonPlaced g b which).protSets = s.protSets := by
  unfold State.poisonPlaced
  split <;> simp

@[simp] theorem State.poisonUpds_protSets (s : State) (g : RegionIx) (n : Nat) (which : PendUpd → Bool) :
    (s.poisonUpds g n which).protSets = s.protSets := by
  refine protSets_foldl (fun s u => ?_) _ _
  dsimp only
  split <;> simp

@[simp] theorem State.poisonBuf_protSets (s : State) (d : DieIx) (c : PoolClass) (i unit : Nat) :
    (s.poisonBuf d c i unit).protSets = s.protSets := by
  refine (protSets_foldl (fun s g => ?_) _ _).trans (by simp)
  split
  · rfl
  · refine protSets_foldl (fun s h => ?_) _ _
    split
    · rfl
    · dsimp only
      split
      · rfl
      · split <;> simp

@[simp] theorem State.reloadEntry_protSets (s : State) (g gran) : (s.reloadEntry g gran).protSets = s.protSets := by simp [State.reloadEntry]

@[simp] theorem execMemoryUncorrectable_leavesProt (d k addr target) (s : State) :
    LeavesProt s.protSets (execMemoryUncorrectable d k addr target s) := by
  simp only [execMemoryUncorrectable]
  repeat' split
  all_goals simp

@[simp] theorem execLocationRetire_leavesProt (d k addr channel inBuffer) (s : State) :
    LeavesProt s.protSets (execLocationRetire d k addr channel inBuffer s) := by
  unfold execLocationRetire
  repeat' split
  all_goals simp

@[simp] theorem execMemTest_leavesProt {p} {s : State} (h : s.protSets = p) (d : DieIx) (w : Word) (checkOk : Bool) :
    LeavesProt p (execMemTest d w checkOk s) := by
  simp [execMemTest, h]

@[simp] theorem execMemCtrlCntClr_leavesProt (d) (s : State) : LeavesProt s.protSets (execMemCtrlCntClr d s) := by simp [execMemCtrlCntClr]
@[simp] theorem execZeroFillComplete_leavesProt (d) (s : State) : LeavesProt s.protSets (execZeroFillComplete d s) := by simp [execZeroFillComplete]

/-! Links, controllers and queues. -/

@[simp] theorem execPcieLinkTraining_leavesProt (d gen lanes) (s : State) : LeavesProt s.protSets (execPcieLinkTraining d gen lanes s) := by
  simp [execPcieLinkTraining]
@[simp] theorem execHostLinkDown_leavesProt (d) (s : State) : LeavesProt s.protSets (execHostLinkDown d s) := by simp [execHostLinkDown]
@[simp] theorem execPerstNAssert_leavesProt (d) (s : State) : LeavesProt s.protSets (execPerstNAssert d s) := by simp [execPerstNAssert]
@[simp] theorem execPerstNRelease_leavesProt (d) (s : State) : LeavesProt s.protSets (execPerstNRelease d s) := by simp [execPerstNRelease]
@[simp] theorem execFunctionLevelReset_leavesProt (d) (s : State) : LeavesProt s.protSets (execFunctionLevelReset d s) := by
  simp [execFunctionLevelReset]
@[simp] theorem execConfigRequest_leavesProt (d) (s : State) : LeavesProt s.protSets (execConfigRequest d s) := by simp [execConfigRequest]
@[simp] theorem State.controllerReady_protSets (s : State) (d) : (s.controllerReady d).protSets = s.protSets := by simp [State.controllerReady]
@[simp] theorem execControllerEnable_leavesProt (d asqs acqs) (s : State) : LeavesProt s.protSets (execControllerEnable d asqs acqs s) := by
  simp [execControllerEnable]

@[simp] theorem execControllerReset_leavesProt (d) (s : State) : LeavesProt s.protSets (execControllerReset d s) := by
  simp only [execControllerReset]
  repeat' split
  all_goals simp

@[simp] theorem State.sealOpen_protSets (s : State) (g) : (s.sealOpen g).protSets = s.protSets := by simp [State.sealOpen]
@[simp] theorem State.sealAllOpen_protSets (s : State) : s.sealAllOpen.protSets = s.protSets := by simp [State.sealAllOpen]
@[simp] theorem State.settleShutdown_protSets (s : State) (d) : (s.settleShutdown d).protSets = s.protSets := by simp [State.settleShutdown]
@[simp] theorem execNormalShutdown_leavesProt (d) (s : State) : LeavesProt s.protSets (execNormalShutdown d s) := by simp [execNormalShutdown]
@[simp] theorem execAbruptShutdown_leavesProt (d) (s : State) : LeavesProt s.protSets (execAbruptShutdown d s) := by simp [execAbruptShutdown]
@[simp] theorem execNvmSubsystemReset_leavesProt (d value) (s : State) : LeavesProt s.protSets (execNvmSubsystemReset d value s) := by
  simp [execNvmSubsystemReset]
@[simp] theorem State.badDoorbell_protSets (s : State) (d) : (s.badDoorbell d).protSets = s.protSets := by simp [State.badDoorbell]

@[simp] theorem execSubmissionQueueDoorbell_leavesProt (d qid tail) (s : State) :
    LeavesProt s.protSets (execSubmissionQueueDoorbell d qid tail s) := by
  simp only [execSubmissionQueueDoorbell]
  repeat' split
  all_goals simp

@[simp] theorem execCompletionQueueDoorbell_leavesProt (d qid head) (s : State) :
    LeavesProt s.protSets (execCompletionQueueDoorbell d qid head s) := by
  simp only [execCompletionQueueDoorbell]
  repeat' split
  all_goals simp

@[simp] theorem State.admin_leavesProt {s : State} {k : AdminKind} {ref : CmdRef} {f : State → State} (h : (f s).protSets = s.protSets) :
    LeavesProt s.protSets (s.admin k ref f) := State.adminThen_leavesProt (by simpa using h)

@[simp] theorem execCreateIoCompletionQueue_leavesProt (ref qid entries contiguous irqEn vector) (s : State) :
    LeavesProt s.protSets (execCreateIoCompletionQueue ref qid entries contiguous irqEn vector s) := by
  unfold execCreateIoCompletionQueue
  refine State.adminThen_leavesProt ?_
  dsimp only
  split <;> simp

@[simp] theorem State.autoLock_protSets (s : State) : s.autoLock.protSets = s.protSets := by simp [State.autoLock]

@[simp] theorem execCreateIoSubmissionQueue_leavesProt (ref qid entries cqid contiguous) (s : State) :
    LeavesProt s.protSets (execCreateIoSubmissionQueue ref qid entries cqid contiguous s) := by
  unfold execCreateIoSubmissionQueue
  refine State.adminThen_leavesProt ?_
  dsimp only
  split <;> simp

@[simp] theorem State.catchCmd_protSets (s : State) (x st) : (s.catchCmd x st).protSets = s.protSets := by simp [State.catchCmd]
@[simp] theorem execDeleteIoSubmissionQueue_leavesProt (ref qid) (s : State) : LeavesProt s.protSets (execDeleteIoSubmissionQueue ref qid s) := by
  simp [execDeleteIoSubmissionQueue]
@[simp] theorem execDeleteIoCompletionQueue_leavesProt (ref qid) (s : State) : LeavesProt s.protSets (execDeleteIoCompletionQueue ref qid s) := by
  simp [execDeleteIoCompletionQueue]

@[simp] theorem execAbort_leavesProt (ref sqid cid) (s : State) : LeavesProt s.protSets (execAbort ref sqid cid s) := by
  unfold execAbort
  refine State.adminThen_leavesProt ?_
  dsimp only
  split <;> simp

@[simp] theorem execAsynchronousEventRequest_leavesProt (ref) (s : State) : LeavesProt s.protSets (execAsynchronousEventRequest ref s) := by
  unfold execAsynchronousEventRequest
  refine State.adminThen_leavesProt ?_
  dsimp only
  repeat' split
  all_goals simp

/-! Namespaces, format and sanitize. -/

@[simp] theorem State.holdAdmin_protSets (s : State) (ref nsid) : (s.holdAdmin ref nsid).protSets = s.protSets := (rfl)

@[simp] theorem State.onceIdle_protSets {s : State} {ref : CmdRef} {nsid : Nat} {ids : List Nat} {f : State → State}
    (h : ∀ t, (f t).protSets = t.protSets) : (s.onceIdle ref nsid ids f).protSets = s.protSets := by
  simp [State.onceIdle, h]

@[simp] theorem State.newNamespaces_protSets (s : State) (ns) : (s.newNamespaces ns).protSets = s.protSets := by simp [State.newNamespaces]
@[simp] theorem State.drbgFailed_protSets (s : State) (ref) : (s.drbgFailed ref).protSets = s.protSets := by simp [State.drbgFailed]

@[simp] theorem execNamespaceManagementCreate_leavesProt (ref nsze ncap lbaf phandles drbgOk) (s : State) :
    LeavesProt s.protSets (execNamespaceManagementCreate ref nsze ncap lbaf phandles drbgOk s) := by
  unfold execNamespaceManagementCreate
  refine State.adminThen_leavesProt ?_
  dsimp only
  split <;> simp

@[simp] theorem execNamespaceManagementDelete_leavesProt (ref nsid) (s : State) :
    LeavesProt s.protSets (execNamespaceManagementDelete ref nsid s) := by
  simp [execNamespaceManagementDelete]

@[simp] theorem execNamespaceAttachment_leavesProt (ref nsid attach ctrls) (s : State) :
    LeavesProt s.protSets (execNamespaceAttachment ref nsid attach ctrls s) := by
  simp [execNamespaceAttachment]

@[simp] theorem State.setLbaf_protSets (s : State) (ids lbaf) : (s.setLbaf ids lbaf).protSets = s.protSets := by simp [State.setLbaf]

@[simp] theorem execFormatNvm_leavesProt (ref nsid lbaf) (s : State) : LeavesProt s.protSets (execFormatNvm ref nsid lbaf s) := by
  unfold execFormatNvm
  refine State.adminThen_leavesProt ?_
  dsimp only
  split <;> simp

@[simp] theorem State.eraseNow_protSets {s : State} {ref : CmdRef} {nsid : Nat} {ids : List Nat} {drbgOk : Bool} {f : State → State}
    (h : ∀ t, (f t).protSets = t.protSets) : (s.eraseNow ref nsid ids drbgOk f).protSets = s.protSets := by
  simp [State.eraseNow, h]

@[simp] theorem execFormatNvmCryptoErase_leavesProt (ref nsid lbaf drbgOk) (s : State) :
    LeavesProt s.protSets (execFormatNvmCryptoErase ref nsid lbaf drbgOk s) := by
  unfold execFormatNvmCryptoErase
  refine State.adminThen_leavesProt ?_
  dsimp only
  split <;> simp

@[simp] theorem State.sanitizeStart_protSets (s : State) (block) : (s.sanitizeStart block).protSets = s.protSets := by simp [State.sanitizeStart]
@[simp] theorem State.sanitizeRun_protSets (s : State) (ref block drbgOk) : (s.sanitizeRun ref block drbgOk).protSets = s.protSets := by
  simp [State.sanitizeRun]
@[simp] theorem execSanitizeCryptoErase_leavesProt (ref drbgOk) (s : State) : LeavesProt s.protSets (execSanitizeCryptoErase ref drbgOk s) := by
  simp [execSanitizeCryptoErase]
@[simp] theorem execSanitizeBlockErase_leavesProt (ref drbgOk) (s : State) : LeavesProt s.protSets (execSanitizeBlockErase ref drbgOk s) := by
  simp [execSanitizeBlockErase]
@[simp] theorem execSanitizeOverwrite_leavesProt (ref) (s : State) : LeavesProt s.protSets (execSanitizeOverwrite ref s) := by
  simp [execSanitizeOverwrite]
@[simp] theorem execSanitizeExitFailureMode_leavesProt (ref) (s : State) : LeavesProt s.protSets (execSanitizeExitFailureMode ref s) := by
  simp [execSanitizeExitFailureMode]

/-! Diapause. -/

@[simp] theorem execDiapausePrepare_leavesProt (ref) (s : State) : LeavesProt s.protSets (execDiapausePrepare ref s) := by simp [execDiapausePrepare]

@[simp] theorem State.captureAll_protSets (s : State) (g : RegionIx) : (s.captureAll g).protSets = s.protSets := by
  refine protSets_foldl (fun s i => ?_) _ _
  dsimp only
  split <;> simp

@[simp] theorem State.drainOnce_protSets (s : State) (g) : (s.drainOnce g).protSets = s.protSets := by simp [State.drainOnce]
@[simp] theorem State.drainJournal_protSets (s : State) (g) : (s.drainJournal g).protSets = s.protSets := by simp [State.drainJournal]

@[simp] theorem execDiapauseReady_leavesProt (s : State) : LeavesProt s.protSets (execDiapauseReady s) := by
  unfold execDiapauseReady
  split <;> simp

@[simp] theorem execDiapauseStatus_leavesProt (ref) (s : State) : LeavesProt s.protSets (execDiapauseStatus ref s) := by simp [execDiapauseStatus]

/-! The clockless fabric. -/

@[simp] theorem execVcoreOutOfWindow_leavesProt (d mv) (s : State) : LeavesProt s.protSets (execVcoreOutOfWindow d mv s) := by
  simp [execVcoreOutOfWindow]
@[simp] theorem execVcoreWindowRestored_leavesProt (d mv) (s : State) : LeavesProt s.protSets (execVcoreWindowRestored d mv s) := by
  simp [execVcoreWindowRestored]
@[simp] theorem execXtal25Stop_leavesProt (s : State) : LeavesProt s.protSets (execXtal25Stop s) := by simp [execXtal25Stop]

@[simp] theorem execXtal32kStop_leavesProt (s : State) : LeavesProt s.protSets (execXtal32kStop s) := by
  simp only [execXtal32kStop]
  repeat' split
  all_goals simp

@[simp] theorem State.bridgeAnswer_protSets (s : State) (toward tag) : (s.bridgeAnswer toward tag).protSets = s.protSets := by
  unfold State.bridgeAnswer
  repeat' split
  all_goals simp

@[simp] theorem execDieBridgeTransfer_leavesProt (toward tag crcOk) (s : State) :
    LeavesProt s.protSets (execDieBridgeTransfer toward tag crcOk s) := by
  simp [execDieBridgeTransfer]

@[simp] theorem execDieBridgeHandshakeTimeout_leavesProt (s : State) : LeavesProt s.protSets (execDieBridgeHandshakeTimeout s) := by
  simp [execDieBridgeHandshakeTimeout]

@[simp] theorem execCrossingReset_leavesProt (x phySide) (s : State) : LeavesProt s.protSets (execCrossingReset x phySide s) := by
  unfold execCrossingReset
  split <;> simp

@[simp] theorem execCrossingReadyHandshake_leavesProt (x) (s : State) : LeavesProt s.protSets (execCrossingReadyHandshake x s) := by
  simp [execCrossingReadyHandshake]
@[simp] theorem execPhyWakeRequest_leavesProt (x stopGrantedFirst) (s : State) : LeavesProt s.protSets (execPhyWakeRequest x stopGrantedFirst s) := by
  simp [execPhyWakeRequest]

@[simp] theorem execPhyIdleTimerExpiry_leavesProt (l wakeGrantedFirst) (s : State) :
    LeavesProt s.protSets (execPhyIdleTimerExpiry l wakeGrantedFirst s) := by
  simp [execPhyIdleTimerExpiry]

@[simp] theorem execPcieL12Entry_leavesProt (d) (s : State) : LeavesProt s.protSets (execPcieL12Entry d s) := by simp [execPcieL12Entry]
@[simp] theorem execPcieL12Exit_leavesProt (d) (s : State) : LeavesProt s.protSets (execPcieL12Exit d s) := by simp [execPcieL12Exit]

/-! Features. -/

@[simp] theorem State.updFeat_protSets (s : State) (ref f) : (s.updFeat ref f).protSets = s.protSets := (rfl)

@[simp] theorem State.setFeature_leavesProt (s : State) (ref : CmdRef) (fault : Option Status) (f : Features → Features) (dw0 : Word) :
    LeavesProt s.protSets (s.setFeature ref fault f dw0) := by
  refine State.admin_leavesProt ?_
  split <;> simp

@[simp] theorem execSetFeaturesTimestamp_leavesProt (ref ms) (s : State) : LeavesProt s.protSets (execSetFeaturesTimestamp ref ms s) := by
  simp [execSetFeaturesTimestamp]
@[simp] theorem execSetFeaturesArbitration_leavesProt (ref dw11) (s : State) : LeavesProt s.protSets (execSetFeaturesArbitration ref dw11 s) := by
  simp [execSetFeaturesArbitration]
@[simp] theorem execSetFeaturesPowerManagement_leavesProt (ref ps) (s : State) : LeavesProt s.protSets (execSetFeaturesPowerManagement ref ps s) := by
  simp [execSetFeaturesPowerManagement]

@[simp] theorem execSetFeaturesTemperatureThreshold_leavesProt (ref kelvin sel under) (s : State) :
    LeavesProt s.protSets (execSetFeaturesTemperatureThreshold ref kelvin sel under s) := by
  simp [execSetFeaturesTemperatureThreshold]

@[simp] theorem execSetFeaturesErrorRecovery_leavesProt (ref dw11) (s : State) : LeavesProt s.protSets (execSetFeaturesErrorRecovery ref dw11 s) := by
  simp [execSetFeaturesErrorRecovery]

@[simp] theorem execSetFeaturesNumberOfQueues_leavesProt (ref nsq ncq) (s : State) :
    LeavesProt s.protSets (execSetFeaturesNumberOfQueues ref nsq ncq s) := by
  simp [execSetFeaturesNumberOfQueues]

@[simp] theorem execSetFeaturesInterruptCoalescing_leavesProt (ref dw11) (s : State) :
    LeavesProt s.protSets (execSetFeaturesInterruptCoalescing ref dw11 s) := by
  simp [execSetFeaturesInterruptCoalescing]

@[simp] theorem execSetFeaturesInterruptVectorConfig_leavesProt (ref vector disable) (s : State) :
    LeavesProt s.protSets (execSetFeaturesInterruptVectorConfig ref vector disable s) := by
  simp [execSetFeaturesInterruptVectorConfig]

@[simp] theorem execSetFeaturesAsyncEventConfiguration_leavesProt (ref dw11) (s : State) :
    LeavesProt s.protSets (execSetFeaturesAsyncEventConfiguration ref dw11 s) := by
  simp [execSetFeaturesAsyncEventConfiguration]

@[simp] theorem execSetFeaturesApst_leavesProt (ref enable table) (s : State) : LeavesProt s.protSets (execSetFeaturesApst ref enable table s) := by
  simp [execSetFeaturesApst]

@[simp] theorem execSetFeaturesFdp_leavesProt (ref endgid index enable) (s : State) :
    LeavesProt s.protSets (execSetFeaturesFdp ref endgid index enable s) := by
  simp [execSetFeaturesFdp]

@[simp] theorem execSetFeaturesFdpEvents_leavesProt (ref handle types enable) (s : State) :
    LeavesProt s.protSets (execSetFeaturesFdpEvents ref handle types enable s) := by
  simp [execSetFeaturesFdpEvents]

@[simp] theorem execGetFeatures_leavesProt (ref fid dw11) (s : State) : LeavesProt s.protSets (execGetFeatures ref fid dw11 s) := by
  unfold execGetFeatures
  refine State.adminThen_leavesProt ?_
  dsimp only
  split <;> simp

@[simp] theorem execApstIdleTimer_leavesProt (d) (s : State) : LeavesProt s.protSets (execApstIdleTimer d s) := by simp [execApstIdleTimer]

/-! I/O commands. -/

@[simp] theorem State.endReads_protSets (s : State) (ref) : (s.endReads ref).protSets = s.protSets := by simp [State.endReads]
@[simp] theorem State.bridgeRequests_protSets (s : State) (c) : (s.bridgeRequests c).protSets = s.protSets := by simp [State.bridgeRequests]
@[simp] theorem State.fetch_protSets (s : State) (c) : (s.fetch c).protSets = s.protSets := by simp [State.fetch]
@[simp] theorem State.takeLooks_protSets (s : State) (c) : (s.takeLooks c).protSets = s.protSets := by simp [State.takeLooks]
@[simp] theorem State.lookHeld_protSets (s : State) (c g) : (s.lookHeld c g).protSets = s.protSets := by simp [State.lookHeld]

@[simp] theorem State.ioThen_leavesProt {s : State} {c : SlotCmd} {f : State → State} (h : ∀ t, (f t).protSets = t.protSets) :
    LeavesProt s.protSets (s.ioThen c f) := by
  simp only [State.ioThen]
  split
  · simp
  split
  · simp
  · simp only [leavesProt_next]
    split
    · simp
    · split <;> simp [h]

@[simp] theorem State.askFor_protSets (s : State) (c x) : (s.askFor c x).protSets = s.protSets := by
  unfold State.askFor
  split <;> simp

@[simp] theorem State.watchRead_protSets (s : State) (c x) : (s.watchRead c x).protSets = s.protSets := by simp [State.watchRead]
@[simp] theorem State.poisonedEntry_protSets (s : State) (c x) : (s.poisonedEntry c x).protSets = s.protSets := by simp [State.poisonedEntry]

@[simp] theorem State.readRanges_protSets (s : State) (c n ranges) : (s.readRanges c n ranges).1.protSets = s.protSets := by
  simp only [State.readRanges]
  repeat' split
  all_goals simp

@[simp] theorem State.darkEnd_protSets (s : State) (ref member) : (s.darkEnd ref member).protSets = s.protSets := by simp [State.darkEnd]
@[simp] theorem State.poisonMet_protSets (s : State) (ref) : (s.poisonMet ref).protSets = s.protSets := by simp [State.poisonMet]

@[simp] theorem execRead_leavesProt (ref : CmdRef) (nsid slba nlb : Nat) (s : State) : LeavesProt s.protSets (execRead ref nsid slba nlb s) := by
  simp only [execRead]
  refine State.ioThen_leavesProt fun s => ?_
  split
  · rfl
  split
  · simp
  split
  · next h => simp [protSets_of_fst h]
  · next h => simp [protSets_of_fst h]
  · next h => simp [protSets_of_fst h]

@[simp] theorem execVerify_leavesProt (ref : CmdRef) (nsid slba nlb : Nat) (s : State) : LeavesProt s.protSets (execVerify ref nsid slba nlb s) := by
  simp only [execVerify]
  refine State.ioThen_leavesProt fun s => ?_
  split
  · rfl
  split
  · next h => simp [protSets_of_fst h]
  · next h => simp [protSets_of_fst h]
  · next h => simp [protSets_of_fst h]

@[simp] theorem execFlush_leavesProt (ref nsid) (s : State) : LeavesProt s.protSets (execFlush ref nsid s) := by simp [execFlush]

@[simp] theorem State.takePieces_protSets (s : State) (d : DieIx) (ref : CmdRef) (xs : List (Nat × Nat × UpdKind)) :
    (s.takePieces d ref xs).1.protSets = s.protSets := by
  induction xs generalizing s with
  | nil => rfl
  | cons x xs ih =>
    simp only [State.takePieces]
    split
    · rfl
    split
    · simp
    · split
      · next h => simp [protSets_of_fst h, ih]
      · next h => simp [protSets_of_fst h, ih]

@[simp] theorem State.enterPend_protSets (s : State) (g d w p q win) : (s.enterPend g d w p q win).protSets = s.protSets := (rfl)

@[simp] theorem State.admitPiece_protSets (s : State) (d : DieIx) (w : WriteJob) (p : WritePiece) :
    (s.admitPiece d w p).1.protSets = s.protSets := by
  unfold State.admitPiece
  split
  · rfl
  · rfl
  · extract_lets g small fits through
    split
    · rfl
    · split
      · next h => simp [protSets_of_fst h]
      · next h =>
        split
        · simp [protSets_of_fst h]
        · split <;> simp [protSets_of_fst h]

@[simp] theorem State.admitPieces_protSets (s : State) (d : DieIx) (w : WriteJob) (ps : List WritePiece) :
    (s.admitPieces d w ps).1.protSets = s.protSets := by
  induction ps generalizing s with
  | nil => rfl
  | cons p ps ih => simp [State.admitPieces, ih]

@[simp] theorem State.refuseJob_protSets (s : State) (d w st) : (s.refuseJob d w st).protSets = s.protSets := by simp [State.refuseJob]
@[simp] theorem State.admitJob_protSets (s : State) (d w) : (s.admitJob d w).protSets = s.protSets := by simp [State.admitJob]
@[simp] theorem State.admitAll_protSets (s : State) (d) : (s.admitAll d).protSets = s.protSets := by simp [State.admitAll]
@[simp] theorem execWindowAdmit_leavesProt (d) (s : State) : LeavesProt s.protSets (execWindowAdmit d s) := by simp [execWindowAdmit]

@[simp] theorem State.startJob_protSets (s : State) (ref nsid stream data pieces) :
    (s.startJob ref nsid stream data pieces).protSets = s.protSets := by
  simp [State.startJob]

@[simp] theorem State.receiveData_protSets (s : State) (ref : CmdRef) (n : NamespaceRec) (stream : Byte) (range : LbaRange) (data : List Nat) :
    (s.receiveData ref n stream range data).protSets = s.protSets := by
  unfold State.receiveData
  split
  · next h => simp [protSets_of_fst h]
  · next h => simp [protSets_of_fst h]

@[simp] theorem execWrite_leavesProt (ref : CmdRef) (nsid slba nlb dtype dspec : Nat) (data : List Nat) (s : State) :
    LeavesProt s.protSets (execWrite ref nsid slba nlb dtype dspec data s) := by
  simp only [execWrite]
  refine State.ioThen_leavesProt fun s => ?_
  split
  · rfl
  · simp only [protSets_ite]
    split
    · simp
    split
    · simp
    · split <;> simp

@[simp] theorem State.zeroRanges_protSets (s : State) (ref n ranges) : (s.zeroRanges ref n ranges).protSets = s.protSets := by simp [State.zeroRanges]

@[simp] theorem execWriteZeroes_leavesProt (ref nsid slba nlb) (s : State) : LeavesProt s.protSets (execWriteZeroes ref nsid slba nlb s) := by
  unfold execWriteZeroes
  refine State.ioThen_leavesProt fun s => ?_
  split <;> simp

@[simp] theorem execDatasetManagement_leavesProt (ref nsid deallocate ranges) (s : State) :
    LeavesProt s.protSets (execDatasetManagement ref nsid deallocate ranges s) := by
  unfold execDatasetManagement
  refine State.ioThen_leavesProt fun s => ?_
  split <;> simp

@[simp] theorem execCopy_leavesProt (ref : CmdRef) (nsid sdlba : Nat) (src : List LbaRange) (s : State) :
    LeavesProt s.protSets (execCopy ref nsid sdlba src s) := by
  simp only [execCopy]
  refine State.ioThen_leavesProt fun s => ?_
  split
  · rfl
  split
  · simp
  split
  · simp
  split
  · simp
  · split
    · next h => simp [protSets_of_fst h]
    · next h => simp [protSets_of_fst h]
    · next h => simp [protSets_of_fst h]

@[simp] theorem State.xtsRefused_protSets (s : State) (d) : (s.xtsRefused d).protSets = s.protSets := by simp [State.xtsRefused]

@[simp] theorem State.takeCipher_protSets (s : State) (d u) : (s.takeCipher d u).1.protSets = s.protSets := by
  unfold State.takeCipher
  repeat' split
  all_goals simp

@[simp] theorem execXtsEncrypt_leavesProt (g : RegionIx) (gran seq : Nat) (refused : List Nat) (s : State) :
    LeavesProt s.protSets (execXtsEncrypt g gran seq refused s) := by
  simp only [execXtsEncrypt]
  split
  · simp
  split
  · next h => simp [protSets_of_fst h]
  · next h =>
    split
    · simp [protSets_of_fst h]
    split
    · simp [protSets_of_fst h]
    · split
      · simp [protSets_of_fst h]
      · simp only [leavesProt_next, State.refuseJob_protSets, State.updHost_protSets, State.updRegion_protSets, State.xtsRefused_protSets]
        split <;> simp [protSets_of_fst h]
    · simp [protSets_of_fst h]

/-! Log pages and Identify. -/

@[simp] theorem State.logWasRead_protSets (s : State) (d lid rae) : (s.logWasRead d lid rae).protSets = s.protSets := by simp [State.logWasRead]

@[simp] theorem execGetLogPage_leavesProt (ref lid nsid lsi lpo len rae) (s : State) :
    LeavesProt s.protSets (execGetLogPage ref lid nsid lsi lpo len rae s) := by
  unfold execGetLogPage
  refine State.adminThen_leavesProt ?_
  dsimp only
  split <;> simp

@[simp] theorem execIdentify_leavesProt (ref cns nsid cntid) (s : State) : LeavesProt s.protSets (execIdentify ref cns nsid cntid s) := by
  unfold execIdentify
  refine State.adminThen_leavesProt ?_
  dsimp only
  split <;> simp

@[simp] theorem execUnsupportedCommand_leavesProt (ref) (s : State) : LeavesProt s.protSets (execUnsupportedCommand ref s) := by
  simp [execUnsupportedCommand]

/-! The restore of the regions. -/

@[simp] theorem State.restoreRegion_protSets (s : State) (g x) : (s.restoreRegion g x).protSets = s.protSets := by
  unfold State.restoreRegion
  split <;> simp

@[simp] theorem State.scanOpen_protSets (s : State) (g x) : (s.scanOpen g x).protSets = s.protSets := by
  unfold State.scanOpen
  split <;> simp

@[simp] theorem State.applyRescued_protSets (s : State) (g x) : (s.applyRescued g x).protSets = s.protSets := (rfl)

@[simp] theorem State.settleBands_protSets (s : State) (g) : (s.settleBands g).protSets = s.protSets := by
  unfold State.settleBands
  split <;> simp

@[simp] theorem State.markBands_protSets (s : State) (g uncertain dark) : (s.markBands g uncertain dark).protSets = s.protSets := by
  simp [State.markBands]

@[simp] theorem State.settleLuns_protSets (s : State) (g : RegionIx) : (s.settleLuns g).protSets = s.protSets := by
  refine (protSets_foldl (fun s l => State.quarantineLane_protSets ..) _ _).trans
    ((protSets_foldl (fun s n => State.quarantineLun_protSets ..) _ _).trans (protSets_foldl (fun s n => ?_) _ _))
  split <;> simp

@[simp] theorem State.resumeSeq_protSets (s : State) (g) : (s.resumeSeq g).protSets = s.protSets := (rfl)
@[simp] theorem State.rescueBands_protSets (s : State) (g) : (s.rescueBands g).protSets = s.protSets := by simp [State.rescueBands]
@[simp] theorem State.journalBands_protSets (s : State) (c g) : (s.journalBands c g).protSets = s.protSets := by simp [State.journalBands]
@[simp] theorem State.firstBands_protSets (s : State) (g) : (s.firstBands g).protSets = s.protSets := by simp [State.firstBands]
@[simp] theorem State.firstSpare_protSets (s : State) (g) : (s.firstSpare g).protSets = s.protSets := by simp [State.firstSpare]
@[simp] theorem State.matchExtents_protSets (s : State) : s.matchExtents.protSets = s.protSets := by simp [State.matchExtents]
@[simp] theorem State.loadedTurns_protSets (s : State) (g) : (s.loadedTurns g).protSets = s.protSets := by simp [State.loadedTurns]
@[simp] theorem execMapSegmentLoad_leavesProt (g seg) (s : State) : LeavesProt s.protSets (execMapSegmentLoad g seg s) := by simp [execMapSegmentLoad]
@[simp] theorem State.eachRegion_protSets {s : State} {f : State → RegionIx → State} (h : ∀ t g, (f t g).protSets = t.protSets) :
    (s.eachRegion f).protSets = s.protSets := protSets_foldl h _ s
@[simp] theorem State.restoreAll_protSets (s : State) (facts) : (s.restoreAll facts).protSets = s.protSets := by simp [State.restoreAll]
@[simp] theorem State.regionsServe_protSets (s : State) : s.regionsServe.protSets = s.protSets := by simp [State.regionsServe]
@[simp] theorem execHostFetchStart_leavesProt (facts ms) (s : State) : LeavesProt s.protSets (execHostFetchStart facts ms s) := by
  simp [execHostFetchStart]

/-! The management port. -/

@[simp] theorem State.miAnswer_protSets (s : State) (tag code data) : (s.miAnswer tag code data).protSets = s.protSets := (rfl)
@[simp] theorem State.mpThen_leavesProt {s : State} {f : State → State} (h : (f s).protSets = s.protSets) : LeavesProt s.protSets (s.mpThen f) := by
  simp [State.mpThen, h]
@[simp] theorem execMctpPacket_leavesProt (pecOk) (s : State) : LeavesProt s.protSets (execMctpPacket pecOk s) := by simp [execMctpPacket]

@[simp] theorem execSetEndpointId_leavesProt (tag op eid) (s : State) : LeavesProt s.protSets (execSetEndpointId tag op eid s) := by
  unfold execSetEndpointId
  split <;> simp

@[simp] theorem execGetEndpointId_leavesProt (tag) (s : State) : LeavesProt s.protSets (execGetEndpointId tag s) := by simp [execGetEndpointId]
@[simp] theorem execGetEndpointUuid_leavesProt (tag) (s : State) : LeavesProt s.protSets (execGetEndpointUuid tag s) := by simp [execGetEndpointUuid]
@[simp] theorem execGetMctpVersionSupport_leavesProt (tag msgType) (s : State) : LeavesProt s.protSets (execGetMctpVersionSupport tag msgType s) := by
  simp [execGetMctpVersionSupport]
@[simp] theorem execGetMessageTypeSupport_leavesProt (tag) (s : State) : LeavesProt s.protSets (execGetMessageTypeSupport tag s) := by
  simp [execGetMessageTypeSupport]

@[simp] theorem execReadNvmeMiDataStructure_leavesProt (tag dtyp port ctrl) (s : State) :
    LeavesProt s.protSets (execReadNvmeMiDataStructure tag dtyp port ctrl s) := by
  unfold execReadNvmeMiDataStructure
  split <;> simp

@[simp] theorem execNvmSubsystemHealthStatusPoll_leavesProt (tag) (s : State) : LeavesProt s.protSets (execNvmSubsystemHealthStatusPoll tag s) := by
  simp [execNvmSubsystemHealthStatusPoll]

@[simp] theorem execControllerHealthStatusPoll_leavesProt (tag start maxEntries all) (s : State) :
    LeavesProt s.protSets (execControllerHealthStatusPoll tag start maxEntries all s) := by
  simp [execControllerHealthStatusPoll]

@[simp] theorem execConfigurationGet_leavesProt (tag id port) (s : State) : LeavesProt s.protSets (execConfigurationGet tag id port s) := by
  unfold execConfigurationGet
  repeat' split
  all_goals simp

@[simp] theorem execConfigurationSet_leavesProt (tag id port value) (s : State) :
    LeavesProt s.protSets (execConfigurationSet tag id port value s) := by
  unfold execConfigurationSet
  repeat' split
  all_goals simp

@[simp] theorem execBasicManagementCommand_leavesProt (tag code) (s : State) : LeavesProt s.protSets (execBasicManagementCommand tag code s) := by
  unfold execBasicManagementCommand
  split <;> simp

@[simp] theorem execAdminCommandTunnel_leavesProt (ctrl cid cmd) (s : State) : LeavesProt s.protSets (execAdminCommandTunnel ctrl cid cmd s) := by
  unfold execAdminCommandTunnel
  repeat' split
  all_goals simp

@[simp] theorem execMiUnsupportedCommand_leavesProt (tag) (s : State) : LeavesProt s.protSets (execMiUnsupportedCommand tag s) := by
  simp [execMiUnsupportedCommand]

end Sys2Proof.Machine
end

