-- ==== Sys2Proof/Proofs/ProtectionKeeper.lean ====
section
/-! Microwords and supplies leave the protection set and its mirror alone; so does a register write while LOCK is set. -/

namespace Sys2Proof.Machine

/-! Microwords. -/

@[simp] theorem State.micro_leavesProt {s : State} {l : LaneIx} {c : CtxIx} {word : BitVec 24} {inRange needsChannel : Bool}
    {go : State → QEntry → Ctx → State} (h : ∀ e k, (go s e k).protSets = s.protSets) :
    LeavesProt s.protSets (s.micro l c word inRange needsChannel go) := by
  simp only [State.micro]
  split
  · simp [h]
  · simp

@[simp] theorem State.advance_protSets (s : State) (l c k) : (s.advance l c k).protSets = s.protSets := (rfl)
@[simp] theorem State.jumpTo_protSets (s : State) (l c k t) : (s.jumpTo l c k t).protSets = s.protSets := (rfl)
@[simp] theorem State.writeW_protSets (s : State) (l c k d v) : (s.writeW l c k d v).protSets = s.protSets := (rfl)
@[simp] theorem execNop_leavesProt (l c) (s : State) : LeavesProt s.protSets (execNop l c s) := by simp [execNop]
@[simp] theorem execJmp_leavesProt (l c t) (s : State) : LeavesProt s.protSets (execJmp l c t s) := by simp [execJmp]

@[simp] theorem execBrc_leavesProt (l c cond t) (s : State) : LeavesProt s.protSets (execBrc l c cond t s) := by
  unfold execBrc
  refine State.micro_leavesProt fun e k => ?_
  split <;> simp

@[simp] theorem execCall_leavesProt (l c t) (s : State) : LeavesProt s.protSets (execCall l c t s) := by simp [execCall]

@[simp] theorem execRet_leavesProt (l c) (s : State) : LeavesProt s.protSets (execRet l c s) := by
  unfold execRet
  refine State.micro_leavesProt fun e k => ?_
  split <;> simp

@[simp] theorem execLdi_leavesProt (l c d v) (s : State) : LeavesProt s.protSets (execLdi l c d v s) := by simp [execLdi]
@[simp] theorem execLdu_leavesProt (l c d v) (s : State) : LeavesProt s.protSets (execLdu l c d v s) := by simp [execLdu]
@[simp] theorem execLdd_leavesProt (l c d word) (s : State) : LeavesProt s.protSets (execLdd l c d word s) := by simp [execLdd]
@[simp] theorem execAddi_leavesProt (l c d a v) (s : State) : LeavesProt s.protSets (execAddi l c d a v s) := by simp [execAddi]
@[simp] theorem execAlu_leavesProt (l c d a b f) (s : State) : LeavesProt s.protSets (execAlu l c d a b f s) := by simp [execAlu]
@[simp] theorem execCmp_leavesProt (l c a b) (s : State) : LeavesProt s.protSets (execCmp l c a b s) := by simp [execCmp]
@[simp] theorem execTbl_leavesProt (l c d t i) (s : State) : LeavesProt s.protSets (execTbl l c d t i s) := by simp [execTbl]
@[simp] theorem execSync_leavesProt (l c) (s : State) : LeavesProt s.protSets (execSync l c s) := by simp [execSync]
@[simp] theorem execYld_leavesProt (l c) (s : State) : LeavesProt s.protSets (execYld l c s) := by simp [execYld]
@[simp] theorem execCen_leavesProt (l c n) (s : State) : LeavesProt s.protSets (execCen l c n s) := by simp [execCen]
@[simp] theorem State.cycles_protSets (s : State) (l bs) : (s.cycles l bs).protSets = s.protSets := (rfl)
@[simp] theorem execCmd_leavesProt (l c fromProfile v) (s : State) : LeavesProt s.protSets (execCmd l c fromProfile v s) := by simp [execCmd]
@[simp] theorem execAdr_leavesProt (l c a n) (s : State) : LeavesProt s.protSets (execAdr l c a n s) := by simp [execAdr]
@[simp] theorem execAdx_leavesProt (l c a n) (s : State) : LeavesProt s.protSets (execAdx l c a n s) := by simp [execAdx]

@[simp] theorem State.burst_protSets (s : State) (l c e k len ptr toBuffer b) : (s.burst l c e k len ptr toBuffer b).protSets = s.protSets := by
  simp only [State.burst]
  split <;> simp

@[simp] theorem execDout_leavesProt (l c a b) (s : State) : LeavesProt s.protSets (execDout l c a b s) := by simp [execDout]
@[simp] theorem execDin_leavesProt (l c a b toDecoder) (s : State) : LeavesProt s.protSets (execDin l c a b toDecoder s) := by simp [execDin]
@[simp] theorem execStat_leavesProt (l c d enhanced st) (s : State) : LeavesProt s.protSets (execStat l c d enhanced st s) := by simp [execStat]
@[simp] theorem execWrdy_leavesProt (l c a st) (s : State) : LeavesProt s.protSets (execWrdy l c a st s) := by simp [execWrdy]
@[simp] theorem execTim_leavesProt (l c i) (s : State) : LeavesProt s.protSets (execTim l c i s) := by simp [execTim]
@[simp] theorem execWait_leavesProt (l c a) (s : State) : LeavesProt s.protSets (execWait l c a s) := by simp [execWait]

@[simp] theorem execLvl_leavesProt (l : LaneIx) (c : CtxIx) (d a : Fin 16) (b : Byte) (s : State) : LeavesProt s.protSets (execLvl l c d a b s) := by
  unfold execLvl
  refine State.micro_leavesProt fun e k => ?_
  dsimp only
  split
  · simp
  split
  · simp
  · split <;> simp

@[simp] theorem State.phyStep_protSets (s : State) (l ces step) : (s.phyStep l ces step).protSets = s.protSets := by
  unfold State.phyStep
  split <;> simp

@[simp] theorem execPhy_leavesProt (l c step) (s : State) : LeavesProt s.protSets (execPhy l c step s) := by simp [execPhy]
@[simp] theorem execLoop_leavesProt (l c d t) (s : State) : LeavesProt s.protSets (execLoop l c d t s) := by simp [execLoop]
@[simp] theorem execSusp_leavesProt (l c) (s : State) : LeavesProt s.protSets (execSusp l c s) := by simp [execSusp]
@[simp] theorem execSto_leavesProt (l c a word) (s : State) : LeavesProt s.protSets (execSto l c a word s) := by simp [execSto]
@[simp] theorem execEvt_leavesProt (l c n) (s : State) : LeavesProt s.protSets (execEvt l c n s) := by simp [execEvt]

@[simp] theorem execDone_leavesProt (l : LaneIx) (c : CtxIx) (status : Byte) (s : State) : LeavesProt s.protSets (execDone l c status s) := by
  unfold execDone
  refine State.micro_leavesProt fun e k => ?_
  split
  · rfl
  · extract_lets judged
    have hjudged : judged.protSets = s.protSets := by
      unfold judged
      split <;> simp
    split
    · simp [hjudged]
    · exact hjudged

@[simp] theorem execTrap_leavesProt (l c code) (s : State) : LeavesProt s.protSets (execTrap l c code s) := by simp [execTrap]

/-! Supply. -/

@[simp] theorem execRailWindowTimeout_leavesProt (r) (s : State) : LeavesProt s.protSets (execRailWindowTimeout r s) := by
  simp [execRailWindowTimeout]
@[simp] theorem execRegulatorStartTimeout_leavesProt (r) (s : State) : LeavesProt s.protSets (execRegulatorStartTimeout r s) := by
  simp [execRegulatorStartTimeout]
@[simp] theorem execBoardRailOutOfWindow_leavesProt (r above) (s : State) : LeavesProt s.protSets (execBoardRailOutOfWindow r above s) := by
  simp [execBoardRailOutOfWindow]
@[simp] theorem execVinOvervoltage_leavesProt (mv) (s : State) : LeavesProt s.protSets (execVinOvervoltage mv s) := by simp [execVinOvervoltage]

@[simp] theorem execPowerCapAverage_leavesProt (mw) (s : State) : LeavesProt s.protSets (execPowerCapAverage mw s) := by
  simp only [execPowerCapAverage]
  repeat' split
  all_goals simp

@[simp] theorem State.powerLost_protSets (s : State) : s.powerLost.protSets = s.protSets := by simp [State.powerLost]

@[simp] theorem State.onLoss_protSets (s : State) : s.onLoss.protSets = s.protSets := by
  unfold State.onLoss
  split <;> simp

@[simp] theorem execPwrLossNAssert_leavesProt (s : State) : LeavesProt s.protSets (execPwrLossNAssert s) := by simp [execPwrLossNAssert]
@[simp] theorem execVinBelowLossThreshold_leavesProt (s : State) : LeavesProt s.protSets (execVinBelowLossThreshold s) := by
  simp [execVinBelowLossThreshold]

@[simp] theorem execRescueComplete_leavesProt (tenUs) (s : State) : LeavesProt s.protSets (execRescueComplete tenUs s) := by
  unfold execRescueComplete
  split <;> simp

@[simp] theorem State.vinGone_protSets (s : State) : s.vinGone.protSets = s.protSets := by simp [State.vinGone]
@[simp] theorem execVinFall_leavesProt (s : State) : LeavesProt s.protSets (execVinFall s) := by simp [execVinFall]

@[simp] theorem execHuIsoRelease_leavesProt (inputPresent) (s : State) : LeavesProt s.protSets (execHuIsoRelease inputPresent s) := by
  simp only [execHuIsoRelease]
  repeat' split
  all_goals simp

@[simp] theorem execVinBelowWarning_leavesProt (mv) (s : State) : LeavesProt s.protSets (execVinBelowWarning mv s) := by simp [execVinBelowWarning]
@[simp] theorem State.startMeasure_protSets (s : State) : s.startMeasure.protSets = s.protSets := by simp [State.startMeasure]
@[simp] theorem execKprCtrlHuMeasure_leavesProt (s : State) : LeavesProt s.protSets (execKprCtrlHuMeasure s) := by simp [execKprCtrlHuMeasure]
@[simp] theorem execMeasurementIntervalExpiry_leavesProt (s : State) : LeavesProt s.protSets (execMeasurementIntervalExpiry s) := by
  simp [execMeasurementIntervalExpiry]
@[simp] theorem execHoldupWindowsEmpty_leavesProt (s : State) : LeavesProt s.protSets (execHoldupWindowsEmpty s) := by simp [execHoldupWindowsEmpty]
@[simp] theorem State.rechargeBank_protSets (s : State) : s.rechargeBank.protSets = s.protSets := (rfl)
@[simp] theorem State.measureFailed_protSets (s : State) : s.measureFailed.protSets = s.protSets := (rfl)
@[simp] theorem execHoldupSettleExpiry_leavesProt (v1) (s : State) : LeavesProt s.protSets (execHoldupSettleExpiry v1 s) := by
  simp [execHoldupSettleExpiry]

@[simp] theorem execHoldupDischargeCrossing_leavesProt (us) (s : State) : LeavesProt s.protSets (execHoldupDischargeCrossing us s) := by
  unfold execHoldupDischargeCrossing
  split <;> simp

@[simp] theorem execHoldupDischargeTimeout_leavesProt (s : State) : LeavesProt s.protSets (execHoldupDischargeTimeout s) := by
  unfold execHoldupDischargeTimeout
  split <;> simp

@[simp] theorem execHoldupRecharged_leavesProt (mv) (s : State) : LeavesProt s.protSets (execHoldupRecharged mv s) := by simp [execHoldupRecharged]
@[simp] theorem execHoldupChargeTimeout_leavesProt (s : State) : LeavesProt s.protSets (execHoldupChargeTimeout s) := by
  simp [execHoldupChargeTimeout]
@[simp] theorem execVauxLost_leavesProt (s : State) : LeavesProt s.protSets (execVauxLost s) := by simp [execVauxLost]

@[simp] theorem execVauxRise_leavesProt (s : State) : LeavesProt s.protSets (execVauxRise s) := by
  simp only [execVauxRise]
  repeat' split
  all_goals simp

@[simp] theorem execThermistorFault_leavesProt (n shorted) (s : State) : LeavesProt s.protSets (execThermistorFault n shorted s) := by
  simp [execThermistorFault]
@[simp] theorem execKeeperTemperatureCritical_leavesProt (t) (s : State) : LeavesProt s.protSets (execKeeperTemperatureCritical t s) := by
  simp [execKeeperTemperatureCritical]
@[simp] theorem execAdcSample_leavesProt (o) (s : State) : LeavesProt s.protSets (execAdcSample o s) := by simp [execAdcSample]

/-! Management space. -/

@[simp] theorem State.updIrq_protSets (s : State) (b f) : (s.updIrq b f).protSets = s.protSets := by
  unfold State.updIrq
  split <;> simp

@[simp] theorem State.after_protSets {s : State} {o : Out} (h : LeavesProt s.protSets o) : (s.after o).protSets = s.protSets := by
  cases o with
  | next t => exact h t rfl
  | fault _ => rfl
  | refused _ => rfl

@[simp] theorem State.writeMemTest_protSets (s : State) (d : DieIx) (w : Word) : (s.writeMemTest d w).protSets = s.protSets := by
  simp [State.writeMemTest]

/-- A register write changes the protection mirror only while LOCK is clear (R371). -/
theorem State.writeReg_protSets {s : State} {b : RegBlock} (h : b ≠ .prot ∨ s.keeper.boot.lock = true) (o : Nat) (w : Word) :
    (s.writeReg b o w).protSets = s.protSets := by
  unfold State.writeReg
  split
  · simp
  · cases b with
    | prot =>
      have hlock : s.keeper.boot.lock = true := h.resolve_left (absurd rfl)
      simp [hlock]
    | lane l =>
      have hclear : (if w.getLsbD 0 then s.after (execLneCtrlCntClr l s) else s).protSets = s.protSets := by simp
      dsimp only
      split
      · split
        · exact (State.after_protSets (execLneCtrlRetrain_leavesProt l _)).trans hclear
        · exact hclear
      · rfl
    | _ => simp

theorem execRegisterWrite_leavesProt {s : State} (hlock : s.keeper.boot.lock = true) (addr value : Word) :
    LeavesProt s.protSets (execRegisterWrite addr value s) := by
  unfold execRegisterWrite
  split
  · simp
  · split
    · simp
    · exact leavesProt_next.2 (State.writeReg_protSets (.inr hlock) ..)

@[simp] theorem State.countRefused_protSets (s : State) : s.countRefused.protSets = s.protSets := (rfl)
@[simp] theorem State.refuseAccess_protSets (s : State) (ref) : (s.refuseAccess ref).protSets = s.protSets := by simp [State.refuseAccess]
@[simp] theorem State.badMgmt_protSets (s : State) (ref) : (s.badMgmt ref).protSets = s.protSets := by simp [State.badMgmt]

@[simp] theorem State.readDword_protSets (s : State) (a) : (s.readDword a).1.protSets = s.protSets := by
  simp only [State.readDword]
  repeat' split
  all_goals simp

/-- Reading dwords one after the other leaves the protection set alone. -/
theorem foldl_readDword_protSets (as_ : List Nat) (p : State × List Word) :
    (as_.foldl (fun (p : State × List Word) (a : Nat) => ((p.1.readDword a).1, p.2 ++ [(p.1.readDword a).2])) p).1.protSets = p.1.protSets := by
  induction as_ generalizing p with
  | nil => rfl
  | cons a as_ ih => simp [ih]

@[simp] theorem execManagementRead_leavesProt (ref : CmdRef) (addr : Word) (numd : Nat) (s : State) :
    LeavesProt s.protSets (execManagementRead ref addr numd s) := by
  refine State.adminThen_leavesProt ?_
  dsimp only
  split
  · simp
  split
  · simp
  · split
    · simp
    · simp [foldl_readDword_protSets]

/-- A management write that misses the protection mirror. -/
theorem State.writeDword_protSets {a : Nat} (h : ∀ o, blockAt a ≠ some (.prot, o)) (s : State) (w : Word) :
    (s.writeDword a w).protSets = s.protSets := by
  unfold State.writeDword
  split
  · rfl
  · simp
  · next b o _ hb => exact State.writeReg_protSets (.inl fun hp => h o (hp ▸ hb)) o w

/-- A management write that names the protection mirror is refused (R371, R493). -/
theorem State.mgmtRefused_prot {a o : Nat} (h : blockAt a = some (.prot, o)) (s : State) (viaMi : Bool) : s.mgmtRefused viaMi true a = true := by
  simp [State.mgmtRefused, h]

@[simp] theorem execManagementWrite_leavesProt (ref : CmdRef) (addr : Word) (values : List Word) (s : State) :
    LeavesProt s.protSets (execManagementWrite ref addr values s) := by
  refine State.adminThen_leavesProt ?_
  dsimp only
  split
  · simp
  split
  · simp
  · next hgo =>
    have hmiss (a : Nat) (ha : a ∈ mgmtAddrs addr values.length) (o : Nat) : blockAt a ≠ some (.prot, o) := fun hb =>
      hgo (List.any_eq_true.2 ⟨a, ha, State.mgmtRefused_prot hb s ref.viaMi⟩)
    refine leavesProt_next.2 ((State.complete_protSets ..).trans ?_)
    refine List.foldlRecOn (motive := fun t : State => t.protSets = s.protSets) _ _ rfl fun t ht p hp => ?_
    exact (State.writeDword_protSets (hmiss p.1 (List.of_mem_zip hp).1) t p.2).trans ht

end Sys2Proof.Machine
end

