-- ==== Sys2Proof/Proofs/ProtectionHolds.lean ====
section
/-! Under LOCK only the release of D0 reaches the protection set or its mirror (R371, R421, R431). -/

namespace Sys2Proof.Machine

/-- Only the release of D0 starts the boot ROM, and only a clear LOCK lets a register write through to the mirror. -/
theorem exec_leavesProt {i : Instr} {s : State} (hlock : s.keeper.boot.lock = true) (hrelease : ∀ f, i ≠ .d0Release f) :
    LeavesProt s.protSets (exec i s) := by
  cases i with
  | d0Release f => exact absurd rfl (hrelease f)
  | registerWrite addr value => exact execRegisterWrite_leavesProt hlock addr value
  | _ => simp

/-- Settles O50: every operation but the boot ROM's check after the release of D0 leaves the protection set alone, a register write reaches the
mirror only while LOCK is clear, and a management write of it is refused. -/
theorem protectionHoldsUnderLock : Obligations.ProtectionHoldsUnderLock := by
  unfold Obligations.ProtectionHoldsUnderLock
  intro i s t hlock hrelease hrun
  exact Prod.ext_iff.1 (exec_leavesProt hlock hrelease t hrun)

end Sys2Proof.Machine
end

