-- ==== Sys2Proof/Proofs/StoreEraseTimeout.lean ====
section
/-! The end of an erase that timed out takes the next round of sectors with erase intent without regard to a program that runs (R429, R432, R437). -/

namespace Sys2Proof.Machine

/-- A sound store die: an erase of the round found at the start stands suspended beside a running program, and a sector of the other bank waits
for its fresh erase (R432, R437). -/
def suspendedBesideProgram : State := State.reset.updStore fun x => { x with
  ready := true
  prog := some { requester := .mainFirmware, offset := 0x20000, bytes := [0] }
  erase := some { requester := .keeper, sectors := [1], susp := .explicit, runTime := 0, fromIntent := true }
  intentPending := [1, 1024] }

theorem suspendedBesideProgram_storeKept : suspendedBesideProgram.storeKept := by decide +kernel

/-- STORE_ERASE_TIMEOUT there starts the next erase, and it runs beside the program. -/
theorem storeEraseTimeout_erasesBesideProgram : ∃ t p e, exec .storeEraseTimeout suspendedBesideProgram = .next t ∧
    t.store.prog = some p ∧ t.store.erase = some e ∧ e.susp = .running :=
  ⟨_, _, _, rfl, rfl, rfl, rfl⟩

/-- Refutes O46: after the timeout of a suspended erase the next one runs beside the program, which the invariant excludes. -/
theorem not_storeInvariantKept : ¬ Obligations.StoreInvariantKept := by
  unfold Obligations.StoreInvariantKept
  rintro ⟨hexec, -⟩
  obtain ⟨t, p, e, hrun, hprog, herase, hsusp⟩ := storeEraseTimeout_erasesBesideProgram
  obtain ⟨-, -, herases, -⟩ := hexec _ _ _ suspendedBesideProgram_storeKept hrun
  exact (herases e herase).2 (by simp [hprog]) hsusp

/-- Refutes O48, by its third part: STORE_ERASE_TIMEOUT of a suspended erase makes the next erase run while the program runs. -/
theorem not_programsAreNeverSuspended : ¬ Obligations.ProgramsAreNeverSuspended := by
  unfold Obligations.ProgramsAreNeverSuspended
  rintro ⟨-, -, hnever⟩
  obtain ⟨t, p, e, hrun, hprog, herase, hsusp⟩ := storeEraseTimeout_erasesBesideProgram
  exact hnever _ _ _ _ _ suspendedBesideProgram_storeKept hrun hprog herase hsusp

end Sys2Proof.Machine
end

