-- ==== Sys2Proof/Proofs/ArrayFrame.lean ====
section
/-! What leaves the array of the store die and the queue alone (R423, R429, R437): the update rules, the operations that the meanings share, and
regions, clocks, swarm tables and clusters. -/

namespace Sys2Proof.Machine

/-- The array of the store die and the queue. Only the end of a program or an erase and the index's erase of its tail reach the array, and only the
step takes from the queue. Where an operation leaves them alone by unfolding, its lemma's proof is `(rfl)`, which keeps it out of `dsimp`'s set:
`simp` uses no `dsimp` lemma under a premise about a function. -/
def State.still (s : State) : List Host.Cell × List Instr := (s.store.array, s.pending)

/-- An outcome that goes on leaves the array and the queue as `p`. -/
def LeavesStill (p : List Host.Cell × List Instr) (o : Out) : Prop := ∀ t, o = .next t → t.still = p
@[simp] theorem leavesStill_next {p} {t : State} : LeavesStill p (.next t) ↔ t.still = p :=
  ⟨fun h => h t rfl, fun h u e => by cases e; exact h⟩
@[simp] theorem leavesStill_unchanged {p} {s : State} : LeavesStill p (unchanged s) ↔ s.still = p := leavesStill_next
@[simp] theorem leavesStill_ite {p} {c : Prop} {_ : Decidable c} (a b : Out) :
    LeavesStill p (if c then a else b) ↔ if c then LeavesStill p a else LeavesStill p b := by split <;> rfl
@[simp] theorem still_ite {c : Prop} {_ : Decidable c} (a b : State) :
    (if c then a else b).still = if c then a.still else b.still := by split <;> rfl
@[simp] theorem still_dite {c : Prop} {_ : Decidable c} (a : c → State) (b : ¬ c → State) :
    (if h : c then a h else b h).still = if h : c then (a h).still else (b h).still := by split <;> rfl

@[simp] theorem still_foldl {α : Type} {f : State → α → State} (h : ∀ s x, (f s x).still = s.still) (l : List α) (s : State) :
    (l.foldl f s).still = s.still := by
  induction l generalizing s with
  | nil => rfl
  | cons x l ih => exact (ih _).trans (h s x)

@[simp] theorem still_mk (keeper : Keeper) (store : Store) (opt : OptionArea) (fw : Firmware) (dies : Vector DieSt 2) (regions : Vector RegionSt 4)
    (clusters : Vector ClusterSt 12) (lanes : Vector LaneSt 24) (sub : Subsys) (swarm : SwarmSt) (up : Bool) (pending : List Instr) (free : Nat) :
    (State.mk keeper store opt fw dies regions clusters lanes sub swarm up pending free).still = (store.array, pending) := (rfl)

@[simp] theorem still_eta (s : State) : (s.store.array, s.pending) = s.still := (rfl)
theorem still_ite_of {c : Prop} {_ : Decidable c} {a b : State} {p} (ha : a.still = p) (hb : b.still = p) :
    (if c then a else b).still = p := by split <;> assumption
theorem still_of_fst {α : Type} {p : State × α} {t : State} {x : α} (h : p = (t, x)) : t.still = p.1.still := by rw [h]
@[simp] theorem State.updStore_still {s : State} {f : Store → Store} (h : ∀ x, (f x).array = x.array) :
    (s.updStore f).still = s.still := congrArg (·, s.pending) (h s.store)

/-! Parts of the state, events. -/

@[simp] theorem State.updSup_still (s : State) (f) : (s.updSup f).still = s.still := (rfl)
@[simp] theorem State.updHu_still (s : State) (f) : (s.updHu f).still = s.still := (rfl)
@[simp] theorem State.updRescue_still (s : State) (f) : (s.updRescue f).still = s.still := (rfl)
@[simp] theorem State.updTk_still (s : State) (f) : (s.updTk f).still = s.still := (rfl)
@[simp] theorem State.updBoot_still (s : State) (f) : (s.updBoot f).still = s.still := (rfl)
@[simp] theorem State.updFc_still (s : State) (f) : (s.updFc f).still = s.still := (rfl)
@[simp] theorem State.updEv_still (s : State) (f) : (s.updEv f).still = s.still := (rfl)
@[simp] theorem State.updMp_still (s : State) (f) : (s.updMp f).still = s.still := (rfl)
@[simp] theorem State.updOpt_still (s : State) (f) : (s.updOpt f).still = s.still := (rfl)
@[simp] theorem State.updFw_still (s : State) (f) : (s.updFw f).still = s.still := (rfl)
@[simp] theorem State.updDie_still (s : State) (d f) : (s.updDie d f).still = s.still := (rfl)
@[simp] theorem State.updCommon_still (s : State) (d f) : (s.updCommon d f).still = s.still := (rfl)
@[simp] theorem State.updRegion_still (s : State) (g f) : (s.updRegion g f).still = s.still := (rfl)
@[simp] theorem State.updCluster_still (s : State) (c f) : (s.updCluster c f).still = s.still := (rfl)
@[simp] theorem State.updLane_still (s : State) (l f) : (s.updLane l f).still = s.still := (rfl)
@[simp] theorem State.setIrq_still (s : State) (src) : (s.setIrq src).still = s.still := by simp [State.setIrq]
@[simp] theorem State.sendToken_still (s : State) (b src d0 d1 injected) : (s.sendToken b src d0 d1 injected).still = s.still := by
  simp [State.sendToken]
@[simp] theorem State.raiseFrom_still (s : State) (b src d0 d1) : (s.raiseFrom b src d0 d1).still = s.still := by simp [State.raiseFrom]
@[simp] theorem State.openShadow_still (s : State) (d source scope own) : (s.openShadow d source scope own).still = s.still := by
  simp [State.openShadow]

/-! The applied option image. -/

@[simp] theorem State.raiseRail_still (s : State) (r above) : (s.raiseRail r above).still = s.still := (rfl)

/-! A lane engine: slots, order, completion. -/

@[simp] theorem State.raiseLane_still (s : State) (l k d) : (s.raiseLane l k d).still = s.still := by simp [State.raiseLane]
@[simp] theorem State.raiseLaneAll_still (s : State) (l k) : (s.raiseLaneAll l k).still = s.still := by simp [State.raiseLaneAll]
@[simp] theorem State.finishDesc_still (s : State) (l e st nand addr value) :
    (s.finishDesc l e st nand addr value).1.still = s.still := (rfl)
@[simp] theorem State.bind_still (s : State) (l c e op) : (s.bind l c e op).still = s.still := (rfl)

@[simp] theorem State.suspendIfDue_still (s : State) (l u) : (s.suspendIfDue l u).still = s.still := by
  simp only [State.suspendIfDue]
  repeat' split
  all_goals simp

@[simp] theorem State.balanceErases_still (s : State) (l) : (s.balanceErases l).still = s.still := by simp [State.balanceErases]
@[simp] theorem State.turns_still (s : State) (l) : (s.turns l).still = s.still := by simp [State.turns]

@[simp] theorem State.finishAll_still (s : State) (l : LaneIx) (st : LaneStatus) (es : List QEntry) :
    (s.finishAll l st es).1.still = s.still := by
  induction es generalizing s with
  | nil => rfl
  | cons e es ih => simp only [State.finishAll, ih, State.finishDesc_still]

@[simp] theorem State.abandonErases_still (s : State) (l which) : (s.abandonErases l which).1.still = s.still := by
  simp [State.abandonErases]
@[simp] theorem State.laneQuarantine_still (s : State) (l mask) : (s.laneQuarantine l mask).1.still = s.still := by
  simp [State.laneQuarantine]
@[simp] theorem State.laneStop_still (s : State) (l) : (s.laneStop l).1.still = s.still := by simp [State.laneStop]
@[simp] theorem State.enqueue_still (s : State) (l d p k) : (s.enqueue l d p k).still = s.still := by simp [State.enqueue]
@[simp] theorem State.refuseDesc_still (s : State) (l d) : (s.refuseDesc l d).still = s.still := by simp [State.refuseDesc]
@[simp] theorem State.laneReissue_still (s : State) (l) : (s.laneReissue l).still = s.still := (rfl)

/-! Crossings. -/

@[simp] theorem State.updCrossing_still (s : State) (x f) : (s.updCrossing x f).still = s.still := by
  unfold State.updCrossing
  split <;> simp

@[simp] theorem State.carry_still (s : State) (x out bytes) : (s.carry x out bytes).still = s.still := by simp [State.carry]
@[simp] theorem State.clockOrder_still (s : State) (on xs) : (s.clockOrder on xs).still = s.still := by simp [State.clockOrder]
@[simp] theorem State.bridgeSend_still (s : State) (toward item kind) : (s.bridgeSend toward item kind).still = s.still := by
  simp [State.bridgeSend]
@[simp] theorem State.clearBridge_still (s : State) : s.clearBridge.still = s.still := (rfl)

/-! Buffer pools and memory tables. -/

@[simp] theorem State.updPool_still (s : State) (d f) : (s.updPool d f).still = s.still := (rfl)
@[simp] theorem State.updMem_still (s : State) (d f) : (s.updMem d f).still = s.still := (rfl)
@[simp] theorem State.updCipher_still (s : State) (d f) : (s.updCipher d f).still = s.still := (rfl)
@[simp] theorem State.updHost_still (s : State) (d f) : (s.updHost d f).still = s.still := (rfl)
@[simp] theorem State.updSub_still (s : State) (f) : (s.updSub f).still = s.still := (rfl)
@[simp] theorem State.allocBuf_still (s : State) (d c i) : (s.allocBuf d c i).still = s.still := (rfl)
@[simp] theorem State.waitFor_still (s : State) (d r) : (s.waitFor d r).still = s.still := by simp [State.waitFor]
@[simp] theorem State.waitBuf_still (s : State) (d c k ref) : (s.waitBuf d c k ref).still = s.still := by simp [State.waitBuf]
@[simp] theorem State.pointerFault_still (s : State) (d ptr cause user) : (s.pointerFault d ptr cause user).still = s.still := by
  simp [State.pointerFault]
@[simp] theorem State.refFault_still (s : State) (d) : (s.refFault d).still = s.still := by simp [State.refFault]
@[simp] theorem State.updTable_still (s : State) (d k f) : (s.updTable d k f).still = s.still := (rfl)
@[simp] theorem State.retireLine_still (s : State) (d addr) : (s.retireLine d addr).still = s.still := by simp [State.retireLine]

@[simp] theorem State.dropBuf_still (s : State) (d c i) : (s.dropBuf d c i).still = s.still := by
  unfold State.dropBuf
  repeat' split
  all_goals simp

@[simp] theorem State.enterWindow_still (s : State) (d c i) : (s.enterWindow d c i).1.still = s.still := (rfl)

@[simp] theorem State.releaseWindow_still (s : State) (d id) : (s.releaseWindow d id).still = s.still := by
  unfold State.releaseWindow
  split <;> simp

/-! A region: map, bands, journal. -/

@[simp] theorem State.updTab_still (s : State) (g f) : (s.updTab g f).still = s.still := (rfl)
@[simp] theorem State.updJrn_still (s : State) (g f) : (s.updJrn g f).still = s.still := (rfl)
@[simp] theorem State.setEntry_still (s : State) (gran e) : (s.setEntry gran e).still = s.still := (rfl)
@[simp] theorem State.updBand_still (s : State) (g b f) : (s.updBand g b f).still = s.still := (rfl)
@[simp] theorem State.jot_still (s : State) (g x) : (s.jot g x).still = s.still := (rfl)
@[simp] theorem State.jotNow_still (s : State) (g x) : (s.jotNow g x).still = s.still := (rfl)
@[simp] theorem State.enterReadOnly_still (s : State) (g c) : (s.enterReadOnly g c).still = s.still := by simp [State.enterReadOnly]

@[simp] theorem State.takeSeqs_still (s : State) (g n) : (s.takeSeqs g n).1.still = s.still := by
  simp only [State.takeSeqs]
  repeat' split
  all_goals simp

@[simp] theorem State.takeSeq_still (s : State) (g) : (s.takeSeq g).1.still = s.still := by simp [State.takeSeq]

@[simp] theorem State.replaceAt_still (s : State) (g geo p b u) : (s.replaceAt g geo p b u).still = s.still := by
  simp only [State.replaceAt]
  repeat' split
  all_goals simp

@[simp] theorem State.replaceBad_still (s : State) (g geo p b) : (s.replaceBad g geo p b).still = s.still := by simp [State.replaceBad]
@[simp] theorem State.checkFree_still (s : State) (g) : (s.checkFree g).still = s.still := by simp [State.checkFree]

@[simp] theorem State.openBand_still (s : State) (g kind use d stream) : (s.openBand g kind use d stream).1.still = s.still := by
  simp only [State.openBand]
  repeat' split
  all_goals simp

@[simp] theorem State.jotFlags_still (s : State) (g b) : (s.jotFlags g b).still = s.still := (rfl)

@[simp] theorem State.dropCopies_still (s : State) (g : RegionIx) (b : Nat) (which : Placed → Bool) :
    (s.dropCopies g b which).still = s.still := by
  unfold State.dropCopies
  refine (still_foldl (fun s pl => ?_) _ _).trans (State.updBand_still ..)
  split <;> simp

@[simp] theorem State.dropUnmappable_still (s : State) (g b) : (s.dropUnmappable g b).still = s.still := by
  unfold State.dropUnmappable
  split <;> simp

@[simp] theorem State.sealBand_still (s : State) (g b short) : (s.sealBand g b short).still = s.still := by simp [State.sealBand]
@[simp] theorem State.sealIfFull_still (s : State) (g b) : (s.sealIfFull g b).still = s.still := by simp [State.sealIfFull]
@[simp] theorem State.bandFor_still (s : State) (g use d stream) : (s.bandFor g use d stream).1.still = s.still := by simp [State.bandFor]

@[simp] theorem State.placeIn_still (s : State) (g b mk) : (s.placeIn g b mk).1.still = s.still := by
  unfold State.placeIn
  split <;> simp

@[simp] theorem State.padOut_still (s : State) (g b) : (s.padOut g b).still = s.still := by
  unfold State.padOut
  split <;> simp

@[simp] theorem State.throughRow_still (s : State) (g b stream) : (s.throughRow g b stream).still = s.still := by simp [State.throughRow]
@[simp] theorem State.checkSpare_still (s : State) (g) : (s.checkSpare g).still = s.still := by simp [State.checkSpare]
@[simp] theorem State.checkSpares_still (s : State) : s.checkSpares.still = s.still := by simp [State.checkSpares]
@[simp] theorem State.checkWear_still (s : State) (g) : (s.checkWear g).still = s.still := by simp [State.checkWear]

/-! Frames that are read. -/

@[simp] theorem State.placeRun_still (s : State) (run) : (s.placeRun run).still = s.still := by
  unfold State.placeRun
  split <;> simp

@[simp] theorem State.admitRuns_still (s : State) (g : RegionIx) (n : Nat) : (s.admitRuns g n).still = s.still := by
  induction n generalizing s with
  | zero => rfl
  | succ n ih =>
    simp only [State.admitRuns]
    split <;> simp [ih]

@[simp] theorem State.raiseRun_still (s : State) (g b rank) : (s.raiseRun g b rank).still = s.still := (rfl)
@[simp] theorem State.freshId_still (s : State) : s.freshId.still = s.still := (rfl)
@[simp] theorem State.requestRun_still (s : State) (g b rank failedRow) : (s.requestRun g b rank failedRow).still = s.still := by
  simp [State.requestRun]

@[simp] theorem State.backgroundRun_still (s : State) (g) : (s.backgroundRun g).still = s.still := by
  simp only [State.backgroundRun]
  split <;> simp

@[simp] theorem State.updClimb_still (s : State) (c id f) : (s.updClimb c id f).still = s.still := (rfl)
@[simp] theorem State.addClimb_still (s : State) (c k) : (s.addClimb c k).still = s.still := (rfl)
@[simp] theorem State.wantFrame_still (s : State) (r) : (s.wantFrame r).still = s.still := by simp [State.wantFrame]
@[simp] theorem State.failStep_still (s : State) (c k) : (s.failStep c k).still = s.still := by simp [State.failStep]
@[simp] theorem State.readsFailed_still (s : State) (c : ClusterIx) (ids : List Nat) : (s.readsFailed c ids).still = s.still :=
  still_foldl (fun s id => by split <;> simp) ids s
@[simp] theorem State.updSweep_still (s : State) (c run f) : (s.updSweep c run f).still = s.still := (rfl)

@[simp] theorem State.climbsFail_still (s : State) (lun) : (s.climbsFail lun).still = s.still := by
  unfold State.climbsFail
  split <;> simp

@[simp] theorem State.endAsks_still (s : State) (out) : (s.endAsks out).still = s.still := by simp [State.endAsks]
@[simp] theorem State.stopClimbs_still (s : State) (which) : (s.stopClimbs which).still = s.still := by simp [State.stopClimbs]

@[simp] theorem State.wantFigs_still (s : State) (gran figs who ref) : (s.wantFigs gran figs who ref).still = s.still := by
  unfold State.wantFigs
  split <;> simp

@[simp] theorem State.wantCopy_still (s : State) (gran who) : (s.wantCopy gran who).still = s.still := by simp [State.wantCopy]

/-! The results of a region's lanes. -/

@[simp] theorem State.remap_still (s : State) (g gran new cas) : (s.remap g gran new cas).still = s.still := (rfl)
@[simp] theorem State.compareAndSet_still (s : State) (g pl b src) : (s.compareAndSet g pl b src).still = s.still := by
  simp [State.compareAndSet]

@[simp] theorem State.checkReclaimed_still (s : State) (g b) : (s.checkReclaimed g b).still = s.still := by
  simp only [State.checkReclaimed]
  split <;> simp

@[simp] theorem State.stampEighth_still (s : State) (g b row) : (s.stampEighth g b row).still = s.still := by
  unfold State.stampEighth
  split <;> simp

@[simp] theorem State.mapUpdate_still (s : State) (g pl b) : (s.mapUpdate g pl b).still = s.still := by
  unfold State.mapUpdate
  repeat' split
  all_goals simp

@[simp] theorem State.rowDone_still (s : State) (g : RegionIx) (b w u : Nat) : (s.rowDone g b w u).still = s.still := by
  unfold State.rowDone
  split
  · refine (still_foldl (fun s pl => ?_) _ _).trans (by simp)
    split <;> simp
  · rfl

@[simp] theorem State.accFree_still (s : State) (g p) : (s.accFree g p).still = s.still := (rfl)

@[simp] theorem State.parityDone_still (s : State) (g b w k) : (s.parityDone g b w k).still = s.still := by
  unfold State.parityDone
  split <;> simp

@[simp] theorem State.releaseFold_still (s : State) (g b which) : (s.releaseFold g b which).still = s.still := by simp [State.releaseFold]

@[simp] theorem State.foldNext_still (s : State) (g) : (s.foldNext g).still = s.still := by
  unfold State.foldNext
  repeat' split
  all_goals simp

@[simp] theorem State.foldGo_still (s : State) (g) : (s.foldGo g).still = s.still := by
  unfold State.foldGo
  split <;> simp

@[simp] theorem State.foldStart_still (s : State) (g) : (s.foldStart g).still = s.still := by simp [State.foldStart]

@[simp] theorem State.reclaimNext_still (s : State) (g k) : (s.reclaimNext g k).still = s.still := by
  simp only [State.reclaimNext]
  repeat' split
  all_goals simp

@[simp] theorem State.checkStaging_still (s : State) (g) : (s.checkStaging g).still = s.still := by
  unfold State.checkStaging
  split <;> simp

@[simp] theorem State.bandForCopy_still (s : State) (g : RegionIx) (c : Copy) (stream : Byte) :
    (s.bandForCopy g c stream).1.still = s.still := by
  unfold State.bandForCopy
  cases c.kind
  case fold => simp
  all_goals
    dsimp only
    split
    · simp
    · split
      · next h => simp [still_of_fst h]
      · next h => simp [still_of_fst h]

@[simp] theorem State.finishCopy_still (s : State) (g : RegionIx) (c : Copy) : (s.finishCopy g c).still = s.still := by
  simp only [State.finishCopy]
  split
  · simp
  split
  · rfl
  split
  · next h => simp only [still_of_fst h, State.bandForCopy_still]
  · next h =>
    split
    · next h' => simp only [still_of_fst h', State.takeSeq_still, still_of_fst h, State.bandForCopy_still]
    · next h' =>
      split <;> simp [still_of_fst h', still_of_fst h]

@[simp] theorem State.copyFrame_still (s : State) (q u) : (s.copyFrame q u).still = s.still := by
  simp only [State.copyFrame]
  split <;> simp

@[simp] theorem State.endCopy_still (s : State) (g gran) : (s.endCopy g gran).still = s.still := by simp [State.endCopy]
@[simp] theorem State.copyTurns_still (s : State) (g) : (s.copyTurns g).still = s.still := by simp [State.copyTurns]
@[simp] theorem State.settleCopies_still (s : State) (g) : (s.settleCopies g).still = s.still := (rfl)

@[simp] theorem State.addJournalBand_still (s : State) (g : RegionIx) (c : Fin 2) : (s.addJournalBand g c).still = s.still := by
  simp only [State.addJournalBand, State.settleCopies_still]
  split
  · next h => simp [still_of_fst h]
  · next h => simp [still_of_fst h]

@[simp] theorem State.refillJournal_still (s : State) (side) : (s.refillJournal side).still = s.still := by simp [State.refillJournal]

@[simp] theorem State.nextJournalBand_still (s : State) (g c) : (s.nextJournalBand g c).still = s.still := by
  unfold State.nextJournalBand
  split <;> simp

@[simp] theorem State.journalLost_still (s : State) (g n c) : (s.journalLost g n c).still = s.still := by simp [State.journalLost]

@[simp] theorem State.losePosition_still (s : State) (g lun) : (s.losePosition g lun).still = s.still := by
  simp only [State.losePosition]
  repeat' split
  all_goals simp

@[simp] theorem State.closeRebuild_still (s : State) (g spare) : (s.closeRebuild g spare).still = s.still := by
  simp only [State.closeRebuild]
  repeat' split
  all_goals simp

@[simp] theorem State.dropRebuild_still (s : State) (g b) : (s.dropRebuild g b).still = s.still := by simp [State.dropRebuild]
@[simp] theorem State.runsReleased_still (s : State) (g b) : (s.runsReleased g b).still = s.still := (rfl)

@[simp] theorem State.bandErased_still (s : State) (g b) : (s.bandErased g b).still = s.still := by
  unfold State.bandErased
  split <;> simp

@[simp] theorem State.eraseTurn_still (s : State) (g b) : (s.eraseTurn g b).still = s.still := by simp [State.eraseTurn]
@[simp] theorem State.intend_still (s : State) (g b) : (s.intend g b).still = s.still := (rfl)
@[simp] theorem State.eraseIntent_still (s : State) (g b) : (s.eraseIntent g b).still = s.still := by simp [State.eraseIntent]

@[simp] theorem State.eraseBand_still (s : State) (g b) : (s.eraseBand g b).still = s.still := by
  unfold State.eraseBand
  split <;> simp

@[simp] theorem State.placeAgain_still (s : State) (g : RegionIx) (b : Nat) (pl : Placed) : (s.placeAgain g b pl).still = s.still := by
  simp only [State.placeAgain]
  split
  · next h => simp [still_of_fst h]
  · next h =>
    split
    · next h' => simp [still_of_fst h', still_of_fst h]
    · next h' => simp [still_of_fst h', still_of_fst h]

@[simp] theorem State.padRow_still (s : State) (g b u w) : (s.padRow g b u w).still = s.still := by
  unfold State.padRow
  split <;> simp

@[simp] theorem State.placeLost_still (s : State) (g b) : (s.placeLost g b).still = s.still := by
  unfold State.placeLost
  split <;> simp

@[simp] theorem State.completeRow_still (s : State) (g b w) : (s.completeRow g b w).still = s.still := by
  unfold State.completeRow
  split <;> simp

@[simp] theorem State.completeRows_still (s : State) (g b from_) : (s.completeRows g b from_).still = s.still := by simp [State.completeRows]

@[simp] theorem State.positionEnds_still (s : State) (g b w u) : (s.positionEnds g b w u).still = s.still := by
  unfold State.positionEnds
  split <;> simp

@[simp] theorem State.sealOnLun_still (s : State) (g : RegionIx) (lun : Nat) : (s.sealOnLun g lun).still = s.still := by
  simp only [State.sealOnLun]
  split
  · rfl
  · refine still_foldl (fun s x => ?_) _ _
    split
    · rfl
    · split <;> simp

@[simp] theorem State.erasesOff_still (s : State) (g lun) : (s.erasesOff g lun).still = s.still := by simp [State.erasesOff]

@[simp] theorem State.abandonedWork_still (s : State) (d) : (s.abandonedWork d).still = s.still := by
  unfold State.abandonedWork
  split <;> simp

@[simp] theorem State.quarantineLun_still (s : State) (lun cause) : (s.quarantineLun lun cause).still = s.still := by
  unfold State.quarantineLun
  split <;> simp

@[simp] theorem State.quarantineLane_still (s : State) (l) : (s.quarantineLane l).still = s.still := by simp [State.quarantineLane]
@[simp] theorem State.retireBlock_still (s : State) (g lun blk cause) : (s.retireBlock g lun blk cause).still = s.still := by
  simp [State.retireBlock]
@[simp] theorem State.programLost_still (s : State) (g b w u lun blk retire) : (s.programLost g b w u lun blk retire).still = s.still := by
  simp [State.programLost]

@[simp] theorem State.relocateRow_still (s : State) (g b w) : (s.relocateRow g b w).still = s.still := by
  unfold State.relocateRow
  split <;> simp

@[simp] theorem State.parityLost_still (s : State) (g b w lun blk retire) : (s.parityLost g b w lun blk retire).still = s.still := by
  simp [State.parityLost]
@[simp] theorem State.journalFail_still (s : State) (g n c lun blk retire) : (s.journalFail g n c lun blk retire).still = s.still := by
  simp [State.journalFail]

@[simp] theorem State.rebuildRowDone_still (s : State) (g b spare rows) : (s.rebuildRowDone g b spare rows).still = s.still := by
  unfold State.rebuildRowDone
  split <;> simp

@[simp] theorem State.rebuildAgain_still (s : State) (g b spare cause) : (s.rebuildAgain g b spare cause).still = s.still := by
  unfold State.rebuildAgain
  split <;> simp

/-! The areas of the store die. -/

@[simp] theorem State.countErase_still (s : State) (n) : (s.countErase n).still = s.still := by simp [State.countErase]
@[simp] theorem State.countErases_still (s : State) (first n) : (s.countErases first n).still = s.still := by simp [State.countErases]
@[simp] theorem State.keeperLine_still (s : State) (k) : (s.keeperLine k).still = s.still := by simp [State.keeperLine]

/-! Timekeeping. -/

@[simp] theorem State.refreshMedia_still (s : State) : s.refreshMedia.still = s.still := (rfl)
@[simp] theorem State.addAge_still (s : State) (temp secs) : (s.addAge temp secs).still = s.still := (rfl)
@[simp] theorem State.writeTkRecord_still (s : State) : s.writeTkRecord.still = s.still := by simp [State.writeTkRecord]
@[simp] theorem State.startClocks_still (s : State) (kept darkMs) : (s.startClocks kept darkMs).still = s.still := by
  simp [State.startClocks]
@[simp] theorem State.setTimestamp_still (s : State) (ms) : (s.setTimestamp ms).still = s.still := by simp [State.setTimestamp]
@[simp] theorem State.addMinutes_still (s : State) (n) : (s.addMinutes n).still = s.still := (rfl)
@[simp] theorem State.minutePassed_still (s : State) : s.minutePassed.still = s.still := (rfl)
@[simp] theorem State.ticks_still (s : State) (n usecs) : (s.ticks n usecs).still = s.still := (rfl)
@[simp] theorem execThermalAgeAccumulate_leavesStill (s : State) : LeavesStill s.still (execThermalAgeAccumulate s) := by
  simp [execThermalAgeAccumulate]
@[simp] theorem execCarapaceTemperatureSample_leavesStill (s : State) : LeavesStill s.still (execCarapaceTemperatureSample s) := by
  simp [execCarapaceTemperatureSample]
@[simp] theorem execTimekeepingRecordWrite_leavesStill (s : State) : LeavesStill s.still (execTimekeepingRecordWrite s) := by
  simp [execTimekeepingRecordWrite]
@[simp] theorem execGapTimeout_leavesStill (s : State) : LeavesStill s.still (execGapTimeout s) := by simp [execGapTimeout]

/-! Completions and asynchronous events. -/

@[simp] theorem State.postAsync_still (s : State) (e) : (s.postAsync e).still = s.still := (rfl)
@[simp] theorem State.setPower_still (s : State) (ps) : (s.setPower ps).still = s.still := by simp [State.setPower]
@[simp] theorem State.wake_still (s : State) : s.wake.still = s.still := by simp [State.wake]
@[simp] theorem State.updSlots_still (s : State) (f) : (s.updSlots f).still = s.still := (rfl)

@[simp] theorem State.grantLookup_still (s : State) (g) : (s.grantLookup g).still = s.still := by
  unfold State.grantLookup
  repeat' split
  all_goals simp

@[simp] theorem State.lookupDone_still (s : State) (g) : (s.lookupDone g).still = s.still := by
  unfold State.lookupDone
  split <;> simp

@[simp] theorem State.endLooks_still (s : State) (x) : (s.endLooks x).still = s.still := by simp [State.endLooks]

@[simp] theorem State.completeWith_still (s : State) (ref st dw0 data) : (s.completeWith ref st dw0 data).still = s.still := by
  unfold State.completeWith
  split <;> simp

@[simp] theorem State.complete_still (s : State) (ref st dw0) : (s.complete ref st dw0).still = s.still := by simp [State.complete]
@[simp] theorem State.cancelReady_still (s : State) : s.cancelReady.still = s.still := by simp [State.cancelReady]

@[simp] theorem State.adminThen_leavesStill {s : State} {k : AdminKind} {ref : CmdRef} {f : State → Out} (h : LeavesStill s.still (f s)) :
    LeavesStill s.still (s.adminThen k ref f) := by
  unfold State.adminThen
  split
  · simp
  · split
    · simp
    · exact h

/-! The swarm's tables and messages. -/

@[simp] theorem State.updSwarm_still (s : State) (f) : (s.updSwarm f).still = s.still := (rfl)
@[simp] theorem State.updSession_still (s : State) (c f) : (s.updSession c f).still = s.still := (rfl)
@[simp] theorem State.updPeer_still (s : State) (c f) : (s.updPeer c f).still = s.still := (rfl)
@[simp] theorem State.sealWith_still (s : State) (c k f) : (s.sealWith c k f).still = s.still := by simp [State.sealWith]
@[simp] theorem State.sendFrom_still (s : State) (d hdr m) : (s.sendFrom d hdr m).still = s.still := by simp [State.sendFrom]
@[simp] theorem State.send_still (s : State) (hdr m) : (s.send hdr m).still = s.still := by simp [State.send]
@[simp] theorem State.newHdr_still (s : State) (peer) : (s.newHdr peer).1.still = s.still := (rfl)
@[simp] theorem State.request_still (s : State) (d hdr m) : (s.request d hdr m).still = s.still := by simp [State.request]
@[simp] theorem State.answer_still (s : State) (hdr m) : (s.answer hdr m).still = s.still := by simp [State.answer]
@[simp] theorem State.nak_still (s : State) (hdr reason refused) : (s.nak hdr reason refused).still = s.still := by simp [State.nak]
@[simp] theorem State.answeredBy_still (s : State) (hdr) : (s.answeredBy hdr).still = s.still := (rfl)

@[simp] theorem State.sendDurable_still (s : State) (g hdr m isAnswer) : (s.sendDurable g hdr m isAnswer).still = s.still := by
  unfold State.sendDurable
  split <;> simp

@[simp] theorem State.updSeg_still (s : State) (g band seg f) : (s.updSeg g band seg f).still = s.still := (rfl)
@[simp] theorem State.putStripe_still (s : State) (r) : (s.putStripe r).still = s.still := (rfl)
@[simp] theorem State.freeStripe_still (s : State) (stripe) : (s.freeStripe stripe).still = s.still := (rfl)
@[simp] theorem State.checkParity_still (s : State) : s.checkParity.still = s.still := by simp [State.checkParity]

@[simp] theorem State.postLight_still (s : State) (member reason) : (s.postLight member reason).still = s.still := by
  unfold State.postLight
  split <;> simp

@[simp] theorem State.deferred_still (s : State) (holder) : (s.deferred holder).still = s.still := by
  unfold State.deferred
  split <;> simp

@[simp] theorem State.backlogFell_still (s : State) : s.backlogFell.still = s.still := by simp [State.backlogFell]
@[simp] theorem State.startWork_still (s : State) (w) : (s.startWork w).still = s.still := by simp [State.startWork]
@[simp] theorem State.endWork_still (s : State) (w) : (s.endWork w).still = s.still := (rfl)
@[simp] theorem State.checkRetracted_still (s : State) (g b) : (s.checkRetracted g b).still = s.still := by simp [State.checkRetracted]

/-! The retry ladder. -/

@[simp] theorem State.countErrors_still (s : State) (l mismatch step1) : (s.countErrors l mismatch step1).still = s.still := (rfl)

@[simp] theorem State.queueJob_still (s : State) (home j) : (s.queueJob home j).still = s.still := by
  unfold State.queueJob
  repeat' split
  all_goals simp

@[simp] theorem State.reroute_still (s : State) (c soft) : (s.reroute c soft).still = s.still := by simp [State.reroute]

@[simp] theorem State.ageCorrection_still (s : State) (r) : (s.ageCorrection r).still = s.still := by
  unfold State.ageCorrection
  split <;> simp

@[simp] theorem State.markRefresh_still (s : State) (g b) : (s.markRefresh g b).still = s.still := by simp [State.markRefresh]
@[simp] theorem State.relocateSoon_still (s : State) (g gran) : (s.relocateSoon g gran).still = s.still := (rfl)
@[simp] theorem State.contribBlocked_still (s : State) (g b seg) : (s.contribBlocked g b seg).still = s.still := by
  simp [State.contribBlocked]
@[simp] theorem State.holdBand_still (s : State) (g b cause) : (s.holdBand g b cause).still = s.still := by simp [State.holdBand]
@[simp] theorem State.sendBlocked_still (s : State) (g b frame) : (s.sendBlocked g b frame).still = s.still := by simp [State.sendBlocked]
@[simp] theorem State.patrolFrame_still (s : State) (q step corrected ok) : (s.patrolFrame q step corrected ok).still = s.still := by
  simp [State.patrolFrame]

@[simp] theorem State.accRead_still (s : State) (q) : (s.accRead q).still = s.still := by
  simp only [State.accRead]
  repeat' split
  all_goals simp

@[simp] theorem State.deliverTo_still (s : State) (k q step corrected byOther ok u) :
    (s.deliverTo k q step corrected byOther ok u).still = s.still := by
  simp only [State.deliverTo]
  split <;> simp

@[simp] theorem State.endClimb_still (s : State) (c k step corrected byOther ok u) :
    (s.endClimb c k step corrected byOther ok u).still = s.still := by
  simp only [State.endClimb]
  repeat' split
  all_goals simp

@[simp] theorem State.countLun_still (s : State) (lun step4Failed) : (s.countLun lun step4Failed).still = s.still := by simp [State.countLun]
@[simp] theorem State.integrityMet_still (s : State) (g) : (s.integrityMet g).still = s.still := (rfl)
@[simp] theorem State.integrityRepaired_still (s : State) (g gran e) : (s.integrityRepaired g gran e).still = s.still := (rfl)
@[simp] theorem State.integrityLost_still (s : State) (g gran) : (s.integrityLost g gran).still = s.still := (rfl)
@[simp] theorem State.meetIntegrity_still (s : State) (gran) : (s.meetIntegrity gran).still = s.still := by simp [State.meetIntegrity]
@[simp] theorem State.failIntegrity_still (s : State) (c k) : (s.failIntegrity c k).still = s.still := by simp [State.failIntegrity]

@[simp] theorem State.frameReadDone_still (s : State) (c : ClusterIx) (ids : List Nat) (st : LaneStatus) :
    (s.frameReadDone c ids st).still = s.still := by
  refine still_foldl (fun s id => ?_) ids s
  split <;> simp

/-! Key slots. -/

@[simp] theorem State.loadSlots_still (s : State) (d k) : (s.loadSlots d k).still = s.still := (rfl)
@[simp] theorem State.loadBoth_still (s : State) (k) : (s.loadBoth k).still = s.still := by simp [State.loadBoth]

@[simp] theorem State.settleSanitize_still (s : State) : s.settleSanitize.still = s.still := by
  unfold State.settleSanitize
  split <;> simp

@[simp] theorem State.settleErase_still (s : State) : s.settleErase.still = s.still := by
  simp only [State.settleErase]
  repeat' split
  all_goals simp

/-! Completions above the lane. -/

@[simp] theorem State.countTimeout_still (s : State) (lun) : (s.countTimeout lun).still = s.still := by simp [State.countTimeout]
@[simp] theorem State.countProgram_still (s : State) (d) : (s.countProgram d).still = s.still := by simp [State.countProgram]
@[simp] theorem State.passDone_still (s : State) (g b w u d) : (s.passDone g b w u d).still = s.still := by simp [State.passDone]

@[simp] theorem State.onDone_still (s : State) (d) : (s.onDone d).still = s.still := by
  unfold State.onDone
  split <;> simp

@[simp] theorem State.onDoneAll_still (s : State) (ds) : (s.onDoneAll ds).still = s.still := by simp [State.onDoneAll]

end Sys2Proof.Machine
end

