-- ==== Sys2Proof/Proofs/ArrayFrameSwarm.lean ====
section
/-! Lanes, the map, the journal, keys, clusters and the swarm leave the array of the store die and the queue alone. -/

namespace Sys2Proof.Machine

/-! Descriptors and their submission. -/

@[simp] theorem State.deposit_still (s : State) (d ptr v) : (s.deposit d ptr v).still = s.still := by
  unfold State.deposit
  split <;> simp

@[simp] theorem State.sendReads_still (s : State) (l d ids) : (s.sendReads l d ids).still = s.still := by simp [State.sendReads]

theorem State.accTake_still {s t : State} {l : LaneIx} {g : RegionIx} {b u : Nat} {d : Descriptor} (h : s.accTake l g b u d = some t) :
    t.still = s.still := by
  simp only [State.accTake] at h
  split at h
  · cases h; rfl
  split at h
  · cases h; rfl
  split at h
  · cases h
  · cases h; rfl

@[simp] theorem State.holdFold_still (s : State) (l g b w u d) : (s.holdFold l g b w u d).still = s.still := by
  unfold State.holdFold
  split <;> simp

@[simp] theorem State.placeOwn_still (s : State) (reqs) : (s.placeOwn reqs).still = s.still := by simp [State.placeOwn]

/-- A submission that goes ahead leaves the array and the queue as `p`. -/
def Submission.LeavesStill (p : List Host.Cell × List Instr) : Submission → Prop
  | .go t _ => t.still = p
  | .notIt | .held => True

@[simp] theorem Submission.leavesStill_go {p} {t : State} {q : Purpose} : (Submission.go t q).LeavesStill p ↔ t.still = p := .rfl
@[simp] theorem Submission.leavesStill_notIt {p} : Submission.notIt.LeavesStill p := trivial
@[simp] theorem Submission.leavesStill_ite {p} {c : Prop} {_ : Decidable c} (x y : Submission) :
    Submission.LeavesStill p (if c then x else y) ↔ if c then x.LeavesStill p else y.LeavesStill p := by split <;> rfl

theorem State.submitData_leavesStill (s : State) (l : LaneIx) (d : Descriptor) (g : RegionIx) (b : Nat) :
    (s.submitData l d g b).LeavesStill s.still := by
  unfold State.submitData
  split
  · simp only [Submission.leavesStill_ite]
    split
    · trivial
    · split
      · next h => simp [Submission.LeavesStill, State.accTake_still h]
      · trivial
  · trivial

theorem State.submitParity_leavesStill (s : State) (l : LaneIx) (d : Descriptor) (g : RegionIx) (b : Nat) :
    (s.submitParity l d g b).LeavesStill s.still := by
  unfold State.submitParity
  split
  · dsimp only
    split
    · trivial
    split
    · trivial
    split
    · simp [Submission.LeavesStill]
    · split
      · next h => simp [Submission.LeavesStill, still_of_fst h]
      · trivial
  · trivial

theorem State.submission_leavesStill (s : State) (l : LaneIx) (d : Descriptor) (p : Purpose) :
    (s.submission l d p).LeavesStill s.still := by
  cases p
  case dataRow g b => exact s.submitData_leavesStill l d g b
  case parityRow g b => exact s.submitParity_leavesStill l d g b
  case plain =>
    simp only [State.submission]
    split <;> simp
  case rescue =>
    simp only [State.submission]
    split <;> simp
  all_goals simp [State.submission]

/-! Lane commands. -/

@[simp] theorem State.grantSlot_still (s : State) (l) : (s.grantSlot l).still = s.still := by
  simp only [State.grantSlot]
  repeat' split
  all_goals simp

@[simp] theorem execResourceSlotFree_leavesStill (r) (s : State) : LeavesStill s.still (execResourceSlotFree r s) := by
  simp only [execResourceSlotFree]
  repeat' split
  all_goals simp

@[simp] theorem execDescriptorSubmit_leavesStill (l : LaneIx) (d : Descriptor) (p : Purpose) (s : State) :
    LeavesStill s.still (execDescriptorSubmit l d p s) := by
  have hsub := s.submission_leavesStill l d p
  simp only [execDescriptorSubmit, leavesStill_ite]
  split
  · simp
  split
  · simp
  · simp
  · next t q h =>
    have ht : t.still = s.still := by simpa [h, Submission.LeavesStill] using hsub
    split
    · split <;> simp [ht]
    · simp [ht]

@[simp] theorem State.markDirty_still (s : State) (xs) : (s.markDirty xs).still = s.still := by simp [State.markDirty]
@[simp] theorem State.settle_still (s : State) (l e st nand addr value) : (s.settle l e st nand addr value).still = s.still := by
  simp [State.settle]

@[simp] theorem State.startOp_leavesStill {s : State} {l : LaneIx} {op : LaneOp} {go : State → CtxIx → QEntry → State}
    (h : ∀ t c e, (go t c e).still = t.still) : LeavesStill s.still (s.startOp l op go) := by
  simp only [State.startOp]
  split
  · simp
  · simp only [leavesStill_ite]
    split
    · simp
    split
    · simp
    split
    · simp
    · split <;> simp [h]

@[simp] theorem execReadPage_leavesStill (l) (s : State) : LeavesStill s.still (execReadPage l s) := by simp [execReadPage]
@[simp] theorem execReadSoft_leavesStill (l) (s : State) : LeavesStill s.still (execReadSoft l s) := by simp [execReadSoft]
@[simp] theorem execMarginRead_leavesStill (l) (s : State) : LeavesStill s.still (execMarginRead l s) := by simp [execMarginRead]
@[simp] theorem execOffsetSweep_leavesStill (l) (s : State) : LeavesStill s.still (execOffsetSweep l s) := by simp [execOffsetSweep]
@[simp] theorem execProgramPage_leavesStill (l) (s : State) : LeavesStill s.still (execProgramPage l s) := by simp [execProgramPage]
@[simp] theorem execProgramPass_leavesStill (l) (s : State) : LeavesStill s.still (execProgramPass l s) := by simp [execProgramPass]
@[simp] theorem execSetFeature_leavesStill (l) (s : State) : LeavesStill s.still (execSetFeature l s) := by simp [execSetFeature]
@[simp] theorem execGetFeature_leavesStill (l) (s : State) : LeavesStill s.still (execGetFeature l s) := by simp [execGetFeature]
@[simp] theorem execReadStatus_leavesStill (l) (s : State) : LeavesStill s.still (execReadStatus l s) := by simp [execReadStatus]
@[simp] theorem execEraseBlock_leavesStill (l) (s : State) : LeavesStill s.still (execEraseBlock l s) := by simp [execEraseBlock]

@[simp] theorem execSuspend_leavesStill (l : LaneIx) (s : State) : LeavesStill s.still (execSuspend l s) := by
  refine State.startOp_leavesStill fun s _ e => ?_
  dsimp only
  split
  · simp
  split
  · simp
  · split <;> simp

@[simp] theorem execResume_leavesStill (l) (s : State) : LeavesStill s.still (execResume l s) := by
  unfold execResume
  refine State.startOp_leavesStill fun t _ e => ?_
  split <;> simp

@[simp] theorem State.microFault_still (s : State) (l c e addr cause) : (s.microFault l c e addr cause).still = s.still := by
  simp [State.microFault]
@[simp] theorem State.trained_still (s : State) (l cause stepped) : (s.trained l cause stepped).still = s.still := (rfl)
@[simp] theorem State.laneUntrainable_still (s : State) (l) : (s.laneUntrainable l).still = s.still := by simp [State.laneUntrainable]
@[simp] theorem State.trainingLeft_still (s : State) (l) : (s.trainingLeft l).still = s.still := (rfl)
@[simp] theorem State.calibrate_still (s : State) (l ces put) : (s.calibrate l ces put).still = s.still := by simp [State.calibrate]

@[simp] theorem State.trainStep_still (s : State) (l : LaneIx) (ces : List (Fin 8)) (rate : Fin 3) (k : TrainStep) :
    (s.trainStep l ces rate k).still = s.still := by
  cases k <;> simp [State.trainStep]

@[simp] theorem State.runSteps_still (s : State) (l rate steps) : (s.runSteps l rate steps).still = s.still := by simp [State.runSteps]

@[simp] theorem State.fullTraining_still (s : State) (l : LaneIx) (cause : TrainCause) (stepped : Bool) (rate : Fin 3) (fuel : Nat)
    (tries : List Bool) : (s.fullTraining l cause stepped rate fuel tries).still = s.still := by
  induction fuel generalizing s stepped rate tries with
  | zero => simp [State.fullTraining]
  | succ fuel ih => simp [State.fullTraining, ih]

@[simp] theorem execTrain_leavesStill (l : LaneIx) (tries : List Bool) (s : State) : LeavesStill s.still (execTrain l tries s) := by
  unfold execTrain
  split
  · simp
  · refine State.startOp_leavesStill fun s _ e => ?_
    dsimp only
    split <;> simp

@[simp] theorem State.retrain_still (s : State) (l tries cause) : (s.retrain l tries cause).still = s.still := by simp [State.retrain]

@[simp] theorem execLaneRetrain_leavesStill (l tries) (s : State) : LeavesStill s.still (execLaneRetrain l tries s) := by
  unfold execLaneRetrain
  split <;> simp

@[simp] theorem execRetrainIdleTimeout_leavesStill (l tries) (s : State) : LeavesStill s.still (execRetrainIdleTimeout l tries s) := by
  unfold execRetrainIdleTimeout
  split <;> simp

@[simp] theorem execLneCtrlRetrain_leavesStill (l) (s : State) : LeavesStill s.still (execLneCtrlRetrain l s) := by simp [execLneCtrlRetrain]
@[simp] theorem execLneCtrlCntClr_leavesStill (l) (s : State) : LeavesStill s.still (execLneCtrlCntClr l s) := by simp [execLneCtrlCntClr]
@[simp] theorem execDqsDriftTrack_leavesStill (l drift) (s : State) : LeavesStill s.still (execDqsDriftTrack l drift s) := by
  simp [execDqsDriftTrack]
@[simp] theorem execZqShortCalibration_leavesStill (l) (s : State) : LeavesStill s.still (execZqShortCalibration l s) := by
  simp [execZqShortCalibration]
@[simp] theorem State.suspendConfirmed_still (s : State) (l r nand) : (s.suspendConfirmed l r nand).still = s.still := by
  simp [State.suspendConfirmed]
@[simp] theorem State.programFailed_still (s : State) (l d) : (s.programFailed l d).still = s.still := by simp [State.programFailed]
@[simp] theorem State.eraseFailed_still (s : State) (l d) : (s.eraseFailed l d).still = s.still := by simp [State.eraseFailed]
@[simp] theorem State.statusSeen_still (s : State) (l e st) : (s.statusSeen l e st).still = s.still := (rfl)

@[simp] theorem State.arrayDone_still (s : State) (l e op st r) : (s.arrayDone l e op st r).still = s.still := by
  simp only [State.arrayDone]
  repeat' split
  all_goals simp

@[simp] theorem execLunReady_leavesStill (l tag st r) (s : State) : LeavesStill s.still (execLunReady l tag st r s) := by
  unfold execLunReady
  repeat' split
  all_goals simp

@[simp] theorem execStatusTimeout_leavesStill (l tag) (s : State) : LeavesStill s.still (execStatusTimeout l tag s) := by
  unfold execStatusTimeout
  split <;> simp

@[simp] theorem execMinEraseRunTimeExpiry_leavesStill (l u) (s : State) : LeavesStill s.still (execMinEraseRunTimeExpiry l u s) := by
  unfold execMinEraseRunTimeExpiry
  split <;> simp

@[simp] theorem execMaxSuspendedTimeExpiry_leavesStill (l u) (s : State) : LeavesStill s.still (execMaxSuspendedTimeExpiry l u s) := by
  unfold execMaxSuspendedTimeExpiry
  split <;> simp

@[simp] theorem execLaneReset_leavesStill (l results) (s : State) : LeavesStill s.still (execLaneReset l results s) := by simp [execLaneReset]
@[simp] theorem State.rejectPatch_still (s : State) (l) : (s.rejectPatch l).still = s.still := by simp [State.rejectPatch]

@[simp] theorem State.loadPatch_still (s : State) (l words) : (s.loadPatch l words).still = s.still := by
  unfold State.loadPatch
  split <;> simp

@[simp] theorem execPatchLoad_leavesStill (l words) (s : State) : LeavesStill s.still (execPatchLoad l words s) := by simp [execPatchLoad]

/-! Writes that complete once durable. -/

@[simp] theorem State.dropPiece_still (s : State) (d p) : (s.dropPiece d p).still = s.still := by
  unfold State.dropPiece
  split <;> simp

@[simp] theorem State.countWrite_still (s : State) (w) : (s.countWrite w).still = s.still := (rfl)
@[simp] theorem State.settleWrites_still (s : State) : s.settleWrites.still = s.still := by simp [State.settleWrites]

@[simp] theorem State.placeJournal_still (s : State) (g n c) : (s.placeJournal g n c).still = s.still := by
  unfold State.placeJournal
  split <;> simp

@[simp] theorem State.releaseBand_still (s : State) (g b) : (s.releaseBand g b).still = s.still := by simp [State.releaseBand]
@[simp] theorem State.releaseJournalBands_still (s : State) (g) : (s.releaseJournalBands g).still = s.still := by
  simp [State.releaseJournalBands]
@[simp] theorem State.releaseImageBands_still (s : State) (g) : (s.releaseImageBands g).still = s.still := by simp [State.releaseImageBands]

@[simp] theorem State.takeImageSlot_still (s : State) (g c) : (s.takeImageSlot g c).1.still = s.still := by
  simp only [State.takeImageSlot]
  split <;> simp

/-! Segments and runs of swarm parity. -/

@[simp] theorem State.putNotice_still (s : State) (n) : (s.putNotice n).still = s.still := (rfl)
@[simp] theorem State.dropNotice_still (s : State) (g b u) : (s.dropNotice g b u).still = s.still := (rfl)

@[simp] theorem State.sendNotice_still (s : State) (g b u) : (s.sendNotice g b u).still = s.still := by
  simp only [State.sendNotice]
  split <;> simp

@[simp] theorem State.offerBand_still (s : State) (g b) : (s.offerBand g b).still = s.still := by simp [State.offerBand]

@[simp] theorem State.retractSegment_still (s : State) (g b u) : (s.retractSegment g b u).still = s.still := by
  simp only [State.retractSegment]
  split <;> simp

@[simp] theorem State.startRetracts_still (s : State) (g b) : (s.startRetracts g b).still = s.still := by simp [State.startRetracts]

@[simp] theorem State.takeRun_still (s : State) (g : RegionIx) (use : BandUse) (d : Density) : (s.takeRun g use d).1.still = s.still := by
  unfold State.takeRun
  split
  · rfl
  extract_lets filled opened
  have hopened : opened.still = s.still := by simp [opened, filled]
  clear_value opened
  split
  · exact hopened
  split
  · exact hopened
  split
  · next h => simp [still_of_fst h, hopened]
  · next h => simp [still_of_fst h, hopened]

@[simp] theorem State.moveRuns_still (s : State) (g : RegionIx) (b : Nat) : (s.moveRuns g b).still = s.still := by
  refine still_foldl (fun s r => ?_) _ _
  split
  · next h => simp [still_of_fst h]
  · next h => simp [still_of_fst h]

@[simp] theorem State.runsMoved_still (s : State) (g b) : (s.runsMoved g b).still = s.still := by
  unfold State.runsMoved
  split <;> simp

@[simp] theorem State.runTurns_still (s : State) (g : RegionIx) : (s.runTurns g).still = s.still := by
  unfold State.runTurns
  split
  · rfl
  · refine still_foldl (fun s q => ?_) _ _
    split <;> simp

@[simp] theorem State.retractAll_still (s : State) : s.retractAll.still = s.still := by simp [State.retractAll]

/-! The map, the journal and the checkpoints. -/

@[simp] theorem State.applyMerge_leavesStill (s : State) (g : RegionIx) (gran : Nat) (u : PendUpd) (ready : Bool)
    (covered : Fin 16 → Option Unit4K) : LeavesStill s.still (s.applyMerge g gran u ready covered) := by
  simp only [State.applyMerge]
  split
  · simp
  split
  · simp
  split
  · simp
  split
  · next h => simp [still_of_fst h]
  · next h =>
    split
    · next h' => simp [still_of_fst h', still_of_fst h]
    · next h' => simp [still_of_fst h', still_of_fst h]

@[simp] theorem execPendingUpdateApply_leavesStill (g gran) (s : State) : LeavesStill s.still (execPendingUpdateApply g gran s) := by
  simp only [execPendingUpdateApply]
  repeat' split
  all_goals simp

@[simp] theorem execJournalFrameTimer_leavesStill (g) (s : State) : LeavesStill s.still (execJournalFrameTimer g s) := by
  simp [execJournalFrameTimer]
@[simp] theorem State.rescueDrained_still (s : State) (g) : (s.rescueDrained g).still = s.still := by simp [State.rescueDrained]
@[simp] theorem State.recDurable_still (s : State) (g : RegionIx) (r : JRec) : (s.recDurable g r).still = s.still := by
  cases r <;> simp [State.recDurable]
@[simp] theorem State.openGate_still (s : State) (g n) : (s.openGate g n).still = s.still := by simp [State.openGate]

@[simp] theorem State.journalDurable_still (s : State) (g) : (s.journalDurable g).still = s.still := by
  unfold State.journalDurable
  split <;> simp

@[simp] theorem State.captureImage_still (s : State) (g image) : (s.captureImage g image).still = s.still := by
  simp only [State.captureImage]
  repeat' split
  all_goals simp

@[simp] theorem execCheckpointCapture_leavesStill (g) (s : State) : LeavesStill s.still (execCheckpointCapture g s) := by
  simp only [execCheckpointCapture]
  repeat' split
  all_goals simp

@[simp] theorem State.placeIndex_still (s : State) (x : IndexRec) : (s.placeIndex x).still = s.still := by
  have hhead (t : State) : (t.updStore Store.indexHeadOn).still = t.still := rfl
  simp [State.placeIndex, hhead]

@[simp] theorem State.loadAdopted_still (s : State) (g seg) : (s.loadAdopted g seg).still = s.still := by
  simp only [State.loadAdopted]
  repeat' split
  all_goals simp

@[simp] theorem execRgnQuery_leavesStill (g hi) (s : State) : LeavesStill s.still (execRgnQuery g hi s) := by simp [execRgnQuery]
@[simp] theorem execRgnCtrlCntClr_leavesStill (g) (s : State) : LeavesStill s.still (execRgnCtrlCntClr g s) := by simp [execRgnCtrlCntClr]

/-! Cipher engines and keys. -/

@[simp] theorem State.commitSet_still (s : State) (f) : (s.commitSet f).still = s.still := by
  unfold State.commitSet
  split <;> simp

@[simp] theorem State.drawKey_still (s : State) : s.drawKey.1.still = s.still := (rfl)

@[simp] theorem State.drawKeys_still (s : State) (ids : List Nat) : (s.drawKeys ids).1.still = s.still := by
  induction ids generalizing s with
  | nil => rfl
  | cons n ids ih => exact (ih _).trans s.drawKey_still

@[simp] theorem State.fitKeys_still (s : State) (ids) : (s.fitKeys ids).still = s.still := by
  unfold State.fitKeys
  split <;> simp

@[simp] theorem State.freshenRegion_still (s : State) (g nsid rec_) : (s.freshenRegion g nsid rec_).still = s.still := by
  simp [State.freshenRegion]
@[simp] theorem State.formatExtent_still (s : State) (nsid) : (s.formatExtent nsid).still = s.still := by simp [State.formatExtent]

@[simp] theorem State.beginErase_still (s : State) (ids ref) : (s.beginErase ids ref).still = s.still := by
  unfold State.beginErase
  split <;> simp

@[simp] theorem State.createExtent_still (s : State) (n) : (s.createExtent n).still = s.still := by simp [State.createExtent]
@[simp] theorem State.deleteExtent_still (s : State) (nsid) : (s.deleteExtent nsid).still = s.still := by simp [State.deleteExtent]
@[simp] theorem State.applyNamespaces_still (s : State) (old new) : (s.applyNamespaces old new).still = s.still := by
  simp [State.applyNamespaces]
@[simp] theorem State.hostChangedNs_still (s : State) : s.hostChangedNs.still = s.still := by simp [State.hostChangedNs]
@[simp] theorem State.unwrapFail_still (s : State) (d wlenOk) : (s.unwrapFail d wlenOk).still = s.still := by simp [State.unwrapFail]

@[simp] theorem State.installKey_still (s : State) (ref refused kek idOk b f) : (s.installKey ref refused kek idOk b f).still = s.still := by
  simp only [State.installKey]
  repeat' split
  all_goals simp

@[simp] theorem execSecuritySendKek_leavesStill (ref b) (s : State) : LeavesStill s.still (execSecuritySendKek ref b s) := by
  simp [execSecuritySendKek]

@[simp] theorem execSecuritySendNamespaceKey_leavesStill (ref nsid b) (s : State) :
    LeavesStill s.still (execSecuritySendNamespaceKey ref nsid b s) := by
  simp [execSecuritySendNamespaceKey]

@[simp] theorem execSecuritySendLock_leavesStill (ref) (s : State) : LeavesStill s.still (execSecuritySendLock ref s) := by
  simp [execSecuritySendLock]
@[simp] theorem execSecurityReceiveKeyStatus_leavesStill (ref) (s : State) : LeavesStill s.still (execSecurityReceiveKeyStatus ref s) := by
  simp [execSecurityReceiveKeyStatus]
@[simp] theorem execSecurityReceiveProtocolList_leavesStill (ref) (s : State) : LeavesStill s.still (execSecurityReceiveProtocolList ref s) := by
  simp [execSecurityReceiveProtocolList]
@[simp] theorem execCphCtrlCntClr_leavesStill (d) (s : State) : LeavesStill s.still (execCphCtrlCntClr d s) := by simp [execCphCtrlCntClr]

/-! Critical Warning. -/

@[simp] theorem State.settleWarnings_still (s : State) : s.settleWarnings.still = s.still := by simp [State.settleWarnings]

/-! Host ports. -/

@[simp] theorem State.endHostWork_still (s : State) (d) : (s.endHostWork d).still = s.still := by simp [State.endHostWork]
@[simp] theorem State.clearSlots_still (s : State) (d) : (s.clearSlots d).still = s.still := by simp [State.clearSlots]
@[simp] theorem State.hostReset_still (s : State) (d) : (s.hostReset d).still = s.still := by simp [State.hostReset]
@[simp] theorem State.hostLinkLost_still (s : State) (d) : (s.hostLinkLost d).still = s.still := by simp [State.hostLinkLost]
@[simp] theorem State.hostStopForGood_still (s : State) (ds) : (s.hostStopForGood ds).still = s.still := by simp [State.hostStopForGood]
@[simp] theorem State.hostPauseFetch_still (s : State) : s.hostPauseFetch.still = s.still := (rfl)
@[simp] theorem State.hostResumeFetch_still (s : State) : s.hostResumeFetch.still = s.still := by simp [State.hostResumeFetch]
@[simp] theorem State.hostFatal_still (s : State) : s.hostFatal.still = s.still := (rfl)

/-! HELLO packets. -/

@[simp] theorem State.putHello_still (s : State) (m) : (s.putHello m).still = s.still := (rfl)

/-! Cluster commands. -/

@[simp] theorem execFoldIdleTimer_leavesStill (g) (s : State) : LeavesStill s.still (execFoldIdleTimer g s) := by simp [execFoldIdleTimer]
@[simp] theorem State.takeJob_still (s : State) (c e j) : (s.takeJob c e j).still = s.still := (rfl)

@[simp] theorem execFrameDecode_leavesStill (c e src) (s : State) : LeavesStill s.still (execFrameDecode c e src s) := by
  simp only [execFrameDecode]
  repeat' split
  all_goals simp

@[simp] theorem State.engineFault_still (s : State) (c e cause j) : (s.engineFault c e cause j).still = s.still := by
  simp [State.engineFault]

@[simp] theorem State.decoded_still (s : State) (c home k step corrected) : (s.decoded c home k step corrected).still = s.still := by
  simp only [State.decoded]
  split <;> simp

@[simp] theorem State.judge_still (s : State) (c home k step corrected converged crcOk) :
    (s.judge c home k step corrected converged crcOk).still = s.still := by
  simp only [State.judge]
  repeat' split
  all_goals simp

@[simp] theorem State.jobDone_still (s : State) (c j corrected converged crcOk) :
    (s.jobDone c j corrected converged crcOk).still = s.still := by
  simp only [State.jobDone]
  split <;> simp

@[simp] theorem execDecodeComplete_leavesStill (c e res) (s : State) : LeavesStill s.still (execDecodeComplete c e res s) := by
  unfold execDecodeComplete
  repeat' split
  all_goals simp

@[simp] theorem execDecoderCompletionTimeout_leavesStill (c e) (s : State) : LeavesStill s.still (execDecoderCompletionTimeout c e s) := by
  unfold execDecoderCompletionTimeout
  split <;> simp

@[simp] theorem State.entriesLost_still (s : State) (k) : (s.entriesLost k).still = s.still := by simp [State.entriesLost]
@[simp] theorem State.climbOver_still (s : State) (c k) : (s.climbOver c k).still = s.still := by simp [State.climbOver]
@[simp] theorem State.copyDark_still (s : State) (member r) : (s.copyDark member r).still = s.still := by simp [State.copyDark]

@[simp] theorem State.ladderDark_still (s : State) (c k member) : (s.ladderDark c k member).still = s.still := by
  simp only [State.ladderDark]
  split <;> simp

@[simp] theorem State.stepLost_still (s : State) (c k n) : (s.stepLost c k n).still = s.still := by simp [State.stepLost]
@[simp] theorem State.rebuilt_still (s : State) (c k n crcOk) : (s.rebuilt c k n crcOk).still = s.still := by simp [State.rebuilt]
@[simp] theorem State.askMember_still (s : State) (c k member m) : (s.askMember c k member m).still = s.still := by simp [State.askMember]

@[simp] theorem State.searchRecord_still (s : State) (c k past) : (s.searchRecord c k past).still = s.still := by
  simp only [State.searchRecord]
  repeat' split
  all_goals simp

@[simp] theorem State.stepSix_still (s : State) (c k) : (s.stepSix c k).still = s.still := by
  simp only [State.stepSix]
  repeat' split
  all_goals simp

@[simp] theorem State.sixAnswered_still (s : State) (stripe position slot rowOk) :
    (s.sixAnswered stripe position slot rowOk).still = s.still := by
  simp [State.sixAnswered]

@[simp] theorem State.recordSeen_still (s : State) (r) : (s.recordSeen r).still = s.still := by simp [State.recordSeen]
@[simp] theorem State.sixRefused_still (s : State) (stripe past) : (s.sixRefused stripe past).still = s.still := by simp [State.sixRefused]
@[simp] theorem State.askAnew_still (s : State) (stripe) : (s.askAnew stripe).still = s.still := by simp [State.askAnew]

@[simp] theorem State.reconstruct_still (s : State) (c k facts) : (s.reconstruct c k facts).still = s.still := by
  unfold State.reconstruct
  split <;> simp

@[simp] theorem State.readStep_still (s : State) (c k) : (s.readStep c k).still = s.still := by simp [State.readStep]
@[simp] theorem State.serveRepaired_still (s : State) (c k e) : (s.serveRepaired c k e).still = s.still := by simp [State.serveRepaired]

@[simp] theorem execRetryLadderStep_leavesStill (c id facts) (s : State) : LeavesStill s.still (execRetryLadderStep c id facts s) := by
  unfold execRetryLadderStep
  repeat' split
  all_goals simp

@[simp] theorem State.patrolRead_still (s : State) (g b noValley) : (s.patrolRead g b noValley).still = s.still := by
  unfold State.patrolRead
  split <;> simp

@[simp] theorem execPatrolStart_leavesStill (g) (s : State) : LeavesStill s.still (execPatrolStart g s) := by
  unfold execPatrolStart
  repeat' split
  all_goals simp

@[simp] theorem execPatrolComplete_leavesStill (g b) (s : State) : LeavesStill s.still (execPatrolComplete g b s) := by
  unfold execPatrolComplete
  split <;> simp

@[simp] theorem execAntennaRunStart_leavesStill (c) (s : State) : LeavesStill s.still (execAntennaRunStart c s) := by
  simp only [execAntennaRunStart]
  repeat' split
  all_goals simp

@[simp] theorem State.releaseWaits_still (s : State) (g b noValley) : (s.releaseWaits g b noValley).still = s.still := by
  simp [State.releaseWaits]

@[simp] theorem execAntennaRunComplete_leavesStill (c) (s : State) : LeavesStill s.still (execAntennaRunComplete c s) := by
  unfold execAntennaRunComplete
  split <;> simp

@[simp] theorem execStagingRowTimeout_leavesStill (g b) (s : State) : LeavesStill s.still (execStagingRowTimeout g b s) := by
  simp [execStagingRowTimeout]

@[simp] theorem State.accReadBack_still (s : State) (c band row back) : (s.accReadBack c band row back).still = s.still := by
  simp only [State.accReadBack]
  split <;> simp

@[simp] theorem State.accDiscard_still (s : State) (c band row) : (s.accDiscard c band row).still = s.still := by simp [State.accDiscard]

@[simp] theorem execParityAccumulatorMemoryError_leavesStill (c corrected band row) (s : State) :
    LeavesStill s.still (execParityAccumulatorMemoryError c corrected band row s) := by
  simp [execParityAccumulatorMemoryError]

@[simp] theorem execCluCtrlCntClr_leavesStill (c) (s : State) : LeavesStill s.still (execCluCtrlCntClr c s) := by simp [execCluCtrlCntClr]

/-! Reclamation and rebuild of bands. -/

@[simp] theorem execReclaimStart_leavesStill (g k) (s : State) : LeavesStill s.still (execReclaimStart g k s) := by
  unfold execReclaimStart
  repeat' split
  all_goals simp

@[simp] theorem State.copyAlone_still (s : State) (g gran) : (s.copyAlone g gran).still = s.still := by simp [State.copyAlone]
@[simp] theorem execGranuleRelocate_leavesStill (g gran) (s : State) : LeavesStill s.still (execGranuleRelocate g gran s) := by
  simp [execGranuleRelocate]
@[simp] theorem State.resyncRow_still (s : State) (geo g b w) : (s.resyncRow geo g b w).still = s.still := by simp [State.resyncRow]
@[simp] theorem State.resyncEnds_still (s : State) (g b gone) : (s.resyncEnds g b gone).still = s.still := by simp [State.resyncEnds]

@[simp] theorem execBandResync_leavesStill (g b unreadable) (s : State) : LeavesStill s.still (execBandResync g b unreadable s) := by
  unfold execBandResync
  split <;> simp

@[simp] theorem State.loseSlot_still (s : State) (g b frame served) : (s.loseSlot g b frame served).still = s.still := by
  simp only [State.loseSlot]
  split <;> simp

@[simp] theorem execBandRebuild_leavesStill (g spare lost failed) (s : State) : LeavesStill s.still (execBandRebuild g spare lost failed s) := by
  simp only [execBandRebuild]
  repeat' split
  all_goals simp

/-! Leaders and holders of stripes. -/

@[simp] theorem State.foldParity_still (s : State) (stripe : Nat) : (s.foldParity stripe).still = s.still := by
  simp only [State.foldParity]
  split
  · rfl
  split
  · rfl
  split
  · rfl
  · split
    · next h => simp [still_of_fst h]
    · next h => simp [still_of_fst h]

@[simp] theorem State.advanceStripe_still (s : State) (stripe) : (s.advanceStripe stripe).still = s.still := by
  unfold State.advanceStripe
  split <;> simp

@[simp] theorem State.sendRecord_still (s : State) (r i) : (s.sendRecord r i).still = s.still := by
  unfold State.sendRecord
  split <;> simp

@[simp] theorem State.replicate_still (s : State) (r) : (s.replicate r).still = s.still := by simp [State.replicate]

@[simp] theorem State.sendAssign_still (s : State) (a) : (s.sendAssign a).still = s.still := by
  simp only [State.sendAssign]
  split <;> simp

@[simp] theorem State.settleAssigns_still (s : State) : s.settleAssigns.still = s.still := by simp [State.settleAssigns]
@[simp] theorem State.assignFreed_still (s : State) (stripe member) : (s.assignFreed stripe member).still = s.still := by
  simp [State.assignFreed]
@[simp] theorem State.closeStripe_still (s : State) (r) : (s.closeStripe r).still = s.still := by simp [State.closeStripe]

@[simp] theorem State.reserveStripes_still (s : State) : s.reserveStripes.still = s.still := by
  simp only [State.reserveStripes]
  split <;> simp

@[simp] theorem State.assignPosition_still (s : State) (hdr r) : (s.assignPosition hdr r).still = s.still := by simp [State.assignPosition]

@[simp] theorem State.onSealNotice_still (s : State) (hdr region seg band) : (s.onSealNotice hdr region seg band).still = s.still := by
  simp only [State.onSealNotice]
  repeat' split
  all_goals simp

@[simp] theorem State.emptyPosition_still (s : State) (stripe position) : (s.emptyPosition stripe position).still = s.still := by
  unfold State.emptyPosition
  split <;> simp

@[simp] theorem State.replaceHolder_still (s : State) (stripe member) : (s.replaceHolder stripe member).still = s.still := by
  unfold State.replaceHolder
  repeat' split
  all_goals simp

@[simp] theorem State.pushParity_still (s : State) (r i dest) : (s.pushParity r i dest).still = s.still := by simp [State.pushParity]

@[simp] theorem State.onStripeRecord_still (s : State) (hdr restore m) : (s.onStripeRecord hdr restore m).still = s.still := by
  unfold State.onStripeRecord
  repeat' split
  all_goals simp

@[simp] theorem State.onStripeAck_still (s : State) (hdr stripe version) : (s.onStripeAck hdr stripe version).still = s.still := by
  simp only [State.onStripeAck]
  split <;> simp

@[simp] theorem State.dropRx_still (s : State) (stripe) : (s.dropRx stripe).still = s.still := (rfl)

@[simp] theorem State.abandonRun_still (s : State) (stripe) : (s.abandonRun stripe).still = s.still := by
  simp only [State.abandonRun]
  split <;> simp

@[simp] theorem State.takePayload_still (s : State) (hdr : MsgHdr) (type stripe position index first count : Nat) (isRetract : Bool) :
    (s.takePayload hdr type stripe position index first count isRetract).still = s.still := by
  unfold State.takePayload
  split
  · simp
  split
  · simp
  split
  · simp
  split
  · simp
  split
  · rfl
  split
  · extract_lets busy g
    split
    · simp
    · split
      · next h => simp [still_of_fst h]
      · next h => simp [still_of_fst h]
  · split <;> simp

@[simp] theorem State.switchRun_still (s : State) (r position isRetract) : (s.switchRun r position isRetract).still = s.still := by
  simp [State.switchRun]

@[simp] theorem State.onContribDone_still (s : State) (hdr stripe position index crcOk) :
    (s.onContribDone hdr stripe position index crcOk).still = s.still := by
  unfold State.onContribDone
  repeat' split
  all_goals simp

@[simp] theorem State.onRetract_still (s : State) (hdr stripe position index first count neverSent release last behalf crcOk) :
    (s.onRetract hdr stripe position index first count neverSent release last behalf crcOk).still = s.still := by
  simp only [State.onRetract]
  repeat' split
  all_goals simp

/-! Rebuild and adoption. -/

@[simp] theorem State.relocateFrames_still (s : State) (g : RegionIx) (e : SegEntry) (slots : List Nat) :
    (s.relocateFrames g e slots).still = s.still := still_foldl (fun s n => by split <;> simp) slots s

@[simp] theorem State.onRebuildRead_still (s : State) (hdr stripe what index first count rows stepFive) :
    (s.onRebuildRead hdr stripe what index first count rows stepFive).still = s.still := by
  unfold State.onRebuildRead
  repeat' split
  all_goals simp

@[simp] theorem State.stripeTasks_still (s : State) (old : Option MemTable) (stripe : Nat) : (s.stripeTasks old stripe).still = s.still := by
  unfold State.stripeTasks
  split
  · rfl
  · refine still_foldl (fun s i => ?_) _ _
    split
    · rfl
    split
    · rfl
    · split
      · rfl
      split
      · simp
      · simp only [State.updSwarm_still]
        split <;> simp

@[simp] theorem State.buildTasks_still (s : State) (old) : (s.buildTasks old).still = s.still := by simp [State.buildTasks]
@[simp] theorem State.checkTasks_still (s : State) : s.checkTasks.still = s.still := by simp [State.checkTasks]
@[simp] theorem State.updTask_still (s : State) (t f) : (s.updTask t f).still = s.still := (rfl)

@[simp] theorem State.retractBehalf_still (s : State) (t) : (s.retractBehalf t).still = s.still := by
  simp only [State.retractBehalf]
  split <;> simp

@[simp] theorem State.sendPush_still (s : State) (t dest) : (s.sendPush t dest).still = s.still := by simp [State.sendPush]

@[simp] theorem execRebuildTaskStart_leavesStill (rows : List RowFacts) (dark : Option Nat) (applied : List Nat) (s : State) :
    LeavesStill s.still (execRebuildTaskStart rows dark applied s) := by
  simp only [execRebuildTaskStart]
  split
  · simp
  split
  · simp
  split
  · simp
  split
  · simp
  split
  · simp
  split
  · simp
  split
  · simp
  · split
    · next h => simp [still_of_fst h]
    · next h => simp [still_of_fst h]

@[simp] theorem State.offerPush_still (s : State) (reason stripe data index) : (s.offerPush reason stripe data index).still = s.still := by
  unfold State.offerPush
  repeat' split
  all_goals simp

@[simp] theorem execPushBusyRetry_leavesStill (stripe data index) (s : State) : LeavesStill s.still (execPushBusyRetry stripe data index s) := by
  simp [execPushBusyRetry]

@[simp] theorem execPushNoNamespaceRetry_leavesStill (stripe data index) (s : State) :
    LeavesStill s.still (execPushNoNamespaceRetry stripe data index s) := by
  simp [execPushNoNamespaceRetry]

@[simp] theorem State.checkLeave_still (s : State) : s.checkLeave.still = s.still := by simp [State.checkLeave]
@[simp] theorem State.setInaccessible_still (s : State) (l) : (s.setInaccessible l).still = s.still := by simp [State.setInaccessible]

@[simp] theorem State.restoreGran_still (s : State) (p : PushGran) : (s.restoreGran p).still = s.still := by
  simp only [State.restoreGran]
  split
  · rfl
  split
  · next h => simp [still_of_fst h]
  · next h =>
    split
    · next h' => simp [still_of_fst h', still_of_fst h]
    · next h' => simp [still_of_fst h', still_of_fst h]

@[simp] theorem State.checkRestored_still (s : State) : s.checkRestored.still = s.still := by
  unfold State.checkRestored
  split <;> simp

@[simp] theorem State.onPush_still (s : State) (hdr : MsgHdr) (stripe what index first count : Nat) (last crcOk : Bool)
    (record : Option StripeRec) (grans : List PushGran) :
    (s.onPush hdr stripe what index first count last crcOk record grans).still = s.still := by
  unfold State.onPush
  extract_lets open? next drop opened stored closed src applied pushed counted g
  have hdrop (t : State) : (drop t).still = t.still := State.updSwarm_still ..
  clear_value drop
  have hstored : stored.still = s.still := by simp [stored, opened, hdrop]
  have happlied : applied.still = s.still := by
    simp only [applied, closed]
    split
    · split
      · simp [hdrop, hstored]
      · split
        · next h => simp [still_of_fst h, hdrop, hstored]
        · next h => simp [still_of_fst h, hdrop, hstored]
    · simp [hdrop, hstored]
  have hcounted : counted.still = s.still := by
    simp only [counted]
    split <;> simp [pushed, happlied]
  clear_value counted stored
  simp [hdrop, hstored, hcounted]

@[simp] theorem State.retryBlocked_still (s : State) (w) : (s.retryBlocked w).still = s.still := by simp [State.retryBlocked]
@[simp] theorem State.takeRecord_still (s : State) (r) : (s.takeRecord r).still = s.still := by simp [State.takeRecord]

@[simp] theorem State.onRebuildReply_still (s : State) (hdr stripe what index first bad record) :
    (s.onRebuildReply hdr stripe what index first bad record).still = s.still := by
  simp only [State.onRebuildReply]
  repeat' split
  all_goals simp

@[simp] theorem State.onRebuildData_still (s : State) (hdr stripe what index first count last push reply crcOk bad record grans) :
    (s.onRebuildData hdr stripe what index first count last push reply crcOk bad record grans).still = s.still := by
  unfold State.onRebuildData
  repeat' split
  all_goals simp

/-! Epochs and the messages of swarm operations. -/

@[simp] theorem State.onSlotAssign_still (s : State) (hdr stripe position m holders) :
    (s.onSlotAssign hdr stripe position m holders).still = s.still := by
  simp only [State.onSlotAssign]
  split <;> simp

@[simp] theorem State.onContribReply_still (s : State) (hdr stripe position index) :
    (s.onContribReply hdr stripe position index).still = s.still := by
  simp only [State.onContribReply]
  split <;> simp

@[simp] theorem State.onRetractReply_still (s : State) (hdr stripe position index) :
    (s.onRetractReply hdr stripe position index).still = s.still := by
  simp only [State.onRetractReply]
  split <;> simp

@[simp] theorem State.repeatNotice_still (s : State) (n) : (s.repeatNotice n).still = s.still := by simp [State.repeatNotice]

@[simp] theorem State.restart_still (s : State) (q) : (s.restart q).still = s.still := by
  unfold State.restart
  repeat' split
  all_goals simp

@[simp] theorem State.refusedWork_still (s : State) (q reason) : (s.refusedWork q reason).still = s.still := by
  unfold State.refusedWork
  split <;> simp

@[simp] theorem State.onNak_still (s : State) (hdr reason refused) : (s.onNak hdr reason refused).still = s.still := by
  unfold State.onNak
  repeat' split
  all_goals simp

@[simp] theorem State.handle_still (s : State) (hdr : MsgHdr) (b : RxBody) : (s.handle hdr b).still = s.still := by
  cases b <;> simp [State.handle]

@[simp] theorem State.receive_still (s : State) (hdr b) : (s.receive hdr b).still = s.still := by
  unfold State.receive
  repeat' split
  all_goals simp

@[simp] theorem State.startHello_still (s : State) (peer rekey) : (s.startHello peer rekey).still = s.still := by simp [State.startHello]
@[simp] theorem State.startHellos_still (s : State) : s.startHellos.still = s.still := by simp [State.startHellos]
@[simp] theorem State.announce_still (s : State) (t) : (s.announce t).still = s.still := by simp [State.announce]
@[simp] theorem State.setFence_still (s : State) (t) : (s.setFence t).still = s.still := by simp [State.setFence]
@[simp] theorem State.takeOver_still (s : State) (before) : (s.takeOver before).still = s.still := by simp [State.takeOver]

@[simp] theorem State.startAdoption_still (s : State) (t) : (s.startAdoption t).still = s.still := by
  unfold State.startAdoption
  split <;> simp

@[simp] theorem State.sendRestores_still (s : State) (lost) : (s.sendRestores lost).still = s.still := by simp [State.sendRestores]

@[simp] theorem State.replaceLeaving_still (s : State) (c : Nat) : (s.replaceLeaving c).still = s.still := by
  refine still_foldl (fun s r => ?_) _ _
  split
  · rfl
  split
  · rfl
  · dsimp only
    split
    · simp
    · split <;> simp

@[simp] theorem State.applyLeaving_still (s : State) (t) : (s.applyLeaving t).still = s.still := by simp [State.applyLeaving]
@[simp] theorem State.takeHeld_still (s : State) : s.takeHeld.still = s.still := by simp [State.takeHeld]

@[simp] theorem State.applyTable_still (s : State) : s.applyTable.still = s.still := by
  unfold State.applyTable
  split <;> simp

@[simp] theorem State.settleEpoch_still (s : State) : s.settleEpoch.still = s.still := by
  simp only [State.settleEpoch]
  repeat' split
  all_goals simp

@[simp] theorem State.requestApply_still (s : State) : s.requestApply.still = s.still := by simp [State.requestApply]

@[simp] theorem execMembershipStageStage_leavesStill (ref offset len last table) (s : State) :
    LeavesStill s.still (execMembershipStageStage ref offset len last table s) := by
  unfold execMembershipStageStage
  refine State.adminThen_leavesStill ?_
  dsimp only
  repeat' split
  all_goals simp

@[simp] theorem execMembershipStageApply_leavesStill (ref) (s : State) : LeavesStill s.still (execMembershipStageApply ref s) := by
  unfold execMembershipStageApply
  refine State.adminThen_leavesStill ?_
  split <;> simp

@[simp] theorem execMembershipStageReadMemberKey_leavesStill (ref) (s : State) : LeavesStill s.still (execMembershipStageReadMemberKey ref s) := by
  simp [execMembershipStageReadMemberKey]

@[simp] theorem execMembershipStageReadTableHeader_leavesStill (ref) (s : State) :
    LeavesStill s.still (execMembershipStageReadTableHeader ref s) := by
  simp [execMembershipStageReadTableHeader]

@[simp] theorem execMembershipStageDiscard_leavesStill (ref) (s : State) : LeavesStill s.still (execMembershipStageDiscard ref s) := by
  simp [execMembershipStageDiscard]

@[simp] theorem execEpochAnnounce_leavesStill (hdr epoch hash) (s : State) : LeavesStill s.still (execEpochAnnounce hdr epoch hash s) := by
  unfold execEpochAnnounce
  repeat' split
  all_goals simp

@[simp] theorem execTrailingEpochTimeout_leavesStill (s : State) : LeavesStill s.still (execTrailingEpochTimeout s) := by
  unfold execTrailingEpochTimeout
  split <;> simp

@[simp] theorem execHeldMessageTimeout_leavesStill (i) (s : State) : LeavesStill s.still (execHeldMessageTimeout i s) := by
  unfold execHeldMessageTimeout
  split <;> simp

@[simp] theorem execEpochAheadRetry_leavesStill (peer opid) (s : State) : LeavesStill s.still (execEpochAheadRetry peer opid s) := by
  unfold execEpochAheadRetry
  split <;> simp

@[simp] theorem execSealNotice_leavesStill (hdr region seg band) (s : State) : LeavesStill s.still (execSealNotice hdr region seg band s) := by
  simp [execSealNotice]

@[simp] theorem execSlotAssign_leavesStill (hdr stripe position m version holders) (s : State) :
    LeavesStill s.still (execSlotAssign hdr stripe position m version holders s) := by
  simp [execSlotAssign]

@[simp] theorem execStripeRecord_leavesStill (hdr restore r) (s : State) : LeavesStill s.still (execStripeRecord hdr restore r s) := by
  simp [execStripeRecord]

@[simp] theorem execStripeRecordAck_leavesStill (hdr stripe version) (s : State) :
    LeavesStill s.still (execStripeRecordAck hdr stripe version s) := by
  simp [execStripeRecordAck]

@[simp] theorem execContribData_leavesStill (hdr stripe position index first count) (s : State) :
    LeavesStill s.still (execContribData hdr stripe position index first count s) := by
  simp [execContribData]

@[simp] theorem execContribDone_leavesStill (hdr stripe position index crcOk) (s : State) :
    LeavesStill s.still (execContribDone hdr stripe position index crcOk s) := by
  simp [execContribDone]

@[simp] theorem execContribDoneReply_leavesStill (hdr stripe position index) (s : State) :
    LeavesStill s.still (execContribDoneReply hdr stripe position index s) := by
  simp [execContribDoneReply]

@[simp] theorem execRetract_leavesStill (hdr stripe position index first count neverSent release last behalf crcOk) (s : State) :
    LeavesStill s.still (execRetract hdr stripe position index first count neverSent release last behalf crcOk s) := by
  simp [execRetract]

@[simp] theorem execRetractReply_leavesStill (hdr stripe position index) (s : State) :
    LeavesStill s.still (execRetractReply hdr stripe position index s) := by
  simp [execRetractReply]

@[simp] theorem execRebuildRead_leavesStill (hdr stripe what index first count rows stepFive) (s : State) :
    LeavesStill s.still (execRebuildRead hdr stripe what index first count rows stepFive s) := by
  simp [execRebuildRead]

@[simp] theorem execRebuildData_leavesStill (hdr stripe what index first count last push reply crcOk bad record grans) (s : State) :
    LeavesStill s.still (execRebuildData hdr stripe what index first count last push reply crcOk bad record grans s) := by
  simp [execRebuildData]

@[simp] theorem execNak_leavesStill (hdr reason refused _detail) (s : State) : LeavesStill s.still (execNak hdr reason refused _detail s) := by
  simp [execNak]
@[simp] theorem execSealNoticeTimeout_leavesStill (g b u) (s : State) : LeavesStill s.still (execSealNoticeTimeout g b u s) := by
  simp [execSealNoticeTimeout]

@[simp] theorem execSealNoticeRetry_leavesStill (g b u) (s : State) : LeavesStill s.still (execSealNoticeRetry g b u s) := by
  unfold execSealNoticeRetry
  split <;> simp

@[simp] theorem execStripeShortTimeout_leavesStill (stripe) (s : State) : LeavesStill s.still (execStripeShortTimeout stripe s) := by
  unfold execStripeShortTimeout
  split <;> simp

@[simp] theorem State.retryWork_still (s : State) (stripe position index reason) :
    (s.retryWork stripe position index reason).still = s.still := by
  unfold State.retryWork
  split <;> simp

@[simp] theorem execContribRetry_leavesStill (stripe position index) (s : State) :
    LeavesStill s.still (execContribRetry stripe position index s) := by
  simp [execContribRetry]

@[simp] theorem execContribBusyRetry_leavesStill (stripe position index) (s : State) :
    LeavesStill s.still (execContribBusyRetry stripe position index s) := by
  simp [execContribBusyRetry]

@[simp] theorem execRequestAnswerTimeout_leavesStill (peer opid) (s : State) : LeavesStill s.still (execRequestAnswerTimeout peer opid s) := by
  unfold execRequestAnswerTimeout
  repeat' split
  all_goals simp

@[simp] theorem execJournalFrameDurable_leavesStill (g) (s : State) : LeavesStill s.still (execJournalFrameDurable g s) := by
  simp [execJournalFrameDurable]

@[simp] theorem State.lightSatisfied_still (s : State) (c) : (s.lightSatisfied c).still = s.still := by
  unfold State.lightSatisfied
  split <;> simp

@[simp] theorem State.darkOver_still (s : State) (c g) : (s.darkOver c g).still = s.still := by simp [State.darkOver]

@[simp] theorem State.askRecord_still (s : State) (w) : (s.askRecord w).still = s.still := by
  unfold State.askRecord
  split <;> simp

@[simp] theorem State.retryHolds_still (s : State) (c) : (s.retryHolds c).still = s.still := by simp [State.retryHolds]
@[simp] theorem State.peerLights_still (s : State) (c) : (s.peerLights c).still = s.still := by simp [State.peerLights]
@[simp] theorem execPeerLit_leavesStill (c) (s : State) : LeavesStill s.still (execPeerLit c s) := by simp [execPeerLit]
@[simp] theorem execHeartbeat_leavesStill (peer status applied) (s : State) : LeavesStill s.still (execHeartbeat peer status applied s) := by
  simp [execHeartbeat]
@[simp] theorem execHeartbeatSendTimer_leavesStill (peer) (s : State) : LeavesStill s.still (execHeartbeatSendTimer peer s) := by
  simp [execHeartbeatSendTimer]
@[simp] theorem execLightRequest_leavesStill (peer r cancel) (s : State) : LeavesStill s.still (execLightRequest peer r cancel s) := by
  simp [execLightRequest]
@[simp] theorem execDarkWaitExpiry_leavesStill (ref) (s : State) : LeavesStill s.still (execDarkWaitExpiry ref s) := by simp [execDarkWaitExpiry]

/-! The Lenos link. -/

@[simp] theorem State.updPort_still (s : State) (d f) : (s.updPort d f).still = s.still := (rfl)

@[simp] theorem execSwarmLinkTraining_leavesStill (d partner) (s : State) : LeavesStill s.still (execSwarmLinkTraining d partner s) := by
  unfold execSwarmLinkTraining
  repeat' split
  all_goals simp

@[simp] theorem State.swarmPortDown_still (s : State) (d) : (s.swarmPortDown d).still = s.still := by simp [State.swarmPortDown]
@[simp] theorem execSwarmPortLinkDown_leavesStill (d) (s : State) : LeavesStill s.still (execSwarmPortLinkDown d s) := by
  simp [execSwarmPortLinkDown]
@[simp] theorem State.portAnswer_still (s : State) (d kind target) : (s.portAnswer d kind target).still = s.still := by
  simp [State.portAnswer]
@[simp] theorem execNeighborSolicitation_leavesStill (d target) (s : State) : LeavesStill s.still (execNeighborSolicitation d target s) := by
  simp [execNeighborSolicitation]
@[simp] theorem execArpRequest_leavesStill (d target) (s : State) : LeavesStill s.still (execArpRequest d target s) := by simp [execArpRequest]
@[simp] theorem execEchoRequest_leavesStill (d target) (s : State) : LeavesStill s.still (execEchoRequest d target s) := by simp [execEchoRequest]
@[simp] theorem execOtherInboundPacket_leavesStill (d) (s : State) : LeavesStill s.still (execOtherInboundPacket d s) := by
  simp [execOtherInboundPacket]
@[simp] theorem execSwmCtrlCntClr_leavesStill (d) (s : State) : LeavesStill s.still (execSwmCtrlCntClr d s) := by simp [execSwmCtrlCntClr]

@[simp] theorem execLenosPacket_leavesStill (d p) (s : State) : LeavesStill s.still (execLenosPacket d p s) := by
  unfold execLenosPacket
  repeat' split
  all_goals simp

@[simp] theorem State.establish_still (s : State) (h) : (s.establish h).still = s.still := by
  simp only [State.establish]
  split <;> simp

@[simp] theorem State.abandonHello_still (s : State) (peer) : (s.abandonHello peer).still = s.still := (rfl)
@[simp] theorem State.authFail_still (s : State) (d peer) : (s.authFail d peer).still = s.still := by simp [State.authFail]
@[simp] theorem State.answerHello_still (s : State) (m) : (s.answerHello m).still = s.still := (rfl)
@[simp] theorem State.refuseHello_still (s : State) (m status) : (s.refuseHello m status).still = s.still := (rfl)

@[simp] theorem execHello_leavesStill (d m) (s : State) : LeavesStill s.still (execHello d m s) := by
  simp only [execHello]
  repeat' split
  all_goals simp

@[simp] theorem execHelloAttemptTimeout_leavesStill (peer) (s : State) : LeavesStill s.still (execHelloAttemptTimeout peer s) := by
  simp [execHelloAttemptTimeout]
@[simp] theorem execHelloRetryTimer_leavesStill (peer) (s : State) : LeavesStill s.still (execHelloRetryTimer peer s) := by
  simp [execHelloRetryTimer]
@[simp] theorem execSessionRekey_leavesStill (peer) (s : State) : LeavesStill s.still (execSessionRekey peer s) := by simp [execSessionRekey]

@[simp] theorem execOldSessionErase_leavesStill (peer) (s : State) : LeavesStill s.still (execOldSessionErase peer s) := by
  unfold execOldSessionErase
  split <;> simp

@[simp] theorem execAckTimer_leavesStill (peer half) (s : State) : LeavesStill s.still (execAckTimer peer half s) := by
  unfold execAckTimer
  split <;> simp

@[simp] theorem execRetransmissionTimeout_leavesStill (peer half ctr) (s : State) :
    LeavesStill s.still (execRetransmissionTimeout peer half ctr s) := by
  unfold execRetransmissionTimeout
  split <;> simp

@[simp] theorem State.sessionLost_still (s : State) (peer) : (s.sessionLost peer).still = s.still := by simp [State.sessionLost]

@[simp] theorem execPathProgressTimeout_leavesStill (peer half) (s : State) : LeavesStill s.still (execPathProgressTimeout peer half s) := by
  unfold execPathProgressTimeout
  repeat' split
  all_goals simp

@[simp] theorem execLivenessTimeout_leavesStill (peer) (s : State) : LeavesStill s.still (execLivenessTimeout peer s) := by
  simp [execLivenessTimeout]
@[simp] theorem execPeerUnreachable_leavesStill (peer) (s : State) : LeavesStill s.still (execPeerUnreachable peer s) := by
  simp [execPeerUnreachable]
@[simp] theorem State.swarmDark_still (s : State) : s.swarmDark.still = s.still := (rfl)

@[simp] theorem State.swarmResume_still (s : State) : s.swarmResume.still = s.still := by
  unfold State.swarmResume
  extract_lets g seated settled
  have hsettled : settled.still = s.still := by simp [settled, seated]
  clear_value settled
  split
  · exact hsettled
  · next t _ =>
    extract_lets fenced resumed tasked hidden
    have hresumed : resumed.still = s.still := by
      refine (still_foldl (fun s g => still_foldl (fun s e => ?_) _ _) _ _).trans (by simp [fenced, hsettled])
      split <;> simp
    clear_value resumed
    simp [hidden, tasked, hresumed, fenced, hsettled]

end Sys2Proof.Machine
end

