-- ==== Sys2Proof/Proofs/ArrayFrameHost.lean ====
section
/-! Reactions, firmware, options, host and management commands, the start and an empty queue leave the array of the store die and the queue alone; of
the store die, what ends neither a program nor an erase does. -/

namespace Sys2Proof.Machine

/-! The reset of a die. -/

@[simp] theorem State.resetDieVolatile_still (s : State) (d) : (s.resetDieVolatile d).still = s.still := by simp [State.resetDieVolatile]

/-! Reactions in lanes, windows and regions. -/

@[simp] theorem State.lanesStop_still (s : State) (ds) : (s.lanesStop ds).still = s.still := by simp [State.lanesStop]
@[simp] theorem State.swarmLinkLost_still (s : State) (d) : (s.swarmLinkLost d).still = s.still := by simp [State.swarmLinkLost]
@[simp] theorem State.swarmStop_still (s : State) (d) : (s.swarmStop d).still = s.still := (rfl)
@[simp] theorem State.swarmFaultNotice_still (s : State) : s.swarmFaultNotice.still = s.still := by simp [State.swarmFaultNotice]
@[simp] theorem State.keepWindow_still (s : State) (d) : (s.keepWindow d).still = s.still := (rfl)

@[simp] theorem State.padRescue_still (s : State) (g) : (s.padRescue g).still = s.still := by
  unfold State.padRescue
  split <;> simp

@[simp] theorem State.persistWindows_still (s : State) (ds : List DieIx) : (s.persistWindows ds).still = s.still := by
  unfold State.persistWindows
  split <;> simp

@[simp] theorem State.persistJournal_still (s : State) (g) : (s.persistJournal g).still = s.still := by simp [State.persistJournal]
@[simp] theorem State.persistJournals_still (s : State) : s.persistJournals.still = s.still := by simp [State.persistJournals]
@[simp] theorem State.regionOut_still (s : State) (g) : (s.regionOut g).still = s.still := by simp [State.regionOut]

/-! The fault collector. -/

@[simp] theorem State.loseRecords_still (s : State) (n) : (s.loseRecords n).still = s.still := (rfl)
@[simp] theorem State.startFlush_still (s : State) : s.startFlush.still = s.still := by simp [State.startFlush]

@[simp] theorem State.recordEvent_still (s : State) (r) : (s.recordEvent r).still = s.still := by
  unfold State.recordEvent
  repeat' split
  all_goals simp

@[simp] theorem State.latchRecord_still (s : State) (r) : (s.latchRecord r).1.still = s.still := by
  unfold State.latchRecord
  split <;> simp

@[simp] theorem State.collect_still (s : State) (t) : (s.collect t).still = s.still := by
  unfold State.collect
  split <;> simp

@[simp] theorem execEventToken_leavesStill (i) (s : State) : LeavesStill s.still (execEventToken i s) := by
  unfold execEventToken
  split <;> simp

@[simp] theorem State.finishFlush_still (s : State) : s.finishFlush.still = s.still := by simp [State.finishFlush]
@[simp] theorem State.flushNow_still (s : State) : s.flushNow.still = s.still := by simp [State.flushNow]
@[simp] theorem execEventFlushComplete_leavesStill (s : State) : LeavesStill s.still (execEventFlushComplete s) := by simp [execEventFlushComplete]
@[simp] theorem State.skipLogLine_still (s : State) : s.skipLogLine.still = s.still := (rfl)
@[simp] theorem execKprEvCtrlFlush_leavesStill (s : State) : LeavesStill s.still (execKprEvCtrlFlush s) := by simp [execKprEvCtrlFlush]
@[simp] theorem execKprFcFirstClear_leavesStill (s : State) : LeavesStill s.still (execKprFcFirstClear s) := by simp [execKprFcFirstClear]
@[simp] theorem execKprFcPendClear_leavesStill (k mask) (s : State) : LeavesStill s.still (execKprFcPendClear k mask s) := by
  simp [execKprFcPendClear]

/-! Reactions of the package. -/

@[simp] theorem State.startRescue_still (s : State) (bank safe restart) : (s.startRescue bank safe restart).still = s.still := by
  simp [State.startRescue]
@[simp] theorem State.resetDie_still (s : State) (d) : (s.resetDie d).still = s.still := by simp [State.resetDie]
@[simp] theorem State.resetBothDies_still (s : State) : s.resetBothDies.still = s.still := by simp [State.resetBothDies]
@[simp] theorem State.eraseForRescue_still (s : State) : s.eraseForRescue.still = s.still := (rfl)
@[simp] theorem State.resumeAtStart_still (s : State) : s.resumeAtStart.still = s.still := (rfl)
@[simp] theorem State.beginStart_still (s : State) : s.beginStart.still = s.still := (rfl)
@[simp] theorem State.finishRescue_still (s : State) (r tenUs) : (s.finishRescue r tenUs).still = s.still := by simp [State.finishRescue]

@[simp] theorem State.enterSafe_still (s : State) : s.enterSafe.still = s.still := by
  simp only [State.enterSafe]
  repeat' split
  all_goals simp

@[simp] theorem State.takeOut_still (s : State) (d source) : (s.takeOut d source).still = s.still := by simp [State.takeOut]
@[simp] theorem State.bridgeLost_still (s : State) : s.bridgeLost.still = s.still := by simp [State.bridgeLost]

@[simp] theorem State.railReaction_still (s : State) (r) : (s.railReaction r).still = s.still := by
  unfold State.railReaction
  split <;> simp

@[simp] theorem State.keeperDark_still (s : State) : s.keeperDark.still = s.still := (rfl)

/-! Firmware. -/

@[simp] theorem State.updSlot_still (s : State) (k f) : (s.updSlot k f).still = s.still := (rfl)
@[simp] theorem State.noteSlot_still (s : State) (k f) : (s.noteSlot k f).still = s.still := by simp [State.noteSlot]

@[simp] theorem execFirmwareImageDownload_leavesStill (ref offset len last image) (s : State) :
    LeavesStill s.still (execFirmwareImageDownload ref offset len last image s) := by
  unfold execFirmwareImageDownload
  refine State.adminThen_leavesStill ?_
  repeat' split
  all_goals simp

@[simp] theorem State.acceptCommit_still (s : State) (ref k i) : (s.acceptCommit ref k i).still = s.still := by simp [State.acceptCommit]

@[simp] theorem State.replace_still (s : State) (ref n) : (s.replace ref n).1.still = s.still := by
  unfold State.replace
  repeat' split
  all_goals simp

@[simp] theorem State.fwGate_leavesStill {s : State} {ref : CmdRef} {f : State → State × Status} (h : (f s).1.still = s.still) :
    LeavesStill s.still (s.fwGate ref f) := State.adminThen_leavesStill (by simpa using h)
@[simp] theorem execFirmwareCommitReplace_leavesStill (ref slot) (s : State) : LeavesStill s.still (execFirmwareCommitReplace ref slot s) := by
  simp [execFirmwareCommitReplace]

@[simp] theorem execFirmwareCommitReplaceActivate_leavesStill (ref slot) (s : State) :
    LeavesStill s.still (execFirmwareCommitReplaceActivate ref slot s) := by
  unfold execFirmwareCommitReplaceActivate
  refine State.adminThen_leavesStill ?_
  dsimp only
  split <;> simp

@[simp] theorem execFirmwareCommitActivateAtReset_leavesStill (ref slot) (s : State) :
    LeavesStill s.still (execFirmwareCommitActivateAtReset ref slot s) := by
  unfold execFirmwareCommitActivateAtReset
  refine State.adminThen_leavesStill ?_
  dsimp only
  repeat' split
  all_goals simp

@[simp] theorem State.recommit_still (s : State) (ref slot k i) : (s.recommit ref slot k i).1.still = s.still := by
  unfold State.recommit
  repeat' split
  all_goals simp

@[simp] theorem execFirmwareCommitActivateNow_leavesStill (ref slot) (s : State) :
    LeavesStill s.still (execFirmwareCommitActivateNow ref slot s) := by
  unfold execFirmwareCommitActivateNow
  refine State.fwGate_leavesStill ?_
  dsimp only
  repeat' split
  all_goals simp

@[simp] theorem execFirmwareCommitBootPartition_leavesStill (ref) (s : State) : LeavesStill s.still (execFirmwareCommitBootPartition ref s) := by
  simp [execFirmwareCommitBootPartition]

@[simp] theorem State.slotServes_still (s : State) : s.slotServes.still = s.still := by
  unfold State.slotServes
  repeat' split
  all_goals simp

@[simp] theorem State.reloadPatches_still (s : State) : s.reloadPatches.still = s.still := by simp [State.reloadPatches]

@[simp] theorem execFirmwareActivation_leavesStill (d1CoreOk regionCoreOk) (s : State) :
    LeavesStill s.still (execFirmwareActivation d1CoreOk regionCoreOk s) := by
  unfold execFirmwareActivation
  split <;> simp

/-! Option images. -/

@[simp] theorem State.installImage_still (s : State) (img) : (s.installImage img).still = s.still := by simp [State.installImage]

@[simp] theorem execOptionStage_leavesStill (ref offset len last image) (s : State) :
    LeavesStill s.still (execOptionStage ref offset len last image s) := by
  simp [execOptionStage]

@[simp] theorem execOptionCheck_leavesStill (ref) (s : State) : LeavesStill s.still (execOptionCheck ref s) := by
  unfold execOptionCheck
  refine State.adminThen_leavesStill ?_
  repeat' split
  all_goals simp

theorem State.applyCheck_still {s t : State} {ref : CmdRef} (h : s.applyCheck ref = .inr t) : t.still = s.still := by
  simp only [State.applyCheck] at h
  split at h
  · cases h; simp
  split at h
  · cases h; simp
  split at h
  · cases h; simp
  · cases h

@[simp] theorem execOptionApplyAtStart_leavesStill (ref : CmdRef) (s : State) : LeavesStill s.still (execOptionApplyAtStart ref s) := by
  refine State.adminThen_leavesStill ?_
  dsimp only
  split
  · next h => simp [State.applyCheck_still h]
  · simp

@[simp] theorem execOptionApplyLive_leavesStill (ref : CmdRef) (s : State) : LeavesStill s.still (execOptionApplyLive ref s) := by
  refine State.adminThen_leavesStill ?_
  dsimp only
  split
  · next h => simp [State.applyCheck_still h]
  split
  · simp
  split
  · simp
  · split <;> simp

@[simp] theorem State.packageImage_still (s : State) (ns) : (s.packageImage ns).still = s.still := by
  unfold State.packageImage
  split <;> simp

/-! The store die's controller. -/

@[simp] theorem Store.setCmd_array (x : Store) (code : Byte) (r : StoResult) (sector : Nat) (req : Requester) (count : Nat) :
    (x.setCmd code r sector req count).array = x.array := (rfl)
@[simp] theorem State.refuseStore_still (s : State) (code r sectors req) : (s.refuseStore code r sectors req).still = s.still := by
  simp [State.refuseStore]

@[simp] theorem State.startProgram_still (s : State) (code req offset bytes) : (s.startProgram code req offset bytes).still = s.still := by
  simp only [State.startProgram]
  split <;> simp

@[simp] theorem State.startErase_still (s : State) (req sectors fromIntent) : (s.startErase req sectors fromIntent).still = s.still := by
  unfold State.startErase
  split <;> simp

@[simp] theorem State.eraseSuspend_still (s : State) (req) : (s.eraseSuspend req).still = s.still := by
  unfold State.eraseSuspend
  repeat' split
  all_goals simp

@[simp] theorem State.eraseResume_still (s : State) (req : Requester) : (s.eraseResume req).still = s.still := by
  refine State.updStore_still fun x => ?_
  dsimp only
  split
  · split <;> simp
  · simp

@[simp] theorem Store.abandon_array (x : Store) : x.abandon.array = x.array := by
  unfold Store.abandon
  split <;> simp

@[simp] theorem Store.toRead_array (x : Store) (req : Requester) : (x.toRead req).array = x.array := (rfl)

@[simp] theorem State.operandWrite_still (s : State) (req : Requester) (code : Byte) (ws : List (Nat × Word)) :
    (s.operandWrite req code ws).still = s.still := by
  simp only [State.operandWrite]
  split
  · simp
  split
  · simp
  split
  · simp
  split
  · split
    · simp
    · split <;> simp
  split
  · split <;> simp
  · simp

@[simp] theorem State.codeWrite_still (s : State) (req w) : (s.codeWrite req w).still = s.still := by simp [State.codeWrite]

@[simp] theorem State.ownCycle_still (s : State) (req offset w) : (s.ownCycle req offset w).still = s.still := by
  unfold State.ownCycle
  repeat' split
  all_goals simp

@[simp] theorem State.drainWaiting_still (s : State) (n : Nat) : (s.drainWaiting n).still = s.still := by
  induction n generalizing s with
  | zero => rfl
  | succ n ih =>
    simp only [State.drainWaiting]
    split
    · rfl
    · split <;> simp [ih]

@[simp] theorem State.storeCycle_still (s : State) (req offset w) : (s.storeCycle req offset w).still = s.still := by simp [State.storeCycle]
@[simp] theorem State.storeCommand_still (s : State) (req code writes) : (s.storeCommand req code writes).still = s.still := by
  simp [State.storeCommand]

@[simp] theorem State.storeRun_leavesStill {s : State} {req : Requester} {code : Word} {writes : List (Nat × Word)} {p} (h : s.still = p) :
    LeavesStill p (s.storeRun req code writes) := by
  simp [State.storeRun, h]

@[simp] theorem execProgram64BitWord_leavesStill (req writes) (s : State) : LeavesStill s.still (execProgram64BitWord req writes s) := by
  simp [execProgram64BitWord]
@[simp] theorem execProgram256ByteLine_leavesStill (req writes) (s : State) : LeavesStill s.still (execProgram256ByteLine req writes s) := by
  simp [execProgram256ByteLine]
@[simp] theorem execEraseSector_leavesStill (req offsets) (s : State) : LeavesStill s.still (execEraseSector req offsets s) := by
  simp [execEraseSector]
@[simp] theorem execEraseSuspend_leavesStill (req runTime) (s : State) : LeavesStill s.still (execEraseSuspend req runTime s) := by
  simp [execEraseSuspend]
@[simp] theorem execEraseResume_leavesStill (req) (s : State) : LeavesStill s.still (execEraseResume req s) := by simp [execEraseResume]
@[simp] theorem execMarginMode_leavesStill (req mode) (s : State) : LeavesStill s.still (execMarginMode req mode s) := by simp [execMarginMode]
@[simp] theorem execReadEraseCounter_leavesStill (req offset) (s : State) : LeavesStill s.still (execReadEraseCounter req offset s) := by
  simp [execReadEraseCounter]
@[simp] theorem execReturnToRead_leavesStill (req) (s : State) : LeavesStill s.still (execReturnToRead req s) := by simp [execReturnToRead]

@[simp] theorem execStoreSequenceTimeout_leavesStill (s : State) : LeavesStill s.still (execStoreSequenceTimeout s) := by
  unfold execStoreSequenceTimeout
  split <;> simp

@[simp] theorem execStoreEraseStart_leavesStill (s : State) : LeavesStill s.still (execStoreEraseStart s) := by
  unfold execStoreEraseStart
  split <;> simp

@[simp] theorem Store.noteFault_array (x : Store) (cause sector : Nat) : (x.noteFault cause sector).array = x.array := (rfl)

@[simp] theorem State.areaErased_still (s : State) (n) : (s.areaErased n).still = s.still := by simp [State.areaErased]
@[simp] theorem State.nextIntents_still (s : State) : s.nextIntents.still = s.still := by simp [State.nextIntents]

@[simp] theorem execStoreEraseTimeout_leavesStill (s : State) : LeavesStill s.still (execStoreEraseTimeout s) := by
  unfold execStoreEraseTimeout
  split <;> simp

@[simp] theorem State.afterRead_still (s : State) (offset w) : (s.afterRead offset w).still = s.still := (rfl)

@[simp] theorem execStoreArrayRead_leavesStill (kind offset byCore differs) (s : State) :
    LeavesStill s.still (execStoreArrayRead kind offset byCore differs s) := by
  simp only [execStoreArrayRead]
  repeat' split
  all_goals simp

@[simp] theorem execStoreEraseAutoSuspend_leavesStill (s : State) : LeavesStill s.still (execStoreEraseAutoSuspend s) := by
  unfold execStoreEraseAutoSuspend
  split <;> simp

@[simp] theorem execStoreEraseAutoResume_leavesStill (s : State) : LeavesStill s.still (execStoreEraseAutoResume s) := by
  unfold execStoreEraseAutoResume
  split <;> simp

/-! Watchdogs and shadows. -/

@[simp] theorem State.regionDogReaction_still (s : State) (g) : (s.regionDogReaction g).still = s.still := by simp [State.regionDogReaction]
@[simp] theorem execRegionCoreWatchdog_leavesStill (g) (s : State) : LeavesStill s.still (execRegionCoreWatchdog g s) := by
  simp [execRegionCoreWatchdog]
@[simp] theorem State.dieDogReaction_still (s : State) (d) : (s.dieDogReaction d).still = s.still := by simp [State.dieDogReaction]
@[simp] theorem execDieCoreWatchdog_leavesStill (d) (s : State) : LeavesStill s.still (execDieCoreWatchdog d s) := by simp [execDieCoreWatchdog]

@[simp] theorem State.reevaluate_still (s : State) (sh d) : (s.reevaluate sh d).still = s.still := by
  simp only [State.reevaluate]
  repeat' split
  all_goals simp

@[simp] theorem execShadowClose_leavesStill (holder i persisting) (s : State) : LeavesStill s.still (execShadowClose holder i persisting s) := by
  unfold execShadowClose
  repeat' split
  all_goals simp

@[simp] theorem State.collectorFailed_still (s : State) : s.collectorFailed.still = s.still :=
  (State.enterSafe_still _).trans (State.recordEvent_still ..)
@[simp] theorem execCollectorParityScan_leavesStill (ok) (s : State) : LeavesStill s.still (execCollectorParityScan ok s) := by
  simp [execCollectorParityScan]
@[simp] theorem execDieTemperatureWarning_leavesStill (d t) (s : State) : LeavesStill s.still (execDieTemperatureWarning d t s) := by
  simp [execDieTemperatureWarning]

@[simp] theorem execDieTemperatureCritical_leavesStill (d t) (s : State) : LeavesStill s.still (execDieTemperatureCritical d t s) := by
  simp only [execDieTemperatureCritical]
  repeat' split
  all_goals simp

@[simp] theorem execDieTemperatureBackInRange_leavesStill (d t) (s : State) : LeavesStill s.still (execDieTemperatureBackInRange d t s) := by
  simp [execDieTemperatureBackInRange]

@[simp] theorem State.injectedReaction_still (s : State) (src : Nat) (d0 : Word) : (s.injectedReaction src d0).still = s.still := by
  unfold State.injectedReaction
  iterate 4 refine still_ite_of (by simp) ?_
  refine still_ite_of ?region ?rest
  case region => split <;> simp
  iterate 5 refine still_ite_of (by simp) ?_
  refine still_ite_of ?rail (by simp)
  split <;> simp

@[simp] theorem execKprFcInjectGo_leavesStill (source) (s : State) : LeavesStill s.still (execKprFcInjectGo source s) := by simp [execKprFcInjectGo]

/-! Start. -/

@[simp] theorem State.noteBootFail_still (s : State) (cause slot) : (s.noteBootFail cause slot).still = s.still := (rfl)
@[simp] theorem State.stage_still (s : State) (x) : (s.stage x).still = s.still := (rfl)
@[simp] theorem State.findIntents_still (s : State) : s.findIntents.still = s.still := by simp [State.findIntents]

@[simp] theorem State.readRescueRecord_still (s : State) : s.readRescueRecord.still = s.still := by
  unfold State.readRescueRecord
  split <;> simp

@[simp] theorem State.takePending_still (s : State) : s.takePending.still = s.still := by
  unfold State.takePending
  split <;> simp

@[simp] theorem execVinRise_leavesStill (o) (s : State) : LeavesStill s.still (execVinRise o s) := by simp [execVinRise]
@[simp] theorem State.restartNow_still (s : State) : s.restartNow.still = s.still := by simp [State.restartNow]

@[simp] theorem execPackageRestart_leavesStill (cause) (s : State) : LeavesStill s.still (execPackageRestart cause s) := by
  unfold execPackageRestart
  repeat' split
  all_goals simp

@[simp] theorem execBootWindowTimeout_leavesStill (s : State) : LeavesStill s.still (execBootWindowTimeout s) := by simp [execBootWindowTimeout]

/-! Buffer and memory commands. -/

@[simp] theorem State.takeBuf_still (s : State) (d c k) : (s.takeBuf d c k).1.still = s.still := by
  unfold State.takeBuf
  repeat' split
  all_goals simp

@[simp] theorem execBufferAllocate_leavesStill (d bytes dram kind) (s : State) : LeavesStill s.still (execBufferAllocate d bytes dram kind s) := by
  unfold execBufferAllocate
  repeat' split
  all_goals simp

@[simp] theorem execBufferReferenceTake_leavesStill (d ptr user) (s : State) : LeavesStill s.still (execBufferReferenceTake d ptr user s) := by
  unfold execBufferReferenceTake
  repeat' split
  all_goals simp

@[simp] theorem execBufferReferenceDrop_leavesStill (d ptr user) (s : State) : LeavesStill s.still (execBufferReferenceDrop d ptr user s) := by
  unfold execBufferReferenceDrop
  split <;> simp

@[simp] theorem State.serveWaiting_still (s : State) (d c) : (s.serveWaiting d c).still = s.still := by
  unfold State.serveWaiting
  repeat' split
  all_goals simp

@[simp] theorem execBufferZeroed_leavesStill (d c i) (s : State) : LeavesStill s.still (execBufferZeroed d c i s) := by simp [execBufferZeroed]

@[simp] theorem execDramOscillatorRead_leavesStill (d value driftPs) (s : State) :
    LeavesStill s.still (execDramOscillatorRead d value driftPs s) := by
  simp [execDramOscillatorRead]

@[simp] theorem execDramZqLatch_leavesStill (d value) (s : State) : LeavesStill s.still (execDramZqLatch d value s) := by simp [execDramZqLatch]

@[simp] theorem execDramRetrain_leavesStill (d byRate tries) (s : State) : LeavesStill s.still (execDramRetrain d byRate tries s) := by
  simp only [execDramRetrain]
  repeat' split
  all_goals simp

@[simp] theorem execMemoryCorrected_leavesStill (d k addr bit) (s : State) : LeavesStill s.still (execMemoryCorrected d k addr bit s) := by
  simp only [execMemoryCorrected]
  repeat' split
  all_goals simp

@[simp] theorem State.poisonPlaced_still (s : State) (g b which) : (s.poisonPlaced g b which).still = s.still := by
  unfold State.poisonPlaced
  split <;> simp

@[simp] theorem State.poisonUpds_still (s : State) (g : RegionIx) (n : Nat) (which : PendUpd → Bool) :
    (s.poisonUpds g n which).still = s.still := by
  refine still_foldl (fun s u => ?_) _ _
  dsimp only
  split <;> simp

@[simp] theorem State.poisonBuf_still (s : State) (d : DieIx) (c : PoolClass) (i unit : Nat) :
    (s.poisonBuf d c i unit).still = s.still := by
  refine (still_foldl (fun s g => ?_) _ _).trans (by simp)
  split
  · rfl
  · refine still_foldl (fun s h => ?_) _ _
    split
    · rfl
    · dsimp only
      split
      · rfl
      · split <;> simp

@[simp] theorem State.reloadEntry_still (s : State) (g gran) : (s.reloadEntry g gran).still = s.still := by simp [State.reloadEntry]

@[simp] theorem execMemoryUncorrectable_leavesStill (d k addr target) (s : State) :
    LeavesStill s.still (execMemoryUncorrectable d k addr target s) := by
  simp only [execMemoryUncorrectable]
  repeat' split
  all_goals simp

@[simp] theorem execLocationRetire_leavesStill (d k addr channel inBuffer) (s : State) :
    LeavesStill s.still (execLocationRetire d k addr channel inBuffer s) := by
  unfold execLocationRetire
  repeat' split
  all_goals simp

@[simp] theorem execMemTest_leavesStill {p} {s : State} (h : s.still = p) (d : DieIx) (w : Word) (checkOk : Bool) :
    LeavesStill p (execMemTest d w checkOk s) := by
  simp [execMemTest, h]

@[simp] theorem execMemCtrlCntClr_leavesStill (d) (s : State) : LeavesStill s.still (execMemCtrlCntClr d s) := by simp [execMemCtrlCntClr]
@[simp] theorem execZeroFillComplete_leavesStill (d) (s : State) : LeavesStill s.still (execZeroFillComplete d s) := by simp [execZeroFillComplete]

/-! Links, controllers and queues. -/

@[simp] theorem execPcieLinkTraining_leavesStill (d gen lanes) (s : State) : LeavesStill s.still (execPcieLinkTraining d gen lanes s) := by
  simp [execPcieLinkTraining]
@[simp] theorem execHostLinkDown_leavesStill (d) (s : State) : LeavesStill s.still (execHostLinkDown d s) := by simp [execHostLinkDown]
@[simp] theorem execPerstNAssert_leavesStill (d) (s : State) : LeavesStill s.still (execPerstNAssert d s) := by simp [execPerstNAssert]
@[simp] theorem execPerstNRelease_leavesStill (d) (s : State) : LeavesStill s.still (execPerstNRelease d s) := by simp [execPerstNRelease]
@[simp] theorem execFunctionLevelReset_leavesStill (d) (s : State) : LeavesStill s.still (execFunctionLevelReset d s) := by
  simp [execFunctionLevelReset]
@[simp] theorem execConfigRequest_leavesStill (d) (s : State) : LeavesStill s.still (execConfigRequest d s) := by simp [execConfigRequest]
@[simp] theorem State.controllerReady_still (s : State) (d) : (s.controllerReady d).still = s.still := by simp [State.controllerReady]
@[simp] theorem execControllerEnable_leavesStill (d asqs acqs) (s : State) : LeavesStill s.still (execControllerEnable d asqs acqs s) := by
  simp [execControllerEnable]

@[simp] theorem execControllerReset_leavesStill (d) (s : State) : LeavesStill s.still (execControllerReset d s) := by
  simp only [execControllerReset]
  repeat' split
  all_goals simp

@[simp] theorem State.sealOpen_still (s : State) (g) : (s.sealOpen g).still = s.still := by simp [State.sealOpen]
@[simp] theorem State.sealAllOpen_still (s : State) : s.sealAllOpen.still = s.still := by simp [State.sealAllOpen]
@[simp] theorem State.settleShutdown_still (s : State) (d) : (s.settleShutdown d).still = s.still := by simp [State.settleShutdown]
@[simp] theorem execNormalShutdown_leavesStill (d) (s : State) : LeavesStill s.still (execNormalShutdown d s) := by simp [execNormalShutdown]
@[simp] theorem execAbruptShutdown_leavesStill (d) (s : State) : LeavesStill s.still (execAbruptShutdown d s) := by simp [execAbruptShutdown]
@[simp] theorem execNvmSubsystemReset_leavesStill (d value) (s : State) : LeavesStill s.still (execNvmSubsystemReset d value s) := by
  simp [execNvmSubsystemReset]
@[simp] theorem State.badDoorbell_still (s : State) (d) : (s.badDoorbell d).still = s.still := by simp [State.badDoorbell]

@[simp] theorem execSubmissionQueueDoorbell_leavesStill (d qid tail) (s : State) :
    LeavesStill s.still (execSubmissionQueueDoorbell d qid tail s) := by
  simp only [execSubmissionQueueDoorbell]
  repeat' split
  all_goals simp

@[simp] theorem execCompletionQueueDoorbell_leavesStill (d qid head) (s : State) :
    LeavesStill s.still (execCompletionQueueDoorbell d qid head s) := by
  simp only [execCompletionQueueDoorbell]
  repeat' split
  all_goals simp

@[simp] theorem State.admin_leavesStill {s : State} {k : AdminKind} {ref : CmdRef} {f : State → State} (h : (f s).still = s.still) :
    LeavesStill s.still (s.admin k ref f) := State.adminThen_leavesStill (by simpa using h)

@[simp] theorem execCreateIoCompletionQueue_leavesStill (ref qid entries contiguous irqEn vector) (s : State) :
    LeavesStill s.still (execCreateIoCompletionQueue ref qid entries contiguous irqEn vector s) := by
  unfold execCreateIoCompletionQueue
  refine State.adminThen_leavesStill ?_
  dsimp only
  split <;> simp

@[simp] theorem State.autoLock_still (s : State) : s.autoLock.still = s.still := by simp [State.autoLock]

@[simp] theorem execCreateIoSubmissionQueue_leavesStill (ref qid entries cqid contiguous) (s : State) :
    LeavesStill s.still (execCreateIoSubmissionQueue ref qid entries cqid contiguous s) := by
  unfold execCreateIoSubmissionQueue
  refine State.adminThen_leavesStill ?_
  dsimp only
  split <;> simp

@[simp] theorem State.catchCmd_still (s : State) (x st) : (s.catchCmd x st).still = s.still := by simp [State.catchCmd]
@[simp] theorem execDeleteIoSubmissionQueue_leavesStill (ref qid) (s : State) : LeavesStill s.still (execDeleteIoSubmissionQueue ref qid s) := by
  simp [execDeleteIoSubmissionQueue]
@[simp] theorem execDeleteIoCompletionQueue_leavesStill (ref qid) (s : State) : LeavesStill s.still (execDeleteIoCompletionQueue ref qid s) := by
  simp [execDeleteIoCompletionQueue]

@[simp] theorem execAbort_leavesStill (ref sqid cid) (s : State) : LeavesStill s.still (execAbort ref sqid cid s) := by
  unfold execAbort
  refine State.adminThen_leavesStill ?_
  dsimp only
  split <;> simp

@[simp] theorem execAsynchronousEventRequest_leavesStill (ref) (s : State) : LeavesStill s.still (execAsynchronousEventRequest ref s) := by
  unfold execAsynchronousEventRequest
  refine State.adminThen_leavesStill ?_
  dsimp only
  repeat' split
  all_goals simp

/-! Namespaces, format and sanitize. -/

@[simp] theorem State.holdAdmin_still (s : State) (ref nsid) : (s.holdAdmin ref nsid).still = s.still := (rfl)

@[simp] theorem State.onceIdle_still {s : State} {ref : CmdRef} {nsid : Nat} {ids : List Nat} {f : State → State}
    (h : ∀ t, (f t).still = t.still) : (s.onceIdle ref nsid ids f).still = s.still := by
  simp [State.onceIdle, h]

@[simp] theorem State.newNamespaces_still (s : State) (ns) : (s.newNamespaces ns).still = s.still := by simp [State.newNamespaces]
@[simp] theorem State.drbgFailed_still (s : State) (ref) : (s.drbgFailed ref).still = s.still := by simp [State.drbgFailed]

@[simp] theorem execNamespaceManagementCreate_leavesStill (ref nsze ncap lbaf phandles drbgOk) (s : State) :
    LeavesStill s.still (execNamespaceManagementCreate ref nsze ncap lbaf phandles drbgOk s) := by
  unfold execNamespaceManagementCreate
  refine State.adminThen_leavesStill ?_
  dsimp only
  split <;> simp

@[simp] theorem execNamespaceManagementDelete_leavesStill (ref nsid) (s : State) :
    LeavesStill s.still (execNamespaceManagementDelete ref nsid s) := by
  simp [execNamespaceManagementDelete]

@[simp] theorem execNamespaceAttachment_leavesStill (ref nsid attach ctrls) (s : State) :
    LeavesStill s.still (execNamespaceAttachment ref nsid attach ctrls s) := by
  simp [execNamespaceAttachment]

@[simp] theorem State.setLbaf_still (s : State) (ids lbaf) : (s.setLbaf ids lbaf).still = s.still := by simp [State.setLbaf]

@[simp] theorem execFormatNvm_leavesStill (ref nsid lbaf) (s : State) : LeavesStill s.still (execFormatNvm ref nsid lbaf s) := by
  unfold execFormatNvm
  refine State.adminThen_leavesStill ?_
  dsimp only
  split <;> simp

@[simp] theorem State.eraseNow_still {s : State} {ref : CmdRef} {nsid : Nat} {ids : List Nat} {drbgOk : Bool} {f : State → State}
    (h : ∀ t, (f t).still = t.still) : (s.eraseNow ref nsid ids drbgOk f).still = s.still := by
  simp [State.eraseNow, h]

@[simp] theorem execFormatNvmCryptoErase_leavesStill (ref nsid lbaf drbgOk) (s : State) :
    LeavesStill s.still (execFormatNvmCryptoErase ref nsid lbaf drbgOk s) := by
  unfold execFormatNvmCryptoErase
  refine State.adminThen_leavesStill ?_
  dsimp only
  split <;> simp

@[simp] theorem State.sanitizeStart_still (s : State) (block) : (s.sanitizeStart block).still = s.still := by simp [State.sanitizeStart]
@[simp] theorem State.sanitizeRun_still (s : State) (ref block drbgOk) : (s.sanitizeRun ref block drbgOk).still = s.still := by
  simp [State.sanitizeRun]
@[simp] theorem execSanitizeCryptoErase_leavesStill (ref drbgOk) (s : State) : LeavesStill s.still (execSanitizeCryptoErase ref drbgOk s) := by
  simp [execSanitizeCryptoErase]
@[simp] theorem execSanitizeBlockErase_leavesStill (ref drbgOk) (s : State) : LeavesStill s.still (execSanitizeBlockErase ref drbgOk s) := by
  simp [execSanitizeBlockErase]
@[simp] theorem execSanitizeOverwrite_leavesStill (ref) (s : State) : LeavesStill s.still (execSanitizeOverwrite ref s) := by
  simp [execSanitizeOverwrite]
@[simp] theorem execSanitizeExitFailureMode_leavesStill (ref) (s : State) : LeavesStill s.still (execSanitizeExitFailureMode ref s) := by
  simp [execSanitizeExitFailureMode]

/-! Diapause. -/

@[simp] theorem execDiapausePrepare_leavesStill (ref) (s : State) : LeavesStill s.still (execDiapausePrepare ref s) := by simp [execDiapausePrepare]

@[simp] theorem State.drainOnce_still (s : State) (g) : (s.drainOnce g).still = s.still := by simp [State.drainOnce]
@[simp] theorem State.drainJournal_still (s : State) (g) : (s.drainJournal g).still = s.still := by simp [State.drainJournal]

@[simp] theorem execDiapauseStatus_leavesStill (ref) (s : State) : LeavesStill s.still (execDiapauseStatus ref s) := by simp [execDiapauseStatus]

/-! The clockless fabric. -/

@[simp] theorem execVcoreOutOfWindow_leavesStill (d mv) (s : State) : LeavesStill s.still (execVcoreOutOfWindow d mv s) := by
  simp [execVcoreOutOfWindow]
@[simp] theorem execVcoreWindowRestored_leavesStill (d mv) (s : State) : LeavesStill s.still (execVcoreWindowRestored d mv s) := by
  simp [execVcoreWindowRestored]
@[simp] theorem execXtal25Stop_leavesStill (s : State) : LeavesStill s.still (execXtal25Stop s) := by simp [execXtal25Stop]

@[simp] theorem execXtal32kStop_leavesStill (s : State) : LeavesStill s.still (execXtal32kStop s) := by
  simp only [execXtal32kStop]
  repeat' split
  all_goals simp

@[simp] theorem State.bridgeAnswer_still (s : State) (toward tag) : (s.bridgeAnswer toward tag).still = s.still := by
  unfold State.bridgeAnswer
  repeat' split
  all_goals simp

@[simp] theorem execDieBridgeTransfer_leavesStill (toward tag crcOk) (s : State) :
    LeavesStill s.still (execDieBridgeTransfer toward tag crcOk s) := by
  simp [execDieBridgeTransfer]

@[simp] theorem execDieBridgeHandshakeTimeout_leavesStill (s : State) : LeavesStill s.still (execDieBridgeHandshakeTimeout s) := by
  simp [execDieBridgeHandshakeTimeout]

@[simp] theorem execCrossingReset_leavesStill (x phySide) (s : State) : LeavesStill s.still (execCrossingReset x phySide s) := by
  unfold execCrossingReset
  split <;> simp

@[simp] theorem execCrossingReadyHandshake_leavesStill (x) (s : State) : LeavesStill s.still (execCrossingReadyHandshake x s) := by
  simp [execCrossingReadyHandshake]
@[simp] theorem execPhyWakeRequest_leavesStill (x stopGrantedFirst) (s : State) : LeavesStill s.still (execPhyWakeRequest x stopGrantedFirst s) := by
  simp [execPhyWakeRequest]

@[simp] theorem execPhyIdleTimerExpiry_leavesStill (l wakeGrantedFirst) (s : State) :
    LeavesStill s.still (execPhyIdleTimerExpiry l wakeGrantedFirst s) := by
  simp [execPhyIdleTimerExpiry]

@[simp] theorem execPcieL12Entry_leavesStill (d) (s : State) : LeavesStill s.still (execPcieL12Entry d s) := by simp [execPcieL12Entry]
@[simp] theorem execPcieL12Exit_leavesStill (d) (s : State) : LeavesStill s.still (execPcieL12Exit d s) := by simp [execPcieL12Exit]

/-! Features. -/

@[simp] theorem State.updFeat_still (s : State) (ref f) : (s.updFeat ref f).still = s.still := (rfl)

@[simp] theorem State.setFeature_leavesStill (s : State) (ref : CmdRef) (fault : Option Status) (f : Features → Features) (dw0 : Word) :
    LeavesStill s.still (s.setFeature ref fault f dw0) := by
  refine State.admin_leavesStill ?_
  split <;> simp

@[simp] theorem execSetFeaturesTimestamp_leavesStill (ref ms) (s : State) : LeavesStill s.still (execSetFeaturesTimestamp ref ms s) := by
  simp [execSetFeaturesTimestamp]
@[simp] theorem execSetFeaturesArbitration_leavesStill (ref dw11) (s : State) : LeavesStill s.still (execSetFeaturesArbitration ref dw11 s) := by
  simp [execSetFeaturesArbitration]
@[simp] theorem execSetFeaturesPowerManagement_leavesStill (ref ps) (s : State) : LeavesStill s.still (execSetFeaturesPowerManagement ref ps s) := by
  simp [execSetFeaturesPowerManagement]

@[simp] theorem execSetFeaturesTemperatureThreshold_leavesStill (ref kelvin sel under) (s : State) :
    LeavesStill s.still (execSetFeaturesTemperatureThreshold ref kelvin sel under s) := by
  simp [execSetFeaturesTemperatureThreshold]

@[simp] theorem execSetFeaturesErrorRecovery_leavesStill (ref dw11) (s : State) : LeavesStill s.still (execSetFeaturesErrorRecovery ref dw11 s) := by
  simp [execSetFeaturesErrorRecovery]

@[simp] theorem execSetFeaturesNumberOfQueues_leavesStill (ref nsq ncq) (s : State) :
    LeavesStill s.still (execSetFeaturesNumberOfQueues ref nsq ncq s) := by
  simp [execSetFeaturesNumberOfQueues]

@[simp] theorem execSetFeaturesInterruptCoalescing_leavesStill (ref dw11) (s : State) :
    LeavesStill s.still (execSetFeaturesInterruptCoalescing ref dw11 s) := by
  simp [execSetFeaturesInterruptCoalescing]

@[simp] theorem execSetFeaturesInterruptVectorConfig_leavesStill (ref vector disable) (s : State) :
    LeavesStill s.still (execSetFeaturesInterruptVectorConfig ref vector disable s) := by
  simp [execSetFeaturesInterruptVectorConfig]

@[simp] theorem execSetFeaturesAsyncEventConfiguration_leavesStill (ref dw11) (s : State) :
    LeavesStill s.still (execSetFeaturesAsyncEventConfiguration ref dw11 s) := by
  simp [execSetFeaturesAsyncEventConfiguration]

@[simp] theorem execSetFeaturesApst_leavesStill (ref enable table) (s : State) : LeavesStill s.still (execSetFeaturesApst ref enable table s) := by
  simp [execSetFeaturesApst]

@[simp] theorem execSetFeaturesFdp_leavesStill (ref endgid index enable) (s : State) :
    LeavesStill s.still (execSetFeaturesFdp ref endgid index enable s) := by
  simp [execSetFeaturesFdp]

@[simp] theorem execSetFeaturesFdpEvents_leavesStill (ref handle types enable) (s : State) :
    LeavesStill s.still (execSetFeaturesFdpEvents ref handle types enable s) := by
  simp [execSetFeaturesFdpEvents]

@[simp] theorem execGetFeatures_leavesStill (ref fid dw11) (s : State) : LeavesStill s.still (execGetFeatures ref fid dw11 s) := by
  unfold execGetFeatures
  refine State.adminThen_leavesStill ?_
  dsimp only
  split <;> simp

@[simp] theorem execApstIdleTimer_leavesStill (d) (s : State) : LeavesStill s.still (execApstIdleTimer d s) := by simp [execApstIdleTimer]

/-! I/O commands. -/

@[simp] theorem State.endReads_still (s : State) (ref) : (s.endReads ref).still = s.still := by simp [State.endReads]
@[simp] theorem State.bridgeRequests_still (s : State) (c) : (s.bridgeRequests c).still = s.still := by simp [State.bridgeRequests]
@[simp] theorem State.fetch_still (s : State) (c) : (s.fetch c).still = s.still := by simp [State.fetch]
@[simp] theorem State.takeLooks_still (s : State) (c) : (s.takeLooks c).still = s.still := by simp [State.takeLooks]
@[simp] theorem State.lookHeld_still (s : State) (c g) : (s.lookHeld c g).still = s.still := by simp [State.lookHeld]

@[simp] theorem State.ioThen_leavesStill {s : State} {c : SlotCmd} {f : State → State} (h : ∀ t, (f t).still = t.still) :
    LeavesStill s.still (s.ioThen c f) := by
  simp only [State.ioThen]
  split
  · simp
  split
  · simp
  · simp only [leavesStill_next]
    split
    · simp
    · split <;> simp [h]

@[simp] theorem State.askFor_still (s : State) (c x) : (s.askFor c x).still = s.still := by
  unfold State.askFor
  split <;> simp

@[simp] theorem State.watchRead_still (s : State) (c x) : (s.watchRead c x).still = s.still := by simp [State.watchRead]
@[simp] theorem State.poisonedEntry_still (s : State) (c x) : (s.poisonedEntry c x).still = s.still := by simp [State.poisonedEntry]

@[simp] theorem State.readRanges_still (s : State) (c n ranges) : (s.readRanges c n ranges).1.still = s.still := by
  simp only [State.readRanges]
  repeat' split
  all_goals simp

@[simp] theorem State.darkEnd_still (s : State) (ref member) : (s.darkEnd ref member).still = s.still := by simp [State.darkEnd]
@[simp] theorem State.poisonMet_still (s : State) (ref) : (s.poisonMet ref).still = s.still := by simp [State.poisonMet]

@[simp] theorem execRead_leavesStill (ref : CmdRef) (nsid slba nlb : Nat) (s : State) : LeavesStill s.still (execRead ref nsid slba nlb s) := by
  simp only [execRead]
  refine State.ioThen_leavesStill fun s => ?_
  split
  · rfl
  split
  · simp
  split
  · next h => simp [still_of_fst h]
  · next h => simp [still_of_fst h]
  · next h => simp [still_of_fst h]

@[simp] theorem execVerify_leavesStill (ref : CmdRef) (nsid slba nlb : Nat) (s : State) : LeavesStill s.still (execVerify ref nsid slba nlb s) := by
  simp only [execVerify]
  refine State.ioThen_leavesStill fun s => ?_
  split
  · rfl
  split
  · next h => simp [still_of_fst h]
  · next h => simp [still_of_fst h]
  · next h => simp [still_of_fst h]

@[simp] theorem execFlush_leavesStill (ref nsid) (s : State) : LeavesStill s.still (execFlush ref nsid s) := by simp [execFlush]

@[simp] theorem State.takePieces_still (s : State) (d : DieIx) (ref : CmdRef) (xs : List (Nat × Nat × UpdKind)) :
    (s.takePieces d ref xs).1.still = s.still := by
  induction xs generalizing s with
  | nil => rfl
  | cons x xs ih =>
    simp only [State.takePieces]
    split
    · rfl
    split
    · simp
    · split
      · next h => simp [still_of_fst h, ih]
      · next h => simp [still_of_fst h, ih]

@[simp] theorem State.enterPend_still (s : State) (g d w p q win) : (s.enterPend g d w p q win).still = s.still := (rfl)

@[simp] theorem State.admitPiece_still (s : State) (d : DieIx) (w : WriteJob) (p : WritePiece) :
    (s.admitPiece d w p).1.still = s.still := by
  unfold State.admitPiece
  split
  · rfl
  · rfl
  · extract_lets g small fits through
    split
    · rfl
    · split
      · next h => simp [still_of_fst h]
      · next h =>
        split
        · simp [still_of_fst h]
        · split <;> simp [still_of_fst h]

@[simp] theorem State.admitPieces_still (s : State) (d : DieIx) (w : WriteJob) (ps : List WritePiece) :
    (s.admitPieces d w ps).1.still = s.still := by
  induction ps generalizing s with
  | nil => rfl
  | cons p ps ih => simp [State.admitPieces, ih]

@[simp] theorem State.refuseJob_still (s : State) (d w st) : (s.refuseJob d w st).still = s.still := by simp [State.refuseJob]
@[simp] theorem State.admitJob_still (s : State) (d w) : (s.admitJob d w).still = s.still := by simp [State.admitJob]
@[simp] theorem State.admitAll_still (s : State) (d) : (s.admitAll d).still = s.still := by simp [State.admitAll]
@[simp] theorem execWindowAdmit_leavesStill (d) (s : State) : LeavesStill s.still (execWindowAdmit d s) := by simp [execWindowAdmit]

@[simp] theorem State.startJob_still (s : State) (ref nsid stream data pieces) :
    (s.startJob ref nsid stream data pieces).still = s.still := by
  simp [State.startJob]

@[simp] theorem State.receiveData_still (s : State) (ref : CmdRef) (n : NamespaceRec) (stream : Byte) (range : LbaRange) (data : List Nat) :
    (s.receiveData ref n stream range data).still = s.still := by
  unfold State.receiveData
  split
  · next h => simp [still_of_fst h]
  · next h => simp [still_of_fst h]

@[simp] theorem execWrite_leavesStill (ref : CmdRef) (nsid slba nlb dtype dspec : Nat) (data : List Nat) (s : State) :
    LeavesStill s.still (execWrite ref nsid slba nlb dtype dspec data s) := by
  simp only [execWrite]
  refine State.ioThen_leavesStill fun s => ?_
  split
  · rfl
  · simp only [still_ite]
    split
    · simp
    split
    · simp
    · split <;> simp

@[simp] theorem State.zeroRanges_still (s : State) (ref n ranges) : (s.zeroRanges ref n ranges).still = s.still := by simp [State.zeroRanges]

@[simp] theorem execWriteZeroes_leavesStill (ref nsid slba nlb) (s : State) : LeavesStill s.still (execWriteZeroes ref nsid slba nlb s) := by
  unfold execWriteZeroes
  refine State.ioThen_leavesStill fun s => ?_
  split <;> simp

@[simp] theorem execDatasetManagement_leavesStill (ref nsid deallocate ranges) (s : State) :
    LeavesStill s.still (execDatasetManagement ref nsid deallocate ranges s) := by
  unfold execDatasetManagement
  refine State.ioThen_leavesStill fun s => ?_
  split <;> simp

@[simp] theorem execCopy_leavesStill (ref : CmdRef) (nsid sdlba : Nat) (src : List LbaRange) (s : State) :
    LeavesStill s.still (execCopy ref nsid sdlba src s) := by
  simp only [execCopy]
  refine State.ioThen_leavesStill fun s => ?_
  split
  · rfl
  split
  · simp
  split
  · simp
  split
  · simp
  · split
    · next h => simp [still_of_fst h]
    · next h => simp [still_of_fst h]
    · next h => simp [still_of_fst h]

@[simp] theorem State.xtsRefused_still (s : State) (d) : (s.xtsRefused d).still = s.still := by simp [State.xtsRefused]

@[simp] theorem State.takeCipher_still (s : State) (d u) : (s.takeCipher d u).1.still = s.still := by
  unfold State.takeCipher
  repeat' split
  all_goals simp

@[simp] theorem execXtsEncrypt_leavesStill (g : RegionIx) (gran seq : Nat) (refused : List Nat) (s : State) :
    LeavesStill s.still (execXtsEncrypt g gran seq refused s) := by
  simp only [execXtsEncrypt]
  split
  · simp
  split
  · next h => simp [still_of_fst h]
  · next h =>
    split
    · simp [still_of_fst h]
    split
    · simp [still_of_fst h]
    · split
      · simp [still_of_fst h]
      · simp only [leavesStill_next, State.refuseJob_still, State.updHost_still, State.updRegion_still, State.xtsRefused_still]
        split <;> simp [still_of_fst h]
    · simp [still_of_fst h]

/-! Log pages and Identify. -/

@[simp] theorem State.logWasRead_still (s : State) (d lid rae) : (s.logWasRead d lid rae).still = s.still := by simp [State.logWasRead]

@[simp] theorem execGetLogPage_leavesStill (ref lid nsid lsi lpo len rae) (s : State) :
    LeavesStill s.still (execGetLogPage ref lid nsid lsi lpo len rae s) := by
  unfold execGetLogPage
  refine State.adminThen_leavesStill ?_
  dsimp only
  split <;> simp

@[simp] theorem execIdentify_leavesStill (ref cns nsid cntid) (s : State) : LeavesStill s.still (execIdentify ref cns nsid cntid s) := by
  unfold execIdentify
  refine State.adminThen_leavesStill ?_
  dsimp only
  split <;> simp

@[simp] theorem execUnsupportedCommand_leavesStill (ref) (s : State) : LeavesStill s.still (execUnsupportedCommand ref s) := by
  simp [execUnsupportedCommand]

/-! The restore of the regions. -/

@[simp] theorem State.restoreRegion_still (s : State) (g x) : (s.restoreRegion g x).still = s.still := by
  unfold State.restoreRegion
  split <;> simp

@[simp] theorem State.scanOpen_still (s : State) (g x) : (s.scanOpen g x).still = s.still := by
  unfold State.scanOpen
  split <;> simp

@[simp] theorem State.applyRescued_still (s : State) (g x) : (s.applyRescued g x).still = s.still := (rfl)

@[simp] theorem State.settleBands_still (s : State) (g) : (s.settleBands g).still = s.still := by
  unfold State.settleBands
  split <;> simp

@[simp] theorem State.markBands_still (s : State) (g uncertain dark) : (s.markBands g uncertain dark).still = s.still := by
  simp [State.markBands]

@[simp] theorem State.settleLuns_still (s : State) (g : RegionIx) : (s.settleLuns g).still = s.still := by
  refine (still_foldl (fun s l => State.quarantineLane_still ..) _ _).trans
    ((still_foldl (fun s n => State.quarantineLun_still ..) _ _).trans (still_foldl (fun s n => ?_) _ _))
  split <;> simp

@[simp] theorem State.resumeSeq_still (s : State) (g) : (s.resumeSeq g).still = s.still := (rfl)
@[simp] theorem State.rescueBands_still (s : State) (g) : (s.rescueBands g).still = s.still := by simp [State.rescueBands]
@[simp] theorem State.journalBands_still (s : State) (c g) : (s.journalBands c g).still = s.still := by simp [State.journalBands]
@[simp] theorem State.firstBands_still (s : State) (g) : (s.firstBands g).still = s.still := by simp [State.firstBands]
@[simp] theorem State.firstSpare_still (s : State) (g) : (s.firstSpare g).still = s.still := by simp [State.firstSpare]
@[simp] theorem State.matchExtents_still (s : State) : s.matchExtents.still = s.still := by simp [State.matchExtents]
@[simp] theorem State.loadedTurns_still (s : State) (g) : (s.loadedTurns g).still = s.still := by simp [State.loadedTurns]
@[simp] theorem execMapSegmentLoad_leavesStill (g seg) (s : State) : LeavesStill s.still (execMapSegmentLoad g seg s) := by simp [execMapSegmentLoad]
@[simp] theorem State.eachRegion_still {s : State} {f : State → RegionIx → State} (h : ∀ t g, (f t g).still = t.still) :
    (s.eachRegion f).still = s.still := still_foldl h _ s
@[simp] theorem State.restoreAll_still (s : State) (facts) : (s.restoreAll facts).still = s.still := by simp [State.restoreAll]
@[simp] theorem State.regionsServe_still (s : State) : s.regionsServe.still = s.still := by simp [State.regionsServe]
@[simp] theorem execHostFetchStart_leavesStill (facts ms) (s : State) : LeavesStill s.still (execHostFetchStart facts ms s) := by
  simp [execHostFetchStart]

/-! The management port. -/

@[simp] theorem State.miAnswer_still (s : State) (tag code data) : (s.miAnswer tag code data).still = s.still := (rfl)
@[simp] theorem State.mpThen_leavesStill {s : State} {f : State → State} (h : (f s).still = s.still) : LeavesStill s.still (s.mpThen f) := by
  simp [State.mpThen, h]
@[simp] theorem execMctpPacket_leavesStill (pecOk) (s : State) : LeavesStill s.still (execMctpPacket pecOk s) := by simp [execMctpPacket]

@[simp] theorem execSetEndpointId_leavesStill (tag op eid) (s : State) : LeavesStill s.still (execSetEndpointId tag op eid s) := by
  unfold execSetEndpointId
  split <;> simp

@[simp] theorem execGetEndpointId_leavesStill (tag) (s : State) : LeavesStill s.still (execGetEndpointId tag s) := by simp [execGetEndpointId]
@[simp] theorem execGetEndpointUuid_leavesStill (tag) (s : State) : LeavesStill s.still (execGetEndpointUuid tag s) := by simp [execGetEndpointUuid]
@[simp] theorem execGetMctpVersionSupport_leavesStill (tag msgType) (s : State) : LeavesStill s.still (execGetMctpVersionSupport tag msgType s) := by
  simp [execGetMctpVersionSupport]
@[simp] theorem execGetMessageTypeSupport_leavesStill (tag) (s : State) : LeavesStill s.still (execGetMessageTypeSupport tag s) := by
  simp [execGetMessageTypeSupport]

@[simp] theorem execReadNvmeMiDataStructure_leavesStill (tag dtyp port ctrl) (s : State) :
    LeavesStill s.still (execReadNvmeMiDataStructure tag dtyp port ctrl s) := by
  unfold execReadNvmeMiDataStructure
  split <;> simp

@[simp] theorem execNvmSubsystemHealthStatusPoll_leavesStill (tag) (s : State) : LeavesStill s.still (execNvmSubsystemHealthStatusPoll tag s) := by
  simp [execNvmSubsystemHealthStatusPoll]

@[simp] theorem execControllerHealthStatusPoll_leavesStill (tag start maxEntries all) (s : State) :
    LeavesStill s.still (execControllerHealthStatusPoll tag start maxEntries all s) := by
  simp [execControllerHealthStatusPoll]

@[simp] theorem execConfigurationGet_leavesStill (tag id port) (s : State) : LeavesStill s.still (execConfigurationGet tag id port s) := by
  unfold execConfigurationGet
  repeat' split
  all_goals simp

@[simp] theorem execConfigurationSet_leavesStill (tag id port value) (s : State) :
    LeavesStill s.still (execConfigurationSet tag id port value s) := by
  unfold execConfigurationSet
  repeat' split
  all_goals simp

@[simp] theorem execBasicManagementCommand_leavesStill (tag code) (s : State) : LeavesStill s.still (execBasicManagementCommand tag code s) := by
  unfold execBasicManagementCommand
  split <;> simp

@[simp] theorem execAdminCommandTunnel_leavesStill (ctrl cid cmd) (s : State) : LeavesStill s.still (execAdminCommandTunnel ctrl cid cmd s) := by
  unfold execAdminCommandTunnel
  repeat' split
  all_goals simp

@[simp] theorem execMiUnsupportedCommand_leavesStill (tag) (s : State) : LeavesStill s.still (execMiUnsupportedCommand tag s) := by
  simp [execMiUnsupportedCommand]

/-! Microwords. -/

@[simp] theorem State.micro_leavesStill {s : State} {l : LaneIx} {c : CtxIx} {word : BitVec 24} {inRange needsChannel : Bool}
    {go : State → QEntry → Ctx → State} (h : ∀ e k, (go s e k).still = s.still) :
    LeavesStill s.still (s.micro l c word inRange needsChannel go) := by
  simp only [State.micro]
  split
  · simp [h]
  · simp

@[simp] theorem State.advance_still (s : State) (l c k) : (s.advance l c k).still = s.still := (rfl)
@[simp] theorem State.jumpTo_still (s : State) (l c k t) : (s.jumpTo l c k t).still = s.still := (rfl)
@[simp] theorem State.writeW_still (s : State) (l c k d v) : (s.writeW l c k d v).still = s.still := (rfl)
@[simp] theorem execNop_leavesStill (l c) (s : State) : LeavesStill s.still (execNop l c s) := by simp [execNop]
@[simp] theorem execJmp_leavesStill (l c t) (s : State) : LeavesStill s.still (execJmp l c t s) := by simp [execJmp]

@[simp] theorem execBrc_leavesStill (l c cond t) (s : State) : LeavesStill s.still (execBrc l c cond t s) := by
  unfold execBrc
  refine State.micro_leavesStill fun e k => ?_
  split <;> simp

@[simp] theorem execCall_leavesStill (l c t) (s : State) : LeavesStill s.still (execCall l c t s) := by simp [execCall]

@[simp] theorem execRet_leavesStill (l c) (s : State) : LeavesStill s.still (execRet l c s) := by
  unfold execRet
  refine State.micro_leavesStill fun e k => ?_
  split <;> simp

@[simp] theorem execLdi_leavesStill (l c d v) (s : State) : LeavesStill s.still (execLdi l c d v s) := by simp [execLdi]
@[simp] theorem execLdu_leavesStill (l c d v) (s : State) : LeavesStill s.still (execLdu l c d v s) := by simp [execLdu]
@[simp] theorem execLdd_leavesStill (l c d word) (s : State) : LeavesStill s.still (execLdd l c d word s) := by simp [execLdd]
@[simp] theorem execAddi_leavesStill (l c d a v) (s : State) : LeavesStill s.still (execAddi l c d a v s) := by simp [execAddi]
@[simp] theorem execAlu_leavesStill (l c d a b f) (s : State) : LeavesStill s.still (execAlu l c d a b f s) := by simp [execAlu]
@[simp] theorem execCmp_leavesStill (l c a b) (s : State) : LeavesStill s.still (execCmp l c a b s) := by simp [execCmp]
@[simp] theorem execTbl_leavesStill (l c d t i) (s : State) : LeavesStill s.still (execTbl l c d t i s) := by simp [execTbl]
@[simp] theorem execSync_leavesStill (l c) (s : State) : LeavesStill s.still (execSync l c s) := by simp [execSync]
@[simp] theorem execYld_leavesStill (l c) (s : State) : LeavesStill s.still (execYld l c s) := by simp [execYld]
@[simp] theorem execCen_leavesStill (l c n) (s : State) : LeavesStill s.still (execCen l c n s) := by simp [execCen]
@[simp] theorem State.cycles_still (s : State) (l bs) : (s.cycles l bs).still = s.still := (rfl)
@[simp] theorem execCmd_leavesStill (l c fromProfile v) (s : State) : LeavesStill s.still (execCmd l c fromProfile v s) := by simp [execCmd]
@[simp] theorem execAdr_leavesStill (l c a n) (s : State) : LeavesStill s.still (execAdr l c a n s) := by simp [execAdr]
@[simp] theorem execAdx_leavesStill (l c a n) (s : State) : LeavesStill s.still (execAdx l c a n s) := by simp [execAdx]

@[simp] theorem State.burst_still (s : State) (l c e k len ptr toBuffer b) : (s.burst l c e k len ptr toBuffer b).still = s.still := by
  simp only [State.burst]
  split <;> simp

@[simp] theorem execDout_leavesStill (l c a b) (s : State) : LeavesStill s.still (execDout l c a b s) := by simp [execDout]
@[simp] theorem execDin_leavesStill (l c a b toDecoder) (s : State) : LeavesStill s.still (execDin l c a b toDecoder s) := by simp [execDin]
@[simp] theorem execStat_leavesStill (l c d enhanced st) (s : State) : LeavesStill s.still (execStat l c d enhanced st s) := by simp [execStat]
@[simp] theorem execWrdy_leavesStill (l c a st) (s : State) : LeavesStill s.still (execWrdy l c a st s) := by simp [execWrdy]
@[simp] theorem execTim_leavesStill (l c i) (s : State) : LeavesStill s.still (execTim l c i s) := by simp [execTim]
@[simp] theorem execWait_leavesStill (l c a) (s : State) : LeavesStill s.still (execWait l c a s) := by simp [execWait]

@[simp] theorem execLvl_leavesStill (l : LaneIx) (c : CtxIx) (d a : Fin 16) (b : Byte) (s : State) : LeavesStill s.still (execLvl l c d a b s) := by
  unfold execLvl
  refine State.micro_leavesStill fun e k => ?_
  dsimp only
  split
  · simp
  split
  · simp
  · split <;> simp

@[simp] theorem State.phyStep_still (s : State) (l ces step) : (s.phyStep l ces step).still = s.still := by
  unfold State.phyStep
  split <;> simp

@[simp] theorem execPhy_leavesStill (l c step) (s : State) : LeavesStill s.still (execPhy l c step s) := by simp [execPhy]
@[simp] theorem execLoop_leavesStill (l c d t) (s : State) : LeavesStill s.still (execLoop l c d t s) := by simp [execLoop]
@[simp] theorem execSusp_leavesStill (l c) (s : State) : LeavesStill s.still (execSusp l c s) := by simp [execSusp]
@[simp] theorem execSto_leavesStill (l c a word) (s : State) : LeavesStill s.still (execSto l c a word s) := by simp [execSto]
@[simp] theorem execEvt_leavesStill (l c n) (s : State) : LeavesStill s.still (execEvt l c n s) := by simp [execEvt]

@[simp] theorem execDone_leavesStill (l : LaneIx) (c : CtxIx) (status : Byte) (s : State) : LeavesStill s.still (execDone l c status s) := by
  unfold execDone
  refine State.micro_leavesStill fun e k => ?_
  split
  · rfl
  · extract_lets judged
    have hjudged : judged.still = s.still := by
      unfold judged
      split <;> simp
    split
    · simp [hjudged]
    · exact hjudged

@[simp] theorem execTrap_leavesStill (l c code) (s : State) : LeavesStill s.still (execTrap l c code s) := by simp [execTrap]

/-! Supply. -/

@[simp] theorem execRailWindowTimeout_leavesStill (r) (s : State) : LeavesStill s.still (execRailWindowTimeout r s) := by
  simp [execRailWindowTimeout]
@[simp] theorem execRegulatorStartTimeout_leavesStill (r) (s : State) : LeavesStill s.still (execRegulatorStartTimeout r s) := by
  simp [execRegulatorStartTimeout]
@[simp] theorem execBoardRailOutOfWindow_leavesStill (r above) (s : State) : LeavesStill s.still (execBoardRailOutOfWindow r above s) := by
  simp [execBoardRailOutOfWindow]
@[simp] theorem execVinOvervoltage_leavesStill (mv) (s : State) : LeavesStill s.still (execVinOvervoltage mv s) := by simp [execVinOvervoltage]

@[simp] theorem execPowerCapAverage_leavesStill (mw) (s : State) : LeavesStill s.still (execPowerCapAverage mw s) := by
  simp only [execPowerCapAverage]
  repeat' split
  all_goals simp

@[simp] theorem State.powerLost_still (s : State) : s.powerLost.still = s.still := by simp [State.powerLost]

@[simp] theorem State.onLoss_still (s : State) : s.onLoss.still = s.still := by
  unfold State.onLoss
  split <;> simp

@[simp] theorem execPwrLossNAssert_leavesStill (s : State) : LeavesStill s.still (execPwrLossNAssert s) := by simp [execPwrLossNAssert]
@[simp] theorem execVinBelowLossThreshold_leavesStill (s : State) : LeavesStill s.still (execVinBelowLossThreshold s) := by
  simp [execVinBelowLossThreshold]

@[simp] theorem execRescueComplete_leavesStill (tenUs) (s : State) : LeavesStill s.still (execRescueComplete tenUs s) := by
  unfold execRescueComplete
  split <;> simp

@[simp] theorem State.vinGone_still (s : State) : s.vinGone.still = s.still := by simp [State.vinGone]
@[simp] theorem execVinFall_leavesStill (s : State) : LeavesStill s.still (execVinFall s) := by simp [execVinFall]

@[simp] theorem execHuIsoRelease_leavesStill (inputPresent) (s : State) : LeavesStill s.still (execHuIsoRelease inputPresent s) := by
  simp only [execHuIsoRelease]
  repeat' split
  all_goals simp

@[simp] theorem execVinBelowWarning_leavesStill (mv) (s : State) : LeavesStill s.still (execVinBelowWarning mv s) := by simp [execVinBelowWarning]
@[simp] theorem State.startMeasure_still (s : State) : s.startMeasure.still = s.still := by simp [State.startMeasure]
@[simp] theorem execKprCtrlHuMeasure_leavesStill (s : State) : LeavesStill s.still (execKprCtrlHuMeasure s) := by simp [execKprCtrlHuMeasure]
@[simp] theorem execMeasurementIntervalExpiry_leavesStill (s : State) : LeavesStill s.still (execMeasurementIntervalExpiry s) := by
  simp [execMeasurementIntervalExpiry]
@[simp] theorem execHoldupWindowsEmpty_leavesStill (s : State) : LeavesStill s.still (execHoldupWindowsEmpty s) := by simp [execHoldupWindowsEmpty]
@[simp] theorem State.rechargeBank_still (s : State) : s.rechargeBank.still = s.still := (rfl)
@[simp] theorem State.measureFailed_still (s : State) : s.measureFailed.still = s.still := (rfl)
@[simp] theorem execHoldupSettleExpiry_leavesStill (v1) (s : State) : LeavesStill s.still (execHoldupSettleExpiry v1 s) := by
  simp [execHoldupSettleExpiry]

@[simp] theorem execHoldupDischargeCrossing_leavesStill (us) (s : State) : LeavesStill s.still (execHoldupDischargeCrossing us s) := by
  unfold execHoldupDischargeCrossing
  split <;> simp

@[simp] theorem execHoldupDischargeTimeout_leavesStill (s : State) : LeavesStill s.still (execHoldupDischargeTimeout s) := by
  unfold execHoldupDischargeTimeout
  split <;> simp

@[simp] theorem execHoldupRecharged_leavesStill (mv) (s : State) : LeavesStill s.still (execHoldupRecharged mv s) := by simp [execHoldupRecharged]
@[simp] theorem execHoldupChargeTimeout_leavesStill (s : State) : LeavesStill s.still (execHoldupChargeTimeout s) := by
  simp [execHoldupChargeTimeout]
@[simp] theorem execVauxLost_leavesStill (s : State) : LeavesStill s.still (execVauxLost s) := by simp [execVauxLost]

@[simp] theorem execVauxRise_leavesStill (s : State) : LeavesStill s.still (execVauxRise s) := by
  simp only [execVauxRise]
  repeat' split
  all_goals simp

@[simp] theorem execThermistorFault_leavesStill (n shorted) (s : State) : LeavesStill s.still (execThermistorFault n shorted s) := by
  simp [execThermistorFault]
@[simp] theorem execKeeperTemperatureCritical_leavesStill (t) (s : State) : LeavesStill s.still (execKeeperTemperatureCritical t s) := by
  simp [execKeeperTemperatureCritical]
@[simp] theorem execAdcSample_leavesStill (o) (s : State) : LeavesStill s.still (execAdcSample o s) := by simp [execAdcSample]

/-! Management space. -/

@[simp] theorem State.updIrq_still (s : State) (b f) : (s.updIrq b f).still = s.still := by
  unfold State.updIrq
  split <;> simp

@[simp] theorem State.after_still {s : State} {o : Out} (h : LeavesStill s.still o) : (s.after o).still = s.still := by
  cases o with
  | next t => exact h t rfl
  | fault _ => rfl
  | refused _ => rfl

@[simp] theorem State.writeMemTest_still (s : State) (d : DieIx) (w : Word) : (s.writeMemTest d w).still = s.still := by
  simp [State.writeMemTest]

@[simp] theorem State.writeReg_still (s : State) (b : RegBlock) (o : Nat) (w : Word) : (s.writeReg b o w).still = s.still := by
  unfold State.writeReg
  split
  · simp
  · cases b with
    | lane l =>
      have hclear : (if w.getLsbD 0 then s.after (execLneCtrlCntClr l s) else s).still = s.still := by simp
      dsimp only
      split
      · split
        · exact (State.after_still (execLneCtrlRetrain_leavesStill l _)).trans hclear
        · exact hclear
      · rfl
    | _ => simp

@[simp] theorem execRegisterWrite_leavesStill (addr value) (s : State) : LeavesStill s.still (execRegisterWrite addr value s) := by
  unfold execRegisterWrite
  split <;> simp

@[simp] theorem State.countRefused_still (s : State) : s.countRefused.still = s.still := (rfl)
@[simp] theorem State.refuseAccess_still (s : State) (ref) : (s.refuseAccess ref).still = s.still := by simp [State.refuseAccess]
@[simp] theorem State.badMgmt_still (s : State) (ref) : (s.badMgmt ref).still = s.still := by simp [State.badMgmt]

@[simp] theorem State.readDword_still (s : State) (a) : (s.readDword a).1.still = s.still := by
  simp only [State.readDword]
  repeat' split
  all_goals simp

/-- Reading dwords one after the other leaves the array and the queue alone. -/
theorem foldl_readDword_still (as_ : List Nat) (p : State × List Word) :
    (as_.foldl (fun (p : State × List Word) (a : Nat) => ((p.1.readDword a).1, p.2 ++ [(p.1.readDword a).2])) p).1.still = p.1.still := by
  induction as_ generalizing p with
  | nil => rfl
  | cons a as_ ih => simp [ih]

@[simp] theorem execManagementRead_leavesStill (ref : CmdRef) (addr : Word) (numd : Nat) (s : State) :
    LeavesStill s.still (execManagementRead ref addr numd s) := by
  refine State.adminThen_leavesStill ?_
  dsimp only
  split
  · simp
  split
  · simp
  · split
    · simp
    · simp [foldl_readDword_still]

@[simp] theorem State.writeDword_still (s : State) (a w) : (s.writeDword a w).still = s.still := by
  unfold State.writeDword
  split <;> simp

@[simp] theorem execManagementWrite_leavesStill (ref addr values) (s : State) : LeavesStill s.still (execManagementWrite ref addr values s) := by
  unfold execManagementWrite
  refine State.adminThen_leavesStill ?_
  dsimp only
  split
  · simp
  · split <;> simp

/-! The release of D0 (R370 to R380). -/

@[simp] theorem State.enterRecovery_still (s : State) (sealed) : (s.enterRecovery sealed).still = s.still := by simp [State.enterRecovery]

@[simp] theorem State.protectionCheck_still (s : State) (f) : (s.protectionCheck f).1.still = s.still := by
  simp only [State.protectionCheck]
  split <;> simp

theorem State.trySlot_still {s t : State} {k : Fin 2} (h : s.trySlot k = .inr t) : t.still = s.still := by
  simp only [State.trySlot] at h
  split at h
  · cases h; rfl
  split at h
  · cases h; rfl
  split at h
  · cases h
  · cases h; simp

@[simp] theorem State.chooseSlot_still (s : State) : s.chooseSlot.1.still = s.still := by
  simp only [State.chooseSlot]
  split
  · simp
  · next h =>
    split
    · simp [State.trySlot_still h]
    · next h' => simp [State.trySlot_still h', State.trySlot_still h]

@[simp] theorem State.fallback_still (s : State) : s.fallback.still = s.still := by
  simp only [State.fallback]
  split
  · rfl
  · split <;> simp

@[simp] theorem State.startUnconfigured_still (s : State) : s.startUnconfigured.still = s.still := by simp [State.startUnconfigured]

@[simp] theorem State.configureLanes_still (s : State) (r : OptRecords) : (s.configureLanes r).still = s.still := by
  refine still_foldl (fun s l => ?_) _ s
  repeat' split
  all_goals simp

@[simp] theorem State.noteDram_still (s : State) (f) : (s.noteDram f).still = s.still := by simp [State.noteDram]
@[simp] theorem State.dramTrained_still (s : State) (d f) : (s.dramTrained d f).still = s.still := by simp [State.dramTrained]

@[simp] theorem State.loadKeySet_still (s : State) : s.loadKeySet.still = s.still := by
  simp only [State.loadKeySet]
  repeat' split
  all_goals simp

@[simp] theorem State.bringUp_still (s : State) (f img) : (s.bringUp f img).still = s.still := by simp [State.bringUp]

@[simp] theorem State.applyImage_still (s : State) (img live) : (s.applyImage img live).still = s.still := by
  simp only [State.applyImage]
  repeat' split
  all_goals simp

@[simp] theorem State.stagedAtStart_still (s : State) : s.stagedAtStart.still = s.still := by
  unfold State.stagedAtStart
  repeat' split
  all_goals simp

@[simp] theorem State.mainFirmware_still (s : State) (f i) : (s.mainFirmware f i).still = s.still := by
  simp only [State.mainFirmware]
  split <;> simp

@[simp] theorem execD0Release_leavesStill (f) (s : State) : LeavesStill s.still (execD0Release f s) := by
  simp only [execD0Release]
  repeat' split
  all_goals simp

/-! An empty queue (R27, R287, R291, R339, R415). -/

@[simp] theorem State.settleApply_still (s : State) : s.settleApply.still = s.still := by
  unfold State.settleApply
  split <;> simp

@[simp] theorem State.settleWork_still (s : State) : s.settleWork.still = s.still := by simp [State.settleWork]
@[simp] theorem State.tick_still (s : State) : s.tick.still = s.still := by simp [State.tick]
@[simp] theorem State.idle_still (s : State) : s.idle.still = s.still := by simp [State.idle]

end Sys2Proof.Machine
end

