-- ==== Sys2Proof/Proofs/StoreArray.lean ====
section
/-! What reaches the array of the store die: the ends of programs and erases, and the erase of the checkpoint index's tail (R423, R424, R429, R436,
R437). -/

namespace Sys2Proof.Machine

/-! The array after programs and erases (R429, R437). -/

/-- A byte that is not the erased value reads back as written, whatever form the array has. -/
theorem memRead_memWrite_self_of_ne {v : Byte} (hv : v ≠ erasedByte) (m : List Host.Cell) (a : Nat) : memRead (memWrite m a v) a = v := by
  induction m with
  | nil => simp [memWrite, memRead, hv]
  | cons c r ih =>
    obtain ⟨b, w⟩ := c
    rcases lt_trichotomy a b with hlt | rfl | hgt
    · simp [memWrite, memRead, hlt, hv]
    · simp [memWrite, memRead, hv]
    · simp [memWrite, memRead, hgt.not_gt, hgt.ne', ih]

/-- Writing a byte with some of its bits cleared sets no bit. -/
theorem memRead_memWrite_and_sets_none (m : List Host.Cell) (a : Nat) (b : Byte) :
    memRead (memWrite m a (memRead m a &&& b)) a &&& ~~~(memRead m a) = 0 := by
  by_cases hv : memRead m a &&& b = erasedByte
  · have hones : memRead m a = erasedByte := (BitVec.and_eq_allOnes_iff.1 hv).1
    simp [hones, erasedByte]
  · rw [memRead_memWrite_self_of_ne hv, BitVec.and_comm (memRead m a), BitVec.and_assoc, BitVec.and_not_self]
    simp

/-- A program sets no bit (R429). -/
theorem memRead_programBytes_sets_none (bs : List Byte) (m : List Host.Cell) (o a : Nat) :
    memRead (programBytes m o bs) a &&& ~~~(memRead m a) = 0 := by
  induction bs generalizing m o with
  | nil => exact BitVec.and_not_self _
  | cons b bs ih =>
    rw [programBytes]
    by_cases ha : a = o
    · subst ha
      rw [memRead_programBytes_other _ _ _ _ (by omega)]
      exact memRead_memWrite_and_sets_none m a b
    · rw [← memRead_memWrite_other m o a (memRead m o &&& b) ha]
      exact ih _ _

/-- Sectors erased one after the other. -/
theorem memRead_foldl_memEraseSector (ns : List Nat) (m : List Host.Cell) (a : Nat) :
    memRead (ns.foldl memEraseSector m) a = if sectorOf a ∈ ns then erasedByte else memRead m a := by
  induction ns generalizing m with
  | nil => simp
  | cons n ns ih =>
    have hsector : a / 0x10000 = sectorOf a := rfl
    rw [List.foldl_cons, ih, memRead_memEraseSector, hsector]
    by_cases hn : sectorOf a ∈ ns <;> simp [hn]

/-! What ends a program or an erase (R429, R430, R437). -/

theorem array_eq_of_still {s t : State} (h : t.still = s.still) : t.store.array = s.store.array := congrArg Prod.fst h

/-- The end of a program writes as many bytes as the program has, at its offset. -/
theorem execStoreProgramComplete_array {s t : State} {ok : Bool} {p : StoreProgram} (hprog : s.store.prog = some p)
    (hrun : execStoreProgramComplete ok s = .next t) :
    ∃ bs, bs.length = p.bytes.length ∧ t.store.array = programBytes s.store.array p.offset bs := by
  simp only [execStoreProgramComplete, hprog] at hrun
  cases ok with
  | true =>
    obtain rfl := Host.Outcome.next.inj hrun
    exact ⟨p.bytes, rfl, rfl⟩
  | false =>
    obtain rfl := Host.Outcome.next.inj hrun
    have hreport (u : State) : (if p.requester = .keeper ∧ isEventLog (sectorOf p.offset) = true then (u.raise 496).skipLogLine
        else u.raise 496).still = u.still := by simp
    exact ⟨failedBytes s.free p.bytes, failedBytes_length .., array_eq_of_still (hreport _)⟩

/-- With no program running it ends a line of the event log, which stands beside the array (R472). -/
theorem execStoreProgramComplete_leavesStill {s : State} (hprog : s.store.prog = none) (ok : Bool) :
    LeavesStill s.still (execStoreProgramComplete ok s) := by
  simp [execStoreProgramComplete, hprog]

@[simp] theorem State.sectorErased_still (s : State) (n : Nat) :
    (s.sectorErased n).still = (memEraseSector s.still.1 n, s.still.2) := by
  have hrest (u : State) : ((u.areaErased n).countErase n).still = u.still := by simp
  exact hrest _

@[simp] theorem foldl_sectorErased_still (ns : List Nat) (s : State) :
    (ns.foldl State.sectorErased s).still = (ns.foldl memEraseSector s.still.1, s.still.2) := by
  induction ns generalizing s with
  | nil => rfl
  | cons n ns ih => simp [ih]

/-- Sectors that the end of an erase erases: its own, and the first once more after a failed margin reading (R430). -/
def erasedSectors (e : StoreErase) (marginFailures : Nat) : List Nat :=
  e.sectors ++ if 1 ≤ marginFailures then [e.sectors.headD 0] else []

theorem mem_erasedSectors {e : StoreErase} (hne : e.sectors ≠ []) (n m : Nat) : m ∈ erasedSectors e n ↔ m ∈ e.sectors := by
  obtain ⟨x, xs, hx⟩ := List.exists_cons_of_ne_nil hne
  unfold erasedSectors
  split
  · simp only [hx, List.headD_cons, List.mem_append, List.mem_cons, List.not_mem_nil, or_false]
    tauto
  · simp

/-- The end of an erase that runs erases its sectors and leaves the rest of the array alone. -/
theorem execStoreEraseComplete_leavesStill {s : State} {e : StoreErase} (herase : s.store.erase = some e) (hsusp : e.susp = .running) (n : Nat) :
    LeavesStill ((erasedSectors e n).foldl memEraseSector s.still.1, s.still.2) (execStoreEraseComplete n s) := by
  by_cases hfail : 1 ≤ n <;> simp [execStoreEraseComplete, herase, hsusp, erasedSectors, hfail]

theorem execStoreEraseComplete_array {s t : State} {e : StoreErase} (herase : s.store.erase = some e) (hsusp : e.susp = .running) {n : Nat}
    (hrun : execStoreEraseComplete n s = .next t) : t.store.array = (erasedSectors e n).foldl memEraseSector s.store.array :=
  congrArg Prod.fst (execStoreEraseComplete_leavesStill herase hsusp n t hrun)

/-- With no erase running it does nothing. -/
theorem execStoreEraseComplete_of_not_running {s : State} (h : ∀ e, s.store.erase = some e → e.susp ≠ .running) (n : Nat) :
    execStoreEraseComplete n s = .next s := by
  unfold execStoreEraseComplete
  split
  · rfl
  · next e he => exact if_pos (h e he)

/-! The checkpoint index's erase of its tail (R436, R437). -/

/-- At most bytes of the checkpoint index's sectors were erased between the two states. -/
def ErasesIndexOnly (s t : State) : Prop := ∀ a,
  memRead t.store.array a = memRead s.store.array a ∨ (525 ≤ sectorOf a ∧ sectorOf a ≤ 780 ∧ memRead t.store.array a = 0xFF)

theorem ErasesIndexOnly.of_still {s t : State} (h : t.still = s.still) : ErasesIndexOnly s t := fun a =>
  .inl (congrArg (memRead · a) (array_eq_of_still h))

theorem ErasesIndexOnly.refl (s : State) : ErasesIndexOnly s s := .of_still rfl

theorem ErasesIndexOnly.trans {s t u : State} (hst : ErasesIndexOnly s t) (htu : ErasesIndexOnly t u) : ErasesIndexOnly s u := fun a => by
  rcases htu a with hsame | herased
  · rw [hsame]
    exact hst a
  · exact .inr herased

theorem ErasesIndexOnly.foldl {α : Type} {f : State → α → State} (h : ∀ s x, ErasesIndexOnly s (f s x)) (l : List α) (s : State) :
    ErasesIndexOnly s (l.foldl f s) := by
  induction l generalizing s with
  | nil => exact .refl s
  | cons x l ih => exact (h s x).trans (ih _)

theorem ErasesIndexOnly.then_still {s t u : State} (hst : ErasesIndexOnly s t) (htu : u.still = t.still) : ErasesIndexOnly s u :=
  hst.trans (.of_still htu)

theorem ErasesIndexOnly.raise {s t : State} (h : ErasesIndexOnly s t) (src : Nat) : ErasesIndexOnly s (t.raise src) := h.then_still (by simp)

/-- No byte of the factory area is among them. -/
theorem ErasesIndexOnly.factory {s t : State} (h : ErasesIndexOnly s t) {a : Nat} (ha : 2032 ≤ sectorOf a) :
    memRead t.store.array a = memRead s.store.array a := (h a).resolve_right fun ⟨_, hle, _⟩ => by omega

/-- The tail's sector is one of the index's 256. -/
theorem State.eraseTail_erasesIndexOnly {s t : State} (h : t.still = s.still) (tail : Nat) {f : Store → Store}
    (hf : ∀ x, (f x).array = memEraseSector x.array (525 + tail % 256)) : ErasesIndexOnly s (t.updStore f) := fun a => by
  rw [State.updStore_store, hf, memRead_memEraseSector, array_eq_of_still h]
  split
  · next hsector => exact .inr (by unfold sectorOf; exact ⟨by omega, by omega, rfl⟩)
  · exact .inl rfl

theorem State.appendIndex_erasesIndexOnly (s : State) (x : IndexRec) : ErasesIndexOnly s (s.appendIndex x) := by
  simp only [State.appendIndex]
  split
  · exact .of_still (by simp)
  · refine ErasesIndexOnly.raise ?_ 502
    exact State.eraseTail_erasesIndexOnly (by simp) _ fun _ => rfl

theorem State.appendIndex_if_erasesIndexOnly (s : State) (c : Prop) {_ : Decidable c} (x : IndexRec) :
    ErasesIndexOnly s (if c then s.appendIndex x else s) := by
  split
  · exact s.appendIndex_erasesIndexOnly x
  · exact .refl s

theorem State.indexImage_erasesIndexOnly (s : State) (g : RegionIx) (ckptSeq : Nat) : ErasesIndexOnly s (s.indexImage g ckptSeq) := by
  unfold State.indexImage
  extract_lets r
  split
  · exact .refl s
  · extract_lets both entry first second indexed point released
    split
    · exact .refl s
    · have hfirst : ErasesIndexOnly s first := s.appendIndex_if_erasesIndexOnly _ _
      have hsecond : ErasesIndexOnly first second := first.appendIndex_if_erasesIndexOnly _ _
      exact (hfirst.trans hsecond).then_still (by simp [released, indexed])

theorem State.captureAll_erasesIndexOnly (s : State) (g : RegionIx) : ErasesIndexOnly s (s.captureAll g) := by
  refine ErasesIndexOnly.foldl (fun s i => ?_) _ s
  extract_lets captured two marked
  have hmarked : marked.still = s.still := by simp [marked, captured]
  split
  · exact (ErasesIndexOnly.of_still hmarked).trans (marked.indexImage_erasesIndexOnly _ _)
  · exact .of_still hmarked

/-- A pass of DIAPAUSE_READY over the regions: each drains its journal and captures its images (R363 step 5). -/
def State.capturePass (s : State) : State :=
  (List.finRange 4).foldl (fun s g => if (s.regions[g]).inService then (s.drainJournal g).captureAll g else s) s

theorem State.capturePass_erasesIndexOnly (s : State) : ErasesIndexOnly s s.capturePass := by
  refine ErasesIndexOnly.foldl (fun s g => ?_) _ s
  split
  · exact (ErasesIndexOnly.of_still (s.drainJournal_still g)).trans (State.captureAll_erasesIndexOnly _ g)
  · exact .refl s

theorem execDiapauseReady_erasesIndexOnly {s t : State} (h : execDiapauseReady s = .next t) : ErasesIndexOnly s t := by
  have hpasses : ErasesIndexOnly s s.sealAllOpen.capturePass.capturePass :=
    ((ErasesIndexOnly.of_still s.sealAllOpen_still).trans (State.capturePass_erasesIndexOnly _)).trans (State.capturePass_erasesIndexOnly _)
  unfold execDiapauseReady at h
  split at h
  · split at h
    · obtain rfl := Host.Outcome.next.inj h
      exact .refl s
    · obtain rfl := Host.Outcome.next.inj h
      exact hpasses.then_still (by simp [State.capturePass])
  all_goals
    obtain rfl := Host.Outcome.next.inj h
    exact .refl s

/-! Every command. -/

/-- Every command but the four that end programs and erases or write the index leaves the array and the queue alone. -/
theorem exec_leavesStill {i : Instr} (s : State) (hprogram : ∀ ok, i ≠ .storeProgramComplete ok) (herase : ∀ n, i ≠ .storeEraseComplete n)
    (hindex : ∀ g q, i ≠ .checkpointIndexWrite g q) (hready : i ≠ .diapauseReady) : LeavesStill s.still (exec i s) := by
  cases i with
  | storeProgramComplete ok => exact absurd rfl (hprogram ok)
  | storeEraseComplete n => exact absurd rfl (herase n)
  | checkpointIndexWrite g q => exact absurd rfl (hindex g q)
  | diapauseReady => exact absurd rfl hready
  | _ => simp

/-- A command that ends neither a program nor an erase erases at most the tail of the checkpoint index. -/
theorem exec_erasesIndexOnly {i : Instr} {s t : State} (hprogram : ∀ ok, i ≠ .storeProgramComplete ok)
    (herase : ∀ n, i ≠ .storeEraseComplete n) (hrun : exec i s = .next t) : ErasesIndexOnly s t := by
  by_cases hready : i = .diapauseReady
  · subst hready
    exact execDiapauseReady_erasesIndexOnly hrun
  by_cases hindex : ∃ g q, i = .checkpointIndexWrite g q
  · obtain ⟨g, q, rfl⟩ := hindex
    obtain rfl := Host.Outcome.next.inj hrun
    exact s.indexImage_erasesIndexOnly g q
  · push Not at hindex
    exact .of_still (exec_leavesStill s hprogram herase hindex hready t hrun)

/-! The factory area (R424). -/

theorem sectorOf_factory {a : Nat} (ha : 0x7F00000 ≤ a) : 2032 ≤ sectorOf a := by
  unfold sectorOf
  omega

/-- The factory area reads as Tuivahan left it, whatever the state. -/
theorem State.arrayByte_factory (s : State) {a : Nat} (ha : 0x7F00000 ≤ a) : s.arrayByte a = some (factoryArea (a - 0x7F00000)) := by
  simp [State.arrayByte, isFactory, sectorOf_factory ha]

theorem execStoreProgramComplete_factory {s t : State} (hkept : s.storeKept) {a : Nat} (ha : 0x7F00000 ≤ a) {ok : Bool}
    (hrun : execStoreProgramComplete ok s = .next t) : memRead t.store.array a = memRead s.store.array a := by
  obtain ⟨-, hprogs, -⟩ := hkept
  cases hprog : s.store.prog with
  | none => rw [array_eq_of_still (execStoreProgramComplete_leavesStill hprog ok t hrun)]
  | some p =>
    obtain ⟨bs, hlen, harray⟩ := execStoreProgramComplete_array hprog hrun
    have hend := hprogs p hprog
    rw [harray, memRead_programBytes_other _ _ _ _ (by omega)]

theorem erasedSectors_factory {e : StoreErase} (h : ∀ m ∈ e.sectors, isFactory m = false) (n : Nat) :
    ∀ m ∈ erasedSectors e n, isFactory m = false := by
  cases hsectors : e.sectors with
  | nil =>
    unfold erasedSectors
    rw [hsectors]
    split <;> simp [isFactory]
  | cons x xs =>
    intro m hm
    exact h m ((mem_erasedSectors (by simp [hsectors]) n m).1 hm)

theorem execStoreEraseComplete_factory {s t : State} (hkept : s.storeKept) {a : Nat} (ha : 0x7F00000 ≤ a) {n : Nat}
    (hrun : execStoreEraseComplete n s = .next t) : memRead t.store.array a = memRead s.store.array a := by
  obtain ⟨-, -, herases, -⟩ := hkept
  by_cases hruns : ∃ e, s.store.erase = some e ∧ e.susp = .running
  · obtain ⟨e, herase, hsusp⟩ := hruns
    have hmiss : sectorOf a ∉ erasedSectors e n := fun hmem => by
      have hnot := erasedSectors_factory (herases e herase).1 n _ hmem
      simp [isFactory, sectorOf_factory ha] at hnot
    rw [execStoreEraseComplete_array herase hsusp hrun, memRead_foldl_memEraseSector, if_neg hmiss]
  · push Not at hruns
    rw [execStoreEraseComplete_of_not_running hruns] at hrun
    rw [Host.Outcome.next.inj hrun]

/-- In a sound state no command changes a byte of the factory area. -/
theorem exec_factory {i : Instr} {s t : State} (hkept : s.storeKept) {a : Nat} (ha : 0x7F00000 ≤ a) (hrun : exec i s = .next t) :
    memRead t.store.array a = memRead s.store.array a := by
  by_cases hprogram : ∃ ok, i = .storeProgramComplete ok
  · obtain ⟨ok, rfl⟩ := hprogram
    exact execStoreProgramComplete_factory hkept ha hrun
  by_cases herase : ∃ n, i = .storeEraseComplete n
  · obtain ⟨n, rfl⟩ := herase
    exact execStoreEraseComplete_factory hkept ha hrun
  · push Not at hprogram herase
    exact (exec_erasesIndexOnly hprogram herase hrun).factory (sectorOf_factory ha)

/-- Nor does a step. -/
theorem step_factory {s t : State} (hkept : s.storeKept) {a : Nat} (ha : 0x7F00000 ≤ a) (hrun : step s = .next t) :
    memRead t.store.array a = memRead s.store.array a := by
  unfold step at hrun
  split at hrun
  · obtain rfl := Host.Outcome.next.inj hrun
    rw [array_eq_of_still s.idle_still]
  · next c rest _ => exact exec_factory (s := { s with pending := rest }) hkept ha hrun

/-- Settles O47: every operation but the ends of programs and erases and the index's write leaves the array alone, the index erases sectors of its
own, a program writes within its bytes and clears bits only, an erase erases its sectors, and neither of them reaches the factory area. -/
theorem arrayChangesOnlyByProgramsAndErases : Obligations.ArrayChangesOnlyByProgramsAndErases := by
  unfold Obligations.ArrayChangesOnlyByProgramsAndErases
  refine ⟨fun i s t a hrun hprogram herase => exec_erasesIndexOnly hprogram herase hrun a, ?program, ?erase,
    fun i s t a hkept ha hrun => ⟨exec_factory hkept ha hrun, by simp only [State.arrayByte_factory _ ha]⟩,
    fun s t a hkept ha hrun => ⟨step_factory hkept ha hrun, by simp only [State.arrayByte_factory _ ha]⟩⟩
  case program =>
    intro ok s t p hprog hrun a
    obtain ⟨bs, hlen, harray⟩ := execStoreProgramComplete_array hprog hrun
    rw [harray]
    exact ⟨fun hout => memRead_programBytes_other _ _ _ _ (by omega), memRead_programBytes_sets_none ..⟩
  case erase =>
    intro n s t e herase hsusp hne hrun a
    rw [execStoreEraseComplete_array herase hsusp hrun, memRead_foldl_memEraseSector]
    simp only [mem_erasedSectors hne]
    exact ⟨fun hout => if_neg hout, fun hin => if_pos hin⟩

end Sys2Proof.Machine
end

