-- ==== Sys2Proof/Proofs/EventReports.lean ====
section
/-! A report sets one interrupt bit and sends at most one token (R455, R458 to R460, R63). -/

namespace Sys2Proof.Machine

/-! What a report reads from the state is what it leaves alone (R458). -/

@[simp] theorem State.setIrq_fc (s : State) (src : Nat) : (s.setIrq src).keeper.fc = s.keeper.fc := by
  unfold State.setIrq
  repeat' split
  all_goals rfl

theorem State.setIrq_bridgeUp (s : State) (src : Nat) : (s.setIrq src).bridgeUp = s.bridgeUp := congrArg (·.bridgeUp) (s.setIrq_mute src)

theorem State.setIrq_shadows (s : State) (src : Nat) : (s.setIrq src).shadows = s.shadows := by
  have hdie (d : DieIx) : ((s.setIrq src).com d).shadows = (s.com d).shadows := by
    simpa [State.mute, DieSt.mute, State.com] using congrArg (fun t : State => t.dies[d].common.shadows) (s.setIrq_mute src)
  simp only [State.shadows, hdie, State.setIrq_fc]

theorem State.setIrq_causeOf (s : State) (src : Nat) (b : Block) : (s.setIrq src).causeOf b = s.causeOf b := by
  rw [State.causeOf, State.setIrq_shadows]; rfl

/-! The token (R458, R459). -/

/-- What the token of an event carries to the collector. -/
def State.tokenOf (s : State) (b : Block) (src : Nat) (x y : Word) : EventToken :=
  { source := src, data0 := x, data1 := y, cause := s.causeOf b, injected := false, fromD1 := blockDie b == some 1 }

theorem State.raiseFrom_of_defined {src : Nat} (h : (classOf src).isSome = true) (s : State) (b : Block) (x y : Word) :
    s.raiseFrom b src x y = (s.setIrq src).sendToken b src x y false := by
  rw [State.raiseFrom, if_neg (by simpa using Option.isSome_iff_ne_none.1 h)]

theorem State.raiseFrom_tokens {src : Nat} (h : (classOf src).isSome = true) (s : State) (b : Block) (x y : Word) :
    (s.raiseFrom b src x y).keeper.fc.tokens =
      if blockDie b = some 1 ∧ s.bridgeUp = false then s.keeper.fc.tokens else s.keeper.fc.tokens ++ [s.tokenOf b src x y] := by
  rw [State.raiseFrom_of_defined h]
  simp only [State.sendToken, State.setIrq_bridgeUp, State.setIrq_causeOf]
  by_cases hlost : blockDie b = some 1 ∧ s.bridgeUp = false
  · simp [hlost]
  · rw [if_neg hlost, if_neg (by simpa using hlost)]
    simp [State.tokenOf]

/-! The interrupt bit of the source's own block (R455, R460). -/

theorem State.sendToken_lanes (s : State) (b : Block) (src : Nat) (x y : Word) (i : Bool) : (s.sendToken b src x y i).lanes = s.lanes := by
  unfold State.sendToken
  extract_lets
  split <;> rfl

theorem State.sendToken_clusters (s : State) (b : Block) (src : Nat) (x y : Word) (i : Bool) :
    (s.sendToken b src x y i).clusters = s.clusters := by
  unfold State.sendToken
  extract_lets
  split <;> rfl

theorem State.sendToken_regions (s : State) (b : Block) (src : Nat) (x y : Word) (i : Bool) :
    (s.sendToken b src x y i).regions = s.regions := by
  unfold State.sendToken
  extract_lets
  split <;> rfl

theorem classOf_lane (l : LaneIx) (k : Fin 8) : (classOf (8 * l.val + k.val)).isSome = true := by
  rw [classOf, if_pos (by omega)]; rfl

theorem classOf_cluster (c : ClusterIx) (k : Fin 6) : (classOf (192 + 6 * c.val + k.val)).isSome = true := by
  rw [classOf, if_neg (by omega), if_pos (by omega)]; rfl

theorem classOf_region (g : RegionIx) (k : Fin 8) : (classOf (264 + 8 * g.val + k.val)).isSome = true := by
  rw [classOf, if_neg (by omega), if_neg (by omega), if_pos (by omega)]; rfl

theorem State.raiseFrom_lane_irq (s : State) (b : Block) (x y : Word) (l : LaneIx) (k : Fin 8) :
    ((s.raiseFrom b (8 * l.val + k.val) x y).lanes[l]).irq = (s.lanes[l]).irq.set k.val := by
  have hlane : (8 * l.val + k.val) / 8 = l.val := by omega
  have hbit : (8 * l.val + k.val) % 8 = k.val := by omega
  rw [State.raiseFrom_of_defined (classOf_lane l k), State.sendToken_lanes, State.setIrq, dif_pos (by omega)]
  simp [State.updLane, hlane, hbit]

theorem State.raiseFrom_cluster_irq (s : State) (b : Block) (x y : Word) (c : ClusterIx) (k : Fin 6) :
    ((s.raiseFrom b (192 + 6 * c.val + k.val) x y).clusters[c]).irq = (s.clusters[c]).irq.set k.val := by
  have hcluster : (192 + 6 * c.val + k.val - 192) / 6 = c.val := by omega
  have hbit : (192 + 6 * c.val + k.val - 192) % 6 = k.val := by omega
  rw [State.raiseFrom_of_defined (classOf_cluster c k), State.sendToken_clusters, State.setIrq, dif_neg (by omega), dif_pos (by omega)]
  simp [State.updCluster, hcluster, hbit]

theorem State.raiseFrom_region_irq (s : State) (b : Block) (x y : Word) (g : RegionIx) (k : Fin 8) :
    ((s.raiseFrom b (264 + 8 * g.val + k.val) x y).regions[g]).irq = (s.regions[g]).irq.set k.val := by
  have hregion : (264 + 8 * g.val + k.val - 264) / 8 = g.val := by omega
  have hbit : (264 + 8 * g.val + k.val - 264) % 8 = k.val := by omega
  rw [State.raiseFrom_of_defined (classOf_region g k), State.sendToken_regions, State.setIrq, dif_neg (by omega), dif_neg (by omega),
    dif_pos (by omega)]
  simp [State.updRegion, hregion, hbit]

/-! The interrupt of a die's core (R63). -/

theorem Irq.line_iff (x : Irq) : x.line = true ↔ x.pend &&& x.en ≠ 0 := bne_iff_ne

theorem State.coreIrq_iff (s : State) (d : DieIx) :
    s.coreIrq d = true ↔ ∃ b ∈ coreBlocks d, ∃ i : Irq × Word, s.irqOf b = some i ∧ i.1.pend &&& i.1.en ≠ 0 := by
  simp only [State.coreIrq, List.any_eq_true]
  refine exists_congr fun b => and_congr_right fun _ => ?_
  cases s.irqOf b <;> simp [Irq.line_iff]

theorem lane_mem_coreBlocks (l : LaneIx) : RegBlock.lane l ∈ coreBlocks (dieOfLane l) := by simp [coreBlocks, lanesOfDie]

/-- A pending bit whose enable is set raises the line of its block. -/
theorem Irq.line_set {x : Irq} {n : Nat} (h : x.en.getLsbD n = true) : (x.set n).line = true := by
  have hn : n < 32 := BitVec.lt_of_getLsbD h
  rw [Irq.line_iff]
  intro hzero
  have hset : (BitVec.ofNat 32 (2 ^ n)).getLsbD n = true := by
    rw [BitVec.getLsbD_ofNat, Nat.testBit_two_pow_self, decide_eq_true hn, Bool.and_self]
  have hbit : ((x.set n).pend &&& (x.set n).en).getLsbD n = true := by
    rw [Irq.set, BitVec.getLsbD_and, BitVec.getLsbD_or, hset, h, Bool.or_true, Bool.and_self]
  simp [hzero] at hbit

theorem State.coreIrq_of_lane {s : State} {l : LaneIx} (h : (s.lanes[l]).irq.line = true) : s.coreIrq (dieOfLane l) = true :=
  (State.coreIrq_iff ..).2 ⟨.lane l, lane_mem_coreBlocks l, ((s.lanes[l]).irq, 0xFF), rfl, (Irq.line_iff _).1 h⟩

/-- Settles O53: a report sets one bit of one IRQ register and appends at most one token, and the core of a lane's die sees the lane's line. -/
theorem eventsReportAndNothingElse : Obligations.EventsReportAndNothingElse := by
  unfold Obligations.EventsReportAndNothingElse
  refine ⟨?report, State.raiseFrom_lane_irq, State.raiseFrom_cluster_irq, State.raiseFrom_region_irq, State.coreIrq_iff, ?core⟩
  case report =>
    intro s b src x y hdefined
    refine ⟨s.raiseFrom_mute b src x y, fun hd1 hdown => ?_, fun hsends => ?_⟩
    · rw [State.raiseFrom_tokens hdefined, if_pos ⟨hd1, hdown⟩]
    · rw [State.raiseFrom_tokens hdefined, if_neg fun hlost => hsends.elim (· hlost.1) (by simp [hlost.2])]
      rfl
  case core =>
    intro s b x y l k hen
    refine State.coreIrq_of_lane ?_
    rw [State.raiseFrom_lane_irq]
    exact Irq.line_set hen

end Sys2Proof.Machine
end

