-- ==== Sys2Proof/Proofs/FaultFrame.lean ====
section
/-! What every operation leaves of reactions' shadows, the safe state and VIN (R465, R466, R477, R478): the update rules, the operations that the
meanings share, lanes, regions, keys and clusters. -/

namespace Sys2Proof.Machine

/-- What stands of reactions: the open shadows of each die, the keeper's own, the safe state (R465, R477), and VIN. -/
structure FaultView where
  shadows : DieIx → List Shadow
  keeperShadow : Option Shadow
  safe : Bool
  vin : Bool

def faultView (dies : Vector DieSt 2) (keeperShadow : Option Shadow) (safe vin : Bool) : FaultView :=
  { shadows := fun d => (dies[d]).common.shadows, keeperShadow, safe, vin }

/-- The view that the state shows. Where an operation leaves it alone by unfolding, its lemma's proof is `(rfl)`, which keeps it out of `dsimp`'s set: `simp` uses no `dsimp`
lemma under a premise about a function. -/
def State.faults (s : State) : FaultView := faultView s.dies s.keeper.fc.shadow s.keeper.fc.safe s.keeper.sup.vinOk

/-- What may stand after `v`: no die comes to hold more than four shadows, the keeper's is that of the safe state, and the safe state lasts while
VIN does (R466, R477, R478). -/
structure FaultView.Allows (v w : FaultView) : Prop where
  few : ∀ d, (v.shadows d).length ≤ 4 → (w.shadows d).length ≤ 4
  keeper : (∀ sh, v.keeperShadow = some sh → sh.source = 378) → ∀ sh, w.keeperShadow = some sh → sh.source = 378
  safe : v.safe = true → w.safe = true ∨ w.vin = false

@[simp] theorem FaultView.Allows.refl (v : FaultView) : v.Allows v := ⟨fun _ => id, id, .inl⟩

/-- An outcome that goes on leaves what may stand after `v`. -/
def LeavesFaults (v : FaultView) (o : Out) : Prop := ∀ t, o = .next t → v.Allows t.faults
@[simp] theorem leavesFaults_next {v} {t : State} : LeavesFaults v (.next t) ↔ v.Allows t.faults :=
  ⟨fun h => h t rfl, fun h u e => by cases e; exact h⟩
@[simp] theorem leavesFaults_unchanged {v} {s : State} : LeavesFaults v (unchanged s) ↔ v.Allows s.faults := leavesFaults_next
@[simp] theorem leavesFaults_ite {v} {c : Prop} {_ : Decidable c} (a b : Out) :
    LeavesFaults v (if c then a else b) ↔ if c then LeavesFaults v a else LeavesFaults v b := by split <;> rfl
@[simp] theorem faults_ite {c : Prop} {_ : Decidable c} (a b : State) :
    (if c then a else b).faults = if c then a.faults else b.faults := by split <;> rfl
@[simp] theorem faults_dite {c : Prop} {_ : Decidable c} (a : c → State) (b : ¬ c → State) :
    (if h : c then a h else b h).faults = if h : c then (a h).faults else (b h).faults := by split <;> rfl

@[simp] theorem faults_foldl {α : Type} {f : State → α → State} (h : ∀ s x, (f s x).faults = s.faults) (l : List α) (s : State) :
    (l.foldl f s).faults = s.faults := by
  induction l generalizing s with
  | nil => rfl
  | cons x l ih => exact (ih _).trans (h s x)

@[simp] theorem faults_mk (keeper : Keeper) (store : Store) (opt : OptionArea) (fw : Firmware) (dies : Vector DieSt 2) (regions : Vector RegionSt 4)
    (clusters : Vector ClusterSt 12) (lanes : Vector LaneSt 24) (sub : Subsys) (swarm : SwarmSt) (up : Bool) (pending : List Instr) (free : Nat) :
    (State.mk keeper store opt fw dies regions clusters lanes sub swarm up pending free).faults =
      faultView dies keeper.fc.shadow keeper.fc.safe keeper.sup.vinOk := (rfl)

@[simp] theorem faults_eta (s : State) : faultView s.dies s.keeper.fc.shadow s.keeper.fc.safe s.keeper.sup.vinOk = s.faults := (rfl)
theorem faults_of_fst {α : Type} {p : State × α} {t : State} {x : α} (h : p = (t, x)) : t.faults = p.1.faults := by rw [h]

/-! Parts of the state, events. -/

@[simp] theorem State.updStore_faults (s : State) (f) : (s.updStore f).faults = s.faults := (rfl)
@[simp] theorem State.updSup_faults {s : State} {f : Supply → Supply} (h : ∀ x, (f x).vinOk = x.vinOk) : (s.updSup f).faults = s.faults :=
  congrArg (fun v => { s.faults with vin := v }) (h s.keeper.sup)
@[simp] theorem State.updHu_faults (s : State) (f) : (s.updHu f).faults = s.faults := (rfl)
@[simp] theorem State.updRescue_faults (s : State) (f) : (s.updRescue f).faults = s.faults := (rfl)
@[simp] theorem State.updTk_faults (s : State) (f) : (s.updTk f).faults = s.faults := (rfl)
@[simp] theorem State.updBoot_faults (s : State) (f) : (s.updBoot f).faults = s.faults := (rfl)
@[simp] theorem State.updFc_faults {s : State} {f : Collector → Collector} (h : ∀ x, (f x).shadow = x.shadow) (h' : ∀ x, (f x).safe = x.safe) :
    (s.updFc f).faults = s.faults :=
  congrArg₂ (fun a b => { s.faults with keeperShadow := a, safe := b }) (h s.keeper.fc) (h' s.keeper.fc)
@[simp] theorem State.updEv_faults (s : State) (f) : (s.updEv f).faults = s.faults := (rfl)
@[simp] theorem State.updMp_faults (s : State) (f) : (s.updMp f).faults = s.faults := (rfl)
@[simp] theorem State.updOpt_faults (s : State) (f) : (s.updOpt f).faults = s.faults := (rfl)
@[simp] theorem State.updFw_faults (s : State) (f) : (s.updFw f).faults = s.faults := (rfl)
@[simp] theorem State.updDie_faults {s : State} {d : DieIx} {f : DieSt → DieSt} (h : ∀ x, (f x).common.shadows = x.common.shadows) :
    (s.updDie d f).faults = s.faults := by
  have hdies (e : DieIx) : ((s.dies.set d (f s.dies[d]))[e]).common.shadows = (s.dies[e]).common.shadows := by
    by_cases he : d.val = e.val
    · obtain rfl := Fin.ext he
      simp [h]
    · simp [he]
  exact congrArg (fun x => { s.faults with shadows := x }) (funext hdies)
@[simp] theorem State.updCommon_faults {s : State} {d : DieIx} {f : DieCommon → DieCommon} (h : ∀ x, (f x).shadows = x.shadows) :
    (s.updCommon d f).faults = s.faults := State.updDie_faults fun x => h x.common
@[simp] theorem State.updRegion_faults (s : State) (g f) : (s.updRegion g f).faults = s.faults := (rfl)
@[simp] theorem State.updCluster_faults (s : State) (c f) : (s.updCluster c f).faults = s.faults := (rfl)
@[simp] theorem State.updLane_faults (s : State) (l f) : (s.updLane l f).faults = s.faults := (rfl)

/-! Reporting an event sets interrupt bits and appends a token (R458). -/

theorem State.mute_faults (s : State) : s.mute.faults = s.faults :=
  congrArg (fun x => { s.faults with shadows := x }) (funext fun d => by simp [State.mute, DieSt.mute])
theorem faults_of_mute {s t : State} (h : t.mute = s.mute) : t.faults = s.faults := by rw [← t.mute_faults, h, s.mute_faults]
@[simp] theorem State.setIrq_faults (s : State) (src) : (s.setIrq src).faults = s.faults := faults_of_mute (s.setIrq_mute src)
@[simp] theorem State.sendToken_faults (s : State) (b src d0 d1 injected) : (s.sendToken b src d0 d1 injected).faults = s.faults :=
  faults_of_mute (s.sendToken_mute b src d0 d1 injected)
@[simp] theorem State.raiseFrom_faults (s : State) (b src d0 d1) : (s.raiseFrom b src d0 d1).faults = s.faults :=
  faults_of_mute (s.raiseFrom_mute b src d0 d1)

/-! Shadows and the safe state. -/

theorem FaultView.Allows.of_eq {v : FaultView} {s t : State} (h : v.Allows s.faults) (ht : t.faults = s.faults) : v.Allows t.faults := ht ▸ h
@[simp] theorem FaultView.allows_ite {v a b : FaultView} {c : Prop} {_ : Decidable c} :
    v.Allows (if c then a else b) ↔ if c then v.Allows a else v.Allows b := by split <;> rfl
theorem FaultView.Allows.ite {v : FaultView} {a b : State} {c : Prop} {_ : Decidable c} (ha : v.Allows a.faults) (hb : v.Allows b.faults) :
    v.Allows (if c then a else b).faults := by split <;> assumption
theorem FaultView.Allows.foldl {α : Type} {v : FaultView} {f : State → α → State} (hf : ∀ s x, v.Allows s.faults → v.Allows (f s x).faults)
    {s : State} (h : v.Allows s.faults) (l : List α) : v.Allows (l.foldl f s).faults := by
  induction l generalizing s with
  | nil => exact h
  | cons x l ih => exact ih (hf s x h)

theorem FaultView.Allows.updDie {v : FaultView} {s : State} {d : DieIx} {f : DieSt → DieSt} (h : v.Allows s.faults)
    (hf : (f s.dies[d]).common.shadows.length ≤ max 4 (s.dies[d]).common.shadows.length) : v.Allows (s.updDie d f).faults where
  few e hv := by
    have hs : (s.dies[e]).common.shadows.length ≤ 4 := h.few e hv
    show ((s.dies.set d (f s.dies[d]))[e]).common.shadows.length ≤ 4
    by_cases he : d.val = e.val
    · obtain rfl := Fin.ext he
      simpa using hf.trans (max_le le_rfl hs)
    · simpa [he] using hs
  keeper := h.keeper
  safe := h.safe

@[simp] theorem FaultView.Allows.openShadow {v : FaultView} {s : State} (h : v.Allows s.faults) (d : DieIx) (source : Nat) (scope : ShadowScope)
    (own : Block) : v.Allows (s.openShadow d source scope own).faults := by
  unfold State.openShadow
  split
  · exact h
  split
  · simpa using h
  · next hfew =>
    refine .updDie (.of_eq h (State.updFc_faults (fun _ => rfl) fun _ => rfl)) (le_max_of_le_left ?_)
    simpa [State.com] using hfew

/-! The applied option image. -/

@[simp] theorem State.raiseRail_faults (s : State) (r above) : (s.raiseRail r above).faults = s.faults := (rfl)

/-! A lane engine: slots, order, completion. -/

@[simp] theorem State.raiseLane_faults (s : State) (l k d) : (s.raiseLane l k d).faults = s.faults := by simp [State.raiseLane]
@[simp] theorem State.raiseLaneAll_faults (s : State) (l k) : (s.raiseLaneAll l k).faults = s.faults := by simp [State.raiseLaneAll]
@[simp] theorem State.finishDesc_faults (s : State) (l e st nand addr value) : (s.finishDesc l e st nand addr value).1.faults = s.faults := (rfl)
@[simp] theorem State.bind_faults (s : State) (l c e op) : (s.bind l c e op).faults = s.faults := (rfl)

@[simp] theorem State.suspendIfDue_faults (s : State) (l u) : (s.suspendIfDue l u).faults = s.faults := by
  simp only [State.suspendIfDue]
  repeat' split
  all_goals simp

@[simp] theorem State.balanceErases_faults (s : State) (l) : (s.balanceErases l).faults = s.faults := by simp [State.balanceErases]
@[simp] theorem State.turns_faults (s : State) (l) : (s.turns l).faults = s.faults := by simp [State.turns]

@[simp] theorem State.finishAll_faults (s : State) (l : LaneIx) (st : LaneStatus) (es : List QEntry) : (s.finishAll l st es).1.faults = s.faults := by
  induction es generalizing s with
  | nil => rfl
  | cons e es ih => simp only [State.finishAll, ih, State.finishDesc_faults]

@[simp] theorem State.abandonErases_faults (s : State) (l which) : (s.abandonErases l which).1.faults = s.faults := by simp [State.abandonErases]
@[simp] theorem State.laneQuarantine_faults (s : State) (l mask) : (s.laneQuarantine l mask).1.faults = s.faults := by simp [State.laneQuarantine]
@[simp] theorem State.laneStop_faults (s : State) (l) : (s.laneStop l).1.faults = s.faults := by simp [State.laneStop]
@[simp] theorem State.enqueue_faults (s : State) (l d p k) : (s.enqueue l d p k).faults = s.faults := by simp [State.enqueue]
@[simp] theorem State.refuseDesc_faults (s : State) (l d) : (s.refuseDesc l d).faults = s.faults := by simp [State.refuseDesc]
@[simp] theorem State.laneReissue_faults (s : State) (l) : (s.laneReissue l).faults = s.faults := (rfl)

/-! Crossings. -/

@[simp] theorem State.updCrossing_faults (s : State) (x f) : (s.updCrossing x f).faults = s.faults := by
  unfold State.updCrossing
  split <;> simp

@[simp] theorem State.carry_faults (s : State) (x out bytes) : (s.carry x out bytes).faults = s.faults := by simp [State.carry]
@[simp] theorem State.clockOrder_faults (s : State) (on xs) : (s.clockOrder on xs).faults = s.faults := by simp [State.clockOrder]
@[simp] theorem State.bridgeSend_faults (s : State) (toward item kind) : (s.bridgeSend toward item kind).faults = s.faults := by
  simp [State.bridgeSend]

@[simp] theorem State.clearBridge_faults (s : State) : s.clearBridge.faults = s.faults := by simp [State.clearBridge]

/-! Buffer pools and memory tables. -/

@[simp] theorem State.updPool_faults (s : State) (d f) : (s.updPool d f).faults = s.faults := by simp [State.updPool]
@[simp] theorem State.updMem_faults (s : State) (d f) : (s.updMem d f).faults = s.faults := by simp [State.updMem]
@[simp] theorem State.updCipher_faults (s : State) (d f) : (s.updCipher d f).faults = s.faults := by simp [State.updCipher]
@[simp] theorem State.updHost_faults (s : State) (d f) : (s.updHost d f).faults = s.faults := by simp [State.updHost]
@[simp] theorem State.updSub_faults (s : State) (f) : (s.updSub f).faults = s.faults := (rfl)
@[simp] theorem State.allocBuf_faults (s : State) (d c i) : (s.allocBuf d c i).faults = s.faults := by simp [State.allocBuf]
@[simp] theorem State.waitFor_faults (s : State) (d r) : (s.waitFor d r).faults = s.faults := by simp [State.waitFor]
@[simp] theorem State.waitBuf_faults (s : State) (d c k ref) : (s.waitBuf d c k ref).faults = s.faults := by simp [State.waitBuf]
@[simp] theorem State.pointerFault_faults (s : State) (d ptr cause user) : (s.pointerFault d ptr cause user).faults = s.faults := by
  simp [State.pointerFault]

@[simp] theorem State.refFault_faults (s : State) (d) : (s.refFault d).faults = s.faults := by simp [State.refFault]
@[simp] theorem State.updTable_faults (s : State) (d k f) : (s.updTable d k f).faults = s.faults := by simp [State.updTable]
@[simp] theorem State.retireLine_faults (s : State) (d addr) : (s.retireLine d addr).faults = s.faults := by simp [State.retireLine]

@[simp] theorem State.dropBuf_faults (s : State) (d c i) : (s.dropBuf d c i).faults = s.faults := by
  unfold State.dropBuf
  repeat' split
  all_goals simp

@[simp] theorem State.enterWindow_faults (s : State) (d c i) : (s.enterWindow d c i).1.faults = s.faults := by simp [State.enterWindow]

@[simp] theorem State.releaseWindow_faults (s : State) (d id) : (s.releaseWindow d id).faults = s.faults := by
  unfold State.releaseWindow
  split <;> simp

/-! A region: map, bands, journal. -/

@[simp] theorem State.updTab_faults (s : State) (g f) : (s.updTab g f).faults = s.faults := (rfl)
@[simp] theorem State.updJrn_faults (s : State) (g f) : (s.updJrn g f).faults = s.faults := (rfl)
@[simp] theorem State.setEntry_faults (s : State) (gran e) : (s.setEntry gran e).faults = s.faults := (rfl)
@[simp] theorem State.updBand_faults (s : State) (g b f) : (s.updBand g b f).faults = s.faults := (rfl)
@[simp] theorem State.jot_faults (s : State) (g x) : (s.jot g x).faults = s.faults := (rfl)
@[simp] theorem State.jotNow_faults (s : State) (g x) : (s.jotNow g x).faults = s.faults := (rfl)
@[simp] theorem State.enterReadOnly_faults (s : State) (g c) : (s.enterReadOnly g c).faults = s.faults := by simp [State.enterReadOnly]

@[simp] theorem State.takeSeqs_faults (s : State) (g n) : (s.takeSeqs g n).1.faults = s.faults := by
  simp only [State.takeSeqs]
  repeat' split
  all_goals simp

@[simp] theorem State.takeSeq_faults (s : State) (g) : (s.takeSeq g).1.faults = s.faults := by simp [State.takeSeq]

@[simp] theorem State.replaceAt_faults (s : State) (g geo p b u) : (s.replaceAt g geo p b u).faults = s.faults := by
  simp only [State.replaceAt]
  repeat' split
  all_goals simp

@[simp] theorem State.replaceBad_faults (s : State) (g geo p b) : (s.replaceBad g geo p b).faults = s.faults := by simp [State.replaceBad]
@[simp] theorem State.checkFree_faults (s : State) (g) : (s.checkFree g).faults = s.faults := by simp [State.checkFree]

@[simp] theorem State.openBand_faults (s : State) (g kind use d stream) : (s.openBand g kind use d stream).1.faults = s.faults := by
  simp only [State.openBand]
  repeat' split
  all_goals simp

@[simp] theorem State.jotFlags_faults (s : State) (g b) : (s.jotFlags g b).faults = s.faults := (rfl)

@[simp] theorem State.dropCopies_faults (s : State) (g : RegionIx) (b : Nat) (which : Placed → Bool) :
    (s.dropCopies g b which).faults = s.faults := by
  unfold State.dropCopies
  refine (faults_foldl (fun s pl => ?_) _ _).trans (State.updBand_faults ..)
  split <;> simp

@[simp] theorem State.dropUnmappable_faults (s : State) (g b) : (s.dropUnmappable g b).faults = s.faults := by
  unfold State.dropUnmappable
  split <;> simp

@[simp] theorem State.sealBand_faults (s : State) (g b short) : (s.sealBand g b short).faults = s.faults := by simp [State.sealBand]
@[simp] theorem State.sealIfFull_faults (s : State) (g b) : (s.sealIfFull g b).faults = s.faults := by simp [State.sealIfFull]
@[simp] theorem State.bandFor_faults (s : State) (g use d stream) : (s.bandFor g use d stream).1.faults = s.faults := by simp [State.bandFor]

@[simp] theorem State.placeIn_faults (s : State) (g b mk) : (s.placeIn g b mk).1.faults = s.faults := by
  unfold State.placeIn
  split <;> simp

@[simp] theorem State.padOut_faults (s : State) (g b) : (s.padOut g b).faults = s.faults := by
  unfold State.padOut
  split <;> simp

@[simp] theorem State.throughRow_faults (s : State) (g b stream) : (s.throughRow g b stream).faults = s.faults := by simp [State.throughRow]
@[simp] theorem State.checkSpare_faults (s : State) (g) : (s.checkSpare g).faults = s.faults := by simp [State.checkSpare]
@[simp] theorem State.checkSpares_faults (s : State) : s.checkSpares.faults = s.faults := by simp [State.checkSpares]
@[simp] theorem State.checkWear_faults (s : State) (g) : (s.checkWear g).faults = s.faults := by simp [State.checkWear]

/-! Frames that are read. -/

@[simp] theorem State.placeRun_faults (s : State) (run) : (s.placeRun run).faults = s.faults := by
  unfold State.placeRun
  split <;> simp

@[simp] theorem State.admitRuns_faults (s : State) (g : RegionIx) (n : Nat) : (s.admitRuns g n).faults = s.faults := by
  induction n generalizing s with
  | zero => rfl
  | succ n ih =>
    simp only [State.admitRuns]
    split <;> simp [ih]

@[simp] theorem State.raiseRun_faults (s : State) (g b rank) : (s.raiseRun g b rank).faults = s.faults := (rfl)
@[simp] theorem State.freshId_faults (s : State) : s.freshId.faults = s.faults := (rfl)
@[simp] theorem State.requestRun_faults (s : State) (g b rank failedRow) : (s.requestRun g b rank failedRow).faults = s.faults := by
  simp [State.requestRun]

@[simp] theorem State.backgroundRun_faults (s : State) (g) : (s.backgroundRun g).faults = s.faults := by
  simp only [State.backgroundRun]
  split <;> simp

@[simp] theorem State.updClimb_faults (s : State) (c id f) : (s.updClimb c id f).faults = s.faults := (rfl)
@[simp] theorem State.addClimb_faults (s : State) (c k) : (s.addClimb c k).faults = s.faults := (rfl)
@[simp] theorem State.wantFrame_faults (s : State) (r) : (s.wantFrame r).faults = s.faults := by simp [State.wantFrame]
@[simp] theorem State.failStep_faults (s : State) (c k) : (s.failStep c k).faults = s.faults := by simp [State.failStep]
@[simp] theorem State.readsFailed_faults (s : State) (c : ClusterIx) (ids : List Nat) : (s.readsFailed c ids).faults = s.faults :=
  faults_foldl (fun s id => by split <;> simp) ids s
@[simp] theorem State.updSweep_faults (s : State) (c run f) : (s.updSweep c run f).faults = s.faults := (rfl)

@[simp] theorem State.climbsFail_faults (s : State) (lun) : (s.climbsFail lun).faults = s.faults := by
  unfold State.climbsFail
  split <;> simp

@[simp] theorem State.endAsks_faults (s : State) (out) : (s.endAsks out).faults = s.faults := by simp [State.endAsks]
@[simp] theorem State.stopClimbs_faults (s : State) (which) : (s.stopClimbs which).faults = s.faults := by simp [State.stopClimbs]

@[simp] theorem State.wantFigs_faults (s : State) (gran figs who ref) : (s.wantFigs gran figs who ref).faults = s.faults := by
  unfold State.wantFigs
  split <;> simp

@[simp] theorem State.wantCopy_faults (s : State) (gran who) : (s.wantCopy gran who).faults = s.faults := by simp [State.wantCopy]

/-! The results of a region's lanes. -/

@[simp] theorem State.remap_faults (s : State) (g gran new cas) : (s.remap g gran new cas).faults = s.faults := (rfl)
@[simp] theorem State.compareAndSet_faults (s : State) (g pl b src) : (s.compareAndSet g pl b src).faults = s.faults := by simp [State.compareAndSet]

@[simp] theorem State.checkReclaimed_faults (s : State) (g b) : (s.checkReclaimed g b).faults = s.faults := by
  simp only [State.checkReclaimed]
  split <;> simp

@[simp] theorem State.stampEighth_faults (s : State) (g b row) : (s.stampEighth g b row).faults = s.faults := by
  unfold State.stampEighth
  split <;> simp

@[simp] theorem State.mapUpdate_faults (s : State) (g pl b) : (s.mapUpdate g pl b).faults = s.faults := by
  unfold State.mapUpdate
  repeat' split
  all_goals simp

@[simp] theorem State.rowDone_faults (s : State) (g : RegionIx) (b w u : Nat) : (s.rowDone g b w u).faults = s.faults := by
  unfold State.rowDone
  split
  · refine (faults_foldl (fun s pl => ?_) _ _).trans (by simp)
    split <;> simp
  · rfl

@[simp] theorem State.accFree_faults (s : State) (g p) : (s.accFree g p).faults = s.faults := (rfl)

@[simp] theorem State.parityDone_faults (s : State) (g b w k) : (s.parityDone g b w k).faults = s.faults := by
  unfold State.parityDone
  split <;> simp

@[simp] theorem State.releaseFold_faults (s : State) (g b which) : (s.releaseFold g b which).faults = s.faults := by simp [State.releaseFold]

@[simp] theorem State.foldNext_faults (s : State) (g) : (s.foldNext g).faults = s.faults := by
  unfold State.foldNext
  repeat' split
  all_goals simp

@[simp] theorem State.foldGo_faults (s : State) (g) : (s.foldGo g).faults = s.faults := by
  unfold State.foldGo
  split <;> simp

@[simp] theorem State.foldStart_faults (s : State) (g) : (s.foldStart g).faults = s.faults := by simp [State.foldStart]

@[simp] theorem State.reclaimNext_faults (s : State) (g k) : (s.reclaimNext g k).faults = s.faults := by
  simp only [State.reclaimNext]
  repeat' split
  all_goals simp

@[simp] theorem State.checkStaging_faults (s : State) (g) : (s.checkStaging g).faults = s.faults := by
  unfold State.checkStaging
  split <;> simp

@[simp] theorem State.bandForCopy_faults (s : State) (g : RegionIx) (c : Copy) (stream : Byte) : (s.bandForCopy g c stream).1.faults = s.faults := by
  unfold State.bandForCopy
  cases c.kind
  case fold => simp
  all_goals
    dsimp only
    split
    · simp
    · split
      · next h => simp [faults_of_fst h]
      · next h => simp [faults_of_fst h]

@[simp] theorem State.finishCopy_faults (s : State) (g : RegionIx) (c : Copy) : (s.finishCopy g c).faults = s.faults := by
  simp only [State.finishCopy]
  split
  · simp
  split
  · rfl
  split
  · next h => simp only [faults_of_fst h, State.bandForCopy_faults]
  · next h =>
    split
    · next h' => simp only [faults_of_fst h', State.takeSeq_faults, faults_of_fst h, State.bandForCopy_faults]
    · next h' =>
      split <;> simp [faults_of_fst h', faults_of_fst h]

@[simp] theorem State.copyFrame_faults (s : State) (q u) : (s.copyFrame q u).faults = s.faults := by
  simp only [State.copyFrame]
  split <;> simp

@[simp] theorem State.endCopy_faults (s : State) (g gran) : (s.endCopy g gran).faults = s.faults := by simp [State.endCopy]
@[simp] theorem State.copyTurns_faults (s : State) (g) : (s.copyTurns g).faults = s.faults := by simp [State.copyTurns]
@[simp] theorem State.settleCopies_faults (s : State) (g) : (s.settleCopies g).faults = s.faults := (rfl)

@[simp] theorem State.addJournalBand_faults (s : State) (g : RegionIx) (c : Fin 2) : (s.addJournalBand g c).faults = s.faults := by
  simp only [State.addJournalBand, State.settleCopies_faults]
  split
  · next h => simp [faults_of_fst h]
  · next h => simp [faults_of_fst h]

@[simp] theorem State.refillJournal_faults (s : State) (side) : (s.refillJournal side).faults = s.faults := by simp [State.refillJournal]

@[simp] theorem State.nextJournalBand_faults (s : State) (g c) : (s.nextJournalBand g c).faults = s.faults := by
  unfold State.nextJournalBand
  split <;> simp

@[simp] theorem State.journalLost_faults (s : State) (g n c) : (s.journalLost g n c).faults = s.faults := by simp [State.journalLost]

@[simp] theorem State.losePosition_faults (s : State) (g lun) : (s.losePosition g lun).faults = s.faults := by
  simp only [State.losePosition]
  repeat' split
  all_goals simp

@[simp] theorem State.closeRebuild_faults (s : State) (g spare) : (s.closeRebuild g spare).faults = s.faults := by
  simp only [State.closeRebuild]
  repeat' split
  all_goals simp

@[simp] theorem State.dropRebuild_faults (s : State) (g b) : (s.dropRebuild g b).faults = s.faults := by simp [State.dropRebuild]
@[simp] theorem State.runsReleased_faults (s : State) (g b) : (s.runsReleased g b).faults = s.faults := (rfl)

@[simp] theorem State.bandErased_faults (s : State) (g b) : (s.bandErased g b).faults = s.faults := by
  unfold State.bandErased
  split <;> simp

@[simp] theorem State.eraseTurn_faults (s : State) (g b) : (s.eraseTurn g b).faults = s.faults := by simp [State.eraseTurn]
@[simp] theorem State.intend_faults (s : State) (g b) : (s.intend g b).faults = s.faults := (rfl)
@[simp] theorem State.eraseIntent_faults (s : State) (g b) : (s.eraseIntent g b).faults = s.faults := by simp [State.eraseIntent]

@[simp] theorem State.eraseBand_faults (s : State) (g b) : (s.eraseBand g b).faults = s.faults := by
  unfold State.eraseBand
  split <;> simp

@[simp] theorem State.placeAgain_faults (s : State) (g : RegionIx) (b : Nat) (pl : Placed) : (s.placeAgain g b pl).faults = s.faults := by
  simp only [State.placeAgain]
  split
  · next h => simp [faults_of_fst h]
  · next h =>
    split
    · next h' => simp [faults_of_fst h', faults_of_fst h]
    · next h' => simp [faults_of_fst h', faults_of_fst h]

@[simp] theorem State.padRow_faults (s : State) (g b u w) : (s.padRow g b u w).faults = s.faults := by
  unfold State.padRow
  split <;> simp

@[simp] theorem State.placeLost_faults (s : State) (g b) : (s.placeLost g b).faults = s.faults := by
  unfold State.placeLost
  split <;> simp

@[simp] theorem State.completeRow_faults (s : State) (g b w) : (s.completeRow g b w).faults = s.faults := by
  unfold State.completeRow
  split <;> simp

@[simp] theorem State.completeRows_faults (s : State) (g b from_) : (s.completeRows g b from_).faults = s.faults := by simp [State.completeRows]

@[simp] theorem State.positionEnds_faults (s : State) (g b w u) : (s.positionEnds g b w u).faults = s.faults := by
  unfold State.positionEnds
  split <;> simp

@[simp] theorem State.sealOnLun_faults (s : State) (g : RegionIx) (lun : Nat) : (s.sealOnLun g lun).faults = s.faults := by
  simp only [State.sealOnLun]
  split
  · rfl
  · refine faults_foldl (fun s x => ?_) _ _
    split
    · rfl
    · split <;> simp

@[simp] theorem State.erasesOff_faults (s : State) (g lun) : (s.erasesOff g lun).faults = s.faults := by simp [State.erasesOff]

@[simp] theorem State.abandonedWork_faults (s : State) (d) : (s.abandonedWork d).faults = s.faults := by
  unfold State.abandonedWork
  split <;> simp

@[simp] theorem State.quarantineLun_faults (s : State) (lun cause) : (s.quarantineLun lun cause).faults = s.faults := by
  unfold State.quarantineLun
  split <;> simp

@[simp] theorem State.quarantineLane_faults (s : State) (l) : (s.quarantineLane l).faults = s.faults := by simp [State.quarantineLane]
@[simp] theorem State.retireBlock_faults (s : State) (g lun blk cause) : (s.retireBlock g lun blk cause).faults = s.faults := by
  simp [State.retireBlock]

@[simp] theorem State.programLost_faults (s : State) (g b w u lun blk retire) : (s.programLost g b w u lun blk retire).faults = s.faults := by
  simp [State.programLost]

@[simp] theorem State.relocateRow_faults (s : State) (g b w) : (s.relocateRow g b w).faults = s.faults := by
  unfold State.relocateRow
  split <;> simp

@[simp] theorem State.parityLost_faults (s : State) (g b w lun blk retire) : (s.parityLost g b w lun blk retire).faults = s.faults := by
  simp [State.parityLost]

@[simp] theorem State.journalFail_faults (s : State) (g n c lun blk retire) : (s.journalFail g n c lun blk retire).faults = s.faults := by
  simp [State.journalFail]

@[simp] theorem State.rebuildRowDone_faults (s : State) (g b spare rows) : (s.rebuildRowDone g b spare rows).faults = s.faults := by
  unfold State.rebuildRowDone
  split <;> simp

@[simp] theorem State.rebuildAgain_faults (s : State) (g b spare cause) : (s.rebuildAgain g b spare cause).faults = s.faults := by
  unfold State.rebuildAgain
  split <;> simp

/-! The areas of the store die. -/

@[simp] theorem State.countErase_faults (s : State) (n) : (s.countErase n).faults = s.faults := by simp [State.countErase]
@[simp] theorem State.countErases_faults (s : State) (first n) : (s.countErases first n).faults = s.faults := by simp [State.countErases]
@[simp] theorem State.keeperLine_faults (s : State) (k) : (s.keeperLine k).faults = s.faults := by simp [State.keeperLine]

/-! Timekeeping. -/

@[simp] theorem State.refreshMedia_faults (s : State) : s.refreshMedia.faults = s.faults := (rfl)
@[simp] theorem State.addAge_faults (s : State) (temp secs) : (s.addAge temp secs).faults = s.faults := (rfl)
@[simp] theorem State.writeTkRecord_faults (s : State) : s.writeTkRecord.faults = s.faults := by simp [State.writeTkRecord]
@[simp] theorem State.startClocks_faults (s : State) (kept darkMs) : (s.startClocks kept darkMs).faults = s.faults := by simp [State.startClocks]
@[simp] theorem State.setTimestamp_faults (s : State) (ms) : (s.setTimestamp ms).faults = s.faults := by simp [State.setTimestamp]
@[simp] theorem State.addMinutes_faults (s : State) (n) : (s.addMinutes n).faults = s.faults := (rfl)
@[simp] theorem State.minutePassed_faults (s : State) : s.minutePassed.faults = s.faults := (rfl)
@[simp] theorem State.ticks_faults (s : State) (n usecs) : (s.ticks n usecs).faults = s.faults := by
  unfold State.ticks
  extract_lets die
  have hdie (c : DieCommon) : (die c).shadows = c.shadows := by
    unfold die
    split <;> rfl
  simp [hdie]

@[simp] theorem execThermalAgeAccumulate_leavesFaults (s : State) : LeavesFaults s.faults (execThermalAgeAccumulate s) := by
  simp [execThermalAgeAccumulate]

@[simp] theorem execCarapaceTemperatureSample_leavesFaults (s : State) : LeavesFaults s.faults (execCarapaceTemperatureSample s) := by
  simp [execCarapaceTemperatureSample]

@[simp] theorem execTimekeepingRecordWrite_leavesFaults (s : State) : LeavesFaults s.faults (execTimekeepingRecordWrite s) := by
  simp [execTimekeepingRecordWrite]

@[simp] theorem execGapTimeout_leavesFaults (s : State) : LeavesFaults s.faults (execGapTimeout s) := by simp [execGapTimeout]

/-! Completions and asynchronous events. -/

@[simp] theorem State.postAsync_faults (s : State) (e) : (s.postAsync e).faults = s.faults := by simp [State.postAsync]
@[simp] theorem State.setPower_faults (s : State) (ps) : (s.setPower ps).faults = s.faults := by simp [State.setPower]
@[simp] theorem State.wake_faults (s : State) : s.wake.faults = s.faults := by simp [State.wake]
@[simp] theorem State.updSlots_faults (s : State) (f) : (s.updSlots f).faults = s.faults := by simp [State.updSlots]

@[simp] theorem State.grantLookup_faults (s : State) (g) : (s.grantLookup g).faults = s.faults := by
  unfold State.grantLookup
  repeat' split
  all_goals simp

@[simp] theorem State.lookupDone_faults (s : State) (g) : (s.lookupDone g).faults = s.faults := by
  unfold State.lookupDone
  split <;> simp

@[simp] theorem State.endLooks_faults (s : State) (x) : (s.endLooks x).faults = s.faults := by simp [State.endLooks]

@[simp] theorem State.completeWith_faults (s : State) (ref st dw0 data) : (s.completeWith ref st dw0 data).faults = s.faults := by
  unfold State.completeWith
  split <;> simp

@[simp] theorem State.complete_faults (s : State) (ref st dw0) : (s.complete ref st dw0).faults = s.faults := by simp [State.complete]
@[simp] theorem State.cancelReady_faults (s : State) : s.cancelReady.faults = s.faults := by simp [State.cancelReady]

@[simp] theorem State.adminThen_leavesFaults {s : State} {k : AdminKind} {ref : CmdRef} {f : State → Out} (h : LeavesFaults s.faults (f s)) :
    LeavesFaults s.faults (s.adminThen k ref f) := by
  unfold State.adminThen
  split
  · simp
  · split
    · simp
    · exact h

/-! The swarm's tables and messages. -/

@[simp] theorem State.updSwarm_faults (s : State) (f) : (s.updSwarm f).faults = s.faults := (rfl)
@[simp] theorem State.updSession_faults (s : State) (c f) : (s.updSession c f).faults = s.faults := (rfl)
@[simp] theorem State.updPeer_faults (s : State) (c f) : (s.updPeer c f).faults = s.faults := (rfl)
@[simp] theorem State.sealWith_faults (s : State) (c k f) : (s.sealWith c k f).faults = s.faults := by simp [State.sealWith]
@[simp] theorem State.sendFrom_faults (s : State) (d hdr m) : (s.sendFrom d hdr m).faults = s.faults := by simp [State.sendFrom]
@[simp] theorem State.send_faults (s : State) (hdr m) : (s.send hdr m).faults = s.faults := by simp [State.send]
@[simp] theorem State.newHdr_faults (s : State) (peer) : (s.newHdr peer).1.faults = s.faults := (rfl)
@[simp] theorem State.request_faults (s : State) (d hdr m) : (s.request d hdr m).faults = s.faults := by simp [State.request]
@[simp] theorem State.answer_faults (s : State) (hdr m) : (s.answer hdr m).faults = s.faults := by simp [State.answer]
@[simp] theorem State.nak_faults (s : State) (hdr reason refused) : (s.nak hdr reason refused).faults = s.faults := by simp [State.nak]
@[simp] theorem State.answeredBy_faults (s : State) (hdr) : (s.answeredBy hdr).faults = s.faults := (rfl)

@[simp] theorem State.sendDurable_faults (s : State) (g hdr m isAnswer) : (s.sendDurable g hdr m isAnswer).faults = s.faults := by
  unfold State.sendDurable
  split <;> simp

@[simp] theorem State.updSeg_faults (s : State) (g band seg f) : (s.updSeg g band seg f).faults = s.faults := (rfl)
@[simp] theorem State.putStripe_faults (s : State) (r) : (s.putStripe r).faults = s.faults := (rfl)
@[simp] theorem State.freeStripe_faults (s : State) (stripe) : (s.freeStripe stripe).faults = s.faults := (rfl)
@[simp] theorem State.checkParity_faults (s : State) : s.checkParity.faults = s.faults := by simp [State.checkParity]

@[simp] theorem State.postLight_faults (s : State) (member reason) : (s.postLight member reason).faults = s.faults := by
  unfold State.postLight
  split <;> simp

@[simp] theorem State.deferred_faults (s : State) (holder) : (s.deferred holder).faults = s.faults := by
  unfold State.deferred
  split <;> simp

@[simp] theorem State.backlogFell_faults (s : State) : s.backlogFell.faults = s.faults := by simp [State.backlogFell]
@[simp] theorem State.startWork_faults (s : State) (w) : (s.startWork w).faults = s.faults := by simp [State.startWork]
@[simp] theorem State.endWork_faults (s : State) (w) : (s.endWork w).faults = s.faults := (rfl)
@[simp] theorem State.checkRetracted_faults (s : State) (g b) : (s.checkRetracted g b).faults = s.faults := by simp [State.checkRetracted]

/-! The retry ladder. -/

@[simp] theorem State.countErrors_faults (s : State) (l mismatch step1) : (s.countErrors l mismatch step1).faults = s.faults := (rfl)

@[simp] theorem State.queueJob_faults (s : State) (home j) : (s.queueJob home j).faults = s.faults := by
  unfold State.queueJob
  repeat' split
  all_goals simp

@[simp] theorem State.reroute_faults (s : State) (c soft) : (s.reroute c soft).faults = s.faults := by simp [State.reroute]

@[simp] theorem State.ageCorrection_faults (s : State) (r) : (s.ageCorrection r).faults = s.faults := by
  unfold State.ageCorrection
  split <;> simp

@[simp] theorem State.markRefresh_faults (s : State) (g b) : (s.markRefresh g b).faults = s.faults := by simp [State.markRefresh]
@[simp] theorem State.relocateSoon_faults (s : State) (g gran) : (s.relocateSoon g gran).faults = s.faults := (rfl)
@[simp] theorem State.contribBlocked_faults (s : State) (g b seg) : (s.contribBlocked g b seg).faults = s.faults := by simp [State.contribBlocked]
@[simp] theorem State.holdBand_faults (s : State) (g b cause) : (s.holdBand g b cause).faults = s.faults := by simp [State.holdBand]
@[simp] theorem State.sendBlocked_faults (s : State) (g b frame) : (s.sendBlocked g b frame).faults = s.faults := by simp [State.sendBlocked]
@[simp] theorem State.patrolFrame_faults (s : State) (q step corrected ok) : (s.patrolFrame q step corrected ok).faults = s.faults := by
  simp [State.patrolFrame]

@[simp] theorem State.accRead_faults (s : State) (q) : (s.accRead q).faults = s.faults := by
  simp only [State.accRead]
  repeat' split
  all_goals simp

@[simp] theorem State.deliverTo_faults (s : State) (k q step corrected byOther ok u) :
    (s.deliverTo k q step corrected byOther ok u).faults = s.faults := by
  simp only [State.deliverTo]
  split <;> simp

@[simp] theorem State.endClimb_faults (s : State) (c k step corrected byOther ok u) :
    (s.endClimb c k step corrected byOther ok u).faults = s.faults := by
  simp only [State.endClimb]
  repeat' split
  all_goals simp

@[simp] theorem State.countLun_faults (s : State) (lun step4Failed) : (s.countLun lun step4Failed).faults = s.faults := by simp [State.countLun]
@[simp] theorem State.integrityMet_faults (s : State) (g) : (s.integrityMet g).faults = s.faults := (rfl)
@[simp] theorem State.integrityRepaired_faults (s : State) (g gran e) : (s.integrityRepaired g gran e).faults = s.faults := (rfl)
@[simp] theorem State.integrityLost_faults (s : State) (g gran) : (s.integrityLost g gran).faults = s.faults := (rfl)
@[simp] theorem State.meetIntegrity_faults (s : State) (gran) : (s.meetIntegrity gran).faults = s.faults := by simp [State.meetIntegrity]
@[simp] theorem State.failIntegrity_faults (s : State) (c k) : (s.failIntegrity c k).faults = s.faults := by simp [State.failIntegrity]

@[simp] theorem State.frameReadDone_faults (s : State) (c : ClusterIx) (ids : List Nat) (st : LaneStatus) :
    (s.frameReadDone c ids st).faults = s.faults := by
  refine faults_foldl (fun s id => ?_) ids s
  split <;> simp

/-! Key slots. -/

@[simp] theorem State.loadSlots_faults (s : State) (d k) : (s.loadSlots d k).faults = s.faults := by simp [State.loadSlots]
@[simp] theorem State.loadBoth_faults (s : State) (k) : (s.loadBoth k).faults = s.faults := by simp [State.loadBoth]

@[simp] theorem State.settleSanitize_faults (s : State) : s.settleSanitize.faults = s.faults := by
  unfold State.settleSanitize
  split <;> simp

@[simp] theorem State.settleErase_faults (s : State) : s.settleErase.faults = s.faults := by
  simp only [State.settleErase]
  repeat' split
  all_goals simp

/-! Completions above the lane. -/

@[simp] theorem State.countTimeout_faults (s : State) (lun) : (s.countTimeout lun).faults = s.faults := by simp [State.countTimeout]
@[simp] theorem State.countProgram_faults (s : State) (d) : (s.countProgram d).faults = s.faults := by simp [State.countProgram]
@[simp] theorem State.passDone_faults (s : State) (g b w u d) : (s.passDone g b w u d).faults = s.faults := by simp [State.passDone]

@[simp] theorem State.onDone_faults (s : State) (d) : (s.onDone d).faults = s.faults := by
  unfold State.onDone
  split <;> simp

@[simp] theorem State.onDoneAll_faults (s : State) (ds) : (s.onDoneAll ds).faults = s.faults := by simp [State.onDoneAll]

/-! Descriptors and their submission. -/

@[simp] theorem State.deposit_faults (s : State) (d ptr v) : (s.deposit d ptr v).faults = s.faults := by
  unfold State.deposit
  split <;> simp

@[simp] theorem State.sendReads_faults (s : State) (l d ids) : (s.sendReads l d ids).faults = s.faults := by simp [State.sendReads]

theorem State.accTake_faults {s t : State} {l : LaneIx} {g : RegionIx} {b u : Nat} {d : Descriptor} (h : s.accTake l g b u d = some t) :
    t.faults = s.faults := by
  simp only [State.accTake] at h
  split at h
  · cases h; rfl
  split at h
  · cases h; rfl
  split at h
  · cases h
  · cases h; rfl

@[simp] theorem State.holdFold_faults (s : State) (l g b w u d) : (s.holdFold l g b w u d).faults = s.faults := by
  unfold State.holdFold
  split <;> simp

@[simp] theorem State.placeOwn_faults (s : State) (reqs) : (s.placeOwn reqs).faults = s.faults := by simp [State.placeOwn]

/-- A submission that goes ahead leaves the view as `v`. -/
def Submission.LeavesFaults (v : FaultView) : Submission → Prop
  | .go t _ => t.faults = v
  | .notIt | .held => True

@[simp] theorem Submission.leavesFaults_go {v} {t : State} {q : Purpose} : (Submission.go t q).LeavesFaults v ↔ t.faults = v := .rfl
@[simp] theorem Submission.leavesFaults_notIt {v} : Submission.notIt.LeavesFaults v := trivial
@[simp] theorem Submission.leavesFaults_ite {v} {c : Prop} {_ : Decidable c} (x y : Submission) :
    Submission.LeavesFaults v (if c then x else y) ↔ if c then x.LeavesFaults v else y.LeavesFaults v := by split <;> rfl

theorem State.submitData_leavesFaults (s : State) (l : LaneIx) (d : Descriptor) (g : RegionIx) (b : Nat) :
    (s.submitData l d g b).LeavesFaults s.faults := by
  unfold State.submitData
  split
  · simp only [Submission.leavesFaults_ite]
    split
    · trivial
    · split
      · next h => simp [Submission.LeavesFaults, State.accTake_faults h]
      · trivial
  · trivial

theorem State.submitParity_leavesFaults (s : State) (l : LaneIx) (d : Descriptor) (g : RegionIx) (b : Nat) :
    (s.submitParity l d g b).LeavesFaults s.faults := by
  unfold State.submitParity
  split
  · dsimp only
    split
    · trivial
    split
    · trivial
    split
    · simp [Submission.LeavesFaults]
    · split
      · next h => simp [Submission.LeavesFaults, faults_of_fst h]
      · trivial
  · trivial

theorem State.submission_leavesFaults (s : State) (l : LaneIx) (d : Descriptor) (p : Purpose) : (s.submission l d p).LeavesFaults s.faults := by
  cases p
  case dataRow g b => exact s.submitData_leavesFaults l d g b
  case parityRow g b => exact s.submitParity_leavesFaults l d g b
  case plain =>
    simp only [State.submission]
    split <;> simp
  case rescue =>
    simp only [State.submission]
    split <;> simp
  all_goals simp [State.submission]

/-! Lane commands. -/

@[simp] theorem State.grantSlot_faults (s : State) (l) : (s.grantSlot l).faults = s.faults := by
  simp only [State.grantSlot]
  repeat' split
  all_goals simp

@[simp] theorem execResourceSlotFree_leavesFaults (r) (s : State) : LeavesFaults s.faults (execResourceSlotFree r s) := by
  simp only [execResourceSlotFree]
  repeat' split
  all_goals simp

@[simp] theorem execDescriptorSubmit_leavesFaults (l : LaneIx) (d : Descriptor) (p : Purpose) (s : State) :
    LeavesFaults s.faults (execDescriptorSubmit l d p s) := by
  have hsub := s.submission_leavesFaults l d p
  simp only [execDescriptorSubmit, leavesFaults_ite]
  split
  · simp
  split
  · simp
  · simp
  · next t q h =>
    have ht : t.faults = s.faults := by simpa [h, Submission.LeavesFaults] using hsub
    split
    · split <;> simp [ht]
    · simp [ht]

@[simp] theorem State.markDirty_faults (s : State) (xs) : (s.markDirty xs).faults = s.faults := by simp [State.markDirty]
@[simp] theorem State.settle_faults (s : State) (l e st nand addr value) : (s.settle l e st nand addr value).faults = s.faults := by
  simp [State.settle]

@[simp] theorem State.startOp_leavesFaults {s : State} {l : LaneIx} {op : LaneOp} {go : State → CtxIx → QEntry → State}
    (h : ∀ t c e, (go t c e).faults = t.faults) : LeavesFaults s.faults (s.startOp l op go) := by
  simp only [State.startOp]
  split
  · simp
  · simp only [leavesFaults_ite]
    split
    · simp
    split
    · simp
    split
    · simp
    · split <;> simp [h]

@[simp] theorem execReadPage_leavesFaults (l) (s : State) : LeavesFaults s.faults (execReadPage l s) := by simp [execReadPage]
@[simp] theorem execReadSoft_leavesFaults (l) (s : State) : LeavesFaults s.faults (execReadSoft l s) := by simp [execReadSoft]
@[simp] theorem execMarginRead_leavesFaults (l) (s : State) : LeavesFaults s.faults (execMarginRead l s) := by simp [execMarginRead]
@[simp] theorem execOffsetSweep_leavesFaults (l) (s : State) : LeavesFaults s.faults (execOffsetSweep l s) := by simp [execOffsetSweep]
@[simp] theorem execProgramPage_leavesFaults (l) (s : State) : LeavesFaults s.faults (execProgramPage l s) := by simp [execProgramPage]
@[simp] theorem execProgramPass_leavesFaults (l) (s : State) : LeavesFaults s.faults (execProgramPass l s) := by simp [execProgramPass]
@[simp] theorem execSetFeature_leavesFaults (l) (s : State) : LeavesFaults s.faults (execSetFeature l s) := by simp [execSetFeature]
@[simp] theorem execGetFeature_leavesFaults (l) (s : State) : LeavesFaults s.faults (execGetFeature l s) := by simp [execGetFeature]
@[simp] theorem execReadStatus_leavesFaults (l) (s : State) : LeavesFaults s.faults (execReadStatus l s) := by simp [execReadStatus]
@[simp] theorem execEraseBlock_leavesFaults (l) (s : State) : LeavesFaults s.faults (execEraseBlock l s) := by simp [execEraseBlock]

@[simp] theorem execSuspend_leavesFaults (l : LaneIx) (s : State) : LeavesFaults s.faults (execSuspend l s) := by
  refine State.startOp_leavesFaults fun s _ e => ?_
  dsimp only
  split
  · simp
  split
  · simp
  · split <;> simp

@[simp] theorem execResume_leavesFaults (l) (s : State) : LeavesFaults s.faults (execResume l s) := by
  unfold execResume
  refine State.startOp_leavesFaults fun t _ e => ?_
  split <;> simp

@[simp] theorem State.microFault_faults (s : State) (l c e addr cause) : (s.microFault l c e addr cause).faults = s.faults := by
  simp [State.microFault]

@[simp] theorem State.trained_faults (s : State) (l cause stepped) : (s.trained l cause stepped).faults = s.faults := (rfl)
@[simp] theorem State.laneUntrainable_faults (s : State) (l) : (s.laneUntrainable l).faults = s.faults := by simp [State.laneUntrainable]
@[simp] theorem State.trainingLeft_faults (s : State) (l) : (s.trainingLeft l).faults = s.faults := (rfl)
@[simp] theorem State.calibrate_faults (s : State) (l ces put) : (s.calibrate l ces put).faults = s.faults := by simp [State.calibrate]

@[simp] theorem State.trainStep_faults (s : State) (l : LaneIx) (ces : List (Fin 8)) (rate : Fin 3) (k : TrainStep) :
    (s.trainStep l ces rate k).faults = s.faults := by
  cases k <;> simp [State.trainStep]

@[simp] theorem State.runSteps_faults (s : State) (l rate steps) : (s.runSteps l rate steps).faults = s.faults := by simp [State.runSteps]

@[simp] theorem State.fullTraining_faults (s : State) (l : LaneIx) (cause : TrainCause) (stepped : Bool) (rate : Fin 3) (fuel : Nat)
    (tries : List Bool) : (s.fullTraining l cause stepped rate fuel tries).faults = s.faults := by
  induction fuel generalizing s stepped rate tries with
  | zero => simp [State.fullTraining]
  | succ fuel ih => simp [State.fullTraining, ih]

@[simp] theorem execTrain_leavesFaults (l : LaneIx) (tries : List Bool) (s : State) : LeavesFaults s.faults (execTrain l tries s) := by
  unfold execTrain
  split
  · simp
  · refine State.startOp_leavesFaults fun s _ e => ?_
    dsimp only
    split <;> simp

@[simp] theorem State.retrain_faults (s : State) (l tries cause) : (s.retrain l tries cause).faults = s.faults := by simp [State.retrain]

@[simp] theorem execLaneRetrain_leavesFaults (l tries) (s : State) : LeavesFaults s.faults (execLaneRetrain l tries s) := by
  unfold execLaneRetrain
  split <;> simp

@[simp] theorem execRetrainIdleTimeout_leavesFaults (l tries) (s : State) : LeavesFaults s.faults (execRetrainIdleTimeout l tries s) := by
  unfold execRetrainIdleTimeout
  split <;> simp

@[simp] theorem execLneCtrlRetrain_leavesFaults {v : FaultView} {s : State} (h : v.Allows s.faults) (l) :
    LeavesFaults v (execLneCtrlRetrain l s) := by simp [execLneCtrlRetrain, h]
@[simp] theorem execLneCtrlCntClr_leavesFaults {v : FaultView} {s : State} (h : v.Allows s.faults) (l) :
    LeavesFaults v (execLneCtrlCntClr l s) := by simp [execLneCtrlCntClr, h]
@[simp] theorem execDqsDriftTrack_leavesFaults (l drift) (s : State) : LeavesFaults s.faults (execDqsDriftTrack l drift s) := by
  simp [execDqsDriftTrack]

@[simp] theorem execZqShortCalibration_leavesFaults (l) (s : State) : LeavesFaults s.faults (execZqShortCalibration l s) := by
  simp [execZqShortCalibration]

@[simp] theorem State.suspendConfirmed_faults (s : State) (l r nand) : (s.suspendConfirmed l r nand).faults = s.faults := by
  simp [State.suspendConfirmed]

@[simp] theorem State.programFailed_faults (s : State) (l d) : (s.programFailed l d).faults = s.faults := by simp [State.programFailed]
@[simp] theorem State.eraseFailed_faults (s : State) (l d) : (s.eraseFailed l d).faults = s.faults := by simp [State.eraseFailed]
@[simp] theorem State.statusSeen_faults (s : State) (l e st) : (s.statusSeen l e st).faults = s.faults := (rfl)

@[simp] theorem State.arrayDone_faults (s : State) (l e op st r) : (s.arrayDone l e op st r).faults = s.faults := by
  simp only [State.arrayDone]
  repeat' split
  all_goals simp

@[simp] theorem execLunReady_leavesFaults (l tag st r) (s : State) : LeavesFaults s.faults (execLunReady l tag st r s) := by
  unfold execLunReady
  repeat' split
  all_goals simp

@[simp] theorem execStatusTimeout_leavesFaults (l tag) (s : State) : LeavesFaults s.faults (execStatusTimeout l tag s) := by
  unfold execStatusTimeout
  split <;> simp

@[simp] theorem execMinEraseRunTimeExpiry_leavesFaults (l u) (s : State) : LeavesFaults s.faults (execMinEraseRunTimeExpiry l u s) := by
  unfold execMinEraseRunTimeExpiry
  split <;> simp

@[simp] theorem execMaxSuspendedTimeExpiry_leavesFaults (l u) (s : State) : LeavesFaults s.faults (execMaxSuspendedTimeExpiry l u s) := by
  unfold execMaxSuspendedTimeExpiry
  split <;> simp

@[simp] theorem execLaneReset_leavesFaults (l results) (s : State) : LeavesFaults s.faults (execLaneReset l results s) := by simp [execLaneReset]
@[simp] theorem State.rejectPatch_faults (s : State) (l) : (s.rejectPatch l).faults = s.faults := by simp [State.rejectPatch]

@[simp] theorem State.loadPatch_faults (s : State) (l words) : (s.loadPatch l words).faults = s.faults := by
  unfold State.loadPatch
  split <;> simp

@[simp] theorem execPatchLoad_leavesFaults (l words) (s : State) : LeavesFaults s.faults (execPatchLoad l words s) := by simp [execPatchLoad]

/-! Writes that complete once durable. -/

@[simp] theorem State.dropPiece_faults (s : State) (d p) : (s.dropPiece d p).faults = s.faults := by
  unfold State.dropPiece
  split <;> simp

@[simp] theorem State.countWrite_faults (s : State) (w) : (s.countWrite w).faults = s.faults := (rfl)
@[simp] theorem State.settleWrites_faults (s : State) : s.settleWrites.faults = s.faults := by simp [State.settleWrites]

@[simp] theorem State.placeJournal_faults (s : State) (g n c) : (s.placeJournal g n c).faults = s.faults := by
  unfold State.placeJournal
  split <;> simp

@[simp] theorem State.releaseBand_faults (s : State) (g b) : (s.releaseBand g b).faults = s.faults := by simp [State.releaseBand]
@[simp] theorem State.releaseJournalBands_faults (s : State) (g) : (s.releaseJournalBands g).faults = s.faults := by simp [State.releaseJournalBands]
@[simp] theorem State.releaseImageBands_faults (s : State) (g) : (s.releaseImageBands g).faults = s.faults := by simp [State.releaseImageBands]

@[simp] theorem State.takeImageSlot_faults (s : State) (g c) : (s.takeImageSlot g c).1.faults = s.faults := by
  simp only [State.takeImageSlot]
  split <;> simp

/-! Segments and runs of swarm parity. -/

@[simp] theorem State.putNotice_faults (s : State) (n) : (s.putNotice n).faults = s.faults := (rfl)
@[simp] theorem State.dropNotice_faults (s : State) (g b u) : (s.dropNotice g b u).faults = s.faults := (rfl)

@[simp] theorem State.sendNotice_faults (s : State) (g b u) : (s.sendNotice g b u).faults = s.faults := by
  simp only [State.sendNotice]
  split <;> simp

@[simp] theorem State.offerBand_faults (s : State) (g b) : (s.offerBand g b).faults = s.faults := by simp [State.offerBand]

@[simp] theorem State.retractSegment_faults (s : State) (g b u) : (s.retractSegment g b u).faults = s.faults := by
  simp only [State.retractSegment]
  split <;> simp

@[simp] theorem State.startRetracts_faults (s : State) (g b) : (s.startRetracts g b).faults = s.faults := by simp [State.startRetracts]

@[simp] theorem State.takeRun_faults (s : State) (g : RegionIx) (use : BandUse) (d : Density) : (s.takeRun g use d).1.faults = s.faults := by
  unfold State.takeRun
  split
  · rfl
  extract_lets filled opened
  have hopened : opened.faults = s.faults := by simp [opened, filled]
  clear_value opened
  split
  · exact hopened
  split
  · exact hopened
  split
  · next h => simp [faults_of_fst h, hopened]
  · next h => simp [faults_of_fst h, hopened]

@[simp] theorem State.moveRuns_faults (s : State) (g : RegionIx) (b : Nat) : (s.moveRuns g b).faults = s.faults := by
  refine faults_foldl (fun s r => ?_) _ _
  split
  · next h => simp [faults_of_fst h]
  · next h => simp [faults_of_fst h]

@[simp] theorem State.runsMoved_faults (s : State) (g b) : (s.runsMoved g b).faults = s.faults := by
  unfold State.runsMoved
  split <;> simp

@[simp] theorem State.runTurns_faults (s : State) (g : RegionIx) : (s.runTurns g).faults = s.faults := by
  unfold State.runTurns
  split
  · rfl
  · refine faults_foldl (fun s q => ?_) _ _
    split <;> simp

@[simp] theorem State.retractAll_faults (s : State) : s.retractAll.faults = s.faults := by simp [State.retractAll]

/-! The map, the journal and the checkpoints. -/

@[simp] theorem State.applyMerge_leavesFaults (s : State) (g : RegionIx) (gran : Nat) (u : PendUpd) (ready : Bool)
    (covered : Fin 16 → Option Unit4K) : LeavesFaults s.faults (s.applyMerge g gran u ready covered) := by
  simp only [State.applyMerge]
  split
  · simp
  split
  · simp
  split
  · simp
  split
  · next h => simp [faults_of_fst h]
  · next h =>
    split
    · next h' => simp [faults_of_fst h', faults_of_fst h]
    · next h' => simp [faults_of_fst h', faults_of_fst h]

@[simp] theorem execPendingUpdateApply_leavesFaults (g gran) (s : State) : LeavesFaults s.faults (execPendingUpdateApply g gran s) := by
  simp only [execPendingUpdateApply]
  repeat' split
  all_goals simp

@[simp] theorem execJournalFrameTimer_leavesFaults (g) (s : State) : LeavesFaults s.faults (execJournalFrameTimer g s) := by
  simp [execJournalFrameTimer]

@[simp] theorem State.rescueDrained_faults (s : State) (g) : (s.rescueDrained g).faults = s.faults := by simp [State.rescueDrained]
@[simp] theorem State.recDurable_faults (s : State) (g : RegionIx) (r : JRec) : (s.recDurable g r).faults = s.faults := by
  cases r <;> simp [State.recDurable]
@[simp] theorem State.openGate_faults (s : State) (g n) : (s.openGate g n).faults = s.faults := by simp [State.openGate]

@[simp] theorem State.journalDurable_faults (s : State) (g) : (s.journalDurable g).faults = s.faults := by
  unfold State.journalDurable
  split <;> simp

@[simp] theorem State.captureImage_faults (s : State) (g image) : (s.captureImage g image).faults = s.faults := by
  simp only [State.captureImage]
  repeat' split
  all_goals simp

@[simp] theorem execCheckpointCapture_leavesFaults (g) (s : State) : LeavesFaults s.faults (execCheckpointCapture g s) := by
  simp only [execCheckpointCapture]
  repeat' split
  all_goals simp

@[simp] theorem State.placeIndex_faults (s : State) (x : IndexRec) : (s.placeIndex x).faults = s.faults := by simp [State.placeIndex]
@[simp] theorem State.appendIndex_faults (s : State) (x) : (s.appendIndex x).faults = s.faults := by simp [State.appendIndex]

@[simp] theorem State.indexImage_faults (s : State) (g ckptSeq) : (s.indexImage g ckptSeq).faults = s.faults := by
  simp only [State.indexImage]
  split <;> simp

@[simp] theorem execCheckpointIndexWrite_leavesFaults (g ckptSeq) (s : State) : LeavesFaults s.faults (execCheckpointIndexWrite g ckptSeq s) := by
  simp [execCheckpointIndexWrite]

@[simp] theorem State.loadAdopted_faults (s : State) (g seg) : (s.loadAdopted g seg).faults = s.faults := by
  simp only [State.loadAdopted]
  repeat' split
  all_goals simp

@[simp] theorem execRgnQuery_leavesFaults {v : FaultView} {s : State} (h : v.Allows s.faults) (g hi) :
    LeavesFaults v (execRgnQuery g hi s) := by simp [execRgnQuery, h]
@[simp] theorem execRgnCtrlCntClr_leavesFaults {v : FaultView} {s : State} (h : v.Allows s.faults) (g) :
    LeavesFaults v (execRgnCtrlCntClr g s) := by simp [execRgnCtrlCntClr, h]

/-! Cipher engines and keys. -/

@[simp] theorem State.commitSet_faults (s : State) (f) : (s.commitSet f).faults = s.faults := by
  unfold State.commitSet
  split <;> simp

@[simp] theorem State.drawKey_faults (s : State) : s.drawKey.1.faults = s.faults := (rfl)

@[simp] theorem State.drawKeys_faults (s : State) (ids : List Nat) : (s.drawKeys ids).1.faults = s.faults := by
  induction ids generalizing s with
  | nil => rfl
  | cons n ids ih => exact (ih _).trans s.drawKey_faults

@[simp] theorem State.fitKeys_faults (s : State) (ids) : (s.fitKeys ids).faults = s.faults := by
  unfold State.fitKeys
  split <;> simp

@[simp] theorem State.freshenRegion_faults (s : State) (g nsid rec_) : (s.freshenRegion g nsid rec_).faults = s.faults := by
  simp [State.freshenRegion]

@[simp] theorem State.formatExtent_faults (s : State) (nsid) : (s.formatExtent nsid).faults = s.faults := by simp [State.formatExtent]

@[simp] theorem State.beginErase_faults (s : State) (ids ref) : (s.beginErase ids ref).faults = s.faults := by
  unfold State.beginErase
  split <;> simp

@[simp] theorem State.createExtent_faults (s : State) (n) : (s.createExtent n).faults = s.faults := by simp [State.createExtent]
@[simp] theorem State.deleteExtent_faults (s : State) (nsid) : (s.deleteExtent nsid).faults = s.faults := by simp [State.deleteExtent]
@[simp] theorem State.applyNamespaces_faults (s : State) (old new) : (s.applyNamespaces old new).faults = s.faults := by simp [State.applyNamespaces]
@[simp] theorem State.hostChangedNs_faults (s : State) : s.hostChangedNs.faults = s.faults := by simp [State.hostChangedNs]
@[simp] theorem State.unwrapFail_faults (s : State) (d wlenOk) : (s.unwrapFail d wlenOk).faults = s.faults := by simp [State.unwrapFail]

@[simp] theorem State.installKey_faults (s : State) (ref refused kek idOk b f) : (s.installKey ref refused kek idOk b f).faults = s.faults := by
  simp only [State.installKey]
  repeat' split
  all_goals simp

@[simp] theorem execSecuritySendKek_leavesFaults (ref b) (s : State) : LeavesFaults s.faults (execSecuritySendKek ref b s) := by
  simp [execSecuritySendKek]

@[simp] theorem execSecuritySendNamespaceKey_leavesFaults (ref nsid b) (s : State) :
    LeavesFaults s.faults (execSecuritySendNamespaceKey ref nsid b s) := by simp [execSecuritySendNamespaceKey]

@[simp] theorem execSecuritySendLock_leavesFaults (ref) (s : State) : LeavesFaults s.faults (execSecuritySendLock ref s) := by
  simp [execSecuritySendLock]

@[simp] theorem execSecurityReceiveKeyStatus_leavesFaults (ref) (s : State) : LeavesFaults s.faults (execSecurityReceiveKeyStatus ref s) := by
  simp [execSecurityReceiveKeyStatus]

@[simp] theorem execSecurityReceiveProtocolList_leavesFaults (ref) (s : State) : LeavesFaults s.faults (execSecurityReceiveProtocolList ref s) := by
  simp [execSecurityReceiveProtocolList]

@[simp] theorem execCphCtrlCntClr_leavesFaults {v : FaultView} {s : State} (h : v.Allows s.faults) (d) :
    LeavesFaults v (execCphCtrlCntClr d s) := by simp [execCphCtrlCntClr, h]

/-! Critical Warning. -/

@[simp] theorem State.settleWarnings_faults (s : State) : s.settleWarnings.faults = s.faults := by simp [State.settleWarnings]

/-! Host ports. -/

@[simp] theorem State.endHostWork_faults (s : State) (d) : (s.endHostWork d).faults = s.faults := by simp [State.endHostWork]
@[simp] theorem State.clearSlots_faults (s : State) (d) : (s.clearSlots d).faults = s.faults := by simp [State.clearSlots]
@[simp] theorem State.hostReset_faults (s : State) (d) : (s.hostReset d).faults = s.faults := by simp [State.hostReset]
@[simp] theorem State.hostLinkLost_faults (s : State) (d) : (s.hostLinkLost d).faults = s.faults := by simp [State.hostLinkLost]
@[simp] theorem State.hostStopForGood_faults (s : State) (ds) : (s.hostStopForGood ds).faults = s.faults := by simp [State.hostStopForGood]
@[simp] theorem State.hostPauseFetch_faults (s : State) : s.hostPauseFetch.faults = s.faults := by simp [State.hostPauseFetch]
@[simp] theorem State.hostResumeFetch_faults (s : State) : s.hostResumeFetch.faults = s.faults := by simp [State.hostResumeFetch]
@[simp] theorem State.hostFatal_faults (s : State) : s.hostFatal.faults = s.faults := by simp [State.hostFatal]

/-! HELLO packets. -/

@[simp] theorem State.putHello_faults (s : State) (m) : (s.putHello m).faults = s.faults := (rfl)

/-! Cluster commands. -/

@[simp] theorem execFoldIdleTimer_leavesFaults (g) (s : State) : LeavesFaults s.faults (execFoldIdleTimer g s) := by simp [execFoldIdleTimer]
@[simp] theorem State.takeJob_faults (s : State) (c e j) : (s.takeJob c e j).faults = s.faults := (rfl)

@[simp] theorem execFrameDecode_leavesFaults (c e src) (s : State) : LeavesFaults s.faults (execFrameDecode c e src s) := by
  simp only [execFrameDecode]
  repeat' split
  all_goals simp

@[simp] theorem State.engineFault_faults (s : State) (c e cause j) : (s.engineFault c e cause j).faults = s.faults := by simp [State.engineFault]

@[simp] theorem State.decoded_faults (s : State) (c home k step corrected) : (s.decoded c home k step corrected).faults = s.faults := by
  simp only [State.decoded]
  split <;> simp

@[simp] theorem State.judge_faults (s : State) (c home k step corrected converged crcOk) :
    (s.judge c home k step corrected converged crcOk).faults = s.faults := by
  simp only [State.judge]
  repeat' split
  all_goals simp

@[simp] theorem State.jobDone_faults (s : State) (c j corrected converged crcOk) : (s.jobDone c j corrected converged crcOk).faults = s.faults := by
  simp only [State.jobDone]
  split <;> simp

@[simp] theorem execDecodeComplete_leavesFaults (c e res) (s : State) : LeavesFaults s.faults (execDecodeComplete c e res s) := by
  unfold execDecodeComplete
  repeat' split
  all_goals simp

@[simp] theorem execDecoderCompletionTimeout_leavesFaults (c e) (s : State) : LeavesFaults s.faults (execDecoderCompletionTimeout c e s) := by
  unfold execDecoderCompletionTimeout
  split <;> simp

@[simp] theorem State.entriesLost_faults (s : State) (k) : (s.entriesLost k).faults = s.faults := by simp [State.entriesLost]
@[simp] theorem State.climbOver_faults (s : State) (c k) : (s.climbOver c k).faults = s.faults := by simp [State.climbOver]
@[simp] theorem State.copyDark_faults (s : State) (member r) : (s.copyDark member r).faults = s.faults := by simp [State.copyDark]

@[simp] theorem State.ladderDark_faults (s : State) (c k member) : (s.ladderDark c k member).faults = s.faults := by
  simp only [State.ladderDark]
  split <;> simp

@[simp] theorem State.stepLost_faults (s : State) (c k n) : (s.stepLost c k n).faults = s.faults := by simp [State.stepLost]
@[simp] theorem State.rebuilt_faults (s : State) (c k n crcOk) : (s.rebuilt c k n crcOk).faults = s.faults := by simp [State.rebuilt]
@[simp] theorem State.askMember_faults (s : State) (c k member m) : (s.askMember c k member m).faults = s.faults := by simp [State.askMember]

@[simp] theorem State.searchRecord_faults (s : State) (c k past) : (s.searchRecord c k past).faults = s.faults := by
  simp only [State.searchRecord]
  repeat' split
  all_goals simp

@[simp] theorem State.stepSix_faults (s : State) (c k) : (s.stepSix c k).faults = s.faults := by
  simp only [State.stepSix]
  repeat' split
  all_goals simp

@[simp] theorem State.sixAnswered_faults (s : State) (stripe position slot rowOk) : (s.sixAnswered stripe position slot rowOk).faults = s.faults := by
  simp [State.sixAnswered]

@[simp] theorem State.recordSeen_faults (s : State) (r) : (s.recordSeen r).faults = s.faults := by simp [State.recordSeen]
@[simp] theorem State.sixRefused_faults (s : State) (stripe past) : (s.sixRefused stripe past).faults = s.faults := by simp [State.sixRefused]
@[simp] theorem State.askAnew_faults (s : State) (stripe) : (s.askAnew stripe).faults = s.faults := by simp [State.askAnew]

@[simp] theorem State.reconstruct_faults (s : State) (c k facts) : (s.reconstruct c k facts).faults = s.faults := by
  unfold State.reconstruct
  split <;> simp

@[simp] theorem State.readStep_faults (s : State) (c k) : (s.readStep c k).faults = s.faults := by simp [State.readStep]
@[simp] theorem State.serveRepaired_faults (s : State) (c k e) : (s.serveRepaired c k e).faults = s.faults := by simp [State.serveRepaired]

@[simp] theorem execRetryLadderStep_leavesFaults (c id facts) (s : State) : LeavesFaults s.faults (execRetryLadderStep c id facts s) := by
  unfold execRetryLadderStep
  repeat' split
  all_goals simp

@[simp] theorem State.patrolRead_faults (s : State) (g b noValley) : (s.patrolRead g b noValley).faults = s.faults := by
  unfold State.patrolRead
  split <;> simp

@[simp] theorem execPatrolStart_leavesFaults (g) (s : State) : LeavesFaults s.faults (execPatrolStart g s) := by
  unfold execPatrolStart
  repeat' split
  all_goals simp

@[simp] theorem execPatrolComplete_leavesFaults (g b) (s : State) : LeavesFaults s.faults (execPatrolComplete g b s) := by
  unfold execPatrolComplete
  split <;> simp

@[simp] theorem execAntennaRunStart_leavesFaults (c) (s : State) : LeavesFaults s.faults (execAntennaRunStart c s) := by
  simp only [execAntennaRunStart]
  repeat' split
  all_goals simp

@[simp] theorem State.releaseWaits_faults (s : State) (g b noValley) : (s.releaseWaits g b noValley).faults = s.faults := by simp [State.releaseWaits]

@[simp] theorem execAntennaRunComplete_leavesFaults (c) (s : State) : LeavesFaults s.faults (execAntennaRunComplete c s) := by
  unfold execAntennaRunComplete
  split <;> simp

@[simp] theorem execStagingRowTimeout_leavesFaults (g b) (s : State) : LeavesFaults s.faults (execStagingRowTimeout g b s) := by
  simp [execStagingRowTimeout]

@[simp] theorem State.accReadBack_faults (s : State) (c band row back) : (s.accReadBack c band row back).faults = s.faults := by
  simp only [State.accReadBack]
  split <;> simp

@[simp] theorem State.accDiscard_faults (s : State) (c band row) : (s.accDiscard c band row).faults = s.faults := by simp [State.accDiscard]

@[simp] theorem execParityAccumulatorMemoryError_leavesFaults (c corrected band row) (s : State) :
    LeavesFaults s.faults (execParityAccumulatorMemoryError c corrected band row s) := by simp [execParityAccumulatorMemoryError]

@[simp] theorem execCluCtrlCntClr_leavesFaults {v : FaultView} {s : State} (h : v.Allows s.faults) (c) :
    LeavesFaults v (execCluCtrlCntClr c s) := by simp [execCluCtrlCntClr, h]

/-! Reclamation and rebuild of bands. -/

@[simp] theorem execReclaimStart_leavesFaults (g k) (s : State) : LeavesFaults s.faults (execReclaimStart g k s) := by
  unfold execReclaimStart
  repeat' split
  all_goals simp

@[simp] theorem State.copyAlone_faults (s : State) (g gran) : (s.copyAlone g gran).faults = s.faults := by simp [State.copyAlone]
@[simp] theorem execGranuleRelocate_leavesFaults (g gran) (s : State) : LeavesFaults s.faults (execGranuleRelocate g gran s) := by
  simp [execGranuleRelocate]

@[simp] theorem State.resyncRow_faults (s : State) (geo g b w) : (s.resyncRow geo g b w).faults = s.faults := by simp [State.resyncRow]
@[simp] theorem State.resyncEnds_faults (s : State) (g b gone) : (s.resyncEnds g b gone).faults = s.faults := by simp [State.resyncEnds]

@[simp] theorem execBandResync_leavesFaults (g b unreadable) (s : State) : LeavesFaults s.faults (execBandResync g b unreadable s) := by
  unfold execBandResync
  split <;> simp

@[simp] theorem State.loseSlot_faults (s : State) (g b frame served) : (s.loseSlot g b frame served).faults = s.faults := by
  simp only [State.loseSlot]
  split <;> simp

@[simp] theorem execBandRebuild_leavesFaults (g spare lost failed) (s : State) : LeavesFaults s.faults (execBandRebuild g spare lost failed s) := by
  simp only [execBandRebuild]
  repeat' split
  all_goals simp

end Sys2Proof.Machine
end

