-- ==== Sys2Proof/Proofs/FaultFramePackage.lean ====
section
/-! What leaves shadows, the safe state and VIN alone, or as they may stand: stripes and the swarm, the reactions of the package, firmware and start. -/

namespace Sys2Proof.Machine

/-! Leaders and holders of stripes. -/

@[simp] theorem State.foldParity_faults (s : State) (stripe : Nat) : (s.foldParity stripe).faults = s.faults := by
  simp only [State.foldParity]
  split
  · rfl
  split
  · rfl
  split
  · rfl
  · split
    · next h => simp [faults_of_fst h]
    · next h => simp [faults_of_fst h]

@[simp] theorem State.advanceStripe_faults (s : State) (stripe) : (s.advanceStripe stripe).faults = s.faults := by
  unfold State.advanceStripe
  split <;> simp

@[simp] theorem State.sendRecord_faults (s : State) (r i) : (s.sendRecord r i).faults = s.faults := by
  unfold State.sendRecord
  split <;> simp

@[simp] theorem State.replicate_faults (s : State) (r) : (s.replicate r).faults = s.faults := by simp [State.replicate]

@[simp] theorem State.sendAssign_faults (s : State) (a) : (s.sendAssign a).faults = s.faults := by
  simp only [State.sendAssign]
  split <;> simp

@[simp] theorem State.settleAssigns_faults (s : State) : s.settleAssigns.faults = s.faults := by simp [State.settleAssigns]
@[simp] theorem State.assignFreed_faults (s : State) (stripe member) : (s.assignFreed stripe member).faults = s.faults := by simp [State.assignFreed]
@[simp] theorem State.closeStripe_faults (s : State) (r) : (s.closeStripe r).faults = s.faults := by simp [State.closeStripe]

@[simp] theorem State.reserveStripes_faults (s : State) : s.reserveStripes.faults = s.faults := by
  simp only [State.reserveStripes]
  split <;> simp

@[simp] theorem State.assignPosition_faults (s : State) (hdr r) : (s.assignPosition hdr r).faults = s.faults := by simp [State.assignPosition]

@[simp] theorem State.onSealNotice_faults (s : State) (hdr region seg band) : (s.onSealNotice hdr region seg band).faults = s.faults := by
  simp only [State.onSealNotice]
  repeat' split
  all_goals simp

@[simp] theorem State.emptyPosition_faults (s : State) (stripe position) : (s.emptyPosition stripe position).faults = s.faults := by
  unfold State.emptyPosition
  split <;> simp

@[simp] theorem State.replaceHolder_faults (s : State) (stripe member) : (s.replaceHolder stripe member).faults = s.faults := by
  unfold State.replaceHolder
  repeat' split
  all_goals simp

@[simp] theorem State.pushParity_faults (s : State) (r i dest) : (s.pushParity r i dest).faults = s.faults := by simp [State.pushParity]

@[simp] theorem State.onStripeRecord_faults (s : State) (hdr restore m) : (s.onStripeRecord hdr restore m).faults = s.faults := by
  unfold State.onStripeRecord
  repeat' split
  all_goals simp

@[simp] theorem State.onStripeAck_faults (s : State) (hdr stripe version) : (s.onStripeAck hdr stripe version).faults = s.faults := by
  simp only [State.onStripeAck]
  split <;> simp

@[simp] theorem State.dropRx_faults (s : State) (stripe) : (s.dropRx stripe).faults = s.faults := (rfl)

@[simp] theorem State.abandonRun_faults (s : State) (stripe) : (s.abandonRun stripe).faults = s.faults := by
  simp only [State.abandonRun]
  split <;> simp

@[simp] theorem State.takePayload_faults (s : State) (hdr : MsgHdr) (type stripe position index first count : Nat) (isRetract : Bool) :
    (s.takePayload hdr type stripe position index first count isRetract).faults = s.faults := by
  unfold State.takePayload
  split
  · simp
  split
  · simp
  split
  · simp
  split
  · simp
  split
  · rfl
  split
  · extract_lets busy g
    split
    · simp
    · split
      · next h => simp [faults_of_fst h]
      · next h => simp [faults_of_fst h]
  · split <;> simp

@[simp] theorem State.switchRun_faults (s : State) (r position isRetract) : (s.switchRun r position isRetract).faults = s.faults := by
  simp [State.switchRun]

@[simp] theorem State.onContribDone_faults (s : State) (hdr stripe position index crcOk) :
    (s.onContribDone hdr stripe position index crcOk).faults = s.faults := by
  unfold State.onContribDone
  repeat' split
  all_goals simp

@[simp] theorem State.onRetract_faults (s : State) (hdr stripe position index first count neverSent release last behalf crcOk) :
    (s.onRetract hdr stripe position index first count neverSent release last behalf crcOk).faults = s.faults := by
  simp only [State.onRetract]
  repeat' split
  all_goals simp

/-! Rebuild and adoption. -/

@[simp] theorem State.relocateFrames_faults (s : State) (g : RegionIx) (e : SegEntry) (slots : List Nat) :
    (s.relocateFrames g e slots).faults = s.faults := faults_foldl (fun s n => by split <;> simp) slots s

@[simp] theorem State.onRebuildRead_faults (s : State) (hdr stripe what index first count rows stepFive) :
    (s.onRebuildRead hdr stripe what index first count rows stepFive).faults = s.faults := by
  unfold State.onRebuildRead
  repeat' split
  all_goals simp

@[simp] theorem State.stripeTasks_faults (s : State) (old : Option MemTable) (stripe : Nat) : (s.stripeTasks old stripe).faults = s.faults := by
  unfold State.stripeTasks
  split
  · rfl
  · refine faults_foldl (fun s i => ?_) _ _
    split
    · rfl
    split
    · rfl
    · split
      · rfl
      split
      · simp
      · simp only [State.updSwarm_faults]
        split <;> simp

@[simp] theorem State.buildTasks_faults (s : State) (old) : (s.buildTasks old).faults = s.faults := by simp [State.buildTasks]
@[simp] theorem State.checkTasks_faults (s : State) : s.checkTasks.faults = s.faults := by simp [State.checkTasks]
@[simp] theorem State.updTask_faults (s : State) (t f) : (s.updTask t f).faults = s.faults := (rfl)

@[simp] theorem State.retractBehalf_faults (s : State) (t) : (s.retractBehalf t).faults = s.faults := by
  simp only [State.retractBehalf]
  split <;> simp

@[simp] theorem State.sendPush_faults (s : State) (t dest) : (s.sendPush t dest).faults = s.faults := by simp [State.sendPush]

@[simp] theorem execRebuildTaskStart_leavesFaults (rows : List RowFacts) (dark : Option Nat) (applied : List Nat) (s : State) :
    LeavesFaults s.faults (execRebuildTaskStart rows dark applied s) := by
  simp only [execRebuildTaskStart]
  split
  · simp
  split
  · simp
  split
  · simp
  split
  · simp
  split
  · simp
  split
  · simp
  split
  · simp
  · split
    · next h => simp [faults_of_fst h]
    · next h => simp [faults_of_fst h]

@[simp] theorem State.offerPush_faults (s : State) (reason stripe data index) : (s.offerPush reason stripe data index).faults = s.faults := by
  unfold State.offerPush
  repeat' split
  all_goals simp

@[simp] theorem execPushBusyRetry_leavesFaults (stripe data index) (s : State) : LeavesFaults s.faults (execPushBusyRetry stripe data index s) := by
  simp [execPushBusyRetry]

@[simp] theorem execPushNoNamespaceRetry_leavesFaults (stripe data index) (s : State) :
    LeavesFaults s.faults (execPushNoNamespaceRetry stripe data index s) := by simp [execPushNoNamespaceRetry]

@[simp] theorem State.checkLeave_faults (s : State) : s.checkLeave.faults = s.faults := by simp [State.checkLeave]
@[simp] theorem State.setInaccessible_faults (s : State) (l) : (s.setInaccessible l).faults = s.faults := by simp [State.setInaccessible]

@[simp] theorem State.restoreGran_faults (s : State) (p : PushGran) : (s.restoreGran p).faults = s.faults := by
  simp only [State.restoreGran]
  split
  · rfl
  split
  · next h => simp [faults_of_fst h]
  · next h =>
    split
    · next h' => simp [faults_of_fst h', faults_of_fst h]
    · next h' => simp [faults_of_fst h', faults_of_fst h]

@[simp] theorem State.checkRestored_faults (s : State) : s.checkRestored.faults = s.faults := by
  unfold State.checkRestored
  split <;> simp

@[simp] theorem State.onPush_faults (s : State) (hdr : MsgHdr) (stripe what index first count : Nat) (last crcOk : Bool)
    (record : Option StripeRec) (grans : List PushGran) :
    (s.onPush hdr stripe what index first count last crcOk record grans).faults = s.faults := by
  unfold State.onPush
  extract_lets open? next drop opened stored closed src applied pushed counted g
  have hdrop (t : State) : (drop t).faults = t.faults := State.updSwarm_faults ..
  clear_value drop
  have hstored : stored.faults = s.faults := by simp [stored, opened, hdrop]
  have happlied : applied.faults = s.faults := by
    simp only [applied, closed]
    split
    · split
      · simp [hdrop, hstored]
      · split
        · next h => simp [faults_of_fst h, hdrop, hstored]
        · next h => simp [faults_of_fst h, hdrop, hstored]
    · simp [hdrop, hstored]
  have hcounted : counted.faults = s.faults := by
    simp only [counted]
    split <;> simp [pushed, happlied]
  clear_value counted stored
  simp [hdrop, hstored, hcounted]

@[simp] theorem State.retryBlocked_faults (s : State) (w) : (s.retryBlocked w).faults = s.faults := by simp [State.retryBlocked]
@[simp] theorem State.takeRecord_faults (s : State) (r) : (s.takeRecord r).faults = s.faults := by simp [State.takeRecord]

@[simp] theorem State.onRebuildReply_faults (s : State) (hdr stripe what index first bad record) :
    (s.onRebuildReply hdr stripe what index first bad record).faults = s.faults := by
  simp only [State.onRebuildReply]
  repeat' split
  all_goals simp

@[simp] theorem State.onRebuildData_faults (s : State) (hdr stripe what index first count last push reply crcOk bad record grans) :
    (s.onRebuildData hdr stripe what index first count last push reply crcOk bad record grans).faults = s.faults := by
  unfold State.onRebuildData
  repeat' split
  all_goals simp

/-! Epochs and the messages of swarm operations. -/

@[simp] theorem State.onSlotAssign_faults (s : State) (hdr stripe position m holders) :
    (s.onSlotAssign hdr stripe position m holders).faults = s.faults := by
  simp only [State.onSlotAssign]
  split <;> simp

@[simp] theorem State.onContribReply_faults (s : State) (hdr stripe position index) :
    (s.onContribReply hdr stripe position index).faults = s.faults := by
  simp only [State.onContribReply]
  split <;> simp

@[simp] theorem State.onRetractReply_faults (s : State) (hdr stripe position index) :
    (s.onRetractReply hdr stripe position index).faults = s.faults := by
  simp only [State.onRetractReply]
  split <;> simp

@[simp] theorem State.repeatNotice_faults (s : State) (n) : (s.repeatNotice n).faults = s.faults := by simp [State.repeatNotice]

@[simp] theorem State.restart_faults (s : State) (q) : (s.restart q).faults = s.faults := by
  unfold State.restart
  repeat' split
  all_goals simp

@[simp] theorem State.refusedWork_faults (s : State) (q reason) : (s.refusedWork q reason).faults = s.faults := by
  unfold State.refusedWork
  split <;> simp

@[simp] theorem State.onNak_faults (s : State) (hdr reason refused) : (s.onNak hdr reason refused).faults = s.faults := by
  unfold State.onNak
  repeat' split
  all_goals simp

@[simp] theorem State.handle_faults (s : State) (hdr : MsgHdr) (b : RxBody) : (s.handle hdr b).faults = s.faults := by
  cases b <;> simp [State.handle]

@[simp] theorem State.receive_faults (s : State) (hdr b) : (s.receive hdr b).faults = s.faults := by
  unfold State.receive
  repeat' split
  all_goals simp

@[simp] theorem State.startHello_faults (s : State) (peer rekey) : (s.startHello peer rekey).faults = s.faults := by simp [State.startHello]
@[simp] theorem State.startHellos_faults (s : State) : s.startHellos.faults = s.faults := by simp [State.startHellos]
@[simp] theorem State.announce_faults (s : State) (t) : (s.announce t).faults = s.faults := by simp [State.announce]
@[simp] theorem State.setFence_faults (s : State) (t) : (s.setFence t).faults = s.faults := by simp [State.setFence]
@[simp] theorem State.takeOver_faults (s : State) (before) : (s.takeOver before).faults = s.faults := by simp [State.takeOver]

@[simp] theorem State.startAdoption_faults (s : State) (t) : (s.startAdoption t).faults = s.faults := by
  unfold State.startAdoption
  split <;> simp

@[simp] theorem State.sendRestores_faults (s : State) (lost) : (s.sendRestores lost).faults = s.faults := by simp [State.sendRestores]

@[simp] theorem State.replaceLeaving_faults (s : State) (c : Nat) : (s.replaceLeaving c).faults = s.faults := by
  refine faults_foldl (fun s r => ?_) _ _
  split
  · rfl
  split
  · rfl
  · dsimp only
    split
    · simp
    · split <;> simp

@[simp] theorem State.applyLeaving_faults (s : State) (t) : (s.applyLeaving t).faults = s.faults := by simp [State.applyLeaving]
@[simp] theorem State.takeHeld_faults (s : State) : s.takeHeld.faults = s.faults := by simp [State.takeHeld]

@[simp] theorem State.applyTable_faults (s : State) : s.applyTable.faults = s.faults := by
  unfold State.applyTable
  split <;> simp

@[simp] theorem State.settleEpoch_faults (s : State) : s.settleEpoch.faults = s.faults := by
  simp only [State.settleEpoch]
  repeat' split
  all_goals simp

@[simp] theorem State.requestApply_faults (s : State) : s.requestApply.faults = s.faults := by simp [State.requestApply]

@[simp] theorem execMembershipStageStage_leavesFaults (ref offset len last table) (s : State) :
    LeavesFaults s.faults (execMembershipStageStage ref offset len last table s) := by
  unfold execMembershipStageStage
  refine State.adminThen_leavesFaults ?_
  dsimp only
  repeat' split
  all_goals simp

@[simp] theorem execMembershipStageApply_leavesFaults (ref) (s : State) : LeavesFaults s.faults (execMembershipStageApply ref s) := by
  unfold execMembershipStageApply
  refine State.adminThen_leavesFaults ?_
  split <;> simp

@[simp] theorem execMembershipStageReadMemberKey_leavesFaults (ref) (s : State) : LeavesFaults s.faults (execMembershipStageReadMemberKey ref s) := by
  simp [execMembershipStageReadMemberKey]

@[simp] theorem execMembershipStageReadTableHeader_leavesFaults (ref) (s : State) :
    LeavesFaults s.faults (execMembershipStageReadTableHeader ref s) := by simp [execMembershipStageReadTableHeader]

@[simp] theorem execMembershipStageDiscard_leavesFaults (ref) (s : State) : LeavesFaults s.faults (execMembershipStageDiscard ref s) := by
  simp [execMembershipStageDiscard]

@[simp] theorem execEpochAnnounce_leavesFaults (hdr epoch hash) (s : State) : LeavesFaults s.faults (execEpochAnnounce hdr epoch hash s) := by
  unfold execEpochAnnounce
  repeat' split
  all_goals simp

@[simp] theorem execTrailingEpochTimeout_leavesFaults (s : State) : LeavesFaults s.faults (execTrailingEpochTimeout s) := by
  unfold execTrailingEpochTimeout
  split <;> simp

@[simp] theorem execHeldMessageTimeout_leavesFaults (i) (s : State) : LeavesFaults s.faults (execHeldMessageTimeout i s) := by
  unfold execHeldMessageTimeout
  split <;> simp

@[simp] theorem execEpochAheadRetry_leavesFaults (peer opid) (s : State) : LeavesFaults s.faults (execEpochAheadRetry peer opid s) := by
  unfold execEpochAheadRetry
  split <;> simp

@[simp] theorem execSealNotice_leavesFaults (hdr region seg band) (s : State) : LeavesFaults s.faults (execSealNotice hdr region seg band s) := by
  simp [execSealNotice]

@[simp] theorem execSlotAssign_leavesFaults (hdr stripe position m version holders) (s : State) :
    LeavesFaults s.faults (execSlotAssign hdr stripe position m version holders s) := by simp [execSlotAssign]

@[simp] theorem execStripeRecord_leavesFaults (hdr restore r) (s : State) : LeavesFaults s.faults (execStripeRecord hdr restore r s) := by
  simp [execStripeRecord]

@[simp] theorem execStripeRecordAck_leavesFaults (hdr stripe version) (s : State) :
    LeavesFaults s.faults (execStripeRecordAck hdr stripe version s) := by simp [execStripeRecordAck]

@[simp] theorem execContribData_leavesFaults (hdr stripe position index first count) (s : State) :
    LeavesFaults s.faults (execContribData hdr stripe position index first count s) := by simp [execContribData]

@[simp] theorem execContribDone_leavesFaults (hdr stripe position index crcOk) (s : State) :
    LeavesFaults s.faults (execContribDone hdr stripe position index crcOk s) := by simp [execContribDone]

@[simp] theorem execContribDoneReply_leavesFaults (hdr stripe position index) (s : State) :
    LeavesFaults s.faults (execContribDoneReply hdr stripe position index s) := by simp [execContribDoneReply]

@[simp] theorem execRetract_leavesFaults (hdr stripe position index first count neverSent release last behalf crcOk) (s : State) :
    LeavesFaults s.faults (execRetract hdr stripe position index first count neverSent release last behalf crcOk s) := by simp [execRetract]

@[simp] theorem execRetractReply_leavesFaults (hdr stripe position index) (s : State) :
    LeavesFaults s.faults (execRetractReply hdr stripe position index s) := by simp [execRetractReply]

@[simp] theorem execRebuildRead_leavesFaults (hdr stripe what index first count rows stepFive) (s : State) :
    LeavesFaults s.faults (execRebuildRead hdr stripe what index first count rows stepFive s) := by simp [execRebuildRead]

@[simp] theorem execRebuildData_leavesFaults (hdr stripe what index first count last push reply crcOk bad record grans) (s : State) :
    LeavesFaults s.faults (execRebuildData hdr stripe what index first count last push reply crcOk bad record grans s) := by simp [execRebuildData]

@[simp] theorem execNak_leavesFaults (hdr reason refused _detail) (s : State) : LeavesFaults s.faults (execNak hdr reason refused _detail s) := by
  simp [execNak]

@[simp] theorem execSealNoticeTimeout_leavesFaults (g b u) (s : State) : LeavesFaults s.faults (execSealNoticeTimeout g b u s) := by
  simp [execSealNoticeTimeout]

@[simp] theorem execSealNoticeRetry_leavesFaults (g b u) (s : State) : LeavesFaults s.faults (execSealNoticeRetry g b u s) := by
  unfold execSealNoticeRetry
  split <;> simp

@[simp] theorem execStripeShortTimeout_leavesFaults (stripe) (s : State) : LeavesFaults s.faults (execStripeShortTimeout stripe s) := by
  unfold execStripeShortTimeout
  split <;> simp

@[simp] theorem State.retryWork_faults (s : State) (stripe position index reason) : (s.retryWork stripe position index reason).faults = s.faults := by
  unfold State.retryWork
  split <;> simp

@[simp] theorem execContribRetry_leavesFaults (stripe position index) (s : State) :
    LeavesFaults s.faults (execContribRetry stripe position index s) := by simp [execContribRetry]

@[simp] theorem execContribBusyRetry_leavesFaults (stripe position index) (s : State) :
    LeavesFaults s.faults (execContribBusyRetry stripe position index s) := by simp [execContribBusyRetry]

@[simp] theorem execRequestAnswerTimeout_leavesFaults (peer opid) (s : State) : LeavesFaults s.faults (execRequestAnswerTimeout peer opid s) := by
  unfold execRequestAnswerTimeout
  repeat' split
  all_goals simp

@[simp] theorem execJournalFrameDurable_leavesFaults (g) (s : State) : LeavesFaults s.faults (execJournalFrameDurable g s) := by
  simp [execJournalFrameDurable]

@[simp] theorem State.lightSatisfied_faults (s : State) (c) : (s.lightSatisfied c).faults = s.faults := by
  unfold State.lightSatisfied
  split <;> simp

@[simp] theorem State.darkOver_faults (s : State) (c g) : (s.darkOver c g).faults = s.faults := by simp [State.darkOver]

@[simp] theorem State.askRecord_faults (s : State) (w) : (s.askRecord w).faults = s.faults := by
  unfold State.askRecord
  split <;> simp

@[simp] theorem State.retryHolds_faults (s : State) (c) : (s.retryHolds c).faults = s.faults := by simp [State.retryHolds]
@[simp] theorem State.peerLights_faults (s : State) (c) : (s.peerLights c).faults = s.faults := by simp [State.peerLights]
@[simp] theorem execPeerLit_leavesFaults (c) (s : State) : LeavesFaults s.faults (execPeerLit c s) := by simp [execPeerLit]
@[simp] theorem execHeartbeat_leavesFaults (peer status applied) (s : State) : LeavesFaults s.faults (execHeartbeat peer status applied s) := by
  simp [execHeartbeat]

@[simp] theorem execHeartbeatSendTimer_leavesFaults (peer) (s : State) : LeavesFaults s.faults (execHeartbeatSendTimer peer s) := by
  simp [execHeartbeatSendTimer]

@[simp] theorem execLightRequest_leavesFaults (peer r cancel) (s : State) : LeavesFaults s.faults (execLightRequest peer r cancel s) := by
  simp [execLightRequest]

@[simp] theorem execDarkWaitExpiry_leavesFaults (ref) (s : State) : LeavesFaults s.faults (execDarkWaitExpiry ref s) := by simp [execDarkWaitExpiry]

/-! The Lenos link. -/

@[simp] theorem State.updPort_faults (s : State) (d f) : (s.updPort d f).faults = s.faults := (rfl)

@[simp] theorem execSwarmLinkTraining_leavesFaults (d partner) (s : State) : LeavesFaults s.faults (execSwarmLinkTraining d partner s) := by
  unfold execSwarmLinkTraining
  repeat' split
  all_goals simp

@[simp] theorem State.swarmPortDown_faults (s : State) (d) : (s.swarmPortDown d).faults = s.faults := by simp [State.swarmPortDown]
@[simp] theorem execSwarmPortLinkDown_leavesFaults (d) (s : State) : LeavesFaults s.faults (execSwarmPortLinkDown d s) := by
  simp [execSwarmPortLinkDown]

@[simp] theorem State.portAnswer_faults (s : State) (d kind target) : (s.portAnswer d kind target).faults = s.faults := by simp [State.portAnswer]
@[simp] theorem execNeighborSolicitation_leavesFaults (d target) (s : State) : LeavesFaults s.faults (execNeighborSolicitation d target s) := by
  simp [execNeighborSolicitation]

@[simp] theorem execArpRequest_leavesFaults (d target) (s : State) : LeavesFaults s.faults (execArpRequest d target s) := by simp [execArpRequest]
@[simp] theorem execEchoRequest_leavesFaults (d target) (s : State) : LeavesFaults s.faults (execEchoRequest d target s) := by simp [execEchoRequest]
@[simp] theorem execOtherInboundPacket_leavesFaults (d) (s : State) : LeavesFaults s.faults (execOtherInboundPacket d s) := by
  simp [execOtherInboundPacket]

@[simp] theorem execSwmCtrlCntClr_leavesFaults {v : FaultView} {s : State} (h : v.Allows s.faults) (d) :
    LeavesFaults v (execSwmCtrlCntClr d s) := by simp [execSwmCtrlCntClr, h]

@[simp] theorem execLenosPacket_leavesFaults (d p) (s : State) : LeavesFaults s.faults (execLenosPacket d p s) := by
  unfold execLenosPacket
  repeat' split
  all_goals simp

@[simp] theorem State.establish_faults (s : State) (h) : (s.establish h).faults = s.faults := by
  simp only [State.establish]
  split <;> simp

@[simp] theorem State.abandonHello_faults (s : State) (peer) : (s.abandonHello peer).faults = s.faults := (rfl)
@[simp] theorem State.authFail_faults (s : State) (d peer) : (s.authFail d peer).faults = s.faults := by simp [State.authFail]
@[simp] theorem State.answerHello_faults (s : State) (m) : (s.answerHello m).faults = s.faults := (rfl)
@[simp] theorem State.refuseHello_faults (s : State) (m status) : (s.refuseHello m status).faults = s.faults := (rfl)

@[simp] theorem execHello_leavesFaults (d m) (s : State) : LeavesFaults s.faults (execHello d m s) := by
  simp only [execHello]
  repeat' split
  all_goals simp

@[simp] theorem execHelloAttemptTimeout_leavesFaults (peer) (s : State) : LeavesFaults s.faults (execHelloAttemptTimeout peer s) := by
  simp [execHelloAttemptTimeout]

@[simp] theorem execHelloRetryTimer_leavesFaults (peer) (s : State) : LeavesFaults s.faults (execHelloRetryTimer peer s) := by
  simp [execHelloRetryTimer]

@[simp] theorem execSessionRekey_leavesFaults (peer) (s : State) : LeavesFaults s.faults (execSessionRekey peer s) := by simp [execSessionRekey]

@[simp] theorem execOldSessionErase_leavesFaults (peer) (s : State) : LeavesFaults s.faults (execOldSessionErase peer s) := by
  unfold execOldSessionErase
  split <;> simp

@[simp] theorem execAckTimer_leavesFaults (peer half) (s : State) : LeavesFaults s.faults (execAckTimer peer half s) := by
  unfold execAckTimer
  split <;> simp

@[simp] theorem execRetransmissionTimeout_leavesFaults (peer half ctr) (s : State) :
    LeavesFaults s.faults (execRetransmissionTimeout peer half ctr s) := by
  unfold execRetransmissionTimeout
  split <;> simp

@[simp] theorem State.sessionLost_faults (s : State) (peer) : (s.sessionLost peer).faults = s.faults := by simp [State.sessionLost]

@[simp] theorem execPathProgressTimeout_leavesFaults (peer half) (s : State) : LeavesFaults s.faults (execPathProgressTimeout peer half s) := by
  unfold execPathProgressTimeout
  repeat' split
  all_goals simp

@[simp] theorem execLivenessTimeout_leavesFaults (peer) (s : State) : LeavesFaults s.faults (execLivenessTimeout peer s) := by
  simp [execLivenessTimeout]

@[simp] theorem execPeerUnreachable_leavesFaults (peer) (s : State) : LeavesFaults s.faults (execPeerUnreachable peer s) := by
  simp [execPeerUnreachable]

@[simp] theorem State.swarmDark_faults (s : State) : s.swarmDark.faults = s.faults := (rfl)

@[simp] theorem State.swarmResume_faults (s : State) : s.swarmResume.faults = s.faults := by
  unfold State.swarmResume
  extract_lets g seated settled
  have hsettled : settled.faults = s.faults := by simp [settled, seated]
  clear_value settled
  split
  · exact hsettled
  · next t _ =>
    extract_lets fenced resumed tasked hidden
    have hresumed : resumed.faults = s.faults := by
      refine (faults_foldl (fun s g => faults_foldl (fun s e => ?_) _ _) _ _).trans (by simp [fenced, hsettled])
      split <;> simp
    clear_value resumed
    simp [hidden, tasked, hresumed, fenced, hsettled]

/-! The reset of a die. -/

@[simp] theorem FaultView.Allows.resetDieVolatile {v : FaultView} {s : State} (h : v.Allows s.faults) (d : DieIx) :
    v.Allows (s.resetDieVolatile d).faults := by
  have hreset : v.Allows (s.swarmDark.updDie d DieSt.volatileReset).faults := .updDie (by simpa using h) (Nat.zero_le _)
  simpa [State.resetDieVolatile] using hreset

/-! Reactions in lanes, windows and regions. -/

@[simp] theorem State.lanesStop_faults (s : State) (ds) : (s.lanesStop ds).faults = s.faults := by simp [State.lanesStop]
@[simp] theorem State.swarmLinkLost_faults (s : State) (d) : (s.swarmLinkLost d).faults = s.faults := by simp [State.swarmLinkLost]
@[simp] theorem State.swarmStop_faults (s : State) (d) : (s.swarmStop d).faults = s.faults := by simp [State.swarmStop]
@[simp] theorem State.swarmFaultNotice_faults (s : State) : s.swarmFaultNotice.faults = s.faults := by simp [State.swarmFaultNotice]
@[simp] theorem State.keepWindow_faults (s : State) (d) : (s.keepWindow d).faults = s.faults := by simp [State.keepWindow]

@[simp] theorem State.padRescue_faults (s : State) (g) : (s.padRescue g).faults = s.faults := by
  unfold State.padRescue
  split <;> simp

@[simp] theorem State.persistWindows_faults (s : State) (ds : List DieIx) : (s.persistWindows ds).faults = s.faults := by
  unfold State.persistWindows
  split <;> simp

@[simp] theorem State.persistJournal_faults (s : State) (g) : (s.persistJournal g).faults = s.faults := by simp [State.persistJournal]
@[simp] theorem State.persistJournals_faults (s : State) : s.persistJournals.faults = s.faults := by simp [State.persistJournals]
@[simp] theorem State.regionOut_faults (s : State) (g) : (s.regionOut g).faults = s.faults := by simp [State.regionOut]

/-! The fault collector. -/

@[simp] theorem State.loseRecords_faults (s : State) (n) : (s.loseRecords n).faults = s.faults := (rfl)
@[simp] theorem State.startFlush_faults (s : State) : s.startFlush.faults = s.faults := by simp [State.startFlush]

@[simp] theorem State.recordEvent_faults (s : State) (r) : (s.recordEvent r).faults = s.faults := by
  unfold State.recordEvent
  repeat' split
  all_goals simp

@[simp] theorem State.latchRecord_faults (s : State) (r) : (s.latchRecord r).1.faults = s.faults := by
  unfold State.latchRecord
  split <;> simp

@[simp] theorem State.collect_faults (s : State) (t) : (s.collect t).faults = s.faults := by
  unfold State.collect
  split <;> simp

@[simp] theorem execEventToken_leavesFaults (i) (s : State) : LeavesFaults s.faults (execEventToken i s) := by
  unfold execEventToken
  split <;> simp

@[simp] theorem State.finishFlush_faults (s : State) : s.finishFlush.faults = s.faults := by simp [State.finishFlush]
@[simp] theorem State.flushNow_faults (s : State) : s.flushNow.faults = s.faults := by simp [State.flushNow]
@[simp] theorem execEventFlushComplete_leavesFaults (s : State) : LeavesFaults s.faults (execEventFlushComplete s) := by simp [execEventFlushComplete]
@[simp] theorem State.skipLogLine_faults (s : State) : s.skipLogLine.faults = s.faults := (rfl)
@[simp] theorem execKprEvCtrlFlush_leavesFaults {v : FaultView} {s : State} (h : v.Allows s.faults) :
    LeavesFaults v (execKprEvCtrlFlush s) := by simp [execKprEvCtrlFlush, h]
@[simp] theorem execKprFcFirstClear_leavesFaults {v : FaultView} {s : State} (h : v.Allows s.faults) :
    LeavesFaults v (execKprFcFirstClear s) := by simp [execKprFcFirstClear, h]
@[simp] theorem execKprFcPendClear_leavesFaults {v : FaultView} {s : State} (h : v.Allows s.faults) (k mask) :
    LeavesFaults v (execKprFcPendClear k mask s) := by simp [execKprFcPendClear, h]

/-! Reactions of the package. -/

@[simp] theorem State.startRescue_faults (s : State) (bank safe restart) : (s.startRescue bank safe restart).faults = s.faults := by
  simp [State.startRescue]

@[simp] theorem FaultView.Allows.resetDie {v : FaultView} {s : State} (h : v.Allows s.faults) (d : DieIx) :
    v.Allows (s.resetDie d).faults := by simp [State.resetDie, h]
@[simp] theorem FaultView.Allows.resetBothDies {v : FaultView} {s : State} (h : v.Allows s.faults) :
    v.Allows s.resetBothDies.faults := by simp [State.resetBothDies, h]
@[simp] theorem State.eraseForRescue_faults (s : State) : s.eraseForRescue.faults = s.faults := (rfl)
@[simp] theorem State.resumeAtStart_faults (s : State) : s.resumeAtStart.faults = s.faults := (rfl)
@[simp] theorem State.beginStart_faults (s : State) : s.beginStart.faults = s.faults := by simp [State.beginStart]
@[simp] theorem FaultView.Allows.finishRescue {v : FaultView} {s : State} (h : v.Allows s.faults) (r : RescueRun) (tenUs : Nat) :
    v.Allows (s.finishRescue r tenUs).faults := by
  simp only [State.finishRescue]
  split
  · simp [h]
  · split <;> simp [h]

@[simp] theorem FaultView.Allows.enterSafe {v : FaultView} {s : State} (h : v.Allows s.faults) : v.Allows s.enterSafe.faults := by
  unfold State.enterSafe
  split
  · exact h
  · extract_lets entered told
    have hraised : v.Allows (s.raise 378).faults := by simpa using h
    have hentered : v.Allows entered.faults := ⟨hraised.few, fun _ sh hsh => by cases hsh; rfl, fun _ => .inl rfl⟩
    split <;> simp [told, hentered]

@[simp] theorem FaultView.Allows.takeOut {v : FaultView} {s : State} (h : v.Allows s.faults) (d : DieIx) (source : Nat) :
    v.Allows (s.takeOut d source).faults := by
  simp only [State.takeOut]
  split <;> simp [h]
@[simp] theorem FaultView.Allows.bridgeLost {v : FaultView} {s : State} (h : v.Allows s.faults) : v.Allows s.bridgeLost.faults := by
  simp only [State.bridgeLost]
  split
  · exact h
  split
  · simp [h]
  · have hcut : v.Allows (({ s.raise 312 with bridgeUp := false } : State).raise 344).clearBridge.faults := by
      rw [State.clearBridge_faults, State.raise_eq, State.raiseFrom_faults]
      exact h.of_eq (State.raiseFrom_faults ..)
    split
    · exact hcut.takeOut 0 312
    · exact hcut.takeOut 1 344

@[simp] theorem FaultView.Allows.railReaction {v : FaultView} {s : State} (h : v.Allows s.faults) (r : PkgRail) :
    v.Allows (s.railReaction r).faults := by
  unfold State.railReaction
  split <;> simp [h]

@[simp] theorem State.keeperDark_faults (s : State) : s.keeperDark.faults = s.faults := (rfl)

/-! Firmware. -/

@[simp] theorem State.updSlot_faults (s : State) (k f) : (s.updSlot k f).faults = s.faults := (rfl)
@[simp] theorem State.noteSlot_faults (s : State) (k f) : (s.noteSlot k f).faults = s.faults := by simp [State.noteSlot]

@[simp] theorem execFirmwareImageDownload_leavesFaults (ref offset len last image) (s : State) :
    LeavesFaults s.faults (execFirmwareImageDownload ref offset len last image s) := by
  unfold execFirmwareImageDownload
  refine State.adminThen_leavesFaults ?_
  repeat' split
  all_goals simp

@[simp] theorem State.acceptCommit_faults (s : State) (ref k i) : (s.acceptCommit ref k i).faults = s.faults := by simp [State.acceptCommit]

@[simp] theorem State.replace_faults (s : State) (ref n) : (s.replace ref n).1.faults = s.faults := by
  unfold State.replace
  repeat' split
  all_goals simp

@[simp] theorem State.fwGate_leavesFaults {s : State} {ref : CmdRef} {f : State → State × Status} (h : s.faults.Allows (f s).1.faults) :
    LeavesFaults s.faults (s.fwGate ref f) := State.adminThen_leavesFaults (by simpa using h)
@[simp] theorem execFirmwareCommitReplace_leavesFaults (ref slot) (s : State) : LeavesFaults s.faults (execFirmwareCommitReplace ref slot s) := by
  simp [execFirmwareCommitReplace]

@[simp] theorem execFirmwareCommitReplaceActivate_leavesFaults (ref slot) (s : State) :
    LeavesFaults s.faults (execFirmwareCommitReplaceActivate ref slot s) := by
  unfold execFirmwareCommitReplaceActivate
  refine State.adminThen_leavesFaults ?_
  dsimp only
  split <;> simp

@[simp] theorem execFirmwareCommitActivateAtReset_leavesFaults (ref slot) (s : State) :
    LeavesFaults s.faults (execFirmwareCommitActivateAtReset ref slot s) := by
  unfold execFirmwareCommitActivateAtReset
  refine State.adminThen_leavesFaults ?_
  dsimp only
  repeat' split
  all_goals simp

@[simp] theorem State.recommit_faults (s : State) (ref slot k i) : (s.recommit ref slot k i).1.faults = s.faults := by
  unfold State.recommit
  repeat' split
  all_goals simp

@[simp] theorem execFirmwareCommitActivateNow_leavesFaults (ref slot) (s : State) :
    LeavesFaults s.faults (execFirmwareCommitActivateNow ref slot s) := by
  unfold execFirmwareCommitActivateNow
  refine State.fwGate_leavesFaults ?_
  dsimp only
  repeat' split
  all_goals simp

@[simp] theorem execFirmwareCommitBootPartition_leavesFaults (ref) (s : State) : LeavesFaults s.faults (execFirmwareCommitBootPartition ref s) := by
  simp [execFirmwareCommitBootPartition]

@[simp] theorem State.slotServes_faults (s : State) : s.slotServes.faults = s.faults := by
  unfold State.slotServes
  repeat' split
  all_goals simp

@[simp] theorem State.reloadPatches_faults (s : State) : s.reloadPatches.faults = s.faults := by simp [State.reloadPatches]

@[simp] theorem execFirmwareActivation_leavesFaults (d1CoreOk regionCoreOk) (s : State) :
    LeavesFaults s.faults (execFirmwareActivation d1CoreOk regionCoreOk s) := by
  unfold execFirmwareActivation
  split <;> simp

/-! Option images. -/

@[simp] theorem State.installImage_faults (s : State) (img) : (s.installImage img).faults = s.faults := by simp [State.installImage]

@[simp] theorem execOptionStage_leavesFaults (ref offset len last image) (s : State) :
    LeavesFaults s.faults (execOptionStage ref offset len last image s) := by simp [execOptionStage]

@[simp] theorem execOptionCheck_leavesFaults (ref) (s : State) : LeavesFaults s.faults (execOptionCheck ref s) := by
  unfold execOptionCheck
  refine State.adminThen_leavesFaults ?_
  repeat' split
  all_goals simp

theorem State.applyCheck_faults {s t : State} {ref : CmdRef} (h : s.applyCheck ref = .inr t) : t.faults = s.faults := by
  simp only [State.applyCheck] at h
  split at h
  · cases h; simp
  split at h
  · cases h; simp
  split at h
  · cases h; simp
  · cases h

@[simp] theorem execOptionApplyAtStart_leavesFaults (ref : CmdRef) (s : State) : LeavesFaults s.faults (execOptionApplyAtStart ref s) := by
  refine State.adminThen_leavesFaults ?_
  dsimp only
  split
  · next h => simp [State.applyCheck_faults h]
  · simp

@[simp] theorem execOptionApplyLive_leavesFaults (ref : CmdRef) (s : State) : LeavesFaults s.faults (execOptionApplyLive ref s) := by
  refine State.adminThen_leavesFaults ?_
  dsimp only
  split
  · next h => simp [State.applyCheck_faults h]
  split
  · simp
  split
  · simp
  · split <;> simp

@[simp] theorem State.packageImage_faults (s : State) (ns) : (s.packageImage ns).faults = s.faults := by
  unfold State.packageImage
  split <;> simp

/-! The store die's controller. -/

@[simp] theorem State.refuseStore_faults (s : State) (code r sectors req) : (s.refuseStore code r sectors req).faults = s.faults := by
  simp [State.refuseStore]

@[simp] theorem State.startProgram_faults (s : State) (code req offset bytes) : (s.startProgram code req offset bytes).faults = s.faults := by
  simp only [State.startProgram]
  split <;> simp

@[simp] theorem State.startErase_faults (s : State) (req sectors fromIntent) : (s.startErase req sectors fromIntent).faults = s.faults := by
  unfold State.startErase
  split <;> simp

@[simp] theorem State.eraseSuspend_faults (s : State) (req) : (s.eraseSuspend req).faults = s.faults := by
  unfold State.eraseSuspend
  repeat' split
  all_goals simp

@[simp] theorem State.eraseResume_faults (s : State) (req) : (s.eraseResume req).faults = s.faults := (rfl)

@[simp] theorem State.operandWrite_faults (s : State) (req : Requester) (code : Byte) (ws : List (Nat × Word)) :
    (s.operandWrite req code ws).faults = s.faults := by
  simp only [State.operandWrite]
  split
  · simp
  split
  · simp
  split
  · simp
  split
  · split
    · simp
    · split <;> simp
  split
  · split <;> simp
  · simp

@[simp] theorem State.codeWrite_faults (s : State) (req w) : (s.codeWrite req w).faults = s.faults := by simp [State.codeWrite]

@[simp] theorem State.ownCycle_faults (s : State) (req offset w) : (s.ownCycle req offset w).faults = s.faults := by
  unfold State.ownCycle
  repeat' split
  all_goals simp

@[simp] theorem State.drainWaiting_faults (s : State) (n : Nat) : (s.drainWaiting n).faults = s.faults := by
  induction n generalizing s with
  | zero => rfl
  | succ n ih =>
    simp only [State.drainWaiting]
    split
    · rfl
    · split <;> simp [ih]

@[simp] theorem State.storeCycle_faults (s : State) (req offset w) : (s.storeCycle req offset w).faults = s.faults := by simp [State.storeCycle]
@[simp] theorem State.storeCommand_faults (s : State) (req code writes) : (s.storeCommand req code writes).faults = s.faults := by
  simp [State.storeCommand]

@[simp] theorem State.storeRun_leavesFaults {s : State} {req : Requester} {code : Word} {writes : List (Nat × Word)} {p} (h : s.faults = p) :
    LeavesFaults p (s.storeRun req code writes) := by simp [State.storeRun, h]

@[simp] theorem execProgram64BitWord_leavesFaults (req writes) (s : State) : LeavesFaults s.faults (execProgram64BitWord req writes s) := by
  simp [execProgram64BitWord]

@[simp] theorem execProgram256ByteLine_leavesFaults (req writes) (s : State) : LeavesFaults s.faults (execProgram256ByteLine req writes s) := by
  simp [execProgram256ByteLine]

@[simp] theorem execEraseSector_leavesFaults (req offsets) (s : State) : LeavesFaults s.faults (execEraseSector req offsets s) := by
  simp [execEraseSector]

@[simp] theorem execEraseSuspend_leavesFaults (req runTime) (s : State) : LeavesFaults s.faults (execEraseSuspend req runTime s) := by
  simp [execEraseSuspend]

@[simp] theorem execEraseResume_leavesFaults (req) (s : State) : LeavesFaults s.faults (execEraseResume req s) := by simp [execEraseResume]
@[simp] theorem execMarginMode_leavesFaults (req mode) (s : State) : LeavesFaults s.faults (execMarginMode req mode s) := by simp [execMarginMode]
@[simp] theorem execReadEraseCounter_leavesFaults (req offset) (s : State) : LeavesFaults s.faults (execReadEraseCounter req offset s) := by
  simp [execReadEraseCounter]

@[simp] theorem execReturnToRead_leavesFaults (req) (s : State) : LeavesFaults s.faults (execReturnToRead req s) := by simp [execReturnToRead]

@[simp] theorem execStoreSequenceTimeout_leavesFaults (s : State) : LeavesFaults s.faults (execStoreSequenceTimeout s) := by
  unfold execStoreSequenceTimeout
  split <;> simp

@[simp] theorem execStoreEraseStart_leavesFaults (s : State) : LeavesFaults s.faults (execStoreEraseStart s) := by
  unfold execStoreEraseStart
  split <;> simp

@[simp] theorem State.areaErased_faults (s : State) (n) : (s.areaErased n).faults = s.faults := by simp [State.areaErased]
@[simp] theorem State.sectorErased_faults (s : State) (n) : (s.sectorErased n).faults = s.faults := by simp [State.sectorErased]
@[simp] theorem execStoreProgramComplete_leavesFaults (ok : Bool) (s : State) : LeavesFaults s.faults (execStoreProgramComplete ok s) := by
  simp only [execStoreProgramComplete]
  split
  · simp
  · split <;> simp

@[simp] theorem State.nextIntents_faults (s : State) : s.nextIntents.faults = s.faults := by simp [State.nextIntents]

@[simp] theorem execStoreEraseComplete_leavesFaults (marginFailures) (s : State) :
    LeavesFaults s.faults (execStoreEraseComplete marginFailures s) := by
  unfold execStoreEraseComplete
  split <;> simp

@[simp] theorem execStoreEraseTimeout_leavesFaults (s : State) : LeavesFaults s.faults (execStoreEraseTimeout s) := by
  unfold execStoreEraseTimeout
  split <;> simp

@[simp] theorem State.afterRead_faults (s : State) (offset w) : (s.afterRead offset w).faults = s.faults := (rfl)

@[simp] theorem execStoreArrayRead_leavesFaults (kind offset byCore differs) (s : State) :
    LeavesFaults s.faults (execStoreArrayRead kind offset byCore differs s) := by
  simp only [execStoreArrayRead]
  repeat' split
  all_goals simp

@[simp] theorem execStoreEraseAutoSuspend_leavesFaults (s : State) : LeavesFaults s.faults (execStoreEraseAutoSuspend s) := by
  unfold execStoreEraseAutoSuspend
  split <;> simp

@[simp] theorem execStoreEraseAutoResume_leavesFaults (s : State) : LeavesFaults s.faults (execStoreEraseAutoResume s) := by
  unfold execStoreEraseAutoResume
  split <;> simp

/-! Watchdogs and shadows. -/

@[simp] theorem FaultView.Allows.regionDogReaction {v : FaultView} {s : State} (h : v.Allows s.faults) (g : RegionIx) :
    v.Allows (s.regionDogReaction g).faults := by simp [State.regionDogReaction, h]
@[simp] theorem execRegionCoreWatchdog_leavesFaults (g) (s : State) : LeavesFaults s.faults (execRegionCoreWatchdog g s) := by
  simp [execRegionCoreWatchdog]

@[simp] theorem FaultView.Allows.dieDogReaction {v : FaultView} {s : State} (h : v.Allows s.faults) (d : DieIx) :
    v.Allows (s.dieDogReaction d).faults := by
  unfold State.dieDogReaction
  extract_lets again noted opened0 opened1
  have hnoted : v.Allows noted.faults := by simp [noted, h]
  have hopened0 : v.Allows opened0.faults := hnoted.openShadow ..
  have hopened1 : v.Allows opened1.faults := hnoted.openShadow ..
  exact .ite (.ite hopened0.enterSafe (.ite (by simpa using hopened0) hopened0)) (.ite (hopened1.takeOut ..) hopened1)
@[simp] theorem execDieCoreWatchdog_leavesFaults (d) (s : State) : LeavesFaults s.faults (execDieCoreWatchdog d s) := by simp [execDieCoreWatchdog]

@[simp] theorem FaultView.Allows.reevaluate {v : FaultView} {s : State} (h : v.Allows s.faults) (sh : Shadow) (d : DieIx) :
    v.Allows (s.reevaluate sh d).faults := by
  simp only [State.reevaluate]
  repeat' split
  all_goals simp [h]

@[simp] theorem execShadowClose_leavesFaults (holder : Option DieIx) (i : Nat) (persisting : List Persisting) (s : State) :
    LeavesFaults s.faults (execShadowClose holder i persisting s) := by
  unfold execShadowClose
  split
  · simp
  · next d =>
    split
    · simp
    · next sh _ =>
      have hclosed : s.faults.Allows (s.updCommon d fun c => { c with shadows := c.shadows.eraseIdx i }).faults :=
        .updDie (.refl _) (le_max_of_le_right (List.length_eraseIdx_le ..))
      simp
      split <;> simp [hclosed]

@[simp] theorem FaultView.Allows.collectorFailed {v : FaultView} {s : State} (h : v.Allows s.faults) : v.Allows s.collectorFailed.faults := by
  unfold State.collectorFailed
  extract_lets record noted
  have hnoted : noted.faults = s.faults := (State.updFc_faults (fun _ => rfl) fun _ => rfl).trans (State.setIrq_faults ..)
  exact .enterSafe (h.of_eq ((State.recordEvent_faults ..).trans hnoted))
@[simp] theorem execCollectorParityScan_leavesFaults (ok) (s : State) : LeavesFaults s.faults (execCollectorParityScan ok s) := by
  simp [execCollectorParityScan]

@[simp] theorem execDieTemperatureWarning_leavesFaults (d t) (s : State) : LeavesFaults s.faults (execDieTemperatureWarning d t s) := by
  simp [execDieTemperatureWarning]

@[simp] theorem execDieTemperatureCritical_leavesFaults (d t) (s : State) : LeavesFaults s.faults (execDieTemperatureCritical d t s) := by
  simp only [execDieTemperatureCritical]
  repeat' split
  all_goals simp

@[simp] theorem execDieTemperatureBackInRange_leavesFaults (d t) (s : State) : LeavesFaults s.faults (execDieTemperatureBackInRange d t s) := by
  simp [execDieTemperatureBackInRange]

@[simp] theorem FaultView.Allows.injectedReaction {v : FaultView} {s : State} (h : v.Allows s.faults) (src : Nat) (d0 : Word) :
    v.Allows (s.injectedReaction src d0).faults := by
  unfold State.injectedReaction
  iterate 4 refine .ite (by simp [h]) ?_
  refine .ite ?region ?rest
  case region => split <;> simp [h]
  iterate 5 refine .ite (by simp [h]) ?_
  refine .ite ?rail (by simp [h])
  split <;> simp [h]

@[simp] theorem execKprFcInjectGo_leavesFaults {v : FaultView} {s : State} (h : v.Allows s.faults) (source) :
    LeavesFaults v (execKprFcInjectGo source s) := by simp [execKprFcInjectGo, h]

/-! Start. -/

@[simp] theorem State.noteBootFail_faults (s : State) (cause slot) : (s.noteBootFail cause slot).faults = s.faults := (rfl)
@[simp] theorem State.stage_faults (s : State) (x) : (s.stage x).faults = s.faults := (rfl)
@[simp] theorem State.findIntents_faults (s : State) : s.findIntents.faults = s.faults := by simp [State.findIntents]

@[simp] theorem State.readRescueRecord_faults (s : State) : s.readRescueRecord.faults = s.faults := by
  unfold State.readRescueRecord
  split <;> simp

@[simp] theorem State.takePending_faults (s : State) : s.takePending.faults = s.faults := by
  unfold State.takePending
  split <;> simp

@[simp] theorem execVinRise_leavesFaults (o : ColdStartFindings) (s : State) : LeavesFaults s.faults (execVinRise o s) := by
  unfold execVinRise
  split
  · simp
  · extract_lets powered bridged booting started clocked intended recorded located checked
    have hbridged : s.faults.Allows bridged.faults := ⟨fun _ => id, id, .inl⟩
    have hlocated : s.faults.Allows located.faults := by simp [located, recorded, intended, clocked, started, booting, hbridged]
    simp only [leavesFaults_next, State.takePending_faults, checked]
    split <;> simp [hlocated]
@[simp] theorem FaultView.Allows.restartNow {v : FaultView} {s : State} (h : v.Allows s.faults) : v.Allows s.restartNow.faults := by
  simp [State.restartNow, h]

@[simp] theorem execPackageRestart_leavesFaults (cause) (s : State) : LeavesFaults s.faults (execPackageRestart cause s) := by
  unfold execPackageRestart
  repeat' split
  all_goals simp

@[simp] theorem execBootWindowTimeout_leavesFaults (s : State) : LeavesFaults s.faults (execBootWindowTimeout s) := by simp [execBootWindowTimeout]

end Sys2Proof.Machine
end

