-- ==== Sys2Proof/Proofs/FaultFrameHost.lean ====
section
/-! What leaves shadows, the safe state and VIN alone, or as they may stand: host commands, microwords, the supply, management space, the release of D0
and the empty queue. -/

namespace Sys2Proof.Machine

/-! Buffer and memory commands. -/

@[simp] theorem State.takeBuf_faults (s : State) (d c k) : (s.takeBuf d c k).1.faults = s.faults := by
  unfold State.takeBuf
  repeat' split
  all_goals simp

@[simp] theorem execBufferAllocate_leavesFaults (d bytes dram kind) (s : State) : LeavesFaults s.faults (execBufferAllocate d bytes dram kind s) := by
  unfold execBufferAllocate
  repeat' split
  all_goals simp

@[simp] theorem execBufferReferenceTake_leavesFaults (d ptr user) (s : State) : LeavesFaults s.faults (execBufferReferenceTake d ptr user s) := by
  unfold execBufferReferenceTake
  repeat' split
  all_goals simp

@[simp] theorem execBufferReferenceDrop_leavesFaults (d ptr user) (s : State) : LeavesFaults s.faults (execBufferReferenceDrop d ptr user s) := by
  unfold execBufferReferenceDrop
  split <;> simp

@[simp] theorem State.serveWaiting_faults (s : State) (d c) : (s.serveWaiting d c).faults = s.faults := by
  unfold State.serveWaiting
  repeat' split
  all_goals simp

@[simp] theorem execBufferZeroed_leavesFaults (d c i) (s : State) : LeavesFaults s.faults (execBufferZeroed d c i s) := by simp [execBufferZeroed]

@[simp] theorem execDramOscillatorRead_leavesFaults (d value driftPs) (s : State) :
    LeavesFaults s.faults (execDramOscillatorRead d value driftPs s) := by simp [execDramOscillatorRead]

@[simp] theorem execDramZqLatch_leavesFaults (d value) (s : State) : LeavesFaults s.faults (execDramZqLatch d value s) := by simp [execDramZqLatch]

@[simp] theorem execDramRetrain_leavesFaults (d byRate tries) (s : State) : LeavesFaults s.faults (execDramRetrain d byRate tries s) := by
  simp only [execDramRetrain]
  repeat' split
  all_goals simp

@[simp] theorem execMemoryCorrected_leavesFaults (d k addr bit) (s : State) : LeavesFaults s.faults (execMemoryCorrected d k addr bit s) := by
  simp only [execMemoryCorrected]
  repeat' split
  all_goals simp

@[simp] theorem State.poisonPlaced_faults (s : State) (g b which) : (s.poisonPlaced g b which).faults = s.faults := by
  unfold State.poisonPlaced
  split <;> simp

@[simp] theorem State.poisonUpds_faults (s : State) (g : RegionIx) (n : Nat) (which : PendUpd → Bool) :
    (s.poisonUpds g n which).faults = s.faults := by
  refine faults_foldl (fun s u => ?_) _ _
  dsimp only
  split <;> simp

@[simp] theorem State.poisonBuf_faults (s : State) (d : DieIx) (c : PoolClass) (i unit : Nat) : (s.poisonBuf d c i unit).faults = s.faults := by
  refine (faults_foldl (fun s g => ?_) _ _).trans (by simp)
  split
  · rfl
  · refine faults_foldl (fun s h => ?_) _ _
    split
    · rfl
    · dsimp only
      split
      · rfl
      · split <;> simp

@[simp] theorem State.reloadEntry_faults (s : State) (g gran) : (s.reloadEntry g gran).faults = s.faults := by simp [State.reloadEntry]

@[simp] theorem execMemoryUncorrectable_leavesFaults (d k addr target) (s : State) :
    LeavesFaults s.faults (execMemoryUncorrectable d k addr target s) := by
  simp only [execMemoryUncorrectable]
  repeat' split
  all_goals simp

@[simp] theorem execLocationRetire_leavesFaults (d k addr channel inBuffer) (s : State) :
    LeavesFaults s.faults (execLocationRetire d k addr channel inBuffer s) := by
  unfold execLocationRetire
  repeat' split
  all_goals simp

@[simp] theorem execMemTest_leavesFaults {v : FaultView} {s : State} (h : v.Allows s.faults) (d : DieIx) (w : Word) (checkOk : Bool) :
    LeavesFaults v (execMemTest d w checkOk s) := by
  unfold execMemTest
  extract_lets en flip n f armed ce ue tested
  have htested : v.Allows tested.faults := by simp [tested, armed, h]
  simp only [leavesFaults_ite, leavesFaults_next]
  split
  · simp [armed, h]
  · exact .ite htested htested

@[simp] theorem execMemCtrlCntClr_leavesFaults {v : FaultView} {s : State} (h : v.Allows s.faults) (d) :
    LeavesFaults v (execMemCtrlCntClr d s) := by simp [execMemCtrlCntClr, h]
@[simp] theorem execZeroFillComplete_leavesFaults (d) (s : State) : LeavesFaults s.faults (execZeroFillComplete d s) := by simp [execZeroFillComplete]

/-! Links, controllers and queues. -/

@[simp] theorem execPcieLinkTraining_leavesFaults (d gen lanes) (s : State) : LeavesFaults s.faults (execPcieLinkTraining d gen lanes s) := by
  simp [execPcieLinkTraining]

@[simp] theorem execHostLinkDown_leavesFaults (d) (s : State) : LeavesFaults s.faults (execHostLinkDown d s) := by simp [execHostLinkDown]
@[simp] theorem execPerstNAssert_leavesFaults (d) (s : State) : LeavesFaults s.faults (execPerstNAssert d s) := by simp [execPerstNAssert]
@[simp] theorem execPerstNRelease_leavesFaults (d) (s : State) : LeavesFaults s.faults (execPerstNRelease d s) := by simp [execPerstNRelease]
@[simp] theorem execFunctionLevelReset_leavesFaults (d) (s : State) : LeavesFaults s.faults (execFunctionLevelReset d s) := by
  simp [execFunctionLevelReset]

@[simp] theorem execConfigRequest_leavesFaults (d) (s : State) : LeavesFaults s.faults (execConfigRequest d s) := by simp [execConfigRequest]
@[simp] theorem State.controllerReady_faults (s : State) (d) : (s.controllerReady d).faults = s.faults := by simp [State.controllerReady]
@[simp] theorem execControllerEnable_leavesFaults (d asqs acqs) (s : State) : LeavesFaults s.faults (execControllerEnable d asqs acqs s) := by
  simp [execControllerEnable]

@[simp] theorem execControllerReset_leavesFaults (d) (s : State) : LeavesFaults s.faults (execControllerReset d s) := by
  simp only [execControllerReset]
  repeat' split
  all_goals simp

@[simp] theorem State.sealOpen_faults (s : State) (g) : (s.sealOpen g).faults = s.faults := by simp [State.sealOpen]
@[simp] theorem State.sealAllOpen_faults (s : State) : s.sealAllOpen.faults = s.faults := by simp [State.sealAllOpen]
@[simp] theorem State.settleShutdown_faults (s : State) (d) : (s.settleShutdown d).faults = s.faults := by simp [State.settleShutdown]
@[simp] theorem execNormalShutdown_leavesFaults (d) (s : State) : LeavesFaults s.faults (execNormalShutdown d s) := by simp [execNormalShutdown]
@[simp] theorem execAbruptShutdown_leavesFaults (d) (s : State) : LeavesFaults s.faults (execAbruptShutdown d s) := by simp [execAbruptShutdown]
@[simp] theorem execNvmSubsystemReset_leavesFaults (d value) (s : State) : LeavesFaults s.faults (execNvmSubsystemReset d value s) := by
  simp [execNvmSubsystemReset]

@[simp] theorem State.badDoorbell_faults (s : State) (d) : (s.badDoorbell d).faults = s.faults := by simp [State.badDoorbell]

@[simp] theorem execSubmissionQueueDoorbell_leavesFaults (d qid tail) (s : State) :
    LeavesFaults s.faults (execSubmissionQueueDoorbell d qid tail s) := by
  simp only [execSubmissionQueueDoorbell]
  repeat' split
  all_goals simp

@[simp] theorem execCompletionQueueDoorbell_leavesFaults (d qid head) (s : State) :
    LeavesFaults s.faults (execCompletionQueueDoorbell d qid head s) := by
  simp only [execCompletionQueueDoorbell]
  repeat' split
  all_goals simp

@[simp] theorem State.admin_leavesFaults {s : State} {k : AdminKind} {ref : CmdRef} {f : State → State} (h : s.faults.Allows (f s).faults) :
    LeavesFaults s.faults (s.admin k ref f) := State.adminThen_leavesFaults (by simpa using h)

@[simp] theorem execCreateIoCompletionQueue_leavesFaults (ref qid entries contiguous irqEn vector) (s : State) :
    LeavesFaults s.faults (execCreateIoCompletionQueue ref qid entries contiguous irqEn vector s) := by
  unfold execCreateIoCompletionQueue
  refine State.adminThen_leavesFaults ?_
  dsimp only
  split <;> simp

@[simp] theorem State.autoLock_faults (s : State) : s.autoLock.faults = s.faults := by simp [State.autoLock]

@[simp] theorem execCreateIoSubmissionQueue_leavesFaults (ref qid entries cqid contiguous) (s : State) :
    LeavesFaults s.faults (execCreateIoSubmissionQueue ref qid entries cqid contiguous s) := by
  unfold execCreateIoSubmissionQueue
  refine State.adminThen_leavesFaults ?_
  dsimp only
  split <;> simp

@[simp] theorem State.catchCmd_faults (s : State) (x st) : (s.catchCmd x st).faults = s.faults := by simp [State.catchCmd]
@[simp] theorem execDeleteIoSubmissionQueue_leavesFaults (ref qid) (s : State) : LeavesFaults s.faults (execDeleteIoSubmissionQueue ref qid s) := by
  simp [execDeleteIoSubmissionQueue]

@[simp] theorem execDeleteIoCompletionQueue_leavesFaults (ref qid) (s : State) : LeavesFaults s.faults (execDeleteIoCompletionQueue ref qid s) := by
  simp [execDeleteIoCompletionQueue]

@[simp] theorem execAbort_leavesFaults (ref sqid cid) (s : State) : LeavesFaults s.faults (execAbort ref sqid cid s) := by
  unfold execAbort
  refine State.adminThen_leavesFaults ?_
  dsimp only
  split <;> simp

@[simp] theorem execAsynchronousEventRequest_leavesFaults (ref) (s : State) : LeavesFaults s.faults (execAsynchronousEventRequest ref s) := by
  unfold execAsynchronousEventRequest
  refine State.adminThen_leavesFaults ?_
  dsimp only
  repeat' split
  all_goals simp

/-! Namespaces, format and sanitize. -/

@[simp] theorem State.holdAdmin_faults (s : State) (ref nsid) : (s.holdAdmin ref nsid).faults = s.faults := by simp [State.holdAdmin]

@[simp] theorem State.onceIdle_faults {s : State} {ref : CmdRef} {nsid : Nat} {ids : List Nat} {f : State → State}
    (h : ∀ t, (f t).faults = t.faults) : (s.onceIdle ref nsid ids f).faults = s.faults := by simp [State.onceIdle, h]

@[simp] theorem State.newNamespaces_faults (s : State) (ns) : (s.newNamespaces ns).faults = s.faults := by simp [State.newNamespaces]
@[simp] theorem State.drbgFailed_faults (s : State) (ref) : (s.drbgFailed ref).faults = s.faults := by simp [State.drbgFailed]

@[simp] theorem execNamespaceManagementCreate_leavesFaults (ref nsze ncap lbaf phandles drbgOk) (s : State) :
    LeavesFaults s.faults (execNamespaceManagementCreate ref nsze ncap lbaf phandles drbgOk s) := by
  unfold execNamespaceManagementCreate
  refine State.adminThen_leavesFaults ?_
  dsimp only
  split <;> simp

@[simp] theorem execNamespaceManagementDelete_leavesFaults (ref nsid) (s : State) :
    LeavesFaults s.faults (execNamespaceManagementDelete ref nsid s) := by simp [execNamespaceManagementDelete]

@[simp] theorem execNamespaceAttachment_leavesFaults (ref nsid attach ctrls) (s : State) :
    LeavesFaults s.faults (execNamespaceAttachment ref nsid attach ctrls s) := by simp [execNamespaceAttachment]

@[simp] theorem State.setLbaf_faults (s : State) (ids lbaf) : (s.setLbaf ids lbaf).faults = s.faults := by simp [State.setLbaf]

@[simp] theorem execFormatNvm_leavesFaults (ref nsid lbaf) (s : State) : LeavesFaults s.faults (execFormatNvm ref nsid lbaf s) := by
  unfold execFormatNvm
  refine State.adminThen_leavesFaults ?_
  dsimp only
  split <;> simp

@[simp] theorem State.eraseNow_faults {s : State} {ref : CmdRef} {nsid : Nat} {ids : List Nat} {drbgOk : Bool} {f : State → State}
    (h : ∀ t, (f t).faults = t.faults) : (s.eraseNow ref nsid ids drbgOk f).faults = s.faults := by simp [State.eraseNow, h]

@[simp] theorem execFormatNvmCryptoErase_leavesFaults (ref nsid lbaf drbgOk) (s : State) :
    LeavesFaults s.faults (execFormatNvmCryptoErase ref nsid lbaf drbgOk s) := by
  unfold execFormatNvmCryptoErase
  refine State.adminThen_leavesFaults ?_
  dsimp only
  split <;> simp

@[simp] theorem State.sanitizeStart_faults (s : State) (block) : (s.sanitizeStart block).faults = s.faults := by simp [State.sanitizeStart]
@[simp] theorem State.sanitizeRun_faults (s : State) (ref block drbgOk) : (s.sanitizeRun ref block drbgOk).faults = s.faults := by
  simp [State.sanitizeRun]

@[simp] theorem execSanitizeCryptoErase_leavesFaults (ref drbgOk) (s : State) : LeavesFaults s.faults (execSanitizeCryptoErase ref drbgOk s) := by
  simp [execSanitizeCryptoErase]

@[simp] theorem execSanitizeBlockErase_leavesFaults (ref drbgOk) (s : State) : LeavesFaults s.faults (execSanitizeBlockErase ref drbgOk s) := by
  simp [execSanitizeBlockErase]

@[simp] theorem execSanitizeOverwrite_leavesFaults (ref) (s : State) : LeavesFaults s.faults (execSanitizeOverwrite ref s) := by
  simp [execSanitizeOverwrite]

@[simp] theorem execSanitizeExitFailureMode_leavesFaults (ref) (s : State) : LeavesFaults s.faults (execSanitizeExitFailureMode ref s) := by
  simp [execSanitizeExitFailureMode]

/-! Diapause. -/

@[simp] theorem execDiapausePrepare_leavesFaults (ref) (s : State) :
    LeavesFaults s.faults (execDiapausePrepare ref s) := by simp [execDiapausePrepare]

@[simp] theorem State.captureAll_faults (s : State) (g : RegionIx) : (s.captureAll g).faults = s.faults := by
  refine faults_foldl (fun s i => ?_) _ _
  dsimp only
  split <;> simp

@[simp] theorem State.drainOnce_faults (s : State) (g) : (s.drainOnce g).faults = s.faults := by simp [State.drainOnce]
@[simp] theorem State.drainJournal_faults (s : State) (g) : (s.drainJournal g).faults = s.faults := by simp [State.drainJournal]

@[simp] theorem execDiapauseReady_leavesFaults (s : State) : LeavesFaults s.faults (execDiapauseReady s) := by
  unfold execDiapauseReady
  split <;> simp

@[simp] theorem execDiapauseStatus_leavesFaults (ref) (s : State) : LeavesFaults s.faults (execDiapauseStatus ref s) := by simp [execDiapauseStatus]

/-! The clockless fabric. -/

@[simp] theorem execVcoreOutOfWindow_leavesFaults (d mv) (s : State) : LeavesFaults s.faults (execVcoreOutOfWindow d mv s) := by
  simp only [execVcoreOutOfWindow, leavesFaults_ite]
  split
  · simp
  · simp
@[simp] theorem execVcoreWindowRestored_leavesFaults (d mv) (s : State) : LeavesFaults s.faults (execVcoreWindowRestored d mv s) := by
  simp [execVcoreWindowRestored]

@[simp] theorem execXtal25Stop_leavesFaults (s : State) : LeavesFaults s.faults (execXtal25Stop s) := by simp [execXtal25Stop]

@[simp] theorem execXtal32kStop_leavesFaults (s : State) : LeavesFaults s.faults (execXtal32kStop s) := by
  simp only [execXtal32kStop]
  repeat' split
  all_goals simp

@[simp] theorem State.bridgeAnswer_faults (s : State) (toward tag) : (s.bridgeAnswer toward tag).faults = s.faults := by
  unfold State.bridgeAnswer
  repeat' split
  all_goals simp

@[simp] theorem execDieBridgeTransfer_leavesFaults (toward tag crcOk) (s : State) :
    LeavesFaults s.faults (execDieBridgeTransfer toward tag crcOk s) := by simp [execDieBridgeTransfer]

@[simp] theorem execDieBridgeHandshakeTimeout_leavesFaults (s : State) : LeavesFaults s.faults (execDieBridgeHandshakeTimeout s) := by
  simp [execDieBridgeHandshakeTimeout]

@[simp] theorem execCrossingReset_leavesFaults (x phySide) (s : State) : LeavesFaults s.faults (execCrossingReset x phySide s) := by
  unfold execCrossingReset
  split <;> simp

@[simp] theorem execCrossingReadyHandshake_leavesFaults (x) (s : State) : LeavesFaults s.faults (execCrossingReadyHandshake x s) := by
  simp [execCrossingReadyHandshake]

@[simp] theorem execPhyWakeRequest_leavesFaults (x stopGrantedFirst) (s : State) :
    LeavesFaults s.faults (execPhyWakeRequest x stopGrantedFirst s) := by
  simp [execPhyWakeRequest]

@[simp] theorem execPhyIdleTimerExpiry_leavesFaults (l wakeGrantedFirst) (s : State) :
    LeavesFaults s.faults (execPhyIdleTimerExpiry l wakeGrantedFirst s) := by simp [execPhyIdleTimerExpiry]

@[simp] theorem execPcieL12Entry_leavesFaults (d) (s : State) : LeavesFaults s.faults (execPcieL12Entry d s) := by simp [execPcieL12Entry]
@[simp] theorem execPcieL12Exit_leavesFaults (d) (s : State) : LeavesFaults s.faults (execPcieL12Exit d s) := by simp [execPcieL12Exit]

/-! Features. -/

@[simp] theorem State.updFeat_faults (s : State) (ref f) : (s.updFeat ref f).faults = s.faults := by simp [State.updFeat]

@[simp] theorem State.setFeature_leavesFaults (s : State) (ref : CmdRef) (fault : Option Status) (f : Features → Features) (dw0 : Word) :
    LeavesFaults s.faults (s.setFeature ref fault f dw0) := by
  refine State.admin_leavesFaults ?_
  split <;> simp

@[simp] theorem execSetFeaturesTimestamp_leavesFaults (ref ms) (s : State) : LeavesFaults s.faults (execSetFeaturesTimestamp ref ms s) := by
  simp [execSetFeaturesTimestamp]

@[simp] theorem execSetFeaturesArbitration_leavesFaults (ref dw11) (s : State) : LeavesFaults s.faults (execSetFeaturesArbitration ref dw11 s) := by
  simp [execSetFeaturesArbitration]

@[simp] theorem execSetFeaturesPowerManagement_leavesFaults (ref ps) (s : State) :
    LeavesFaults s.faults (execSetFeaturesPowerManagement ref ps s) := by
  simp [execSetFeaturesPowerManagement]

@[simp] theorem execSetFeaturesTemperatureThreshold_leavesFaults (ref kelvin sel under) (s : State) :
    LeavesFaults s.faults (execSetFeaturesTemperatureThreshold ref kelvin sel under s) := by simp [execSetFeaturesTemperatureThreshold]

@[simp] theorem execSetFeaturesErrorRecovery_leavesFaults (ref dw11) (s : State) :
    LeavesFaults s.faults (execSetFeaturesErrorRecovery ref dw11 s) := by
  simp [execSetFeaturesErrorRecovery]

@[simp] theorem execSetFeaturesNumberOfQueues_leavesFaults (ref nsq ncq) (s : State) :
    LeavesFaults s.faults (execSetFeaturesNumberOfQueues ref nsq ncq s) := by simp [execSetFeaturesNumberOfQueues]

@[simp] theorem execSetFeaturesInterruptCoalescing_leavesFaults (ref dw11) (s : State) :
    LeavesFaults s.faults (execSetFeaturesInterruptCoalescing ref dw11 s) := by simp [execSetFeaturesInterruptCoalescing]

@[simp] theorem execSetFeaturesInterruptVectorConfig_leavesFaults (ref vector disable) (s : State) :
    LeavesFaults s.faults (execSetFeaturesInterruptVectorConfig ref vector disable s) := by simp [execSetFeaturesInterruptVectorConfig]

@[simp] theorem execSetFeaturesAsyncEventConfiguration_leavesFaults (ref dw11) (s : State) :
    LeavesFaults s.faults (execSetFeaturesAsyncEventConfiguration ref dw11 s) := by simp [execSetFeaturesAsyncEventConfiguration]

@[simp] theorem execSetFeaturesApst_leavesFaults (ref enable table) (s : State) : LeavesFaults s.faults (execSetFeaturesApst ref enable table s) := by
  simp [execSetFeaturesApst]

@[simp] theorem execSetFeaturesFdp_leavesFaults (ref endgid index enable) (s : State) :
    LeavesFaults s.faults (execSetFeaturesFdp ref endgid index enable s) := by simp [execSetFeaturesFdp]

@[simp] theorem execSetFeaturesFdpEvents_leavesFaults (ref handle types enable) (s : State) :
    LeavesFaults s.faults (execSetFeaturesFdpEvents ref handle types enable s) := by simp [execSetFeaturesFdpEvents]

@[simp] theorem execGetFeatures_leavesFaults (ref fid dw11) (s : State) : LeavesFaults s.faults (execGetFeatures ref fid dw11 s) := by
  unfold execGetFeatures
  refine State.adminThen_leavesFaults ?_
  dsimp only
  split <;> simp

@[simp] theorem execApstIdleTimer_leavesFaults (d) (s : State) : LeavesFaults s.faults (execApstIdleTimer d s) := by simp [execApstIdleTimer]

/-! I/O commands. -/

@[simp] theorem State.endReads_faults (s : State) (ref) : (s.endReads ref).faults = s.faults := by simp [State.endReads]
@[simp] theorem State.bridgeRequests_faults (s : State) (c) : (s.bridgeRequests c).faults = s.faults := by simp [State.bridgeRequests]
@[simp] theorem State.fetch_faults (s : State) (c) : (s.fetch c).faults = s.faults := by simp [State.fetch]
@[simp] theorem State.takeLooks_faults (s : State) (c) : (s.takeLooks c).faults = s.faults := by simp [State.takeLooks]
@[simp] theorem State.lookHeld_faults (s : State) (c g) : (s.lookHeld c g).faults = s.faults := by simp [State.lookHeld]

@[simp] theorem State.ioThen_leavesFaults {s : State} {c : SlotCmd} {f : State → State} (h : ∀ t, (f t).faults = t.faults) :
    LeavesFaults s.faults (s.ioThen c f) := by
  simp only [State.ioThen]
  split
  · simp
  split
  · simp
  · simp only [leavesFaults_next]
    split
    · simp
    · split <;> simp [h]

@[simp] theorem State.askFor_faults (s : State) (c x) : (s.askFor c x).faults = s.faults := by
  unfold State.askFor
  split <;> simp

@[simp] theorem State.watchRead_faults (s : State) (c x) : (s.watchRead c x).faults = s.faults := by simp [State.watchRead]
@[simp] theorem State.poisonedEntry_faults (s : State) (c x) : (s.poisonedEntry c x).faults = s.faults := by simp [State.poisonedEntry]

@[simp] theorem State.readRanges_faults (s : State) (c n ranges) : (s.readRanges c n ranges).1.faults = s.faults := by
  simp only [State.readRanges]
  repeat' split
  all_goals simp

@[simp] theorem State.darkEnd_faults (s : State) (ref member) : (s.darkEnd ref member).faults = s.faults := by simp [State.darkEnd]
@[simp] theorem State.poisonMet_faults (s : State) (ref) : (s.poisonMet ref).faults = s.faults := by simp [State.poisonMet]

@[simp] theorem execRead_leavesFaults (ref : CmdRef) (nsid slba nlb : Nat) (s : State) : LeavesFaults s.faults (execRead ref nsid slba nlb s) := by
  simp only [execRead]
  refine State.ioThen_leavesFaults fun s => ?_
  split
  · rfl
  split
  · simp
  split
  · next h => simp [faults_of_fst h]
  · next h => simp [faults_of_fst h]
  · next h => simp [faults_of_fst h]

@[simp] theorem execVerify_leavesFaults (ref : CmdRef) (nsid slba nlb : Nat) (s : State) :
    LeavesFaults s.faults (execVerify ref nsid slba nlb s) := by
  simp only [execVerify]
  refine State.ioThen_leavesFaults fun s => ?_
  split
  · rfl
  split
  · next h => simp [faults_of_fst h]
  · next h => simp [faults_of_fst h]
  · next h => simp [faults_of_fst h]

@[simp] theorem execFlush_leavesFaults (ref nsid) (s : State) : LeavesFaults s.faults (execFlush ref nsid s) := by simp [execFlush]

@[simp] theorem State.takePieces_faults (s : State) (d : DieIx) (ref : CmdRef) (xs : List (Nat × Nat × UpdKind)) :
    (s.takePieces d ref xs).1.faults = s.faults := by
  induction xs generalizing s with
  | nil => rfl
  | cons x xs ih =>
    simp only [State.takePieces]
    split
    · rfl
    split
    · simp
    · split
      · next h => simp [faults_of_fst h, ih]
      · next h => simp [faults_of_fst h, ih]

@[simp] theorem State.enterPend_faults (s : State) (g d w p q win) : (s.enterPend g d w p q win).faults = s.faults := (rfl)

@[simp] theorem State.admitPiece_faults (s : State) (d : DieIx) (w : WriteJob) (p : WritePiece) : (s.admitPiece d w p).1.faults = s.faults := by
  unfold State.admitPiece
  split
  · rfl
  · rfl
  · extract_lets g small fits through
    split
    · rfl
    · split
      · next h => simp [faults_of_fst h]
      · next h =>
        split
        · simp [faults_of_fst h]
        · split <;> simp [faults_of_fst h]

@[simp] theorem State.admitPieces_faults (s : State) (d : DieIx) (w : WriteJob) (ps : List WritePiece) :
    (s.admitPieces d w ps).1.faults = s.faults := by
  induction ps generalizing s with
  | nil => rfl
  | cons p ps ih => simp [State.admitPieces, ih]

@[simp] theorem State.refuseJob_faults (s : State) (d w st) : (s.refuseJob d w st).faults = s.faults := by simp [State.refuseJob]
@[simp] theorem State.admitJob_faults (s : State) (d w) : (s.admitJob d w).faults = s.faults := by simp [State.admitJob]
@[simp] theorem State.admitAll_faults (s : State) (d) : (s.admitAll d).faults = s.faults := by simp [State.admitAll]
@[simp] theorem execWindowAdmit_leavesFaults (d) (s : State) : LeavesFaults s.faults (execWindowAdmit d s) := by simp [execWindowAdmit]

@[simp] theorem State.startJob_faults (s : State) (ref nsid stream data pieces) : (s.startJob ref nsid stream data pieces).faults = s.faults := by
  simp [State.startJob]

@[simp] theorem State.receiveData_faults (s : State) (ref : CmdRef) (n : NamespaceRec) (stream : Byte) (range : LbaRange) (data : List Nat) :
    (s.receiveData ref n stream range data).faults = s.faults := by
  unfold State.receiveData
  split
  · next h => simp [faults_of_fst h]
  · next h => simp [faults_of_fst h]

@[simp] theorem execWrite_leavesFaults (ref : CmdRef) (nsid slba nlb dtype dspec : Nat) (data : List Nat) (s : State) :
    LeavesFaults s.faults (execWrite ref nsid slba nlb dtype dspec data s) := by
  simp only [execWrite]
  refine State.ioThen_leavesFaults fun s => ?_
  split
  · rfl
  · simp only [faults_ite]
    split
    · simp
    split
    · simp
    · split <;> simp

@[simp] theorem State.zeroRanges_faults (s : State) (ref n ranges) : (s.zeroRanges ref n ranges).faults = s.faults := by simp [State.zeroRanges]

@[simp] theorem execWriteZeroes_leavesFaults (ref nsid slba nlb) (s : State) : LeavesFaults s.faults (execWriteZeroes ref nsid slba nlb s) := by
  unfold execWriteZeroes
  refine State.ioThen_leavesFaults fun s => ?_
  split <;> simp

@[simp] theorem execDatasetManagement_leavesFaults (ref nsid deallocate ranges) (s : State) :
    LeavesFaults s.faults (execDatasetManagement ref nsid deallocate ranges s) := by
  unfold execDatasetManagement
  refine State.ioThen_leavesFaults fun s => ?_
  split <;> simp

@[simp] theorem execCopy_leavesFaults (ref : CmdRef) (nsid sdlba : Nat) (src : List LbaRange) (s : State) :
    LeavesFaults s.faults (execCopy ref nsid sdlba src s) := by
  simp only [execCopy]
  refine State.ioThen_leavesFaults fun s => ?_
  split
  · rfl
  split
  · simp
  split
  · simp
  split
  · simp
  · split
    · next h => simp [faults_of_fst h]
    · next h => simp [faults_of_fst h]
    · next h => simp [faults_of_fst h]

@[simp] theorem State.xtsRefused_faults (s : State) (d) : (s.xtsRefused d).faults = s.faults := by simp [State.xtsRefused]

@[simp] theorem State.takeCipher_faults (s : State) (d u) : (s.takeCipher d u).1.faults = s.faults := by
  unfold State.takeCipher
  repeat' split
  all_goals simp

@[simp] theorem execXtsEncrypt_leavesFaults (g : RegionIx) (gran seq : Nat) (refused : List Nat) (s : State) :
    LeavesFaults s.faults (execXtsEncrypt g gran seq refused s) := by
  simp only [execXtsEncrypt]
  split
  · simp
  split
  · next h => simp [faults_of_fst h]
  · next h =>
    split
    · simp [faults_of_fst h]
    split
    · simp [faults_of_fst h]
    · split
      · simp [faults_of_fst h]
      · simp only [leavesFaults_next, State.refuseJob_faults, State.updHost_faults, State.updRegion_faults, State.xtsRefused_faults]
        split <;> simp [faults_of_fst h]
    · simp [faults_of_fst h]

/-! Log pages and Identify. -/

@[simp] theorem State.logWasRead_faults (s : State) (d lid rae) : (s.logWasRead d lid rae).faults = s.faults := by simp [State.logWasRead]

@[simp] theorem execGetLogPage_leavesFaults (ref lid nsid lsi lpo len rae) (s : State) :
    LeavesFaults s.faults (execGetLogPage ref lid nsid lsi lpo len rae s) := by
  unfold execGetLogPage
  refine State.adminThen_leavesFaults ?_
  dsimp only
  split <;> simp

@[simp] theorem execIdentify_leavesFaults (ref cns nsid cntid) (s : State) : LeavesFaults s.faults (execIdentify ref cns nsid cntid s) := by
  unfold execIdentify
  refine State.adminThen_leavesFaults ?_
  dsimp only
  split <;> simp

@[simp] theorem execUnsupportedCommand_leavesFaults (ref) (s : State) : LeavesFaults s.faults (execUnsupportedCommand ref s) := by
  simp [execUnsupportedCommand]

/-! The restore of the regions. -/

@[simp] theorem State.restoreRegion_faults (s : State) (g x) : (s.restoreRegion g x).faults = s.faults := by
  unfold State.restoreRegion
  split <;> simp

@[simp] theorem State.scanOpen_faults (s : State) (g x) : (s.scanOpen g x).faults = s.faults := by
  unfold State.scanOpen
  split <;> simp

@[simp] theorem State.applyRescued_faults (s : State) (g x) : (s.applyRescued g x).faults = s.faults := (rfl)

@[simp] theorem State.settleBands_faults (s : State) (g) : (s.settleBands g).faults = s.faults := by
  unfold State.settleBands
  split <;> simp

@[simp] theorem State.markBands_faults (s : State) (g uncertain dark) : (s.markBands g uncertain dark).faults = s.faults := by simp [State.markBands]

@[simp] theorem State.settleLuns_faults (s : State) (g : RegionIx) : (s.settleLuns g).faults = s.faults := by
  refine (faults_foldl (fun s l => State.quarantineLane_faults ..) _ _).trans
    ((faults_foldl (fun s n => State.quarantineLun_faults ..) _ _).trans (faults_foldl (fun s n => ?_) _ _))
  split <;> simp

@[simp] theorem State.resumeSeq_faults (s : State) (g) : (s.resumeSeq g).faults = s.faults := (rfl)
@[simp] theorem State.rescueBands_faults (s : State) (g) : (s.rescueBands g).faults = s.faults := by simp [State.rescueBands]
@[simp] theorem State.journalBands_faults (s : State) (c g) : (s.journalBands c g).faults = s.faults := by simp [State.journalBands]
@[simp] theorem State.firstBands_faults (s : State) (g) : (s.firstBands g).faults = s.faults := by simp [State.firstBands]
@[simp] theorem State.firstSpare_faults (s : State) (g) : (s.firstSpare g).faults = s.faults := by simp [State.firstSpare]
@[simp] theorem State.matchExtents_faults (s : State) : s.matchExtents.faults = s.faults := by simp [State.matchExtents]
@[simp] theorem State.loadedTurns_faults (s : State) (g) : (s.loadedTurns g).faults = s.faults := by simp [State.loadedTurns]
@[simp] theorem execMapSegmentLoad_leavesFaults (g seg) (s : State) :
    LeavesFaults s.faults (execMapSegmentLoad g seg s) := by simp [execMapSegmentLoad]
@[simp] theorem State.eachRegion_faults {s : State} {f : State → RegionIx → State} (h : ∀ t g, (f t g).faults = t.faults) :
    (s.eachRegion f).faults = s.faults := faults_foldl h _ s
@[simp] theorem State.restoreAll_faults (s : State) (facts) : (s.restoreAll facts).faults = s.faults := by simp [State.restoreAll]
@[simp] theorem State.regionsServe_faults (s : State) : s.regionsServe.faults = s.faults := by simp [State.regionsServe]
@[simp] theorem execHostFetchStart_leavesFaults (facts ms) (s : State) : LeavesFaults s.faults (execHostFetchStart facts ms s) := by
  simp [execHostFetchStart]

/-! The management port. -/

@[simp] theorem State.miAnswer_faults (s : State) (tag code data) : (s.miAnswer tag code data).faults = s.faults := (rfl)
@[simp] theorem State.mpThen_leavesFaults {s : State} {f : State → State} (h : s.faults.Allows (f s).faults) :
    LeavesFaults s.faults (s.mpThen f) := by
  simp [State.mpThen, h]

@[simp] theorem execMctpPacket_leavesFaults (pecOk) (s : State) : LeavesFaults s.faults (execMctpPacket pecOk s) := by simp [execMctpPacket]

@[simp] theorem execSetEndpointId_leavesFaults (tag op eid) (s : State) : LeavesFaults s.faults (execSetEndpointId tag op eid s) := by
  unfold execSetEndpointId
  split <;> simp

@[simp] theorem execGetEndpointId_leavesFaults (tag) (s : State) : LeavesFaults s.faults (execGetEndpointId tag s) := by simp [execGetEndpointId]
@[simp] theorem execGetEndpointUuid_leavesFaults (tag) (s : State) :
    LeavesFaults s.faults (execGetEndpointUuid tag s) := by simp [execGetEndpointUuid]
@[simp] theorem execGetMctpVersionSupport_leavesFaults (tag msgType) (s : State) :
    LeavesFaults s.faults (execGetMctpVersionSupport tag msgType s) := by
  simp [execGetMctpVersionSupport]

@[simp] theorem execGetMessageTypeSupport_leavesFaults (tag) (s : State) : LeavesFaults s.faults (execGetMessageTypeSupport tag s) := by
  simp [execGetMessageTypeSupport]

@[simp] theorem execReadNvmeMiDataStructure_leavesFaults (tag dtyp port ctrl) (s : State) :
    LeavesFaults s.faults (execReadNvmeMiDataStructure tag dtyp port ctrl s) := by
  unfold execReadNvmeMiDataStructure
  split <;> simp

@[simp] theorem execNvmSubsystemHealthStatusPoll_leavesFaults (tag) (s : State) : LeavesFaults s.faults (execNvmSubsystemHealthStatusPoll tag s) := by
  simp [execNvmSubsystemHealthStatusPoll]

@[simp] theorem execControllerHealthStatusPoll_leavesFaults (tag start maxEntries all) (s : State) :
    LeavesFaults s.faults (execControllerHealthStatusPoll tag start maxEntries all s) := by simp [execControllerHealthStatusPoll]

@[simp] theorem execConfigurationGet_leavesFaults (tag id port) (s : State) : LeavesFaults s.faults (execConfigurationGet tag id port s) := by
  unfold execConfigurationGet
  repeat' split
  all_goals simp

@[simp] theorem execConfigurationSet_leavesFaults (tag id port value) (s : State) :
    LeavesFaults s.faults (execConfigurationSet tag id port value s) := by
  unfold execConfigurationSet
  repeat' split
  all_goals simp

@[simp] theorem execBasicManagementCommand_leavesFaults (tag code) (s : State) : LeavesFaults s.faults (execBasicManagementCommand tag code s) := by
  unfold execBasicManagementCommand
  split <;> simp

@[simp] theorem execAdminCommandTunnel_leavesFaults (ctrl cid cmd) (s : State) : LeavesFaults s.faults (execAdminCommandTunnel ctrl cid cmd s) := by
  unfold execAdminCommandTunnel
  repeat' split
  all_goals simp

@[simp] theorem execMiUnsupportedCommand_leavesFaults (tag) (s : State) : LeavesFaults s.faults (execMiUnsupportedCommand tag s) := by
  simp [execMiUnsupportedCommand]

/-! Microwords. -/

@[simp] theorem State.micro_leavesFaults {s : State} {l : LaneIx} {c : CtxIx} {word : BitVec 24} {inRange needsChannel : Bool}
    {go : State → QEntry → Ctx → State} (h : ∀ e k, (go s e k).faults = s.faults) :
    LeavesFaults s.faults (s.micro l c word inRange needsChannel go) := by
  simp only [State.micro]
  split
  · simp [h]
  · simp

@[simp] theorem State.advance_faults (s : State) (l c k) : (s.advance l c k).faults = s.faults := (rfl)
@[simp] theorem State.jumpTo_faults (s : State) (l c k t) : (s.jumpTo l c k t).faults = s.faults := (rfl)
@[simp] theorem State.writeW_faults (s : State) (l c k d v) : (s.writeW l c k d v).faults = s.faults := (rfl)
@[simp] theorem execNop_leavesFaults (l c) (s : State) : LeavesFaults s.faults (execNop l c s) := by simp [execNop]
@[simp] theorem execJmp_leavesFaults (l c t) (s : State) : LeavesFaults s.faults (execJmp l c t s) := by simp [execJmp]

@[simp] theorem execBrc_leavesFaults (l c cond t) (s : State) : LeavesFaults s.faults (execBrc l c cond t s) := by
  unfold execBrc
  refine State.micro_leavesFaults fun e k => ?_
  split <;> simp

@[simp] theorem execCall_leavesFaults (l c t) (s : State) : LeavesFaults s.faults (execCall l c t s) := by simp [execCall]

@[simp] theorem execRet_leavesFaults (l c) (s : State) : LeavesFaults s.faults (execRet l c s) := by
  unfold execRet
  refine State.micro_leavesFaults fun e k => ?_
  split <;> simp

@[simp] theorem execLdi_leavesFaults (l c d v) (s : State) : LeavesFaults s.faults (execLdi l c d v s) := by simp [execLdi]
@[simp] theorem execLdu_leavesFaults (l c d v) (s : State) : LeavesFaults s.faults (execLdu l c d v s) := by simp [execLdu]
@[simp] theorem execLdd_leavesFaults (l c d word) (s : State) : LeavesFaults s.faults (execLdd l c d word s) := by simp [execLdd]
@[simp] theorem execAddi_leavesFaults (l c d a v) (s : State) : LeavesFaults s.faults (execAddi l c d a v s) := by simp [execAddi]
@[simp] theorem execAlu_leavesFaults (l c d a b f) (s : State) : LeavesFaults s.faults (execAlu l c d a b f s) := by simp [execAlu]
@[simp] theorem execCmp_leavesFaults (l c a b) (s : State) : LeavesFaults s.faults (execCmp l c a b s) := by simp [execCmp]
@[simp] theorem execTbl_leavesFaults (l c d t i) (s : State) : LeavesFaults s.faults (execTbl l c d t i s) := by simp [execTbl]
@[simp] theorem execSync_leavesFaults (l c) (s : State) : LeavesFaults s.faults (execSync l c s) := by simp [execSync]
@[simp] theorem execYld_leavesFaults (l c) (s : State) : LeavesFaults s.faults (execYld l c s) := by simp [execYld]
@[simp] theorem execCen_leavesFaults (l c n) (s : State) : LeavesFaults s.faults (execCen l c n s) := by simp [execCen]
@[simp] theorem State.cycles_faults (s : State) (l bs) : (s.cycles l bs).faults = s.faults := (rfl)
@[simp] theorem execCmd_leavesFaults (l c fromProfile v) (s : State) : LeavesFaults s.faults (execCmd l c fromProfile v s) := by simp [execCmd]
@[simp] theorem execAdr_leavesFaults (l c a n) (s : State) : LeavesFaults s.faults (execAdr l c a n s) := by simp [execAdr]
@[simp] theorem execAdx_leavesFaults (l c a n) (s : State) : LeavesFaults s.faults (execAdx l c a n s) := by simp [execAdx]

@[simp] theorem State.burst_faults (s : State) (l c e k len ptr toBuffer b) : (s.burst l c e k len ptr toBuffer b).faults = s.faults := by
  simp only [State.burst]
  split <;> simp

@[simp] theorem execDout_leavesFaults (l c a b) (s : State) : LeavesFaults s.faults (execDout l c a b s) := by simp [execDout]
@[simp] theorem execDin_leavesFaults (l c a b toDecoder) (s : State) : LeavesFaults s.faults (execDin l c a b toDecoder s) := by simp [execDin]
@[simp] theorem execStat_leavesFaults (l c d enhanced st) (s : State) : LeavesFaults s.faults (execStat l c d enhanced st s) := by simp [execStat]
@[simp] theorem execWrdy_leavesFaults (l c a st) (s : State) : LeavesFaults s.faults (execWrdy l c a st s) := by simp [execWrdy]
@[simp] theorem execTim_leavesFaults (l c i) (s : State) : LeavesFaults s.faults (execTim l c i s) := by simp [execTim]
@[simp] theorem execWait_leavesFaults (l c a) (s : State) : LeavesFaults s.faults (execWait l c a s) := by simp [execWait]

@[simp] theorem execLvl_leavesFaults (l : LaneIx) (c : CtxIx) (d a : Fin 16) (b : Byte) (s : State) :
    LeavesFaults s.faults (execLvl l c d a b s) := by
  unfold execLvl
  refine State.micro_leavesFaults fun e k => ?_
  dsimp only
  split
  · simp
  split
  · simp
  · split <;> simp

@[simp] theorem State.phyStep_faults (s : State) (l ces step) : (s.phyStep l ces step).faults = s.faults := by
  unfold State.phyStep
  split <;> simp

@[simp] theorem execPhy_leavesFaults (l c step) (s : State) : LeavesFaults s.faults (execPhy l c step s) := by simp [execPhy]
@[simp] theorem execLoop_leavesFaults (l c d t) (s : State) : LeavesFaults s.faults (execLoop l c d t s) := by simp [execLoop]
@[simp] theorem execSusp_leavesFaults (l c) (s : State) : LeavesFaults s.faults (execSusp l c s) := by simp [execSusp]
@[simp] theorem execSto_leavesFaults (l c a word) (s : State) : LeavesFaults s.faults (execSto l c a word s) := by simp [execSto]
@[simp] theorem execEvt_leavesFaults (l c n) (s : State) : LeavesFaults s.faults (execEvt l c n s) := by simp [execEvt]

@[simp] theorem execDone_leavesFaults (l : LaneIx) (c : CtxIx) (status : Byte) (s : State) : LeavesFaults s.faults (execDone l c status s) := by
  unfold execDone
  refine State.micro_leavesFaults fun e k => ?_
  split
  · rfl
  · extract_lets judged
    have hjudged : judged.faults = s.faults := by
      unfold judged
      split <;> simp
    split
    · simp [hjudged]
    · exact hjudged

@[simp] theorem execTrap_leavesFaults (l c code) (s : State) : LeavesFaults s.faults (execTrap l c code s) := by simp [execTrap]

/-! Supply. -/

@[simp] theorem execRailWindowTimeout_leavesFaults (r) (s : State) : LeavesFaults s.faults (execRailWindowTimeout r s) := by
  simp [execRailWindowTimeout]

@[simp] theorem execRegulatorStartTimeout_leavesFaults (r) (s : State) : LeavesFaults s.faults (execRegulatorStartTimeout r s) := by
  simp [execRegulatorStartTimeout]

@[simp] theorem execBoardRailOutOfWindow_leavesFaults (r above) (s : State) : LeavesFaults s.faults (execBoardRailOutOfWindow r above s) := by
  cases r <;> simp [execBoardRailOutOfWindow]
@[simp] theorem execVinOvervoltage_leavesFaults (mv) (s : State) : LeavesFaults s.faults (execVinOvervoltage mv s) := by simp [execVinOvervoltage]

theorem capStepDown_vinOk (x : Supply) (d : DieIx) : (capStepDown x d).vinOk = x.vinOk := by
  unfold capStepDown
  repeat' split
  all_goals rfl
theorem capStepUp_vinOk (x : Supply) : (capStepUp x).vinOk = x.vinOk := by
  unfold capStepUp
  repeat' split
  all_goals rfl

@[simp] theorem execPowerCapAverage_leavesFaults (mw) (s : State) : LeavesFaults s.faults (execPowerCapAverage mw s) := by
  simp only [execPowerCapAverage]
  repeat' split
  all_goals simp [capStepDown_vinOk, capStepUp_vinOk]

@[simp] theorem State.powerLost_faults (s : State) : s.powerLost.faults = s.faults := by simp [State.powerLost]

@[simp] theorem State.onLoss_faults (s : State) : s.onLoss.faults = s.faults := by
  unfold State.onLoss
  split <;> simp

@[simp] theorem execPwrLossNAssert_leavesFaults (s : State) : LeavesFaults s.faults (execPwrLossNAssert s) := by simp [execPwrLossNAssert]
@[simp] theorem execVinBelowLossThreshold_leavesFaults (s : State) : LeavesFaults s.faults (execVinBelowLossThreshold s) := by
  simp [execVinBelowLossThreshold]

@[simp] theorem execRescueComplete_leavesFaults (tenUs) (s : State) : LeavesFaults s.faults (execRescueComplete tenUs s) := by
  unfold execRescueComplete
  split <;> simp

@[simp] theorem FaultView.Allows.vinGone {v : FaultView} {s : State} (h : v.Allows s.faults) : v.Allows s.vinGone.faults := by
  unfold State.vinGone
  extract_lets persisted reset ended cleared unpowered idle closed stored
  have hreset : v.Allows reset.faults := .resetBothDies (by simp [persisted, h])
  clear_value reset
  have hunpowered : v.Allows unpowered.faults := ⟨hreset.few, fun _ _ hsh => (nomatch hsh), fun _ => .inr rfl⟩
  have hclosed : v.Allows closed.faults := .updDie (.updDie hunpowered (Nat.zero_le _)) (Nat.zero_le _)
  have hstored : v.Allows stored.faults := hclosed
  clear_value stored
  exact .ite hstored (hstored.of_eq stored.keeperDark_faults)
@[simp] theorem execVinFall_leavesFaults (s : State) : LeavesFaults s.faults (execVinFall s) := by simp [execVinFall]

@[simp] theorem execHuIsoRelease_leavesFaults (inputPresent) (s : State) : LeavesFaults s.faults (execHuIsoRelease inputPresent s) := by
  simp only [execHuIsoRelease]
  repeat' split
  all_goals simp

@[simp] theorem execVinBelowWarning_leavesFaults (mv) (s : State) : LeavesFaults s.faults (execVinBelowWarning mv s) := by simp [execVinBelowWarning]
@[simp] theorem State.startMeasure_faults (s : State) : s.startMeasure.faults = s.faults := by simp [State.startMeasure]
@[simp] theorem execKprCtrlHuMeasure_leavesFaults {v : FaultView} {s : State} (h : v.Allows s.faults) :
    LeavesFaults v (execKprCtrlHuMeasure s) := by simp [execKprCtrlHuMeasure, h]
@[simp] theorem execMeasurementIntervalExpiry_leavesFaults (s : State) : LeavesFaults s.faults (execMeasurementIntervalExpiry s) := by
  simp [execMeasurementIntervalExpiry]

@[simp] theorem execHoldupWindowsEmpty_leavesFaults (s : State) : LeavesFaults s.faults (execHoldupWindowsEmpty s) := by simp [execHoldupWindowsEmpty]
@[simp] theorem State.rechargeBank_faults (s : State) : s.rechargeBank.faults = s.faults := (rfl)
@[simp] theorem State.measureFailed_faults (s : State) : s.measureFailed.faults = s.faults := (rfl)
@[simp] theorem execHoldupSettleExpiry_leavesFaults (v1) (s : State) : LeavesFaults s.faults (execHoldupSettleExpiry v1 s) := by
  simp [execHoldupSettleExpiry]

@[simp] theorem execHoldupDischargeCrossing_leavesFaults (us) (s : State) : LeavesFaults s.faults (execHoldupDischargeCrossing us s) := by
  unfold execHoldupDischargeCrossing
  split <;> simp

@[simp] theorem execHoldupDischargeTimeout_leavesFaults (s : State) : LeavesFaults s.faults (execHoldupDischargeTimeout s) := by
  unfold execHoldupDischargeTimeout
  split <;> simp

@[simp] theorem execHoldupRecharged_leavesFaults (mv) (s : State) : LeavesFaults s.faults (execHoldupRecharged mv s) := by simp [execHoldupRecharged]
@[simp] theorem execHoldupChargeTimeout_leavesFaults (s : State) : LeavesFaults s.faults (execHoldupChargeTimeout s) := by
  simp [execHoldupChargeTimeout]

@[simp] theorem execVauxLost_leavesFaults (s : State) : LeavesFaults s.faults (execVauxLost s) := by simp [execVauxLost]

@[simp] theorem execVauxRise_leavesFaults (s : State) : LeavesFaults s.faults (execVauxRise s) := by
  simp only [execVauxRise]
  repeat' split
  all_goals simp

@[simp] theorem execThermistorFault_leavesFaults (n shorted) (s : State) : LeavesFaults s.faults (execThermistorFault n shorted s) := by
  simp [execThermistorFault]

@[simp] theorem execKeeperTemperatureCritical_leavesFaults (t) (s : State) : LeavesFaults s.faults (execKeeperTemperatureCritical t s) := by
  simp [execKeeperTemperatureCritical]

theorem sampleEffect_vinOk (x : Supply) (warn : Nat) (o : AdcSampleOp) : (sampleEffect x warn o).vinOk = x.vinOk := by
  simp only [sampleEffect]
  split <;> rfl
@[simp] theorem execAdcSample_leavesFaults (o) (s : State) : LeavesFaults s.faults (execAdcSample o s) := by simp [execAdcSample, sampleEffect_vinOk]

/-! Management space. -/

@[simp] theorem State.updIrq_faults (s : State) (b f) : (s.updIrq b f).faults = s.faults := by
  unfold State.updIrq
  split <;> simp

@[simp] theorem FaultView.Allows.after {v : FaultView} {s : State} {o : Out} (h : v.Allows s.faults) (ho : LeavesFaults v o) :
    v.Allows (s.after o).faults := by
  cases o with
  | next t => exact ho t rfl
  | fault _ => exact h
  | refused _ => exact h

@[simp] theorem FaultView.Allows.writeMemTest {v : FaultView} {s : State} (h : v.Allows s.faults) (d : DieIx) (w : Word) :
    v.Allows (s.writeMemTest d w).faults := by simp [State.writeMemTest, h]

@[simp] theorem FaultView.Allows.writeReg {v : FaultView} {s : State} (h : v.Allows s.faults) (b : RegBlock) (o : Nat) (w : Word) :
    v.Allows (s.writeReg b o w).faults := by
  unfold State.writeReg
  split
  · simp [h]
  · cases b with
    | lane l =>
      have hclear : v.Allows (if w.getLsbD 0 then s.after (execLneCtrlCntClr l s) else s).faults := by simp [h]
      dsimp only
      split
      · split
        · exact .after hclear (execLneCtrlRetrain_leavesFaults hclear l)
        · exact hclear
      · exact h
    | _ => simp [h]

@[simp] theorem execRegisterWrite_leavesFaults (addr value) (s : State) : LeavesFaults s.faults (execRegisterWrite addr value s) := by
  unfold execRegisterWrite
  split <;> simp

@[simp] theorem State.countRefused_faults (s : State) : s.countRefused.faults = s.faults := (rfl)
@[simp] theorem State.refuseAccess_faults (s : State) (ref) : (s.refuseAccess ref).faults = s.faults := by simp [State.refuseAccess]
@[simp] theorem State.badMgmt_faults (s : State) (ref) : (s.badMgmt ref).faults = s.faults := by simp [State.badMgmt]

@[simp] theorem State.readDword_faults (s : State) (a) : (s.readDword a).1.faults = s.faults := by
  simp only [State.readDword]
  repeat' split
  all_goals simp

theorem foldl_readDword_faults (as_ : List Nat) (p : State × List Word) :
    (as_.foldl (fun (p : State × List Word) (a : Nat) => ((p.1.readDword a).1, p.2 ++ [(p.1.readDword a).2])) p).1.faults = p.1.faults := by
  induction as_ generalizing p with
  | nil => rfl
  | cons a as_ ih => simp [ih]

@[simp] theorem execManagementRead_leavesFaults (ref : CmdRef) (addr : Word) (numd : Nat) (s : State) :
    LeavesFaults s.faults (execManagementRead ref addr numd s) := by
  refine State.adminThen_leavesFaults ?_
  dsimp only
  split
  · simp
  split
  · simp
  · split
    · simp
    · simp [foldl_readDword_faults]

@[simp] theorem FaultView.Allows.writeDword {v : FaultView} {s : State} (h : v.Allows s.faults) (a : Nat) (w : Word) :
    v.Allows (s.writeDword a w).faults := by
  unfold State.writeDword
  split <;> simp [h]

@[simp] theorem execManagementWrite_leavesFaults (ref addr values) (s : State) : LeavesFaults s.faults (execManagementWrite ref addr values s) := by
  unfold execManagementWrite
  refine State.adminThen_leavesFaults ?_
  dsimp only
  split
  · simp
  split
  · simp
  · simp
    exact .foldl (fun t p ht => ht.writeDword p.1 p.2) (.refl _) _

/-! The release of D0 (R370 to R380). -/

@[simp] theorem State.enterRecovery_faults (s : State) (sealed) : (s.enterRecovery sealed).faults = s.faults := by simp [State.enterRecovery]

@[simp] theorem State.protectionCheck_faults (s : State) (f) : (s.protectionCheck f).1.faults = s.faults := by
  simp only [State.protectionCheck]
  split <;> simp

theorem State.trySlot_faults {s t : State} {k : Fin 2} (h : s.trySlot k = .inr t) : t.faults = s.faults := by
  simp only [State.trySlot] at h
  split at h
  · cases h; rfl
  split at h
  · cases h; rfl
  split at h
  · cases h
  · cases h; simp

@[simp] theorem State.chooseSlot_faults (s : State) : s.chooseSlot.1.faults = s.faults := by
  simp only [State.chooseSlot]
  split
  · simp
  · next h =>
    split
    · simp [State.trySlot_faults h]
    · next h' => simp [State.trySlot_faults h', State.trySlot_faults h]

@[simp] theorem FaultView.Allows.fallback {v : FaultView} {s : State} (h : v.Allows s.faults) : v.Allows s.fallback.faults := by
  simp only [State.fallback]
  split
  · exact h
  · split <;> simp [h]

@[simp] theorem State.startUnconfigured_faults (s : State) : s.startUnconfigured.faults = s.faults := by simp [State.startUnconfigured]

@[simp] theorem State.configureLanes_faults (s : State) (r : OptRecords) : (s.configureLanes r).faults = s.faults := by
  refine faults_foldl (fun s l => ?_) _ s
  repeat' split
  all_goals simp

@[simp] theorem State.noteDram_faults (s : State) (f) : (s.noteDram f).faults = s.faults := by simp [State.noteDram]
@[simp] theorem State.dramTrained_faults (s : State) (d f) : (s.dramTrained d f).faults = s.faults := by simp [State.dramTrained]

@[simp] theorem State.loadKeySet_faults (s : State) : s.loadKeySet.faults = s.faults := by
  simp only [State.loadKeySet]
  repeat' split
  all_goals simp

@[simp] theorem FaultView.Allows.bringUp {v : FaultView} {s : State} (h : v.Allows s.faults) (f : StartFindings) (img : OptImage) :
    v.Allows (s.bringUp f img).faults := by simp [State.bringUp, h]

@[simp] theorem State.applyImage_faults (s : State) (img live) : (s.applyImage img live).faults = s.faults := by
  simp only [State.applyImage]
  repeat' split
  all_goals simp

@[simp] theorem State.stagedAtStart_faults (s : State) : s.stagedAtStart.faults = s.faults := by
  unfold State.stagedAtStart
  repeat' split
  all_goals simp

@[simp] theorem FaultView.Allows.mainFirmware {v : FaultView} {s : State} (h : v.Allows s.faults) (f : StartFindings) (i : FwImage) :
    v.Allows (s.mainFirmware f i).faults := by
  simp only [State.mainFirmware]
  split
  · simp [h]
  · split <;> simp [h]

@[simp] theorem execD0Release_leavesFaults (f) (s : State) : LeavesFaults s.faults (execD0Release f s) := by
  simp only [execD0Release]
  repeat' split
  all_goals simp

/-! An empty queue (R27, R287, R291, R339, R415). -/

@[simp] theorem State.settleApply_faults (s : State) : s.settleApply.faults = s.faults := by
  unfold State.settleApply
  split <;> simp

@[simp] theorem State.settleWork_faults (s : State) : s.settleWork.faults = s.faults := by simp [State.settleWork]
@[simp] theorem State.tick_faults (s : State) : s.tick.faults = s.faults := by simp [State.tick]
@[simp] theorem State.idle_faults (s : State) : s.idle.faults = s.faults := by simp [State.idle]

end Sys2Proof.Machine
end

