-- ==== Sys2Proof/Proofs/ReactionShadows.lean ====
section
/-! The shadows of reactions are few, and the safe state lasts until VIN goes (R465, R466, R478). -/

namespace Sys2Proof.Machine

theorem exec_leavesFaults (i : Instr) (s : State) : LeavesFaults s.faults (exec i s) := by
  cases i <;> simp

theorem step_leavesFaults (s : State) : LeavesFaults s.faults (step s) := by
  unfold step
  split
  · simp
  · next c rest _ => exact exec_leavesFaults c { s with pending := rest }

/-! A reaction's shadow (R465, R466). -/

theorem dieSrc_overflow : ∀ d : DieIx, dieSrc d 27 = if d = 0 then 323 else 355 := by decide

theorem State.openShadow_full {s : State} {d : DieIx} {own : Block} (hshaded : s.shaded own = false) (hfull : (s.com d).shadows.length = 4)
    (source : Nat) (scope : ShadowScope) : s.openShadow d source scope own = s.raise (if d = 0 then 323 else 355) := by
  rw [State.openShadow, if_neg (by simp [hshaded]), if_pos (by omega), dieSrc_overflow]

theorem State.openShadow_com {s : State} {d : DieIx} {own : Block} (hshaded : s.shaded own = false) (hfew : (s.com d).shadows.length < 4)
    (source : Nat) (scope : ShadowScope) :
    ((s.openShadow d source scope own).com d).shadows =
      (s.com d).shadows ++ [{ source := source, scope := scope, own := own, order := s.keeper.fc.shadowSeq }] := by
  rw [State.openShadow, if_neg (by simp [hshaded]), if_neg (by omega), com_updCommon_self]
  rfl

/-- Settles O49: what every command and step allows (`FaultView.Allows`) bounds the shadows of each die and keeps the keeper's, and `openShadow`
decides by the length of the die's list. -/
theorem shadowsHeldAreFewEverywhere : Obligations.ShadowsHeldAreFewEverywhere := by
  unfold Obligations.ShadowsHeldAreFewEverywhere
  refine ⟨fun i s t hkept hrun d => (exec_leavesFaults i s t hrun).few d (hkept d),
    fun s t hkept hrun d => (step_leavesFaults s t hrun).few d (hkept d),
    fun s t i hkeeper hrun => (exec_leavesFaults i s t hrun).keeper hkeeper,
    fun s d source scope own hshaded => ⟨fun hfull => ?full, fun hfew => ?few⟩⟩
  case full => exact State.openShadow_full hshaded hfull source scope
  case few => exact ⟨_, State.openShadow_com hshaded hfew source scope, rfl, rfl, rfl⟩

/-- Settles O51: only `vinGone` clears `safe`, and it leaves VIN absent. -/
theorem safeStateLastsUntilVinGoes : Obligations.SafeStateLastsUntilVinGoes := by
  unfold Obligations.SafeStateLastsUntilVinGoes
  exact fun i s t hsafe hrun => (exec_leavesFaults i s t hrun).safe hsafe

end Sys2Proof.Machine
end

