-- ==== Sys2Proof/Proofs/ByteField.lean ====
section
/-! The bytes under `gfMul` are a field (R179): the laws that solving a row and a stripe rests on. -/

namespace Sys2Proof.Machine

/-! Doubling is additive, and a product is a sum of doublings, one for each bit of the second factor. -/

/-- A summand that a bit switches on. -/
def gfTerm (on : Bool) (a : Byte) : Byte := if on then a else 0

theorem gfTerm_xor (x y : Bool) (a : Byte) : gfTerm (x ^^ y) a = gfTerm x a ^^^ gfTerm y a := by
  cases x <;> cases y <;> simp [gfTerm]

theorem gfTerm_add (on : Bool) (a b : Byte) : gfTerm on (a ^^^ b) = gfTerm on a ^^^ gfTerm on b := by
  cases on <;> simp [gfTerm]

theorem gfTerm_comm (x y : Bool) (a : Byte) : gfTerm x (gfTerm y a) = gfTerm y (gfTerm x a) := by
  cases x <;> cases y <;> rfl

theorem gfDouble_eq (a : Byte) : gfDouble a = a <<< 1 ^^^ gfTerm (a.getLsbD 7) 0x1D := rfl

theorem gfDouble_add (a b : Byte) : gfDouble (a ^^^ b) = gfDouble a ^^^ gfDouble b := by
  simp only [gfDouble_eq, BitVec.getLsbD_xor, gfTerm_xor, BitVec.shiftLeft_xor_distrib]
  ac_rfl

theorem gfDouble_gfTerm (on : Bool) (a : Byte) : gfDouble (gfTerm on a) = gfTerm on (gfDouble a) := by
  cases on
  case true => rfl
  case false => simp [gfTerm, gfDouble]

/-- n doublings of a byte. -/
def gfShift (n : Nat) (a : Byte) : Byte := Nat.repeat gfDouble n a

@[simp] theorem gfShift_zero (a : Byte) : gfShift 0 a = a := rfl
theorem gfShift_succ (n : Nat) (a : Byte) : gfShift (n + 1) a = gfDouble (gfShift n a) := rfl

theorem gfShift_add (n : Nat) (a b : Byte) : gfShift n (a ^^^ b) = gfShift n a ^^^ gfShift n b := by
  induction n with
  | zero => rfl
  | succ n ih => rw [gfShift_succ, ih, gfDouble_add, ← gfShift_succ, ← gfShift_succ]

theorem gfShift_gfTerm (n : Nat) (on : Bool) (a : Byte) : gfShift n (gfTerm on a) = gfTerm on (gfShift n a) := by
  induction n with
  | zero => rfl
  | succ n ih => rw [gfShift_succ, ih, gfDouble_gfTerm, ← gfShift_succ]

theorem gfShift_comm (m n : Nat) (a : Byte) : gfShift m (gfShift n a) = gfShift n (gfShift m a) := by
  induction m with
  | zero => rfl
  | succ m ih =>
    rw [gfShift_succ, ih, gfShift_succ]
    clear ih
    induction n with
    | zero => rfl
    | succ n ih => rw [gfShift_succ, ih, gfShift_succ]

theorem gfMul_eq (a b : Byte) : gfMul a b =
    gfTerm (b.getLsbD 0) (gfShift 0 a) ^^^ gfTerm (b.getLsbD 1) (gfShift 1 a) ^^^ gfTerm (b.getLsbD 2) (gfShift 2 a) ^^^
    gfTerm (b.getLsbD 3) (gfShift 3 a) ^^^ gfTerm (b.getLsbD 4) (gfShift 4 a) ^^^ gfTerm (b.getLsbD 5) (gfShift 5 a) ^^^
    gfTerm (b.getLsbD 6) (gfShift 6 a) ^^^ gfTerm (b.getLsbD 7) (gfShift 7 a) := by
  have step (on : Bool) (acc x : Byte) : (if on then acc ^^^ x else acc) = acc ^^^ gfTerm on x := by cases on <;> simp [gfTerm]
  have range8 : List.range 8 = [0, 1, 2, 3, 4, 5, 6, 7] := by decide
  have start (x : Byte) : 0 ^^^ x = x := BitVec.zero_xor
  simp only [gfMul, range8, List.foldl_cons, List.foldl_nil, step, start, gfShift, Nat.repeat]

/-! The laws of the product. -/

theorem gfMul_add (a b c : Byte) : gfMul a (b ^^^ c) = gfMul a b ^^^ gfMul a c := by
  simp only [gfMul_eq, BitVec.getLsbD_xor, gfTerm_xor]
  ac_rfl

theorem add_gfMul (a b c : Byte) : gfMul (a ^^^ b) c = gfMul a c ^^^ gfMul b c := by
  simp only [gfMul_eq, gfShift_add, gfTerm_add]
  ac_rfl

/-- A product with `b` is taken through doublings and switched summands alike. -/
theorem gfMul_gfShift (n : Nat) (a b : Byte) : gfMul (gfShift n a) b = gfShift n (gfMul a b) := by
  simp only [gfMul_eq, gfShift_add, gfShift_gfTerm, gfShift_comm _ n]

theorem gfMul_gfTerm (on : Bool) (a b : Byte) : gfMul (gfTerm on a) b = gfTerm on (gfMul a b) := by
  simp only [gfMul_eq, gfTerm_add, gfShift_gfTerm, gfTerm_comm _ on]

/-- A product is a sum of terms `gfTerm _ (gfShift _ _)`, and each of these passes a factor on the right. -/
theorem gfMul_right_comm (a b c : Byte) : gfMul (gfMul a b) c = gfMul (gfMul a c) b := by
  rw [gfMul_eq a b, gfMul_eq (gfMul a c) b]
  simp only [add_gfMul, gfMul_gfTerm, gfMul_gfShift]

theorem one_gfMul : ∀ b : Byte, gfMul 1 b = b := by decide +kernel

theorem gfMul_comm (a b : Byte) : gfMul a b = gfMul b a := by
  rw [← one_gfMul a, gfMul_right_comm, one_gfMul, one_gfMul]

theorem gfMul_assoc (a b c : Byte) : gfMul (gfMul a b) c = gfMul a (gfMul b c) := by
  rw [gfMul_comm a b, gfMul_right_comm, gfMul_comm]

theorem gfMul_zero (a : Byte) : gfMul a 0#8 = 0#8 := by
  have h := gfMul_add a 0#8 0#8
  rwa [BitVec.xor_self, BitVec.xor_self] at h

/-! Powers, and the inverse a^254. -/

/-- a^n. -/
def gfNth (a : Byte) (n : Nat) : Byte := Nat.repeat (gfMul a) n 1

@[simp] theorem gfNth_zero (a : Byte) : gfNth a 0 = 1 := rfl
theorem gfNth_succ (a : Byte) (n : Nat) : gfNth a (n + 1) = gfMul a (gfNth a n) := rfl

theorem gfNth_add (a : Byte) (m n : Nat) : gfNth a (m + n) = gfMul (gfNth a m) (gfNth a n) := by
  induction m with
  | zero => rw [gfNth_zero, one_gfMul, Nat.zero_add]
  | succ m ih => rw [Nat.succ_add, gfNth_succ, ih, gfNth_succ, gfMul_assoc]

theorem gfNth_one (a : Byte) : gfNth a 1 = a := by rw [gfNth_succ, gfNth_zero, gfMul_comm, one_gfMul]

theorem gfInv_eq_gfNth (a : Byte) : gfInv a = gfNth a 254 := by
  have repeat_eq (n : Nat) : Nat.repeat (gfMul a) n a = gfNth a (n + 1) := by
    induction n with
    | zero => exact (gfNth_one a).symm
    | succ n ih => rw [gfNth_succ, ← ih]; rfl
  exact repeat_eq 253

/-- a · x²: the step that takes a^n to a^(2n+1). -/
def gfSquareTimes (a x : Byte) : Byte := gfMul a (gfMul x x)

theorem gfNth_odd (a : Byte) (n : Nat) : gfNth a (2 * n + 1) = gfSquareTimes a (gfNth a n) := by
  rw [gfNth_succ, Nat.two_mul, gfNth_add]; rfl

/-- Every byte but 0 is of an order that divides 255: a^255 by seven squarings. -/
theorem order_divides_255 : ∀ a : Byte, a ≠ 0 → Nat.repeat (gfSquareTimes a) 7 a = 1 := by decide +kernel

theorem gfNth_255 {a : Byte} (ha : a ≠ 0) : gfNth a 255 = 1 := by
  have squared (k : Nat) : gfNth a (2 ^ (k + 1) - 1) = Nat.repeat (gfSquareTimes a) k a := by
    induction k with
    | zero => exact gfNth_one a
    | succ k ih =>
      have hexp : 2 ^ (k + 1 + 1) - 1 = 2 * (2 ^ (k + 1) - 1) + 1 := by
        have := Nat.one_le_two_pow (n := k + 1)
        rw [Nat.pow_succ]; omega
      rw [hexp, gfNth_odd, ih]; rfl
  exact (squared 7).trans (order_divides_255 a ha)

theorem gfMul_gfInv {a : Byte} (ha : a ≠ 0) : gfMul a (gfInv a) = 1 := by
  rw [gfInv_eq_gfNth, ← gfNth_succ, gfNth_255 ha]

/-- Dividing by what a byte was multiplied with gives the byte. -/
theorem gfMul_gfInv_cancel {c : Byte} (hc : c ≠ 0) (x : Byte) : gfMul (gfMul c x) (gfInv c) = x := by
  rw [gfMul_right_comm, gfMul_gfInv hc, one_gfMul]

/-! The powers of g that weigh the data of a row. -/

/-- A band has at most 62 data positions, so that the weights of a row are distinct. -/
theorem gfPow_weights_distinct : ((List.range 62).map gfPow).Nodup := by decide +kernel

theorem gfPow_add_ne_zero {a b : Nat} (hab : a < b) (hb : b < 62) : gfPow a ^^^ gfPow b ≠ 0 := by
  intro h
  have heq : gfPow a = gfPow b := BitVec.xor_eq_zero_iff.1 h
  exact absurd (List.inj_on_of_nodup_map gfPow_weights_distinct (List.mem_range.2 (by omega)) (List.mem_range.2 hb) heq) (by omega)

theorem gfPow_ne_zero : ∀ n < 62, gfPow n ≠ 0 := by decide +kernel

end Sys2Proof.Machine
end

