-- ==== Sys2Proof/Proofs/ParityRecovers.lean ====
section
/-! What the parities of a row and of a stripe recover (R179, R184, R214). -/

namespace Sys2Proof.Machine

/-! A sum over a row is the sum with one position emptied, and that position's share. -/

theorem bandP0_eq_emptied {d : List Byte} {a : Nat} (ha : a < d.length) : bandP0 d = bandP0 (d.set a 0) ^^^ d[a] := by
  induction d generalizing a with
  | nil => exact absurd ha (by simp)
  | cons x xs ih =>
    have cons (y : Byte) (ys : List Byte) : bandP0 (y :: ys) = y ^^^ bandP0 ys := rfl
    cases a with
    | zero => simp [cons, BitVec.xor_comm]
    | succ a =>
      rw [List.set_cons_succ, cons, cons, ih (Nat.lt_of_succ_lt_succ ha), BitVec.xor_assoc, List.getElem_cons_succ]

theorem bandP1From_eq_emptied {d : List Byte} {a : Nat} (ha : a < d.length) (i : Nat) :
    bandP1From i d = bandP1From i (d.set a 0) ^^^ gfMul (gfPow (i + a)) d[a] := by
  induction d generalizing a i with
  | nil => exact absurd ha (by simp)
  | cons x xs ih =>
    cases a with
    | zero => simp [bandP1From, gfMul_zero, BitVec.xor_comm]
    | succ a =>
      rw [List.set_cons_succ, bandP1From, bandP1From, ih (Nat.lt_of_succ_lt_succ ha) (i + 1), BitVec.xor_assoc, List.getElem_cons_succ,
        Nat.succ_add_eq_add_succ]

theorem bandP1_eq_emptied {d : List Byte} {a : Nat} (ha : a < d.length) :
    bandP1 d = bandP1 (d.set a 0) ^^^ gfMul (gfPow a) d[a] := by
  simpa [bandP1] using bandP1From_eq_emptied ha 0

/-- What was added last comes out again. -/
theorem xor_xor_self_left (x y : Byte) : x ^^^ y ^^^ x = y := by
  rw [BitVec.xor_comm, ← BitVec.xor_assoc, BitVec.xor_self, BitVec.zero_xor]

theorem xor_xor_xor_self_left (e x y : Byte) : e ^^^ y ^^^ x ^^^ e = x ^^^ y := by
  rw [BitVec.xor_assoc e, xor_xor_self_left, BitVec.xor_comm]

/-! The syndromes of a row: each parity with the known bytes taken out. -/

theorem syndrome0_one {d : List Byte} {a : Nat} (ha : a < d.length) : bandP0 d ^^^ bandP0 (d.set a 0) = d[a] := by
  rw [bandP0_eq_emptied ha, xor_xor_self_left]

theorem syndrome1_one {d : List Byte} {a : Nat} (ha : a < d.length) : bandP1 d ^^^ bandP1 (d.set a 0) = gfMul (gfPow a) d[a] := by
  rw [bandP1_eq_emptied ha, xor_xor_self_left]

theorem syndrome0_two {d : List Byte} {a b : Nat} (hab : a < b) (hb : b < d.length) :
    bandP0 d ^^^ bandP0 ((d.set a 0).set b 0) = d[a] ^^^ d[b] := by
  have hb' : b < (d.set a 0).length := by rwa [List.length_set]
  rw [bandP0_eq_emptied (by omega : a < d.length), bandP0_eq_emptied hb', List.getElem_set_ne (by omega), xor_xor_xor_self_left]

theorem syndrome1_two {d : List Byte} {a b : Nat} (hab : a < b) (hb : b < d.length) :
    bandP1 d ^^^ bandP1 ((d.set a 0).set b 0) = gfMul (gfPow a) d[a] ^^^ gfMul (gfPow b) d[b] := by
  have hb' : b < (d.set a 0).length := by rwa [List.length_set]
  rw [bandP1_eq_emptied (by omega : a < d.length), bandP1_eq_emptied hb', List.getElem_set_ne (by omega), xor_xor_xor_self_left]

/-! Which positions of a row are erased, and what stands at the others. -/

theorem known_erased (d : List Byte) (a : Nat) : ((d.map some).set a none).map (·.getD 0) = d.set a 0 := by
  rw [List.map_set, List.map_map]; simp [Function.comp_def]

theorem known_erased_two (d : List Byte) (a b : Nat) :
    (((d.map some).set a none).set b none).map (·.getD 0) = (d.set a 0).set b 0 := by
  rw [List.map_set, known_erased]; rfl

/-- The erased positions of a row whose first index is `k`. -/
def erasedFrom (k : Nat) (d : List (Option Byte)) : List Nat := ((d.zipIdx k).filter fun x => x.1.isNone).map (·.2)

theorem erasedAt_eq (d : List (Option Byte)) : erasedAt d = erasedFrom 0 d := rfl
@[simp] theorem erasedFrom_none (k : Nat) (d : List (Option Byte)) : erasedFrom k (none :: d) = k :: erasedFrom (k + 1) d := rfl
@[simp] theorem erasedFrom_some (k : Nat) (x : Byte) (d : List (Option Byte)) : erasedFrom k (some x :: d) = erasedFrom (k + 1) d := rfl

theorem erasedFrom_map_some (k : Nat) (d : List Byte) : erasedFrom k (d.map some) = [] := by
  induction d generalizing k with
  | nil => rfl
  | cons x xs ih => exact ih (k + 1)

theorem erasedFrom_one {d : List Byte} {a : Nat} (ha : a < d.length) (k : Nat) : erasedFrom k ((d.map some).set a none) = [k + a] := by
  induction d generalizing a k with
  | nil => exact absurd ha (by simp)
  | cons x xs ih =>
    cases a with
    | zero => simp [erasedFrom_map_some]
    | succ a => simpa [Nat.succ_add_eq_add_succ] using ih (Nat.lt_of_succ_lt_succ ha) (k + 1)

theorem erasedFrom_two {d : List Byte} {a b : Nat} (hab : a < b) (hb : b < d.length) (k : Nat) :
    erasedFrom k (((d.map some).set a none).set b none) = [k + a, k + b] := by
  induction d generalizing a b k with
  | nil => exact absurd hb (by simp)
  | cons x xs ih =>
    obtain ⟨b, rfl⟩ : ∃ n, b = n + 1 := ⟨b - 1, by omega⟩
    have hb : b < xs.length := Nat.lt_of_succ_lt_succ hb
    cases a with
    | zero => simpa [Nat.succ_add_eq_add_succ] using erasedFrom_one hb (k + 1)
    | succ a => simpa [Nat.succ_add_eq_add_succ] using ih (Nat.lt_of_succ_lt_succ hab) hb (k + 1)

theorem set_emptied_two {d : List Byte} {a b : Nat} (hab : a < b) (hb : b < d.length) :
    (((d.set a 0).set b 0).set a d[a]).set b d[b] = d := by
  refine List.ext_getElem (by simp) fun i _ _ => ?_
  simp only [List.getElem_set]
  grind

/-! Solving a row (R184). -/

theorem bandSolve_none_erased (d : List Byte) (p q : Option Byte) : bandSolve (d.map some) p q = some d := by
  have hknown : (d.map some).map (·.getD 0) = d := by simp [Function.comp_def]
  simp only [bandSolve, erasedAt_eq, erasedFrom_map_some, hknown]

theorem bandSolve_one_from_p0 {d : List Byte} {a : Nat} (ha : a < d.length) (p : Option Byte) :
    bandSolve ((d.map some).set a none) (some (bandP0 d)) p = some d := by
  simp only [bandSolve, erasedAt_eq, erasedFrom_one ha, known_erased, Nat.zero_add, Option.map_some, syndrome0_one ha, List.set_set,
    List.set_getElem_self]

theorem bandSolve_one_from_p1 {d : List Byte} {a : Nat} (ha : a < d.length) (hlen : d.length ≤ 62) :
    bandSolve ((d.map some).set a none) none (some (bandP1 d)) = some d := by
  simp only [bandSolve, erasedAt_eq, erasedFrom_one ha, known_erased, Nat.zero_add, Option.map_some, Option.map_none, syndrome1_one ha,
    gfMul_gfInv_cancel (gfPow_ne_zero a (by omega)), List.set_set, List.set_getElem_self]

/-- The first of two unknowns: the second drops out of the weighted sum of the syndromes. -/
theorem first_unknown {ga gb : Byte} (hne : ga ^^^ gb ≠ 0) (x y : Byte) :
    gfMul (gfMul ga x ^^^ gfMul gb y ^^^ gfMul gb (x ^^^ y)) (gfInv (ga ^^^ gb)) = x := by
  have hsum : gfMul ga x ^^^ gfMul gb y ^^^ gfMul gb (x ^^^ y) = gfMul (ga ^^^ gb) x := by
    rw [gfMul_add, add_gfMul, BitVec.xor_assoc, ← BitVec.xor_assoc (gfMul gb y), xor_xor_self_left]
  rw [hsum, gfMul_gfInv_cancel hne]

theorem bandSolve_two {d : List Byte} {a b : Nat} (hab : a < b) (hb : b < d.length) (hlen : d.length ≤ 62) :
    bandSolve (((d.map some).set a none).set b none) (some (bandP0 d)) (some (bandP1 d)) = some d := by
  simp only [bandSolve, erasedAt_eq, erasedFrom_two hab hb, known_erased_two, Nat.zero_add, Option.map_some, syndrome0_two hab hb,
    syndrome1_two hab hb, first_unknown (gfPow_add_ne_zero hab (by omega))]
  rw [xor_xor_self_left, set_emptied_two hab hb]

/-! Stripes (R214, R219, R224). -/

theorem stripeSum_twice (i j : Nat) (p x : Byte) : stripeSum i (stripeSum i p j x) j x = p := by
  rw [stripeSum, stripeSum, BitVec.xor_assoc, BitVec.xor_self, BitVec.xor_zero]

theorem stripeSum_comm (i j k : Nat) (p x y : Byte) : stripeSum i (stripeSum i p j x) k y = stripeSum i (stripeSum i p k y) j x := by
  simp only [stripeSum]
  ac_rfl

/-- Settles O57: the bytes are a field under `gfMul`, the weights of a row's positions are distinct, and a stripe's contributions are summands. -/
theorem parityRecoversWhatIsErased : Obligations.ParityRecoversWhatIsErased := by
  unfold Obligations.ParityRecoversWhatIsErased
  refine ⟨fun d hlen => ⟨fun a b hab hb => ?two, fun a ha => ⟨fun p => ?fromP0, ?fromP1⟩, bandSolve_none_erased d⟩,
    fun i j k p x y => ⟨stripeSum_twice i j p x, stripeSum_comm i j k p x y⟩⟩
  case two => exact bandSolve_two hab hb hlen
  case fromP0 => exact bandSolve_one_from_p0 ha p
  case fromP1 => exact bandSolve_one_from_p1 ha hlen

end Sys2Proof.Machine
end

