-- ==== Sys2Proof/Proofs/EveryCommand.lean ====
section
/-! Every command answers a next state, and none touches the queue of waiting commands. -/

namespace Sys2Proof.Machine

/-! What the gates of commands answer. -/

/-- An outcome that is a next state. -/
def Answers (o : Out) : Prop := ∃ t, o = .next t

theorem answers_next {t : State} : Answers (.next t) := ⟨t, rfl⟩

theorem answers_ite {c : Prop} {_ : Decidable c} {a b : Out} (ha : Answers a) (hb : Answers b) : Answers (if c then a else b) := by
  split <;> assumption

theorem adminThen_answers {s : State} {k : AdminKind} {ref : CmdRef} {f : State → Out} (h : ∀ u, Answers (f u)) :
    Answers (s.adminThen k ref f) := by
  unfold State.adminThen
  split
  · exact answers_next
  · split
    · exact answers_next
    · exact h s

theorem admin_answers {s : State} {k : AdminKind} {ref : CmdRef} {f : State → State} : Answers (s.admin k ref f) :=
  adminThen_answers fun _ => answers_next

theorem ioThen_answers {s : State} {c : SlotCmd} {f : State → State} : Answers (s.ioThen c f) := by
  unfold State.ioThen
  refine answers_ite answers_next ?_
  dsimp only
  split <;> exact answers_next

theorem startOp_answers {s : State} {l : LaneIx} {op : LaneOp} {go : State → CtxIx → QEntry → State} : Answers (s.startOp l op go) := by
  unfold State.startOp
  dsimp only
  split
  · exact answers_next
  · refine answers_ite answers_next (answers_ite answers_next (answers_ite answers_next ?_))
    split <;> exact answers_next

theorem micro_answers {s : State} {l : LaneIx} {c : CtxIx} {word : BitVec 24} {inR nc : Bool} {go : State → QEntry → Ctx → State} :
    Answers (s.micro l c word inR nc go) := by
  unfold State.micro
  dsimp only
  split
  · refine answers_ite answers_next (answers_ite answers_next (answers_ite answers_next (answers_ite answers_next ?_)))
    exact answers_ite answers_next answers_next
  · exact answers_next

theorem storeRun_answers {s : State} {req : Requester} {code : Word} {writes : List (Nat × Word)} : Answers (s.storeRun req code writes) :=
  answers_ite answers_next answers_next

theorem applyMerge_answers {s : State} {g : RegionIx} {gran : Nat} {u : PendUpd} {ready : Bool} {covered : Fin 16 → Option Unit4K} :
    Answers (s.applyMerge g gran u ready covered) := by
  unfold State.applyMerge
  dsimp only
  refine answers_ite answers_next (answers_ite answers_next (answers_ite answers_next ?_))
  repeat' split
  all_goals exact answers_next

/-! Commands that read the state in more than one place before they answer. -/

@[simp] theorem execResourceSlotFree_answers (r s) : Answers (execResourceSlotFree r s) := by
  unfold execResourceSlotFree
  dsimp only
  repeat' split
  all_goals exact answers_next

@[simp] theorem execDescriptorSubmit_answers (l d p s) : Answers (execDescriptorSubmit l d p s) := by
  unfold execDescriptorSubmit
  repeat' split
  all_goals exact answers_next

@[simp] theorem execTrain_answers (l tries s) : Answers (execTrain l tries s) := answers_ite answers_next startOp_answers

@[simp] theorem execLaneRetrain_answers (l tries s) : Answers (execLaneRetrain l tries s) := by
  unfold execLaneRetrain
  dsimp only
  repeat' split
  all_goals exact answers_next

@[simp] theorem execRetrainIdleTimeout_answers (l tries s) : Answers (execRetrainIdleTimeout l tries s) := by
  unfold execRetrainIdleTimeout
  dsimp only
  repeat' split
  all_goals exact answers_next

@[simp] theorem execLunReady_answers (l tag st r s) : Answers (execLunReady l tag st r s) := by
  unfold execLunReady
  repeat' split
  all_goals exact answers_next

@[simp] theorem execStatusTimeout_answers (l tag s) : Answers (execStatusTimeout l tag s) := by
  unfold execStatusTimeout
  dsimp only
  repeat' split
  all_goals exact answers_next

@[simp] theorem execMinEraseRunTimeExpiry_answers (l u s) : Answers (execMinEraseRunTimeExpiry l u s) := by
  unfold execMinEraseRunTimeExpiry
  repeat' split
  all_goals exact answers_next

@[simp] theorem execMaxSuspendedTimeExpiry_answers (l u s) : Answers (execMaxSuspendedTimeExpiry l u s) := by
  unfold execMaxSuspendedTimeExpiry
  repeat' split
  all_goals exact answers_next

@[simp] theorem execPendingUpdateApply_answers (g gran s) : Answers (execPendingUpdateApply g gran s) := by
  unfold execPendingUpdateApply
  dsimp only
  split
  · exact answers_next
  · refine answers_ite answers_next ?_
    split
    · exact answers_next
    · exact applyMerge_answers
    · exact applyMerge_answers

@[simp] theorem execCheckpointCapture_answers (g s) : Answers (execCheckpointCapture g s) := by
  unfold execCheckpointCapture
  dsimp only
  repeat' split
  all_goals exact answers_next

@[simp] theorem execSecuritySendNamespaceKey_answers (ref nsid b s) : Answers (execSecuritySendNamespaceKey ref nsid b s) :=
  adminThen_answers fun _ => answers_ite answers_next answers_next

@[simp] theorem execFrameDecode_answers (c e src s) : Answers (execFrameDecode c e src s) := by
  unfold execFrameDecode
  dsimp only
  repeat' split
  all_goals exact answers_next

@[simp] theorem execDecodeComplete_answers (c e res s) : Answers (execDecodeComplete c e res s) := by
  unfold execDecodeComplete
  dsimp only
  repeat' split
  all_goals exact answers_next

@[simp] theorem execDecoderCompletionTimeout_answers (c e s) : Answers (execDecoderCompletionTimeout c e s) := by
  unfold execDecoderCompletionTimeout
  repeat' split
  all_goals exact answers_next

@[simp] theorem execRetryLadderStep_answers (c id facts s) : Answers (execRetryLadderStep c id facts s) := by
  unfold execRetryLadderStep
  dsimp only
  repeat' split
  all_goals exact answers_next

@[simp] theorem execPatrolStart_answers (g s) : Answers (execPatrolStart g s) := by
  unfold execPatrolStart
  dsimp only
  repeat' split
  all_goals exact answers_next

@[simp] theorem execPatrolComplete_answers (g b s) : Answers (execPatrolComplete g b s) := by
  unfold execPatrolComplete
  dsimp only
  repeat' split
  all_goals exact answers_next

@[simp] theorem execAntennaRunStart_answers (c s) : Answers (execAntennaRunStart c s) := by
  unfold execAntennaRunStart
  dsimp only
  repeat' split
  all_goals exact answers_next

@[simp] theorem execAntennaRunComplete_answers (c s) : Answers (execAntennaRunComplete c s) := by
  unfold execAntennaRunComplete
  dsimp only
  repeat' split
  all_goals exact answers_next

@[simp] theorem execReclaimStart_answers (g k s) : Answers (execReclaimStart g k s) := by
  unfold execReclaimStart
  dsimp only
  repeat' split
  all_goals exact answers_next

@[simp] theorem execGranuleRelocate_answers (g gran s) : Answers (execGranuleRelocate g gran s) := by
  unfold execGranuleRelocate
  dsimp only
  repeat' split
  all_goals exact answers_next

@[simp] theorem execBandResync_answers (g b unreadable s) : Answers (execBandResync g b unreadable s) := by
  unfold execBandResync
  dsimp only
  repeat' split
  all_goals exact answers_next

@[simp] theorem execBandRebuild_answers (g spare lost failed s) : Answers (execBandRebuild g spare lost failed s) := by
  unfold execBandRebuild
  dsimp only
  repeat' split
  all_goals exact answers_next

@[simp] theorem execRebuildTaskStart_answers (rows dark applied s) : Answers (execRebuildTaskStart rows dark applied s) := by
  unfold execRebuildTaskStart
  dsimp only
  repeat' split
  all_goals exact answers_next

@[simp] theorem execMembershipStageStage_answers (ref offset len last table s) : Answers (execMembershipStageStage ref offset len last table s) := by
  refine adminThen_answers fun s => ?_
  dsimp only
  repeat' split
  all_goals exact answers_next

@[simp] theorem execMembershipStageApply_answers (ref s) : Answers (execMembershipStageApply ref s) :=
  adminThen_answers fun _ => by split <;> exact answers_next

@[simp] theorem execEpochAnnounce_answers (hdr epoch hash s) : Answers (execEpochAnnounce hdr epoch hash s) := by
  unfold execEpochAnnounce
  repeat' split
  all_goals exact answers_next

@[simp] theorem execTrailingEpochTimeout_answers (s) : Answers (execTrailingEpochTimeout s) := by
  unfold execTrailingEpochTimeout
  dsimp only
  repeat' split
  all_goals exact answers_next

@[simp] theorem execHeldMessageTimeout_answers (i s) : Answers (execHeldMessageTimeout i s) := by
  unfold execHeldMessageTimeout
  repeat' split
  all_goals exact answers_next

@[simp] theorem execEpochAheadRetry_answers (peer opid s) : Answers (execEpochAheadRetry peer opid s) := by
  unfold execEpochAheadRetry
  repeat' split
  all_goals exact answers_next

@[simp] theorem execSealNoticeRetry_answers (g b u s) : Answers (execSealNoticeRetry g b u s) := by
  unfold execSealNoticeRetry
  repeat' split
  all_goals exact answers_next

@[simp] theorem execStripeShortTimeout_answers (stripe s) : Answers (execStripeShortTimeout stripe s) := by
  unfold execStripeShortTimeout
  repeat' split
  all_goals exact answers_next

@[simp] theorem execRequestAnswerTimeout_answers (peer opid s) : Answers (execRequestAnswerTimeout peer opid s) := by
  unfold execRequestAnswerTimeout
  repeat' split
  all_goals exact answers_next

@[simp] theorem execLightRequest_answers (peer r cancel s) : Answers (execLightRequest peer r cancel s) := by
  unfold execLightRequest
  dsimp only
  repeat' split
  all_goals exact answers_next

@[simp] theorem execSwarmLinkTraining_answers (d partner s) : Answers (execSwarmLinkTraining d partner s) := by
  unfold execSwarmLinkTraining
  dsimp only
  repeat' split
  all_goals exact answers_next

@[simp] theorem execLenosPacket_answers (d p s) : Answers (execLenosPacket d p s) := by
  unfold execLenosPacket
  dsimp only
  refine answers_ite answers_next (answers_ite answers_next (answers_ite answers_next (answers_ite answers_next ?_)))
  split
  · exact answers_next
  · exact answers_ite answers_next (answers_ite answers_next answers_next)

@[simp] theorem execHello_answers (d m s) : Answers (execHello d m s) := by
  unfold execHello
  dsimp only
  repeat' split
  all_goals exact answers_next

@[simp] theorem execOldSessionErase_answers (peer s) : Answers (execOldSessionErase peer s) := by
  unfold execOldSessionErase
  repeat' split
  all_goals exact answers_next

@[simp] theorem execAckTimer_answers (peer half s) : Answers (execAckTimer peer half s) := by
  unfold execAckTimer
  dsimp only
  repeat' split
  all_goals exact answers_next

@[simp] theorem execRetransmissionTimeout_answers (peer half ctr s) : Answers (execRetransmissionTimeout peer half ctr s) := by
  unfold execRetransmissionTimeout
  dsimp only
  repeat' split
  all_goals exact answers_next

@[simp] theorem execPathProgressTimeout_answers (peer half s) : Answers (execPathProgressTimeout peer half s) := by
  unfold execPathProgressTimeout
  dsimp only
  repeat' split
  all_goals exact answers_next

@[simp] theorem execEventToken_answers (i s) : Answers (execEventToken i s) := by
  unfold execEventToken
  repeat' split
  all_goals exact answers_next

@[simp] theorem execFirmwareImageDownload_answers (ref offset len last image s) : Answers (execFirmwareImageDownload ref offset len last image s) := by
  refine adminThen_answers fun s => ?_
  dsimp only
  repeat' split
  all_goals exact answers_next

@[simp] theorem execFirmwareActivation_answers (d1CoreOk regionCoreOk s) : Answers (execFirmwareActivation d1CoreOk regionCoreOk s) := by
  unfold execFirmwareActivation
  dsimp only
  repeat' split
  all_goals exact answers_next

@[simp] theorem execOptionStage_answers (ref offset len last image s) : Answers (execOptionStage ref offset len last image s) := by
  refine adminThen_answers fun s => ?_
  dsimp only
  repeat' split
  all_goals exact answers_next

@[simp] theorem execOptionCheck_answers (ref s) : Answers (execOptionCheck ref s) := by
  refine adminThen_answers fun s => ?_
  repeat' split
  all_goals exact answers_next

@[simp] theorem execOptionApplyAtStart_answers (ref s) : Answers (execOptionApplyAtStart ref s) := by
  refine adminThen_answers fun s => ?_
  dsimp only
  repeat' split
  all_goals exact answers_next

@[simp] theorem execOptionApplyLive_answers (ref s) : Answers (execOptionApplyLive ref s) := by
  refine adminThen_answers fun s => ?_
  dsimp only
  repeat' split
  all_goals exact answers_next

@[simp] theorem execReturnToRead_answers (req s) : Answers (execReturnToRead req s) :=
  answers_ite answers_next (answers_ite answers_next storeRun_answers)

@[simp] theorem execStoreSequenceTimeout_answers (s) : Answers (execStoreSequenceTimeout s) := by
  unfold execStoreSequenceTimeout
  dsimp only
  repeat' split
  all_goals exact answers_next

@[simp] theorem execStoreEraseStart_answers (s) : Answers (execStoreEraseStart s) := by
  unfold execStoreEraseStart
  dsimp only
  repeat' split
  all_goals exact answers_next

@[simp] theorem execStoreProgramComplete_answers (ok s) : Answers (execStoreProgramComplete ok s) := by
  unfold execStoreProgramComplete
  dsimp only
  repeat' split
  all_goals exact answers_next

@[simp] theorem execStoreEraseComplete_answers (marginFailures s) : Answers (execStoreEraseComplete marginFailures s) := by
  unfold execStoreEraseComplete
  dsimp only
  repeat' split
  all_goals exact answers_next

@[simp] theorem execStoreEraseTimeout_answers (s) : Answers (execStoreEraseTimeout s) := by
  unfold execStoreEraseTimeout
  dsimp only
  repeat' split
  all_goals exact answers_next

@[simp] theorem execStoreArrayRead_answers (kind offset byCore differs s) : Answers (execStoreArrayRead kind offset byCore differs s) := by
  unfold execStoreArrayRead
  dsimp only
  repeat' split
  all_goals exact answers_next

@[simp] theorem execStoreEraseAutoSuspend_answers (s) : Answers (execStoreEraseAutoSuspend s) := by
  unfold execStoreEraseAutoSuspend
  dsimp only
  repeat' split
  all_goals exact answers_next

@[simp] theorem execStoreEraseAutoResume_answers (s) : Answers (execStoreEraseAutoResume s) := by
  unfold execStoreEraseAutoResume
  repeat' split
  all_goals exact answers_next

@[simp] theorem execShadowClose_answers (holder i persisting s) : Answers (execShadowClose holder i persisting s) := by
  unfold execShadowClose
  dsimp only
  repeat' split
  all_goals exact answers_next

@[simp] theorem execPackageRestart_answers (cause s) : Answers (execPackageRestart cause s) := by
  unfold execPackageRestart
  repeat' split
  all_goals exact answers_next

@[simp] theorem execD0Release_answers (f s) : Answers (execD0Release f s) := by
  unfold execD0Release
  dsimp only
  repeat' split
  all_goals exact answers_next

@[simp] theorem execBufferAllocate_answers (d bytes dram kind s) : Answers (execBufferAllocate d bytes dram kind s) := by
  unfold execBufferAllocate
  repeat' split
  all_goals exact answers_next

@[simp] theorem execBufferReferenceTake_answers (d ptr user s) : Answers (execBufferReferenceTake d ptr user s) := by
  unfold execBufferReferenceTake
  repeat' split
  all_goals exact answers_next

@[simp] theorem execBufferReferenceDrop_answers (d ptr user s) : Answers (execBufferReferenceDrop d ptr user s) := by
  unfold execBufferReferenceDrop
  repeat' split
  all_goals exact answers_next

@[simp] theorem execDramRetrain_answers (d byRate tries s) : Answers (execDramRetrain d byRate tries s) := by
  unfold execDramRetrain
  dsimp only
  repeat' split
  all_goals exact answers_next

@[simp] theorem execMemoryCorrected_answers (d k addr bit s) : Answers (execMemoryCorrected d k addr bit s) := by
  unfold execMemoryCorrected
  dsimp only
  repeat' split
  all_goals exact answers_next

@[simp] theorem execMemoryUncorrectable_answers (d k addr target s) : Answers (execMemoryUncorrectable d k addr target s) := by
  unfold execMemoryUncorrectable
  dsimp only
  repeat' split
  all_goals exact answers_next

@[simp] theorem execLocationRetire_answers (d k addr channel inBuffer s) : Answers (execLocationRetire d k addr channel inBuffer s) := by
  unfold execLocationRetire
  dsimp only
  repeat' split
  all_goals exact answers_next

@[simp] theorem execSubmissionQueueDoorbell_answers (d qid tail s) : Answers (execSubmissionQueueDoorbell d qid tail s) := by
  unfold execSubmissionQueueDoorbell
  dsimp only
  repeat' split
  all_goals exact answers_next

@[simp] theorem execCompletionQueueDoorbell_answers (d qid head s) : Answers (execCompletionQueueDoorbell d qid head s) := by
  unfold execCompletionQueueDoorbell
  dsimp only
  repeat' split
  all_goals exact answers_next

@[simp] theorem execDiapauseReady_answers (s) : Answers (execDiapauseReady s) := by
  unfold execDiapauseReady
  dsimp only
  repeat' split
  all_goals exact answers_next

@[simp] theorem execRead_answers (ref nsid slba nlb s) : Answers (execRead ref nsid slba nlb s) := by
  unfold execRead
  exact ioThen_answers

@[simp] theorem execVerify_answers (ref nsid slba nlb s) : Answers (execVerify ref nsid slba nlb s) := by
  unfold execVerify
  exact ioThen_answers

@[simp] theorem execWrite_answers (ref nsid slba nlb dtype dspec data s) : Answers (execWrite ref nsid slba nlb dtype dspec data s) := by
  unfold execWrite
  exact ioThen_answers

@[simp] theorem execWriteZeroes_answers (ref nsid slba nlb s) : Answers (execWriteZeroes ref nsid slba nlb s) := by
  unfold execWriteZeroes
  exact ioThen_answers

@[simp] theorem execCopy_answers (ref nsid sdlba src s) : Answers (execCopy ref nsid sdlba src s) := by
  unfold execCopy
  exact ioThen_answers

@[simp] theorem execXtsEncrypt_answers (g gran seq refused s) : Answers (execXtsEncrypt g gran seq refused s) := by
  unfold execXtsEncrypt
  dsimp only
  repeat' split
  all_goals exact answers_next

@[simp] theorem execUnsupportedCommand_answers (ref s) : Answers (execUnsupportedCommand ref s) := by
  unfold execUnsupportedCommand
  repeat' split
  all_goals exact answers_next

@[simp] theorem execMapSegmentLoad_answers (g seg s) : Answers (execMapSegmentLoad g seg s) := by
  unfold execMapSegmentLoad
  dsimp only
  repeat' split
  all_goals exact answers_next

@[simp] theorem execTbl_answers (l c d t i s) : Answers (execTbl l c d t i s) := by
  unfold execTbl
  exact micro_answers

@[simp] theorem execCmd_answers (l c fromProfile v s) : Answers (execCmd l c fromProfile v s) := by
  unfold execCmd
  exact micro_answers

@[simp] theorem execPowerCapAverage_answers (mw s) : Answers (execPowerCapAverage mw s) := by
  unfold execPowerCapAverage
  dsimp only
  repeat' split
  all_goals exact answers_next

@[simp] theorem execRescueComplete_answers (tenUs s) : Answers (execRescueComplete tenUs s) := by
  unfold execRescueComplete
  repeat' split
  all_goals exact answers_next

@[simp] theorem execHoldupDischargeCrossing_answers (us s) : Answers (execHoldupDischargeCrossing us s) := by
  unfold execHoldupDischargeCrossing
  dsimp only
  repeat' split
  all_goals exact answers_next

@[simp] theorem execHoldupDischargeTimeout_answers (s) : Answers (execHoldupDischargeTimeout s) := by
  unfold execHoldupDischargeTimeout
  repeat' split
  all_goals exact answers_next

@[simp] theorem execAdcSample_answers (o s) : Answers (execAdcSample o s) := by
  unfold execAdcSample
  dsimp only
  repeat' split
  all_goals exact answers_next

@[simp] theorem execRegisterWrite_answers (addr value s) : Answers (execRegisterWrite addr value s) := by
  unfold execRegisterWrite
  repeat' split
  all_goals exact answers_next

@[simp] theorem execManagementRead_answers (ref addr numd s) : Answers (execManagementRead ref addr numd s) := by
  refine adminThen_answers fun s => ?_
  dsimp only
  repeat' split
  all_goals exact answers_next

@[simp] theorem execManagementWrite_answers (ref addr values s) : Answers (execManagementWrite ref addr values s) := by
  refine adminThen_answers fun s => ?_
  dsimp only
  repeat' split
  all_goals exact answers_next

@[simp] theorem execAdminCommandTunnel_answers (ctrl cid cmd s) : Answers (execAdminCommandTunnel ctrl cid cmd s) := by
  unfold execAdminCommandTunnel
  dsimp only
  refine answers_ite answers_next (answers_ite answers_next (answers_ite answers_next ?_))
  split
  case h_4 => exact execFirmwareImageDownload_answers ..
  case h_10 => exact answers_next
  case h_1 | h_2 | h_3 => exact admin_answers
  all_goals exact adminThen_answers fun _ => answers_next

/-! Every command. -/

/-- No command faults or is refused: what the spec refuses is answered inside the next state. -/
theorem exec_answers (i : Instr) (s : State) : Answers (exec i s) := by
  cases i with
  | nop | jmp | brc | call | ret | ldi | ldu | ldd | addi | alu | cmp | sync | yld | cen | adr | adx | dout | din | stat | wrdy | tim | wait | lvl | phy
  | loop | susp | sto | evt | done | trap =>
    dsimp only [exec]
    exact micro_answers
  | securitySendKek | securitySendLock | securityReceiveKeyStatus | securityReceiveProtocolList | membershipStageReadMemberKey |
  membershipStageReadTableHeader | membershipStageDiscard | firmwareCommitReplace | firmwareCommitReplaceActivate | firmwareCommitActivateAtReset |
  firmwareCommitActivateNow | firmwareCommitBootPartition | createIoCompletionQueue | createIoSubmissionQueue | deleteIoSubmissionQueue |
  deleteIoCompletionQueue | abort | asynchronousEventRequest | namespaceManagementCreate | namespaceManagementDelete | namespaceAttachment | formatNvm |
  formatNvmCryptoErase | sanitizeCryptoErase | sanitizeBlockErase | sanitizeOverwrite | sanitizeExitFailureMode | diapausePrepare | diapauseStatus |
  setFeaturesTimestamp | setFeaturesPowerManagement | setFeaturesTemperatureThreshold | getFeatures | getLogPage | identify =>
    dsimp only [exec]
    exact admin_answers
  | flush | datasetManagement =>
    dsimp only [exec]
    exact ioThen_answers
  | readPage | readSoft | marginRead | offsetSweep | programPage | programPass | setFeature | getFeature | readStatus | eraseBlock | suspend | resume =>
    dsimp only [exec]
    exact startOp_answers
  | setFeaturesArbitration | setFeaturesErrorRecovery | setFeaturesNumberOfQueues | setFeaturesInterruptCoalescing | setFeaturesInterruptVectorConfig |
  setFeaturesAsyncEventConfiguration | setFeaturesApst | setFeaturesFdp | setFeaturesFdpEvents =>
    dsimp only [exec]
    exact adminThen_answers fun _ => answers_next
  | thermalAgeAccumulate | carapaceTemperatureSample | timekeepingRecordWrite | gapTimeout | lneCtrlRetrain | dqsDriftTrack | zqShortCalibration |
  patchLoad | foldIdleTimer | nak | sealNoticeTimeout | journalFrameDurable | peerLit | heartbeat | heartbeatSendTimer | darkWaitExpiry |
  otherInboundPacket | helloRetryTimer | sessionRekey | peerUnreachable | eventFlushComplete | program64BitWord | program256ByteLine | eraseSector |
  eraseSuspend | eraseResume | marginMode | readEraseCounter | regionCoreWatchdog | dieCoreWatchdog | collectorParityScan | dieTemperatureWarning |
  dieTemperatureCritical | vinRise | bootWindowTimeout | bufferZeroed | dramOscillatorRead | dramZqLatch | memTest | zeroFillComplete | pcieLinkTraining
  | perstNAssert | functionLevelReset | configRequest | controllerEnable | controllerReset | normalShutdown | abruptShutdown | vcoreOutOfWindow |
  vcoreWindowRestored | xtal25Stop | xtal32kStop | dieBridgeHandshakeTimeout | phyWakeRequest | pcieL12Entry | pcieL12Exit | apstIdleTimer |
  hostFetchStart | mctpPacket | setEndpointId | getEndpointId | getEndpointUuid | getMctpVersionSupport | getMessageTypeSupport |
  readNvmeMiDataStructure | nvmSubsystemHealthStatusPoll | controllerHealthStatusPoll | configurationGet | configurationSet | basicManagementCommand |
  miUnsupportedCommand | railWindowTimeout | regulatorStartTimeout | boardRailOutOfWindow | vinOvervoltage | pwrLossNAssert | vinBelowLossThreshold |
  vinFall | huIsoRelease | vinBelowWarning | holdupWindowsEmpty | holdupRecharged | holdupChargeTimeout | vauxLost | vauxRise | thermistorFault |
  keeperTemperatureCritical => exact answers_ite answers_next answers_next
  | parityAccumulatorMemoryError | kprFcInjectGo | nvmSubsystemReset | dieBridgeTransfer | phyIdleTimerExpiry => exact answers_ite answers_next (answers_ite answers_next answers_next)
  | holdupSettleExpiry => exact answers_ite (answers_ite answers_next answers_next) answers_next
  | lneCtrlCntClr | laneReset | journalFrameTimer | checkpointIndexWrite | rgnQuery | rgnCtrlCntClr | cphCtrlCntClr | stagingRowTimeout | cluCtrlCntClr
  | pushBusyRetry | pushNoNamespaceRetry | sealNotice | slotAssign | stripeRecord | stripeRecordAck | contribData | contribDone | contribDoneReply |
  retract | retractReply | rebuildRead | rebuildData | contribRetry | contribBusyRetry | swarmPortLinkDown | neighborSolicitation | arpRequest |
  echoRequest | swmCtrlCntClr | helloAttemptTimeout | livenessTimeout | kprEvCtrlFlush | kprFcFirstClear | kprFcPendClear | dieTemperatureBackInRange |
  memCtrlCntClr | hostLinkDown | perstNRelease | crossingReset | crossingReadyHandshake | windowAdmit | kprCtrlHuMeasure | measurementIntervalExpiry => exact answers_next
  | _ => simp

theorem step_answers (s : State) : Answers (step s) := by
  unfold step
  split
  · exact answers_next
  · exact exec_answers _ _

/-- Settles O44: each gate and each branch of a command's meaning ends in a next state. -/
theorem everyCommandAnswers : Obligations.EveryCommandAnswers := by
  unfold Obligations.EveryCommandAnswers
  exact ⟨exec_answers, step_answers⟩

end Sys2Proof.Machine
end

