-- ==== Sys2Proof/Proofs/Queue.lean ====
section
/-! No command touches the queue of waiting commands: `exec_leavesStill` says so of all but the four that end programs and erases or write the
checkpoint index. -/

namespace Sys2Proof.Machine

theorem pending_eq_of_still {s t : State} (h : t.still = s.still) : t.pending = s.pending := congrArg Prod.snd h

theorem pending_foldl {α : Type} {f : State → α → State} (h : ∀ s x, (f s x).pending = s.pending) (l : List α) (s : State) :
    (l.foldl f s).pending = s.pending := by
  induction l generalizing s with
  | nil => rfl
  | cons x l ih => exact (ih _).trans (h s x)

/-! The ends of programs and erases. -/

theorem execStoreProgramComplete_pending {s t : State} {ok : Bool} (hrun : execStoreProgramComplete ok s = .next t) : t.pending = s.pending := by
  cases hprog : s.store.prog with
  | none => exact pending_eq_of_still (execStoreProgramComplete_leavesStill hprog ok t hrun)
  | some p =>
    simp only [execStoreProgramComplete, hprog] at hrun
    cases ok with
    | true =>
      obtain rfl := Host.Outcome.next.inj hrun
      rfl
    | false =>
      obtain rfl := Host.Outcome.next.inj hrun
      have hreport (u : State) : (if p.requester = .keeper ∧ isEventLog (sectorOf p.offset) = true then (u.raise 496).skipLogLine
          else u.raise 496).still = u.still := by simp
      exact (pending_eq_of_still (hreport _)).trans rfl

theorem execStoreEraseComplete_pending {s t : State} {n : Nat} (hrun : execStoreEraseComplete n s = .next t) : t.pending = s.pending := by
  by_cases hruns : ∃ e, s.store.erase = some e ∧ e.susp = .running
  · obtain ⟨e, herase, hsusp⟩ := hruns
    exact congrArg Prod.snd (execStoreEraseComplete_leavesStill herase hsusp n t hrun)
  · push Not at hruns
    rw [execStoreEraseComplete_of_not_running hruns] at hrun
    rw [Host.Outcome.next.inj hrun]

/-! The checkpoint index. -/

theorem State.appendIndex_pending (s : State) (x : IndexRec) : (s.appendIndex x).pending = s.pending := by
  simp only [State.appendIndex]
  split
  · exact pending_eq_of_still (by simp)
  · rw [State.raise_eq, State.raiseFrom_pending, State.updStore_pending]
    exact pending_eq_of_still (by simp)

theorem State.appendIndex_if_pending (s : State) (c : Prop) {_ : Decidable c} (x : IndexRec) :
    (if c then s.appendIndex x else s).pending = s.pending := by
  split
  · exact s.appendIndex_pending x
  · rfl

theorem State.indexImage_pending (s : State) (g : RegionIx) (ckptSeq : Nat) : (s.indexImage g ckptSeq).pending = s.pending := by
  unfold State.indexImage
  extract_lets r
  split
  · rfl
  · extract_lets both entry first second indexed point released
    split
    · rfl
    · have hfirst : first.pending = s.pending := s.appendIndex_if_pending _ _
      have hsecond : second.pending = first.pending := first.appendIndex_if_pending _ _
      have hreleased : ((released.releaseJournalBands g).releaseImageBands g).still = second.still := by simp [released, indexed]
      exact (pending_eq_of_still hreleased).trans (hsecond.trans hfirst)

theorem State.captureAll_pending (s : State) (g : RegionIx) : (s.captureAll g).pending = s.pending := by
  refine pending_foldl (fun s i => ?_) _ s
  extract_lets captured two marked
  have hmarked : marked.pending = s.pending := pending_eq_of_still (by simp [marked, captured])
  split
  · exact (marked.indexImage_pending _ _).trans hmarked
  · exact hmarked

theorem State.capturePass_pending (s : State) : s.capturePass.pending = s.pending := by
  refine pending_foldl (fun s g => ?_) _ s
  split
  · exact (State.captureAll_pending _ g).trans (pending_eq_of_still (s.drainJournal_still g))
  · rfl

theorem execDiapauseReady_pending {s t : State} (h : execDiapauseReady s = .next t) : t.pending = s.pending := by
  have hpasses : s.sealAllOpen.capturePass.capturePass.pending = s.pending :=
    (State.capturePass_pending _).trans ((State.capturePass_pending _).trans (pending_eq_of_still s.sealAllOpen_still))
  unfold execDiapauseReady at h
  split at h
  · split at h
    · rw [Host.Outcome.next.inj h]
    · obtain rfl := Host.Outcome.next.inj h
      exact (pending_eq_of_still (by simp [State.capturePass])).trans hpasses
  all_goals rw [Host.Outcome.next.inj h]

/-! Every command and every step. -/

theorem exec_pending {i : Instr} {s t : State} (hrun : exec i s = .next t) : t.pending = s.pending := by
  by_cases hspecial : (∀ ok, i ≠ .storeProgramComplete ok) ∧ (∀ n, i ≠ .storeEraseComplete n) ∧ (∀ g q, i ≠ .checkpointIndexWrite g q) ∧ i ≠ .diapauseReady
  · obtain ⟨hprogram, herase, hindex, hready⟩ := hspecial
    exact pending_eq_of_still (exec_leavesStill s hprogram herase hindex hready t hrun)
  · cases i with
    | storeProgramComplete ok => exact execStoreProgramComplete_pending hrun
    | storeEraseComplete n => exact execStoreEraseComplete_pending hrun
    | checkpointIndexWrite g q =>
      obtain rfl := Host.Outcome.next.inj hrun
      exact s.indexImage_pending g q
    | diapauseReady => exact execDiapauseReady_pending hrun
    | _ => simp at hspecial

theorem step_pending {s t : State} (hrun : step s = .next t) : t.pending = s.pending.tail := by
  unfold step at hrun
  split at hrun
  · next hempty =>
    obtain rfl := Host.Outcome.next.inj hrun
    rw [pending_eq_of_still s.idle_still, hempty, List.tail_nil]
  · next c rest hfront => rw [exec_pending hrun, hfront, List.tail_cons]

/-- Settles O45: every operation but the step leaves the queue alone, and the step takes its front. -/
theorem commandsKeepTheQueue : Obligations.CommandsKeepTheQueue := by
  unfold Obligations.CommandsKeepTheQueue
  exact ⟨fun i s t => exec_pending, fun s t => step_pending⟩

end Sys2Proof.Machine
end

