-- ==== Sys2Proof/Proofs/Microcode.lean ====
section
/-! What each microword does to a context that fetches it (R58 to R60): `micro_go`, `micro_goN`, `micro_bad` and `micro_own` say what the fetch answers, so
that each equation here is one action of R59. -/

namespace Sys2Proof.Machine

section Fetched

variable {s : State} {l : LaneIx} {c : CtxIx} {e : QEntry} {k : Ctx}

/-! Control (R58). -/

theorem nop_fetched (h : s.fetches l c (microword 0x00 0) e k) :
    exec (.nop l c) s = .next (s.updCtx l c fun _ => { k with pc := k.pc + 1 }) := by
  rw [exec_nop, execNop, micro_go h rfl rfl]
  rfl

theorem jmp_fetched {t : BitVec 14} (h : s.fetches l c (microword 0x01 t.toNat) e k) :
    exec (.jmp l c t) s = .next (s.updCtx l c fun _ => { k with pc := t }) := by
  rw [exec_jmp, execJmp, micro_go h rfl rfl]
  rfl

theorem brc_fetched {b : BitVec 5} {t : BitVec 14} {v : Bool} (h : s.fetches l c (microword 0x02 (b.toNat * 2 ^ 14 + t.toNat)) e k)
    (hv : s.condition l e k b.toNat = some v) :
    exec (.brc l c b t) s = .next (s.updCtx l c fun _ => { k with pc := if v then t else k.pc + 1 }) := by
  rw [exec_brc, execBrc, micro_go h rfl rfl, hv]
  cases v <;> rfl

theorem call_fetched {t : BitVec 14} (h : s.fetches l c (microword 0x03 t.toNat) e k) (hroom : k.stack.length < 4) :
    exec (.call l c t) s = .next (s.updCtx l c fun _ => { k with stack := (k.pc + 1) :: k.stack, pc := t }) := by
  rw [exec_call, execCall, micro_go h rfl rfl, if_neg (by omega)]
  rfl

theorem ret_fetched {t : BitVec 14} {rest : List (BitVec 14)} (h : s.fetches l c (microword 0x04 0) e k) (hstack : k.stack = t :: rest) :
    exec (.ret l c) s = .next (s.updCtx l c fun _ => { k with stack := rest, pc := t }) := by
  rw [exec_ret, execRet, micro_go h rfl rfl, hstack]
  rfl

theorem loop_fetched {d : Fin 16} {t : BitVec 14} (h : s.fetches l c (microword 0x1A (d.val * 2 ^ 15 + t.toNat)) e k) :
    exec (.loop l c d t) s = .next (s.updCtx l c fun _ =>
      { k with w := k.w.set d (k.w[d] - 1), pc := if k.w[d] - 1 = 0 then k.pc + 1 else t }) := by
  rw [exec_loop, execLoop, micro_go h rfl rfl]
  by_cases hzero : k.w[d] - 1 = 0 <;> simp only [hzero, if_true, if_false] <;> rfl

/-! Registers (R59). -/

theorem ldi_fetched {d : Fin 16} {v : BitVec 15} (h : s.fetches l c (microword 0x05 (d.val * 2 ^ 15 + v.toNat)) e k) :
    exec (.ldi l c d v) s = .next (s.updCtx l c fun _ => { k with w := k.w.set d (v.setWidth 32), pc := k.pc + 1 }) := by
  rw [exec_ldi, execLdi, micro_go h rfl rfl]
  rfl

theorem ldu_fetched {d : Fin 16} {v : BitVec 15} (h : s.fetches l c (microword 0x06 (d.val * 2 ^ 15 + v.toNat)) e k) :
    exec (.ldu l c d v) s = .next (s.updCtx l c fun _ => { k with w := k.w.set d (v ++ (k.w[d]).extractLsb' 0 17), pc := k.pc + 1 }) := by
  rw [exec_ldu, execLdu, micro_go h rfl rfl]
  rfl

theorem ldd_fetched {d w : Fin 16} (h : s.fetches l c (microword 0x07 (d.val * 2 ^ 15 + w.val)) e k) :
    exec (.ldd l c d w) s = .next (s.updCtx l c fun _ => { k with w := k.w.set d e.desc.words[w], pc := k.pc + 1 }) := by
  rw [exec_ldd, execLdd, micro_go h rfl rfl]
  rfl

theorem addi_fetched {d a : Fin 16} {v : BitVec 11} (h : s.fetches l c (microword 0x08 (d.val * 2 ^ 15 + a.val * 2 ^ 11 + v.toNat)) e k) :
    exec (.addi l c d a v) s = .next (s.updCtx l c fun _ =>
      let r := k.w[a] + v.signExtend 32
      { k with w := k.w.set d r, z := r == 0, n := r.msb, c := decide (2 ^ 32 ≤ (k.w[a]).toNat + (v.signExtend 32).toNat), pc := k.pc + 1 }) := by
  rw [exec_addi, execAddi, micro_go h rfl rfl]
  rfl

/-- An addition's carry is its carry-out; the carry of the other functions is free. -/
theorem alu_fetched {d a b : Fin 16} {f : BitVec 3} {r : Word}
    (h : s.fetches l c (microword 0x09 (d.val * 2 ^ 15 + a.val * 2 ^ 11 + b.val * 2 ^ 7 + f.toNat)) e k)
    (hr : aluResult f k.w[a] k.w[b] = some r) : ∃ cf : Bool, (f = 0 → cf = decide (2 ^ 32 ≤ (k.w[a]).toNat + (k.w[b]).toNat)) ∧
      exec (.alu l c d a b f) s = .next { (s.updCtx l c fun _ => { k with w := k.w.set d r, z := r == 0, n := r.msb, c := cf, pc := k.pc + 1 }) with
        free := s.free + 1 } := by
  refine ⟨if f = 0 then carryOut k.w[a] k.w[b] else Config.freeFlag s.free, fun hadd => if_pos hadd, ?_⟩
  rw [exec_alu, execAlu, micro_go h rfl rfl, hr]
  rfl

theorem cmp_fetched {a b : Fin 16} (h : s.fetches l c (microword 0x0A (a.val * 2 ^ 11 + b.val * 2 ^ 7)) e k) : ∃ cf : Bool,
    exec (.cmp l c a b) s = .next { (s.updCtx l c fun _ => { k with z := k.w[a] - k.w[b] == 0, n := (k.w[a] - k.w[b]).msb, c := cf, pc := k.pc + 1 }) with
      free := s.free + 1 } := by
  refine ⟨Config.freeFlag s.free, ?_⟩
  rw [exec_cmp, execCmp, micro_go h rfl rfl]
  rfl

theorem tbl_fetched {d : Fin 16} {t : BitVec 3} {i : BitVec 12} {p : MediaProfile} {v : Word} (ht : t.toNat < 5) (hp : s.laneProfile l = some p)
    (hv : tableEntry p t.toNat i.toNat = some v) (h : s.fetches l c (microword 0x0B (d.val * 2 ^ 15 + t.toNat * 2 ^ 12 + i.toNat)) e k) :
    exec (.tbl l c d t i) s = .next (s.updCtx l c fun _ => { k with w := k.w.set d v, pc := k.pc + 1 }) := by
  have hentry : (s.laneProfile l).bind (fun p => tableEntry p t.toNat i.toNat) = some v := by rw [hp, Option.bind_some, hv]
  rw [exec_tbl, execTbl, hentry, micro_go h (by simp [ht]) rfl]
  rfl

/-! Suspension and completion words (R59). -/

theorem susp_fetched (h : s.fetches l c (microword 0x1B 0) e k) : exec (.susp l c) s = .next (s.updCtx l c fun _ => { k with
    s := match runningOn s.lanes[l] e.desc.unit with
      | some r => r.minMet && decide (r.count < s.lanes[l].suspLimit) && wantsLun s.lanes[l] r
      | none => false,
    pc := k.pc + 1 }) := by
  rw [exec_susp, execSusp, micro_go h rfl rfl]
  rfl

theorem sto_fetched {a : Fin 16} {w : Fin 4} (h : s.fetches l c (microword 0x1C (a.val * 2 ^ 15 + w.val)) e k) (hw : 1 ≤ w.val) :
    exec (.sto l c a w) s = .next (s.updCtx l c fun _ => { k with out := k.out.set (w.val - 1) (some k.w[a]), pc := k.pc + 1 }) := by
  rw [exec_sto, execSto, micro_go h (by simp; omega) rfl]
  rfl

/-! The channel (R59, R60). -/

theorem sync_fetched (h : s.fetches l c (microword 0x0C 0) e k)
    (howner : s.lanes[l].owner = none ∨ s.lanes[l].owner = some c) :
    exec (.sync l c) s = .next ((s.updLane l fun x => { x with owner := some c }).updCtx l c fun _ => { k with pc := k.pc + 1 }) := by
  rw [exec_sync, execSync, micro_go h rfl rfl]
  have htakes : (s.lanes[l].owner.isNone || s.lanes[l].owner == some c) = true := by
    rcases howner with howner | howner <;> rw [howner]
    · rfl
    · simp
  simp only [htakes, if_true]
  rfl

theorem sync_waits_fetched {o : CtxIx} (h : s.fetches l c (microword 0x0C 0) e k) (howner : s.lanes[l].owner = some o)
    (hother : o ≠ c) :
    exec (.sync l c) s = .next (s.updCtx l c fun _ => { k with waits := true }) := by
  rw [exec_sync, execSync, micro_go h rfl rfl]
  have hwaits : (s.lanes[l].owner.isNone || s.lanes[l].owner == some c) = false := by
    rw [howner]
    simp [hother]
  simp only [hwaits]
  rfl

theorem yld_fetched (h : s.fetches l c (microword 0x0D 0) e k) :
    exec (.yld l c) s = .next ((s.updCtx l c fun _ => { k with pc := k.pc + 1 }).updLane l fun x =>
      ({ x with owner := if x.owner = some c then none else x.owner } : LaneSt).grantChannel) := by
  rw [exec_yld, execYld, micro_go h rfl rfl]
  rfl

theorem cen_fetched {n : Fin 8} (h : s.fetches l c (microword 0x0E n.val) e k) :
    exec (.cen l c ⟨n.val, by omega⟩) s = .next
      ((s.updLane l fun x => { x with bus := x.bus ++ [.ce (some n)], ce := some n }).updCtx l c fun _ => { k with pc := k.pc + 1 }) := by
  rw [exec_cen, execCen, micro_go h (by simp) rfl]
  simp only [n.isLt, dite_true]
  rfl

theorem cen_deselects_fetched (h : s.fetches l c (microword 0x0E 15) e k) :
    exec (.cen l c 15) s = .next
      ((s.updLane l fun x => { x with bus := x.bus ++ [.ce none], ce := none }).updCtx l c fun _ => { k with pc := k.pc + 1 }) := by
  rw [exec_cen, execCen]
  exact micro_go h rfl rfl

theorem cmd_fetched {v : Byte} (h : s.fetches l c (microword 0x0F v.toNat) e k) (howner : s.lanes[l].owner = some c) :
    exec (.cmd l c false v) s = .next
      ((s.updLane l fun x => { x with bus := x.bus ++ [.cmd v] }).updCtx l c fun _ => { k with pc := k.pc + 1 }) := by
  have hword : (if false = true then 2 ^ 18 else 0) + v.toNat = v.toNat := Nat.zero_add _
  rw [exec_cmd, execCmd, hword]
  exact micro_goN h rfl howner

theorem cmd_fromProfile_fetched {v b : Byte} {p : MediaProfile} (hp : s.laneProfile l = some p) (hb : p.opcodes[v.toNat]? = some b)
    (h : s.fetches l c (microword 0x0F (2 ^ 18 + v.toNat)) e k)
    (howner : s.lanes[l].owner = some c) :
    exec (.cmd l c true v) s = .next
      ((s.updLane l fun x => { x with bus := x.bus ++ [.cmd b] }).updCtx l c fun _ => { k with pc := k.pc + 1 }) := by
  have hopcode : ((s.laneProfile l).bind fun p => p.opcodes[v.toNat]?) = some b := by rw [hp, Option.bind_some, hb]
  have hword : (if true = true then 2 ^ 18 else 0) + v.toNat = 2 ^ 18 + v.toNat := rfl
  have hbyte : (if true = true then (s.laneProfile l).bind fun p => p.opcodes[v.toNat]? else some v) = some b := hopcode
  rw [exec_cmd, execCmd, hword, hbyte]
  exact micro_goN h rfl howner

theorem adr_fetched {a : Fin 16} {n : BitVec 3} (hmin : 1 ≤ n.toNat) (hmax : n.toNat ≤ 4)
    (h : s.fetches l c (microword 0x10 (a.val * 2 ^ 15 + n.toNat)) e k) (howner : s.lanes[l].owner = some c) :
    exec (.adr l c a n) s = .next
      ((s.updLane l fun x => { x with bus := x.bus ++ ((descBytes k.w[a]).take n.toNat).map .addr }).updCtx l c fun _ => { k with pc := k.pc + 1 }) := by
  rw [exec_adr, execAdr, micro_goN h (by simp [hmin, hmax]) howner]
  rfl

theorem adx_fetched {a : Fin 16} {n : BitVec 2} (hmin : 1 ≤ n.toNat) (hmax : n.toNat ≤ 2)
    (h : s.fetches l c (microword 0x11 (a.val * 2 ^ 15 + n.toNat)) e k) (howner : s.lanes[l].owner = some c) :
    exec (.adx l c a n) s = .next
      ((s.updLane l fun x => { x with bus := x.bus ++ ((descBytes k.w[a]).take n.toNat).map .addr }).updCtx l c fun _ => { k with pc := k.pc + 1 }) := by
  rw [exec_adx, execAdx, micro_goN h (by simp [hmin, hmax]) howner]
  rfl

/-! Bursts, whose buffer pointer passes its check (R59, R307). -/

theorem burst_of_ptrOk {len ptr : Word} {toBuffer : Bool} {b : BusCycle} (hptr : s.ptrCheck (dieOfLane l) ptr len.toNat toBuffer = none) :
    s.burst l c e k len ptr toBuffer b =
      ((s.carry (.nand l) (!toBuffer) len.toNat).updLane l fun x => { x with bus := x.bus ++ [b] }).updCtx l c fun _ => { k with pc := k.pc + 1 } := by
  rw [State.burst, hptr]
  rfl

theorem dout_fetched {a b : Fin 16} (hptr : s.ptrCheck (dieOfLane l) k.w[b] (k.w[a]).toNat false = none)
    (h : s.fetches l c (microword 0x12 (a.val * 2 ^ 15 + b.val * 2 ^ 11)) e k) (howner : s.lanes[l].owner = some c) :
    exec (.dout l c a b) s = .next (((s.carry (.nand l) true (k.w[a]).toNat).updLane l fun x =>
      { x with bus := x.bus ++ [.dataOut k.w[a] k.w[b]] }).updCtx l c fun _ => { k with pc := k.pc + 1 }) := by
  rw [exec_dout, execDout, micro_goN h rfl howner]
  exact congrArg _ (burst_of_ptrOk hptr)

theorem din_fetched {a b : Fin 16} {dec : Bool} (hptr : s.ptrCheck (dieOfLane l) k.w[b] (k.w[a]).toNat true = none)
    (h : s.fetches l c (microword 0x13 (a.val * 2 ^ 15 + b.val * 2 ^ 11 + (if dec then 1 else 0))) e k)
    (howner : s.lanes[l].owner = some c) :
    exec (.din l c a b dec) s = .next (((s.carry (.nand l) false (k.w[a]).toNat).updLane l fun x =>
      { x with bus := x.bus ++ [.dataIn k.w[a] k.w[b] dec] }).updCtx l c fun _ => { k with pc := k.pc + 1 }) := by
  rw [exec_din, execDin, micro_goN h rfl howner]
  exact congrArg _ (burst_of_ptrOk hptr)

/-! Status reads, waits, offsets (R58, R59). -/

theorem stat_fetched {d : Fin 16} {enh : Bool} {st : NandStatus}
    (h : s.fetches l c (microword 0x14 (d.val * 2 ^ 15 + (if enh then 1 else 0))) e k) (howner : s.lanes[l].owner = some c) :
    exec (.stat l c d enh st) s = .next ((s.updLane l fun x => { x with bus := x.bus ++ [.status enh] }).updCtx l c fun _ =>
      { k with nand := st, w := k.w.set d (st.raw.setWidth 32), pc := k.pc + 1 }) := by
  rw [exec_stat, execStat, micro_goN h rfl howner]
  rfl

theorem wrdy_fetched {a : Fin 16} {st : NandStatus} (h : s.fetches l c (microword 0x15 (a.val * 2 ^ 15)) e k) :
    exec (.wrdy l c a st) s = .next
      ((s.updLane l fun x => { x with bus := x.bus ++ [.status false] }).updCtx l c fun _ => { k with nand := st, t := !st.ready, pc := k.pc + 1 }) := by
  rw [exec_wrdy, execWrdy, micro_go h rfl rfl]
  rfl

theorem tim_fetched {i : Byte} (h : s.fetches l c (microword 0x16 i.toNat) e k) :
    exec (.tim l c i) s = .next (s.updCtx l c fun _ => { k with pc := k.pc + 1 }) := by
  rw [exec_tim, execTim, micro_go h rfl rfl]
  rfl

theorem wait_fetched {a : Fin 16} (h : s.fetches l c (microword 0x17 (a.val * 2 ^ 15)) e k) :
    exec (.wait l c a) s = .next (s.updCtx l c fun _ => { k with pc := k.pc + 1 }) := by
  rw [exec_wait, execWait, micro_go h rfl rfl]
  rfl

theorem lvl_noOffsets_fetched {d a : Fin 16} {b : Byte} (h : s.fetches l c (microword 0x18 (d.val * 2 ^ 15 + a.val * 2 ^ 11)) e k)
    (hmin : 1 ≤ (k.w[a]).toNat) (hmax : (k.w[a]).toNat ≤ 63) (hoffsets : e.desc.offsets = 0) :
    exec (.lvl l c d a b) s = .next (s.updCtx l c fun _ => { k with w := k.w.set d 0, pc := k.pc + 1 }) := by
  rw [exec_lvl, execLvl, micro_go h rfl rfl]
  dsimp only
  rw [if_neg (by omega), if_pos hoffsets]
  rfl

theorem lvl_fetched {d a : Fin 16} {b : Byte} (h : s.fetches l c (microword 0x18 (d.val * 2 ^ 15 + a.val * 2 ^ 11)) e k)
    (hmin : 1 ≤ (k.w[a]).toNat) (hmax : (k.w[a]).toNat ≤ 63) (hoffsets : e.desc.offsets ≠ 0)
    (hptr : s.ptrCheck (dieOfLane l) e.desc.offsets 64 false = none) :
    exec (.lvl l c d a b) s = .next (s.updCtx l c fun _ => { k with w := k.w.set d (b.signExtend 32), pc := k.pc + 1 }) := by
  rw [exec_lvl, execLvl, micro_go h rfl rfl]
  dsimp only
  rw [if_neg (by omega), if_neg hoffsets, hptr]
  rfl

/-! Training steps (R50, R59): step 5 selects the rate that W0 names. -/

theorem phy_fetched {st : Fin 16} (h : s.fetches l c (microword 0x19 st.val) e k) (hst : st.val < 5) :
    exec (.phy l c st) s = .next (((s.updLane l fun x => { x with train := { x.train with running := true } }).phyStep l
      (match s.lanes[l].ce with | some n => [n] | none => s.ces l) st.val).updCtx l c fun _ => { k with pc := k.pc + 1 }) := by
  rw [exec_phy, execPhy, micro_go h (by simp; omega) rfl, if_neg (by omega)]
  rfl

theorem phy_noRate_fetched {st : Fin 16} (h : s.fetches l c (microword 0x19 st.val) e k) (hst : st.val = 5) (hw : (k.w[(0 : Fin 16)]).toNat = 3) :
    exec (.phy l c st) s = .next
      ((s.updLane l fun x => { x with train := { x.train with rate := none } }).updCtx l c fun _ => { k with pc := k.pc + 1 }) := by
  rw [exec_phy, execPhy, micro_go h (by simp [hst]) rfl, if_pos hst]
  dsimp only
  rw [dif_neg (by omega), if_pos hw]
  rfl

theorem phy_badRate_fetched {st : Fin 16} (h : s.fetches l c (microword 0x19 st.val) e k) (hst : st.val = 5)
    (hw : 3 < (k.w[(0 : Fin 16)]).toNat) :
    exec (.phy l c st) s = .next (s.microFault l c e k.pc 6) := by
  rw [exec_phy, execPhy, micro_go h (by simp [hst]) rfl, if_pos hst]
  dsimp only
  rw [dif_neg (by omega), if_neg (by omega)]

theorem phy_rate_fetched {st : Fin 16} {r : Fin 3} (h : s.fetches l c (microword 0x19 st.val) e k) (hst : st.val = 5)
    (hw : (k.w[(0 : Fin 16)]).toNat = r.val) :
    exec (.phy l c st) s = .next
      ((s.updLane l fun x => { x with train := { x.train with rate := some r } }).updCtx l c fun _ => { k with pc := k.pc + 1 }) := by
  rw [exec_phy, execPhy, micro_go h (by simp [hst]) rfl, if_pos hst]
  simp only [hw, r.isLt, dite_true]
  rfl

/-! Events and completion (R41, R55, R59, R60). -/

theorem evt_fetched {n : Fin 8} (h : s.fetches l c (microword 0x1D n.val) e k) :
    exec (.evt l c n) s = .next
      ((s.raise2 (laneSrc l n.val) (eventLun e.desc) (eventTag e.desc)).updCtx l c fun _ => { k with pc := k.pc + 1 }) := by
  rw [exec_evt, execEvt, micro_go h rfl rfl]
  rfl

theorem done_fetched {code : Byte} {st : LaneStatus} {q : QEntry} (h : s.fetches l c (microword 0x1E code.toNat) e k)
    (hst : laneStatusOf code.toNat = some st) (hprogram : st ≠ .programFail) (herase : st ≠ .eraseFail) (htimeout : st ≠ .timeout)
    (hq : s.lanes[l].queue.find? (fun x => x.desc.tag == e.desc.tag) = some q) :
    exec (.done l c code) s = .next (s.settle l q st k.nand.raw 0 0) := by
  rw [exec_done, execDone, micro_go h (by rw [hst]; rfl) rfl, hst]
  cases st <;> simp_all

theorem done_programFail_fetched {q : QEntry} (h : s.fetches l c (microword 0x1E 1) e k)
    (hq : (s.programFailed l e.desc).lanes[l].queue.find? (fun x => x.desc.tag == e.desc.tag) = some q) :
    exec (.done l c 1) s = .next ((s.programFailed l e.desc).settle l q .programFail k.nand.raw 0 0) := by
  rw [exec_done, execDone]
  refine (micro_go h rfl rfl).trans ?_
  have hst : laneStatusOf ((1 : Byte).toNat) = some .programFail := rfl
  simp only [hst, hq]

theorem done_eraseFail_fetched {q : QEntry} (h : s.fetches l c (microword 0x1E 2) e k)
    (hq : (s.eraseFailed l e.desc).lanes[l].queue.find? (fun x => x.desc.tag == e.desc.tag) = some q) :
    exec (.done l c 2) s = .next ((s.eraseFailed l e.desc).settle l q .eraseFail k.nand.raw 0 0) := by
  rw [exec_done, execDone]
  refine (micro_go h rfl rfl).trans ?_
  have hst : laneStatusOf ((2 : Byte).toNat) = some .eraseFail := rfl
  simp only [hst, hq]

theorem trap_fetched {code : Byte} (h : s.fetches l c (microword 0x1F code.toNat) e k) :
    exec (.trap l c code) s = .next (s.microFault l c e k.pc 5) := by
  rw [exec_trap, execTrap, micro_go h rfl rfl]

end Fetched

/-- Settles O6: the equation of each microword. -/
theorem microcodeComputes : Obligations.MicrocodeComputes := by
  unfold Obligations.MicrocodeComputes
  exact fun s l c e k => ⟨nop_fetched, fun t => jmp_fetched, fun b t v => brc_fetched, fun t => call_fetched, fun t rest => ret_fetched,
    fun d v => ldi_fetched, fun d v => ldu_fetched, fun d w => ldd_fetched, fun d a v => addi_fetched, fun d a b f r => alu_fetched,
    fun a b => cmp_fetched, fun d t i p v => tbl_fetched, fun d t => loop_fetched, susp_fetched, fun a w => sto_fetched⟩

/-- Settles O7: the equation of each microword. -/
theorem microcodeActsOnChannel : Obligations.MicrocodeActsOnChannel := by
  unfold Obligations.MicrocodeActsOnChannel
  refine fun s l c e k => ⟨fun h => ⟨sync_fetched h, fun o => sync_waits_fetched h⟩, yld_fetched, fun n => cen_fetched, cen_deselects_fetched,
    fun howner => ⟨fun v h => cmd_fetched h howner, fun v b p hp hb h => cmd_fromProfile_fetched hp hb h howner,
      fun a n hmin hmax h => adr_fetched hmin hmax h howner, fun a n hmin hmax h => adx_fetched hmin hmax h howner,
      fun a b hptr h => dout_fetched hptr h howner, fun a b dec hptr h => din_fetched hptr h howner, fun d enh st h => stat_fetched h howner⟩,
    fun a st => wrdy_fetched, fun i => tim_fetched, fun a => wait_fetched, fun d a b h hmin hmax => ⟨lvl_noOffsets_fetched h hmin hmax, lvl_fetched h hmin hmax⟩,
    fun st h => ⟨phy_fetched h, phy_noRate_fetched h, phy_badRate_fetched h, fun r => phy_rate_fetched h⟩, fun n => evt_fetched,
    fun code st q => done_fetched, fun q => done_programFail_fetched, fun q => done_eraseFail_fetched, fun code => trap_fetched⟩

end Sys2Proof.Machine
end

