-- ==== Sys2Proof/Proofs/MicrocodeFaults.lean ====
section
/-! The microcode faults of R60, and what each does to its lane. -/

namespace Sys2Proof.Machine

section Fetched

variable {s : State} {l : LaneIx} {c : CtxIx} {e : QEntry} {k : Ctx}

/-! The fetch: unmapped space and patch RAM beyond the loaded patch. -/

/-- A fetch from an address at which no microword stands. -/
def LaneSt.noWordAt (x : LaneSt) (n : BitVec 14) : Prop := 0x2400 ≤ n.toNat ∨ (0x2000 ≤ n.toNat ∧ x.patch.words.length ≤ n.toNat - 0x2000)

theorem micro_noWord {word : BitVec 24} {inR nc : Bool} {go : State → QEntry → Ctx → State} (hctx : s.lanes[l].ctxs[c] = some k)
    (hwaits : k.waits = false) (hentry : s.lanes[l].queue.find? (fun e => e.ctx == some c) = some e)
    (hno : s.lanes[l].noWordAt (s.lanes[l].fetchAt k.pc)) :
    s.micro l c word inR nc go = .next (s.microFault l c e (s.lanes[l].fetchAt k.pc) 4) := by
  unfold LaneSt.noWordAt at hno
  unfold State.micro
  simp only [hctx, hentry, hwaits]
  rw [if_neg (by simp), if_pos (by omega)]

theorem microword_noWord {i : Instr} (hi : microOf i = some (l, c)) (hctx : s.lanes[l].ctxs[c] = some k) (hwaits : k.waits = false)
    (hentry : s.lanes[l].queue.find? (fun e => e.ctx == some c) = some e) (hno : s.lanes[l].noWordAt (s.lanes[l].fetchAt k.pc)) :
    exec i s = .next (s.microFault l c e (s.lanes[l].fetchAt k.pc) 4) := by
  cases i
  case nop | jmp | brc | call | ret | ldi | ldu | ldd | addi | alu | cmp | sync | yld | cen | adr | adx | dout | din | stat | wrdy | tim | wait |
      lvl | phy | loop | susp | sto | evt | done | trap =>
    cases hi
    dsimp only [exec]
    exact micro_noWord hctx hwaits hentry hno
  case tbl | cmd =>
    cases hi
    dsimp only [exec, execTbl, execCmd]
    exact micro_noWord hctx hwaits hentry hno
  all_goals cases hi

/-! Reserved codes, the return stack, TRAP (causes 1 to 3, 5, 6). -/

theorem condition_reserved {n : Nat} (hn : 12 ≤ n) : s.condition l e k n = none := by
  obtain ⟨m, rfl⟩ := Nat.exists_eq_add_of_le' hn
  rfl

theorem brc_reserved {b : BitVec 5} {t : BitVec 14} (hb : 12 ≤ b.toNat) (h : s.fetches l c (microword 0x02 (b.toNat * 2 ^ 14 + t.toNat)) e k) :
    exec (.brc l c b t) s = .next (s.microFault l c e k.pc 1) := by
  rw [exec_brc, execBrc, micro_go h rfl rfl, condition_reserved hb]

theorem call_full {t : BitVec 14} (h : s.fetches l c (microword 0x03 t.toNat) e k) (hfull : 4 ≤ k.stack.length) :
    exec (.call l c t) s = .next (s.microFault l c e k.pc 2) := by
  rw [exec_call, execCall, micro_go h rfl rfl, if_pos hfull]

theorem ret_empty (h : s.fetches l c (microword 0x04 0) e k) (hempty : k.stack = []) :
    exec (.ret l c) s = .next (s.microFault l c e k.pc 3) := by
  rw [exec_ret, execRet, micro_go h rfl rfl, hempty]

theorem cen_reserved {n : Fin 16} (hmin : 8 ≤ n.val) (hmax : n.val < 15) (h : s.fetches l c (microword 0x0E n.val) e k) :
    exec (.cen l c n) s = .next (s.microFault l c e k.pc 6) := by
  have hcode : (decide (n.val < 8) || n == 15) = false := by
    have hne : n ≠ 15 := fun heq => by rw [heq] at hmax; exact absurd hmax (by decide)
    simp [hne, hmin]
  rw [exec_cen, execCen, micro_bad h hcode]

theorem sto_word0 {a : Fin 16} (h : s.fetches l c (microword 0x1C (a.val * 2 ^ 15)) e k) :
    exec (.sto l c a 0) s = .next (s.microFault l c e k.pc 6) := by
  have hword : a.val * 2 ^ 15 + (0 : Fin 4).val = a.val * 2 ^ 15 := Nat.add_zero _
  rw [exec_sto, execSto, hword]
  exact micro_bad h rfl

theorem phy_reserved {st : Fin 16} (hst : 5 < st.val) (h : s.fetches l c (microword 0x19 st.val) e k) :
    exec (.phy l c st) s = .next (s.microFault l c e k.pc 6) := by
  have hcode : decide (st.val ≤ 5) = false := decide_eq_false (by omega)
  rw [exec_phy, execPhy, micro_bad h hcode]

/-! Channel cycles without the channel (cause 7). -/

section NotOwner

variable (howner : s.lanes[l].owner ≠ some c)
include howner

theorem cmd_notOwner {v : Byte} (h : s.fetches l c (microword 0x0F v.toNat) e k) : exec (.cmd l c false v) s = .next (s.microFault l c e k.pc 7) := by
  have hword : (if false = true then 2 ^ 18 else 0) + v.toNat = v.toNat := Nat.zero_add _
  rw [exec_cmd, execCmd, hword]
  exact micro_own h rfl howner

theorem adr_notOwner {a : Fin 16} {n : BitVec 3} (hmin : 1 ≤ n.toNat) (hmax : n.toNat ≤ 4)
    (h : s.fetches l c (microword 0x10 (a.val * 2 ^ 15 + n.toNat)) e k) : exec (.adr l c a n) s = .next (s.microFault l c e k.pc 7) := by
  rw [exec_adr, execAdr, micro_own h (by simp [hmin, hmax]) howner]

theorem adx_notOwner {a : Fin 16} {n : BitVec 2} (hmin : 1 ≤ n.toNat) (hmax : n.toNat ≤ 2)
    (h : s.fetches l c (microword 0x11 (a.val * 2 ^ 15 + n.toNat)) e k) : exec (.adx l c a n) s = .next (s.microFault l c e k.pc 7) := by
  rw [exec_adx, execAdx, micro_own h (by simp [hmin, hmax]) howner]

theorem dout_notOwner {a b : Fin 16} (h : s.fetches l c (microword 0x12 (a.val * 2 ^ 15 + b.val * 2 ^ 11)) e k) :
    exec (.dout l c a b) s = .next (s.microFault l c e k.pc 7) := by
  rw [exec_dout, execDout, micro_own h rfl howner]

theorem din_notOwner {a b : Fin 16} {dec : Bool}
    (h : s.fetches l c (microword 0x13 (a.val * 2 ^ 15 + b.val * 2 ^ 11 + (if dec then 1 else 0))) e k) :
    exec (.din l c a b dec) s = .next (s.microFault l c e k.pc 7) := by
  rw [exec_din, execDin, micro_own h rfl howner]

theorem stat_notOwner {d : Fin 16} {enh : Bool} {st : NandStatus} (h : s.fetches l c (microword 0x14 (d.val * 2 ^ 15 + (if enh then 1 else 0))) e k) :
    exec (.stat l c d enh st) s = .next (s.microFault l c e k.pc 7) := by
  rw [exec_stat, execStat, micro_own h rfl howner]

end NotOwner

end Fetched

/-! What a microcode fault does (R60). -/

/-- The fault is recorded where none is yet, and the LUN of a context that holds the channel is reset. -/
def LaneSt.noteFault (x : LaneSt) (c : CtxIx) (e : QEntry) (addr : BitVec 14) (cause : BitVec 4) : LaneSt :=
  { (if x.owner = some c then x.cycle (.lunReset e.desc.unit) else x) with
    ucodeFault := match x.ucodeFault with | some f => some f | none => some { cause := cause, ctx := c, addr := addr } }

theorem LaneSt.noteFault_spec (x : LaneSt) (c : CtxIx) (e : QEntry) (addr : BitVec 14) (cause : BitVec 4) :
    (x.noteFault c e addr cause).ucodeFault = some (x.ucodeFault.getD ⟨cause, c, addr⟩) ∧
    (x.noteFault c e addr cause).bus = x.bus ++ (if x.owner = some c then [BusCycle.lunReset e.desc.unit] else []) ∧
    (x.noteFault c e addr cause).completions = x.completions ∧ (x.noteFault c e addr cause).ctxs = x.ctxs := by
  refine ⟨?_, ?_, ?_, ?_⟩
  · cases hfault : x.ucodeFault <;> simp [LaneSt.noteFault, hfault]
  all_goals by_cases howner : x.owner = some c <;> simp [LaneSt.noteFault, LaneSt.cycle, howner]

/-- The state in which a faulting microword's descriptor completes. -/
def State.faultNoted (s : State) (l : LaneIx) (c : CtxIx) (e : QEntry) (addr : BitVec 14) (cause : BitVec 4) : State :=
  (s.updLane l fun x => x.noteFault c e addr cause).raiseLane l 4 e.desc

theorem State.microFault_eq (s : State) (l : LaneIx) (c : CtxIx) (e : QEntry) (addr : BitVec 14) (cause : BitVec 4) :
    s.microFault l c e addr cause =
      (s.faultNoted l c e addr cause).settle l e .ucodeFault
        ((s.updLane l fun x => x.noteFault c e addr cause).lastNand l e) addr 0 := rfl

theorem State.faultNoted_lane (s : State) (l : LaneIx) (c : CtxIx) (e : QEntry) (addr : BitVec 14) (cause : BitVec 4) :
    (s.faultNoted l c e addr cause).lanes[l].ucodeFault = some (s.lanes[l].ucodeFault.getD ⟨cause, c, addr⟩) ∧
    (s.faultNoted l c e addr cause).lanes[l].bus = s.lanes[l].bus ++ (if s.lanes[l].owner = some c then [BusCycle.lunReset e.desc.unit] else []) ∧
    (s.faultNoted l c e addr cause).lanes[l].completions = s.lanes[l].completions ∧
    (s.faultNoted l c e addr cause).lanes[l].ctxs = s.lanes[l].ctxs := by
  simpa [State.faultNoted, State.raiseLane] using s.lanes[l].noteFault_spec c e addr cause

theorem State.microFault_spec (s : State) (l : LaneIx) (c : CtxIx) (e : QEntry) (addr : BitVec 14) (cause : BitVec 4) (hctx : e.ctx = some c) :
    ∃ (t : State) (r : Completion), s.microFault l c e addr cause = (t.onDone ⟨l, e.desc, e.purpose, .ucodeFault⟩).turns l ∧
      t.lanes[l].ucodeFault = some (s.lanes[l].ucodeFault.getD ⟨cause, c, addr⟩) ∧
      t.lanes[l].bus = s.lanes[l].bus ++ (if s.lanes[l].owner = some c then [BusCycle.lunReset e.desc.unit] else []) ∧
      t.lanes[l].completions = s.lanes[l].completions ++ [r] ∧ r.tag = e.desc.tag ∧ r.status = .ucodeFault ∧ r.ucodeAddr = addr.setWidth 16 ∧
      t.lanes[l].ctxs = s.lanes[l].ctxs.set c none := by
  rw [State.microFault_eq, State.settle]
  obtain ⟨hfault, hbus, hcompletions, hctxs⟩ := s.faultNoted_lane l c e addr cause
  obtain ⟨hdone, hfreed, hbus', hfault', r, hposted, htag, hstatus, haddr⟩ :=
    finishDesc_spec (s.faultNoted l c e addr cause) l e .ucodeFault
      ((s.updLane l fun x => x.noteFault c e addr cause).lastNand l e) addr 0 c hctx
  exact ⟨_, r, by rw [← hdone], hfault'.trans hfault, hbus'.trans hbus, hposted.trans (by rw [hcompletions]), htag, hstatus, haddr rfl,
    hfreed.trans (by rw [hctxs])⟩

/-- Settles O8: the fetch refuses every microword alike, each reserved operand and each channel cycle without the channel is a fault of its cause, and a fault
completes its descriptor. -/
theorem microcodeFaultStopsOneContext : Obligations.MicrocodeFaultStopsOneContext := by
  unfold Obligations.MicrocodeFaultStopsOneContext
  refine ⟨fun s i l c e k hi hctx hwaits hentry hno => microword_noWord hi hctx hwaits hentry hno,
    fun s l c e k => ⟨fun b t => brc_reserved, fun t => call_full, ret_empty, fun code => trap_fetched, fun n => cen_reserved, fun a => sto_word0,
      fun st => phy_reserved, fun howner => ?channel⟩,
    fun s l c e addr cause => s.microFault_spec l c e addr cause⟩
  exact ⟨fun v => cmd_notOwner howner, fun a n => adr_notOwner howner, fun a n => adx_notOwner howner, fun a b => dout_notOwner howner,
    fun a b dec => din_notOwner howner, fun d enh st => stat_notOwner howner⟩

end Sys2Proof.Machine
end

