-- ==== Sys2Proof/Proofs/SwarmReceive.lean ====
section
/-! Receiving a message of a swarm operation: what `receive` makes of it (R205, R256, R257). -/

namespace Sys2Proof.Machine

/-- What an earlier request of the same operation was answered with. -/
def State.answerOf (s : State) (hdr : MsgHdr) : Option (MsgHdr × LMsg) :=
  s.swarm.answered.find? fun a => a.1.peer == hdr.peer && a.1.opid == hdr.opid

theorem exec_of_rxOf {i : Instr} {s : State} {hdr : MsgHdr} {b : RxBody} (h : rxOf i = some (hdr, b)) :
    exec i s = .next (s.receive hdr b).settleEpoch := by
  cases i <;> cases h <;> rfl

section Received

variable {s : State} {hdr : MsgHdr} {b : RxBody}

theorem receive_unheard (h : s.hears hdr.peer = false) : s.receive hdr b = s := by
  rw [State.receive, h]; rfl

theorem receive_answered {a : MsgHdr × LMsg} (hears : s.hears hdr.peer = true) (hreq : rxReply b = false) (ha : s.answerOf hdr = some a) :
    s.receive hdr b = if rxPayload b then s else s.send hdr a.2 := by
  unfold State.answerOf at ha
  simp [State.receive, hears, hreq, ha]

/-- A reply, or a request with no answer yet, is judged by its epoch. -/
theorem receive_fresh (hears : s.hears hdr.peer = true) (hnew : rxReply b = true ∨ s.answerOf hdr = none) :
    s.receive hdr b =
      if hdr.epoch = s.epoch ∨ some hdr.epoch = s.swarm.trailing then s.handle hdr b
      else if hdr.epoch < s.epoch then (if rxReply b then s else s.nak hdr nakStale (rxType b))
      else if 256 ≤ (s.swarm.heldMsgs.filter fun x => x.1.peer == hdr.peer).length then s.nak hdr nakAhead (rxType b)
      else s.updSwarm fun w => { w with heldMsgs := w.heldMsgs ++ [(hdr, b)] } := by
  have hnone : (if rxReply b then none else s.answerOf hdr) = none := by
    rcases hnew with h | h <;> simp [h]
  unfold State.answerOf at hnone
  rw [State.receive, hears, hnone]
  rfl

theorem receive_taken (h : s.takesMsg hdr b) : s.receive hdr b = s.handle hdr b := by
  obtain ⟨hears, hepoch, hnew⟩ := h
  rw [receive_fresh hears hnew, if_pos hepoch]

theorem receive_stale (hears : s.hears hdr.peer = true) (hnew : rxReply b = true ∨ s.answerOf hdr = none) (hold : hdr.epoch < s.epoch)
    (hlast : some hdr.epoch ≠ s.swarm.trailing) : s.receive hdr b = if rxReply b then s else s.nak hdr nakStale (rxType b) := by
  rw [receive_fresh hears hnew, if_neg (not_or.mpr ⟨Nat.ne_of_lt hold, hlast⟩), if_pos hold]

theorem receive_ahead (hears : s.hears hdr.peer = true) (hnew : rxReply b = true ∨ s.answerOf hdr = none) (hnext : s.epoch < hdr.epoch)
    (hlast : some hdr.epoch ≠ s.swarm.trailing) :
    s.receive hdr b = if 256 ≤ (s.swarm.heldMsgs.filter fun x => x.1.peer == hdr.peer).length then s.nak hdr nakAhead (rxType b)
      else s.updSwarm fun w => { w with heldMsgs := w.heldMsgs ++ [(hdr, b)] } := by
  rw [receive_fresh hears hnew, if_neg (not_or.mpr ⟨Nat.ne_of_gt hnext, hlast⟩), if_neg (Nat.not_lt_of_gt hnext)]

/-- A command that delivers a message that is taken runs the message's handler. -/
theorem exec_of_taken {i : Instr} (hi : rxOf i = some (hdr, b)) (h : s.takesMsg hdr b) : exec i s = .next (s.handle hdr b).settleEpoch := by
  rw [exec_of_rxOf hi, receive_taken h]

end Received

/-- Settles O15: every command that delivers a message is `receive`, whose branches are R205's and R256's cases. -/
theorem swarmMessagesAreTaken : Obligations.SwarmMessagesAreTaken := by
  refine ⟨fun i s hdr b hi => ?_, fun s hdr reason refused detail hears => ?_⟩
  · rw [exec_of_rxOf hi]
    refine ⟨fun h => ?_, fun h => ?_, fun a hears hreq ha => ?_, fun hears hnew => ⟨fun hold hlast => ?_, fun hnext hlast => ⟨fun hroom => ?_, fun hfull => ?_⟩⟩⟩
    · rw [receive_unheard h]
    · rw [receive_taken h]
    · rw [receive_answered hears hreq ha]
    · rw [receive_stale hears hnew hold hlast]
    · rw [receive_ahead hears hnew hnext hlast, if_neg (Nat.not_le_of_lt hroom)]
    · rw [receive_ahead hears hnew hnext hlast, if_pos hfull]
  · rw [exec_nak, execNak, hears]
    rfl

end Sys2Proof.Machine
end

