-- ==== Sys2Proof/Proofs/StripeMessages.lean ====
section
/-! What the messages of stripes change at leaders, holders and members (R211 to R269): one lemma per message and case, about its handler. -/

namespace Sys2Proof.Machine

section Handlers

variable {s : State} {hdr : MsgHdr}

/-! SEAL_NOTICE and SLOT_ASSIGN. -/

theorem onSealNotice_otherGroup {g : RegionIx} {u : Fin 16} {b : Nat} {gd : GroupDesc} {p me : MemberEntry} (hgroup : s.ownGroup = some gd)
    (hpeer : s.memberEntry hdr.peer = some p) (hown : s.ownEntry = some me) (hne : p.group ≠ gd.group) :
    s.onSealNotice hdr g u b = s.nak hdr nakWrongGroup 0x10 := by
  simp only [State.onSealNotice, hgroup, hpeer, hown, if_pos hne]

theorem onSealNotice_fits {g : RegionIx} {u : Fin 16} {b : Nat} {gd : GroupDesc} {p me : MemberEntry} {r : StripeRec}
    (hgroup : s.ownGroup = some gd) (hpeer : s.memberEntry hdr.peer = some p) (hown : s.ownEntry = some me) (hsame : p.group = gd.group)
    (hwritable : s.readOnlyNow = false) (hopen : s.swarm.leadClosed = false) (hme : me.state = .active) (hp : p.state = .active)
    (hr : oldestStripe (s.openStripes.filter fun r => s.fits r hdr.peer) = some r) :
    s.onSealNotice hdr g u b = s.assignPosition hdr r := by
  simp [State.onSealNotice, hgroup, hpeer, hown, hsame, hwritable, hopen, hme, hp, hr]

theorem onSlotAssign_noNotice {st pos m : Nat} {hs : List Nat}
    (hnone : (s.answeredBy hdr).swarm.notices.find? (fun n => n.opids.contains hdr.opid) = none) :
    s.onSlotAssign hdr st pos m hs = (s.answeredBy hdr).send hdr (.nak nakWithdrawn 0x11 0) := by
  simp only [State.onSlotAssign, hnone]

theorem onSlotAssign_sealed {st pos m : Nat} {hs : List Nat} {n : Notice}
    (hn : (s.answeredBy hdr).swarm.notices.find? (fun n => n.opids.contains hdr.opid) = some n)
    (hstate : ((s.answeredBy hdr).seg n.region n.band n.seg.val).state = .sealed ∨ ((s.answeredBy hdr).seg n.region n.band n.seg.val).state = .noticed)
    (hreclaim : (s.answeredBy hdr).underReclaim n.region n.band = false) :
    s.onSlotAssign hdr st pos m hs = (hs.take m).zipIdx.foldl (fun s x => s.startWork
      { region := n.region, band := n.band, seg := n.seg.val, stripe := st, position := pos, index := x.2, holder := x.1, item := .contrib,
        running := false, refused := none, deferred := false })
      (((s.answeredBy hdr).updSeg n.region n.band n.seg.val fun e =>
        { e with state := .assigned, stripe := st, position := pos, done := 0, retracted := 0 }).updSwarm
          fun w => { w with holderMap := (st, hs.take m) :: w.holderMap.filter fun x => x.1 != st }) := by
  have htaken : ¬ (((s.answeredBy hdr).seg n.region n.band n.seg.val).state ≠ .sealed ∧
      ((s.answeredBy hdr).seg n.region n.band n.seg.val).state ≠ .noticed) := by tauto
  simp only [State.onSlotAssign, hn, if_neg htaken, hreclaim]
  rfl

/-! STRIPE_RECORD and its acknowledgement. -/

theorem onStripeRecord_older {restore : Bool} {m old : StripeRec} (hold : s.stripe? m.stripe = some old) (hlt : m.version < old.version) :
    s.onStripeRecord hdr restore m = s.sendDurable (s.stripeRegion m.stripe) hdr (.stripeRecordAck m.stripe old.version) true := by
  simp only [State.onStripeRecord, hold, if_pos hlt]

theorem onStripeRecord_first {m : StripeRec} (hnone : s.stripe? m.stripe = none) (hwritable : s.readOnlyNow = false)
    (hroom : s.tableFull m.stripe = false) (hstays : ∀ e, s.ownEntry = some e → e.state ≠ .leaving) :
    s.onStripeRecord hdr false m =
      (((s.putStripe (mergeRecord { m with data := [], cur := none, new := none, applying := none, newthru := 0 } m m.mypos)).sendDurable
        ((s.putStripe (mergeRecord { m with data := [], cur := none, new := none, applying := none, newthru := 0 } m m.mypos)).stripeRegion m.stripe) hdr
        (.stripeRecordAck m.stripe m.version) true).advanceStripe m.stripe).checkParity := by
  have hleaving : (s.ownEntry.map fun e => e.state == .leaving).getD false = false := by
    cases he : s.ownEntry with
    | none => rfl
    | some e => simpa using hstays e he
  simp only [State.onStripeRecord, hnone, hwritable, hroom, hleaving]
  rfl

theorem onStripeAck_inForce {st v : Nat} {r : StripeRec} (hr : (s.answeredBy hdr).stripe? st = some r) (hv : r.version = v) :
    s.onStripeAck hdr st v = (((s.answeredBy hdr).putStripe { r with
      holders := r.holders.map fun h => if h.member == hdr.peer then { h with acked := true } else h }).assignFreed st hdr.peer).backlogFell := by
  simp only [State.onStripeAck, hr, hv, ne_eq, not_true_eq_false, if_false]

/-! CONTRIB_DATA: the payloads of a contribution at the holder of their index. -/

/-- A payload of a contribution that the holder may take: for its own index and a position neither applied nor retracted. -/
structure State.PayloadFits (s : State) (st pos i first n : Nat) (r : StripeRec) : Prop where
  record : s.stripe? st = some r
  unapplied : ∃ d, r.data[pos]? = some d ∧ d.applied = false ∧ d.retracted = false
  index : r.mypos = i
  restored : s.unrestored r = false
  range : 0 < n ∧ n ≤ 2 ∧ first + n ≤ 262144

section Payload

variable {st pos i first n : Nat} {r : StripeRec}

theorem takePayload_first {t : State} {run : Nat × Nat} (h : s.PayloadFits st pos i 0 n r) (hidle : r.applying = none)
    (hrun : s.takeRun (s.stripeRegion st) .accumulation .slc = (t, some run)) :
    s.takePayload hdr 0x20 st pos i 0 n false = (((t.putStripe { r with
      state := if r.state = .complete then .closed else r.state, applying := some (pos, false), newthru := 0, new := some run }).dropRx st).updSwarm
        fun w => { w with rxRuns := w.rxRuns ++ [{ stripe := st, hdr := hdr, next := n }] }).checkParity := by
  obtain ⟨hrec, ⟨d, hd, happ, hret⟩, hix, hres, hpos, hmax, hend⟩ := h
  have hrange : ¬ (n = 0 ∨ 2 < n ∨ 262144 < n) := by omega
  simp [State.takePayload, hrec, hd, happ, hret, hix, hres, hrange, hidle, hrun]

theorem takePayload_busy {q : Nat × Bool} (h : s.PayloadFits st pos i 0 n r) (hq : r.applying = some q) (hother : q ≠ (pos, false)) :
    s.takePayload hdr 0x20 st pos i 0 n false = s.nak hdr nakBusy 0x20 := by
  obtain ⟨hrec, ⟨d, hd, happ, hret⟩, hix, hres, hpos, hmax, hend⟩ := h
  have hrange : ¬ (n = 0 ∨ 2 < n ∨ 262144 < n) := by omega
  simp [State.takePayload, hrec, hd, happ, hret, hix, hres, hrange, hq, hother]

/-- A later payload of the run that is being received. -/
theorem takePayload_later {x : RxRun} (h : s.PayloadFits st pos i first n r) (hlater : 0 < first) (hx : s.rxRun? st = some x) (hsame : x.hdr = hdr) :
    s.takePayload hdr 0x20 st pos i first n false =
      if x.next ≠ first then ((s.raise 421).abandonRun st).nak hdr nakMalformed 0x20
      else
        let t := s.updSwarm fun w => { w with rxRuns := w.rxRuns.map fun y => if y.stripe == st then { y with next := first + n } else y }
        if (first + n) / 4096 = r.newthru then t else t.putStripe { r with newthru := (first + n) / 4096 } := by
  obtain ⟨hrec, ⟨d, hd, happ, hret⟩, hix, hres, hpos, hmax, hend⟩ := h
  have hrange : ¬ (n = 0 ∨ 2 < n ∨ 262144 < first + n) := by omega
  simp [State.takePayload, hrec, hd, happ, hret, hix, hres, if_neg hrange, Nat.ne_of_gt hlater, hx, hsame]

end Payload

/-! CONTRIB_DONE and RETRACT at a holder. -/

/-- The answer of CONTRIB_DONE (R219). -/
def State.ackContrib (s : State) (hdr : MsgHdr) (st pos i : Nat) : State :=
  s.sendDurable (s.stripeRegion st) hdr (.contribDone st pos i true) true

theorem runWhole_of {st : Nat} {x : RxRun} (hx : s.rxRun? st = some x) (hsame : x.hdr = hdr) (hend : x.next = 262144) : s.runWhole hdr st true = true := by
  simp [State.runWhole, hx, hsame, hend]

section Done

variable {st pos i : Nat} {r : StripeRec} {d : DataPos}

theorem onContribDone_again {ok : Bool} (hr : s.stripe? st = some r) (hd : r.data[pos]? = some d) (happ : d.applied = true) :
    s.onContribDone hdr st pos i ok = s.ackContrib hdr st pos i := by
  simp [State.onContribDone, hr, hd, happ, State.ackContrib]

theorem onContribDone_whole (hr : s.stripe? st = some r) (hd : r.data[pos]? = some d) (happ : d.applied = false) (hret : d.retracted = false)
    (hix : r.mypos = i) (hres : s.unrestored r = false) (hrun : r.applying = some (pos, false)) (hwhole : s.runWhole hdr st true = true) :
    s.onContribDone hdr st pos i true = (s.switchRun r pos false).ackContrib hdr st pos i := by
  simp [State.onContribDone, hr, hd, happ, hret, hix, hres, hrun, hwhole, State.ackContrib]

theorem onContribDone_badCrc (hr : s.stripe? st = some r) (hd : r.data[pos]? = some d) (happ : d.applied = false) (hret : d.retracted = false)
    (hix : r.mypos = i) (hres : s.unrestored r = false) (hrun : r.applying = some (pos, false)) :
    s.onContribDone hdr st pos i false = (s.abandonRun st).nak hdr nakCheckFail 0x21 := by
  have hnot : s.runWhole hdr st false = false := by
    cases hx : s.rxRun? st <;> simp [State.runWhole, hx]
  simp [State.onContribDone, hr, hd, happ, hret, hix, hres, hrun, hnot]

theorem onRetract_unsent {first n : Nat} {never release last behalf ok : Bool} (hr : s.stripe? st = some r) (hd : r.data[pos]? = some d)
    (hret : d.retracted = false) (hwhy : (never || release) = true) (hidle : r.applying = none) :
    s.onRetract hdr st pos i first n never release last behalf ok =
      ((s.putStripe (setPos r pos fun d => { d with retracted := true })).advanceStripe st).sendDurable
        (((s.putStripe (setPos r pos fun d => { d with retracted := true })).advanceStripe st).stripeRegion st) hdr
        (.retract st pos i 0 0 never release true behalf true 0) true := by
  rw [State.onRetract]
  simp only [hr, hd, if_pos hwhy, hidle, hret]
  dsimp only [Option.map_none, Option.getD_none]
  simp only [Bool.false_eq_true, if_false, hr]

theorem onRetract_whole {first n : Nat} {behalf : Bool} (hr : s.stripe? st = some r) (hd : r.data[pos]? = some d) (hret : d.retracted = false)
    (happ : d.applied = true) (hwhole : s.runWhole hdr st true = true) (hrun : r.applying = some (pos, true)) :
    s.onRetract hdr st pos i first n false false true behalf true =
      (s.switchRun r pos true).sendDurable ((s.switchRun r pos true).stripeRegion st) hdr
        (.retract st pos i 0 0 false false true behalf true 0) true := by
  simp [State.onRetract, hr, hd, hret, happ, hwhole, hrun]

end Done

/-! The replies at the data member. -/

theorem onContribReply_contrib {st pos i : Nat} {w : SegWork} (hw : (s.answeredBy hdr).workOf st pos i = some w) (hitem : w.item = .contrib) :
    s.onContribReply hdr st pos i = (((s.answeredBy hdr).endWork w).updSeg w.region w.band w.seg fun e =>
      if e.stripe = st then { e with done := setBit4 e.done i } else e).backlogFell := by
  simp only [State.onContribReply, hw, hitem, ne_eq, not_true_eq_false, if_false]

theorem onRetractReply_retract {st pos i : Nat} {w : SegWork} (hw : (s.answeredBy hdr).workOf st pos i = some w) (hitem : w.item ≠ .contrib) :
    s.onRetractReply hdr st pos i =
      ((((s.answeredBy hdr).endWork w).updSeg w.region w.band w.seg fun e => { e with
        retracted := setBit4 e.retracted i,
        state := if e.state = .retracting ∧ ((List.range ((s.answeredBy hdr).holdersOf st).length).all fun k => (setBit4 e.retracted i).getLsbD k) = true
          then .retracted else e.state }).backlogFell.checkRetracted w.region w.band).checkLeave := by
  simp only [State.onRetractReply, hw, if_neg hitem]

/-! REBUILD_READ at the member that holds what it asks for. -/

/-- The answer of REBUILD_READ (R259). -/
def State.answerRead (s : State) (hdr : MsgHdr) (st what i first n : Nat) (bad : List Nat) (r : Option StripeRec) : State :=
  s.answer hdr (.rebuildData st what i first n true false true bad r)

section Read

variable {st i first n : Nat} {rows : List RowFacts} {five : List Nat}

theorem onRebuildRead_record {r : StripeRec} (hr : s.stripe? st = some r) :
    s.onRebuildRead hdr st 2 i first n rows five = s.answerRead hdr st 2 i first n [] (some r) := by
  simp [State.onRebuildRead, hr, State.answerRead]

variable (hn : 0 < n) (hend : first + n ≤ 262144)
include hn hend

theorem onRebuildRead_segment {g : RegionIx} {e : SegEntry} (hseg : s.segmentAt st i = some (g, e)) :
    s.onRebuildRead hdr st 0 i first n rows five =
      if s.framesLoaded g e.band e.seg first n then
        (s.relocateFrames g e five).answerRead hdr st 0 i first n ((rows.filter fun x => x.unknown.contains i).map (·.slot)) none
      else s.updSwarm fun w => { w with loadWaits := w.loadWaits ++ [(hdr, .rebuildRead st 0 i first n rows five)] } := by
  have hok : ¬ (3 < 0 ∨ (0 ≠ 2 ∧ (n = 0 ∨ 262144 < first + n))) := by omega
  rw [State.onRebuildRead, if_neg hok, if_pos rfl, hseg]
  dsimp only
  cases s.framesLoaded g e.band e.seg first n <;> rfl

theorem onRebuildRead_noSegment (hseg : s.segmentAt st i = none) :
    s.onRebuildRead hdr st 0 i first n rows five = s.nak hdr nakNotHeld 0x30 := by
  have hok : ¬ (3 < 0 ∨ (0 ≠ 2 ∧ (n = 0 ∨ 262144 < first + n))) := by omega
  rw [State.onRebuildRead, if_neg hok, if_pos rfl, hseg]

theorem onRebuildRead_parity {r : StripeRec} (hr : s.stripe? st = some r) (hix : r.mypos = i) :
    s.onRebuildRead hdr st 1 i first n rows five =
      s.answerRead hdr st 1 i first n ((rows.filter fun x => x.unknown.contains i).map (·.slot)) none := by
  have hok : ¬ (3 < 1 ∨ (1 ≠ 2 ∧ (n = 0 ∨ 262144 < first + n))) := by omega
  rw [State.onRebuildRead, if_neg hok]
  simp [hr, hix, State.answerRead]

theorem onRebuildRead_noParity (hr : s.stripe? st = none) : s.onRebuildRead hdr st 1 i first n rows five = s.nak hdr nakNotHeld 0x30 := by
  have hok : ¬ (3 < 1 ∨ (1 ≠ 2 ∧ (n = 0 ∨ 262144 < first + n))) := by omega
  rw [State.onRebuildRead, if_neg hok]
  simp [hr]

theorem onRebuildRead_leader {r : StripeRec} (hr : s.stripe? st = some r) (hleads : s.leads r = true) :
    s.onRebuildRead hdr st 3 i first n rows five =
      (if ((rows.filter (rowLost i)).map (·.slot)).isEmpty then s else s.raise 416).answerRead hdr st 3 i first n
        ((rows.filter (rowLost i)).map (·.slot)) none := by
  have hok : ¬ (3 < 3 ∨ (3 ≠ 2 ∧ (n = 0 ∨ 262144 < first + n))) := by omega
  rw [State.onRebuildRead, if_neg hok]
  simp only [hr, hleads, State.answerRead]
  rfl

end Read

/-! A push of REBUILD_DATA at the adopter. -/

/-- The push of a header is open no longer. -/
def State.dropPush (s : State) (hdr : MsgHdr) : State := s.updSwarm fun w => { w with openPushes := w.openPushes.filter fun x => x.1 != hdr }

section Push

variable {st i n : Nat} {last ok : Bool} {rec' : Option StripeRec} {grans : List PushGran}

theorem onRebuildData_unasked {first : Nat} {bad : List Nat} :
    s.onRebuildData hdr st 0 i first n last false false ok bad rec' grans = (s.raise 421).nak hdr nakMalformed 0x31 := rfl

variable (hnew : s.swarm.openPushes.find? (fun x => x.1 == hdr) = none) (hroom : s.swarm.openPushes.length < 256)
include hnew hroom

theorem onPush_unknownNamespace (hns : grans.any (fun p => !s.nsids.contains p.nsid) = true) :
    s.onPush hdr st 0 i 0 n last ok rec' grans = (s.nak hdr nakNoNamespace 0x31).dropPush hdr := by
  have hopen : decide (256 ≤ s.swarm.openPushes.length) = false := decide_eq_false (Nat.not_le_of_lt hroom)
  simp only [State.onPush, hnew, hopen, hns]
  rfl

/-- The granules of a push's part are restored, and the part is noted. -/
theorem onPush_restores (hns : grans.any (fun p => !s.nsids.contains p.nsid) = false) (hadopted : s.swarm.adopted.isNone = false) :
    s.onPush hdr st 0 i 0 n false ok rec' grans =
      grans.foldl State.restoreGran ((s.dropPush hdr).updSwarm fun w => { w with openPushes := w.openPushes ++ [(hdr, 0 + n)] }) := by
  have hopen : decide (256 ≤ s.swarm.openPushes.length) = false := decide_eq_false (Nat.not_le_of_lt hroom)
  simp only [State.onPush, hnew, hopen, hns, hadopted]
  rfl

theorem onPush_last (hns : grans.any (fun p => !s.nsids.contains p.nsid) = false) (hadopted : s.swarm.adopted.isNone = false) :
    s.onPush hdr st 0 i 0 n true true rec' grans =
      (let t := grans.foldl State.restoreGran ((s.dropPush hdr).updSwarm fun w => { w with openPushes := w.openPushes ++ [(hdr, 0 + n)] })
       let u := (t.dropPush hdr).updSwarm fun w => { w with pushes := w.pushes + 1 }
       let u := if u.swarm.pushes % 4096 = 0 then u.raise 414 else u
       (u.sendDurable (u.stripeRegion st) hdr (.rebuildData st 0 i 0 0 true true true [] none) true).checkRestored) := by
  have hopen : decide (256 ≤ s.swarm.openPushes.length) = false := decide_eq_false (Nat.not_le_of_lt hroom)
  simp only [State.onPush, hnew, hopen, hns, hadopted]
  rfl

end Push

end Handlers

/-- Settles O17: each message that is taken runs its handler, and each handler's lemma gives the effect. -/
theorem stripeMessagesHaveTheirEffect : Obligations.StripeMessagesHaveTheirEffect := by
  refine ⟨fun s hdr g u b gd p me ht hgroup hpeer hown => ?_, fun s hdr st pos m v hs ht => ?_, fun s hdr restore m ht => ?_,
    fun s hdr st v r ht hr hv => ?_, fun s hdr st pos i first n r d ht hr hd hix hres hpos hmax hend happ hret => ?_,
    fun s hdr st pos i ok r d ht hr hd => ?_, fun s hdr st pos i first n never release last behalf ok r d ht hr hd hret => ?_,
    fun s hdr st pos i w hw => ?_, fun s hdr st what i first n rows five ht => ?_,
    fun s hdr st i first n last push ok bad rec' grans ht => ?_⟩
  · rw [exec_of_taken rfl ht, State.handle]
    exact ⟨fun hne => by rw [onSealNotice_otherGroup hgroup hpeer hown hne],
      fun r hsame hwritable hopen hme hp hfit => by rw [onSealNotice_fits hgroup hpeer hown hsame hwritable hopen hme hp hfit]⟩
  · rw [exec_of_taken rfl ht, State.handle]
    exact ⟨fun hnone => by rw [onSlotAssign_noNotice hnone], fun n hn hstate hreclaim => by rw [onSlotAssign_sealed hn hstate hreclaim]⟩
  · rw [exec_of_taken rfl ht, State.handle]
    refine ⟨fun old hold hlt => by rw [onStripeRecord_older hold hlt], fun hnone hwritable hroom hstays hfirst => ?_⟩
    subst hfirst
    rw [onStripeRecord_first hnone hwritable hroom hstays]
  · rw [exec_of_taken rfl ht, State.handle, onStripeAck_inForce hr hv]
  · rw [exec_of_taken rfl ht, State.handle]
    have hfits : s.PayloadFits st pos i first n r := ⟨hr, ⟨d, hd, happ, hret⟩, hix, hres, hpos, hmax, hend⟩
    refine ⟨fun t run hfirst hidle hrun => ?_, fun q hfirst hq hother => ?_, fun x hlater hx hsame => ⟨fun hnext => ?_, fun hnext => ?_⟩⟩
    · subst hfirst
      rw [takePayload_first hfits hidle hrun]
    · subst hfirst
      rw [takePayload_busy hfits hq hother]
    · rw [takePayload_later hfits hlater hx hsame, if_neg (not_not.mpr hnext)]
    · rw [takePayload_later hfits hlater hx hsame, if_pos hnext]
  · rw [exec_of_taken rfl ht, State.handle]
    refine ⟨fun happ => ?_, fun happ hret hix hres hrun => ⟨fun x hx hsame hend hok => ?_, fun hbad => ?_⟩⟩
    · rw [onContribDone_again hr hd happ]
      rfl
    · subst hok
      rw [onContribDone_whole hr hd happ hret hix hres hrun (runWhole_of hx hsame hend)]
      rfl
    · subst hbad
      rw [onContribDone_badCrc hr hd happ hret hix hres hrun]
  · rw [exec_of_taken rfl ht, State.handle]
    refine ⟨fun hwhy hidle => ?_, fun x hnever hrelease happ hlast hx hsame hend hok hrun => ?_⟩
    · rw [onRetract_unsent hr hd hret hwhy hidle]
    · subst hnever hrelease hlast hok
      rw [onRetract_whole hr hd hret happ (runWhole_of hx hsame hend) hrun]
      rfl
  · refine ⟨fun ht hitem => ?_, fun ht hitem => ?_⟩
    · rw [exec_of_taken rfl ht, State.handle, onContribReply_contrib hw hitem]
    · rw [exec_of_taken rfl ht, State.handle, onRetractReply_retract hw hitem]
  · rw [exec_of_taken rfl ht, State.handle]
    refine ⟨fun r hwhat hr => ?_, fun hn hend => ⟨fun g e hwhat hseg => ⟨fun hloaded => ?_, fun hmissing => ?_⟩, fun r hwhat hr hleads => ?_,
      fun r hwhat hr hix => ?_, fun hwhat hseg => ?_, fun hwhat hr => ?_⟩⟩ <;> subst hwhat
    · rw [onRebuildRead_record hr]
      rfl
    · rw [onRebuildRead_segment hn hend hseg, if_pos hloaded]
      rfl
    · rw [onRebuildRead_segment hn hend hseg, hmissing]
      rfl
    · rw [onRebuildRead_leader hn hend hr hleads]
      rfl
    · rw [onRebuildRead_parity hn hend hr hix]
      rfl
    · rw [onRebuildRead_noSegment hn hend hseg]
    · rw [onRebuildRead_noParity hn hend hr]
  · rw [exec_of_taken rfl ht, State.handle]
    refine ⟨fun hpush => ?_, fun hpush hnew hroom hfirst => ⟨fun hns => ?_, fun hns hadopted => ⟨fun hlast => ?_, fun hlast hok => ?_⟩⟩⟩
    · subst hpush
      rw [onRebuildData_unasked]
    · subst hpush hfirst
      exact congrArg (fun t : State => (.next t.settleEpoch : Out)) (onPush_unknownNamespace hnew hroom hns)
    · subst hpush hfirst hlast
      exact congrArg (fun t : State => (.next t.settleEpoch : Out)) (onPush_restores hnew hroom hns hadopted)
    · subst hpush hfirst hlast hok
      exact congrArg (fun t : State => (.next t.settleEpoch : Out)) (onPush_last hnew hroom hns hadopted)

end Sys2Proof.Machine
end

