-- ==== Sys2Proof/Proofs/UnrebuiltReads.lean ====
section
/-! Reads of a position that its spare does not serve yet (R184, R191, R193, R194). -/

namespace Sys2Proof.Machine

section Erased

variable {s : State} {r : FrameReq}

/-- With one adoption of a position, its spare has not reached a band row exactly where some mark of the band stands at or below the row. -/
theorem notRebuilt_iff {geo : GeometryRec} {t : RegionTables} {b w u n : Nat} {a : Adoption}
    (ha : t.adoptions.find? (fun a => a.set == bandSet geo b && a.position == u) = some a)
    (hone : ∀ a' ∈ t.adoptions, a'.set = bandSet geo b → a'.position = u → a' = a)
    (hleft : ∀ x ∈ a.left, x.1 = b → x.2 = n) (hmark : ∃ x ∈ a.left, x.1 = b) :
    notRebuilt geo t b w u = true ↔ n ≤ w := by
  have hset : a.set = bandSet geo b ∧ a.position = u := by simpa using List.find?_some ha
  simp only [notRebuilt, List.any_eq_true, Bool.and_eq_true, beq_iff_eq, decide_eq_true_eq]
  constructor
  · rintro ⟨a', hmem, ⟨hs, hp⟩, x, hx, hb, hle⟩
    rw [hone a' hmem hs hp] at hx
    exact hleft x hx hb ▸ hle
  · intro hle
    obtain ⟨x, hx, hb⟩ := hmark
    exact ⟨a, List.mem_of_find?_eq_some ha, hset, x, hx, hb, (hleft x hx hb).symm ▸ hle⟩

theorem lunAt_adopted {geo : GeometryRec} {adoptions : List Adoption} {set u : Nat} {a : Adoption}
    (ha : adoptions.find? (fun a => a.set == set && a.position == u) = some a) : lunAt geo adoptions set u = a.spare := by
  rw [lunAt, ha]

/-- A frame of a region with a geometry and a frame size is erased where its slot is. -/
theorem frameErased_eq_slotErased {geo : GeometryRec} (hgeo : s.geo? r.region = some geo)
    (hf : s.rowFrames r.region (s.band r.region r.band).density ≠ 0) :
    s.frameErased r = s.slotErased geo r.region r.band (s.rowFrames r.region (s.band r.region r.band).density) (s.reqRow r / geoW geo)
      (s.reqRow r % geoW geo) (r.frame % s.rowFrames r.region (s.band r.region r.band).density) := by
  simp [State.frameErased, hgeo, hf]

/-- An erased frame that no climb serves starts one with step 1 failed and no read. -/
theorem wantFrame_of_erased (herased : s.frameErased r = true)
    (hnew : s.clusters[reqCluster r].climbs.any (sameFrame { r with id := s.sub.nextReq }) = false) (hlost : r.lost = false) :
    s.wantFrame r = s.freshId.addClimb (reqCluster r) { newClimb { r with id := s.sub.nextReq } with phase := .failed } := by
  rw [State.wantFrame]
  refine (if_neg (Bool.eq_false_iff.mp hnew)).trans ((if_neg (Bool.eq_false_iff.mp hlost)).trans (if_pos ?_))
  exact Bool.or_eq_true_iff.mpr (.inl herased)

/-- A failed climb of an erased frame goes to step 5 from every step before it. -/
theorem nextStep_of_erased {k : Climb} (herased : s.frameErased k.req = true) (hstep : k.step < 5) (hdark : k.darkWait = none) :
    s.nextStep k = 5 := by
  by_cases hint : k.integrity = true
  · simp [State.nextStep, hdark, hint, hstep]
  by_cases hfour : k.step < 4
  · simp [State.nextStep, hdark, hint, hfour, herased]
  · have h4 : k.step = 4 := by omega
    simp [State.nextStep, hdark, hint, h4]

/-- RETRY_LADDER_STEP of a failed climb whose next step is 5 solves the row from its other positions. -/
theorem exec_retryLadderStep_five {c : ClusterIx} {id : Nat} {k : Climb} {unread : List Nat} {crcOk : Bool} (hk : s.climb? c id = some k)
    (hphase : k.phase = .failed) (hnext : s.nextStep k = 5) (hlast : 5 ≤ s.climbLast k) (hsync : s.awaitsResync k.req = false) :
    exec (.retryLadderStep c id (.row unread crcOk)) s =
      .next (((s.updClimb c id fun _ => { k with step := 5, darkWait := none }).reconstruct c { k with step := 5, darkWait := none }
        (.row unread crcOk)).copyTurns k.req.region) := by
  have hlast' : ¬ s.climbLast k < 5 := Nat.not_lt_of_le hlast
  simp [exec_retryLadderStep, execRetryLadderStep, hk, hphase, hnext, hlast', hsync]

end Erased

/-- Settles O58: with one adoption of the position, the band's mark tells whether its spare serves the row; an erased frame starts at step 5. -/
theorem unrebuiltPositionsAreReadByStepFive : Obligations.UnrebuiltPositionsAreReadByStepFive := by
  intro s r geo hgeo f t w u lun hf
  have hslot := frameErased_eq_slotErased hgeo hf
  refine ⟨fun a n ha hone hleft hmark => ⟨lunAt_adopted ha, fun hgood hkept hdone => ?_, fun hrow => ?_⟩, fun hquar => ?_, fun herased => ⟨?_, ?_⟩⟩
  · have hbuilt : notRebuilt geo t r.band w u = false := by
      simpa using mt (notRebuilt_iff ha hone hleft hmark).mp (Nat.not_le_of_lt hdone)
    rw [hslot, State.slotErased]
    exact Bool.or_eq_false_iff.mpr ⟨Bool.or_eq_false_iff.mpr ⟨hgood, hbuilt⟩, hkept⟩
  · have hwait : notRebuilt geo t r.band w u = true := (notRebuilt_iff ha hone hleft hmark).mpr hrow
    rw [hslot, State.slotErased]
    exact Bool.or_eq_true_iff.mpr (.inl (Bool.or_eq_true_iff.mpr (.inr hwait)))
  · rw [hslot, State.slotErased]
    exact Bool.or_eq_true_iff.mpr (.inl (Bool.or_eq_true_iff.mpr (.inl hquar)))
  · exact wantFrame_of_erased herased
  · rintro k rfl hstep hdark
    have hnext := nextStep_of_erased herased hstep hdark
    exact ⟨hnext, fun c id unread crcOk hk hphase hlast hsync => exec_retryLadderStep_five hk hphase hnext hlast hsync⟩

end Sys2Proof.Machine
end

