-- ==== Sys2Proof/Proofs/StateCongruence.lean ====
section
/-! Changes of one part of the state that agree at the part's present value are the same change. -/

namespace Sys2Proof.Machine

theorem next_congr {s t : State} (h : s = t) : (.next s : Out) = .next t := by
  rw [h]

theorem updDie_congr {s : State} {d : DieIx} {f g : DieSt → DieSt} (h : f s.dies[d] = g s.dies[d]) : s.updDie d f = s.updDie d g := by
  simp only [State.updDie, h]

theorem updCommon_congr {s : State} {d : DieIx} {f g : DieCommon → DieCommon} (h : f (s.com d) = g (s.com d)) : s.updCommon d f = s.updCommon d g :=
  updDie_congr (congrArg (fun c => { s.dies[d] with common := c }) h)

theorem updHost_congr {s : State} {d : DieIx} {f g : HostPort → HostPort} (h : f s.dies[d].host = g s.dies[d].host) : s.updHost d f = s.updHost d g :=
  updDie_congr (congrArg (fun c => { s.dies[d] with host := c }) h)

theorem updLane_congr {s : State} {l : LaneIx} {f g : LaneSt → LaneSt} (h : f s.lanes[l] = g s.lanes[l]) : s.updLane l f = s.updLane l g := by
  simp only [State.updLane, h]

theorem updRegion_congr {s : State} {g : RegionIx} {f f' : RegionSt → RegionSt} (h : f s.regions[g] = f' s.regions[g]) :
    s.updRegion g f = s.updRegion g f' := by
  simp only [State.updRegion, h]

theorem updCrossing_congr {s : State} {x : CrossingId} {f g : Crossing → Crossing} (h : f (s.crossing x) = g (s.crossing x)) :
    s.updCrossing x f = s.updCrossing x g := by
  cases x <;> dsimp only [State.crossing, State.updCrossing] at h ⊢
  case pcie | lpddr | swarm =>
    refine updCommon_congr ?_
    rw [h]
  case nand =>
    refine updLane_congr ?_
    rw [h]

end Sys2Proof.Machine
end

