-- ==== Sys2Proof/Proofs/FabricEvents.lean ====
section
/-! The supply and clock events of the fabric, the die bridge and the crossings (R26 to R37). -/

namespace Sys2Proof.Machine

theorem otherDie_ne (d : DieIx) : otherDie d ≠ d := by
  revert d; decide

/-! VCORE windows, crystals, link power states. -/

section Supply

variable {s : State} {d : DieIx} {mv : Nat}

/-- VCORE outside its window is measured, noted and reported; only a die in no shadow opens one. -/
theorem exec_vcoreOutOfWindow_outside (h : mv < 530 ∨ 880 < mv) :
    exec (.vcoreOutOfWindow d mv) s = .next (
      let t := (s.updCommon d fun c => { c with vcoreMeas := mv, vcoreBad := true }).raise (dieSrc d 17)
      if s.shaded (.die d) then t
      else (t.updCommon d fun c => { c with tokensPaused := true }).openShadow d (dieSrc d 17) (.dieAndBridge d) (.die d)) := by
  have hout : ¬ (530 ≤ mv ∧ mv ≤ 880) := by omega
  have hsame : (s.updCommon d fun c => { c with vcoreMeas := mv, vcoreBad := true }).shaded (.die d) = s.shaded (.die d) :=
    shaded_updCommon s d _ _ fun _ => rfl
  rw [exec_vcoreOutOfWindow, execVcoreOutOfWindow, if_neg hout]
  dsimp only
  rw [hsame]

end Supply

/-! The die bridge. -/

theorem bridgeSend_other_com {s : State} {d : DieIx} {item : BridgeItem} {kind : WorkKind} : (s.bridgeSend (otherDie d) item kind).com d = s.com d := by
  unfold State.bridgeSend
  split
  · rfl
  · exact com_updCommon_other _ _ _ (otherDie_ne d) _

theorem bridgeAnswer_com (s : State) (d : DieIx) (tag : Nat) : (s.bridgeAnswer d tag).com d = s.com d := by
  unfold State.bridgeAnswer
  repeat' split
  · exact bridgeSend_other_com
  all_goals rfl

theorem any_tag_of_find {l : List BridgeXfer} {tag : Nat} {x : BridgeXfer} (h : l.find? (·.tag == tag) = some x) : l.any (·.tag == tag) = true :=
  List.any_eq_true.mpr ⟨x, List.mem_of_find?_eq_some h, List.find?_some (p := fun y : BridgeXfer => y.tag == tag) h⟩

/-- A direction where no transfer waits grants nothing. -/
theorem grant_of_none_waiting {b : BridgeDir} (h : b.waiting = []) : b.grant = b := by
  unfold BridgeDir.grant
  split
  · rfl
  · rw [h]; rfl

/-- A good arrival leaves its direction. -/
theorem bridgeArrive_good {b : BridgeDir} {tag : Nat} (h : b.out.any (·.tag == tag) = true) :
    bridgeArrive b tag true = ({ b with out := b.out.filter (·.tag != tag) } : BridgeDir).grant := by
  simp only [bridgeArrive, h, if_true]

theorem length_filter_lt_of_any {l : List BridgeXfer} {tag : Nat} (h : l.any (·.tag == tag) = true) :
    (l.filter (·.tag != tag)).length < l.length := by
  obtain ⟨x, hx, htag⟩ := List.any_eq_true.mp h
  exact List.length_filter_lt_length_iff_exists.mpr ⟨x, hx, by simpa using htag⟩

theorem bridgeArrive_waiting {b : BridgeDir} {tag : Nat} {w : BridgeXfer} (h : b.out.any (·.tag == tag) = true) (hw : b.waiting = [w])
    (hlen : b.out.length ≤ 256) : bridgeArrive b tag true = { b with out := b.out.filter (·.tag != tag) ++ [w], waiting := [] } := by
  have hroom : ¬ bridgeLimit ≤ (b.out.filter (·.tag != tag)).length := by
    have := length_filter_lt_of_any h
    unfold bridgeLimit
    omega
  rw [bridgeArrive_good h, BridgeDir.grant, if_neg hroom, hw]
  simp [firstRanked]

section Bridge

variable {s : State} {d : DieIx} {tag : Nat}

/-- A transfer that stands, or that its direction has room for, arrives. -/
theorem exec_dieBridgeTransfer_arrives {ok : Bool} (hup : s.bridgeUp = true) (htokens : (s.com d).tokensPaused = false)
    (hroom : (s.com d).bridge.out.any (·.tag == tag) = true ∨ (s.com d).bridge.out.length < 256) :
    exec (.dieBridgeTransfer d tag ok) s = .next (
      let b := bridgeArrive (s.com d).bridge tag ok
      let t := (if ok then s.bridgeAnswer d tag else s).updCommon d fun c => { c with bridge := b }
      let t := if ok then t else t.raise (dieSrc d 15)
      if b.out.any (fun x => decide (8 ≤ x.fails)) then t.bridgeLost else t) := by
  have hsame : ((if ok then s.bridgeAnswer d tag else s).com d) = s.com d := by
    cases ok
    · rfl
    · exact bridgeAnswer_com s d tag
  have hgo : ¬ (!(s.com d).bridge.out.any (·.tag == tag) && decide ((s.com d).bridge.out.length ≥ bridgeLimit)) = true := by
    unfold bridgeLimit
    rcases hroom with h | h <;> simp [h]
  rw [exec_dieBridgeTransfer, execDieBridgeTransfer, hup, htokens, if_neg hgo]
  dsimp only
  rw [hsame]
  rfl

theorem exec_dieBridgeTransfer_waits {ok : Bool} (hup : s.bridgeUp = true) (htokens : (s.com d).tokensPaused = false)
    (hnew : (s.com d).bridge.out.any (·.tag == tag) = false) (hfull : 256 ≤ (s.com d).bridge.out.length) :
    exec (.dieBridgeTransfer d tag ok) s = .next (s.updCommon d fun c => { c with
      bridge := { c.bridge with waiting := c.bridge.waiting ++ [BridgeXfer.mk tag 0 .other .read] } }) := by
  have hwait : (!(s.com d).bridge.out.any (·.tag == tag) && decide ((s.com d).bridge.out.length ≥ bridgeLimit)) = true := by
    simpa [hnew, bridgeLimit] using hfull
  rw [exec_dieBridgeTransfer, execDieBridgeTransfer, hup, htokens, if_pos hwait]
  rfl

theorem exec_dieBridgeHandshakeTimeout_busy (hup : s.bridgeUp = true) (hbusy : ∃ d, (s.com d).bridge.out ≠ [] ∨ (s.com d).bridge.waiting ≠ []) :
    exec .dieBridgeHandshakeTimeout s = .next s.bridgeLost := by
  have hany : ((!(s.com 0).bridge.out.isEmpty || !(s.com 0).bridge.waiting.isEmpty) || (!(s.com 1).bridge.out.isEmpty || !(s.com 1).bridge.waiting.isEmpty)) = true := by
    obtain ⟨e, he⟩ := hbusy
    fin_cases e <;> simp_all
  rw [exec_dieBridgeHandshakeTimeout, execDieBridgeHandshakeTimeout]
  dsimp only
  rw [hup, hany]
  rfl

end Bridge

/-! Toggle channels. -/

/-- A toggle at rest, its last event acknowledged, carries one event at a time: sent to a receiver that answers, to one that does not, twice
to one that does not, and then delivered. -/
theorem toggle_at_rest {t : Toggle} (hrest : t.req = t.ack) (hwaiting : t.waiting = 0) :
    t.send true = { t with req := !t.req, ack := !t.ack, pulses := t.pulses + 1 } ∧
    t.send false = { t with req := !t.req } ∧ (t.send false).send false = { t with req := !t.req, waiting := 1 } ∧
    ((t.send false).send false).deliver = { t with pulses := t.pulses + 2 } := by
  obtain ⟨req, ack, pulses, waiting⟩ := t
  dsimp only at hrest hwaiting
  subst hrest hwaiting
  cases req <;> simp [Toggle.send, Toggle.launch, Toggle.receive, Toggle.deliver]

theorem sendMany_waiting (t : Toggle) (n : Nat) : (t.sendMany n).waiting = 0 := by
  unfold Toggle.sendMany Toggle.deliver
  dsimp only
  split <;> rfl

/-- Settles O1: each event's clause is its lemma, or the command's definition under the clause's conditions. -/
theorem fabricEventsAct : Obligations.FabricEventsAct := by
  refine ⟨⟨fun s d mv hmv hclear => ?_, fun s d mv hmv hshaded => ?_, fun s d mv hlow hhigh => ?_, fun s hvin hx => ?_, fun s hx => ?_,
    fun s d hlink => ?_, fun s d hlink hclocks => ?_⟩,
    fun s d tag x hup htokens hx hnone hfails => ?_, fun b tag w hout hw hlen => bridgeArrive_waiting hout hw hlen,
    fun s d tag hup htokens hroom => exec_dieBridgeTransfer_arrives hup htokens hroom,
    fun s d tag ok hup htokens hnew hfull => exec_dieBridgeTransfer_waits hup htokens hnew hfull, fun s d tag ok htokens => ?_,
    fun s hup hbusy => exec_dieBridgeHandshakeTimeout_busy hup hbusy, fun s x phy => rfl, fun c x phy => ?_, fun s x => rfl, fun c x go => ?_,
    fun t hrest hwaiting => toggle_at_rest hrest hwaiting, fun s x first hrun hclocks => ?_, fun s x first hstill => ?_,
    fun s l wake hrun hclock hidle => ?_⟩
  · rw [exec_vcoreOutOfWindow_outside hmv, hclear]
    rfl
  · rw [exec_vcoreOutOfWindow_outside hmv, hshaded]
    rfl
  · rw [exec_vcoreWindowRestored, execVcoreWindowRestored, if_pos ⟨hlow, hhigh⟩]
  · rw [exec_xtal25Stop, execXtal25Stop, hvin, hx]
    rfl
  · rw [exec_xtal32kStop, execXtal32kStop, hx]
    rfl
  · rw [exec_pcieL12Entry, execPcieL12Entry, if_pos hlink]
    rfl
  · rw [exec_pcieL12Exit, execPcieL12Exit, hlink, hclocks]
    rfl
  · have hout := any_tag_of_find hx
    have hgood : bridgeArrive (s.com d).bridge tag true = { (s.com d).bridge with out := (s.com d).bridge.out.filter (·.tag != tag) } :=
      (bridgeArrive_good hout).trans (grant_of_none_waiting hnone)
    have hfew : ((s.com d).bridge.out.filter (·.tag != tag)).any (fun x => decide (8 ≤ x.fails)) = false := by
      simpa using fun y hy _ => hfails y hy
    refine (exec_dieBridgeTransfer_arrives hup htokens (.inl hout)).trans ?_
    dsimp only
    rw [hgood, hfew, State.bridgeAnswer, hx]
    dsimp only
    simp only [Bool.false_eq_true, if_false, if_true]
    refine next_congr ?_
    cases x.item
    case request ref =>
      refine updCommon_congr ?_
      rw [bridgeSend_other_com]
    case answer => rfl
    case other => rfl
  · rw [exec_dieBridgeTransfer, execDieBridgeTransfer, htokens, Bool.or_true]
    rfl
  · cases phy <;> simp [Crossing.resetSide]
  · exact ⟨rfl, rfl, rfl, rfl, rfl, rfl, rfl, sendMany_waiting _ _, sendMany_waiting _ _⟩
  · rw [exec_phyWakeRequest, execPhyWakeRequest, hrun, hclocks]
    exact next_congr (updCrossing_congr rfl)
  · have hheld : (!(s.crossing x).running || !s.clocksRun) = true := by
      rcases hstill with h | h <;> simp [h]
    rw [exec_phyWakeRequest, execPhyWakeRequest, if_pos hheld]
  · rw [exec_phyIdleTimerExpiry, execPhyIdleTimerExpiry, hrun, hclock, hidle]
    cases wake
    · rfl
    · refine next_congr ?_
      dsimp only [State.updCrossing]
      refine updLane_congr ?_
      rw [hclock]

end Sys2Proof.Machine
end

