-- ==== Sys2Proof/Proofs/LaneStarts.lean ====
section
/-! The start of lane operations, submitted descriptors and freed slots (R29 to R31, R38 to R48, R182). -/

namespace Sys2Proof.Machine

section Starts

variable {s : State} {l : LaneIx} {e : QEntry} {c : CtxIx}

/-- An operation that may start is bound to its context, and does its own part. -/
theorem startOp_of_starts {op : LaneOp} {go : State → CtxIx → QEntry → State} (h : s.starts l op e c) :
    s.startOp l op go = .next (go (s.startBind l c e op) c { e with ctx := some c }) := by
  obtain ⟨hnext, hop, hclear, hdirty, hctx⟩ := h
  have hkind : (e.desc.op != some op) = false := by simp [hop]
  unfold State.startOp
  dsimp only
  rw [hnext]
  dsimp only
  rw [hkind, hclear, hdirty, hctx]
  rfl

/-- An operation with no part of its own is only bound. -/
theorem startOp_bare {op : LaneOp} (h : s.starts l op e c) : s.startOp l op (fun s _ _ => s) = .next (s.startBind l c e op) :=
  startOp_of_starts h

theorem startBind_of_noDataRow (h : ∀ g b, e.purpose ≠ .dataRow g b) (op : LaneOp) : s.startBind l c e op = s.bind l c e op := by
  have hnone : s.dirtyAhead e = [] := by
    unfold State.dirtyAhead
    split
    case h_1 g b hp => exact absurd hp (h g b)
    all_goals rfl
  rw [State.startBind, hnone]
  rfl

theorem exec_suspend_none (h : s.starts l .suspend e c) (hnone : (s.startBind l c e .suspend).lanes[l].erases.find? (fun r => r.unit == e.desc.unit) = none) :
    exec (.suspend l) s = .next ((s.startBind l c e .suspend).settle l { e with ctx := some c } .ok 0 0 0) := by
  rw [exec_suspend, execSuspend, startOp_of_starts h]
  dsimp only
  rw [hnone]

/-- A suspend of a unit under erase: completed without effect at the limit, else held, or sent. -/
theorem exec_suspend_erase {r : EraseRun} (h : s.starts l .suspend e c)
    (hr : (s.startBind l c e .suspend).lanes[l].erases.find? (fun r => r.unit == e.desc.unit) = some r) :
    exec (.suspend l) s = .next (
      let t := s.startBind l c e .suspend
      if !e.desc.critical && !r.held && decide (t.lanes[l].suspLimit ≤ r.count) then t.settle l { e with ctx := some c } .ok 0 0 0
      else if r.phase = .running then t.updLane l fun x => (x.updErase e.desc.unit fun r => { r with phase := .suspending, held := true }).cycle (.suspend e.desc.unit)
      else
        let t := t.updLane l fun x => x.updErase e.desc.unit fun r => { r with held := true, due := false }
        if r.phase == .suspended then t.settle l { e with ctx := some c } .ok 0 0 0 else t) := by
  rw [exec_suspend, execSuspend, startOp_of_starts h]
  dsimp only
  rw [hr]
  cases hphase : r.phase <;> simp only [hphase] <;> rfl

theorem exec_train_starts {tries : List Bool} {q : QEntry} (h : s.starts l .train e c) (hpatch : s.patchAwaited l = false) (hfree : s.lanes[l].owner = none)
    (hq : ((s.startBind l c e .train).fullTraining l .startOrTrain false ((s.startBind l c e .train).laneRate l) 3 tries).lanes[l].queue.find?
      (fun q => q.desc.tag == e.desc.tag) = some q) :
    exec (.train l tries) s = .next (
      let b := s.startBind l c e .train
      let t := b.fullTraining l .startOrTrain false (b.laneRate l) 3 tries
      t.settle l q (if t.lanes[l].inService && !(b.shaded (.lane l) && !b.triesPass tries) then .ok else .phyFault) 0 0 0) := by
  rw [exec_train, execTrain, hpatch, hfree]
  refine (if_neg Bool.false_ne_true).trans ((startOp_of_starts h).trans ?_)
  dsimp only
  rw [hq]
  dsimp only
  split <;> rfl

end Starts

section Slots

variable {s : State} {l : LaneIx}

/-- A submission that goes ahead is queued in a slot of its kind where none waits, and otherwise waits behind the others. -/
theorem exec_descriptorSubmit_go {d : Descriptor} {p q : Purpose} {t : State} (hok : s.descAccepted l d = true) (hgo : s.submission l d p = .go t q) :
    exec (.descriptorSubmit l d p) s =
      if t.lanes[l].waiting.isEmpty then match slotFor t.lanes[l].queue d with
        | some k => .next (t.enqueue l d q k)
        | none => .next (t.updLane l fun x => { x with waiting := x.waiting ++ [(d, q)] })
      else .next ((t.updLane l fun x => { x with waiting := x.waiting ++ [(d, q)] }).grantSlot l) := by
  rw [exec_descriptorSubmit, execDescriptorSubmit, hok, hgo]
  rfl

theorem exec_descriptorSubmit_idle {d : Descriptor} {p : Purpose} (hok : s.descAccepted l d = true)
    (hidle : s.submission l d p = .notIt ∨ s.submission l d p = .held) : exec (.descriptorSubmit l d p) s = .next s := by
  rw [exec_descriptorSubmit, execDescriptorSubmit, hok]
  rcases hidle with h | h <;> rw [h] <;> rfl

theorem submission_plain {d : Descriptor} {o : LaneOp} (hop : d.op = some o) (hread : programOp o = false) (herase : o ≠ .eraseBlock) :
    s.submission l d .plain = .go s .plain := by
  simp [State.submission, hop, hread, herase]

/-- The first data page row of a parity-protected band row opens the row in its cluster's accumulator memory where that holds it. -/
theorem accTake_first {g : RegionIx} {b u : Nat} {d : Descriptor} (hpar : (s.band g b).carriesParity = true) (hpass : d.pass = 0)
    (hnew : s.clusters[clusterOfLane l].accRows.any (fun r => r.band == b && r.row == d.wordline.toNat) = false) :
    s.accTake l g b u d =
      if accMemory < s.accUsed (clusterOfLane l) + s.accRowBytes g b then none
      else some (s.updCluster (clusterOfLane l) fun x => { x with accRows := x.accRows ++ [AccRow.mk b d.wordline.toNat [u]] }) := by
  unfold State.accTake
  dsimp only
  rw [hpar, hpass, hnew]
  rfl

theorem grantSlot_accepted {w : Descriptor × Purpose} {k : SlotKind} (hw : bestWaiting s.lanes[l].queue s.lanes[l].waiting = some w)
    (hok : (s.updLane l fun x => { x with waiting := x.waiting.erase w }).descAccepted l w.1 = true) (hk : slotFor s.lanes[l].queue w.1 = some k) :
    s.grantSlot l = (s.updLane l fun x => { x with waiting := x.waiting.erase w }).enqueue l w.1 w.2 k := by
  unfold State.grantSlot
  dsimp only
  rw [hw]
  dsimp only
  rw [hok, hk]
  rfl

theorem grant_of_room {b : BridgeDir} {x : BridgeXfer} (hx : firstRanked (fun x => workRank x.kind) b.waiting = some x) (hroom : b.out.length < 256) :
    b.grant = { b with out := b.out ++ [x], waiting := b.waiting.erase x } := by
  rw [BridgeDir.grant, hx]
  exact if_neg (Nat.not_le_of_lt hroom)

end Slots

/-- Settles O2: every start is `startOp`, whose bound state the operation's own part changes. -/
theorem laneOperationsStart : Obligations.LaneOperationsStart := by
  refine ⟨fun s l e c => ⟨fun h => (exec_readPage ..).trans (startOp_bare h), fun h => (exec_readSoft ..).trans (startOp_bare h),
      fun h => (exec_marginRead ..).trans (startOp_bare h),
      fun h => (exec_offsetSweep ..).trans (startOp_bare h), fun h => (exec_programPage ..).trans (startOp_bare h), fun h => (exec_programPass ..).trans (startOp_bare h),
      fun h => (exec_setFeature ..).trans (startOp_bare h), fun h => (exec_getFeature ..).trans (startOp_bare h), fun h => (exec_readStatus ..).trans (startOp_bare h),
      fun h => (exec_eraseBlock ..).trans (startOp_of_starts h), startBind_of_noDataRow⟩, fun s l e c h => ⟨exec_suspend_none h, fun r hr => ⟨?_, ?_⟩⟩,
    fun s l e c h => ⟨fun hnone => ?_, fun hsome => ?_⟩, fun s l e c tries h hpatch hfree q hq => exec_train_starts h hpatch hfree hq⟩
  · intro hcritical hheld hlimit
    have hfull : (!e.desc.critical && !r.held && decide ((s.startBind l c e .suspend).lanes[l].suspLimit ≤ r.count)) = true := by
      rw [hcritical, hheld, decide_eq_true hlimit]
      rfl
    rw [exec_suspend_erase h hr]
    exact next_congr (if_pos hfull)
  · intro hphase hwhy
    have hgo : ¬ (!e.desc.critical && !r.held && decide ((s.startBind l c e .suspend).lanes[l].suspLimit ≤ r.count)) = true := by
      simp only [Bool.and_eq_true, Bool.not_eq_true', decide_eq_true_eq, not_and, and_imp]
      rintro hcritical hheld hlimit
      rcases hwhy with h | h | h
      · exact absurd (h.symm.trans hcritical) (by decide)
      · exact absurd (h.symm.trans hheld) (by decide)
      · exact Nat.not_le_of_lt h hlimit
    rw [exec_suspend_erase h hr]
    exact next_congr ((if_neg hgo).trans (if_pos hphase))
  · rw [exec_resume, execResume, startOp_of_starts h]
    dsimp only
    rw [hnone]
  · obtain ⟨r, hr⟩ := Option.isSome_iff_exists.mp hsome
    rw [exec_resume, execResume, startOp_of_starts h]
    dsimp only
    rw [hr]

/-- Settles O3: a submission is refused, idle or goes ahead; a freed slot goes to the requester that the spec ranks first. -/
theorem laneQueueTakesDescriptors : Obligations.LaneQueueTakesDescriptors := by
  refine ⟨fun s l d p => ⟨fun hbad => ?_, exec_descriptorSubmit_idle, fun t q hok hgo => ⟨fun k hnone hk => ?_, fun hnone hk => ?_, fun hwait => ?_⟩,
      fun o hop hread herase => submission_plain hop hread herase, fun g b u hpar hpass hnew => ⟨fun hfull => ?_, fun hroom => ?_⟩⟩,
    fun s l w k hw hok hk => ?_, fun s d c rest hback hroom => ?_, fun s g x hx => ?_, fun s d x hx hroom => ?_⟩
  · rw [exec_descriptorSubmit, execDescriptorSubmit, hbad]
    rfl
  · rw [exec_descriptorSubmit_go hok hgo, hnone, hk]
    rfl
  · rw [exec_descriptorSubmit_go hok hgo, hnone, hk]
    rfl
  · have hsome : t.lanes[l].waiting.isEmpty = false := by simpa using hwait
    rw [exec_descriptorSubmit_go hok hgo, hsome]
    rfl
  · rw [accTake_first hpar hpass hnew, if_pos hfull]
  · rw [accTake_first hpar hpass hnew, if_neg (Nat.not_lt_of_le hroom)]
  · exact next_congr (grantSlot_accepted hw hok hk)
  · rw [exec_resourceSlotFree, execResourceSlotFree, hback]
    exact if_neg (Nat.not_le_of_lt hroom)
  · rw [exec_resourceSlotFree, execResourceSlotFree, State.lookupDone, hx]
  · refine next_congr (updCommon_congr ?_)
    rw [grant_of_room hx hroom]

end Sys2Proof.Machine
end

