-- ==== Sys2Proof/Proofs/Timekeeping.lean ====
section
/-! A second of operation, the Carapace's samples, and the timers of timekeeping (R27, R69, R78, R79, R86). -/

namespace Sys2Proof.Machine

/-- The state in which the counts of a second stand, before a full minute goes to the histogram. -/
def State.secondCounted (s : State) : State :=
  let t := s.refreshMedia.addAge s.refreshMedia.keeper.tk.mediaTemp 1
  (t.ticks t.ticksLeft (1000000 - t.keeper.tk.part / partUsec)).updTk fun k => { k with
    opsec := k.opsec + 1, wallMs := k.wallMs + 1000, sinceRecord := k.sinceRecord + 1, minuteSec := k.minuteSec + 1, part := 0,
    timebase := if t.keeper.sup.xtal25 then k.timebase else k.timebase.sendMany t.ticksLeft }

theorem exec_thermalAgeAccumulate_running {s : State} (hvin : s.keeper.sup.vinOk = true)
    (hxtal : s.keeper.sup.xtal25 = true ∨ s.keeper.sup.xtal32k = true) :
    exec .thermalAgeAccumulate s = .next (if 60 ≤ s.secondCounted.keeper.tk.minuteSec then s.secondCounted.minutePassed else s.secondCounted) := by
  have hclock : (s.keeper.sup.xtal25 || s.keeper.sup.xtal32k) = true := by simpa using hxtal
  rw [exec_thermalAgeAccumulate, execThermalAgeAccumulate, hvin, hclock]
  rfl

theorem onlyTime_secondCounted (s : State) : OnlyTime s s.secondCounted := by
  unfold State.secondCounted
  exact (refreshMedia_spec s).1.trans ((addAge_spec ..).1.trans ((ticks_spec ..).1.trans (onlyTime_updTk ..)))

theorem secondCounted_acc (s : State) (k : Fin 4) : s.secondCounted.keeper.tk.acc[k] = match s.eaOf k.val with
    | some ea => min (2 ^ 64 - 1) (s.keeper.tk.acc[k] + afEntry ea s.mediaReading.2)
    | none => s.keeper.tk.acc[k] := by
  obtain ⟨-, -, hacc, -⟩ := addAge_spec s.refreshMedia s.refreshMedia.keeper.tk.mediaTemp 1
  obtain ⟨-, -, hea, htemp, hkept, -⟩ := refreshMedia_spec s
  refine (hacc k).trans ?_
  rw [hea, htemp, hkept]
  simp only [Nat.mul_one] <;> rfl

theorem secondCounted_die (s : State) (d : DieIx) : s.secondCounted.dies[d].common.usec = if s.dies[d].common.inReset then s.dies[d].common.usec
    else s.dies[d].common.usec + BitVec.ofNat 48 (1000000 - s.keeper.tk.part / partUsec) := by
  obtain ⟨-, -, -, -, -, hdies⟩ := ticks_spec (s.refreshMedia.addAge s.refreshMedia.keeper.tk.mediaTemp 1)
    (s.refreshMedia.addAge s.refreshMedia.keeper.tk.mediaTemp 1).ticksLeft (1000000 - s.keeper.tk.part / partUsec)
  exact hdies d

/-- Settles O9: a second is the media reading, its age, its ticks and its count; the other timers act as their definitions say. -/
theorem timekeepingCountsAndAges : Obligations.TimekeepingCountsAndAges := by
  refine ⟨fun s hvin hxtal => ⟨_, exec_thermalAgeAccumulate_running hvin hxtal, ?_⟩, fun s hvin hkeep hxtal => ?_, fun s hvin => ?_, fun s hpend hnew => ?_,
    fun s g hserv hidle => ?_⟩
  · have hage := onlyTime_secondCounted s
    split
    · obtain ⟨hmin, hdies, hacc, hops, husec, hpart⟩ := minutePassed_spec s.secondCounted
      have hall := hage.trans hmin
      refine ⟨hops.trans rfl, fun k => ?_, hpart.trans rfl, husec.trans rfl, fun d => ?_, hall.store, hall.regions, hall.clusters, hall.lanes, hall.sub, hall.swarm⟩
      · exact (congrArg (fun a => a[k]) hacc).trans (secondCounted_acc s k)
      · exact (congrArg (fun x => x[d].common.usec) hdies).trans (secondCounted_die s d)
    · exact ⟨rfl, secondCounted_acc s, rfl, rfl, secondCounted_die s, hage.store, hage.regions, hage.clusters, hage.lanes, hage.sub, hage.swarm⟩
  · refine ⟨(s.refreshMedia.addAge s.refreshMedia.keeper.tk.mediaTemp 600).addMinutes 10, ?_, fun k => ?_, rfl, rfl, ?_⟩
    · rw [exec_carapaceTemperatureSample, execCarapaceTemperatureSample, hvin, hkeep, hxtal]
      rfl
    · obtain ⟨-, -, hacc, -⟩ := addAge_spec s.refreshMedia s.refreshMedia.keeper.tk.mediaTemp 600
      exact hacc k
    · exact (onlyTime_updTk ..).store
  · rw [exec_timekeepingRecordWrite, execTimekeepingRecordWrite, if_pos hvin]
    rfl
  · rw [exec_gapTimeout, execGapTimeout, hpend, hnew]
    rfl
  · rw [exec_foldIdleTimer, execFoldIdleTimer, hserv, hidle]
    rfl

end Sys2Proof.Machine
end

