-- ==== Sys2Proof/Proofs/StateReadBack.lean ====
section
/-! What a changed part of the state reads back as. -/

namespace Sys2Proof.Machine

theorem region_updRegion_self (s : State) (g : RegionIx) (f : RegionSt → RegionSt) : (s.updRegion g f).regions[g] = f s.regions[g] := by
  simp [State.updRegion]

theorem cluster_updCluster_self (s : State) (c : ClusterIx) (f : ClusterSt → ClusterSt) : (s.updCluster c f).clusters[c] = f s.clusters[c] := by
  simp [State.updCluster]

theorem lane_updLane_self (s : State) (l : LaneIx) (f : LaneSt → LaneSt) : (s.updLane l f).lanes[l] = f s.lanes[l] := by
  simp [State.updLane]

theorem die_updDie_self (s : State) (d : DieIx) (f : DieSt → DieSt) : (s.updDie d f).dies[d] = f s.dies[d] := by
  simp [State.updDie]

/-- Two changes of one cluster are the change of both. -/
theorem updCluster_updCluster (s : State) (c : ClusterIx) (f h : ClusterSt → ClusterSt) :
    (s.updCluster c f).updCluster c h = s.updCluster c fun x => h (f x) := by
  simp [State.updCluster]

/-- A change of a region outside its tables leaves its bands. -/
theorem band_updRegion (s : State) (g : RegionIx) (f : RegionSt → RegionSt) (hf : ∀ r, (f r).tab = r.tab) (b : Nat) :
    (s.updRegion g f).band g b = s.band g b := by
  rw [State.band, region_updRegion_self, hf]
  rfl

end Sys2Proof.Machine
end

