-- ==== Sys2Proof/Proofs/ClusterWork.lean ====
section
/-! Decoder engines, the retry ladder, the Antenna and patrol (R89 to R95, R104 to R112, R120, R121). -/

namespace Sys2Proof.Machine

section Decoders

variable {s : State} {c : ClusterIx} {e : Fin 5}

theorem exec_frameDecode_queued {id : Nat} {j : EngineJob} (hj : s.clusters[c].queue.find? (fun j => j.req.id == id) = some j)
    (hidle : engineIdle s.clusters[c] e = true) (hkind : softStep j.step = (e == 4)) (hfit : avoided s.clusters[c] e j = false) :
    exec (.frameDecode c e (.queued id)) s =
      .next (s.updCluster c fun x => { x with queue := x.queue.erase j, engines := x.engines.set e (some j) }) := by
  have hgo : ¬ (!engineIdle s.clusters[c] e || (softStep j.step != (e == 4)) || avoided s.clusters[c] e j) = true := by
    rw [hidle, hkind, hfit, bne_self_eq_false]
    exact Bool.false_ne_true
  rw [exec_frameDecode, execFrameDecode, hj]
  dsimp only
  rw [if_neg hgo, State.takeJob, updCluster_updCluster]

/-- A frame that the lane has delivered goes to the engine, or waits for one. -/
theorem exec_frameDecode_read {id : Nat} {k : Climb} (hk : s.climb? c id = some k) (hphase : k.phase = .arrived) :
    exec (.frameDecode c e (.read id)) s = .next (
      let t := s.updClimb c id fun y => { y with phase := .decoding }
      if engineIdle s.clusters[c] e && softStep k.step == (e == 4) then t.takeJob c e ⟨k.req, k.step, none⟩ else t.queueJob c ⟨k.req, k.step, none⟩) := by
  have hgo : ¬ (k.phase != .arrived) = true := by rw [hphase]; decide
  rw [exec_frameDecode, execFrameDecode]
  dsimp only
  rw [hk]
  dsimp only
  rw [if_neg hgo]

/-- An engine's result is judged while its frame's climb waits for it. -/
theorem jobDone_of_decoding {j : EngineJob} {k : Climb} (hk : s.climb? (reqCluster j.req) j.req.id = some k) (hphase : k.phase = .decoding)
    (n : Nat) (converged crcOk : Bool) :
    s.jobDone c j n converged crcOk = (s.judge c (reqCluster j.req) k j.step n converged crcOk).copyTurns j.req.region := by
  have hgo : ¬ (k.phase != .decoding) = true := by rw [hphase]; decide
  unfold State.jobDone
  dsimp only
  rw [hk]
  dsimp only
  rw [if_neg hgo]

section Judge

variable {home : ClusterIx} {k : Climb} {step n : Nat}

/-- A frame within its limit whose CRC agrees is decoded; its lane, where it has one, counts no error. -/
theorem judge_good (hn : n ≤ s.frameLimit k.req * (if softStep step then 2 else 1)) :
    s.judge c home k step n true true =
      (let u := s.updClimb home k.req.id fun y => { y with corrected := n }
       let u := match lunLane k.req.lun with
         | some l => u.countErrors l false false
         | none => u
       (u.countLun k.req.lun false).decoded c home { k with corrected := n } step n) := by
  unfold State.judge
  dsimp only
  rw [decide_eq_true hn]
  cases lunLane k.req.lun <;> simp

/-- A decode that does not converge fails its step; at step 4 it is an uncorrectable frame. -/
theorem judge_failed :
    s.judge c home k step n false false =
      (let u := s.updClimb home k.req.id fun y => { y with corrected := n }
       let u := match lunLane k.req.lun with
         | some l => u.countErrors l false (!u.shaded (.cluster c) && step == 1)
         | none => u
       let u := if step = 4 then u.raise (clusterSrc home 1) else u
       (u.failStep home { k with corrected := n }).countLun k.req.lun (step == 4 && !u.shaded (.cluster home))) := by
  simp only [State.judge, Bool.false_and, Bool.and_false, Bool.false_eq_true, if_false, Bool.not_false, Bool.and_true] <;> rfl

end Judge

theorem padOut_partFilled {g : RegionIx} {b : Nat} {geo : GeometryRec} (hgeo : s.geo? g = some geo) (hopen : (s.band g b).phase = .opened)
    (huse : (s.band g b).use = .staging) (hf : s.rowFrames g (s.band g b).density ≠ 0)
    (hpart : (s.band g b).nextSlot % s.rowFrames g (s.band g b).density ≠ 0) :
    s.padOut g b =
      (let f := s.rowFrames g (s.band g b).density
       let p := slotPlace geo b f (s.band g b).nextSlot
       ((s.updBand g b fun x => { x with nextSlot := (x.nextSlot / f + 1) * f, pads := x.pads ++ [(p.2.1, p.1, p.2.2)] }).jot g
        (.bandPad b p.2.1 p.1 p.2.2)).sealIfFull g b) := by
  simp [State.padOut, hgeo, hopen, huse, hf, hpart]

end Decoders

/-! The retry ladder. -/

section Ladder

variable {s : State} {c : ClusterIx} {id : Nat} {k : Climb}

/-- The climb at its next step. -/
def State.climbNext (s : State) (k : Climb) : Climb := { k with step := s.nextStep k, darkWait := none }

/-- RETRY_LADDER_STEP of a failed climb without a repair: over, a read, a wait, or a reconstruction. -/
theorem exec_retryLadderStep_failed {f : LadderFacts} (hk : s.climb? c id = some k) (hphase : k.phase = .failed) (hf : f ≠ .repaired) :
    exec (.retryLadderStep c id f) s =
      if s.climbLast k < s.nextStep k then .next ((s.climbOver c k).copyTurns k.req.region)
      else if s.nextStep k < 5 then .next (s.readStep c (s.climbNext k))
      else if s.nextStep k = 5 ∧ s.awaitsResync k.req then .next s
      else .next (((s.updClimb c id fun _ => s.climbNext k).reconstruct c (s.climbNext k) f).copyTurns k.req.region) := by
  have hgo : ¬ (k.phase != .failed) = true := by rw [hphase]; decide
  rw [exec_retryLadderStep, execRetryLadderStep, hk]
  dsimp only
  rw [if_neg hgo, if_neg hf]
  rfl

theorem exec_retryLadderStep_repaired {e : MapEntry} (hk : s.climb? c id = some k) (hphase : k.phase = .failed) (he : s.repairTo k = some e) :
    exec (.retryLadderStep c id .repaired) s = .next (s.serveRepaired c k e) := by
  have hgo : ¬ (k.phase != .failed) = true := by rw [hphase]; decide
  rw [exec_retryLadderStep, execRetryLadderStep, hk]
  dsimp only
  rw [if_neg hgo, if_pos rfl, he]

/-- A climb that has a step to go and is not held back reconstructs its frame at it, from step 5 on. -/
theorem exec_retryLadderStep_reconstructs {f : LadderFacts} (hk : s.climb? c id = some k) (hphase : k.phase = .failed) (hf : f ≠ .repaired)
    (hlast : s.nextStep k ≤ s.climbLast k) (hfive : 5 ≤ s.nextStep k) (hsync : s.nextStep k = 5 → s.awaitsResync k.req = false) :
    exec (.retryLadderStep c id f) s =
      .next (((s.updClimb c id fun _ => s.climbNext k).reconstruct c (s.climbNext k) f).copyTurns k.req.region) := by
  have hgo : ¬ (s.nextStep k = 5 ∧ s.awaitsResync k.req = true) := fun h => absurd ((hsync h.1).symm.trans h.2) (by decide)
  rw [exec_retryLadderStep_failed hk hphase hf, if_neg (Nat.not_lt_of_le hlast), if_neg (Nat.not_lt_of_le hfive), if_neg hgo]

theorem reconstruct_failed (hne : k.step ≠ 6) : s.reconstruct c k .failed = s.stepLost c k k.step := by
  unfold State.reconstruct
  split
  case h_1 h => cases h
  case h_2 h => exact absurd h hne
  case h_3 => rfl

theorem reconstruct_row {unread : List Nat} {crc : Bool} (hk : k.step = 5) :
    s.reconstruct c k (.row unread crc) = if s.rowSolvable k.req unread then s.rebuilt c k 5 crc else s.stepLost c k 5 := by
  rw [State.reconstruct]
  exact hk

theorem reconstruct_six {f : LadderFacts} (hk : k.step = 6) : s.reconstruct c k f = s.stepSix c k := by
  rw [State.reconstruct]
  exact hk

theorem stepSix_incomplete (hopen : s.stripeComplete (s.reqSeg k.req) = false) : s.stepSix c k = s.stepLost c k 6 := by
  unfold State.stepSix
  dsimp only
  rw [hopen]
  rfl

theorem stepSix_noLeader (hcomplete : s.stripeComplete (s.reqSeg k.req) = true) (hno : s.sixLeader (s.reqSeg k.req).stripe = none) :
    s.stepSix c k = s.searchRecord c k none := by
  unfold State.stepSix
  dsimp only
  rw [hcomplete, hno]
  rfl

theorem stepSix_leader {m : Nat} (hcomplete : s.stripeComplete (s.reqSeg k.req) = true) (hm : s.sixLeader (s.reqSeg k.req).stripe = some m) :
    s.stepSix c k =
      if s.isLit m then s.askMember c k m (.rebuildRead (s.reqSeg k.req).stripe 3 (s.reqSeg k.req).position (k.req.frame % 262144) 1)
      else s.ladderDark c k m := by
  unfold State.stepSix
  dsimp only
  rw [hcomplete, hm]
  rfl

/-- At step 6 the frame's stripe is asked for. -/
theorem exec_retryLadderStep_six {f : LadderFacts} (hk : s.climb? c id = some k) (hphase : k.phase = .failed) (hf : f ≠ .repaired)
    (hlast : s.nextStep k ≤ s.climbLast k) (hn : s.nextStep k = 6) :
    exec (.retryLadderStep c id f) s = .next (((s.updClimb c id fun _ => s.climbNext k).stepSix c (s.climbNext k)).copyTurns k.req.region) := by
  rw [exec_retryLadderStep_reconstructs hk hphase hf hlast (by omega) (by omega), reconstruct_six hn]

end Ladder

/-- Settles O10: engines take frames, and each result is a fault of its cause or is judged. -/
theorem clusterDecodersAct : Obligations.ClusterDecodersAct := by
  refine ⟨fun s c e id j hj hidle hkind hfit => exec_frameDecode_queued hj hidle hkind hfit, fun s c e id k hk hphase => ⟨fun hidle hkind => ?_, fun hbusy => ?_⟩,
    fun s c e j hj => ⟨?_, ?_, ?_, fun k hk hphase n => ⟨fun crc => ?_, fun hlun hn => ?_, fun l hlun hn => ?_, fun hlun hstep => ?_, fun l hlun hstep => ?_,
      fun l hlun hstep => ?_⟩⟩,
    fun s c band row hserv => ⟨?_, ?_⟩, fun s c => rfl, fun s g b geo hgeo hopen huse hf hpart => next_congr (padOut_partFilled hgeo hopen huse hf hpart)⟩
  · rw [exec_frameDecode_read hk hphase]
    exact next_congr (if_pos (by rw [hidle, hkind, Bool.true_and, beq_self_eq_true]))
  · have hwait : ¬ (engineIdle s.clusters[c] e && softStep k.step == (e == 4)) = true := by
      rcases hbusy with h | h
      · rw [h]; exact Bool.false_ne_true
      · simp only [Bool.and_eq_true, beq_iff_eq, not_and]
        exact fun _ => h
    rw [exec_frameDecode_read hk hphase]
    exact next_congr (if_neg hwait)
  · rw [exec_decodeComplete, execDecodeComplete, hj]
  · rw [exec_decodeComplete, execDecodeComplete, hj]
  · rw [exec_decoderCompletionTimeout, execDecoderCompletionTimeout, hj]
  · rw [exec_decodeComplete, execDecodeComplete, hj]
    exact next_congr (jobDone_of_decoding hk hphase n true crc)
  · rw [exec_decodeComplete, execDecodeComplete, hj]
    refine next_congr ((jobDone_of_decoding hk hphase n true true).trans ?_)
    rw [judge_good hn, hlun]
  · rw [exec_decodeComplete, execDecodeComplete, hj]
    refine next_congr ((jobDone_of_decoding hk hphase n true true).trans ?_)
    rw [judge_good hn, hlun]
  · rw [exec_decodeComplete, execDecodeComplete, hj]
    refine next_congr ((jobDone_of_decoding hk hphase n false false).trans ?_)
    rw [judge_failed, hlun]
    dsimp only
    rw [if_neg hstep, beq_eq_false_iff_ne.mpr hstep, Bool.false_and]
  · rw [exec_decodeComplete, execDecodeComplete, hj]
    refine next_congr ((jobDone_of_decoding hk hphase n false false).trans ?_)
    rw [judge_failed, hlun]
    dsimp only
    rw [if_neg hstep, beq_eq_false_iff_ne.mpr hstep, Bool.false_and]
  · rw [exec_decodeComplete, execDecodeComplete, hj]
    refine next_congr ((jobDone_of_decoding hk hphase n false false).trans ?_)
    rw [judge_failed, hlun]
    dsimp only
    have hlater : (j.step == 1) = false := by rw [hstep]; rfl
    rw [if_pos hstep, beq_iff_eq.mpr hstep, Bool.true_and, hlater, Bool.and_false]
  · rw [exec_parityAccumulatorMemoryError, execParityAccumulatorMemoryError, hserv]
    rfl
  · rw [exec_parityAccumulatorMemoryError, execParityAccumulatorMemoryError, hserv]
    rfl

/-- Settles O11: each step of a failed climb by the step that comes next; runs and patrols by their definitions. -/
theorem ladderAntennaAndPatrolAct : Obligations.LadderAntennaAndPatrolAct := by
  refine ⟨fun s c id k hk hphase => ⟨fun e he => exec_retryLadderStep_repaired hk hphase he,
      fun f hf => ⟨fun hover => ?_, fun hlast => ⟨fun hn => ?_, fun hn => ?_, fun hn => ?_, fun hn hsync => ?_, fun hfive hne hfail hsync => ?_⟩⟩,
      fun unread crc hlast hn hsync => ⟨fun hsolve => ?_, fun hsolve => ?_⟩,
      fun f hf hlast hn => ⟨fun hopen => ?_, fun hcomplete hno => ?_, fun m hcomplete hm hlit => ?_, fun m hcomplete hm hdark => ?_⟩⟩,
    fun s c run hserv hidle hrun => ?_, fun s c run hrun => ⟨fun habandoned => ⟨fun hband => ?_, fun hband => ?_⟩, fun hdone hswept => ?_⟩,
    fun s g b hserv hback hb => ⟨fun hcorr => ?_, fun hcorr => ?_⟩, fun s g b p hp hrun hleft hclosed => ?_⟩
  · rw [exec_retryLadderStep_failed hk hphase hf, if_pos hover]
  · rw [exec_retryLadderStep_failed hk hphase hf, if_neg (Nat.not_lt_of_le hlast), if_pos (by omega)]
    refine next_congr ?_
    rw [State.readStep, State.climbNext, hn]
    rfl
  · rw [exec_retryLadderStep_failed hk hphase hf, if_neg (Nat.not_lt_of_le hlast), if_pos (by omega)]
    refine next_congr ?_
    rw [State.readStep, State.climbNext, hn]
    rfl
  · rw [exec_retryLadderStep_failed hk hphase hf, if_neg (Nat.not_lt_of_le hlast), if_pos (by omega)]
    refine next_congr ?_
    rw [State.readStep, State.climbNext, hn]
    rfl
  · rw [exec_retryLadderStep_failed hk hphase hf, if_neg (Nat.not_lt_of_le hlast), if_neg (by omega), if_pos ⟨hn, hsync⟩]
  · subst hfail
    rw [exec_retryLadderStep_reconstructs hk hphase hf hlast hfive hsync, reconstruct_failed hne]
    rfl
  · rw [exec_retryLadderStep_reconstructs hk hphase LadderFacts.noConfusion hlast (Nat.le_of_eq hn.symm) fun _ => hsync, reconstruct_row hn]
    exact next_congr (congrArg (State.copyTurns · k.req.region) (if_pos hsolve))
  · rw [exec_retryLadderStep_reconstructs hk hphase LadderFacts.noConfusion hlast (Nat.le_of_eq hn.symm) fun _ => hsync, reconstruct_row hn]
    exact next_congr (congrArg (State.copyTurns · k.req.region) (if_neg (Bool.eq_false_iff.mp hsolve)))
  · rw [exec_retryLadderStep_six hk hphase hf hlast hn]
    exact next_congr (congrArg (State.copyTurns · k.req.region) (stepSix_incomplete (k := s.climbNext k) hopen))
  · rw [exec_retryLadderStep_six hk hphase hf hlast hn]
    exact next_congr (congrArg (State.copyTurns · k.req.region) (stepSix_noLeader (k := s.climbNext k) hcomplete hno))
  · rw [exec_retryLadderStep_six hk hphase hf hlast hn]
    exact next_congr (congrArg (State.copyTurns · k.req.region) ((stepSix_leader (k := s.climbNext k) hcomplete hm).trans (if_pos hlit)))
  · rw [exec_retryLadderStep_six hk hphase hf hlast hn]
    exact next_congr (congrArg (State.copyTurns · k.req.region)
      ((stepSix_leader (k := s.climbNext k) hcomplete hm).trans (if_neg (Bool.eq_false_iff.mp hdark))))
  · rw [exec_antennaRunStart, execAntennaRunStart, hserv, hidle, hrun]
    rfl
  · have hopen : ¬ ((s.updCluster c fun x => { x with antenna := none }).band (regionOfCluster c) run.band).phase == .erased := by simpa using hband
    rw [exec_antennaRunComplete, execAntennaRunComplete, hrun]
    dsimp only
    rw [if_pos habandoned, if_neg hopen]
  · have herased : ((s.updCluster c fun x => { x with antenna := none }).band (regionOfCluster c) run.band).phase == .erased := by simpa using hband
    rw [exec_antennaRunComplete, execAntennaRunComplete, hrun]
    dsimp only
    rw [if_pos habandoned, if_pos herased]
  · rw [exec_antennaRunComplete, execAntennaRunComplete, hrun]
    dsimp only
    rw [hdone, hswept]
    rfl
  · rw [exec_patrolStart, execPatrolStart, hserv, hback, hb]
    dsimp only
    rw [hcorr]
    rfl
  · have hsome : (s.band g b).corr.isNone = false := by
      simpa [Option.isSome_iff_ne_none] using hcorr
    rw [exec_patrolStart, execPatrolStart, hserv, hback, hb]
    dsimp only
    rw [hsome]
    rfl
  · have hband : (s.updRegion g fun r => { r with patrols := r.patrols.filter fun q => q.band != b }).band g b = s.band g b :=
      band_updRegion s g (fun r => { r with patrols := r.patrols.filter fun q => q.band != b }) (fun _ => rfl) b
    have hgo : ¬ (s.band g b).phase != .closed := by rw [hclosed]; decide
    rw [exec_patrolComplete, execPatrolComplete, hp]
    dsimp only
    rw [hrun, hleft, hband, if_neg hgo]
    rfl

end Sys2Proof.Machine
end

