-- ==== Sys2Proof/Proofs/RegionCommands.lean ====
section
/-! Commands of a region: pending updates, the journal, checkpoints and queries; the start of host fetch, Scarab and band parity's work
(R124 to R195). -/

namespace Sys2Proof.Machine

section Updates

variable {s : State} {g : RegionIx} {gran : Nat} {u : PendUpd}

/-- The oldest unplaced update of a resident granule is applied at the region that serves it, while its journal has room. -/
structure State.MayApply (s : State) (g : RegionIx) (gran : Nat) (u : PendUpd) : Prop where
  next : (s.regions[g]).nextUpdate gran = some u
  serves : (s.regions[g]).inService = true
  home : s.server gran = g
  resident : (s.regions[g]).isResident g gran = true
  room : (s.regions[g]).journal.full = false

theorem State.MayApply.gate (h : s.MayApply g gran u) :
    ¬ (!(s.regions[g]).inService || s.server gran != g || !(s.regions[g]).isResident g gran || (s.regions[g]).journal.full) = true := by
  rw [h.serves, h.home, h.resident, h.room, bne_self_eq_false]
  exact Bool.false_ne_true

theorem exec_pendingUpdateApply_deallocate (h : s.MayApply g gran u) (hkind : u.kind = .deallocate) :
    exec (.pendingUpdateApply g gran) s = .next (
      let t := (s.remap g gran .freed false).updRegion g fun r => { r with
        pend := r.pend.filter fun v => !(v.gran == gran && v.seq == u.seq), watch := r.watch.filter fun w => w.1 != gran }
      if (s.entryOf gran).state == .mapped || (s.entryOf gran).state == .foldInFlight then t.checkReclaimed g (s.entryOf gran).band.toNat else t) := by
  rw [exec_pendingUpdateApply, execPendingUpdateApply]
  dsimp only
  rw [h.next]
  dsimp only
  rw [if_neg h.gate, hkind]

/-- An encrypted write, and a zero, is merged with the granule's content while staging is not stopped. -/
theorem exec_pendingUpdateApply_merge {covered : Fin 16 → Option Unit4K} (h : s.MayApply g gran u) (hstaging : (s.regions[g]).stagingStopped = false)
    (hkind : (∃ units : Vector (Option Unit4K) 16, u.kind = .write units ∧ u.encrypted = true ∧ covered = fun i => units[i]) ∨
      (∃ figs : List Nat, u.kind = .zero figs ∧ covered = fun i => if figs.contains i.val then some (zeroUnit (s.nsKey u.nsid)) else none)) :
    exec (.pendingUpdateApply g gran) s = s.applyMerge g gran u true covered := by
  rw [exec_pendingUpdateApply, execPendingUpdateApply]
  dsimp only
  rw [h.next]
  dsimp only
  rw [if_neg h.gate]
  obtain ⟨units, hu, henc, rfl⟩ | ⟨figs, hu, rfl⟩ := hkind
  · rw [hu]
    dsimp only
    rw [henc, hstaging]
    rfl
  · rw [hu]
    dsimp only
    rw [hstaging]
    rfl

theorem applyMerge_reads {covered : Fin 16 → Option Unit4K} (hask : ((s.mergeReads gran covered).any fun i => !s.askedFor gran i .host none) = true) :
    s.applyMerge g gran u true covered =
      .next (s.wantFigs gran ((s.mergeReads gran covered).filter fun i => !s.askedFor gran i .host none) .host none) :=
  if_pos hask

/-- With every unit delivered the update is placed in the open staging band of its stream. -/
theorem applyMerge_places {covered : Fin 16 → Option Unit4K} {s1 s2 : State} {b : Nat} {pl : Placed}
    (hask : ((s.mergeReads gran covered).any fun i => !s.askedFor gran i .host none) = false)
    (hread : ((s.mergeReads gran covered).any fun i => (s.delivered? gran i .host none).isNone) = false)
    (hband : s.bandFor g .staging .slc u.stream = (s1, some b))
    (hplace : s1.placeIn g b (fun k f => Placed.mk gran u.nsid u.stream u.seq k f (BitVec.ofNat 32 s1.keeper.tk.opsec.toNat) s1.keeper.tk.mediaTemp
      (Vector.ofFn fun i => (covered i).getD (s.oldUnit gran u.nsid i)) false none) = (s2, some pl)) :
    s.applyMerge g gran u true covered = .next (((s2.endAsks fun r => r.gran == gran && r.who == .host && r.ref.isNone).updRegion g fun r =>
      { r with pend := r.pend.map fun v => if v.gran == gran && v.seq == u.seq then { v with at_ := some (b, pl.frame) } else v }).checkStaging g
        |>.throughRow g b u.stream) := by
  unfold State.applyMerge
  dsimp only
  rw [hask, hread, hband]
  dsimp only
  rw [hplace]
  rfl

end Updates

section Segments

variable {s : State} {g : RegionIx} {seg : Nat}

/-- A segment that no other non-resident one goes before becomes resident. -/
theorem exec_mapSegmentLoad_best (hserv : (s.regions[g]).inService = true) (hown : (s.regions[g]).segments.contains seg = true)
    (hnew : (s.regions[g]).resident.contains seg = false)
    (hbest : ∀ x ∈ (s.regions[g]).segments, (s.regions[g]).resident.contains x = false →
      s.loadRank g seg ≤ s.loadRank g x ∧ (s.loadRank g seg = 3 → seg ≤ x)) :
    exec (.mapSegmentLoad g seg) s = .next ((s.updRegion g fun r => { r with
      resident := r.resident ++ [seg], restoring := !(r.segments.all (r.resident ++ [seg]).contains) }).loadedTurns g) := by
  have hfirst : ¬ (((s.regions[g]).segments.filter fun x => !(s.regions[g]).resident.contains x).any fun x =>
      decide (s.loadRank g x < s.loadRank g seg) || (s.loadRank g seg == 3 && decide (x < seg))) = true := by
    simp only [List.any_eq_true, List.mem_filter, Bool.or_eq_true, Bool.and_eq_true, decide_eq_true_eq, beq_iff_eq, Bool.not_eq_true', not_exists, not_and]
    rintro x ⟨hx, hout⟩
    obtain ⟨hrank, htie⟩ := hbest x hx hout
    omega
  rw [exec_mapSegmentLoad, execMapSegmentLoad]
  dsimp only
  rw [hserv, hown, hnew, if_neg hfirst]
  rfl

end Segments

/-- Settles O12: an update by its kind; the journal's, checkpoints', segments' and query commands by their definitions. -/
theorem mapAndJournalCommandsAct : Obligations.MapAndJournalCommandsAct := by
  refine ⟨fun s g gran u hu hserv hhome hres hroom => ⟨fun hkind => ?_, fun covered hstaging hkind => ⟨fun hask => ?_, fun hask hread s1 s2 b pl hband hplace => ?_⟩⟩,
    fun s g => rfl, fun s g => ⟨fun hidle => ?_, fun hsome hres => ?_⟩, fun s g i hserv hdue hi => ?_, fun s g q => rfl,
    fun s g seg hserv hown => ⟨fun hnew hbest => exec_mapSegmentLoad_best hserv hown hnew hbest, fun hres hadopt hnew => ?_⟩,
    fun s g hi hhome hext hres => ?_, fun s g => rfl⟩
  · exact exec_pendingUpdateApply_deallocate ⟨hu, hserv, hhome, hres, hroom⟩ hkind
  · rw [exec_pendingUpdateApply_merge ⟨hu, hserv, hhome, hres, hroom⟩ hstaging hkind]
    exact applyMerge_reads hask
  · rw [exec_pendingUpdateApply_merge ⟨hu, hserv, hhome, hres, hroom⟩ hstaging hkind]
    exact applyMerge_places hask hread hband hplace
  · have hstop : ((s.journalDurable g).swarm.seqWaits.isEmpty || !(s.journalDurable g).stripeReserved) = true := by
      rcases hidle with h | h <;> simp [h]
    exact if_pos hstop
  · have hgo : ¬ ((s.journalDurable g).swarm.seqWaits.isEmpty || !(s.journalDurable g).stripeReserved) = true := by
      simpa [hres] using hsome
    exact if_neg hgo
  · have hgo : ¬ (!(s.regions[g]).inService || decide ((s.regions[g]).journal.sinceCapture < 128)) = true := by
      rw [hserv, decide_eq_false (Nat.not_lt_of_le hdue)]
      exact Bool.false_ne_true
    rw [exec_checkpointCapture, execCheckpointCapture]
    dsimp only
    rw [if_neg hgo, hi]
  · rw [exec_mapSegmentLoad, execMapSegmentLoad]
    dsimp only
    rw [hserv, hown, hres, hadopt, hnew]
    rfl
  · refine next_congr (updRegion_congr ?_)
    have hsome : (extentOf (s.regions[g]).tab.extents (hi.toNat * 2 ^ 32 + (s.regions[g]).queryLo.toNat)).isNone = false := by
      simpa using hext
    have hhere : (s.server (hi.toNat * 2 ^ 32 + (s.regions[g]).queryLo.toNat) != g ||
        (extentOf (s.regions[g]).tab.extents (hi.toNat * 2 ^ 32 + (s.regions[g]).queryLo.toNat)).isNone) = false := by
      rw [hhome, hsome, bne_self_eq_false]
      rfl
    rw [hhere, hres]
    rfl

theorem not_bnot_of_eq_true {b : Bool} (h : b = true) : ¬ (!b) = true := by
  rw [h]
  exact Bool.false_ne_true

theorem not_or_bnot_of_eq {a b : Bool} (ha : a = false) (hb : b = true) : ¬ (a || !b) = true := by
  rw [ha, hb]
  exact Bool.false_ne_true

section Scarab

variable {s : State} {g : RegionIx}

/-- The state in which the first candidate has taken the slot. -/
def State.reclaimTaken (s : State) (g : RegionIx) (k : Fin 2) (b : Nat) (why : ReclaimReason) (score : Nat) : State :=
  s.updRegion g fun r => { r with slots := r.slots.set k (some (Reclaim.mk b why score 0)) }

/-- RECLAIM_START with a free slot takes the first candidate: an empty band, a parity band or a data band. -/
theorem exec_reclaimStart_takes {k : Fin 2} {b : Nat} {why : ReclaimReason} {score : Nat} (hruns : s.scarabRuns g = true)
    (hslot : (s.regions[g]).slots[k] = none) (hsync : (s.regions[g]).resync = []) (hpick : s.pickReclaim g k = some (b, why, score)) :
    exec (.reclaimStart g k) s = .next (
      let t := s.reclaimTaken g k b why score
      let full := ((t.regions[g]).journal.tail.getLast?).map fun f => !f.closed && decide (253 ≤ f.used)
      if (s.regions[g]).valid b = 0 then
        let t := if full == some true then t.updRegion g RegionSt.closeTail else t
        ((t.jot g (.reclaimStart b why score none)).updBand g b fun x => { x with mappedRec := true }).jotNow g (.reclaimMapped b 0)
      else if (s.band g b).kind = .swarmParity then ((t.jot g (.reclaimStart b why score none)).moveRuns g b).runsMoved g b
      else
        let d := t.targetOf (((s.band g b).placed.head?.map (·.nsid)).getD 0)
        let p := t.bandFor g (if d = .slc then .staging else .relocation) d 0xFF
        (p.1.jot g (.reclaimStart b why score p.2)).reclaimNext g k) := by
  have hgo : ¬ (!s.scarabRuns g || ((s.regions[g]).slots[k]).isSome || !(s.regions[g]).resync.isEmpty) = true := by
    rw [hruns, hslot, hsync]
    exact Bool.false_ne_true
  rw [exec_reclaimStart, execReclaimStart, if_neg hgo, hpick]
  dsimp only
  by_cases hempty : (s.regions[g]).valid b = 0
  · have hbeq : ((s.regions[g]).valid b == 0) = true := by simpa using hempty
    rw [hbeq, if_pos rfl, if_pos hempty]
    rfl
  · have hbeq : ((s.regions[g]).valid b == 0) = false := by simpa using hempty
    rw [hbeq, if_neg Bool.false_ne_true, if_neg hempty]
    by_cases hkind : (s.band g b).kind = .swarmParity
    · rw [if_pos hkind, if_pos hkind]
      rfl
    · rw [if_neg hkind, if_neg hkind]
      rfl

/-- GRANULE_RELOCATE at the region that serves a resident granule, while copies run. -/
theorem exec_granuleRelocate_runs {gran : Nat} (hhome : s.server gran = g) (hruns : s.scarabRuns g = true) (hcopies : s.copiesRun = true)
    (hres : (s.regions[g]).isResident g gran = true) (hlit : (s.regions[g]).isDark gran = false) :
    exec (.granuleRelocate g gran) s =
      if (s.entryOf gran).state = .lost then
        if (s.regions[g]).copies.any (fun c => c.gran == gran) ||
            ((s.regions[g]).tab.bands.any fun x => x.placed.any fun pl => pl.gran == gran && pl.src.isSome) then .next s
        else .next ((s.updRegion g fun r => { r with relocNow := r.relocNow.filter (· != gran) }).copyAlone g gran)
      else if !((s.regions[g]).relocNow.contains gran || (s.regions[g]).watch.any fun w => w.1 == gran && decide (s.refreshCount ≤ w.2)) ||
          decide (16 ≤ (s.regions[g]).singles) then .next s
      else
        let t := s.updRegion g fun r => { r with relocNow := r.relocNow.filter (· != gran), watch := r.watch.filter fun w => w.1 != gran }
        .next (if (s.entryOf gran).state != .mapped || (s.regions[g]).copies.any (fun c => c.gran == gran) then t else t.copyAlone g gran) := by
  have hgo : ¬ (s.server gran != g || !s.scarabRuns g || !s.copiesRun || !(s.regions[g]).isResident g gran || (s.regions[g]).isDark gran) = true := by
    rw [hhome, hruns, hcopies, hres, hlit, bne_self_eq_false]
    exact Bool.false_ne_true
  exact if_neg hgo

end Scarab

/-- Settles O13: each command's definition under the clause's conditions. -/
theorem restoreReclaimAndParityAct : Obligations.RestoreReclaimAndParityAct := by
  refine ⟨fun s facts ms hstage hrescue hsafe => ?_,
    fun s g k b why score hruns hslot hsync hpick => ⟨fun hempty => ?_, fun hfull hkind => ?_, fun hfull hkind => ?_⟩,
    fun s g gran hhome hruns hcopies hres hlit => ⟨fun hmapped hwanted hfew hnone => ?_, fun hlost hnone hplaced => ?_⟩,
    fun s g b bad geo p hgeo hp hb => ⟨fun huse => ?_, fun huse => ⟨fun hopen => ?_, fun hall => ?_⟩⟩,
    fun s g spare a p ha hp hdur hdone lost => ⟨fun b done hnext => ⟨?_, ?_⟩, fun hnext failed => ?_⟩⟩
  · have hgo : ¬ (s.keeper.boot.stage ≠ .restore ∨ s.keeper.rescue.run.isSome = true ∨ s.keeper.fc.safe = true) := by
      rw [hstage, hrescue, hsafe]
      decide
    rw [exec_hostFetchStart, execHostFetchStart, if_neg hgo]
  · rw [exec_reclaimStart_takes hruns hslot hsync hpick]
    exact next_congr (if_pos hempty)
  · rw [exec_reclaimStart_takes hruns hslot hsync hpick]
    exact next_congr ((if_neg hfull).trans (if_pos hkind))
  · rw [exec_reclaimStart_takes hruns hslot hsync hpick]
    exact next_congr ((if_neg hfull).trans (if_neg hkind))
  · have hask : ((s.regions[g]).relocNow.contains gran || (s.regions[g]).watch.any fun w => w.1 == gran && decide (s.refreshCount ≤ w.2)) = true := by
      rcases hwanted with h | ⟨w, hw, hgran, hcount⟩
      · rw [h, Bool.true_or]
      · rw [Bool.or_eq_true, List.any_eq_true]
        exact .inr ⟨w, hw, by simp [hgran, hcount]⟩
    have hroom : decide (16 ≤ (s.regions[g]).singles) = false := decide_eq_false (Nat.not_le_of_lt hfew)
    have hkept : (s.entryOf gran).state ≠ .lost := by rw [hmapped]; decide
    have hcopy : ¬ ((s.entryOf gran).state != .mapped || (s.regions[g]).copies.any (fun c => c.gran == gran)) = true := by
      rw [hmapped, hnone]; decide
    rw [exec_granuleRelocate_runs hhome hruns hcopies hres hlit, if_neg hkept, hask, hroom]
    exact next_congr (if_neg hcopy)
  · rw [exec_granuleRelocate_runs hhome hruns hcopies hres hlit, if_pos hlost, hnone, hplaced]
    rfl
  · rw [exec_bandResync, execBandResync, hgeo, hp]
    dsimp only
    rw [if_neg (not_bnot_of_eq_true hb), if_pos huse]
  · rw [exec_bandResync, execBandResync, hgeo, hp]
    dsimp only
    rw [if_neg (not_bnot_of_eq_true hb), if_neg huse, if_neg (Bool.eq_false_iff.mp hopen)]
  · rw [exec_bandResync, execBandResync, hgeo, hp]
    dsimp only
    rw [if_neg (not_bnot_of_eq_true hb), if_neg huse, if_pos hall]
  · rw [exec_bandRebuild, execBandRebuild, ha, hp]
    dsimp only
    rw [if_neg (not_or_bnot_of_eq hdone hdur), hnext]
    dsimp only
    rw [if_neg Bool.false_ne_true]
  · rw [exec_bandRebuild, execBandRebuild, ha, hp]
    dsimp only
    rw [if_neg (not_or_bnot_of_eq hdone hdur), hnext]
    dsimp only
    rw [if_pos rfl]
  · rw [exec_bandRebuild, execBandRebuild, ha, hp]
    dsimp only
    rw [if_neg (not_or_bnot_of_eq hdone hdur), hnext]

end Sys2Proof.Machine
end

