-- ==== Sys2Proof/Proofs/Membership.lean ====
section
/-! Membership tables and epochs (R202 to R205, R294, R295). -/

namespace Sys2Proof.Machine

section Stage

variable {s : State} {ref : CmdRef} {off len : Nat} {last : Bool} {t : MemTable}

/-- A piece of a table that the command's size limit allows: in order and within the slot, or refused. -/
theorem exec_membershipStageStage_piece (h : s.admits .membershipStage ref) (hlen : ref.viaMi = false ∨ len ≤ 4096) :
    exec (.membershipStageStage ref off len last t) s =
      if off ≠ 0 ∧ off ≠ s.swarm.stageNext then .next (s.complete ref stStageOutOfOrder 0)
      else if 1048576 < off + len then .next (s.complete ref stStageOutOfOrder 0)
      else
        let u := if off = 0 then s.countErases (469 + 16 * s.swarm.stageSlot.val) 16 else s
        if !last then .next ((u.updSwarm fun w => { w with stageNext := off + len, staged := if off = 0 then none else w.staged }).complete ref stOk 0)
        else match u.tableFault (stagedTable t (off + len)) with
          | some c => .next (((u.updSwarm fun w => { w with stageNext := 0, staged := none }).raiseAt (refDie ref) 407 (BitVec.ofNat 32 c) 0).complete ref
            stTableRefused (BitVec.ofNat 32 c))
          | none => .next (((u.updSwarm fun w => { w with stageNext := 0, staged := some t }).raiseAt (refDie ref) 405 0 0).complete ref stOk 0) := by
  have hsmall : ¬ (ref.viaMi = true ∧ 4096 < len) := by
    rintro ⟨hmi, hbig⟩
    rcases hlen with h | h
    · exact absurd (h.symm.trans hmi) (by decide)
    · omega
  rw [exec_membershipStageStage, execMembershipStageStage, adminThen_admits h]
  exact if_neg hsmall

/-- A piece that comes in order and fits the slot. -/
theorem exec_membershipStageStage_inOrder (h : s.admits .membershipStage ref) (hlen : ref.viaMi = false ∨ len ≤ 4096)
    (horder : off = 0 ∨ off = s.swarm.stageNext) (hfits : off + len ≤ 1048576) :
    exec (.membershipStageStage ref off len last t) s =
      let u := if off = 0 then s.countErases (469 + 16 * s.swarm.stageSlot.val) 16 else s
      if !last then .next ((u.updSwarm fun w => { w with stageNext := off + len, staged := if off = 0 then none else w.staged }).complete ref stOk 0)
      else match u.tableFault (stagedTable t (off + len)) with
        | some c => .next (((u.updSwarm fun w => { w with stageNext := 0, staged := none }).raiseAt (refDie ref) 407 (BitVec.ofNat 32 c) 0).complete ref
          stTableRefused (BitVec.ofNat 32 c))
        | none => .next (((u.updSwarm fun w => { w with stageNext := 0, staged := some t }).raiseAt (refDie ref) 405 0 0).complete ref stOk 0) := by
  have hin : ¬ (off ≠ 0 ∧ off ≠ s.swarm.stageNext) := by tauto
  rw [exec_membershipStageStage_piece h hlen, if_neg hin, if_neg (Nat.not_lt_of_le hfits)]

end Stage

section Epochs

variable {s : State}

theorem exec_epochAnnounce_staged {hdr : MsgHdr} {t : MemTable} {h : BitVec 384} (hsess : (s.session? hdr.peer).isSome = true)
    (ht : s.swarm.staged = some t) :
    exec (.epochAnnounce hdr t.epoch h) s = .next (if t.headerHash = h then s.requestApply else s.raise2 407 3 0) := by
  have hgo : ¬ (s.session? hdr.peer).isNone = true := by
    rw [← Option.not_isSome, hsess]
    exact Bool.false_ne_true
  rw [exec_epochAnnounce, execEpochAnnounce, if_neg hgo, ht]
  dsimp only
  rw [if_neg (not_not.mpr rfl)]
  by_cases heq : t.headerHash = h
  · rw [if_neg (not_not.mpr heq), if_pos heq]
  · rw [if_pos heq, if_neg heq]

end Epochs

/-- Settles O14: a piece in order or refused, the slot's other operations, and the epochs' messages and timers. -/
theorem membershipCommandsAct : Obligations.MembershipCommandsAct := by
  refine ⟨fun s ref h => ⟨fun off len last t hlen => ⟨fun hfirst hnext => ?_, fun horder hbig => ?_, fun horder hfits => ⟨fun hlast => ?_,
        fun c hlast hfault => ?_, fun hlast hgood => ?_⟩⟩, fun t ht => ?_, fun hnone => ?_, ?_, ?_, ?_⟩,
    fun s hdr t hsess ht => ⟨?_, fun h hne => ?_⟩, fun s e he => ?_, fun s i x hx => ?_, fun s peer opid q hq => ?_⟩
  · rw [exec_membershipStageStage_piece h hlen, if_pos ⟨hfirst, hnext⟩]
  · have hin : ¬ (off ≠ 0 ∧ off ≠ s.swarm.stageNext) := by tauto
    rw [exec_membershipStageStage_piece h hlen, if_neg hin, if_pos hbig]
  · subst hlast
    exact exec_membershipStageStage_inOrder h hlen horder hfits
  · subst hlast
    rw [exec_membershipStageStage_inOrder h hlen horder hfits]
    dsimp only
    rw [hfault]
    rfl
  · subst hlast
    rw [exec_membershipStageStage_inOrder h hlen horder hfits]
    dsimp only
    rw [hgood]
    rfl
  · rw [exec_membershipStageApply, execMembershipStageApply, adminThen_admits h, ht]
  · rw [exec_membershipStageApply, execMembershipStageApply, adminThen_admits h, hnone]
  · rw [exec_membershipStageReadMemberKey, execMembershipStageReadMemberKey, adminThen_admits h]
  · rw [exec_membershipStageReadTableHeader, execMembershipStageReadTableHeader, adminThen_admits h]
  · rw [exec_membershipStageDiscard, execMembershipStageDiscard, adminThen_admits h]
  · rw [exec_epochAnnounce_staged hsess ht, if_pos rfl]
  · rw [exec_epochAnnounce_staged hsess ht, if_neg (Ne.symm hne)]
  · rw [exec_trailingEpochTimeout, execTrailingEpochTimeout, he]
  · rw [exec_heldMessageTimeout, execHeldMessageTimeout, hx]
  · rw [exec_epochAheadRetry, execEpochAheadRetry, hq]

end Sys2Proof.Machine
end

