-- ==== Sys2Proof/Proofs/SwarmTimers.lean ====
section
/-! Timers of swarm operations, heartbeats, light requests and dark waits (R208 to R219, R255, R256, R272, R273). -/

namespace Sys2Proof.Machine

section Timers

variable {s : State}

/-- Work that was refused for a reason starts again toward a lit holder. -/
theorem retryWork_refused {st pos i reason : Nat} {w : SegWork} (hw : s.workOf st pos i = some w) (hlit : s.isLit w.holder = true)
    (href : w.refused = some reason) : s.retryWork st pos i reason = s.startWork w := by
  rw [State.retryWork, hw]
  exact if_pos ⟨href, hlit⟩

/-- A request other than a notice or a record goes out again as it was. -/
theorem exec_requestAnswerTimeout_again {c o : Nat} {q : PendReq} (hq : s.waitOf ⟨c, s.epoch, o⟩ = some q)
    (hnotice : ∀ h u d, q.msg ≠ .sealNotice h u d) (hrecord : ∀ b r, q.msg ≠ .stripeRecord b r) :
    exec (.requestAnswerTimeout c o) s = .next (s.send q.hdr q.msg) := by
  rw [exec_requestAnswerTimeout, execRequestAnswerTimeout, hq]
  dsimp only
  split
  case h_1 h => exact absurd h (hnotice _ _ _)
  case h_2 h => exact absurd h (hrecord _ _)
  case h_3 => rfl

/-- LIGHT_REQUEST: cancelled, repeated or new. -/
theorem exec_lightRequest_heard {c : Nat} {r : LightReq} {cancel : Bool} (hears : s.hears c = true) :
    exec (.lightRequest c r cancel) s =
      let same (x : LightReq) : Bool := x.origin == r.origin && x.request == r.request
      if cancel then .next (s.updSwarm fun w => { w with light := w.light.filter fun x => !same x })
      else if s.swarm.light.any same then
        .next (s.updSwarm fun w => { w with light := w.light.map fun x => if same x then { x with waiting := r.waiting } else x })
      else .next ((s.updSwarm fun w => { w with light := w.light ++ [r] }).postAsync (.vendorLog 0xC2)) := by
  rw [exec_lightRequest, execLightRequest, hears]
  rfl

end Timers

/-- Settles O16: each timer's and message's definition under the clause's conditions. -/
theorem swarmTimersAndPeersAct : Obligations.SwarmTimersAndPeersAct := by
  refine ⟨fun s g b u hstate hlit => ?_, fun s g b u n hn hex hsealed => ?_, fun s n r hr hopen hleads hfence hdue => ?_,
    fun s st pos i w hw hlit => ⟨fun href => next_congr (retryWork_refused hw hlit href), fun href => next_congr (retryWork_refused hw hlit href)⟩,
    fun s c hsess hdark hfence => ?_, fun s c hsess hfence hps => ?_, fun s c st a hears => ?_,
    fun s c o q hq hnotice hrecord => exec_requestAnswerTimeout_again hq hnotice hrecord, fun s c o b r q hq hmsg => ?_,
    fun s c r hears => ⟨?_, fun hold => ?_, fun hnew => ?_⟩, fun s ref href => ?_⟩
  · have hgo : ¬ ((s.seg g b u.val).state ≠ .noticed ∨ s.isLit (s.seg g b u.val).stripe = false) := by
      rw [hstate, hlit]
      decide
    exact if_neg hgo
  · rw [exec_sealNoticeRetry, execSealNoticeRetry, hn]
    dsimp only
    rw [hex, hsealed]
    rfl
  · rw [exec_stripeShortTimeout, execStripeShortTimeout, hr]
    exact if_pos ⟨hopen, hleads, hfence, hdue⟩
  · have hgo : ¬ ((s.session? c).isNone || s.isLit c || s.swarm.fenced) = true := by
      rw [← Option.not_isSome, hsess, hdark, hfence]
      exact Bool.false_ne_true
    exact if_neg hgo
  · have hgo : ¬ ((s.session? c).isNone || s.swarm.fenced || decide (3 ≤ s.keeper.sup.ps)) = true := by
      rw [← Option.not_isSome, hsess, hfence, decide_eq_false (Nat.not_le_of_lt hps)]
      exact Bool.false_ne_true
    exact if_neg hgo
  · rw [exec_heartbeat, execHeartbeat, hears]
    rfl
  · rw [exec_requestAnswerTimeout, execRequestAnswerTimeout, hq]
    dsimp only
    rw [hmsg]
  · exact exec_lightRequest_heard hears
  · rw [exec_lightRequest_heard hears]
    exact if_pos hold
  · rw [exec_lightRequest_heard hears]
    exact if_neg (Bool.eq_false_iff.mp hnew)
  · rw [exec_darkWaitExpiry, execDarkWaitExpiry, href]
    rfl

end Sys2Proof.Machine
end

