-- ==== Sys2Proof/Proofs/LenosLink.lean ====
section
/-! The swarm link: ports, HELLO exchanges and sessions, delivery, and the rebuild list (R236 to R271). -/

namespace Sys2Proof.Machine

section Ports

variable {s : State} {d : DieIx}

theorem exec_swarmLinkTraining_clocked {partner : KrPartner} (haddr : (s.portAddr d).isSome = true) (hserv : (s.com d).inService = true)
    (hclocks : s.clocksRun = true) :
    exec (.swarmLinkTraining d partner) s =
      let t := s.updCrossing (.swarm d) fun c => { c with clockOn := partner != .none }
      match partner with
      | .kr2 n =>
        if n < 3 then .next (t.updPort d fun p => { p with speed := 2, fails := 0, inService := true })
        else .next ((t.updPort d fun p => { p with speed := 1, fails := 0, inService := true }).raise (dieSrc d 23))
      | .kr1 => .next (t.updPort d fun p => { p with speed := 1, fails := 0, inService := true })
      | .none => .next (t.updPort d fun p => { p with speed := 0, inService := false }) := by
  have hgo : ¬ ((s.portAddr d).isNone || !(s.com d).inService || !s.clocksRun) = true := by
    rw [← Option.not_isSome, haddr, hserv, hclocks]
    exact Bool.false_ne_true
  exact if_neg hgo

/-- A request for the own address is answered. -/
theorem portAnswer_own {a : BitVec 128} (htakes : s.portTakes d = true) (ha : s.portAddr d = some a) (kind : Nat) :
    s.portAnswer d kind a = s.updPort d fun p => { p with answers := p.answers ++ [(kind, a)] } := by
  simp [State.portAnswer, htakes, ha]

end Ports

section Hello

variable {s : State} {d : DieIx} {m : HelloMsg}

/-- A HELLO that reaches this member at a trained port. -/
structure State.HelloReaches (s : State) (d : DieIx) (m : HelloMsg) : Prop where
  port : s.portTakes d = true
  table : s.swarm.applied.isSome = true
  dst : m.dst = s.actingMember

theorem State.HelloReaches.gates (h : s.HelloReaches d m) :
    ¬ (!s.portTakes d || s.swarm.applied.isNone) = true ∧ ¬ (m.dst ≠ s.actingMember ∧ some m.dst ≠ s.ownMember) := by
  refine ⟨?_, fun hne => hne.1 h.dst⟩
  rw [← Option.not_isSome, h.port, h.table]
  exact Bool.false_ne_true

theorem exec_hello_malformed (h : s.HelloReaches d m) (hbad : helloMalformed m = true) :
    exec (.hello d m) s = .next (
      let t := s.raiseAt d 421 0 0
      if m.reply then t else t.send ⟨m.src, t.epoch, m.opid⟩ (.nak nakMalformed 0x01 0)) := by
  obtain ⟨hport, hdst⟩ := h.gates
  rw [exec_hello, execHello, if_neg hport, if_neg hdst, if_pos hbad]

/-- PHASE 1 is answered by its status. -/
theorem exec_hello_first (h : s.HelloReaches d m) (hgood : helloMalformed m = false) (hphase : m.phase = 1) :
    exec (.hello d m) s =
      if s.helloStatus m = 3 then .next ((s.authFail d m.src).refuseHello m 3)
      else if s.helloStatus m ≠ 0 then .next (s.refuseHello m (s.helloStatus m))
      else if s.ownCertOk = false then .next s
      else if ((s.swarm.hellos.find? fun h => h.peer == m.src).map fun h => h.initiator && decide (s.actingMember < m.src)).getD false then .next s
      else .next (s.answerHello m) := by
  obtain ⟨hport, hdst⟩ := h.gates
  rw [exec_hello, execHello, if_neg hport, if_neg hdst, if_neg (Bool.eq_false_iff.mp hgood)]
  dsimp only
  rw [if_pos hphase]
  by_cases h3 : s.helloStatus m = 3
  · rw [if_pos h3, if_pos h3, h3]
  · rw [if_neg h3, if_neg h3]
    rfl

/-- PHASE 2 and PHASE 3 go to the exchange in progress with their sender. -/
theorem exec_hello_later {e : HelloTry} (h : s.HelloReaches d m) (hgood : helloMalformed m = false) (hphase : m.phase ≠ 1)
    (he : s.swarm.hellos.find? (fun h => h.peer == m.src) = some e) :
    exec (.hello d m) s =
      if m.phase = 2 ∧ e.initiator = true then
        if m.status ≠ 0 then .next (s.abandonHello m.src)
        else if !((m.cert.map fun c => s.certOk m.src c).getD false && m.sigOk) then .next (s.authFail d m.src)
        else .next ((s.putHello (s.ownHello m.src 3 0 0 e.first.opid 0 none [e.first, m])).establish { e with peerId := m.sessionId, second := some m })
      else if m.phase = 3 ∧ e.initiator = false then
        if !m.sigOk then .next (s.authFail d m.src) else .next ((s.establish e).raiseAt d 401 0 0)
      else .next s := by
  obtain ⟨hport, hdst⟩ := h.gates
  rw [exec_hello, execHello, if_neg hport, if_neg hdst, if_neg (Bool.eq_false_iff.mp hgood)]
  dsimp only
  rw [if_neg hphase, he]
  rfl

/-- A session newly established holds the keys that its exchange derives. -/
theorem establish_keys {h : HelloTry} (hnone : s.session? h.peer = none) :
    ((s.establish h).session? h.peer).map (fun x => (x.txKey, x.rxKey)) = some h.keys := by
  have hnone' : (s.updSwarm fun w => { w with
      hellos := w.hellos.filter fun x => x.peer != h.peer, retryHello := w.retryHello.filter (· != h.peer) }).session? h.peer = none := hnone
  have hfind : s.swarm.sessions.find? (fun x => x.peer == h.peer) = none := hnone
  unfold State.establish
  dsimp only
  rw [hnone']
  simp [State.session?, State.updSwarm, hfind]

/-- Both ends of an exchange that share a secret derive the same keys, for opposite directions. -/
theorem keys_swapped {a b : HelloTry} {m : HelloMsg} {p q : Nat × Nat} (ha : a.initiator = true) (hb : b.initiator = false) (hfirst : a.first = b.first)
    (ha2 : a.second = some m) (hb2 : b.second = some m) (hp : m.ephKey = some p) (hq : b.first.ephKey = some q)
    (hz : sharedX a.scalar p = sharedX b.scalar q) : a.keys = (b.keys.2, b.keys.1) := by
  simp [HelloTry.keys, ha, hb, hfirst, ha2, hb2, hp, hq, hz]

end Hello

section Delivery

variable {s : State}

/-- A sealed packet of the current session is judged by its counter and its tag; a good one is taken. -/
theorem exec_lenosPacket_session {d : DieIx} {p : LenosPkt} {x : Session} (htakes : s.portTakes d = true) (hversion : p.version = 1) (hkind : p.kind = 1)
    (hdst : p.dst = s.actingMember) (hx : s.sessionAt p.src p.session = some (x, true)) :
    exec (.lenosPacket d p) s =
      if !x.rx[p.half].fresh p.ctr then .next ((s.updPort d fun q => { q with rejReplay := satAdd 255 q.rejReplay 1 }).raiseAt d 404 0 0)
      else if !p.tagOk || p.sealKey ≠ x.rxKey then .next ((s.updPort d fun q => { q with rejAuth := satAdd 255 q.rejAuth 1 }).raiseAt d 403 0 0)
      else
        let h := { x.rx[p.half].take p.ctr with ackDue := x.rx[p.half].ackDue || !p.msgs.isEmpty }
        let bad (m : RxMsg) : Bool := m.malformed || p.bodyBad
        let t := (s.updSession p.src fun y => { y with rx := y.rx.set p.half h }).updSession p.src fun y =>
          { y with rx := y.rx.set p.half ((p.msgs.filter fun m => !bad m).foldl (fun (z : HalfRx) m => z.msg m.msn) y.rx[p.half]) }
        let a := x.tx[p.ackHalf].ack p.ackBase p.ackMap p.credit
        let t := (t.sealWith p.src p.ackHalf fun _ => a.1).updPort p.ackHalf fun q => { q with retx := satAdd 0xFFFFFFFF q.retx a.2 }
        let t := if p.bodyBad && p.msgs.isEmpty then t.raiseAt d 421 0 0 else t
        .next ((p.msgs.filter bad).foldl (fun s m =>
          let s := s.raiseAt d 421 0 0
          if m.isReply then s else s.send { peer := p.src, epoch := s.epoch, opid := m.opid } (.nak nakMalformed m.type 0)) t) := by
  have hform : ¬ (p.version ≠ 1 ∨ 1 < p.kind) := by omega
  have hsealed : ¬ p.kind = 0 := by omega
  have hhere : ¬ (p.dst ≠ s.actingMember ∧ some p.dst ≠ s.ownMember) := fun h => h.1 hdst
  rw [exec_lenosPacket, execLenosPacket, htakes]
  refine (if_neg Bool.false_ne_true).trans ((if_neg hform).trans ((if_neg hsealed).trans ((if_neg hhere).trans ?_)))
  rw [hx]
  rfl

/-- An acknowledgement that is due is sealed on its half. -/
theorem exec_ackTimer_due {c : Nat} {k : Fin 2} {x : Session} (hx : s.session? c = some x) (hdue : x.rx[k].ackDue = true) (hfence : s.swarm.fenced = false) :
    exec (.ackTimer c k) s = .next ((if counterEnd ≤ x.tx[k].ctr then s
      else s.updSession c fun x => { x with rx := x.rx.set k { x.rx[k] with ackDue := false } }).sealWith c k HalfTx.sealEmpty) := by
  have hgo : ¬ (!x.rx[k].ackDue || s.swarm.fenced) = true := by
    rw [hdue, hfence]
    exact Bool.false_ne_true
  rw [exec_ackTimer, execAckTimer, hx]
  exact if_neg hgo

/-- An acknowledgement that a record has carried. -/
def Session.clearAck (k : Fin 2) (x : Session) : Session := { x with rx := x.rx.set k { x.rx[k] with ackDue := false } }

/-- A half that has sealed a record without messages. -/
def Session.sealEmptyAt (k : Fin 2) (x : Session) : Session := { x with tx := x.tx.set k x.tx[k].sealEmpty }

theorem sealEmpty_open {h : HalfTx} (hlt : h.ctr < counterEnd) : h.sealEmpty = { h with ctr := h.ctr + 1 } := if_neg (Nat.not_le_of_lt hlt)

theorem sealEmpty_exhausted {h : HalfTx} (hle : counterEnd ≤ h.ctr) : h.sealEmpty = { h with refused := true } := if_pos hle

theorem sealEmptyAt_refused {x : Session} {k : Fin 2} (hle : counterEnd ≤ x.tx[k].ctr) :
    x.sealEmptyAt k = { x with tx := x.tx.set k { x.tx[k] with refused := true } } := by
  rw [Session.sealEmptyAt, sealEmpty_exhausted hle]

theorem exec_ackTimer_open {c : Nat} {k : Fin 2} {x : Session} (hx : s.session? c = some x) (hdue : x.rx[k].ackDue = true) (hfence : s.swarm.fenced = false)
    (hlt : x.tx[k].ctr < counterEnd) : exec (.ackTimer c k) s = .next (s.updSession c fun y => (y.clearAck k).sealEmptyAt k) := by
  have hread : (s.updSession c (Session.clearAck k)).session? c = some (x.clearAck k) := by
    rw [State.session?_updSession s c (Session.clearAck k) fun _ => rfl, hx]
    rfl
  have hquiet : ((x.clearAck k).tx[k].sealEmpty).refused = (x.clearAck k).tx[k].refused :=
    (congrArg HalfTx.refused (sealEmpty_open (h := x.tx[k]) hlt) :)
  rw [exec_ackTimer_due hx hdue hfence, if_neg (Nat.not_le_of_lt hlt)]
  refine next_congr ((State.sealWith_quiet _ c k _ _ hread hquiet).trans ?_)
  exact State.updSession_updSession s c (Session.clearAck k) (Session.sealEmptyAt k) fun _ => rfl

theorem exec_ackTimer_firstRefused {c : Nat} {k : Fin 2} {x : Session} (hx : s.session? c = some x) (hdue : x.rx[k].ackDue = true)
    (hfence : s.swarm.fenced = false) (hle : counterEnd ≤ x.tx[k].ctr) (href : x.tx[k].refused = false) :
    exec (.ackTimer c k) s = .next ((s.updSession c (Session.sealEmptyAt k)).raise (dieSrc k 12)) := by
  rw [exec_ackTimer_due hx hdue hfence, if_pos hle]
  exact next_congr (State.sealWith_refused s c k _ x hx href (congrArg HalfTx.refused (sealEmpty_exhausted hle)))

theorem exec_ackTimer_refusedAgain {c : Nat} {k : Fin 2} {x : Session} (hx : s.session? c = some x) (hdue : x.rx[k].ackDue = true)
    (hfence : s.swarm.fenced = false) (hle : counterEnd ≤ x.tx[k].ctr) (href : x.tx[k].refused = true) :
    exec (.ackTimer c k) s = .next (s.updSession c (Session.sealEmptyAt k)) := by
  rw [exec_ackTimer_due hx hdue hfence, if_pos hle]
  exact next_congr (State.sealWith_quiet s c k _ x hx ((congrArg HalfTx.refused (sealEmpty_exhausted hle)).trans href.symm))

end Delivery

section Rebuild

variable {s : State} {t : RebuildTask} {rows : List RowFacts} {applied : List Nat}

theorem rebuildTaskStart_gate (hfence : s.swarm.fenced = false) (hback : s.backgroundOk = true)
    (hfew : (s.swarm.tasks.filter (·.running)).length < 4) :
    ¬ (s.swarm.fenced || !s.backgroundOk || decide (4 ≤ (s.swarm.tasks.filter (·.running)).length)) = true := by
  rw [hfence, hback, decide_eq_false (Nat.not_le_of_lt hfew)]
  exact Bool.false_ne_true

theorem exec_rebuildTaskStart_dark {c : Nat} (hfence : s.swarm.fenced = false) (hback : s.backgroundOk = true)
    (hfew : (s.swarm.tasks.filter (·.running)).length < 4) (hnext : s.nextTask = some t) :
    exec (.rebuildTaskStart rows (some c) applied) s = .next ((s.updTask t fun x => { x with aside := true }).postLight c 1) := by
  rw [exec_rebuildTaskStart, execRebuildTaskStart, if_neg (rebuildTaskStart_gate hfence hback hfew), hnext]

/-- A task without lost rows goes to its target, or without one is retracted, set aside or recomputed by its kind. -/
def State.startTask (s : State) (t : RebuildTask) (applied : List Nat) : Out :=
  match t.target with
  | some c => .next (if s.isLit c then s.sendPush t c else s.updTask t fun x => { x with aside := true })
  | none =>
    if t.data then .next (s.retractBehalf t)
    else if t.index ≠ 0 then .next (s.updTask t fun x => { x with aside := true })
    else match s.stripe? t.stripe with
      | none => .next ((s.updTask t fun x => { x with done := true }).checkTasks)
      | some r => match s.takeRun (s.stripeRegion t.stripe) .accumulation .slc with
        | (s, none) => .next s
        | (s, some n) =>
          .next (((s.putStripe { r with cur := some n, data := r.data.zipIdx.map fun x => { x.1 with applied := applied.contains x.2 } }).updTask t
            fun x => { x with done := true }).advanceStripe t.stripe).checkTasks

theorem exec_rebuildTaskStart_lit (hfence : s.swarm.fenced = false) (hback : s.backgroundOk = true)
    (hfew : (s.swarm.tasks.filter (·.running)).length < 4) (hnext : s.nextTask = some t)
    (hrows : t.data = true → rows.filter (rowLost t.index) = []) :
    exec (.rebuildTaskStart rows none applied) s =
      (s.updTask { t with lostRows := [] } fun x => { x with lostRows := [] }).startTask { t with lostRows := [] } applied := by
  have hlost : (if t.data then (rows.filter (rowLost t.index)).map (·.slot) else []) = [] := by
    split
    case isTrue h => rw [hrows h]; rfl
    case isFalse => rfl
  rw [exec_rebuildTaskStart, execRebuildTaskStart, if_neg (rebuildTaskStart_gate hfence hback hfew), hnext]
  dsimp only
  rw [hlost]
  rfl

theorem startTask_target {c : Nat} (hc : t.target = some c) :
    s.startTask t applied = .next (if s.isLit c then s.sendPush t c else s.updTask t fun x => { x with aside := true }) := by
  rw [State.startTask, hc]

theorem startTask_noTarget (hc : t.target = none) :
    s.startTask t applied =
      if t.data then .next (s.retractBehalf t)
      else if t.index ≠ 0 then .next (s.updTask t fun x => { x with aside := true })
      else match s.stripe? t.stripe with
        | none => .next ((s.updTask t fun x => { x with done := true }).checkTasks)
        | some r => match s.takeRun (s.stripeRegion t.stripe) .accumulation .slc with
          | (s, none) => .next s
          | (s, some n) =>
            .next (((s.putStripe { r with cur := some n, data := r.data.zipIdx.map fun x => { x.1 with applied := applied.contains x.2 } }).updTask t
              fun x => { x with done := true }).advanceStripe t.stripe).checkTasks := by
  rw [State.startTask, hc]

/-- A task refused for a reason is pushed again to its target, or set aside while that is dark. -/
theorem offerPush_refused {st i c reason : Nat} {data : Bool}
    (ht : s.swarm.tasks.find? (fun t => t.stripe == st && t.data == data && t.index == i && t.refused == some reason) = some t) (hc : t.target = some c) :
    s.offerPush reason st data i = if s.isLit c then s.sendPush t c else s.updTask t fun x => { x with refused := none, aside := true } := by
  rw [State.offerPush, ht]
  dsimp only
  rw [hc]

end Rebuild

/-- Settles O18: ports and exchanges by their cases; keys by the exchange's derivation. -/
theorem lenosPortsAndSessionsAct : Obligations.LenosPortsAndSessionsAct := by
  refine ⟨fun s d haddr hserv hclocks => ⟨fun n hn => ?_, fun n hn => ?_, ?_, ?_⟩, fun s d hspeed => next_congr (if_neg hspeed),
    fun s d htakes => ⟨fun a ha => ⟨next_congr (portAnswer_own htakes ha 1), next_congr (portAnswer_own htakes ha 2), next_congr (portAnswer_own htakes ha 3)⟩, ?_⟩,
    fun s d => rfl, fun s d m hport htable hdst => ⟨fun hbad => ⟨fun hreply => ?_, fun hreq => ?_⟩, fun hgood => ⟨fun hphase hst hcert hmine => ?_,
      fun hphase hst => ?_, fun n hphase hst h0 h3 => ?_, fun h hh => ⟨fun hphase hinit hst => ?_, fun hphase hinit hst hok => ?_, fun hphase hinit hst hbad => ?_,
        fun hphase hinit hsig => ?_, fun hphase hinit hsig => ?_⟩⟩⟩,
    fun s h hnone => establish_keys hnone, fun a b m p q ha hb hfirst ha2 hb2 hp hq hz => keys_swapped ha hb hfirst ha2 hb2 hp hq hz,
    fun s c => rfl, fun s c hc => if_pos hc, fun s c x hx => ⟨fun hlt => ?_, fun hle => ?_, fun hold => ?_⟩⟩
  · rw [exec_swarmLinkTraining_clocked haddr hserv hclocks]
    exact if_pos hn
  · rw [exec_swarmLinkTraining_clocked haddr hserv hclocks]
    exact if_neg (Nat.not_lt_of_le hn)
  · exact exec_swarmLinkTraining_clocked haddr hserv hclocks
  · exact exec_swarmLinkTraining_clocked haddr hserv hclocks
  · rw [exec_otherInboundPacket, execOtherInboundPacket, htakes]
    rfl
  · rw [exec_hello_malformed ⟨hport, htable, hdst⟩ hbad, hreply]
    rfl
  · rw [exec_hello_malformed ⟨hport, htable, hdst⟩ hbad, hreq]
    rfl
  · have hfree : ¬ ((s.swarm.hellos.find? fun h => h.peer == m.src).map fun h => h.initiator && decide (s.actingMember < m.src)).getD false = true := by
      cases hh : s.swarm.hellos.find? fun h => h.peer == m.src with
      | none => exact Bool.false_ne_true
      | some h => rcases hmine h hh with hi | hi <;> simp [hi]
    rw [exec_hello_first ⟨hport, htable, hdst⟩ hgood hphase, hst, hcert, if_neg hfree]
    rfl
  · rw [exec_hello_first ⟨hport, htable, hdst⟩ hgood hphase, if_pos hst]
  · rw [exec_hello_first ⟨hport, htable, hdst⟩ hgood hphase, hst, if_neg h3, if_pos h0]
  · rw [exec_hello_later ⟨hport, htable, hdst⟩ hgood (by omega) hh, if_pos ⟨hphase, hinit⟩, if_pos hst]
  · rw [exec_hello_later ⟨hport, htable, hdst⟩ hgood (by omega) hh, if_pos ⟨hphase, hinit⟩, if_neg (not_not.mpr hst), hok]
    rfl
  · rw [exec_hello_later ⟨hport, htable, hdst⟩ hgood (by omega) hh, if_pos ⟨hphase, hinit⟩, if_neg (not_not.mpr hst), hbad]
    rfl
  · rw [exec_hello_later ⟨hport, htable, hdst⟩ hgood (by omega) hh, if_neg (by omega), if_pos ⟨hphase, hinit⟩, hsig]
    rfl
  · rw [exec_hello_later ⟨hport, htable, hdst⟩ hgood (by omega) hh, if_neg (by omega), if_pos ⟨hphase, hinit⟩, hsig]
    rfl
  · rw [exec_sessionRekey, execSessionRekey, hx, decide_eq_true hlt]
    rfl
  · rw [exec_sessionRekey, execSessionRekey, hx, decide_eq_false (Nat.not_lt_of_le hle)]
    rfl
  · have hkept : ¬ x.old.isNone = true := by simpa using hold
    rw [exec_oldSessionErase, execOldSessionErase, hx]
    exact if_neg hkept

/-- Settles O19: a packet of a session by its counter and tag; sealing by the half's counter; the other timers by their definitions. -/
theorem lenosDeliveryActs : Obligations.LenosDeliveryActs := by
  refine ⟨fun s d p htakes => ⟨fun hform => ?_, fun x hversion hkind hdst hx => ⟨fun hfresh => ?_, fun hfresh htag => ?_, fun hfresh htag hkey hbody hmsgs => ?_⟩⟩,
    fun s c k x hx hdue hfence => ⟨fun hlt => ⟨fun x => (x.clearAck k).sealEmptyAt k, ?_, exec_ackTimer_open hx hdue hfence hlt⟩,
      fun hle href => ⟨Session.sealEmptyAt k, sealEmptyAt_refused hle, exec_ackTimer_firstRefused hx hdue hfence hle href⟩,
      fun hle href => ⟨Session.sealEmptyAt k, ?_, exec_ackTimer_refusedAgain hx hdue hfence hle href⟩⟩,
    fun s c k n r hr hctr => ?_, fun s c k x hx hun => ⟨fun hpath => ?_, fun hpath => ?_⟩, fun s c => rfl, fun s c hdark hnew hflag hpeer => ?_⟩
  · rw [exec_lenosPacket, execLenosPacket, htakes]
    exact if_pos hform
  · rw [exec_lenosPacket_session htakes hversion hkind hdst hx, hfresh]
    rfl
  · have hbad : (!p.tagOk || decide (p.sealKey ≠ x.rxKey)) = true := by
      rcases htag with h | h <;> simp [h]
    rw [exec_lenosPacket_session htakes hversion hkind hdst hx, hfresh]
    exact (if_neg Bool.false_ne_true).trans (if_pos hbad)
  · have hgood : ¬ (!p.tagOk || decide (p.sealKey ≠ x.rxKey)) = true := by simp [htag, hkey]
    rw [exec_lenosPacket_session htakes hversion hkind hdst hx, hfresh]
    refine (if_neg Bool.false_ne_true).trans ((if_neg hgood).trans ?_)
    simp only [hbody, Bool.or_false, hmsgs]
    rfl
  · have hctr : (x.clearAck k).tx[k].sealEmpty = { x.tx[k] with ctr := x.tx[k].ctr + 1 } := sealEmpty_open hlt
    dsimp only
    rw [Session.sealEmptyAt, hctr]
    rfl
  · have hsame : { x.tx[k] with refused := true } = x.tx[k] := by rw [← href]
    rw [sealEmptyAt_refused hle, hsame]
    exact congrArg (fun v => ({ x with tx := v } : Session)) (Vector.set_getElem_self _)
  · rw [exec_retransmissionTimeout, execRetransmissionTimeout, hr]
    dsimp only
    rw [show counterEnd = 2 ^ 33 from rfl, hctr]
    rfl
  · have hgo : ¬ x.tx[k].unacked.isEmpty = true := by simpa using hun
    rw [exec_pathProgressTimeout, execPathProgressTimeout, hx]
    exact (if_neg hgo).trans (dif_pos hpath)
  · have hgo : ¬ x.tx[k].unacked.isEmpty = true := by simpa using hun
    have hlast : ¬ x.tx[k].path.val < 3 := by rw [hpath]; decide
    rw [exec_pathProgressTimeout, execPathProgressTimeout, hx]
    exact (if_neg hgo).trans (dif_neg hlast)
  · have hgo : ¬ (s.isLit c || (s.peer c).reported || s.peerFlag c hbDiapause || !(s.swarm.peers.any fun p => p.member == c)) = true := by
      rw [hdark, hnew, hflag, hpeer]
      exact Bool.false_ne_true
    exact if_neg hgo

/-- Settles O20: the first task by what it needs and where it goes; a refused push by its target's light. -/
theorem rebuildTasksStartAndRetry : Obligations.RebuildTasksStartAndRetry := by
  refine ⟨fun s t rows applied hfence hback hfew hnext => ⟨fun c => ?_, fun hrows => ⟨fun c hc hlit => ?_, fun c hc hdark => ?_, fun hc hdata => ?_,
      fun hc hpar hix => ?_, fun r s'' n hc hpar hix hr hrun => ?_⟩⟩,
    fun s st i c data t hc => ⟨fun ht => ⟨fun hlit => ?_, fun hdark => ?_⟩, fun ht => ⟨fun hlit => ?_, fun hdark => ?_⟩⟩⟩
  · exact exec_rebuildTaskStart_dark hfence hback hfew hnext
  · exact (exec_rebuildTaskStart_lit hfence hback hfew hnext hrows).trans ((startTask_target (t := { t with lostRows := [] }) hc).trans (next_congr (if_pos hlit)))
  · exact (exec_rebuildTaskStart_lit hfence hback hfew hnext hrows).trans
      ((startTask_target (t := { t with lostRows := [] }) hc).trans (next_congr (if_neg (Bool.eq_false_iff.mp hdark))))
  · exact (exec_rebuildTaskStart_lit hfence hback hfew hnext hrows).trans ((startTask_noTarget (t := { t with lostRows := [] }) hc).trans (if_pos hdata))
  · exact (exec_rebuildTaskStart_lit hfence hback hfew hnext hrows).trans ((startTask_noTarget (t := { t with lostRows := [] }) hc).trans
      ((if_neg (Bool.eq_false_iff.mp hpar)).trans (if_pos hix)))
  · rw [exec_rebuildTaskStart_lit hfence hback hfew hnext hrows, startTask_noTarget (t := { t with lostRows := [] }) hc]
    refine (if_neg (Bool.eq_false_iff.mp hpar)).trans ((if_neg (not_not.mpr hix)).trans ?_)
    dsimp only
    rw [hr]
    dsimp only
    rw [hrun]
  · exact next_congr ((offerPush_refused ht hc).trans (if_pos hlit))
  · exact next_congr ((offerPush_refused ht hc).trans (if_neg (Bool.eq_false_iff.mp hdark)))
  · exact next_congr ((offerPush_refused ht hc).trans (if_pos hlit))
  · exact next_congr ((offerPush_refused ht hc).trans (if_neg (Bool.eq_false_iff.mp hdark)))

end Sys2Proof.Machine
end

