-- ==== Sys2Proof/Proofs/HostPorts.lean ====
section
/-! Links, controllers, doorbells, queues and features (R278 to R293). -/

namespace Sys2Proof.Machine

section Ports

variable {s : State} {d : DieIx}

theorem exec_pcieLinkTraining_trains {gen lanes : Nat} (hcfg : s.configInit d = true) (hclocks : s.clocksRun = true) (hperst : s.dies[d].host.perst = false)
    (hlo : 3 ≤ gen) (hhi : gen ≤ 5) (hlanes : lanes = 1 ∨ lanes = 2 ∨ lanes = 4) :
    exec (.pcieLinkTraining d gen lanes) s = .next (
      let t := (s.updHost d fun h => { h with speed := gen - 2, width := if lanes = 4 then 2 else lanes - 1 }).clockOrder true [.pcie d]
      if gen < 5 ∨ lanes < 4 then t.raise (dieSrc d 1) else t) := by
  have hgo : ¬ (!s.configInit d || !s.clocksRun || s.dies[d].host.perst || decide (gen < 3) || decide (5 < gen) || !([1, 2, 4].contains lanes)) = true := by
    rw [hcfg, hclocks, hperst, decide_eq_false (Nat.not_lt_of_le hlo), decide_eq_false (Nat.not_lt_of_le hhi)]
    rcases hlanes with rfl | rfl | rfl <;> decide
  exact if_neg hgo

theorem exec_functionLevelReset_up (hup : s.hostLinkUp d = true) (hlive : s.portDead = false) :
    exec (.functionLevelReset d) s = .next ((s.hostReset d).raise (dieSrc d 2)) := by
  have hgo : ¬ (!s.hostLinkUp d || s.portDead) = true := by
    rw [hup, hlive]
    exact Bool.false_ne_true
  exact if_neg hgo

theorem exec_configRequest_powered (hperst : s.dies[d].host.perst = false) (hvin : s.keeper.sup.vinOk = true) :
    exec (.configRequest d) s = .next (s.updHost d fun h => { h with cfgAnswers := h.cfgAnswers ++ [s.configInit d] }) := by
  have hgo : ¬ (s.dies[d].host.perst || !s.keeper.sup.vinOk) = true := by
    rw [hperst, hvin]
    exact Bool.false_ne_true
  exact if_neg hgo

theorem exec_controllerEnable_up {a c : Nat} (hup : s.hostLinkUp d = true) (hcfg : s.configInit d = true) (hoff : s.dies[d].host.enabled = false) :
    exec (.controllerEnable d a c) s = .next ((s.updHost d fun h => { h with
      enabled := true, shst := 0, subs := [SubQueue.mk 0 0 a 0], cpls := [CplQueue.mk 0 c 0 0 true] }).controllerReady d) := by
  have hgo : ¬ (!s.hostLinkUp d || !s.configInit d || s.dies[d].host.enabled) = true := by
    rw [hup, hcfg, hoff]
    exact Bool.false_ne_true
  exact if_neg hgo

theorem recoveryEnds_iff : s.recoveryEnds = true ↔ s.keeper.boot.stage = .recovery ∧ s.keeper.boot.recoveryCommitted = true := by
  rw [State.recoveryEnds, Bool.and_eq_true, beq_iff_eq]

theorem exec_controllerReset_enabled (hon : s.dies[d].host.enabled = true) :
    exec (.controllerReset d) s = .next (
      let t := ((s.hostReset d).updHost d fun h => { h with cfs := s.keeper.fc.safe }).raiseAt d 465 0 0
      if t.recoveryEnds then t.takePending.startRescue false false true else t) := by
  have hgo : ¬ (!s.dies[d].host.enabled) = true := by rw [hon]; exact Bool.false_ne_true
  exact if_neg hgo

theorem exec_normalShutdown_first (hon : s.dies[d].host.enabled = true) (hlive : s.portDead = false) (hshst : s.dies[d].host.shst = 0) :
    exec (.normalShutdown d) s = .next ((((s.updHost d fun h => { h with shst := 1 }).raiseAt d 467 0 0).startFlush).settleShutdown d) := by
  have hgo : ¬ (!s.dies[d].host.enabled || s.dies[d].host.shst != 0 || s.portDead) = true := by
    rw [hon, hlive, hshst]
    exact Bool.false_ne_true
  exact if_neg hgo

theorem exec_abruptShutdown_first (hon : s.dies[d].host.enabled = true) (hlive : s.portDead = false) (hshst : s.dies[d].host.shst ≠ 2) :
    exec (.abruptShutdown d) s = .next ((((s.endHostWork d).clearSlots d).updHost d fun h => { h with
      shst := 2, slots := [], backlog := [], writes := h.writes.map fun w => { w with orphan := true } }).raiseAt d 468 0 0) := by
  have hgo : ¬ (!s.dies[d].host.enabled || s.dies[d].host.shst == 2 || s.portDead) = true := by
    rw [hon, hlive, beq_false_of_ne hshst]
    exact Bool.false_ne_true
  exact if_neg hgo

theorem exec_nvmSubsystemReset_up (hlive : s.portDead = false) (hup : s.hostLinkUp d = true) :
    exec (.nvmSubsystemReset d 0x4E564D65) s =
      let t := s.raiseAt d 466 0 0
      if t.fw.pendingSlot.isSome || t.recoveryEnds then .next (t.takePending.startRescue false false true)
      else .next ((((t.hostReset 0).hostReset 1).updHost 0 fun h => { h with speed := 0, width := 0 }).updHost 1 fun h => { h with speed := 0, width := 0 }) := by
  have hgo : ¬ ((0x4E564D65 : Word) ≠ 0x4E564D65 ∨ s.portDead = true ∨ s.hostLinkUp d = false) := by
    rw [hlive, hup]
    exact fun h => h.elim (fun h => h rfl) fun h => h.elim Bool.false_ne_true fun h => Bool.false_ne_true h.symm
  exact if_neg hgo

theorem exec_submissionQueueDoorbell_queue {id v : Nat} {q : SubQueue} (hup : s.hostLinkUp d = true) (hon : s.dies[d].host.enabled = true)
    (hq : s.dies[d].host.subs.find? (fun q => q.id == id) = some q) :
    exec (.submissionQueueDoorbell d id v) s = if q.size ≤ v then .next (s.badDoorbell d)
      else .next (s.updHost d fun h => { h with subs := h.subs.map fun q => if q.id == id then { q with tail := v } else q }) := by
  have hgo : ¬ (!s.dies[d].host.enabled || !s.hostLinkUp d) = true := by
    rw [hon, hup]
    exact Bool.false_ne_true
  refine (if_neg hgo).trans ?_
  rw [hq]

theorem exec_completionQueueDoorbell_queue {id v : Nat} {q : CplQueue} (hup : s.hostLinkUp d = true) (hon : s.dies[d].host.enabled = true)
    (hq : s.dies[d].host.cpls.find? (fun q => q.id == id) = some q) :
    exec (.completionQueueDoorbell d id v) s = if q.size ≤ v then .next (s.badDoorbell d)
      else .next (s.updHost d fun h => { h with cpls := h.cpls.map fun q => if q.id == id then { q with head := v } else q }) := by
  have hgo : ¬ (!s.dies[d].host.enabled || !s.hostLinkUp d) = true := by
    rw [hon, hup]
    exact Bool.false_ne_true
  refine (if_neg hgo).trans ?_
  rw [hq]

end Ports

section Queues

variable {s : State} {ref : CmdRef}

/-- A queue may be created with an identifier 1 to 128 in no use and 2 to 16,384 contiguous entries. -/
theorem queueFault_none_iff (used : List Nat) (qid n : Nat) :
    queueFault used qid n true = none ↔ qid ≠ 0 ∧ qid ≤ 128 ∧ qid ∉ used ∧ 2 ≤ n ∧ n ≤ 16384 := by
  unfold queueFault
  by_cases hid : qid = 0 ∨ 128 < qid ∨ used.contains qid = true
  · rw [if_pos hid]
    simp only [List.contains_iff_mem] at hid
    exact ⟨(fun h => nomatch h), fun ⟨h0, h1, h2, _⟩ =>
      hid.elim (fun h => absurd h h0) fun h => h.elim (fun h => absurd h1 (Nat.not_le_of_lt h)) fun h => absurd h h2⟩
  · rw [if_neg hid]
    simp only [List.contains_iff_mem, not_or, Nat.not_lt] at hid
    by_cases hn : n < 2 ∨ 16384 < n
    · rw [if_pos hn]
      exact ⟨(fun h => nomatch h), fun ⟨_, _, _, h2, h3⟩ => by omega⟩
    · rw [if_neg hn]
      exact ⟨fun _ => ⟨hid.1, hid.2.1, hid.2.2, by omega, by omega⟩, fun _ => rfl⟩

theorem exec_createIoCompletionQueue_valid {qid n v : Nat} {irq : Bool} (h : s.admits .queueWork ref)
    (hq : queueFault (s.dies[refDie ref].host.cpls.map (·.id)) qid n true = none) (hv : v ≤ 128) :
    exec (.createIoCompletionQueue ref qid n true irq v) s =
      .next ((s.updHost (refDie ref) fun h => { h with cpls := h.cpls ++ [CplQueue.mk qid n 0 v irq] }).complete ref stOk 0) := by
  rw [exec_createIoCompletionQueue, execCreateIoCompletionQueue, admin_admits h]
  dsimp only
  rw [hq]
  exact next_congr (if_neg (Nat.not_lt_of_le hv))

theorem exec_createIoSubmissionQueue_valid {qid n cq : Nat} (h : s.admits .queueWork ref)
    (hq : queueFault (s.dies[refDie ref].host.subs.map (·.id)) qid n true = none) (h0 : cq ≠ 0)
    (hcq : (s.dies[refDie ref].host.cpls.any fun q => q.id == cq) = true) :
    exec (.createIoSubmissionQueue ref qid n cq true) s =
      .next ((s.autoLock.updHost (refDie ref) fun h => { h with subs := h.subs ++ [SubQueue.mk qid cq n 0] }).complete ref stOk 0) := by
  have hgo : ¬ (cq = 0 ∨ (s.dies[refDie ref].host.cpls.any fun q => q.id == cq) = false) := by simp only [h0, hcq]; decide
  rw [exec_createIoSubmissionQueue, execCreateIoSubmissionQueue, admin_admits h]
  dsimp only
  rw [hq]
  exact next_congr (if_neg hgo)

theorem exec_deleteIoSubmissionQueue_valid {qid : Nat} (h : s.admits .queueWork ref) (h0 : qid ≠ 0)
    (hq : (s.dies[refDie ref].host.subs.any fun q => q.id == qid) = true) :
    exec (.deleteIoSubmissionQueue ref qid) s =
      .next ((((s.dies[refDie ref].host.slots.filter fun x => x.ref.qid == qid && catchable x).foldl (fun s x => s.catchCmd x (stGeneric 0x08)) s).updHost
        (refDie ref) fun h => { h with subs := h.subs.filter fun q => q.id != qid }).complete ref stOk 0) := by
  have hgo : ¬ (qid = 0 ∨ (s.dies[refDie ref].host.subs.any fun q => q.id == qid) = false) := by simp only [h0, hq]; decide
  rw [exec_deleteIoSubmissionQueue, execDeleteIoSubmissionQueue, admin_admits h]
  exact next_congr (if_neg hgo)

theorem exec_deleteIoCompletionQueue_valid {qid : Nat} (h : s.admits .queueWork ref) (h0 : qid ≠ 0)
    (hq : (s.dies[refDie ref].host.cpls.any fun q => q.id == qid) = true) :
    exec (.deleteIoCompletionQueue ref qid) s = .next (
      if s.dies[refDie ref].host.subs.any fun q => q.cq == qid then s.complete ref (stSpecific 0x0C) 0
      else (s.updHost (refDie ref) fun h => { h with cpls := h.cpls.filter fun q => q.id != qid }).complete ref stOk 0) := by
  have hgo : ¬ (qid = 0 ∨ (s.dies[refDie ref].host.cpls.any fun q => q.id == qid) = false) := by simp only [h0, hq]; decide
  rw [exec_deleteIoCompletionQueue, execDeleteIoCompletionQueue, admin_admits h]
  exact next_congr (if_neg hgo)

theorem exec_asynchronousEventRequest_held (h : s.admits .asyncEvent ref) (hfall : s.keeper.boot.fallbackEvent = false)
    (hfew : s.dies[refDie ref].host.aers.length < 9) :
    exec (.asynchronousEventRequest ref) s = .next (match s.dies[refDie ref].host.events with
      | e :: rest => (s.updHost (refDie ref) fun h => { h with events := rest, masked := h.masked ++ [e] }).complete ref stOk (asyncDw0 e)
      | [] => s.updHost (refDie ref) fun h => { h with aers := h.aers ++ [ref.cid] }) := by
  rw [exec_asynchronousEventRequest, execAsynchronousEventRequest, admin_admits h]
  refine next_congr ((if_neg (Nat.not_le_of_lt hfew)).trans ?_)
  rw [hfall]
  rfl

/-- A feature takes its value, or the command completes with the status of its fault. -/
theorem setFeature_admits {fault : Option Status} {f : Features → Features} {w : Word} (h : s.admits .setFeatures ref) :
    s.setFeature ref fault f w = .next (match fault with
      | some st => s.complete ref st 0
      | none => (s.updFeat ref f).complete ref stOk w) :=
  admin_admits h

/-- A feature whose one fault is Invalid Field in Command. -/
theorem setFeature_checked {p : Prop} [Decidable p] {f : Features → Features} {w : Word} (h : s.admits .setFeatures ref) :
    s.setFeature ref (if p then some stInvalidField else none) f w =
      .next (if p then s.complete ref stInvalidField 0 else (s.updFeat ref f).complete ref stOk w) := by
  rw [setFeature_admits h]
  by_cases hp : p
  · rw [if_pos hp, if_pos hp]
  · rw [if_neg hp, if_neg hp]

/-- The threshold fields that TMPSEL names. -/
theorem selects_ite (sel : Nat) (i : Fin 9) (a b : Word) : (if selects sel i then a else b) = if sel = 15 ∨ sel = i.val then a else b := by
  simp [selects]

theorem exec_setFeaturesTemperatureThreshold_named {k : Half} {sel : Nat} {under : Bool} (h : s.admits .setFeatures ref) (hsel : sel ≤ 8 ∨ sel = 15) :
    exec (.setFeaturesTemperatureThreshold ref k sel under) s = .next (
      let put (v : Vector Word 9) : Vector Word 9 := Vector.ofFn fun i => if sel = 15 ∨ sel = i.val then k.setWidth 32 else v[i]
      ((s.updFeat ref fun f => if under then { f with tempUnder := put f.tempUnder } else { f with tempOver := put f.tempOver }).complete ref stOk 0).settleWarnings) := by
  have hgo : ¬ (8 < sel ∧ sel ≠ 15) := by omega
  rw [exec_setFeaturesTemperatureThreshold, execSetFeaturesTemperatureThreshold, admin_admits h]
  dsimp only
  rw [if_neg hgo]
  simp only [selects_ite]

end Queues

/-- Settles O21: each port command by its gate; the queue's size decides a doorbell. -/
theorem hostPortCommandsAct : Obligations.HostPortCommandsAct := by
  refine ⟨fun s d gen lanes hcfg hclocks hperst hlo hhi hlanes => exec_pcieLinkTraining_trains hcfg hclocks hperst hlo hhi hlanes,
    fun s d => ⟨fun hspeed => next_congr (if_neg hspeed), ?_, rfl, fun hup hlive => exec_functionLevelReset_up hup hlive,
      fun hperst hvin => exec_configRequest_powered hperst hvin, fun a c hup hcfg hoff => exec_controllerEnable_up hup hcfg hoff,
      fun hon => ⟨⟨fun hend => ?_, fun hend => ?_⟩, fun hlive hshst => exec_normalShutdown_first hon hlive hshst,
        fun hlive hshst => exec_abruptShutdown_first hon hlive hshst⟩,
      fun hlive hup => ⟨fun hpend hend => ?_, fun hgo => ?_⟩,
      fun hup hon => ⟨fun id v q hq => ⟨fun hin => ?_, fun hout => ?_⟩, fun id v q hq => ⟨fun hin => ?_, fun hout => ?_⟩⟩⟩⟩
  · by_cases hdead : s.portDead = true
    · rw [if_pos hdead]
      exact if_pos hdead
    · rw [if_neg hdead]
      exact if_neg hdead
  · rw [exec_controllerReset_enabled hon]
    exact next_congr (if_pos (recoveryEnds_iff.mpr hend))
  · rw [exec_controllerReset_enabled hon]
    exact next_congr (if_neg (mt recoveryEnds_iff.mp hend))
  · have hkeep : ¬ ((s.raiseAt d 466 0 0).fw.pendingSlot.isSome || (s.raiseAt d 466 0 0).recoveryEnds) = true := by
      rw [Bool.eq_false_iff.mpr (mt recoveryEnds_iff.mp hend)]
      simp [hpend]
    rw [exec_nvmSubsystemReset_up hlive hup]
    exact if_neg hkeep
  · have hrestart : ((s.raiseAt d 466 0 0).fw.pendingSlot.isSome || (s.raiseAt d 466 0 0).recoveryEnds) = true := by
      rcases hgo with hpend | hend
      · have hsome : (s.raiseAt d 466 0 0).fw.pendingSlot.isSome = true := by simpa [Option.isSome_iff_ne_none] using hpend
        rw [hsome]
        rfl
      · rw [recoveryEnds_iff.mpr hend]
        exact Bool.or_true _
    rw [exec_nvmSubsystemReset_up hlive hup]
    exact if_pos hrestart
  · rw [exec_submissionQueueDoorbell_queue hup hon hq, if_neg (Nat.not_le_of_lt hin)]
  · rw [exec_submissionQueueDoorbell_queue hup hon hq, if_pos hout]
    rfl
  · rw [exec_completionQueueDoorbell_queue hup hon hq, if_neg (Nat.not_le_of_lt hin)]
  · rw [exec_completionQueueDoorbell_queue hup hon hq, if_pos hout]
    rfl

/-- Settles O22: queue commands by their checks, Abort by whether the command can still be caught, event requests by their count. -/
theorem queueAndAbortCommandsAct : Obligations.QueueAndAbortCommandsAct := by
  refine ⟨fun s ref qid n h => ⟨fun hq irq v hv => exec_createIoCompletionQueue_valid h hq hv, fun hq cq h0 hcq => exec_createIoSubmissionQueue_valid h hq h0 hcq,
      fun h0 hq => exec_deleteIoSubmissionQueue_valid h h0 hq, fun h0 hq hfree => ?_, fun h0 hq hused => ?_⟩, queueFault_none_iff,
    fun s ref sqid cid h => ⟨fun x hx => ?_, fun hx => ?_⟩, fun s ref h hfall => ⟨fun hfew => ⟨fun hev => ?_, fun e rest hev => ?_⟩, fun hmany => ?_⟩⟩
  · rw [exec_deleteIoCompletionQueue_valid h h0 hq, hfree]
    rfl
  · rw [exec_deleteIoCompletionQueue_valid h h0 hq, hused]
    rfl
  · rw [exec_abort, execAbort, admin_admits h, hx]
  · rw [exec_abort, execAbort, admin_admits h, hx]
  · rw [exec_asynchronousEventRequest_held h hfall hfew, hev]
  · rw [exec_asynchronousEventRequest_held h hfall hfew, hev]
  · rw [exec_asynchronousEventRequest, execAsynchronousEventRequest, admin_admits h]
    exact next_congr (if_pos hmany)

/-- Settles O23: an admitted Set Features takes its value unless its check fails. -/
theorem setFeaturesAct : Obligations.SetFeaturesAct := by
  refine fun s ref h => ⟨fun ms => ?_, fun w => ⟨?_, ?_, ?_, setFeature_checked h⟩, fun ps => ?_,
    fun k sel => ⟨fun hsel => ⟨?_, ?_⟩, fun hlo hne u => ?_⟩, fun a b ha hb hsubs hcpls => ?_, fun v b => setFeature_checked h,
    fun b t => setFeature_checked h, fun e i b => ?_, fun hd ts b => setFeature_checked h⟩
  · rw [exec_setFeaturesTimestamp, execSetFeaturesTimestamp, admin_admits h]
  · rw [exec_setFeaturesArbitration, execSetFeaturesArbitration, setFeature_admits h]
  · rw [exec_setFeaturesInterruptCoalescing, execSetFeaturesInterruptCoalescing, setFeature_admits h]
  · rw [exec_setFeaturesAsyncEventConfiguration, execSetFeaturesAsyncEventConfiguration, setFeature_admits h]
  · rw [exec_setFeaturesPowerManagement, execSetFeaturesPowerManagement, admin_admits h]
  · exact exec_setFeaturesTemperatureThreshold_named h hsel
  · exact exec_setFeaturesTemperatureThreshold_named h hsel
  · rw [exec_setFeaturesTemperatureThreshold, execSetFeaturesTemperatureThreshold, admin_admits h]
    exact next_congr (if_pos ⟨hlo, hne⟩)
  · have hvals : ¬ (a = 0xFFFF ∨ b = 0xFFFF) := not_or.mpr ⟨ha, hb⟩
    rw [exec_setFeaturesNumberOfQueues, execSetFeaturesNumberOfQueues, setFeature_admits h]
    rw [if_neg hvals, hsubs, hcpls]
    rfl
  · have hflip : (e ≠ 1 ∨ i ≠ 0 ∨ b = false) ↔ ¬ (e = 1 ∧ i = 0 ∧ b = true) := by
      rw [not_and_or, not_and_or, Bool.not_eq_true]
    rw [exec_setFeaturesFdp, execSetFeaturesFdp, setFeature_checked h]
    by_cases hok : e = 1 ∧ i = 0 ∧ b = true
    · rw [if_pos hok, if_neg (fun hbad => hflip.mp hbad hok)]
    · rw [if_neg hok, if_pos (hflip.mpr hok)]

end Sys2Proof.Machine
end

