-- ==== Sys2Proof/Proofs/HostReads.lean ====
section
/-! Reads of the controller, keys, management space, encryption, the pool and the memories (R281 to R341, R493 to R495). -/

namespace Sys2Proof.Machine

section Controller

variable {s : State} {ref : CmdRef} {d : DieIx}

theorem exec_apstIdleTimer_idle {p : Nat} (hon : s.dies[d].host.feat.apste = true) (hidle : s.hostIdle = true) (hlive : s.portDead = false)
    (hps : s.keeper.sup.ps < 32) (hms : apstMs (s.dies[d].host.feat.apst[s.keeper.sup.ps]) ≠ 0)
    (hp : apstTarget (s.dies[d].host.feat.apst[s.keeper.sup.ps]) = p) (h34 : p = 3 ∨ p = 4) (hdeeper : s.keeper.sup.ps < p) :
    exec (.apstIdleTimer d) s = .next (s.setPower p) := by
  have hmod : s.dies[d].host.feat.apst[s.keeper.sup.ps % 32]'(Nat.mod_lt _ (by decide)) = s.dies[d].host.feat.apst[s.keeper.sup.ps] :=
    getElem_congr_idx (Nat.mod_eq_of_lt hps)
  have hname : (p != 3 && p != 4) = false := by rcases h34 with rfl | rfl <;> rfl
  have hgo : ¬ (!true || decide (apstMs (s.dies[d].host.feat.apst[s.keeper.sup.ps]) = 0) || !true || false || decide (p ≤ s.keeper.sup.ps) || (p != 3 && p != 4)) = true := by
    rw [decide_eq_false hms, decide_eq_false (Nat.not_le_of_lt hdeeper), hname]
    exact Bool.false_ne_true
  rw [exec_apstIdleTimer, execApstIdleTimer]
  rw [hmod, hon, hidle, hlive, hp]
  exact if_neg hgo

theorem exec_getLogPage_page {lid : Byte} {nsid lsi off len : Nat} {rae : Bool} {l : List DataField} (h : s.admits (.getLog lid) ref)
    (hl : s.logPage (refDie ref) lid = some l) :
    exec (.getLogPage ref lid nsid lsi off len rae) s = .next (
      if (vendorLog lid && nsid != allNs) || (groupLog lid && lsi != 1) then s.complete ref stInvalidField 0
      else (s.logWasRead (refDie ref) lid rae).completeWith ref stOk 0 (.fields (cutFields off len l))) := by
  rw [exec_getLogPage, execGetLogPage, admin_admits h]
  dsimp only
  rw [hl]

end Controller

section Keys

variable {s : State} {ref : CmdRef} {b : KeyBlob} {kek idOk refused : Bool} {f : KeySet → KeySet}

theorem installKey_locked (hlock : s.dies[refDie ref].cipher.locked = true) : s.installKey ref refused kek idOk b f = s.complete ref stSequenceError 0 := by
  have hno : (s.dies[refDie ref].cipher.locked || refused) = true := by rw [hlock]; rfl
  exact if_pos hno

theorem installKey_refused : s.installKey ref true kek idOk b f = s.complete ref stSequenceError 0 :=
  if_pos (Bool.or_true _)

theorem installKey_unlocked (hlock : s.dies[refDie ref].cipher.locked = false) :
    s.installKey ref false kek idOk b f = match s.unwrapCheck (refDie ref) b kek idOk with
      | some x => (s.unwrapFail x b.wlenOk).complete ref stKeyUnwrapFailed 0
      | none => (s.commitSet f).complete ref stOk 0 := by
  have hgo : ¬ (s.dies[refDie ref].cipher.locked || false) = true := by rw [hlock]; exact Bool.false_ne_true
  exact if_neg hgo

theorem installKey_accepted (hlock : s.dies[refDie ref].cipher.locked = false) (hcheck : s.unwrapCheck (refDie ref) b kek idOk = none) :
    s.installKey ref false kek idOk b f = (s.commitSet f).complete ref stOk 0 := by
  rw [installKey_unlocked hlock, hcheck]

theorem installKey_notUnwrapped {d : DieIx} (hlock : s.dies[refDie ref].cipher.locked = false) (hcheck : s.unwrapCheck (refDie ref) b kek idOk = some d) :
    s.installKey ref false kek idOk b f = (s.unwrapFail d b.wlenOk).complete ref stKeyUnwrapFailed 0 := by
  rw [installKey_unlocked hlock, hcheck]

theorem exec_securitySendNamespaceKey_known {n : Nat} (h : s.admits .securitySend ref) (hn : s.nsids.contains n = true) :
    exec (.securitySendNamespaceKey ref n b) s = .next (s.installKey ref (s.sub.written.contains n) false (b.kekId.toNat == s.kekId) b
      fun k => { k with ns := (k.ns.filter fun x => x.1 != n) ++ [(n, b.key)] }) := by
  have hgo : ¬ (!s.nsids.contains n) = true := by rw [hn]; exact Bool.false_ne_true
  rw [exec_securitySendNamespaceKey, execSecuritySendNamespaceKey, adminThen_admits h]
  exact if_neg hgo

theorem exec_securitySendNamespaceKey_unwritten {n : Nat} (h : s.admits .securitySend ref) (hn : s.nsids.contains n = true)
    (hw : s.sub.written.contains n = false) :
    exec (.securitySendNamespaceKey ref n b) s = .next (s.installKey ref false false (b.kekId.toNat == s.kekId) b
      fun k => { k with ns := (k.ns.filter fun x => x.1 != n) ++ [(n, b.key)] }) := by
  rw [exec_securitySendNamespaceKey_known h hn, hw]

end Keys

section Management

variable {s : State} {ref : CmdRef} {a : Word}

theorem exec_managementRead_aligned {n : Nat} (h : s.admits .mgmtRead ref) (ha : a.toNat % 4 = 0) (hn : 0 < n) (hmax : n ≤ 1024) :
    exec (.managementRead ref a n) s =
      if (mgmtAddrs a n).any fun a => s.mgmtRefused ref.viaMi false a then .next (s.refuseAccess ref)
      else match (mgmtAddrs a n).findSome? s.busyBank with
        | some b => .next (s.updStore fun x => { x with readWaits := x.readWaits.set b (x.readWaits[b] + 1) })
        | none =>
          let r := (mgmtAddrs a n).foldl (fun (p : State × List Word) (a : Nat) => ((p.1.readDword a).1, p.2 ++ [(p.1.readDword a).2])) (s, [])
          .next (r.1.completeWith ref stOk 0 (.words r.2)) := by
  have hgo : ¬ (a.toNat % 4 ≠ 0 ∨ n = 0 ∨ 1024 < n) := by omega
  rw [exec_managementRead, execManagementRead, adminThen_admits h]
  exact if_neg hgo

theorem exec_managementWrite_aligned {vs : List Word} (h : s.admits .mgmtWrite ref) (ha : a.toNat % 4 = 0) (hne : vs ≠ []) (hmax : vs.length ≤ 1024) :
    exec (.managementWrite ref a vs) s =
      if (mgmtAddrs a vs.length).any fun a => s.mgmtRefused ref.viaMi true a then
        let prot := (mgmtAddrs a vs.length).any fun a => match blockAt a with | some (.prot, _) => true | _ => false
        .next ((if prot && s.keeper.boot.lock then s.raise 374 else s).refuseAccess ref)
      else .next ((((mgmtAddrs a vs.length).zip vs).foldl (fun (s : State) (p : Nat × Word) => s.writeDword p.1 p.2) s).complete ref stOk 0) := by
  have hgo : ¬ (a.toNat % 4 ≠ 0 ∨ vs.isEmpty = true ∨ 1024 < vs.length) := by
    rw [List.isEmpty_iff]
    rintro (h | h | h)
    · exact h ha
    · exact hne h
    · omega
  rw [exec_managementWrite, execManagementWrite, adminThen_admits h]
  exact if_neg hgo

theorem exec_managementWrite_malformed {vs : List Word} (h : s.admits .mgmtWrite ref) (hbad : a.toNat % 4 ≠ 0 ∨ vs = []) :
    exec (.managementWrite ref a vs) s = .next (s.badMgmt ref) := by
  have hgo : a.toNat % 4 ≠ 0 ∨ vs.isEmpty = true ∨ 1024 < vs.length := by
    rw [List.isEmpty_iff]
    exact hbad.imp_right Or.inl
  rw [exec_managementWrite, execManagementWrite, adminThen_admits h]
  exact if_pos hgo

/-- A register write goes to the block at its address, where that is live and no part of the array. -/
theorem exec_registerWrite_live {v : Word} {b : RegBlock} {o : Nat} (hb : blockAt a.toNat = some (b, o)) (harr : b ≠ .array) (hlive : s.blockLive b = true) :
    exec (.registerWrite a v) s = .next (s.writeReg b o v) := by
  have hgo : ¬ (b == .array || !s.blockLive b) = true := by
    rw [beq_false_of_ne harr, hlive]
    exact Bool.false_ne_true
  rw [exec_registerWrite, execRegisterWrite, hb]
  exact if_neg hgo

/-- A write to IRQ clears the bits written 1. -/
theorem writeReg_irq {b : RegBlock} {w : Word} {i : Irq × Word} (hi : s.irqOf b = some i) :
    s.writeReg b 4 w = s.updIrq b fun x => { x with pend := x.pend &&& ~~~(w &&& i.2) } := by
  unfold State.writeReg
  rw [if_pos (Or.inl rfl), hi]
  rfl

end Management

section Encryption

variable {s t : State} {g : RegionIx} {gran seq : Nat} {u : PendUpd}

theorem exec_xtsEncrypt_waits {bad : List Nat} (hu : (s.regions[g]).pend.find? (fun u => u.gran == gran && u.seq == seq && !u.encrypted) = some u)
    (ht : s.takeCipher (s.updDieOf g u) u = (t, none)) : exec (.xtsEncrypt g gran seq bad) s = .next t := by
  rw [exec_xtsEncrypt, execXtsEncrypt, hu]
  dsimp only
  rw [ht]

/-- The update that its buffer and the engine's refusals leave in the pending table. -/
def State.encryptPend (s : State) (g : RegionIx) (gran seq per : Nat) (b : Option (DieIx × PoolClass × Nat)) (f : PendUpd → PendUpd) : State :=
  s.updRegion g fun r => { r with pend := r.pend.map fun v =>
    if v.gran == gran && v.seq == seq then { (f v).wholePoison per with cipher := b, encrypted := true } else v }

theorem exec_xtsEncrypt_taken {bad : List Nat} {b : Option (DieIx × PoolClass × Nat)} {per : Nat}
    (hu : (s.regions[g]).pend.find? (fun u => u.gran == gran && u.seq == seq && !u.encrypted) = some u)
    (ht : s.takeCipher (s.updDieOf g u) u = (t, some b)) (hper : ((t.nsRec? u.nsid).map unitsPerLba).getD 1 = per) :
    exec (.xtsEncrypt g gran seq bad) s =
      if bad.isEmpty then .next (t.encryptPend g gran seq per b id)
      else match u.win, t.throughJob gran seq with
        | some w, _ => .next ((t.xtsRefused w.1).encryptPend g gran seq per b fun v => bad.foldl PendUpd.poisonUnit v)
        | none, some (d, w) =>
          if w.orphan then .next ((t.xtsRefused d).encryptPend g gran seq per b fun v => bad.foldl PendUpd.poisonUnit v)
          else
            let t' := match b with | some b => t.dropBuf b.1 b.2.1 b.2.2 | none => t
            let w' := { w with pieces := w.pieces.map fun p => if p.gran == gran && p.at_ == .through seq then { p with at_ := .received } else p }
            .next ((((t'.xtsRefused d).updRegion g fun r => { r with pend := r.pend.filter fun v => !(v.gran == gran && v.seq == seq) }).updHost d
              fun h => { h with writes := h.writes.map fun x => if x == w then w' else x }).refuseJob d w' stInternalError)
        | none, none => .next (t.encryptPend g gran seq per b fun v => bad.foldl PendUpd.poisonUnit v) := by
  rw [exec_xtsEncrypt, execXtsEncrypt, hu]
  dsimp only
  rw [ht]
  dsimp only
  rw [hper] <;> rfl

end Encryption

section Pool

variable {s : State} {d : DieIx}

theorem exec_bufferAllocate_class {n : Nat} {k : WorkKind} {c : PoolClass} (hserv : s.dies[d].pool.inService = true) (hc : classFor n = some c) :
    exec (.bufferAllocate d n false k) s = .next (s.takeBuf d c k).1 := by
  have hgo : ¬ (!s.dies[d].pool.inService) = true := by rw [hserv]; exact Bool.false_ne_true
  refine (if_neg hgo).trans ?_
  rw [if_neg Bool.false_ne_true, hc]

theorem exec_bufferAllocate_dram {n : Nat} {k : WorkKind} (hserv : s.dies[d].pool.inService = true) (hn : n ≤ 1048576) :
    exec (.bufferAllocate d n true k) s = .next (s.takeBuf d .dram k).1 := by
  have hgo : ¬ (!s.dies[d].pool.inService) = true := by rw [hserv]; exact Bool.false_ne_true
  refine (if_neg hgo).trans ?_
  rw [if_pos rfl, if_pos hn]

theorem takeBuf_free {k : WorkKind} {c : PoolClass} {i : Nat} (hmay : s.mayTake d c k = true) (hi : s.lowestFree d c = some i) :
    s.takeBuf d c k = (s.allocBuf d c i, some i) := by
  rw [State.takeBuf, if_pos hmay, hi]

theorem takeBuf_waits {k : WorkKind} {c : PoolClass} (hmay : s.mayTake d c k = false) : s.takeBuf d c k = (s.waitBuf d c k none, none) := by
  rw [State.takeBuf, hmay]
  rfl

theorem exec_bufferReferenceDrop_badPointer {ptr : Word} {u : PoolUser} {cause : Nat} (hc : s.ptrCheck d ptr 0 false = some cause) (h4 : cause ≠ 4) :
    exec (.bufferReferenceDrop d ptr u) s = .next (s.pointerFault d ptr cause u) := by
  rw [exec_bufferReferenceDrop, execBufferReferenceDrop, hc]
  split
  case h_1 h => exact absurd (Option.some.inj h) h4
  case h_2 h => rw [Option.some.inj h]
  case h_3 h _ => exact nomatch h
  case h_4 h _ => exact nomatch h

theorem exec_bufferReferenceTake_good {ptr : Word} {u : PoolUser} {c : PoolClass} {o : Bool} {i l : Nat} {b : Buf} (hgood : s.ptrCheck d ptr 0 false = none)
    (hptr : decodePtr ptr = (some c, o, i, l)) (hb : (s.dies[d].pool).find c i = some b) (hpin : b.pinned = false) :
    exec (.bufferReferenceTake d ptr u) s =
      if b.refs = 255 then .next ((s.updPool d fun p => p.updBuf c i fun x => { x with pinned := true }).refFault d)
      else .next (s.updPool d fun p => p.updBuf c i fun x => { x with refs := x.refs + 1 }) := by
  rw [exec_bufferReferenceTake, execBufferReferenceTake, hgood, hptr]
  dsimp only
  rw [hb]
  dsimp only
  rw [hpin]
  rfl

end Pool

section Memory

variable {s : State} {d : DieIx}

theorem exec_dramRetrain_due {byRate : Bool} {tries : List Bool} {r : Fin 3} (hserv : s.dramServes d = true) (hrun : s.keeper.rescue.run = none)
    (hr : s.dies[d].mem.rate = some r)
    (hdue : s.dies[d].mem.retrainDue = true ∨ byRate = true ∨ 10 ≤ ((s.com d).temp - s.dies[d].mem.lastTemp).natAbs) :
    exec (.dramRetrain d byRate tries) s =
      let t := (s.updMem d fun m => { m with retrains := satAdd 255 m.retrains 1, lastTemp := (s.com d).temp, retrainDue := false }).raise (dieSrc d 6)
      match trainDram (2 - r.val) tries with
      | some n => .next (t.updMem d fun m => { m with rate := some ⟨(2 - n) % 3, Nat.mod_lt _ (by decide)⟩ })
      | none => .next ((t.updMem d fun m => { m with rate := none, inService := false }).takeOut d (dieSrc d 6)) := by
  have hd : (s.dies[d].mem.retrainDue || byRate || decide (10 ≤ ((s.com d).temp - s.dies[d].mem.lastTemp).natAbs)) = true := by
    simpa [or_assoc] using hdue
  have hgo : ¬ (!s.dramServes d || !(s.dies[d].mem.retrainDue || byRate || decide (10 ≤ ((s.com d).temp - s.dies[d].mem.lastTemp).natAbs)) ||
      s.keeper.rescue.run.isSome) = true := by
    rw [hserv, hd, hrun]
    exact Bool.false_ne_true
  refine (if_neg hgo).trans ?_
  rw [hr] <;> rfl

theorem exec_memTest_result (w : Word) : ∃ t, exec (.memTest d w true) s = .next t ∧ t.dies[d].mem.test.en = w.getLsbD 31 ∧
    (w.getLsbD 31 = true → t.dies[d].mem.test.resultCe = ((flips (w.extractLsb' 0 8)).length == 1) ∧
      t.dies[d].mem.test.resultUe = ((flips (w.extractLsb' 0 8)).length == 2)) ∧ t.free = s.free := by
  by_cases hen : w.getLsbD 31 = true
  · refine ⟨_, if_neg (not_bnot_of_eq_true hen), ?_, fun _ => ⟨?_, ?_⟩, rfl⟩
    · simp [State.updMem]
    · simp [State.updMem]
    · simp [State.updMem]
  · have hoff : (!w.getLsbD 31) = true := by rw [Bool.eq_false_iff.mpr hen]; rfl
    refine ⟨_, if_pos hoff, ?_, fun h => absurd h hen, rfl⟩
    rw [Bool.eq_false_iff.mpr hen]
    simp [State.updMem]

/-- What an uncorrectable error leaves in the table: outside a shadow its address is HARD. -/
def State.ueEntered (s : State) (d : DieIx) (a : BitVec 40) (now : Word) : State :=
  if s.shaded (.die d) then s
  else if (s.tableOf d .dram).entries.any fun e => e.addr == a then
    s.updTable d .dram fun t => { t with entries := t.entries.map fun e => if e.addr == a then { e with state := .hard, bit := 0xFF, last := now } else e }
  else match (s.tableOf d .dram).enter { addr := a, state := .hard, hits := 0, post := 0, bit := 0xFF, last := now } with
    | some t => s.updTable d .dram fun _ => t
    | none => s

theorem exec_memoryUncorrectable_dram (a : BitVec 40) (x : UeTarget) :
    exec (.memoryUncorrectable d .dram a x) s =
      let t := (s.updMem d fun m => { m with ueDram := satAdd 0xFFFF m.ueDram 1 }).updTable d .dram fun t => { t with uncorr := satAdd 0xFFFFFFFF t.uncorr 1 }
      let u := (t.ueEntered d a (BitVec.ofNat 32 s.keeper.tk.opsec.toNat)).raise (dieSrc d 4)
      match x with
      | .buffer c i unit => .next (if ((u.dies[d].pool).find c i).isSome then u.poisonBuf d c i unit else u)
      | .map g gran => .next (u.reloadEntry g gran)
      | .control => .next u :=
  rfl

theorem ueEntered_shaded {a : BitVec 40} {now : Word} (h : s.shaded (.die d) = true) : s.ueEntered d a now = s := if_pos h

theorem ueEntered_new {a : BitVec 40} {now : Word} {x : CeTable} (h : s.shaded (.die d) = false) (hnew : ((s.tableOf d .dram).entries.any fun e => e.addr == a) = false)
    (hx : (s.tableOf d .dram).enter { addr := a, state := .hard, hits := 0, post := 0, bit := 0xFF, last := now } = some x) :
    s.ueEntered d a now = s.updTable d .dram fun _ => x := by
  rw [State.ueEntered, if_neg (Bool.eq_false_iff.mp h), if_neg (Bool.eq_false_iff.mp hnew), hx]

end Memory

/-- Settles O24: an admitted read returns what the table of its kind holds, and refuses what it does not hold. -/
theorem readsOfTheControllerAct : Obligations.ReadsOfTheControllerAct := by
  refine ⟨fun s ref fid w h => ⟨fun v hv => ?_, fun hv => ?_⟩, fun s ref lid nsid lsi off len rae h => ⟨fun l hl hvendor hgroup => ?_, fun hbad => ?_⟩,
    fun s ref cns nsid cnt h => ⟨fun l hl => ?_, fun st hst => ?_⟩, fun s ref hadmin hbusy htok => ?_,
    fun s d hon hidle hlive hps hms p hp h34 hdeeper => exec_apstIdleTimer_idle hon hidle hlive hps hms hp h34 hdeeper⟩
  · rw [exec_getFeatures, execGetFeatures, admin_admits h, hv]
  · rw [exec_getFeatures, execGetFeatures, admin_admits h, hv]
  · have hgo : ¬ ((vendorLog lid && nsid != allNs) || (groupLog lid && lsi != 1)) = true := by
      simp only [Bool.or_eq_true, Bool.and_eq_true, bne_iff_ne, not_or, not_and, not_not]
      exact ⟨hvendor, hgroup⟩
    rw [exec_getLogPage_page h hl]
    exact next_congr (if_neg hgo)
  · cases hl : s.logPage (refDie ref) lid with
    | none =>
      rw [exec_getLogPage, execGetLogPage, admin_admits h]
      dsimp only
      rw [hl]
    | some l =>
      have hno : ((vendorLog lid && nsid != allNs) || (groupLog lid && lsi != 1)) = true := by
        rcases hbad with hnone | ⟨hv, hn⟩ | ⟨hg, hn⟩
        · exact absurd (hnone.symm.trans hl) (by simp)
        · rw [hv, bne_iff_ne.mpr (show nsid ≠ allNs from hn)]
          rfl
        · rw [hg, bne_iff_ne.mpr hn]
          exact Bool.or_true _
      rw [exec_getLogPage_page h hl]
      exact next_congr (if_pos hno)
  · rw [exec_identify, execIdentify, admin_admits h, hl]
  · rw [exec_identify, execIdentify, admin_admits h, hst]
  · rw [exec_unsupportedCommand, execUnsupportedCommand, if_pos hadmin, hbusy, htok]
    rfl

/-- Settles O26: an admitted installation by the lock, the namespace and the unwrap; the rest by its definition. -/
theorem keyCommandsAct : Obligations.KeyCommandsAct := by
  refine ⟨fun s ref b h => ⟨fun hlock => ?_, fun hlock => ⟨fun hcheck => ?_, fun d hcheck => ?_,
      fun n hn => ⟨fun hw => ?_, fun hw hcheck => ?_, fun d hw hcheck => ?_⟩⟩, fun n hn => ?_, ?_⟩,
    fun s ref h => ⟨?_, ?_⟩, fun s d => rfl⟩
  · rw [exec_securitySendKek, execSecuritySendKek, adminThen_admits h, installKey_locked hlock]
  · rw [exec_securitySendKek, execSecuritySendKek, adminThen_admits h, installKey_accepted hlock hcheck]
  · rw [exec_securitySendKek, execSecuritySendKek, adminThen_admits h, installKey_notUnwrapped hlock hcheck]
  · rw [exec_securitySendNamespaceKey_known h hn, hw, installKey_refused]
  · rw [exec_securitySendNamespaceKey_unwritten h hn hw, installKey_accepted hlock hcheck]
  · rw [exec_securitySendNamespaceKey_unwritten h hn hw, installKey_notUnwrapped hlock hcheck]
  · have hno : (!s.nsids.contains n) = true := by rw [hn]; rfl
    rw [exec_securitySendNamespaceKey, execSecuritySendNamespaceKey, adminThen_admits h]
    exact if_pos hno
  · rw [exec_securitySendLock, execSecuritySendLock, adminThen_admits h]
  · rw [exec_securityReceiveKeyStatus, execSecurityReceiveKeyStatus, adminThen_admits h]
  · rw [exec_securityReceiveProtocolList, execSecurityReceiveProtocolList, adminThen_admits h]

/-- Settles O28: an aligned access by its refusals and the banks that run; a register write by its block. -/
theorem managementAccessActs : Obligations.ManagementAccessActs := by
  refine ⟨fun s ref a n h ha hn hmax => ⟨fun href => ?_, fun hok => ⟨fun b hb => ?_, fun hb => ?_⟩⟩,
    fun s ref a vs h => ⟨fun hbad => exec_managementWrite_malformed h hbad, fun ha hne hmax => ⟨fun hok => ?_, fun href => ?_⟩⟩, fun s ref => rfl,
    fun s a v b o hb harr hlive => exec_registerWrite_live hb harr hlive, fun s b w i hi => writeReg_irq hi⟩
  · exact (exec_managementRead_aligned h ha hn hmax).trans (if_pos href)
  · refine (exec_managementRead_aligned h ha hn hmax).trans ((if_neg (Bool.eq_false_iff.mp hok)).trans ?_)
    rw [mgmtAddrs, hb]
  · refine (exec_managementRead_aligned h ha hn hmax).trans ((if_neg (Bool.eq_false_iff.mp hok)).trans ?_)
    rw [mgmtAddrs, hb]
  · exact (exec_managementWrite_aligned h ha hne hmax).trans (if_neg (Bool.eq_false_iff.mp hok))
  · exact (exec_managementWrite_aligned h ha hne hmax).trans (if_pos href)

/-- Settles O30: admission by its definition, encryption by its buffer, the engine's refusals and the owner of the update. -/
theorem admissionAndEncryptionAct : Obligations.AdmissionAndEncryptionAct := by
  refine ⟨fun s d => rfl, fun s g gran seq u hu => ⟨fun t ht bad => exec_xtsEncrypt_waits hu ht, fun t b ht hper => ⟨?_, fun bad w hbad hw => ?_,
    fun bad d w hbad hw hjob hown => ?_⟩⟩⟩
  · exact exec_xtsEncrypt_taken hu ht hper
  · have hsome : ¬ bad.isEmpty = true := mt List.isEmpty_iff.mp hbad
    rw [exec_xtsEncrypt_taken hu ht hper, if_neg hsome, hw]
    rfl
  · have hsome : ¬ bad.isEmpty = true := mt List.isEmpty_iff.mp hbad
    rw [exec_xtsEncrypt_taken hu ht hper, if_neg hsome, hw, hjob]
    exact if_neg (Bool.eq_false_iff.mp hown)

/-- Settles O31: an allocation by what its class may give, a reference by its pointer and its count. -/
theorem bufferPoolCommandsAct : Obligations.BufferPoolCommandsAct := by
  refine ⟨fun s d n k hserv => ⟨fun c hc => ⟨fun i hmay hi => ?_, fun hmay => ?_⟩, fun hn => ⟨fun i hmay hi => ?_, fun hmay => ?_⟩⟩,
    fun s d ptr u => ⟨fun cause hc h4 => ⟨?_, exec_bufferReferenceDrop_badPointer hc h4⟩, fun hc => ?_, fun c o i l b hgood hptr hb hpin =>
      ⟨fun h255 => ?_, fun h255 => ?_, fun hzero => ?_⟩⟩, fun s d c i hz => ?_⟩
  · rw [exec_bufferAllocate_class hserv hc, takeBuf_free hmay hi]
  · rw [exec_bufferAllocate_class hserv hc, takeBuf_waits hmay]
  · rw [exec_bufferAllocate_dram hserv hn, takeBuf_free hmay hi]
  · rw [exec_bufferAllocate_dram hserv hn, takeBuf_waits hmay]
  · rw [exec_bufferReferenceTake, execBufferReferenceTake, hc]
  · rw [exec_bufferReferenceDrop, execBufferReferenceDrop, hc]
    rfl
  · exact (exec_bufferReferenceTake_good hgood hptr hb hpin).trans (if_neg h255)
  · exact (exec_bufferReferenceTake_good hgood hptr hb hpin).trans (if_pos h255)
  · rw [exec_bufferReferenceDrop, execBufferReferenceDrop, hgood, hptr]
    exact if_neg hzero
  · exact if_neg (not_bnot_of_eq_true hz)

/-- Settles O32: the interface by whether it serves, an error by its table, the checker by the bits flipped. -/
theorem memoryCommandsAct : Obligations.MemoryCommandsAct := by
  refine ⟨fun s d hserv => ⟨fun v n => if_neg (not_bnot_of_eq_true hserv), fun v => if_neg (not_bnot_of_eq_true hserv),
      fun byRate tries r hrun hr hdue => ⟨fun n hn => ?_, fun hn => ?_⟩⟩,
    fun s d a bit => ⟨fun hlisted => if_pos hlisted, fun hnew x hx => ?_⟩,
    fun s d a g gran => ⟨fun hshade => ?_, fun hshade hnew x hx => ⟨?_, fun c i unit hbuf => ?_⟩⟩,
    fun s d a e ch he hhard hrows => ?_, fun s d w => exec_memTest_result w, fun s d => rfl, fun s d hstage hfill hserv => ?_⟩
  · rw [exec_dramRetrain_due hserv hrun hr hdue, hn]
  · rw [exec_dramRetrain_due hserv hrun hr hdue, hn]
  · refine (if_neg (Bool.eq_false_iff.mp hnew)).trans ?_
    dsimp only
    rw [hx]
    rfl
  · exact next_congr (congrArg (fun u : State => (u.raise (dieSrc d 4)).reloadEntry g gran) (ueEntered_shaded hshade))
  · exact next_congr (congrArg (fun u : State => (u.raise (dieSrc d 4)).reloadEntry g gran) (ueEntered_new hshade hnew hx))
  · rw [exec_memoryUncorrectable_dram]
    dsimp only
    rw [ueEntered_new hshade hnew hx]
    exact next_congr (if_pos hbuf)
  · have hno : ¬ e.state ≠ .hard := not_not.mpr hhard
    rw [exec_locationRetire, execLocationRetire, he]
    exact (if_neg hno).trans (if_neg hrows)
  · have hgo : ¬ (s.keeper.boot.stage ≠ .memoryLanes ∨ s.dies[d].mem.filling = false ∨ (s.com d).outOfService = true) := by
      rw [hstage, hfill, hserv]
      decide
    exact if_neg hgo

end Sys2Proof.Machine
end

