-- ==== Sys2Proof/Proofs/SupplyAndStarts.lean ====
section
/-! Supply events, starts and what the balls show (R344 to R377, R461, R508, R509, R528). -/

namespace Sys2Proof.Machine

section Supply

variable {s : State}

theorem exec_vinFall_powered (hvin : s.keeper.sup.vinOk = true) : exec .vinFall s = .next s.vinGone := if_pos hvin

theorem exec_vinOvervoltage_armed {mv : Half} (hvin : s.keeper.sup.vinOk = true) (harm : s.keeper.sup.overArmed = true) (hmv : 5750 < mv.toNat) :
    exec (.vinOvervoltage mv) s = .next ((s.raiseRail .vin true).updSup fun x => { x with overArmed := false, overGood := 0 }) := by
  have hgo : (s.keeper.sup.vinOk && s.keeper.sup.overArmed && decide (mv.toNat > 5750)) = true := by
    rw [hvin, harm, decide_eq_true hmv]
    rfl
  exact if_pos hgo

theorem exec_vinBelowWarning_armed {mv : Half} (hvin : s.keeper.sup.vinOk = true) (harm : s.keeper.sup.warnArmed = true) (hmv : mv.toNat < s.power.warn) :
    exec (.vinBelowWarning mv) s = .next ((s.raise 360).updSup fun x => { x with warnArmed := false, warnGood := 0 }) := by
  have hgo : (s.keeper.sup.vinOk && s.keeper.sup.warnArmed && decide (s.power.warn ≠ 0) && decide (mv.toNat < s.power.warn)) = true := by
    rw [hvin, harm, decide_eq_true (Nat.ne_zero_of_lt hmv), decide_eq_true hmv]
    rfl
  exact if_pos hgo

/-- One average of the input power against the cap: a step down above it, else the steps that stand or the drift of VCORE. -/
theorem exec_powerCapAverage_capped {mw cap : Nat} (hvin : s.keeper.sup.vinOk = true) (hrun : s.keeper.rescue.run = none) (hcap : s.capMw = some cap) :
    exec (.powerCapAverage mw) s =
      let t := s.updSup fun x => { x with inputMw := min mw 0xFFFF }
      if cap < mw then .next (t.updSup fun x => { capStepDown x s.hotterDie with lowMs := 0 })
      else
        let n := if mw * 10 < cap * 9 then min 10 (s.keeper.sup.lowMs + 1) else 0
        let u := t.updSup fun x => { x with lowMs := n }
        if !s.keeper.sup.capSteps.isEmpty then .next (if n < 10 then u else u.updSup capStepUp)
        else if mw < cap ∧ s.keeper.sup.ps = 0 then
          .next (u.updSup fun x => { x with vcore := #v[vcoreDrift x.vcore[0] (s.com 0).temp, vcoreDrift x.vcore[1] (s.com 1).temp] })
        else .next u := by
  have hgo : ¬ (!s.keeper.sup.vinOk || s.keeper.rescue.run.isSome) = true := by
    rw [hvin, hrun]
    exact Bool.false_ne_true
  have hcap' : (s.updSup fun x => { x with inputMw := min mw 0xFFFF }).capMw = some cap := hcap
  rw [exec_powerCapAverage, execPowerCapAverage, if_neg hgo]
  dsimp only
  rw [hcap']
  rfl

theorem exec_vauxRise_carapace (hvaux : s.keeper.sup.vauxOk = false) (hvin : s.keeper.sup.vinOk = false) :
    exec .vauxRise s = .next ((((s.updSup fun x => { x with vauxOk := true }).updSup fun x => { x with
      vkeep := true, xtal32k := true, xtal25 := false, state := .carapace }).updFc fun f => { f with selfOk := true }).updMp
      fun m => { m with inService := true }) := by
  rw [exec_vauxRise, execVauxRise, if_neg (Bool.eq_false_iff.mp hvaux)]
  exact next_congr (if_neg (Bool.eq_false_iff.mp hvin))

end Supply

section Starts

/-- What VIN_RISE is asked about: VIN, VCORE and the power state, the boot state, the power-cycle count, the store and the protection mirror. -/
structure StartView where
  vinOk : Bool
  vcore : Vector Nat 2
  ps : Nat
  boot : Boot
  pcycles : Nat
  ready : Bool
  array : List Host.Cell
  prot : ProtSet

def State.startView (s : State) : StartView where
  vinOk := s.keeper.sup.vinOk
  vcore := s.keeper.sup.vcore
  ps := s.keeper.sup.ps
  boot := s.keeper.boot
  pcycles := s.keeper.tk.pcycles
  ready := s.store.ready
  array := s.store.array
  prot := s.keeper.prot

variable {s : State}

@[simp] theorem raiseFrom_startView (b : Block) (n : Nat) (d0 d1 : Word) : (s.raiseFrom b n d0 d1).startView = s.startView := by
  simp [State.startView]

theorem updFc_startView (f : Collector → Collector) : (s.updFc f).startView = s.startView := rfl

theorem updEv_startView (f : Recorder → Recorder) : (s.updEv f).startView = s.startView := rfl

theorem beginStart_startView :
    s.beginStart.startView = { s.startView with vcore := #v[75, 75], ps := 0, boot := { s.keeper.boot with
      starts := satAdd 255 s.keeper.boot.starts 1, fetchMs := 0, unconfigured := false, sealed := false, recoveryCommitted := false, protRepaired := false } } :=
  rfl

theorem startClocks_startView (kept : Bool) (darkMs : Nat) :
    (s.startClocks kept darkMs).startView = { s.startView with pcycles := satAdd 0xFFFFFF s.keeper.tk.pcycles 1 } := by
  unfold State.startClocks
  dsimp only
  split
  case isTrue => rfl
  case isFalse => split <;> simp [State.startView]

theorem foldl_raise2_startView (src : Nat) (l : List Nat) : ∀ s : State, (l.foldl (fun s n => s.raise2 src (BitVec.ofNat 32 n) 0) s).startView = s.startView := by
  induction l with
  | nil => exact fun s => rfl
  | cons n l ih => exact fun s => (ih _).trans (raiseFrom_startView _ _ _ _)

theorem findIntents_startView : s.findIntents.startView = { s.startView with ready := true } := by
  have h := foldl_raise2_startView 499 ((s.store.rows.filter (·.intent)).map (·.sector))
    (s.updStore fun x => { x with irq := .reset 0x7FF, cmdCode := 0, cmdResult := .completed, cmdSector := 0, cmdRequester := .bootRom,
                                  cmdCount := 0, result := 0, margin := 0, hashPort := false })
  exact congrArg (fun v : StartView => { v with ready := true }) h

theorem readRescueRecord_startView : s.readRescueRecord.startView = s.startView := by
  unfold State.readRescueRecord
  split
  case h_1 =>
    exact (raiseFrom_startView (blockOf 364) 364 0 0 : (s.raise 364).startView = s.startView)
  all_goals rfl

theorem takePending_startView : s.takePending.startView = s.startView := by
  unfold State.takePending
  split
  case h_1 => rfl
  case h_2 => simp [State.startView]

/-- What VIN_RISE leaves of the view of a start, its collector sound. -/
theorem exec_vinRise_view {o : ColdStartFindings} (hvin : s.keeper.sup.vinOk = false) (hself : o.selfCheckOk = true) :
    ∃ t, exec (.vinRise o) s = .next t ∧ t.startView = { s.startView with
      vinOk := true, vcore := #v[75, 75], ps := 0, ready := true, pcycles := satAdd 0xFFFFFF s.keeper.tk.pcycles 1
      boot := { s.keeper.boot with starts := 1, fallback := false, failCause := 0, failSlot := 0, windowTimeouts := 0, stage := .inReset, lock := false, byKeeper := false,
                                   fetchMs := 0, unconfigured := false, sealed := false, recoveryCommitted := false, protRepaired := false } } := by
  refine ⟨_, if_neg (Bool.eq_false_iff.mp hvin), ?_⟩
  dsimp only
  rw [takePending_startView, if_pos hself, updFc_startView, updEv_startView, readRescueRecord_startView, findIntents_startView, startClocks_startView,
    beginStart_startView]
  rfl

/-- D0's release with the rails up and D0 held: the boot window opens. -/
theorem exec_d0Release_held {f : StartFindings} (hvin : s.keeper.sup.vinOk = true) (hvccq : s.keeper.sup.vccqOk = true) (hvddq : s.keeper.sup.vddqOk = true)
    (hvdd2h : s.keeper.sup.vdd2hOk = true) (hreg : s.keeper.sup.regulatorFault = false) (hsafe : s.keeper.fc.safe = false) (hheld : (s.com 0).inReset = true)
    (hstage : s.keeper.boot.stage ≠ .heldInReset) (hrun : s.keeper.rescue.run = none) (hserv : (s.com 0).outOfService = false) :
    exec (.d0Release f) s =
      let t := ((s.updBoot fun b => { b with
        mode := f.bootMode, slotId := f.slotId, lock := false, byKeeper := false, stage := .bootWindow, protRepaired := false }).updCommon 0
        fun c => { c with inReset := false }).updStore fun x => { x with hashPort := true }
      let u := if f.bootMode = 2 ∧ t.keeper.boot.factoryFuse = false then t.raise 376 else t
      if !f.locks then .next u
      else if !(u.protectionCheck f).2 then .next (u.protectionCheck f).1
      else if f.bootMode = 1 ∨ f.bootMode = 3 then .next (((u.protectionCheck f).1.noteBootFail 12 0).enterRecovery false)
      else match (((u.protectionCheck f).1.stage .slotCheck).chooseSlot).2 with
        | none => .next ((((u.protectionCheck f).1.stage .slotCheck).chooseSlot).1.enterRecovery false)
        | some i => .next ((((u.protectionCheck f).1.stage .slotCheck).chooseSlot).1.mainFirmware f i) := by
  have hgo : ¬ (!s.keeper.sup.vinOk || !(s.keeper.sup.vccqOk && s.keeper.sup.vddqOk && s.keeper.sup.vdd2hOk) || s.keeper.sup.regulatorFault ||
      s.keeper.fc.safe || !(s.com 0).inReset || s.keeper.boot.stage == .heldInReset || s.keeper.rescue.run.isSome) = true := by
    rw [hvin, hvccq, hvddq, hvdd2h, hreg, hsafe, hheld, beq_false_of_ne hstage, hrun]
    exact Bool.false_ne_true
  exact (if_neg hgo).trans (if_neg (Bool.eq_false_iff.mp hserv))

theorem exec_bootWindowTimeout_open (h : s.windowOpen = true) :
    exec .bootWindowTimeout s = .next (
      let t := (((s.updBoot fun b => { b with lock := true, byKeeper := true, windowTimeouts := b.windowTimeouts + 1 }).raise 375).noteBootFail 2 0).resetDie 0
      if decide (s.keeper.boot.windowTimeouts ≥ 1) then t.stage .heldInReset
      else ((t.stage .inReset).updBoot fun b => { b with starts := satAdd 255 b.starts 1 }).resumeAtStart) :=
  if_neg (not_bnot_of_eq_true h)

end Starts

section Balls

variable {s : State} {d : DieIx}

/-- With VIN away a die's balls are unpowered or in the Carapace-only state. -/
theorem ballCond_of_vin_away (h : s.keeper.sup.vinOk = false) : s.ballCond d = .unpowered ∨ s.ballCond d = .carapaceOnly := by
  unfold State.ballCond
  rw [h]
  cases s.keeper.sup.vkeep
  case false => exact Or.inl rfl
  case true => exact Or.inr rfl

theorem ballCondAll_of_vin_away (h : s.keeper.sup.vinOk = false) : s.ballCondAll = .unpowered ∨ s.ballCondAll = .carapaceOnly := by
  have hrun : ¬ (s.ballCond 0 = .diesInReset ∧ s.ballCond 1 = .running) := by
    rintro ⟨h0, -⟩
    rcases ballCond_of_vin_away (d := 0) h with hc | hc <;> exact nomatch hc.symm.trans h0
  rw [State.ballCondAll, if_neg hrun]
  exact ballCond_of_vin_away h

/-- With VIN away a NAND, DRAM or swarm ball is high-Z. -/
theorem nandBall_of_vin_away (h : s.keeper.sup.vinOk = false) (d : DieIx) (reset safe run : BallLevel) : nandBall (s.ballCond d) reset safe run = .highZ := by
  rcases ballCond_of_vin_away (d := d) h with hc | hc <;> rw [hc] <;> rfl

theorem vinGone_vinOk : s.vinGone.keeper.sup.vinOk = false := by
  have hend : ∀ t : State, t.keeper.sup.vinOk = false →
      (if t.keeper.sup.vauxOk then t.updTk fun k => { k with kept := k.kept && t.keeper.sup.xtal32k } else t.keeperDark).keeper.sup.vinOk = false := by
    intro t ht
    split <;> exact ht
  exact hend _ rfl

/-- In the safe state with VIN there every die shows it. -/
theorem ballCond_of_safe (hkeep : s.keeper.sup.vkeep = true) (hvin : s.keeper.sup.vinOk = true) (hstate : s.keeper.sup.state = .safe) : s.ballCond d = .safeState := by
  rw [State.ballCond, if_neg (not_bnot_of_eq_true hkeep), if_neg (not_bnot_of_eq_true hvin), if_pos hstate]

end Balls

/-- Settles O33: each supply event by its gate; the cap by its average and the steps that stand. -/
theorem supplyEventsAct : Obligations.SupplyEventsAct := by
  refine ⟨fun s hvin => ⟨exec_vinFall_powered hvin, fun r hreset => ?_, fun r => if_neg (not_bnot_of_eq_true hvin), fun above => if_neg (not_bnot_of_eq_true hvin),
      fun mv harm hmv => exec_vinOvervoltage_armed hvin harm hmv, fun mv harm hmv => exec_vinBelowWarning_armed hvin harm hmv⟩,
    fun s mw cap hvin hrun hcap => ⟨fun hover => ?_, fun hunder => ⟨fun hsteps => ?_, fun hsteps hlow hps => ?_, fun hsteps hstay => ?_⟩⟩,
    fun s hloss => ⟨if_pos hloss, fun hvin => ?_, fun hrun hstate => ?_⟩,
    fun s => ⟨fun hvaux => if_neg (not_bnot_of_eq_true hvaux), fun hvaux => ⟨fun hvin => ?_, fun hvin =>
      ⟨_, exec_vauxRise_carapace hvaux hvin, rfl, rfl, rfl, rfl⟩⟩⟩⟩
  · have hgo : (s.keeper.sup.vinOk && (s.com 0).inReset) = true := by
      rw [hvin, hreset]
      rfl
    exact if_pos hgo
  · exact (exec_powerCapAverage_capped hvin hrun hcap).trans (if_pos hover)
  · have hstand : (!s.keeper.sup.capSteps.isEmpty) = true := by simpa using hsteps
    exact (exec_powerCapAverage_capped hvin hrun hcap).trans ((if_neg (Nat.not_lt_of_le hunder)).trans (if_pos hstand))
  · have hnone : ¬ (!s.keeper.sup.capSteps.isEmpty) = true := by rw [hsteps]; exact Bool.false_ne_true
    exact (exec_powerCapAverage_capped hvin hrun hcap).trans ((if_neg (Nat.not_lt_of_le hunder)).trans ((if_neg hnone).trans (if_pos ⟨hlow, hps⟩)))
  · have hnone : ¬ (!s.keeper.sup.capSteps.isEmpty) = true := by rw [hsteps]; exact Bool.false_ne_true
    have hno : ¬ (mw < cap ∧ s.keeper.sup.ps = 0) := fun ⟨hlt, h0⟩ => hstay.elim (fun h => Nat.ne_of_lt hlt h) fun h => h h0
    exact (exec_powerCapAverage_capped hvin hrun hcap).trans ((if_neg (Nat.not_lt_of_le hunder)).trans ((if_neg hnone).trans (if_neg hno)))
  · have hgo : (s.lossDetectable && decide (s.power.loss ≠ 0)) = true := by
      rw [hloss, decide_eq_true hvin]
      rfl
    exact if_pos hgo
  · unfold State.onLoss
    rw [hrun]
    exact if_neg hstate
  · rw [exec_vauxRise, execVauxRise, if_neg (Bool.eq_false_iff.mp hvaux)]
    exact next_congr (if_pos hvin)

/-- Settles O35: VIN_RISE by what each of its steps leaves of the view of a start; the others by their gates. -/
theorem startsAct : Obligations.StartsAct := by
  refine ⟨fun s o hvin hself => ?_, fun s hvin hsafe hrun => ⟨?_, fun hstage => ?_⟩,
    fun s f hvin hvccq hvddq hvdd2h hreg hsafe hheld hstage hrun hserv => ⟨fun hlocks => ?_, fun hlocks hprot => ?_,
      fun hlocks hprot h1 h3 => ⟨fun hslot => ?_, fun i hslot => ?_⟩⟩, fun s hopen => ⟨fun hfirst => ?_, fun hsecond => ?_⟩⟩
  · obtain ⟨t, ht, hview⟩ := exec_vinRise_view hvin hself
    exact ⟨t, ht, congrArg StartView.vinOk hview, congrArg StartView.vcore hview, congrArg StartView.ps hview,
      congrArg (fun v => v.boot.lock) hview, congrArg (fun v => v.boot.stage) hview, congrArg (fun v => v.boot.starts) hview,
      congrArg StartView.pcycles hview, congrArg StartView.ready hview, congrArg StartView.array hview, congrArg StartView.prot hview⟩
  · have hgo : ¬ (!s.keeper.sup.vinOk || s.keeper.fc.safe || s.keeper.rescue.run.isSome) = true := by
      rw [hvin, hsafe, hrun]
      exact Bool.false_ne_true
    exact if_neg hgo
  · have hgo : ¬ (!s.keeper.sup.vinOk || s.keeper.fc.safe || s.keeper.rescue.run.isSome) = true := by
      rw [hvin, hsafe, hrun]
      exact Bool.false_ne_true
    exact (if_neg hgo).trans (if_neg hstage)
  · exact (exec_d0Release_held hvin hvccq hvddq hvdd2h hreg hsafe hheld hstage hrun hserv).trans (if_pos (by rw [hlocks]; rfl))
  · exact (exec_d0Release_held hvin hvccq hvddq hvdd2h hreg hsafe hheld hstage hrun hserv).trans
      ((if_neg (not_bnot_of_eq_true hlocks)).trans (if_pos (by rw [hprot]; rfl)))
  · refine (exec_d0Release_held hvin hvccq hvddq hvdd2h hreg hsafe hheld hstage hrun hserv).trans
      ((if_neg (not_bnot_of_eq_true hlocks)).trans ((if_neg (not_bnot_of_eq_true hprot)).trans ((if_neg (not_or.mpr ⟨h1, h3⟩)).trans ?_)))
    rw [hslot]
  · refine (exec_d0Release_held hvin hvccq hvddq hvdd2h hreg hsafe hheld hstage hrun hserv).trans
      ((if_neg (not_bnot_of_eq_true hlocks)).trans ((if_neg (not_bnot_of_eq_true hprot)).trans ((if_neg (not_or.mpr ⟨h1, h3⟩)).trans ?_)))
    rw [hslot]
  · have hno : ¬ decide (s.keeper.boot.windowTimeouts ≥ 1) = true := by rw [hfirst]; decide
    exact (exec_bootWindowTimeout_open hopen).trans (next_congr (if_neg hno))
  · exact (exec_bootWindowTimeout_open hopen).trans (next_congr (if_pos (decide_eq_true hsecond)))

/-- Settles O59: the balls by the condition of their die. -/
theorem ballsFollowThePackage : Obligations.BallsFollowThePackage := by
  refine ⟨fun s hvin => ⟨s.vinGone, exec_vinFall_powered hvin, ?_⟩, fun s l n hquar hrun => ?_, fun s hkeep hvin hstate => ?_⟩
  · have haway : s.vinGone.keeper.sup.vinOk = false := vinGone_vinOk
    have z := nandBall_of_vin_away haway
    refine ⟨fun l n => ⟨z _ _ _ _, z _ _ _ _, z _ _ _ _, z _ _ _ _, z _ _ _ _⟩,
      fun d => ⟨z _ _ _ _, z _ _ _ _, z _ _ _ _, z _ _ _ _, z _ _ _ _, z _ _ _ _⟩, ?_⟩
    rcases ballCondAll_of_vin_away haway with hc | hc <;> simp only [State.ball, hc, and_self]
  · have hquarantined : (if s.lanes[l].quarantined then BallLevel.high else .driven) = .high := if_pos hquar
    have hprotected : (if s.lanes[l].quarantined then BallLevel.low else .driven) = .low := if_pos hquar
    simp only [State.ball, hrun, nandBall, hquarantined, hprotected, and_self]
  · have hall : s.ballCondAll = .safeState := by
      rw [State.ballCondAll, ballCond_of_safe hkeep hvin hstate, if_neg fun h => nomatch h.1]
    refine ⟨fun l n => ?_, ?_⟩
    · simp only [State.ball, ballCond_of_safe hkeep hvin hstate, nandBall, and_self]
    · simp only [State.ball, hall]

/-- Settles O43: the step by its queue. -/
theorem stepRunsTheFrontCommand : Obligations.StepRunsTheFrontCommand := by
  refine ⟨fun c s rest => rfl, fun s hempty => ?_, fun s nbits w => ⟨rfl, rfl⟩⟩
  rw [step, hempty]
  rfl

end Sys2Proof.Machine
end

