-- ==== Sys2Proof/Proofs/StoreSequences.lean ====
section
/-! Command sequences of the store die that end at once, suspensions and the sequence timeout (R427 to R431). -/

namespace Sys2Proof.Machine

section Sequences

variable {s : State} {req : Requester}

/-- A command with one operand is what that operand does. -/
theorem storeRun_oneOperand {code : Word} {c : Byte} {off : Nat} {w : Word} {t : State} (h : s.storeFree) (hcode : code.setWidth 8 = c)
    (hc : code = 0x10 ∨ code = 0x20 ∨ code = 0x30 ∨ code = 0x40 ∨ code = 0x50)
    (ht : (openSequence s req (.operands c [])).operandWrite req c [(off, w)] = t) (hwait : t.store.waiting = []) :
    s.storeRun req code [(off, w)] = .next t := by
  rw [State.storeRun, if_pos h.1, storeCommand_unlocked s req _ _ h, storeCycle_code s req code c h hcode hc]
  exact next_congr (storeCycle_operand s req c [] off w h t ht hwait)

/-- A command without operands acts with its code cycle, on the free controller. -/
theorem storeRun_noOperand {code : Word} {t : State} (h : s.storeFree) (ht : (openSequence s req .unlocked2).codeWrite req code = t)
    (hwait : t.store.waiting = []) : s.storeRun req code [] = .next t := by
  have hown : (openSequence s req .unlocked2).ownCycle req 0xAA8 code = t := ht
  have hfree : (openSequence s req .unlocked2).store.waiting = [] := h.2.2
  rw [State.storeRun, if_pos h.1, storeCommand_unlocked s req _ _ h]
  refine next_congr ((storeCycle_own _ req 0xAA8 code .unlocked2 rfl hfree ?_).trans hown)
  rw [hown]
  exact hwait

theorem operandWrite_margin {m : Word} (h : s.storeFree) :
    (openSequence s req (.operands 0x40 [])).operandWrite req 0x40 [(0xAA8, m)] =
      if m.toNat ≤ 2 then s.updStore fun x => { (x.setCmd 0x40 .completed x.cmdSector req x.cmdCount) with margin := m.toNat }
      else s.refuseStore 0x40 .badOperand [] req := by
  simp only [State.operandWrite, openAt_closed s h]
  rfl

theorem operandWrite_counter {a : Nat} (h : s.storeFree) (ha : a < arrayBytes) :
    (openSequence s req (.operands 0x50 [])).operandWrite req 0x50 [(a, 0)] = s.updStore fun x =>
      { (x.setCmd 0x50 .completed (sectorOf a) req x.cmdCount) with result := BitVec.ofNat 32 (min 0xFFFFFFFF (rowOf x.rows (sectorOf a)).counter) } := by
  simp only [State.operandWrite, openAt_closed s h]
  exact if_neg (Nat.not_le_of_lt ha)

/-- A refusal with BAD_OPERAND sets STO_CMD alone. -/
theorem refuseStore_badOperand (code : Byte) :
    s.refuseStore code .badOperand [] req = s.updStore fun x => x.setCmd code .badOperand 0 req x.cmdCount := by
  have hno : ¬ (StoResult.badOperand = .readOnly ∧ ([] : List Nat).any isProtection = true) := fun h => nomatch h.1
  rw [State.refuseStore, if_neg hno]
  rfl

theorem exec_marginMode_free (m : Word) (h : s.storeFree) :
    exec (.marginMode req m) s = .next (
      if m.toNat ≤ 2 then s.updStore fun x => { (x.setCmd 0x40 .completed x.cmdSector req x.cmdCount) with margin := m.toNat }
      else s.updStore fun x => x.setCmd 0x40 .badOperand 0 req x.cmdCount) := by
  refine storeRun_oneOperand h (c := 0x40) rfl (by decide) ?_ ?_
  · rw [operandWrite_margin h, refuseStore_badOperand]
  · split <;> exact h.2.2

theorem exec_readEraseCounter_free {a : Nat} (h : s.storeFree) (ha : a < arrayBytes) :
    exec (.readEraseCounter req a) s = .next (s.updStore fun x =>
      { (x.setCmd 0x50 .completed (sectorOf a) req x.cmdCount) with result := BitVec.ofNat 32 (min 0xFFFFFFFF (rowOf x.rows (sectorOf a)).counter) }) :=
  storeRun_oneOperand h (c := 0x50) rfl (by decide) (operandWrite_counter h ha) h.2.2

theorem exec_returnToRead_free (h : s.storeFree) :
    exec (.returnToRead req) s = .next (s.updStore fun x => { (x.setCmd 0xF0 .completed x.cmdSector req x.cmdCount) with margin := 0 }) := by
  obtain ⟨hup, hseq, hwait⟩ := h
  have hread : s.store.toRead req = { (s.store.setCmd 0xF0 .completed s.store.cmdSector req s.store.cmdCount) with margin := 0 } := by
    rw [Store.toRead, ← hseq]
    rfl
  have hdrain : (s.updStore fun x => x.toRead req).store.waiting.length = 0 := congrArg List.length hwait
  rw [exec_returnToRead, execReturnToRead, hseq, if_neg (not_bnot_of_eq_true hup)]
  dsimp only
  rw [if_pos rfl, hdrain]
  exact next_congr (congrArg (fun x : Store => { s with store := x }) hread)

end Sequences

section Suspension

variable {s : State} {req : Requester} {us : Nat} {e : StoreErase}

/-- The erase's run time at a moment. -/
def State.eraseRan (s : State) (us : Nat) : State := s.updStore fun x => { x with erase := x.erase.map fun e => { e with runTime := max e.runTime us } }

theorem eraseRan_free (h : s.storeFree) : (s.eraseRan us).storeFree := h

theorem eraseRan_none (he : s.store.erase = none) : s.eraseRan us = s := by
  have hsame : ({ s.store with erase := s.store.erase.map fun e => { e with runTime := max e.runTime us } } : Store) = s.store := by
    rw [he, Option.map_none, ← he]
  exact congrArg (fun x : Store => { s with store := x }) hsame

theorem eraseRan_erase (he : s.store.erase = some e) : (s.eraseRan us).store.erase = some { e with runTime := max e.runTime us } := by
  change s.store.erase.map _ = _
  rw [he]
  rfl

/-- 0x31 denied. -/
def State.denySuspend (s : State) (req : Requester) : State := (s.updStore fun x => x.setCmd 0x31 .suspendDenied x.cmdSector req x.cmdCount).raise 500

/-- 0x31 granted to an erase. -/
def State.grantSuspend (s : State) (req : Requester) (e : StoreErase) : State :=
  s.updStore fun x => { (x.setCmd 0x31 .completed (e.sectors.headD 0) req x.cmdCount) with erase := some { e with susp := .explicit } }

theorem eraseSuspend_none (he : s.store.erase = none) : s.eraseSuspend req = s.denySuspend req := by
  rw [State.eraseSuspend, he]
  rfl

theorem eraseSuspend_running (he : s.store.erase = some e) (hprog : s.store.prog = none) (hsusp : e.susp = .running) :
    s.eraseSuspend req = if e.runTime < 50 then s.denySuspend req else s.grantSuspend req e := by
  simp only [State.eraseSuspend, he, hsusp, hprog, Option.isSome_none, Bool.false_or, decide_eq_true_eq]
  rfl

theorem eraseSuspend_program (he : s.store.erase = some e) (hprog : s.store.prog.isSome = true) (hsusp : e.susp ≠ .autoSuspended) :
    s.eraseSuspend req = s.denySuspend req := by
  rw [State.eraseSuspend, he]
  dsimp only
  cases hs : e.susp with
  | autoSuspended => exact absurd hs hsusp
  | running => exact if_pos (by rw [hprog]; rfl)
  | explicit => exact if_pos hprog
  | rescue => exact if_pos hprog

theorem eraseSuspend_auto (he : s.store.erase = some e) (hsusp : e.susp = .autoSuspended) : s.eraseSuspend req = s.grantSuspend req e := by
  simp only [State.eraseSuspend, he, hsusp]
  rfl

theorem eraseSuspend_waiting : (s.eraseSuspend req).store.waiting = s.store.waiting := by
  unfold State.eraseSuspend
  dsimp only
  repeat' split
  all_goals simp [Store.setCmd]

theorem exec_eraseSuspend_free (h : s.storeFree) : exec (.eraseSuspend req us) s = .next ((s.eraseRan us).eraseSuspend req) := by
  have hfree := eraseRan_free (us := us) h
  refine storeRun_noOperand hfree ?_ (eraseSuspend_waiting.trans hfree.2.2)
  exact congrArg (fun t : State => t.eraseSuspend req) (openAt_closed _ hfree req .unlocked2)

theorem denySuspend_eraseRan (he : s.store.erase = some e) : (s.eraseRan us).denySuspend req = (s.updStore fun x =>
    { (x.setCmd 0x31 .suspendDenied x.cmdSector req x.cmdCount) with erase := some { e with runTime := max e.runTime us } }).raise 500 := by
  have hstore := congrArg (fun r : Option StoreErase => { (s.store.setCmd 0x31 .suspendDenied s.store.cmdSector req s.store.cmdCount) with erase := r })
    (eraseRan_erase (us := us) he)
  exact congrArg (fun x : Store => ({ s with store := x } : State).raise 500) hstore

theorem exec_eraseResume_free (h : s.storeFree) : exec (.eraseResume req) s = .next (s.eraseResume req) := by
  have hwait : (s.eraseResume req).store.waiting = s.store.waiting := by
    simp only [State.eraseResume, State.updStore]
    repeat' split
    all_goals rfl
  refine storeRun_noOperand h ?_ (hwait.trans h.2.2)
  exact congrArg (fun t : State => t.eraseResume req) (openAt_closed _ h req .unlocked2)

theorem abandon_open {x : Store} {o : OpenSeq} (ho : x.seq = some o) :
    x.abandon.seq = none ∧ x.abandon.cmdResult = .abandoned ∧ x.abandon.array = x.array ∧ x.abandon.prog = x.prog ∧ x.abandon.waiting = x.waiting := by
  unfold Store.abandon
  rw [ho]
  exact ⟨rfl, rfl, rfl, rfl, rfl⟩

end Suspension

/-- Settles O36: each sequence by its operands' meaning, a suspension by the erase that stands. -/
theorem storeSequencesAct : Obligations.StoreSequencesAct := by
  refine ⟨fun s req h => ⟨fun a w v ha hin => ⟨fun r hr => ?_, fun hr => ⟨fun hrise => ?_, fun hrise => ?_⟩⟩,
      fun a ws ha hin hlen hhead hasc => ⟨fun r hr => ?_, fun hr => ⟨fun hrise => ?_, fun hrise => ?_⟩⟩,
      fun a offs hlen hin hdistinct hbank => ⟨exec_eraseSector_opens s req h a offs hlen hin hdistinct hbank, fun r hr => ?_, fun hr => ?_⟩,
      fun m => ⟨fun hm => ?_, fun hm => ?_⟩, fun a ha => exec_readEraseCounter_free h ha, exec_returnToRead_free h⟩,
    fun s req us h => ⟨fun e he hprog hsusp => ⟨fun hlong => ?_, fun hshort => ?_⟩, fun he => ?_, fun e he hprog hsusp => ?_, fun e he hsusp => ?_,
      fun he => ?_, fun e he hsusp => ?_⟩, fun s o ho hwait => ?_⟩
  · exact (exec_program64 s req h a w v ha hin).trans (next_congr ((startProgram_cases s 0x10 req a _).1 r hr))
  · exact (exec_program64 s req h a w v ha hin).trans (next_congr (((startProgram_cases s 0x10 req a _).2 hr).1 hrise))
  · exact (exec_program64 s req h a w v ha hin).trans (next_congr (((startProgram_cases s 0x10 req a _).2 hr).2 hrise))
  · exact (exec_program256 s req h a ws ha hin hlen hhead hasc).trans (next_congr ((startProgram_cases s 0x20 req a _).1 r hr))
  · exact (exec_program256 s req h a ws ha hin hlen hhead hasc).trans (next_congr (((startProgram_cases s 0x20 req a _).2 hr).1 hrise))
  · exact (exec_program256 s req h a ws ha hin hlen hhead hasc).trans (next_congr (((startProgram_cases s 0x20 req a _).2 hr).2 hrise))
  · exact (exec_eraseStart_starts s req h a offs).trans (next_congr ((startErase_cases s req _ false).1 r hr))
  · exact (exec_eraseStart_starts s req h a offs).trans (next_congr ((startErase_cases s req _ false).2 hr))
  · exact (exec_marginMode_free m h).trans (next_congr (if_pos hm))
  · exact (exec_marginMode_free m h).trans (next_congr (if_neg (Nat.not_le_of_lt hm)))
  · rw [exec_eraseSuspend_free h, eraseSuspend_running (eraseRan_erase he) hprog hsusp]
    exact next_congr (if_neg (Nat.not_lt_of_le hlong))
  · rw [exec_eraseSuspend_free h, eraseSuspend_running (eraseRan_erase he) hprog hsusp]
    exact next_congr ((if_pos hshort).trans (denySuspend_eraseRan he))
  · rw [exec_eraseSuspend_free h, eraseRan_none he, eraseSuspend_none he]
    rfl
  · rw [exec_eraseSuspend_free h, eraseSuspend_program (eraseRan_erase he) hprog hsusp, denySuspend_eraseRan he]
  · rw [exec_eraseSuspend_free h, eraseSuspend_auto (eraseRan_erase he) hsusp]
    rfl
  · rw [exec_eraseResume_free h]
    simp only [State.eraseResume, State.updStore, Store.setCmd, he]
  · rw [exec_eraseResume_free h]
    simp only [State.eraseResume, State.updStore, Store.setCmd, he]
    rw [if_neg hsusp]
  · obtain ⟨hseq, hresult, harray, hprog, hkept⟩ := abandon_open ho
    have hdrain : (s.updStore Store.abandon).store.waiting.length = 0 := congrArg List.length (hkept.trans hwait)
    refine ⟨?_, hseq, hresult, harray, hprog⟩
    rw [exec_storeSequenceTimeout, execStoreSequenceTimeout, ho]
    dsimp only
    rw [hdrain]
    rfl

end Sys2Proof.Machine
end

