-- ==== Sys2Proof/Proofs/StoreRuns.lean ====
section
/-! How programs and erases of the store die end, and what reads of its array answer (R429 to R440). -/

namespace Sys2Proof.Machine

section Runs

variable {s : State}

theorem skipLogLine_store (s : State) : s.skipLogLine.store.array = s.store.array ∧ s.skipLogLine.store.prog = s.store.prog ∧
    s.skipLogLine.store.cmdResult = s.store.cmdResult ∧ s.skipLogLine.store.faultCount = s.store.faultCount ∧
    s.skipLogLine.store.faultCause = s.store.faultCause ∧ s.skipLogLine.store.faultSector = s.store.faultSector := by
  simp [State.skipLogLine]

/-- A failed program leaves its sector's first failure, and each bit to be cleared open. -/
theorem exec_storeProgramComplete_failed {p : StoreProgram} (hp : s.store.prog = some p) :
    ∃ t, exec (.storeProgramComplete false) s = .next t ∧ t.store.cmdResult = .programFail ∧ t.store.prog = none ∧
      t.store.array = programBytes s.store.array p.offset (failedBytes s.free p.bytes) ∧ t.store.faultCount = satAdd 0xFFFF s.store.faultCount 1 ∧
      (s.store.faultCause = 0 → t.store.faultCause = 1 ∧ t.store.faultSector = sectorOf p.offset) := by
  rw [exec_storeProgramComplete, execStoreProgramComplete, hp]
  refine ⟨_, rfl, ?_⟩
  dsimp only
  split
  case isTrue =>
    obtain ⟨harray, hprog, hresult, hcount, hcause, hsector⟩ := skipLogLine_store ((({ (s.updStore fun x =>
      ({ (x.setCmd x.cmdCode .programFail (sectorOf p.offset) p.requester x.cmdCount) with
         array := programBytes x.array p.offset (failedBytes s.free p.bytes) }).noteFault 1 (sectorOf p.offset)) with free := s.free + p.bytes.length } : State).updStore
      fun x => { x with prog := none, readWaits := x.readWaits.set (sectorBank (sectorOf p.offset)) 0 }).raise 496)
    rw [harray, hprog, hresult, hcount, hcause, hsector]
    simp +contextual [Store.noteFault, Store.setCmd]
  case isFalse => simp +contextual [Store.noteFault, Store.setCmd]

/-- The areas that the model holds decoded are beside the array, the rows and the intents. -/
theorem areaErased_store (s : State) (n : Nat) : (s.areaErased n).store.array = s.store.array ∧ (s.areaErased n).store.rows = s.store.rows ∧
    (s.areaErased n).store.intentPending = s.store.intentPending := by
  unfold State.areaErased
  repeat' split
  all_goals exact ⟨rfl, rfl, rfl⟩

theorem countErase_store (s : State) (n : Nat) : (s.countErase n).store.array = s.store.array ∧
    (s.countErase n).store.rows = setRow s.store.rows { rowOf s.store.rows n with counter := satAdd 0xFFFFFFFF (rowOf s.store.rows n).counter 1, intent := false } ∧
    (s.countErase n).store.intentPending = s.store.intentPending := by
  unfold State.countErase
  dsimp only
  split <;> simp

theorem sectorErased_store (s : State) (n : Nat) : (s.sectorErased n).store.array = memEraseSector s.store.array n ∧
    (s.sectorErased n).store.rows =
      setRow s.store.rows { rowOf s.store.rows n with counter := satAdd 0xFFFFFFFF (rowOf s.store.rows n).counter 1, intent := false } ∧
    (s.sectorErased n).store.intentPending = s.store.intentPending.filter (· != n) := by
  obtain ⟨harray, hrows, hpend⟩ := areaErased_store
    (s.updStore fun x => { x with array := memEraseSector x.array n, intentPending := x.intentPending.filter (· != n) }) n
  obtain ⟨harray', hrows', hpend'⟩ := countErase_store
    ((s.updStore fun x => { x with array := memEraseSector x.array n, intentPending := x.intentPending.filter (· != n) }).areaErased n) n
  refine ⟨harray'.trans harray, ?_, hpend'.trans hpend⟩
  rw [hrows] at hrows'
  exact hrows'

theorem foldl_sectorErased_noIntent (l : List Nat) : ∀ s : State, s.store.intentPending = [] → (l.foldl State.sectorErased s).store.intentPending = [] := by
  induction l with
  | nil => exact fun s h => h
  | cons n l ih =>
    intro s h
    refine ih _ ((sectorErased_store s n).2.2.trans ?_)
    rw [h]
    rfl

theorem nextIntents_none (h : s.store.intentPending = []) : s.nextIntents = s := by
  rw [State.nextIntents, h]
  rfl

theorem nextIntents_cons {n : Nat} {rest : List Nat} (h : s.store.intentPending = n :: rest) :
    s.nextIntents = s.updStore fun x => { x with erase := some {
      requester := .keeper, sectors := ((n :: rest).filter fun m => sectorBank m == sectorBank n).take 8, susp := .running, runTime := 0, fromIntent := true } } := by
  have hfirst : ¬ (((n :: rest).filter fun m => sectorBank m == sectorBank n).take 8).isEmpty = true := by
    rw [List.filter_cons_of_pos (by simp), List.take_succ_cons]
    exact Bool.false_ne_true
  rw [State.nextIntents, h]
  exact if_neg hfirst

theorem exec_storeEraseComplete_verified {e : StoreErase} (he : s.store.erase = some e) (hrun : e.susp = .running) (hpend : s.store.intentPending = []) :
    exec (.storeEraseComplete 0) s = .next ((e.sectors.foldl State.sectorErased s).updStore fun x =>
      { (x.setCmd 0x30 .completed (e.sectors.headD 0) e.requester e.sectors.length) with erase := none }) := by
  rw [exec_storeEraseComplete, execStoreEraseComplete, he]
  exact (if_neg (not_not.mpr hrun)).trans (next_congr (nextIntents_none (foldl_sectorErased_noIntent e.sectors s hpend)))

end Runs

section Reads

variable {s : State} {a : Nat}

theorem storeArrayRead_gate (hup : s.storeUp = true) (ha : a < arrayBytes) : ¬ (!s.storeUp || decide (arrayBytes ≤ a)) = true := by
  rw [hup, decide_eq_false (Nat.not_le_of_lt ha)]
  exact Bool.false_ne_true

/-- The word that a read answers, zero where the sector's content is not given out. -/
def State.wordRead (s : State) (a : Nat) (z : Bool) : State := s.afterRead a (if z then 0 else s.readWord a)

theorem exec_storeArrayRead_busy {kind : StoreReadKind} {core : Option DieIx} {differs : Bool} (hup : s.storeUp = true) (ha : a < arrayBytes)
    (hbusy : bankBusy s.store (sectorBank (sectorOf a)) = true) :
    exec (.storeArrayRead kind a core differs) s =
      .next (s.updStore fun x => { x with readWaits := x.readWaits.set (sectorBank (sectorOf a)) (x.readWaits[sectorBank (sectorOf a)] + 1) }) :=
  (if_neg (storeArrayRead_gate hup ha)).trans (if_pos hbusy)

theorem exec_storeArrayRead_fetch {core : Option DieIx} {differs : Bool} (hup : s.storeUp = true) (ha : a < arrayBytes)
    (hfree : bankBusy s.store (sectorBank (sectorOf a)) = false) :
    exec (.storeArrayRead .fetch a core differs) s = .next (s.wordRead a (underErase s.store (sectorOf a))) :=
  (if_neg (storeArrayRead_gate hup ha)).trans (if_neg (Bool.eq_false_iff.mp hfree))

theorem dataRead_margin0 (hm : s.store.margin = 0) : s.dataRead a = if underErase s.store (sectorOf a) then 0 else s.readWord a := by
  rw [State.dataRead, hm]
  rfl

theorem exec_storeArrayRead_data {core : Option DieIx} (hup : s.storeUp = true) (ha : a < arrayBytes)
    (hfree : bankBusy s.store (sectorBank (sectorOf a)) = false) (hxo : s.xoOver (sectorOf a) = none) (hm : s.store.margin = 0) :
    exec (.storeArrayRead .data a core false) s = .next (s.wordRead a (underErase s.store (sectorOf a))) := by
  refine (if_neg (storeArrayRead_gate hup ha)).trans ((if_neg (Bool.eq_false_iff.mp hfree)).trans ?_)
  dsimp only
  rw [hxo, dataRead_margin0 hm]
  rfl

theorem exec_storeArrayRead_hashing {core : Option DieIx} {differs : Bool} (hup : s.storeUp = true) (ha : a < arrayBytes)
    (hfree : bankBusy s.store (sectorBank (sectorOf a)) = false) :
    exec (.storeArrayRead .hashing a core differs) s =
      .next (s.wordRead a (!(s.store.hashPort && ((s.xoOver (sectorOf a)).map (·.hashPort)).getD true) || underErase s.store (sectorOf a))) := by
  have hword : ∀ p z : Bool, (if p && !z then s.readWord a else 0) = if !p || z then 0 else s.readWord a := by
    intro p z
    cases p <;> cases z <;> rfl
  have hopen : (s.store.hashPort && (match s.xoOver (sectorOf a) with | some d => d.hashPort | none => true)) =
      (s.store.hashPort && ((s.xoOver (sectorOf a)).map (·.hashPort)).getD true) := by
    cases s.xoOver (sectorOf a) <;> rfl
  refine (if_neg (storeArrayRead_gate hup ha)).trans ((if_neg (Bool.eq_false_iff.mp hfree)).trans ?_)
  refine next_congr (congrArg (s.afterRead a) ?_)
  exact (congrArg (fun p => if p && !underErase s.store (sectorOf a) then s.readWord a else 0) hopen).trans (hword _ _)

theorem exec_storeArrayRead_executeOnly {x : XoDesc} {differs : Bool} (hup : s.storeUp = true) (ha : a < arrayBytes)
    (hfree : bankBusy s.store (sectorBank (sectorOf a)) = false) (hxo : s.xoOver (sectorOf a) = some x) :
    exec (.storeArrayRead .data a none differs) s = .next ((s.updStore fun y => { y with lastRead := 0 }).raise2 501 (BitVec.ofNat 32 (sectorOf a)) 0) := by
  refine (if_neg (storeArrayRead_gate hup ha)).trans ((if_neg (Bool.eq_false_iff.mp hfree)).trans (if_pos ?_))
  rw [hxo]
  rfl

/-- An empty staging slot, and the sectors with no rule of their own, read the bytes that programs left. -/
theorem arrayByte_plain (h : (sectorOf a = 448 ∧ s.opt.staging.next = 0 ∧ s.opt.staging.image = none) ∨ 781 ≤ sectorOf a ∧ sectorOf a ≤ 1023 ∨
    1921 ≤ sectorOf a ∧ sectorOf a ≤ 2031) : s.arrayByte a = some (memRead s.store.array a) := by
  rcases h with ⟨hn, hnext, himg⟩ | hn
  · have hlow : ¬ a < 0x1B00000 ∧ ¬ a < 0x1C00000 := by
      unfold sectorOf at hn
      omega
    simp [State.arrayByte, isFactory, hn, State.optionByte, hlow, himg, hnext]
  · have hlisted : ¬ 2032 ≤ sectorOf a ∧ sectorOf a ≠ 464 ∧ sectorOf a ≠ 1408 ∧ ¬ (416 ≤ sectorOf a ∧ sectorOf a ≤ 463) ∧
        ¬ (1409 ≤ sectorOf a ∧ sectorOf a ≤ 1920) ∧ ¬ (525 ≤ sectorOf a ∧ sectorOf a ≤ 780) ∧ ¬ sectorOf a ≤ 383 ∧ ¬ sectorOf a ≤ 399 ∧ ¬ sectorOf a ≤ 415 ∧
        ¬ (465 ≤ sectorOf a ∧ sectorOf a ≤ 524) ∧ ¬ (1024 ≤ sectorOf a ∧ sectorOf a ≤ 1407) := by
      omega
    obtain ⟨h1, h2, h3, h4, h5, h6, h7, h8, h9, h10, h11⟩ := hlisted
    have hopaque : s.opaqueSector (sectorOf a) = false := by
      simp only [State.opaqueSector, if_neg h7, if_neg h8, if_neg h9, if_neg h10]
      rw [← Bool.decide_and, decide_eq_false h11]
      rfl
    simp only [State.arrayByte, isFactory, isEventLog, decide_eq_true_eq, Bool.and_eq_true, if_neg h1, if_neg h2, if_neg h3, if_neg h4, if_neg h5, if_neg h6]
    rw [hopaque]
    rfl

/-- A slot of the event log with a record reads in the record's layout. -/
theorem arrayByte_eventLog {i o : Nat} {r : EventRecord} (hi : i < 1048576) (ho : o < 32) (hr : s.keeper.ev.log.find? (fun p => p.1 == i) = some (i, r)) :
    s.arrayByte (0x5810000 + 32 * i + o) = some (fieldByte (recordFields r) o) := by
  have hsector : 1409 ≤ sectorOf (0x5810000 + 32 * i + o) ∧ sectorOf (0x5810000 + 32 * i + o) ≤ 1920 := by
    unfold sectorOf
    omega
  have hslot : 0x5810000 + 32 * i + o - 0x5810000 = 32 * i + o := by omega
  have hquot : (32 * i + o) / 32 = i := by omega
  have hrem : (32 * i + o) % 32 = o := by omega
  have hnot : ¬ 2032 ≤ sectorOf (0x5810000 + 32 * i + o) ∧ sectorOf (0x5810000 + 32 * i + o) ≠ 464 ∧ sectorOf (0x5810000 + 32 * i + o) ≠ 1408 ∧
      ¬ (416 ≤ sectorOf (0x5810000 + 32 * i + o) ∧ sectorOf (0x5810000 + 32 * i + o) ≤ 463) := by
    omega
  obtain ⟨h1, h2, h3, h4⟩ := hnot
  simp only [State.arrayByte, isFactory, isEventLog, decide_eq_true_eq, Bool.and_eq_true, if_neg h1, if_neg h2, if_neg h3, if_neg h4, if_pos hsector,
    Recorder.slotByte, hslot, hquot, hrem, hr]

/-- Each copy of the protection set reads in its layout. -/
theorem arrayByte_protection {o : Nat} (ho : o < 0x10000) : s.arrayByte (0x1D00000 + o) = some (protByte s.store.protCopies[0] o) ∧
    s.arrayByte (0x5800000 + o) = some (protByte s.store.protCopies[1] o) := by
  have h0 : sectorOf (0x1D00000 + o) = 464 := by unfold sectorOf; omega
  have h1 : sectorOf (0x5800000 + o) = 1408 := by unfold sectorOf; omega
  have ho0 : (0x1D00000 + o) % 0x10000 = o := by omega
  have ho1 : (0x5800000 + o) % 0x10000 = o := by omega
  constructor
  · simp [State.arrayByte, isFactory, h0, ho0]
  · simp [State.arrayByte, isFactory, h1, ho1]

end Reads

/-- Settles O37: a run by how it verifies, a read by its bank, its range and its area. -/
theorem storeRunsAndReadsAct : Obligations.StoreRunsAndReadsAct := by
  refine ⟨fun s p hp => ⟨?_, exec_storeProgramComplete_failed hp⟩, fun s e he => ⟨fun hrun hpend => exec_storeEraseComplete_verified he hrun hpend, ?_⟩,
    fun s => ⟨nextIntents_none, fun n rest h => nextIntents_cons h⟩, fun s n => ⟨(sectorErased_store s n).1, (sectorErased_store s n).2.1⟩,
    fun s a core hup ha => ⟨fun kind differs hbusy => exec_storeArrayRead_busy hup ha hbusy, fun hfree => ⟨fun differs => exec_storeArrayRead_fetch hup ha hfree,
      fun hxo hm => ⟨exec_storeArrayRead_data hup ha hfree hxo hm, fun differs => ?_⟩,
      fun x differs hxo => ⟨⟨_, exec_storeArrayRead_executeOnly hup ha hfree hxo, rfl⟩, ?_⟩⟩⟩,
    fun s a h => arrayByte_plain h, fun s i r o hi ho hr => arrayByte_eventLog hi ho hr, fun s o ho => arrayByte_protection ho,
    fun s a w hm hw => ⟨?_, ?_⟩, fun x b => ⟨fun p hp hb => ?_, fun e he hrun hb => ?_⟩, fun s e he => ⟨fun hrun hwait => ?_, fun hrescue hauto hprog hwait => ?_⟩⟩
  · rw [exec_storeProgramComplete, execStoreProgramComplete, hp]
    rfl
  · refine ⟨_, by rw [exec_storeEraseTimeout, execStoreEraseTimeout, he], ?_, ?_, ?_, ?_, ?_⟩ <;> simp [Store.noteFault, Store.setCmd]
  · rw [exec_storeArrayRead_hashing hup ha hfree, hxo]
    exact next_congr (by rw [Option.map_none, Option.getD_none, Bool.and_true]; rfl)
  · rw [exec_storeArrayRead_hashing hup ha hfree, hxo]
    rfl
  · rw [State.readWord, hw, Option.getD_some]
  · have hfree : (if s.store.margin = 0 ∧ (s.arrayWord a).isSome = true then s.free else s.free + 2) = s.free := if_pos ⟨hm, by rw [hw]; rfl⟩
    rw [State.afterRead, hfree]
    rfl
  · rw [bankBusy, hp]
    simp [hb]
  · have hmine : (e.susp == .running && sectorBank (e.sectors.headD 0) == b) = true := by
      rw [hrun, hb, beq_self_eq_true, beq_self_eq_true]
      rfl
    rw [bankBusy, he]
    exact Bool.or_eq_true_iff.mpr (Or.inr hmine)
  · rw [exec_storeEraseAutoSuspend, execStoreEraseAutoSuspend, he]
    exact if_pos ⟨hrun, hwait⟩
  · rw [exec_storeEraseAutoResume, execStoreEraseAutoResume, he]
    exact if_pos ⟨hrescue, hauto, hprog, hwait⟩

end Sys2Proof.Machine
end

