-- ==== Sys2Proof/Proofs/Firmware.lean ====
section
/-! Firmware download, commit and activation (R444 to R452). -/

namespace Sys2Proof.Machine

section Firmware

variable {s : State} {ref : CmdRef}

theorem fwGate_admits {f : State → State × Status} (h : s.admits .fwCommit ref) : s.fwGate ref f = .next ((f s).1.complete ref (f s).2 0) :=
  adminThen_admits h

/-- A download at offset 0 discards the slot that does not run. -/
theorem exec_firmwareImageDownload_first {len : Nat} {last : Bool} {img : FwImage} (h : s.admits .fwDownload ref) (hlen : len ≠ 0)
    (haligned : len % 4096 = 0 ∨ last = true) :
    exec (.firmwareImageDownload ref 0 len last img) s =
      .next (((((s.countErases (slotSector s.targetSlot) 384).noteSlot s.targetSlot fun _ => { emptySlot with state := .downloading, image := some img }).updFw fun x =>
        { x with pendingSlot := if x.pendingSlot = some s.targetSlot then none else x.pendingSlot, download := some (ref.ctrl.val, len) })).complete ref stOk 0) := by
  have hgo : ¬ (len = 0 ∨ (len % 4096 ≠ 0 ∧ last = false)) := by
    rintro (h0 | ⟨hodd, hmore⟩)
    · exact hlen h0
    · exact haligned.elim hodd fun hl => Bool.false_ne_true (hmore.symm.trans hl)
  rw [exec_firmwareImageDownload, execFirmwareImageDownload, adminThen_admits h]
  exact (if_pos rfl).trans (if_neg hgo)

/-- A later piece is judged by its controller and its offset. -/
theorem exec_firmwareImageDownload_later {off len c next : Nat} {last : Bool} {img : FwImage} (h : s.admits .fwDownload ref) (hoff : off ≠ 0)
    (hdown : s.fw.download = some (c, next)) :
    exec (.firmwareImageDownload ref off len last img) s =
      if c ≠ ref.ctrl.val then .next (s.complete ref stSequenceError 0)
      else if off ≠ next ∨ len = 0 ∨ (len % 4096 ≠ 0 ∧ last = false) then
        .next (((s.noteSlot s.targetSlot fun _ => emptySlot).updFw fun x => { x with download := none }).complete ref stInvalidField 0)
      else .next (((s.updSlot s.targetSlot fun x => { x with image := some img }).updFw fun x => { x with download := some (c, next + len) }).complete ref stOk 0) := by
  rw [exec_firmwareImageDownload, execFirmwareImageDownload, adminThen_admits h]
  refine (if_neg hoff).trans ?_
  rw [hdown]

theorem replace_running {n : Nat} {k : Fin 2} (hk : s.commitSlot n = some k) (hrun : s.fw.running = some k) : s.replace ref n = (s, stInvalidSlot) := by
  rw [State.replace, hk]
  exact if_pos hrun

theorem replace_image {n bytes c : Nat} {k : Fin 2} {i : FwImage} (hk : s.commitSlot n = some k) (hrec : s.inRecovery = false) (hrun : s.fw.running ≠ some k)
    (hi : s.fw.slots[k].image = some i) (hdown : s.fw.download = some (c, bytes)) :
    s.replace ref n =
      if i.deferred then (s.acceptCommit ref k i, stOk)
      else if s.headerCheck i bytes then (s.acceptCommit ref k i, stOk)
      else ((s.noteSlot k fun _ => emptySlot).updFw fun x => { x with download := none }, stInvalidImage) := by
  rw [State.replace, hk]
  refine (if_neg hrun).trans ?_
  rw [hi, hdown]
  exact if_neg (Bool.eq_false_iff.mp hrec)

theorem exec_firmwareCommitReplaceActivate_admits {n : Nat} (h : s.admits .fwCommit ref) :
    exec (.firmwareCommitReplaceActivate ref n) s =
      let r := if (s.replace ref n).2 = stOk then
        ((((s.replace ref n).1.updFw fun x => { x with pendingSlot := s.commitSlot n }).keeperLine 2), stFwPending) else s.replace ref n
      .next (r.1.complete ref r.2 0) := by
  rw [exec_firmwareCommitReplaceActivate, execFirmwareCommitReplaceActivate, fwGate_admits h]

theorem exec_firmwareCommitActivateAtReset_slot {n : Nat} {k : Fin 2} (h : s.admits .fwCommit ref) (hk : s.commitSlot n = some k) :
    exec (.firmwareCommitActivateAtReset ref n) s =
      let r := if s.fw.running = some k then (((s.updFw fun x => { x with pendingSlot := none }).keeperLine 2).raiseAt ref.ctrl 471 0 0, stOk)
        else if activatable s.fw.slots[k].state then (((s.updFw fun x => { x with pendingSlot := some k }).keeperLine 2).raiseAt ref.ctrl 471 0 0, stFwPending)
        else (s, stInvalidImage)
      .next (r.1.complete ref r.2 0) := by
  rw [exec_firmwareCommitActivateAtReset, execFirmwareCommitActivateAtReset, fwGate_admits h, hk]

/-- A slot that may be activated is committed again by its image. -/
theorem recommit_activatable {n : Nat} {k : Fin 2} {i : FwImage} (hact : activatable s.fw.slots[k].state = true) :
    s.recommit ref n k i = if i.deferred || s.headerCheck i (i.bodyLen + 4096) then (s.raiseAt ref.ctrl 471 0 0, stOk)
      else (s.noteSlot k fun _ => emptySlot, stInvalidImage) := by
  have hdone : ¬ s.fw.slots[k].state = .downloading := by
    intro hdown
    rw [hdown] at hact
    exact nomatch hact
  exact (if_neg hdone).trans (if_neg (not_bnot_of_eq_true hact))

/-- Activation now of a slot that does not run, with no recovery, sanitize or diapause in the way. -/
theorem exec_firmwareCommitActivateNow_slot {n : Nat} {k : Fin 2} {i : FwImage} (h : s.admits .fwCommit ref) (hk : s.commitSlot n = some k)
    (hrec : s.inRecovery = false) (hsan : s.sanitizing = false) (hprep : s.preparing = false) (hdia : s.diapauseReady = false)
    (hrun : s.fw.running ≠ some k) (hi : s.fw.slots[k].image = some i) :
    exec (.firmwareCommitActivateNow ref n) s =
      let r := s.recommit ref n k i
      let q := if r.2 ≠ stOk then r
        else if s.liveActivatable i then ((r.1.updFw fun x => { x with activating := some k }).hostPauseFetch, stOk)
        else ((r.1.updFw fun x => { x with pendingSlot := some k }).keeperLine 2, stFwPending)
      .next (q.1.complete ref q.2 0) := by
  have hgo : ¬ (s.sanitizing || s.preparing || s.diapauseReady) = true := by
    rw [hsan, hprep, hdia]
    exact Bool.false_ne_true
  rw [exec_firmwareCommitActivateNow, execFirmwareCommitActivateNow, fwGate_admits h, if_neg (Bool.eq_false_iff.mp hrec), if_neg hgo, hk]
  dsimp only
  rw [if_neg hrun, hi]

end Firmware

/-- Settles O38: a download by its offset and controller, a commit by its slot and image, the activation by the lanes. -/
theorem firmwareCommandsAct : Obligations.FirmwareCommandsAct := by
  refine ⟨fun s ref len last img h => ⟨fun hlen haligned => exec_firmwareImageDownload_first h hlen haligned, fun off c next hoff hdown =>
      ⟨fun hc => ?_, fun hc hnext hlen haligned => ?_, fun hc hnext => ?_⟩⟩,
    fun s ref n h => ⟨?_, fun hok => ?_, fun hbad => ?_, ?_⟩,
    fun s ref n k i c bytes hk hrec => ⟨fun hrun => replace_running hk hrun, fun hrun hi hdown => ⟨fun hgood => ?_, fun hnative hbad => ?_⟩⟩,
    fun s ref n k h hk => ⟨fun hrun => ?_, fun hrun hact => ?_, fun hrun hact => ?_, fun i hrec hsan hprep hdia hrun hact hi =>
      ⟨fun hgood => ⟨fun hlive => ?_, fun hlive => ?_⟩, fun hnative hbad => ?_⟩⟩, fun s k hk hbarrier hfree => ?_⟩
  · exact (exec_firmwareImageDownload_later h hoff hdown).trans (if_pos hc)
  · have hgo : ¬ (off ≠ next ∨ len = 0 ∨ (len % 4096 ≠ 0 ∧ last = false)) := by
      rintro (hne | h0 | ⟨hodd, hmore⟩)
      · exact hne hnext
      · exact hlen h0
      · exact haligned.elim hodd fun hl => Bool.false_ne_true (hmore.symm.trans hl)
    exact (exec_firmwareImageDownload_later h hoff hdown).trans ((if_neg (not_not.mpr hc)).trans (if_neg hgo))
  · exact (exec_firmwareImageDownload_later h hoff hdown).trans ((if_neg (not_not.mpr hc)).trans (if_pos (Or.inl hnext)))
  · rw [exec_firmwareCommitReplace, execFirmwareCommitReplace, fwGate_admits h]
  · rw [exec_firmwareCommitReplaceActivate_admits h]
    dsimp only
    rw [if_pos hok]
  · rw [exec_firmwareCommitReplaceActivate_admits h]
    dsimp only
    rw [if_neg hbad]
  · rw [exec_firmwareCommitBootPartition, execFirmwareCommitBootPartition, fwGate_admits h]
  · rw [replace_image hk hrec hrun hi hdown]
    by_cases hdef : i.deferred = true
    · exact if_pos hdef
    · exact (if_neg hdef).trans (if_pos (hgood.resolve_left hdef))
  · rw [replace_image hk hrec hrun hi hdown]
    exact (if_neg (Bool.eq_false_iff.mp hnative)).trans (if_neg (Bool.eq_false_iff.mp hbad))
  · rw [exec_firmwareCommitActivateAtReset_slot h hk, if_pos hrun]
  · rw [exec_firmwareCommitActivateAtReset_slot h hk, if_neg hrun, if_pos hact]
  · rw [exec_firmwareCommitActivateAtReset_slot h hk, if_neg hrun, if_neg (Bool.eq_false_iff.mp hact)]
  · have hcommit : (i.deferred || s.headerCheck i (i.bodyLen + 4096)) = true := Bool.or_eq_true_iff.mpr hgood
    rw [exec_firmwareCommitActivateNow_slot h hk hrec hsan hprep hdia hrun hi, recommit_activatable hact, if_pos hcommit]
    dsimp only
    rw [if_neg (not_not.mpr rfl), if_pos hlive]
  · have hcommit : (i.deferred || s.headerCheck i (i.bodyLen + 4096)) = true := Bool.or_eq_true_iff.mpr hgood
    rw [exec_firmwareCommitActivateNow_slot h hk hrec hsan hprep hdia hrun hi, recommit_activatable hact, if_pos hcommit]
    dsimp only
    rw [if_neg (not_not.mpr rfl), if_neg (Bool.eq_false_iff.mp hlive)]
  · have hfail : ¬ (i.deferred || s.headerCheck i (i.bodyLen + 4096)) = true := by
      rw [hnative, hbad]
      exact Bool.false_ne_true
    have hstatus : stInvalidImage ≠ stOk := by decide
    rw [exec_firmwareCommitActivateNow_slot h hk hrec hsan hprep hdia hrun hi, recommit_activatable hact, if_neg hfail]
    dsimp only
    rw [if_pos hstatus]
  · have hgo : ¬ (s.opt.barrier.isSome || (List.finRange 24).any fun l => s.lanes[l].ctxs.any (·.isSome)) = true := by
      rw [hbarrier, hfree]
      exact Bool.false_ne_true
    have hcores : ∀ t : State, (List.finRange 4).foldl (fun s g => if (Vector.replicate 4 true)[g] then s else s.regionOut g) t = t := fun t => rfl
    rw [exec_firmwareActivation, execFirmwareActivation, hk]
    exact (if_neg hgo).trans (next_congr (congrArg (fun t : State => (t.reloadPatches.hostResumeFetch.raise 473).slotServes) ((hcores _).trans (if_pos rfl))))

end Sys2Proof.Machine
end

