-- ==== Sys2Proof/Proofs/CollectorRuns.lean ====
section
/-! Tokens at the collector, the latch, flushes of the recorder, clears, injection and the self-check (R458 to R479). -/

namespace Sys2Proof.Machine

section Collector

variable {s : State} {t : EventToken} {cls : EventClass} {r : EventRecord}

/-- An event below Severe, and a consequence, only passes to the recorder. -/
theorem collect_ordinary (hcls : classOf t.source = some cls) (h : isSerious cls = false ∨ t.cause.isSome = true) :
    s.collect t = s.recordEvent (s.recordOf t cls) := by
  have hno : ¬ (isSerious cls && !(s.recordOf t cls).conseq) = true := by
    rcases h with h | h
    · rw [h]
      exact Bool.false_ne_true
    · have hconseq : (s.recordOf t cls).conseq = true := h
      rw [hconseq, Bool.not_true, Bool.and_false]
      exact Bool.false_ne_true
  rw [State.collect, hcls]
  exact if_neg hno

/-- The pending bit of a source set. -/
def State.setPend (s : State) (n : Nat) : State := s.updFc fun f => { f with pend := f.pend ||| BitVec.ofNat 512 (2 ^ n) }

/-- A Severe or Fatal event sets its pending bit and goes to the latch. -/
theorem collect_serious (hcls : classOf t.source = some cls) (hser : isSerious cls = true) (hcause : t.cause = none) :
    s.collect t =
      let p := (s.setPend t.source).latchRecord (s.recordOf t cls)
      p.1.recordEvent { s.recordOf t cls with first := p.2 } := by
  have hconseq : (s.recordOf t cls).conseq = false := congrArg Option.isSome hcause
  have hyes : (isSerious cls && !(s.recordOf t cls).conseq) = true := by
    rw [hser, hconseq]
    rfl
  rw [State.collect, hcls]
  exact if_pos hyes

theorem latchRecord_empty (h : s.keeper.fc.latch = none) :
    s.latchRecord r = (s.updFc fun f => { f with latch := some { r with first := true }, irq := f.irq.set 0 }, true) := by
  rw [State.latchRecord, h]

theorem latchRecord_full {l : EventRecord} (h : s.keeper.fc.latch = some l) :
    s.latchRecord r =
      let w := s.updFc fun f => { f with overflow := true, overflowRaised := true, irq := f.irq.set 1, second := some (f.second.getD r.source) }
      (if s.keeper.fc.overflowRaised then w else w.raise 379, false) := by
  rw [State.latchRecord, h]
  cases s.keeper.fc.overflowRaised
  case false => rfl
  case true => rfl

theorem collect_latches (hcls : classOf t.source = some cls) (hser : isSerious cls = true) (hcause : t.cause = none) (h : s.keeper.fc.latch = none) :
    s.collect t = ((s.setPend t.source).updFc fun f => { f with latch := some { s.recordOf t cls with first := true }, irq := f.irq.set 0 }).recordEvent
      { s.recordOf t cls with first := true } := by
  rw [collect_serious hcls hser hcause, latchRecord_empty (s := s.setPend t.source) h]

theorem collect_overflows {l : EventRecord} (hcls : classOf t.source = some cls) (hser : isSerious cls = true) (hcause : t.cause = none)
    (h : s.keeper.fc.latch = some l) :
    s.collect t =
      let w := (s.setPend t.source).updFc fun f =>
        { f with overflow := true, overflowRaised := true, irq := f.irq.set 1, second := some (f.second.getD t.source) }
      (if s.keeper.fc.overflowRaised then w else w.raise 379).recordEvent { s.recordOf t cls with first := false } := by
  rw [collect_serious hcls hser hcause, latchRecord_full (s := s.setPend t.source) h]
  rfl

theorem exec_eventToken_granted {i : Nat} (htok : s.keeper.fc.tokens[i]? = some t) :
    exec (.eventToken i) s = .next ((s.updFc fun f => { f with tokens := f.tokens.eraseIdx i }).collect t) := by
  rw [exec_eventToken, execEventToken, htok]

theorem startFlush_starts (hidle : s.keeper.ev.flushing = false) (hopen : s.keeper.ev.full = false) (hbuf : s.keeper.ev.buf ≠ []) :
    s.startFlush = s.updEv fun e => { e with flushing := true, buf := e.buf.map fun b => { b with flushing := true } } := by
  have hgo : ¬ (s.keeper.ev.flushing || s.keeper.ev.full || s.keeper.ev.buf.isEmpty) = true := by
    rw [hidle, hopen]
    exact mt List.isEmpty_iff.mp hbuf
  exact if_neg hgo

/-- The recorder is beside the collector. -/
theorem recordEvent_fc (s : State) (r : EventRecord) : (s.recordEvent r).keeper.fc = s.keeper.fc := by
  unfold State.recordEvent State.startFlush State.loseRecords
  dsimp only
  repeat' split
  all_goals rfl

/-- A write of ones to a register of pending bits clears those bits and no others. -/
theorem pendClear_bit (p : BitVec 512) (k : Fin 16) (mask : Word) {i : Nat} (hi : i < 512) :
    (p &&& ~~~((mask.setWidth 512) <<< (32 * k.val))).getLsbD i = (p.getLsbD i && !(decide (i / 32 = k.val) && mask.getLsbD (i % 32))) := by
  simp only [BitVec.getLsbD_and, BitVec.getLsbD_not, BitVec.getLsbD_shiftLeft, BitVec.getLsbD_setWidth, hi, decide_true, Bool.true_and]
  congr 2
  by_cases hk : i / 32 = k.val
  · have hlow : ¬ i < 32 * k.val := by omega
    have hat : i - 32 * k.val = i % 32 := by omega
    have hin : i % 32 < 512 := by omega
    rw [decide_eq_true hk, decide_eq_false hlow, hat, decide_eq_true hin]
    rfl
  · rw [decide_eq_false hk, Bool.false_and]
    by_cases hlow : i < 32 * k.val
    · rw [decide_eq_true hlow]
      rfl
    · rw [BitVec.getLsbD_of_ge mask _ (by omega), Bool.and_false, Bool.and_false]

end Collector

/-- Settles O39: a token by its class and the latch, a flush by the room of the log, an injection by factory test mode. -/
theorem collectorAndRecorderAct : Obligations.CollectorAndRecorderAct := by
  refine ⟨fun s i t cls htok hcls => ⟨fun h => ?_, fun hser hcause => ⟨fun hlatch => ?_, fun l hlatch => ?_⟩⟩,
    fun s => ⟨rfl, fun hidle hopen hbuf => startFlush_starts hidle hopen hbuf, fun hrun => ⟨fun hroom => ?_, fun hfull => ?_⟩, rfl,
      fun k mask => ⟨_, rfl, rfl, fun i hi => pendClear_bit _ k mask hi⟩⟩,
    fun s src => ⟨fun hmode => ?_, fun hmode hsrc => ?_⟩, fun s => ⟨rfl, fun hkeep => ?_⟩⟩
  · rw [exec_eventToken_granted htok, collect_ordinary hcls h]
    rfl
  · exact (exec_eventToken_granted htok).trans (next_congr (collect_latches hcls hser hcause hlatch))
  · exact (exec_eventToken_granted htok).trans (next_congr (collect_overflows hcls hser hcause hlatch))
  · exact (if_neg (not_bnot_of_eq_true hrun)).trans (next_congr (if_pos hroom))
  · exact ⟨_, (if_neg (not_bnot_of_eq_true hrun)).trans (next_congr (if_neg (Nat.not_lt_of_le hfull))), rfl, rfl, _, rfl, rfl⟩
  · have hout : (!s.factoryMode) = true := by rw [hmode]; rfl
    exact if_pos hout
  · have hknown : ¬ (classOf src.toNat).isNone = true := by rw [← Option.not_isSome, hsrc]; exact Bool.false_ne_true
    exact (if_neg (not_bnot_of_eq_true hmode)).trans (if_neg hknown)
  · have hgo : ¬ (false || !s.keeper.sup.vkeep) = true := by rw [hkeep]; exact Bool.false_ne_true
    refine ⟨_, if_neg hgo, ?_, ?_, ?_, ?_⟩
    · rw [recordEvent_fc]
      rfl
    · exact ⟨_, (congrArg Collector.latch (recordEvent_fc _ _)).trans rfl, rfl, rfl⟩
    · rw [recordEvent_fc]
      rfl
    · rw [recordEvent_fc]
      rfl

end Sys2Proof.Machine
end

