-- ==== Sys2Proof/Proofs/ManagementPort.lean ====
section
/-! Messages, commands and the tunnel of the management port (R488 to R491). -/

namespace Sys2Proof.Machine

section Port

variable {s : State} {tag : Half}

/-- An endpoint identifier that is taken, with its answer. -/
def State.takeEid (s : State) (tag : Half) (e : Byte) : State :=
  (s.updMp fun m => { m with eid := e, eidValid := true }).miAnswer tag 0 [fld 0 1 0, fld 1 1 e.toNat, fld 2 1 0]

theorem exec_setEndpointId_up {op : EidOp} {e : Byte} (h : s.keeper.mp.inService = true) :
    exec (.setEndpointId tag op e) s = .next (match op with
      | .set | .force => if 8 ≤ e.toNat ∧ e.toNat ≤ 254 then s.takeEid tag e else s.miAnswer tag 2 []
      | .reset => if s.mpEid = 0 then s.miAnswer tag 2 [] else s.takeEid tag s.mpEid
      | .discovered => s.miAnswer tag 2 []) :=
  if_pos h

theorem exec_getEndpointId_up (h : s.keeper.mp.inService = true) :
    exec (.getEndpointId tag) s = .next (
      let e := if s.keeper.mp.eidValid then s.keeper.mp.eid else 0
      s.miAnswer tag 0 [fld 0 1 e.toNat, fld 1 1 (if s.mpEid = 0 then 0 else if e = s.mpEid then 2 else 3), fld 2 1 0]) :=
  if_pos h

theorem exec_getMctpVersionSupport_up {m : Byte} (h : s.keeper.mp.inService = true) :
    exec (.getMctpVersionSupport tag m) s = .next (
      if m = 0xFF ∨ m = 0x00 ∨ m = 0x04 then s.miAnswer tag 0 [fld 0 1 1, fld 1 4 (Config.mctpVersion m.toNat).toNat] else s.miAnswer tag 0x80 []) :=
  if_pos h

theorem exec_configurationGet_up {id port : Nat} (h : s.keeper.mp.inService = true) :
    exec (.configurationGet tag id port) s = .next (
      if id = 2 then s.miAnswer tag 0 []
      else if port ≠ 2 then s.miAnswer tag 4 []
      else match id with
        | 1 => s.miAnswer tag 0 [fld 0 1 (s.keeper.mp.speed.toNat + 1)]
        | 3 => s.miAnswer tag 0 [fld 0 2 64]
        | _ => s.miAnswer tag 4 []) :=
  if_pos h

theorem exec_configurationSet_up {id port value : Nat} (h : s.keeper.mp.inService = true) :
    exec (.configurationSet tag id port value) s = .next (
      if id = 2 then s.miAnswer tag 0 []
      else if port ≠ 2 then s.miAnswer tag 4 []
      else match id with
        | 1 => if 1 ≤ value ∧ value ≤ 3 then (s.updMp fun m => { m with speed := BitVec.ofNat 2 (value - 1) }).miAnswer tag 0 [] else s.miAnswer tag 4 []
        | 3 => s.miAnswer tag (if value = 64 then 0 else 4) []
        | _ => s.miAnswer tag 4 []) :=
  if_pos h

theorem exec_configurationSet_rate {value : Nat} (h : s.keeper.mp.inService = true) :
    exec (.configurationSet tag 1 2 value) s = .next (
      if 1 ≤ value ∧ value ≤ 3 then (s.updMp fun m => { m with speed := BitVec.ofNat 2 (value - 1) }).miAnswer tag 0 [] else s.miAnswer tag 4 []) :=
  if_pos h

theorem exec_readNvmeMiDataStructure_port {port ctrl : Nat} (h : s.keeper.mp.inService = true) :
    exec (.readNvmeMiDataStructure tag 1 port ctrl) s = .next (
      if port < 2 then s.miAnswer tag 0 [fld 0 1 1, fld 2 2 64, fld 4 4 0]
      else if port = 2 then
        s.miAnswer tag 0 [fld 0 1 2, fld 2 2 64, fld 4 4 0, fld 10 1 (s.keeper.mp.addr.toNat * 2), fld 11 1 3, fld 12 1 1]
      else s.miAnswer tag 4 []) :=
  if_pos h

theorem exec_readNvmeMiDataStructure_controller {port ctrl : Nat} (h : s.keeper.mp.inService = true) :
    exec (.readNvmeMiDataStructure tag 3 port ctrl) s = .next (
      if s.liveControllers.contains ctrl then
        s.miAnswer tag 0 [fld 0 1 (ctrl - 1), fld 8 2 0x1E9C, fld 10 2 0x0512, fld 12 2 s.subsystemIds.1, fld 14 2 s.subsystemIds.2]
      else s.miAnswer tag 4 []) :=
  if_pos h

/-- The controllers that a health poll answers for. -/
def State.polledControllers (s : State) (start max : Nat) (all : Bool) : List Nat :=
  (s.liveControllers.filter fun c => decide (start ≤ c) && (all || Config.freeFlag (s.free + c))).take (max + 1)

theorem polledControllers_length_le (start max : Nat) (all : Bool) : (s.polledControllers start max all).length ≤ max + 1 :=
  (List.length_take_le _ _)

theorem polledControllers_all (start max : Nat) :
    (s.polledControllers start max true).length = min (max + 1) (s.liveControllers.filter fun c => decide (start ≤ c)).length := by
  simp only [State.polledControllers, Bool.true_or, Bool.and_true, List.length_take]

end Port

section Tunnel

variable {s : State} {c : Nat} {cid : Half} {cmd : TunnelCmd}

/-- The command reference of a tunnelled command. -/
def tunnelRef (c : Nat) (cid : Half) : CmdRef := { ctrl := ⟨(c - 1) % 2, by omega⟩, qid := 0, cid := cid, viaMi := true }

theorem exec_adminCommandTunnel_up (h : s.keeper.mp.inService = true) :
    exec (.adminCommandTunnel c cid cmd) s =
      if s.keeperOnly then .next (s.complete (tunnelRef c cid) (stMi 3) 0)
      else if c = 0 ∨ 2 < c ∨ (s.com (refDie (tunnelRef c cid))).outOfService = true ∨ (s.inRecovery = true ∧ c ≠ 1) then
        .next (s.complete (tunnelRef c cid) (stMi 4) 0)
      else match cmd with
        | .identify cns nsid cntid => execIdentify (tunnelRef c cid) cns nsid cntid s
        | .getLogPage lid nsid lsi lpo len rae => execGetLogPage (tunnelRef c cid) lid nsid lsi lpo len rae s
        | .getFeatures fid dw11 => execGetFeatures (tunnelRef c cid) fid dw11 s
        | .download offset len last image => execFirmwareImageDownload (tunnelRef c cid) offset len last image s
        | .commit slot .replace => execFirmwareCommitReplace (tunnelRef c cid) slot s
        | .commit slot .replaceActivate => execFirmwareCommitReplaceActivate (tunnelRef c cid) slot s
        | .commit slot .activateAtReset => execFirmwareCommitActivateAtReset (tunnelRef c cid) slot s
        | .commit slot .activateNow => execFirmwareCommitActivateNow (tunnelRef c cid) slot s
        | .commit _ .bootPartition => execFirmwareCommitBootPartition (tunnelRef c cid) s
        | .other => .next (s.complete (tunnelRef c cid) stInvalidOpcode 0) :=
  if_neg (not_bnot_of_eq_true h)

/-- A controller in service takes tunnelled commands. -/
theorem tunnel_reaches (hlo : 1 ≤ c) (hhi : c ≤ 2) (hserv : (s.com (refDie (tunnelRef c cid))).outOfService = false) (hrec : s.inRecovery = false) :
    ¬ (c = 0 ∨ 2 < c ∨ (s.com (refDie (tunnelRef c cid))).outOfService = true ∨ (s.inRecovery = true ∧ c ≠ 1)) := by
  rw [hserv, hrec]
  rintro (h | h | h | ⟨h, -⟩)
  · omega
  · omega
  · exact Bool.false_ne_true h
  · exact Bool.false_ne_true h

end Tunnel

/-- Settles O41: each message by what the port answers. -/
theorem mctpMessagesAct : Obligations.MctpMessagesAct := by
  refine fun s tag h => ⟨if_pos h, if_pos h, fun e => ⟨fun hlo hhi => ⟨?_, ?_⟩, fun hout => ⟨?_, ?_⟩, fun hrec => ?_, fun hrec => ?_, ?_⟩,
    fun hvalid hrec => ?_, fun hvalid hrec => ?_, fun hvalid => ?_, if_pos h, fun m => ⟨fun hm => ?_, fun h1 h2 h3 => ?_⟩, if_pos h, fun code data => rfl⟩
  · exact (exec_setEndpointId_up h).trans (next_congr (if_pos ⟨hlo, hhi⟩))
  · exact (exec_setEndpointId_up h).trans (next_congr (if_pos ⟨hlo, hhi⟩))
  · exact (exec_setEndpointId_up h).trans (next_congr (if_neg (by omega)))
  · exact (exec_setEndpointId_up h).trans (next_congr (if_neg (by omega)))
  · exact (exec_setEndpointId_up h).trans (next_congr (if_neg hrec))
  · exact (exec_setEndpointId_up h).trans (next_congr (if_pos hrec))
  · exact exec_setEndpointId_up h
  · rw [exec_getEndpointId_up h, hvalid, hrec]
    rfl
  · rw [exec_getEndpointId_up h, hvalid]
    dsimp only
    rw [if_neg hrec]
    rfl
  · refine ⟨if s.mpEid = 0 then 0 else if (0 : Byte) = s.mpEid then 2 else 3, ?_⟩
    rw [exec_getEndpointId_up h, hvalid]
    rfl
  · exact (exec_getMctpVersionSupport_up h).trans (next_congr (if_pos hm))
  · exact (exec_getMctpVersionSupport_up h).trans (next_congr (if_neg (not_or.mpr ⟨h1, not_or.mpr ⟨h2, h3⟩⟩)))

/-- Settles O42: each command by what the port answers; the tunnel by the controller that it names. -/
theorem nvmeMiCommandsAct : Obligations.NvmeMiCommandsAct := by
  refine ⟨fun s tag h => ⟨fun port ctrl => ⟨if_pos h, fun hp => ?_, fun hp => ?_, fun hp => ?_, if_pos h, fun hc => ?_, fun hc => ?_, if_pos h⟩,
      ⟨_, _, _, if_pos h, rfl⟩, fun start max all => ⟨_, _, if_pos h, polledControllers_length_le start max all, fun hall => ?_⟩,
      fun id port => ⟨if_pos h, fun hp hid => ?_, if_pos h, if_pos h, fun v => ⟨fun hid => ?_, fun hid hp => ?_, fun hlo hhi => ?_, fun hout => ?_, if_pos h⟩⟩,
      ⟨_, if_pos h⟩, if_pos h, if_pos h⟩,
    fun s c cid h => ⟨fun cmd hkeeper => ?_, fun cmd hkeeper hc => ?_, fun hkeeper hlo hhi hserv hrec => ?_⟩, fun s a v b o hb harr hlive => ?_⟩
  · exact (exec_readNvmeMiDataStructure_port h).trans (next_congr (if_pos hp))
  · exact (exec_readNvmeMiDataStructure_port h).trans (next_congr ((if_neg (by omega)).trans (if_pos hp)))
  · exact (exec_readNvmeMiDataStructure_port h).trans (next_congr ((if_neg (by omega)).trans (if_neg (by omega))))
  · exact (exec_readNvmeMiDataStructure_controller h).trans (next_congr (if_pos (List.contains_iff_mem.mpr hc)))
  · exact (exec_readNvmeMiDataStructure_controller h).trans (next_congr (if_neg (mt List.contains_iff_mem.mp hc)))
  · subst hall
    exact polledControllers_all start max
  · exact (exec_configurationGet_up h).trans (next_congr ((if_neg hid).trans (if_pos hp)))
  · exact (exec_configurationSet_up h).trans (next_congr (if_pos hid))
  · exact (exec_configurationSet_up h).trans (next_congr ((if_neg hid).trans (if_pos hp)))
  · exact (exec_configurationSet_rate h).trans (next_congr (if_pos ⟨hlo, hhi⟩))
  · exact (exec_configurationSet_rate h).trans (next_congr (if_neg (by omega)))
  · exact (exec_adminCommandTunnel_up h).trans (if_pos hkeeper)
  · exact (exec_adminCommandTunnel_up h).trans ((if_neg (Bool.eq_false_iff.mp hkeeper)).trans (if_pos (hc.imp_right Or.inl)))
  · have hruns {cmd : TunnelCmd} := (exec_adminCommandTunnel_up (c := c) (cid := cid) (cmd := cmd) h).trans
      ((if_neg (Bool.eq_false_iff.mp hkeeper)).trans (if_neg (tunnel_reaches (cid := cid) hlo hhi hserv hrec)))
    exact ⟨fun cns nsid cntid => hruns, fun lid nsid lsi lpo len rae => hruns, fun fid dw => hruns, fun off len last img => hruns, fun n => hruns, hruns⟩
  · exact exec_registerWrite_live hb harr hlive

end Sys2Proof.Machine
end
